-- ==== Sys2Proof/Word.lean ====
section
/-! DEFINITION. The words of the YD-1440: octets, 32-bit and 64-bit register words, key material. -/

namespace Sys2Proof

/-- An octet. -/
abbrev Byte := BitVec 8

/-- A 64-bit register, record word or interconnect word (R7: bit 0 is the least significant). -/
abbrev Word := BitVec 64

/-- A string of octets, first octet first. -/
abbrev Octets := List (BitVec 8)

/-- A table keyed by number, with only the entries that differ from the value an unlisted key has: keys strictly
rising. The one canonical form of every sparse store of the model. -/
abbrev Tbl (α : Type) := List (Nat × α)

end Sys2Proof
end

