-- ==== Sys2Proof/Machine/Kinds.lean ====
section
/-! DEFINITION. The named kinds that commands and states share: masters, directions, access kinds, reset kinds. -/

namespace Sys2Proof.Machine

/-- A master of the interconnect, coded as MASTER of CMP_VINFO (R528); a thread, an engine area and a DMA carry the
thread or the ring they act for (R505). -/
inductive Master where
  /-- the host through BAR0 and BAR2 -/
  | host
  /-- host-interface DMA for a ring -/
  | dma (ring : Nat)
  /-- a Tide thread -/
  | thread (t : Nat)
  /-- an engine reading or writing an area for a thread -/
  | engine (t : Nat)
  /-- the Sounding engine -/
  | sounding
  /-- the debug master -/
  | debug
  deriving DecidableEq, Repr

/-- MASTER of CMP_VINFO (R528). -/
def Master.code : Master → Nat
  | .host => 0
  | .dma _ => 1
  | .thread _ => 2
  | .engine _ => 3
  | .sounding => 4
  | .debug => 5

/-- What an access does, coded as ACCESS of CMP_VINFO (R528, R508). -/
inductive AccKind where
  | read
  | write
  | fetch
  | atomic
  deriving DecidableEq, Repr

/-- ACCESS of CMP_VINFO (R528). -/
def AccKind.code : AccKind → Nat
  | .read => 0
  | .write => 1
  | .fetch => 2
  | .atomic => 3

/-- A direction of traffic. -/
inductive Dir where
  | egress
  | ingress
  deriving DecidableEq, Repr

/-- 0 egress, 1 ingress, as RC_FLAGk and the counter scopes code it (R138, R654). -/
def Dir.code : Dir → Nat
  | .egress => 0
  | .ingress => 1

/-- How a command of a two-path family reaches its engine: through the command register, or as an engine operation that
a thread issues with a tag and the register that holds the address of its descriptor (R331, R386, R718). -/
inductive Path where
  /-- the command register family -/
  | register
  /-- thread, tag, descriptor address register -/
  | thread (t : Fin 256) (tag : BitVec 8) (rs : Fin 32)
  deriving DecidableEq, Repr

/-- What a tree read meets on the path (R477, R485): nothing; a correctable or an uncorrectable error of the node of a
level; or bit errors in words of the node of an off-chip level, which its code and its tag judge. -/
inductive NodeFind where
  | good
  | corrected (level : Nat)
  | bad (level : Nat)
  | flips (level : Nat) (words : List (Nat × BitVec 80))
  deriving DecidableEq, Repr

/-- What the SECDED checkers meet on an access of a thread (R696, R697, R330): nothing; a correctable or uncorrectable error
of the Pool word read; or one of a word of the core's local memory. -/
inductive EccFind where
  | good
  | corrected
  | bad
  | localCorrected (word : Nat)
  | localBad (word : Nat)
  deriving DecidableEq, Repr

/-- What the checkers of the on-chip memories meet while packet frames pass (R696, R697): a word of the memory UNIT
corrected; a word of the n-th frame sheltered in Eddy, or of the n-th frame retained behind the Race, uncorrectable. -/
inductive MemFind where
  | corrected (unit : BitVec 16) (word : BitVec 32)
  | shelterBad (n : Nat) (word : BitVec 32)
  | retainBad (n : Nat) (word : BitVec 32)
  deriving DecidableEq, Repr

/-- How an access reaches Culvert: a port that carries no colour (R491), or a master of the interconnect (R490). -/
inductive CulvertPort where
  /-- Basin's cell port, with the cell's generation (R475) -/
  | cell (gen : Nat)
  /-- the framers' hold port -/
  | hold
  | master (m : Master)
  deriving DecidableEq, Repr

/-- What arrives in place of an ODU frame of a channel (R561, R567, R568). -/
inductive OduRx where
  /-- a frame: its overhead, columns 1 to 16 of rows 1 to 4, row by row, its span, and BDI -/
  | frame (overhead payload : Octets) (bdi : Bool)
  | ais
  | oci
  | lck
  /-- no frame can be made out at the expected place -/
  | lost
  deriving DecidableEq, Repr

/-- An Ethernet frame toward the client of an L1 channel that holds octets of a failed frame: its octets without the FCS,
and how many of them have left (R168, R169, R172). -/
structure EthPart where
  octets : Octets
  passed : Nat
  deriving DecidableEq, Repr

/-- How the two blocks, or the two tags, of a Twin group compare (R304, R305). -/
inductive TwinCase where
  | equal
  /-- both OK and different; the reference equals the block of the first holder, of the second, or neither -/
  | differ (right : Option Bool)
  /-- one block flagged, the other OK -/
  | oneFlagged
  /-- both flagged; whether the reference differs from each -/
  | bothFlagged (dataA dataB : Bool)
  /-- the first holder's block, or the second's, is missing; whether the reference equals the other -/
  | missing (second : Bool) (same : Bool)
  /-- different, and no reference pipeline free -/
  | unresolved
  /-- short tags, or long tags, differ -/
  | tags (long : Bool)
  deriving DecidableEq, Repr

/-- A line group, LG0 to LG17 (R18). -/
abbrev Group := Fin 18
/-- A Race, RC0 to RC23 (R135). -/
abbrev RaceNo := Fin 24
/-- A Tide thread (R323). -/
abbrev ThreadNo := Fin 256
/-- A channel index, group × 160 + slot (R21). -/
abbrev Channel := Fin 2880
/-- A general register of a thread (R364). -/
abbrev GReg := Fin 32
/-- A ring (R677). -/
abbrev RingNo := Fin 67
/-- A lane instance (R550). -/
abbrev LaneNo := Fin 148
/-- A Pool (R519). -/
abbrev PoolNo := Fin 16
/-- A Culvert range (R497). -/
abbrev RangeNo := Fin 8
/-- A client port (R20). -/
abbrev Port := Fin 72
/-- A Spring page (R261). -/
abbrev PageNo := Fin 16

end Sys2Proof.Machine
end

