-- ==== Sys2Proof/Syntax.lean ====
section
/-! DEFINITION. The commands of the YD-1440: one constructor for each row of spec/opcode_table.json, with the operands
its rule names. Time-driven rows carry the Tick at which their event falls (R637). -/

namespace Sys2Proof

open Sys2Proof.Machine

/-- A command to the block, or an event it meets. -/
inductive Instr where
  /-- REGISTER_WRITE (R11). A master writes a register that has no row of its own; the field is stored, cleared or refused under its access code. -/
  | registerWrite (m : Master) (offset : BitVec 26) (wide : Bool) (v : Word)
  /-- UNLISTED_OFFSET_ACCESS (R709). An access to an unlisted offset inside a block reads 0 or is dropped, with no effect. -/
  | unlistedOffsetAccess (m : Master) (offset : BitVec 26) (wide : Bool) (write : Bool)
  /-- UNMAPPED_BAR0_ACCESS (R708). An access to BAR0 offsets 0x01A0_0000 to 0x03FF_FFFF returns a bus error. -/
  | unmappedBar0Access (m : Master) (offset : BitVec 26) (write : Bool)
  /-- WEI_GRP_CFG_WRITE (R29). A write to WEI_GRP_CFGn enables a group, or starts its closing drain, or is refused with CFG_REJECT. -/
  | weiGrpCfgWrite (g : Group) (v : Word)
  /-- GROUP_DRAIN_END (R129). The closing drain of a group ends: EN and CLOSING read 0, the lease goes to none and the Sluice closes. -/
  | groupDrainEnd (g : Group)
  /-- CLIENT_FRAME_RX (R434). A whole packet frame with a good FCS arrives at a client PCS and is classified, policed and admitted or refused. -/
  | clientFrameRx (p : Port) (f : Octets) (flips : List (Nat × BitVec 128)) (bad : Fin 65)
  /-- FRAME_ENQUEUE (R441). Culvert acknowledges the last cell write, and the frame is enqueued and accepted. -/
  | frameEnqueue (q : BitVec 20)
  /-- DEQUEUE (R445). Basin chooses the next frame of a group, charges shapers, has SecY assign its PN and places it in the delivery ring. -/
  | dequeue (g : Group) (sue : Option (Fin 4 × Nat × Fin 5)) (bue : Option (Fin 5 × Nat × Fin 6))
  /-- EGRESS_FRAME_READ (R445). After the Race accepts the IV descriptor, Basin reads the frame's cells along the chain. -/
  | egressFrameRead (g : Group) (flips : List (Nat × Nat × BitVec 80)) (bue : Option (Fin 5 × Nat × Fin 6)) (late : Option Nat)
  /-- EGRESS_FRAME_DELIVERED (R86). A frame's last octet passes the Sluice; its delivery-ring entry is removed and its cells are freed. -/
  | egressFrameDelivered (g : Group)
  /-- INGRESS_FRAME_RX (R208). A packet frame arrives at the decrypt input and meets the MACsec receive checks, or is discarded. -/
  | ingressFrameRx (c : Channel) (octets : Octets) (sue : Option (Fin 4 × Nat × Fin 5)) (finds : List MemFind)
  /-- ICV_VERDICT (R212). The ICV result of an ingress frame is known; the frame is released, discarded or stomped and NEXT_PN is updated. -/
  | icvVerdict (g : Group)
  /-- LEARN_REQUEST (R409). Delta takes a learn request from its queue and adds, refreshes or moves a DA entry. -/
  | learnRequest (flips : List (Nat × BitVec 128))
  /-- GAUGE_FRAME_START (R55). A group's Gauge reaches the first octet of a frame and its frame-start work runs in order. -/
  | gaugeFrameStart (g : Group) (stale : List RaceNo) (now : Word)
  /-- GAUGE_EVENT_DUE (R53). A pending event's Gauge reaches its target and the event is dispatched, on time or late. -/
  | gaugeEventDue (sel : Nat) (r : Word)
  /-- EPOCH_START (R47). The first frame of an epoch leaves after TX_EN; the Gauge reads P:0 and pending events are compared. -/
  | epochStart (g : Group) (now : Word)
  /-- GAUGE_WORD_RX (R65). A Gauge word is received and checked, and the Far Gauge locks, stays or loses lock. -/
  | gaugeWordRx (g : Group) (word : Octets) (mfas : Byte) (offset : Nat)
  /-- GAU_SNAPCTL_TRIG (R62). A write of 1 to TRIG takes a snapshot of every Gauge and Far Gauge. -/
  | gauSnapctlTrig (v : Word)
  /-- GAU_RECORD_WRITE (R61). A write to GAU_RECORD changes the Gauge of record or is refused with REJECT. -/
  | gauRecordWrite (v : Word)
  /-- GAU_READ_LATCH (R70). A read of the low word of GAU_READn latches its high word, FTICK and FPER. -/
  | gauReadLatch (m : Master) (g : Group) (wide : Bool)
  /-- IV_DESCRIPTOR_ACCEPT (R107). A Race accepts an IV descriptor, reads the key and starts computing keystream. -/
  | ivDescriptorAccept (g : Group) (d : Dir) (bad : Bool)
  /-- KEYSTREAM_READY (R108). A keystream block reaches its FIFO 32 cycles after the descriptor. -/
  | keystreamReady (g : Group) (d : Dir) (c : Option Channel)
  /-- RACE_BLOCK (R114). A block passes the six in-line stages of a Race and is handed to the Sluice with its OK bit. -/
  | raceBlock (k : RaceNo) (d : Dir) (chan : Channel) (m : Fin 6) (flags : List (Fin 6 × Fin 6 × Fin 7)) (block : BitVec 12) (sq : BitVec 32) (taken : Bool) (cuts : List (Channel × Nat)) (now : Word)
  /-- RC_CTL_TEST (R133). A write of 1 to TEST starts a known-answer test on an Off or Failed Race. -/
  | rcCtlTest (k : RaceNo)
  /-- RC_CTL_FLAG_CLR (R136). A write of 1 to FLAG_CLR clears RC_FLAGk and RC_FLAGGk and arms capture. -/
  | rcCtlFlagClr (k : RaceNo)
  /-- RACE_TEST_DONE (R133). An ordered known-answer test ends; KAT_DONE and possibly KAT_FAIL are set and the Race returns to its state. -/
  | raceTestDone (k : RaceNo) (pass : Bool) (d : Dir) (unit : Fin 7)
  /-- RACE_WAKE_DONE (R131). A waking Race finishes its known-answer test and becomes Ready, or goes to Failed. -/
  | raceWakeDone (k : RaceNo) (pass : Bool) (d : Dir) (unit : Fin 7)
  /-- RACE_GATE_CLOSE (R286). A revoked Race's power gate closes within 6,000 cycles of revocation. -/
  | raceGateClose (k : RaceNo)
  /-- WEIR_DISPUTE (R293). The Weir receives a dispute, starts waking a replacement and sends the block to the reference pipeline. -/
  | weirDispute (k : RaceNo)
  /-- RACE_JUDGED (R293). The reference recomputation ends and the Race is judged failed as DATA or CHECKER, is marked and revoked. -/
  | raceJudged (k : RaceNo) (data : Bool) (again : Nat) (eg : Nat) (ing : Nat) (cuts : List (Channel × Nat))
  /-- FAILOVER_CKPT_LOADED (R299). The replacement has loaded the checkpoint, SecY raises NEXT_PN to the marks, and keys are re-read. -/
  | failoverCkptLoaded (g : Group) (bad0 : Option (BitVec 32)) (bad1 : Option (BitVec 32)) (lost : List (Nat × BitVec 32))
  /-- LEASE_GRANT (R283). The Weir grants a lease at a frame start, fail-over, join or after a lapse, advancing LEPOCH. -/
  | leaseGrant (g : Group)
  /-- LEASE_LAPSE (R284). 6,000 cycles pass without renewal; the lease lapses and the Sluice closes. -/
  | leaseLapse (g : Group) (eg : Nat) (ing : Nat) (cuts : List (Channel × Nat)) (now : Word)
  /-- SAMPLE_CHECK (R295). A sampled block is recomputed; a mismatch sets SAMPLE_FAIL and judges the Race failed. -/
  | sampleCheck (k : RaceNo) (d : Dir) (good : Bool) (again : Nat) (eg : Nat) (ing : Nat) (cuts : List (Channel × Nat))
  /-- TWIN_BLOCK_SETTLE (R304). The Sluice settles a Twin block after its hold by vote and reference, passing one block or nothing. -/
  | twinBlockSettle (c : Channel) (d : Dir) (r : TwinCase) (passed : Nat) (again : Nat) (cuts : List (Channel × Nat))
  /-- CHANNEL_JOIN (R307). The joiner reads a channel's join entry and joins the vote at the channel's next ODU frame. -/
  | channelJoin (c : Channel)
  /-- EDDY_SHELTER_EMPTY (R303). The shelter drains and Eddy becomes free for another group. -/
  | eddyShelterEmpty
  /-- WEI_FAILCLR_WRITE (R309). A write to WEI_FAILCLR returns a tested Race to standby or is ignored with CLR_REJECT. -/
  | weiFailclrWrite (v : Word)
  /-- CARD_GRANT (R310). A write of a card epoch to WEI_CARDGRANT grants, renews or is refused. -/
  | cardGrant (v : Word) (now : Word)
  /-- CARD_LEASE_EXPIRE (R310). LEN µs pass without renewal and ACTIVE clears. -/
  | cardLeaseExpire (cuts : List (Channel × Nat)) (parts : List (Group × Nat × Nat)) (now : Word)
  /-- MIRROR_RECORD_RX (R312). A whole mirror record arrives on the Tether and is stored or discarded. -/
  | mirrorRecordRx (o : Octets)
  /-- L1_TX_FRAME (R143). An L1 channel starts an ODU frame: the IV descriptor is issued and the frame is sent encrypted, AIS, FILL or OCI. -/
  | l1TxFrame (c : Channel) (payload : Octets) (bad : Bool)
  /-- L1_RX_FRAME (R157). An ODU frame of an L1 channel is received, its key is selected and it is decrypted or replaced. -/
  | l1RxFrame (c : Channel) (r : OduRx) (bad : Bool)
  /-- COUNT_WORD_RX (R156). A count word is received and checked, and the count locks, stays or loses lock. -/
  | countWordRx (c : Channel) (word : Word) (check : Byte) (last : Byte)
  /-- SHORT_TAG_VERDICT (R168). A frame's short tag is checked; a failure replaces, stomps or marks the plaintext. -/
  | shortTagVerdict (c : Channel) (rel : Nat) (l : List EthPart)
  /-- LONG_TAG_VERDICT (R170). A multiframe's long tag is checked; frames become Confirmed, or a failure is counted. -/
  | longTagVerdict (c : Channel) (rel : Nat) (l : List EthPart)
  /-- QUARANTINE_END (R172). A full multiframe verifies after Quarantine began and release resumes at a later frame start. -/
  | quarantineEnd (c : Channel) (resume : Option Nat)
  /-- RETIREMENT_COMPLETE (R162). Both directions have passed frame 7 under the newer key and the retiring slot is cleared. -/
  | retirementComplete (c : Channel)
  /-- L1_CHANNEL_CLOSE_END (R177). The last frame and the FILL frame have been sent; ODU-OCI begins and EN and CLOSING read 0. -/
  | l1ChannelCloseEnd (c : Channel)
  /-- FRM_COOPOS_WRITE (R152). A write to FRM_COOPOSg moves the COO positions or is refused. -/
  | frmCooposWrite (g : Group) (v : Word)
  /-- FRM_L1CTL_WRITE (R180). A write to FRM_L1CTLg sets ROLE or is refused. -/
  | frmL1ctlWrite (g : Group) (v : Word)
  /-- FRM_L1HOLD_WRITE (R181). A write to FRM_L1HOLDg sets the hold area or is refused. -/
  | frmL1holdWrite (g : Group) (v : Word)
  /-- L1_READ (R182). READ copies a channel record into FRM_L1DATA. -/
  | l1Read (g : Group) (slot : Byte)
  /-- L1_WRITE (R183). WRITE updates a channel record, enabling or disabling it, or is refused with STATUS 5. -/
  | l1Write (g : Group) (slot : Byte)
  /-- L1_SWITCH (R161). SWITCH arms a transmit key switch at a Gauge frame, or is refused. -/
  | l1Switch (g : Group) (slot : Byte)
  /-- L1_RETIRE (R162). RETIRE marks the older slot for retirement, or is refused. -/
  | l1Retire (g : Group) (slot : Byte)
  /-- QCLR (R172). QCLR ends Quarantine at the next Ethernet frame start. -/
  | qclr (g : Group) (slot : Byte)
  /-- L1_CMD_INVALID (R182). An FRM_L1CMDg write with OP 5 to 7 or SLOT 160 or more completes with STATUS 1. -/
  | l1CmdInvalid (g : Group) (op : Fin 3) (slot : Byte)
  /-- SECY_RD (R222). SECY_RD copies a SecY record into the image. -/
  | secyRd (idx : BitVec 18) (ue : Option Nat)
  /-- SECY_WR (R224). SECY_WR writes a SecY record or is refused. -/
  | secyWr (idx : BitVec 18)
  /-- SC_RD (R222). SC_RD copies an SC record into the image. -/
  | scRd (idx : BitVec 18) (ue : Option Nat)
  /-- SC_WR (R225). SC_WR writes an SC record or is refused. -/
  | scWr (idx : BitVec 18)
  /-- SA_RD (R222). SA_RD copies an SA record into the image. -/
  | saRd (idx : BitVec 18) (ue : Option Nat)
  /-- SA_WR (R226). SA_WR writes the RW fields of an SA record, clears RW1C bits, or is refused. -/
  | saWr (idx : BitVec 18)
  /-- CH_RD (R222). CH_RD copies a SecY channel record into the image. -/
  | chRd (idx : BitVec 18) (ue : Option Nat)
  /-- CH_WR (R227). CH_WR writes a SecY channel record or is refused. -/
  | chWr (idx : BitVec 18)
  /-- SCI_ADD (R223). SCI_ADD adds a receive SCI entry, possibly moving others. -/
  | sciAdd (idx : BitVec 18)
  /-- SCI_DEL (R222). SCI_DEL deletes a receive SCI entry. -/
  | sciDel (idx : BitVec 18)
  /-- SCI_FIND (R222). SCI_FIND returns the SC of a (channel, SCI) entry. -/
  | sciFind (idx : BitVec 18)
  /-- SCY_SWITCH (R198). SWITCH arms a change of a transmit SC's encoding AN, or is refused. -/
  | scySwitch (idx : BitVec 18)
  /-- SCY_DISABLE (R218). DISABLE sets DRAIN on an SC and starts its drain. -/
  | scyDisable (idx : BitVec 18)
  /-- SCY_CMD_INVALID (R222). An SCY_CMD write with OP 13 to 15 or an index out of range completes with STATUS 1. -/
  | scyCmdInvalid (op : Fin 3) (idx : BitVec 18)
  /-- SC_DRAIN_END (R218). An SC's accepted work completes; DRAIN clears and EN reads 0. -/
  | scDrainEnd (sc : BitVec 16)
  /-- SA_DRAIN_END (R219). A receive SA whose EN was cleared finishes its frames and EN reads 0. -/
  | saDrainEnd (sa : BitVec 18)
  /-- KDER_DERIVE (R249). DERIVE derives a key from a parent into an empty slot and returns its handle. -/
  | kderDerive (t : ThreadNo) (tag : BitVec 8) (rs : GReg)
  /-- KDER_ENC (R263). ENC encrypts data under a general-purpose key in the chosen mode. -/
  | kderEnc (t : ThreadNo) (tag : BitVec 8) (rs : GReg)
  /-- KDER_DEC (R263). DEC decrypts data under a general-purpose key in the chosen mode. -/
  | kderDec (t : ThreadNo) (tag : BitVec 8) (rs : GReg)
  /-- CMAC_GEN (R263). CMAC_GEN computes a 16-octet CMAC under a general-purpose key. -/
  | cmacGen (t : ThreadNo) (tag : BitVec 8) (rs : GReg)
  /-- CMAC_CHK (R263). CMAC_CHK checks a CMAC and reports pass or fail. -/
  | cmacChk (t : ThreadNo) (tag : BitVec 8) (rs : GReg)
  /-- KDER_WRAP (R263). WRAP wraps data by RFC 3394 under a general-purpose key. -/
  | kderWrap (t : ThreadNo) (tag : BitVec 8) (rs : GReg)
  /-- KDER_UNWRAP (R263). UNWRAP unwraps data by RFC 3394 into the page buffer. -/
  | kderUnwrap (t : ThreadNo) (tag : BitVec 8) (rs : GReg)
  /-- MKA_DERIVE (R214). MKA_DERIVE derives the KEK and ICK of a CAK slot. -/
  | mkaDerive (t : ThreadNo) (tag : BitVec 8) (rs : GReg)
  /-- SAK_UNWRAP (R216). SAK_UNWRAP unwraps a SAK under the KEK into an SA key slot. -/
  | sakUnwrap (t : ThreadNo) (tag : BitVec 8) (rs : GReg)
  /-- SAK_GEN (R215). SAK_GEN writes a random SAK into an SA slot and returns its wrap. -/
  | sakGen (t : ThreadNo) (tag : BitVec 8) (rs : GReg)
  /-- ICV_GEN (R215). ICV_GEN computes an MKPDU ICV under the ICK. -/
  | icvGen (t : ThreadNo) (tag : BitVec 8) (rs : GReg)
  /-- ICV_CHK (R216). ICV_CHK checks an MKPDU ICV and returns pass or fail. -/
  | icvChk (t : ThreadNo) (tag : BitVec 8) (rs : GReg)
  /-- UNREX_INIT (R268). UNREX_INIT opens a session and produces an INIT message. -/
  | unrexInit (t : ThreadNo) (tag : BitVec 8) (rs : GReg)
  /-- UNREX_RESP (R268). UNREX_RESP checks an INIT, opens a session and produces a RESP. -/
  | unrexResp (t : ThreadNo) (tag : BitVec 8) (rs : GReg)
  /-- UNREX_FINISH (R268). UNREX_FINISH checks a RESP, writes the link root and produces CONF. -/
  | unrexFinish (t : ThreadNo) (tag : BitVec 8) (rs : GReg)
  /-- UNREX_CONFIRM (R268). UNREX_CONFIRM checks CONF and writes the link root. -/
  | unrexConfirm (t : ThreadNo) (tag : BitVec 8) (rs : GReg)
  /-- UNREX_CANCEL (R269). CANCEL closes a handshake session. -/
  | unrexCancel (t : ThreadNo) (tag : BitVec 8) (rs : GReg)
  /-- UNREX_SESSION_EXPIRE (R269). A session reaches 2 s after opening and closes. -/
  | unrexSessionExpire (now : Word)
  /-- ATTEST (R271). ATTEST returns a 96-octet attestation record for a nonce. -/
  | attest (t : ThreadNo) (tag : BitVec 8) (rs : GReg)
  /-- CEK_READ (R237). CEK_READ returns the commissioning encapsulation key. -/
  | cekRead (t : ThreadNo) (tag : BitVec 8) (rs : GReg)
  /-- DS_IMPORT (R239). DS_IMPORT installs or replaces the domain secret under presence. -/
  | dsImport (t : ThreadNo) (tag : BitVec 8) (rs : GReg)
  /-- CAK_IMPORT (R239). CAK_IMPORT installs a CAK into an empty slot under presence. -/
  | cakImport (t : ThreadNo) (tag : BitVec 8) (rs : GReg)
  /-- CAK_REMOVE (R257). CAK_REMOVE clears a CAK record and destroys its KEK, ICK and SAKs. -/
  | cakRemove (t : ThreadNo) (tag : BitVec 8) (rs : GReg)
  /-- KDER_INVALID (R391). A KDER with an undefined OP or bad length completes with STATUS 1. -/
  | kderInvalid (t : ThreadNo) (tag : BitVec 8) (rs : GReg)
  /-- SPRING_OP_COMPLETE (R263). Spring or the PKE finishes an operation and writes its result and completion. -/
  | springOpComplete (k : PageNo) (records : List (Fin 257))
  /-- SPRING_PAGE_DISPATCH (R263). Spring takes the next queued operation from the next page in turn. -/
  | springPageDispatch
  /-- SPR_PGOWN_WRITE (R274). A write to SPR_PGOWNk changes a page's owner or is refused. -/
  | sprPgownWrite (k : PageNo) (v : Word)
  /-- SPR_PAGE_OWNER_TAKEOVER (R262). A page's owner change takes effect once its current operation completes. -/
  | sprPageOwnerTakeover (k : PageNo)
  /-- SPR_PAGE_FOREIGN_ACCESS (R262). A master of another colour touches a page; reads return zero, writes drop and PAGE_VIOL is set. -/
  | sprPageForeignAccess (k : PageNo) (m : Master) (n : Fin 4) (o : Fin 256) (write : Option Word)
  /-- KST_INFO (R276). INFO returns a slot's handle and attribute word. -/
  | kstInfo
  /-- KST_DESTROY (R257). DESTROY zeroes a slot and orphans its children, or is refused. -/
  | kstDestroy
  /-- KST_ORPHAN (R256). ORPHAN advances a slot's GEN, clears VALID and starts a sweep. -/
  | kstOrphan
  /-- KST_SETUSE (R276). SETUSE sets or lowers a key's use limit. -/
  | kstSetuse
  /-- KST_CTR_READ (R276). CTR_READ returns a monotonic counter. -/
  | kstCtrRead
  /-- KST_CTR_INC (R235). CTR_INC advances a host monotonic counter. -/
  | kstCtrInc
  /-- KST_CMD_INVALID (R276). A KST_CMD with OP 6 or 7 completes with status 1. -/
  | kstCmdInvalid (seven : Bool)
  /-- ORPHAN_SWEEP_END (R256). An orphaning sweep has passed every slot and SWEEP clears. -/
  | orphanSweepEnd
  /-- ADD (R372). ADD writes rs1 + rs2 to rd. -/
  | balAdd (t : ThreadNo) (rd : GReg) (rs1 : GReg) (rs2 : GReg)
  /-- SUB (R372). SUB writes rs1 − rs2 to rd. -/
  | balSub (t : ThreadNo) (rd : GReg) (rs1 : GReg) (rs2 : GReg)
  /-- AND (R372). AND writes the bitwise AND to rd. -/
  | balAnd (t : ThreadNo) (rd : GReg) (rs1 : GReg) (rs2 : GReg)
  /-- OR (R372). OR writes the bitwise OR to rd. -/
  | balOr (t : ThreadNo) (rd : GReg) (rs1 : GReg) (rs2 : GReg)
  /-- XOR (R372). XOR writes the bitwise XOR to rd. -/
  | balXor (t : ThreadNo) (rd : GReg) (rs1 : GReg) (rs2 : GReg)
  /-- SLL (R372). SLL shifts left by rs2 modulo 64. -/
  | balSll (t : ThreadNo) (rd : GReg) (rs1 : GReg) (rs2 : GReg)
  /-- SRL (R372). SRL shifts right logically. -/
  | balSrl (t : ThreadNo) (rd : GReg) (rs1 : GReg) (rs2 : GReg)
  /-- SRA (R372). SRA shifts right arithmetically. -/
  | balSra (t : ThreadNo) (rd : GReg) (rs1 : GReg) (rs2 : GReg)
  /-- MUL (R372). MUL writes the low 64 bits of the product. -/
  | balMul (t : ThreadNo) (rd : GReg) (rs1 : GReg) (rs2 : GReg)
  /-- MULHU (R372). MULHU writes the high 64 bits of the unsigned product. -/
  | balMulhu (t : ThreadNo) (rd : GReg) (rs1 : GReg) (rs2 : GReg)
  /-- SLT (R372). SLT sets rd to the signed comparison. -/
  | balSlt (t : ThreadNo) (rd : GReg) (rs1 : GReg) (rs2 : GReg)
  /-- SLTU (R372). SLTU sets rd to the unsigned comparison. -/
  | balSltu (t : ThreadNo) (rd : GReg) (rs1 : GReg) (rs2 : GReg)
  /-- SLTW (R372). SLTW sets rd when rs1 is before rs2 under wrap-around comparison. -/
  | balSltw (t : ThreadNo) (rd : GReg) (rs1 : GReg) (rs2 : GReg)
  /-- CLZ (R372). CLZ counts leading zero bits. -/
  | balClz (t : ThreadNo) (rd : GReg) (rs1 : GReg)
  /-- POPC (R372). POPC counts one bits. -/
  | balPopc (t : ThreadNo) (rd : GReg) (rs1 : GReg)
  /-- ADDI (R372). ADDI adds a sign-extended immediate. -/
  | balAddi (t : ThreadNo) (rd : GReg) (rs1 : GReg) (imm : BitVec 16)
  /-- ANDI (R372). ANDI ANDs a zero-extended immediate. -/
  | balAndi (t : ThreadNo) (rd : GReg) (rs1 : GReg) (imm : BitVec 16)
  /-- ORI (R372). ORI ORs a zero-extended immediate. -/
  | balOri (t : ThreadNo) (rd : GReg) (rs1 : GReg) (imm : BitVec 16)
  /-- XORI (R372). XORI XORs a zero-extended immediate. -/
  | balXori (t : ThreadNo) (rd : GReg) (rs1 : GReg) (imm : BitVec 16)
  /-- SHI (R372). SHI shifts rs1 left 16 and inserts the immediate. -/
  | balShi (t : ThreadNo) (rd : GReg) (rs1 : GReg) (imm : BitVec 16)
  /-- SLLI (R372). SLLI shifts left by an immediate. -/
  | balSlli (t : ThreadNo) (rd : GReg) (rs1 : GReg) (imm : BitVec 16)
  /-- SRLI (R372). SRLI shifts right logically by an immediate. -/
  | balSrli (t : ThreadNo) (rd : GReg) (rs1 : GReg) (imm : BitVec 16)
  /-- SRAI (R372). SRAI shifts right arithmetically by an immediate. -/
  | balSrai (t : ThreadNo) (rd : GReg) (rs1 : GReg) (imm : BitVec 16)
  /-- BEQ (R373). BEQ branches when the operands are equal. -/
  | balBeq (t : ThreadNo) (rd : GReg) (rs1 : GReg) (imm : BitVec 16)
  /-- BNE (R373). BNE branches when the operands differ. -/
  | balBne (t : ThreadNo) (rd : GReg) (rs1 : GReg) (imm : BitVec 16)
  /-- BLT (R373). BLT branches on signed less-than. -/
  | balBlt (t : ThreadNo) (rd : GReg) (rs1 : GReg) (imm : BitVec 16)
  /-- BGE (R373). BGE branches on signed greater-or-equal. -/
  | balBge (t : ThreadNo) (rd : GReg) (rs1 : GReg) (imm : BitVec 16)
  /-- BLTU (R373). BLTU branches on unsigned less-than. -/
  | balBltu (t : ThreadNo) (rd : GReg) (rs1 : GReg) (imm : BitVec 16)
  /-- BGEU (R373). BGEU branches on unsigned greater-or-equal. -/
  | balBgeu (t : ThreadNo) (rd : GReg) (rs1 : GReg) (imm : BitVec 16)
  /-- JAL (R373). JAL jumps to a PC-relative target and links. -/
  | balJal (t : ThreadNo) (rd : GReg) (hi : Fin 32) (imm : BitVec 16)
  /-- JALR (R373). JALR jumps to a register target and links, or traps on misalignment. -/
  | balJalr (t : ThreadNo) (rd : GReg) (rs1 : GReg) (imm : BitVec 16)
  /-- TRAP (R373). TRAP traps the thread with cause 0x08 and its code. -/
  | balTrap (t : ThreadNo) (imm : BitVec 16)
  /-- LD (R378). LD loads from memory or register space with the thread's colour. -/
  | balLd (t : ThreadNo) (rd : GReg) (base : GReg) (offset : BitVec 12) (size : Fin 8) (ecc : EccFind) (fe : EccFind) (bic : Bool)
  /-- ST (R378). ST stores to memory or register space with the thread's colour. -/
  | balSt (t : ThreadNo) (rd : GReg) (base : GReg) (offset : BitVec 12) (size : Fin 8) (bic : Bool)
  /-- AMOADD (R380). AMOADD atomically adds to a Pool doubleword and returns the old value. -/
  | balAmoadd (t : ThreadNo) (rd : GReg) (base : GReg) (offset : BitVec 12) (size : Fin 8) (ecc : EccFind) (bic : Bool)
  /-- AMOSWAP (R380). AMOSWAP atomically swaps a Pool doubleword and returns the old value. -/
  | balAmoswap (t : ThreadNo) (rd : GReg) (base : GReg) (offset : BitVec 12) (size : Fin 8) (ecc : EccFind) (bic : Bool)
  /-- END (R384). END ends the job once no operation is outstanding. -/
  | balEnd (t : ThreadNo) (rs1 : GReg)
  /-- END_DONE (R384). The last outstanding operation completes; END discards completions, writes the ring record and the thread goes Idle or Off. -/
  | balEndDone (t : ThreadNo)
  /-- FENCE (R382). FENCE holds the thread until its earlier accesses are complete. -/
  | balFence (t : ThreadNo)
  /-- FENCE_DONE (R382). The thread's earlier loads have returned and stores are visible, and FENCE completes. -/
  | balFenceDone (t : ThreadNo)
  /-- FENCE_C (R383). FENCE.C holds the thread until accesses of older rule epochs complete. -/
  | balFenceC (t : ThreadNo) (rd : GReg)
  /-- FENCE_C_DONE (R383). Every access checked under an older epoch has completed and FENCE.C returns the epoch. -/
  | balFenceCDone (t : ThreadNo)
  /-- ORDER_SET (R339). ORDER.SET installs a Standing Orders image or reports why not. -/
  | balOrderSet (t : ThreadNo) (rd : GReg) (rs1 : GReg)
  /-- RESEAL (R486). RESEAL re-seals the damaged subtree over an offset of a Sealed-fresh range. -/
  | balReseal (t : ThreadNo) (rd : GReg) (rs1 : GReg)
  /-- RESEAL_DONE (R486). The re-seal ends and its status is written to rd. -/
  | balResealDone (t : ThreadNo) (further : Bool)
  /-- RDS (R375). RDS reads a thread or device value named by a selector. -/
  | balRds (t : ThreadNo) (rd : GReg) (sel : Fin 32)
  /-- ILLEGAL_INSTRUCTION (R368). An undefined or malformed instruction word traps with cause 0x01. -/
  | balIllegalInstruction (t : ThreadNo) (w : BitVec 32)
  /-- GREAD (R376). GREAD reads a Gauge reading. -/
  | balGread (t : ThreadNo) (rd : GReg) (sel : Fin 64)
  /-- WAITG (R335). WAITG puts the thread in WaitG until the Gauge reaches the target. -/
  | balWaitg (t : ThreadNo) (rd : GReg) (rs1 : GReg) (sel : Fin 64)
  /-- WAITG_DUE (R335). A thread's Gauge comparator reaches its target and the thread resumes with on-time or late. -/
  | balWaitgDue (t : ThreadNo)
  /-- ATG (R336). ATG schedules a block at a Gauge reading and returns a status. -/
  | balAtg (t : ThreadNo) (rd : GReg) (rs1 : GReg) (rs2 : GReg) (sel : Fin 64)
  /-- GADV (R376). GADV advances a reading by a number of octet positions. -/
  | balGadv (t : ThreadNo) (rd : GReg) (rs1 : GReg) (rs2 : GReg)
  /-- GDIST (R376). GDIST computes the distance between two readings in octet positions. -/
  | balGdist (t : ThreadNo) (rd : GReg) (rs1 : GReg) (rs2 : GReg)
  /-- WAITC (R334). WAITC returns a done tag's completion word or waits for it. -/
  | balWaitc (t : ThreadNo) (rd : GReg) (tag : BitVec 8)
  /-- WAITC_ANY (R389). WAITC.ANY returns the first done tag's completion word or waits. -/
  | balWaitcAny (t : ThreadNo) (rd : GReg)
  /-- MOV_M_COPY (R394). MOV.M copies memory in pieces with the thread's colour. -/
  | balMovMCopy (t : ThreadNo) (tag : BitVec 8) (rs : GReg)
  /-- MOV_M_FILL (R394). MOV.M with FILL fills memory with a pattern. -/
  | balMovMFill (t : ThreadNo) (tag : BitVec 8) (rs : GReg)
  /-- CTRD (R395). CTRD samples up to 64 counters in one cycle. -/
  | balCtrd (t : ThreadNo) (tag : BitVec 8) (rs : GReg) (bad : List (BitVec 32))
  /-- CTRD_CLEAR (R396). CTRD with CLEAR samples and clears counters in the same cycle. -/
  | balCtrdClear (t : ThreadNo) (tag : BitVec 8) (rs : GReg) (bad : List (BitVec 32))
  /-- ENGINE_OP_INVALID (R388). An engine operation that fails the descriptor checks completes with STATUS 1 and no effect. -/
  | engineOpInvalid (opc : Fin 6) (t : ThreadNo) (tag : BitVec 8) (rs : GReg)
  /-- ENGINE_OP_COMPLETE (R333). An engine operation completes, writes its result area and marks its tag done, freeing the slot. -/
  | engineOpComplete (t : ThreadNo) (tag : BitVec 8)
  /-- TID_THRCFG_WRITE (R325). A write to TID_THRCFGt sets a thread's role, privilege, colour and ring, or is refused. -/
  | tidThrcfgWrite (m : Master) (t : ThreadNo) (v : Word)
  /-- THREAD_START (R359). START takes an Off thread to Running at ENTRY or to Idle. -/
  | threadStart (t : ThreadNo)
  /-- THREAD_STOP (R359). STOP ends a thread's work in hand and makes it take no new work. -/
  | threadStop (t : ThreadNo)
  /-- THREAD_STOPPED (R359). A stopping thread's outstanding operations reach 0 and it goes Off. -/
  | threadStopped (t : ThreadNo)
  /-- CLRTRAP (R350). CLRTRAP asks a Trapped thread to clear. -/
  | clrtrap (m : Master) (t : ThreadNo)
  /-- TRAP_CLEARED (R350). A Trapped thread's operations complete and it goes Off. -/
  | trapCleared (t : ThreadNo)
  /-- TIDE_RESET (R354). A write to TID_RESET resets the selected cores. -/
  | tideReset (v : BitVec 32)
  /-- ICACHE_INVALIDATE (R329). A write to TID_ICINV invalidates the instruction caches of the chosen cores. -/
  | icacheInvalidate (v : BitVec 32)
  /-- EVENT_OVF_RECORD (R344). A queue record frees and an overflow record is queued for each class with OVF set. -/
  | eventOvfRecord
  /-- HANDLER_DISPATCH (R345). A queued event record is dispatched to an Idle eligible EVENT thread. -/
  | handlerDispatch (n : Nat)
  /-- ATG_BLOCK_DISPATCH (R336). A due ATG block runs on an Idle EVENT thread of its core. -/
  | atgBlockDispatch (core : Fin 32)
  /-- HANDLER_LIMIT_TRAP (R346). A handler runs LIMIT × 1,024 cycles without ending and traps with cause 0x09. -/
  | handlerLimitTrap (t : ThreadNo) (now : Word)
  /-- RING_DESCRIPTOR_DISPATCH (R351). A fetched descriptor is handed to an Idle RING thread of its ring. -/
  | ringDescriptorDispatch (r : Fin 64)
  /-- DELTA_LOOKUP (R414). LOOKUP returns the matching entry and its position. -/
  | deltaLookup (p : Path)
  /-- DELTA_ADD (R414). ADD writes a new entry, relocating one if needed. -/
  | deltaAdd (p : Path)
  /-- DELTA_UPDATE (R414). UPDATE rewrites the matching entry. -/
  | deltaUpdate (p : Path)
  /-- DELTA_DELETE (R414). DELETE removes the matching entry. -/
  | deltaDelete (p : Path)
  /-- DELTA_READ (R414). READ returns the entry at a position. -/
  | deltaRead (p : Path) (flips : List (Nat × BitVec 128))
  /-- DELTA_CLEAR (R414). CLEAR writes a way as all zeros. -/
  | deltaClear (p : Path)
  /-- DELTA_FLUSH (R417). FLUSH starts removing learned entries of a domain. -/
  | deltaFlush (p : Path)
  /-- FLUSH_END (R417). A FLUSH has passed every bucket and completes. -/
  | flushEnd
  /-- DELTA_CMD_INVALID (R414). A Delta command with OP 7 or a bad image completes with STATUS 1. -/
  | deltaCmdInvalid (p : Path)
  /-- DLT_HSEED_WRITE (R403). A write to DLT_HSEED sets the hash seed or is refused. -/
  | dltHseedWrite (v : BitVec 32)
  /-- EDDY_SCAN_PASS_START (R412). An ageing pass starts after PERIOD multiframes, or when the previous pass ends. -/
  | eddyScanPassStart
  /-- EDDY_SCAN_BUCKET (R413). Eddy-scan reads a bucket and clears HIT or removes aged entries. -/
  | eddyScanBucket (flips : List (Nat × BitVec 128))
  /-- QUEUE_READ (R455). READ copies a queue record into the image. -/
  | queueRead (p : Path) (ue : Option Nat)
  /-- QUEUE_CONFIG (R456). CONFIG writes a queue record and may enable it, or is refused. -/
  | queueConfig (p : Path)
  /-- QUEUE_DISABLE (R450). DISABLE sets DRAIN on a queue. -/
  | queueDisable (p : Path)
  /-- QUEUE_DRAIN_END (R450). A draining queue empties; its tail cell is freed and EN reads 0. -/
  | queueDrainEnd (q : BitVec 20)
  /-- NODE_READ (R455). READ copies a node record into the image. -/
  | nodeRead (p : Path) (ue : Option Nat)
  /-- NODE_CONFIG (R456). CONFIG writes a node record or is refused. -/
  | nodeConfig (p : Path)
  /-- NODE_DISABLE (R451). DISABLE clears a node's EN or is refused while a child is enabled. -/
  | nodeDisable (p : Path)
  /-- POLICER_READ (R455). READ copies a policer record into the image. -/
  | policerRead (p : Path) (ue : Option Nat)
  /-- POLICER_CONFIG (R456). CONFIG writes a policer record or is refused. -/
  | policerConfig (p : Path)
  /-- POLICER_DISABLE (R451). DISABLE disables a policer at once. -/
  | policerDisable (p : Path)
  /-- BSN_CMD_INVALID (R455). A Basin command with OP 3 or a bad object completes with STATUS 1. -/
  | bsnCmdInvalid (p : Path) (shp : Bool) (op : Fin 4)
  /-- BSN_POOL_WRITE (R463). A write to BSN_POOL configures or enables the cell pool, or is refused. -/
  | bsnPoolWrite (v : Word)
  /-- POOL_READY (R432). The free FIFO is filled with every pool cell and READY is set. -/
  | poolReady
  /-- BSN_RES_WRITE (R464). A write to BSN_RESg sets a group's reservation or is refused. -/
  | bsnResWrite (g : Group) (v : Word)
  /-- CULVERT_READ (R474). A read of a sector is decoded, verified and decrypted, or returns a bus error. -/
  | culvertRead (p : CulvertPort) (sec : Nat) (lo : Nat) (n : Nat) (flips : List (Nat × BitVec 80)) (find : NodeFind)
  /-- CULVERT_WRITE (R478). A whole-sector write is encrypted, tagged and written with its counters. -/
  | culvertWrite (p : CulvertPort) (sec : Nat) (d : Octets) (find : NodeFind)
  /-- CULVERT_PARTIAL_WRITE (R480). A partial write reads, verifies, merges and rewrites the sector, or poisons it. -/
  | culvertPartialWrite (p : CulvertPort) (sec : Nat) (lo : Nat) (d : Octets) (flips : List (Nat × BitVec 80)) (find : NodeFind)
  /-- SCRUB_SECTOR (R488). Every INTERVAL cycles the scrubber reads and corrects the next sector. -/
  | scrubSector (flips : List (Nat × BitVec 80))
  /-- CUL_RNG_WRITE (R498). A write to CUL_RNGr enables, disables or configures a range, or is refused. -/
  | culRngWrite (r : RangeNo) (v : Word)
  /-- RANGE_READY (R492). A newly enabled range finishes initialisation and READY is set. -/
  | rangeReady (r : RangeNo)
  /-- RANGE_DISABLE_END (R493). Accepted accesses of a disabled range complete; READY and subkeys clear. -/
  | rangeDisableEnd (r : RangeNo)
  /-- CUL_CTL_WRITE (R500). A write to CUL_CTL sets the tree Pool and scrubber, or is refused. -/
  | culCtlWrite (v : Word)
  /-- CUL_BW_WINDOW (R501). A 100 µs bandwidth window ends and LAST and PEAK update. -/
  | culBwWindow (now : Word)
  /-- PEAK_CLR (R501). A write of 1 to PEAK_CLR sets PEAK to 0. -/
  | peakClr (v : Word)
  /-- CMP_STAGE_WRITE (R516). A write to a staged Colour Map register is stored, or refused while PEND is 1. -/
  | cmpStageWrite (which : Fin 3) (n : Fin 512) (v : Word)
  /-- COMMIT (R517). A write of 1 to COMMIT makes the staged table live at a new epoch, is held, or is refused. -/
  | commit (busy : Bool)
  /-- HELD_CHANGE_APPLY (R516). The oldest epoch's accesses complete and a held commit or hand-over takes effect. -/
  | heldChangeApply
  /-- CMP_FENCE_START (R515). A write of 1 to START begins a host fence. -/
  | cmpFenceStart
  /-- CMP_FENCE_DONE (R515). Accesses of older epochs complete and BUSY clears. -/
  | cmpFenceDone
  /-- POOL_HANDOVER (R521). A write to POOL_OWNk hands the Pool over at a new epoch, or is refused. -/
  | poolHandover (k : PoolNo) (v : Word) (busy : Bool)
  /-- VIOL_CLEAR (R528). Clearing VIOL clears CMP_VIOL and CMP_VINFO and arms capture. -/
  | violClear (v : Word)
  /-- DEBUG_ACCESS (R518). The debug master makes an access, judged by Factory rules, Ivory entries or the lock. -/
  | debugAccess (addr : Word) (n : Nat) (data : Option Word)
  /-- LN_CTL_WRITE (R532). A write to LN_CTLn requests a power state or rate, or is refused. -/
  | lnCtlWrite (n : LaneNo) (v : Word)
  /-- LANE_PSTATE_REACHED (R534). A lane completes a power-state move, after calibration or PLL lock where needed. -/
  | lanePstateReached (n : LaneNo) (calibrated : Bool) (now : Word)
  /-- CDR_LOCK_GAIN (R536). A lane's receiver locks to its partner and CDR_LOCK is set. -/
  | cdrLockGain (n : LaneNo) (now : Word)
  /-- CDR_LOCK_LOSS (R536). A lane loses CDR lock; LOCK_LOSS is set and kind 0x82 written if claimed. -/
  | cdrLockLoss (n : LaneNo)
  /-- LN_TXEQ_WRITE (R537). A write to LN_TXEQn sets the transmitter taps or is refused. -/
  | lnTxeqWrite (n : LaneNo) (v : Word)
  /-- LN_MAP_WRITE (R542). A write to LN_MAPn sets a quad's lane order or is refused. -/
  | lnMapWrite (q : Fin 37) (v : Word)
  /-- TRAINING_BLOCK_RX (R539). A TSS training block arrives and a changed request is applied and answered. -/
  | trainingBlockRx (n : LaneNo) (o0 : Byte) (o1 : Byte) (ask : Byte) (taps : Option Word)
  /-- TRAINING_TIMEOUT (R538). Training has not finished in 500 ms and TRAIN_FAIL is set. -/
  | trainingTimeout (n : LaneNo) (now : Word)
  /-- EYE_SCAN_START (R541). A write of 1 to START begins an eye scan or is ignored. -/
  | eyeScanStart (n : LaneNo) (v : Word)
  /-- EYE_SCAN_END (R540). An eye scan ends, or aborts, and LN_EYERESn is written. -/
  | eyeScanEnd (n : LaneNo) (mismatch : Nat)
  /-- TSS_MARKER_POSITION (R547). A marker position is reached: a good marker confirms or keeps lock, a missing one counts toward loss. -/
  | tssMarkerPosition (l : Fin 8) (pos : Nat) (o : Octets)
  /-- TSS_BLOCK_RX (R543). A TSS block is descrambled and delivered, or discarded as bad. -/
  | tssBlockRx (l : Fin 8) (line : List Bool)
  /-- OTUC_FRAME_RX (R559). A FAS position of an OTUC is checked and its frame and multiframe alignment advance. -/
  | otucFrameRx (g : Group) (idx : Fin 8) (found : List (Fin 16320)) (mfas : Byte) (overhead : BitVec 5) (msi : Option (List (Fin 160))) (skew : Bool) (now : Word)
  /-- LOF_TIMER (R559). An OTUC stays out of frame, or in frame, for 3 ms and LOF is raised or cleared. -/
  | lofTimer (g : Group) (idx : Fin 8) (now : Word)
  /-- LOM_TIMER (R560). An OTUC stays out of, or in, multiframe for 3 ms and LOM is raised or cleared. -/
  | lomTimer (g : Group) (idx : Fin 8) (now : Word)
  /-- FRM_CTL_WRITE (R577). A write to FRM_CTLg enables or disables the framers or changes their settings, or is refused. -/
  | frmCtlWrite (g : Group) (v : Word)
  /-- MAP_COMMIT (R562). A write of 1 to MAP_COMMIT checks the staged slot map and arms it or refuses it. -/
  | mapCommit (g : Group)
  /-- FRM_GPOS_WRITE (R578). A write to FRM_GPOSg moves the Gauge octet or is refused. -/
  | frmGposWrite (g : Group) (v : Word)
  /-- FRM_CPORT_WRITE (R749). A write to FRM_CPORTg_j enables or configures a client port, or is refused. -/
  | frmCportWrite (g : Group) (j : Fin 4) (v : Word)
  /-- FRM_DSTR_WRITE (R581). A write to FRM_DSTRp_i configures a DCC stream or is refused. -/
  | frmDstrWrite (p : Fin 4) (idx : Fin 16) (v : Word)
  /-- GCC_EXTRACT (R572). A GCC frame is extracted into its stream's slip buffer or dropped. -/
  | gccExtract (p : Fin 4) (idx : Fin 16) (o : Octets)
  /-- DCC_RECORD_TX (R571). A waiting GCC frame is sent on its DCC port as a TSS record in round robin. -/
  | dccRecordTx (p : Fin 4)
  /-- DCC_RECORD_RX (R571). A TSS record arrives on a DCC port and enters its insert buffer or is discarded. -/
  | dccRecordRx (p : Fin 4) (o : Octets)
  /-- GCC_INSERT (R572). At a GCC position the oldest waiting frame is inserted, or the last is repeated. -/
  | gccInsert (p : Fin 4) (idx : Fin 16)
  /-- PM_SECOND (R574). A second of network time ends and each path counts ES, SES or UAS. -/
  | pmSecond (seen : List (Nat × Bool × Nat × Nat × Bool)) (now : Word)
  /-- PM_BIN_BOUNDARY (R575). A 15-minute boundary copies the current bin to the previous bin. -/
  | pmBinBoundary (now : Word)
  /-- LEVEE_EVENT (R586). A Levee source produces an event, which is counted and filtered into an alarm. -/
  | leveeEvent (src : Fin 16) (detail : BitVec 24) (address : Word) (colour : Fin 16) (raw : BitVec 16) (watch : BitVec 48) (edge : Word)
  /-- RESPONSE_POINT (R593). Alarms since the last point are recorded and their combined response is applied. -/
  | responsePoint (raw : BitVec 16) (watch : BitVec 48) (edge : Word) (cuts : List (Channel × Nat)) (parts : List (Group × Nat × Nat))
  /-- TAMPER_RECORD_WRITE (R600). A held tamper record is written into the log ring. -/
  | tamperRecordWrite
  /-- SUPPLY_DIP_START (R596). The core rail crosses the warning level; DIP is set and key-store, Cistern and fuse writes block. -/
  | supplyDipStart (watch : BitVec 48) (edge : Word)
  /-- SUPPLY_DIP_END (R596). The rail stays above warning for 10 µs; DIP clears, held records are written and Spring retries. -/
  | supplyDipEnd (watch : BitVec 48) (edge : Word)
  /-- LEV_SRCCFG_WRITE (R591). A write to LEV_SRCCFGs changes a source's arming, or is refused. -/
  | levSrccfgWrite (m : Master) (src : Fin 16) (v : Word)
  /-- STICKY_CLEAR (R597). A write of 1 to LEV_STICKY clears flags and writes a record of type 0x81. -/
  | stickyClear (m : Master) (v : Word)
  /-- TAMPER_LOG_READ (R601). A write of INDEX to LEV_LOGRD reads a tamper record. -/
  | tamperLogRead (m : Master) (v : Word)
  /-- LEV_WATCH_LATCH (R606). A read of the low word of LEV_WATCH latches its high word and LEV_WTICK. -/
  | levWatchLatch (m : Master) (wide : Bool) (watch : BitVec 48) (edge : Word)
  /-- WATCH_CRYSTAL_STOP (R732). The Watch crystal stops and the internal oscillator takes over. -/
  | watchCrystalStop
  /-- AO_SUPPLY_CHANGEOVER (R726). VDD_IO crosses 1.62 V and the always-on domain moves between VDD_IO and VBAT. -/
  | aoSupplyChangeover (toCell : Bool)
  /-- MODECMD_SERVICE (R609). A request for M5 from M4 or M7 enters Service or is refused. -/
  | modecmdService
  /-- MODECMD_DRAIN (R626). A request for M7 from M5 or M6 enters Drain. -/
  | modecmdDrain
  /-- MODECMD_READY (R629). A request for M4 from M7, M8 or M9 starts the entry into Ready or is refused. -/
  | modecmdReady
  /-- READY_ENTRY_END (R629). Classes 0b00 to 0b10 have been destroyed and MODE changes to M4. -/
  | readyEntryEnd
  /-- MODECMD_CLEAR_MAINTENANCE (R610). A request for M8 from M4 under presence enters Clear Maintenance. -/
  | modecmdClearMaintenance
  /-- MODECMD_LOCKDOWN_EXIT (R630). A request to leave M10 under presence clears LD_PEND and resets the device, or is refused. -/
  | modecmdLockdownExit
  /-- MODECMD_INVALID (R609). A mode request not in the transition table completes with STATUS 1. -/
  | modecmdInvalid (target : Fin 16)
  /-- LC_CHANGE_CARRIER (R613). A life-cycle change to Carrier clears keys and starts blowing the C fuses. -/
  | lcChangeCarrier
  /-- LC_CHANGE_RETIRED (R613). A life-cycle change to Retired clears keys and starts blowing the T fuses. -/
  | lcChangeRetired
  /-- LC_CMD_INVALID (R634). A GBL_LCCMD write with a bad TARGET or CONFIRM is refused. -/
  | lcCmdInvalid (target : Fin 4) (confirm : Byte)
  /-- FUSE_PROGRAM_END (R613). The target fuses are blown and a device reset follows. -/
  | fuseProgramEnd
  /-- PRES_N_CHANGE (R614). PRES_N changes level and its timing restarts. -/
  | presNChange (low : Bool) (now : Word)
  /-- PRESENCE_WINDOW_OPEN (R614). PRES_N has been low 50 ms after 50 ms high and the window opens for 10 s. -/
  | presenceWindowOpen (now : Word)
  /-- PRESENCE_WINDOW_CLOSE (R614). The 10 s window expires and presence closes. -/
  | presenceWindowClose (now : Word)
  /-- PRESENCE_STUCK (R614). PRES_N stays low 60 s and STUCK is set. -/
  | presenceStuck (now : Word)
  /-- DEBUG_REQ (R631). A write of 1 to REQ opens debug under presence or sets REJECT. -/
  | debugReq
  /-- DEBUG_CLOSE (R631). A write of 1 to CLOSE closes debug outside M2. -/
  | debugClose
  /-- MAIN_POWER_LOSS (R609). Main power is lost and the device enters M0. -/
  | mainPowerLoss (watch : BitVec 48) (edge : Word)
  /-- MAIN_POWER_ON (R620). Main rails are applied and the device enters M1 with the key store lost. -/
  | mainPowerOn
  /-- ALWAYS_ON_POWER_UP (R621). A supply is applied after none; every domain resets and AO_LOST is set. -/
  | alwaysOnPowerUp
  /-- RESET_N_PULSE (R738). RESET_N is held low 1 µs or more and the device resets. -/
  | resetNPulse
  /-- GBL_RESET_DEVICE (R620). A write of 1 to DEVICE starts a device reset. -/
  | gblResetDevice
  /-- GBL_RESET_HIF (R688). A write of 1 to HIF resets the host interface and disables every ring. -/
  | gblResetHif
  /-- BROWN_OUT (R620). The core rail falls to the reset level and the main domains reset. -/
  | brownOut (watch : BitVec 48) (edge : Word)
  /-- PCIE_FLR (R688). A function-level reset resets the host interface and all Tide cores. -/
  | pcieFlr
  /-- PCIE_CONVENTIONAL_RESET (R688). A PCIe conventional reset resets the host interface and cores and retrains the link. -/
  | pcieConventionalReset
  /-- POC_STEP_END (R616). A Power-On Check step finishes and the next starts, or the check fails. -/
  | pocStepEnd (bad : Option (BitVec 16)) (header : Octets) (lanes : List LaneNo) (records : List (Fin 257)) (watch : BitVec 48) (edge : Word)
  /-- FLASH_PRELOAD_END (R687). The boot-flash preload into Pool 0 ends and its CRC is checked. -/
  | flashPreloadEnd (data : Octets)
  /-- REPLAY_END (R623). The Recovery replay of the error log completes and REPLAY clears. -/
  | replayEnd
  /-- CLK_SET (R641). SET applies CLK_SET while VALID is 0 and sets VALID. -/
  | clkSet
  /-- CLK_ADJ (R642). ADJ steps time, or is refused beyond JUMP and raises class 0x0B. -/
  | clkAdj
  /-- CLK_INVAL (R641). INVAL clears VALID and raises class 0x0B. -/
  | clkInval
  /-- CLK_RATE_WRITE (R639). A write of RATE re-bases time and changes its rate without a jump. -/
  | clkRateWrite (v : BitVec 32)
  /-- CLK_TIME_LATCH (R650). A read of CLK_TIME0 latches CLK_TIME1 and CLK_TICK. -/
  | clkTimeLatch (m : Master) (wide : Bool)
  /-- CLK_TSB_READ (R650). A read of CLK_TSBn removes the FIFO head and latches CLK_TSAn. -/
  | clkTsbRead (m : Master) (n : Port) (wide : Bool)
  /-- PPS_IN_EDGE (R644). A rising edge on PPS_IN is captured, or counted as a glitch. -/
  | ppsInEdge (now : Word)
  /-- PPS_OUT_PULSE (R645). Time reaches the next whole second and PPS_OUT rises. -/
  | ppsOutPulse (now : Word)
  /-- PPS_OUT_FALL (R645). WIDTH ms pass and PPS_OUT falls. -/
  | ppsOutFall (now : Word)
  /-- SND_SCHEDULE_WRITE (R657). A write to a schedule's registers enables it, moves RD, or is refused. -/
  | sndScheduleWrite (which : Fin 5) (n : Fin 64) (v : Word)
  /-- SND_THRESHOLD_WRITE (R670). A write to a threshold's registers arms it or is refused. -/
  | sndThresholdWrite (which : Fin 3) (n : Fin 64) (v : Word)
  /-- DUMP_START (R660). A due or queued dump starts, samples its block counters or is missed or refused. -/
  | dumpStart (now : Word)
  /-- DUMP_PUBLISH (R661). A dump finishes its table reads, writes its header and advances WR, or is abandoned. -/
  | dumpPublish (bad : List (BitVec 32)) (now : Word)
  /-- SLOT_SAMPLE (R666). The 2^PSHIFT-th slot of a category is reached and a PC sample is written. -/
  | slotSample (core : Fin 32) (word : BitVec 32)
  /-- THRESHOLD_SAMPLE (R668). Every 64 cycles a threshold samples its occupancy and fires or re-arms. -/
  | thresholdSample (n : Fin 64)
  /-- HIF_DOORBELL (R680). A write to HIF_DBr moves SQ_TAIL and CQ_HEAD. -/
  | hifDoorbell (r : RingNo) (v : Word)
  /-- RING_FETCH (R681). The interface fetches the descriptor at SQ_HEAD while room remains, or halts the ring on error. -/
  | ringFetch (r : RingNo) (data : Option Octets)
  /-- HIF_RCFG_WRITE (R691). A write to HIF_RCFGr configures or enables a ring, or starts disabling it. -/
  | hifRcfgWrite (r : RingNo) (v : Word)
  /-- RING_DISABLE_END (R691). Work already fetched completes and a cleared ring is disabled. -/
  | ringDisableEnd (r : RingNo)
  /-- MSIX_COAL_TIMER (R685). COAL_US passes after the first record and the ring's vector is raised. -/
  | msixCoalTimer (r : RingNo) (now : Word)
  /-- HIF_BAR2WIN_WRITE (R673). A write to HIF_BAR2WIN moves the BAR2 window or is refused. -/
  | hifBar2winWrite (v : Word)
  /-- HCOLOUR_WRITE (R676). A write to HCOLOUR changes the host colour or is refused. -/
  | hcolourWrite (v : Word)
  /-- HOST_ACCESS (R675). A host BAR0 or BAR2 request is split and checked, and completes or is refused. -/
  | hostAccess (bar2 : Bool) (offset : BitVec 36) (n : Nat) (data : Option Octets) (bic : Option Nat)
  /-- MKA_TX_DESCRIPTOR (R684). An MKA transmit descriptor queues its frame on a channel or is refused. -/
  | mkaTxDescriptor (data : Option Octets)
  /-- MKA_TX_SENT (R684). A queued MKA frame leaves the mapper and its record is written. -/
  | mkaTxSent (c : Channel)
  /-- PTP_TX_DESCRIPTOR (R684). A PTP transmit descriptor sends its frame toward a client port, one-step or two-step, or is refused. -/
  | ptpTxDescriptor (data : Option Octets)
  /-- LOG_WINDOW (R699). A 1 ms window ends and kind 0xF1 records are written for suppressed kinds. -/
  | logWindow (now : Word)
  /-- LOG_RELEASE (R706). A write of RD to ELG_IDX releases records, or is ignored with IDX_ERR. -/
  | logRelease (v : Word)
  /-- RETPAGE_WRITE (R703). A write to ELG_RETPAGEn retires a Culvert page. -/
  | retpageWrite (n : Fin 256) (v : Word)
  /-- RETPOOL_WRITE (R704). A write to ELG_RETPOOL retires a Pool or is refused. -/
  | retpoolWrite (v : Word)
  /-- WATCH_CRYSTAL_RESTART (R732). The stopped Watch crystal starts again and resumes control of the Watch count from the internal oscillator. -/
  | watchCrystalRestart
  /-- FLEXO_FRAME_RX (R556). A FlexO frame of an instance arrives; FlexO frame lock is gained or lost, FLEXO_LOF is raised or cleared and GID and PID are checked for GIDM. -/
  | flexoFrameRx (g : Group) (idx : Fin 8) (lock : Bool) (gid : BitVec 20) (pid : Byte) (corr : Nat) (uncorr : Nat)
  /-- PCIE_CONFIG_WRITE (R677). The host writes the PCIe configuration space, setting or clearing Bus Master Enable or the MSI-X enable and function mask. -/
  | pcieConfigWrite (busMaster : Bool) (msixEnable : Bool) (msixMask : Bool)
  /-- PRODUCTION_TEST_FUSE_PROGRAM (R612). Turfen's production test programs the M fuse through the test access port, moving a Blank part to Manufactured. -/
  | productionTestFuseProgram
  deriving DecidableEq, Repr

end Sys2Proof
end

