-- ==== Sys2Proof/Decode.lean ====
section
/-! DEFINITION. Command words. The opcode table gives no row any bits: a command is an event with operands, and no word
spells one. -/

namespace Sys2Proof

/-- The command that a word spells by the table's bits: no row of the table gives bits. -/
def decodeTableWord (_nbits _w : Nat) : Option Instr := none

end Sys2Proof
end

