-- ==== Sys2Proof/Config.lean ====
section
/-! DEFINITION. What an implementation fixes and what the spec leaves open: constants with no body. Nothing in Lean can
evaluate one or prove a value of it; every claim holds whatever they are. Log entries name each. -/

namespace Sys2Proof.Config

/-- GRADE of GBL_IDENT, a fuse (R4). -/
opaque grade : BitVec 4

/-- The device root, a fuse of 256 bits (R232). -/
opaque deviceRoot : Octets

/-- The n-th free word: a value the spec leaves undefined, random or unstated, drawn when it is needed. -/
opaque freeWord : Nat → BitVec 64

/-- Raw contents of a word of a Confidential range that nothing has written since its enable (R492): which enable,
sector, word. -/
opaque freeSector : Nat → Nat → Nat → BitVec 80

/-- The random value that DLT_HSEED takes at the first power-on (R403). -/
opaque hashSeed : BitVec 32

end Sys2Proof.Config
end

