-- ==== Sys2Proof/Machine/Bits.lean ====
section
/-! DEFINITION. Bit fields, octet strings and byte order (R7 little-endian records, R8 most significant octet first
on line), and signed readings of words. -/

namespace Sys2Proof.Machine

/-- Bits `hi` down to `lo` of a number. -/
def bits (x hi lo : Nat) : Nat := (x / 2 ^ lo) % 2 ^ (hi + 1 - lo)

/-- Bit `i` of a number. -/
def bit (x i : Nat) : Bool := x.testBit i

/-- `x` with bits `hi` down to `lo` replaced by the low bits of `v`. -/
def setBits (x hi lo v : Nat) : Nat :=
  x - bits x hi lo * 2 ^ lo + (v % 2 ^ (hi + 1 - lo)) * 2 ^ lo

/-- A Bool as 0 or 1. -/
def b2n (b : Bool) : Nat := if b then 1 else 0

/-- The number of `n` as a signed value of `w` bits. -/
def signed (w n : Nat) : Int :=
  let m := n % 2 ^ w
  if m < 2 ^ (w - 1) then (m : Int) else (m : Int) - (2 ^ w : Nat)

/-- A signed value narrowed to `w` bits, two's complement. -/
def unsigned (w : Nat) (x : Int) : Nat := (x % ((2 ^ w : Nat) : Int)).toNat

/-- `n` octets of a number, least significant first (R7). -/
def leBytes : Nat → Nat → Octets
  | 0, _ => []
  | n + 1, x => BitVec.ofNat 8 x :: leBytes n (x / 256)

/-- The number held in octets, least significant first (R7). -/
def leNat : Octets → Nat
  | [] => 0
  | b :: t => b.toNat + 256 * leNat t

/-- `n` octets of a number, most significant first (R8). -/
def beBytes (n x : Nat) : Octets := (leBytes n x).reverse

/-- The number held in octets, most significant first (R8). -/
def beNat (l : Octets) : Nat := l.foldl (fun a b => a * 256 + b.toNat) 0

/-- `n` octets of a string from offset `o`; octets beyond its end read 0. -/
def slice (l : Octets) (o n : Nat) : Octets :=
  let t := (l.drop o).take n
  t ++ List.replicate (n - t.length) 0

/-- A string with octets replaced from offset `o`. -/
def splice (l : Octets) (o : Nat) (x : Octets) : Octets :=
  l.take o ++ x ++ l.drop (o + x.length)

/-- The list with the entry at an index replaced. -/
def setAt {α : Type} : List α → Nat → α → List α
  | [], _, _ => []
  | _ :: t, 0, x => x :: t
  | a :: t, n + 1, x => a :: setAt t n x

/-- Octet-wise exclusive or. -/
def xorOctets (a b : Octets) : Octets := List.zipWith (fun x y => x ^^^ y) a b

end Sys2Proof.Machine
end

