-- ==== Sys2Proof/Machine/Regs.lean ====
section
/-! DEFINITION. The register map: every register the spec lists, with its BAR0 offset, its replicas and its fields
(each with the access code and the reset value of its field table). Rules R707, R710, R719 and the field tables of
the chapters; each register's docstring names the rule of its table. -/

namespace Sys2Proof.Machine

/-- Register access codes (R11). A reserved field is one that no `Field` covers. -/
inductive Access where
  /-- read only: set by hardware -/
  | ro
  /-- read and written -/
  | rw
  /-- read, and cleared by writing 1 -/
  | rw1c
  /-- write only: acts at once, reads 0 -/
  | wo
  /-- read and written, kept across a warm reset -/
  | rws
  deriving DecidableEq, Repr

/-- The registers by the spec's names, one constructor for each row of the offset tables. -/
inductive Reg where
  /-- GBL_IDENT (R4) -/
  | GBL_IDENT
  /-- GBL_MODE (R632) -/
  | GBL_MODE
  /-- GBL_MODECMD (R632) -/
  | GBL_MODECMD
  /-- GBL_LCCMD (R632) -/
  | GBL_LCCMD
  /-- GBL_PRES (R632) -/
  | GBL_PRES
  /-- GBL_RESET (R632) -/
  | GBL_RESET
  /-- GBL_POC (R632) -/
  | GBL_POC
  /-- GBL_DEBUG (R632) -/
  | GBL_DEBUG
  /-- GAU_READ (R71) -/
  | GAU_READ
  /-- GAU_PRESETn (R71) -/
  | GAU_PRESET
  /-- GAU_FTICK (R71) -/
  | GAU_FTICK
  /-- GAU_FPERn (R71) -/
  | GAU_FPER
  /-- GAU_STATn (R71) -/
  | GAU_STAT
  /-- GAU_SNAP (R71) -/
  | GAU_SNAP
  /-- GAU_FAR (R71) -/
  | GAU_FAR
  /-- GAU_SNAPFAR (R71) -/
  | GAU_SNAPFAR
  /-- GAU_RECORD (R76) -/
  | GAU_RECORD
  /-- GAU_SNAPCTL (R77) -/
  | GAU_SNAPCTL
  /-- GAU_EVFREE (R78) -/
  | GAU_EVFREE
  /-- RC_CTLk (R135) -/
  | RC_CTL
  /-- RC_STATk (R135) -/
  | RC_STAT
  /-- RC_FLAGk (R135) -/
  | RC_FLAG
  /-- RC_FLAGG (R135) -/
  | RC_FLAGG
  /-- WEI_GRP_CFGn (R27) -/
  | WEI_GRP_CFG
  /-- WEI_POOL_STAT (R30) -/
  | WEI_POOL_STAT
  /-- WEI_FAILCLR (R314) -/
  | WEI_FAILCLR
  /-- WEI_SAMPLE (R314) -/
  | WEI_SAMPLE
  /-- WEI_STAT (R314) -/
  | WEI_STAT
  /-- WEI_LEASEn (R314) -/
  | WEI_LEASE
  /-- WEI_CARD (R314) -/
  | WEI_CARD
  /-- WEI_CARDGRANT (R314) -/
  | WEI_CARDGRANT
  /-- WEI_TETHCTL (R314) -/
  | WEI_TETHCTL
  /-- WEI_TETHSTAT (R314) -/
  | WEI_TETHSTAT
  /-- WEI_MIRROR (R314) -/
  | WEI_MIRROR
  /-- SPR_PGOWNk (R273) -/
  | SPR_PGOWN
  /-- SPR_STAT (R273) -/
  | SPR_STAT
  /-- KST_CMD (R273) -/
  | KST_CMD
  /-- KST_STAT (R273) -/
  | KST_STAT
  /-- KST_DATA (R273) -/
  | KST_DATA
  /-- KST_CISTAT (R273) -/
  | KST_CISTAT
  /-- KST_DEVID (R273) -/
  | KST_DEVID
  /-- PKE_STAT (R273) -/
  | PKE_STAT
  /-- DLT_CMD (R420) -/
  | DLT_CMD
  /-- DLT_STAT (R420) -/
  | DLT_STAT
  /-- DLT_POS (R420) -/
  | DLT_POS
  /-- DLT_HSEED (R420) -/
  | DLT_HSEED
  /-- DLT_DATA0 (R420) -/
  | DLT_DATA0
  /-- DLT_DATA1 (R420) -/
  | DLT_DATA1
  /-- DLT_AGE (R420) -/
  | DLT_AGE
  /-- DLT_USED (R420) -/
  | DLT_USED
  /-- DLT_PORTn (R420) -/
  | DLT_PORT
  /-- DLT_PDEFn (R420) -/
  | DLT_PDEF
  /-- BSN_CMD (R460) -/
  | BSN_CMD
  /-- BSN_STAT (R460) -/
  | BSN_STAT
  /-- BSN_OBJ (R460) -/
  | BSN_OBJ
  /-- BSN_DATA (R460) -/
  | BSN_DATA
  /-- BSN_POOL (R460) -/
  | BSN_POOL
  /-- BSN_SHARED (R460) -/
  | BSN_SHARED
  /-- BSN_FREE (R460) -/
  | BSN_FREE
  /-- BSN_LOST (R460) -/
  | BSN_LOST
  /-- BSN_FIFO (R460) -/
  | BSN_FIFO
  /-- BSN_RESg (R460) -/
  | BSN_RES
  /-- CUL_CTL (R497) -/
  | CUL_CTL
  /-- CUL_STAT (R497) -/
  | CUL_STAT
  /-- CUL_SCRUB (R497) -/
  | CUL_SCRUB
  /-- CUL_BW (R497) -/
  | CUL_BW
  /-- CUL_RNGr (R497) -/
  | CUL_RNG
  /-- CUL_RTREEr (R497) -/
  | CUL_RTREE
  /-- CUL_RSTATr (R497) -/
  | CUL_RSTAT
  /-- TID_ICINV (R355) -/
  | TID_ICINV
  /-- TID_RESET (R355) -/
  | TID_RESET
  /-- TID_STAT (R355) -/
  | TID_STAT
  /-- TID_SODIGLO (R355) -/
  | TID_SODIGLO
  /-- TID_SODIGHI (R355) -/
  | TID_SODIGHI
  /-- TID_SOINFO (R355) -/
  | TID_SOINFO
  /-- TID_EVQ (R355) -/
  | TID_EVQ
  /-- TID_TRAPSUM (R355) -/
  | TID_TRAPSUM
  /-- TID_THRCFGt (R355) -/
  | TID_THRCFG
  /-- TID_THRCTLt (R355) -/
  | TID_THRCTL
  /-- TID_THRSTATt (R355) -/
  | TID_THRSTAT
  /-- TID_ENTRY (R355) -/
  | TID_ENTRY
  /-- TID_TRAPPC (R355) -/
  | TID_TRAPPC
  /-- TID_TRAPINFOt (R355) -/
  | TID_TRAPINFO
  /-- TID_TRAPADDR (R355) -/
  | TID_TRAPADDR
  /-- CMP_CTL (R525) -/
  | CMP_CTL
  /-- CMP_STAT (R525) -/
  | CMP_STAT
  /-- CMP_EPOCH (R525) -/
  | CMP_EPOCH
  /-- CMP_FENCE (R525) -/
  | CMP_FENCE
  /-- CMP_VIOL (R525) -/
  | CMP_VIOL
  /-- CMP_VINFO (R525) -/
  | CMP_VINFO
  /-- CMP_STARTn (R525) -/
  | CMP_START
  /-- CMP_ENDn (R525) -/
  | CMP_END
  /-- CMP_ATTRn (R525) -/
  | CMP_ATTR
  /-- CMP_LSTART (R525) -/
  | CMP_LSTART
  /-- CMP_LEND (R525) -/
  | CMP_LEND
  /-- CMP_LATTR (R525) -/
  | CMP_LATTR
  /-- POOL_OWNk (R525) -/
  | POOL_OWN
  /-- LN_CTLn (R550) -/
  | LN_CTL
  /-- LN_STATn (R550) -/
  | LN_STAT
  /-- LN_TXEQn (R550) -/
  | LN_TXEQ
  /-- LN_MAPn (R550) -/
  | LN_MAP
  /-- LN_EYECTLn (R550) -/
  | LN_EYECTL
  /-- LN_EYERESn (R550) -/
  | LN_EYERES
  /-- FRM_CTLg (R576) -/
  | FRM_CTL
  /-- FRM_STATg (R576) -/
  | FRM_STAT
  /-- FRM_GPOSg (R576) -/
  | FRM_GPOS
  /-- FRM_DEF (R576) -/
  | FRM_DEF
  /-- FRM_CPORTg_j (R576) -/
  | FRM_CPORT
  /-- FRM_TSMAPg_s (R576) -/
  | FRM_TSMAP
  /-- FRM_TSLIVE (R576) -/
  | FRM_TSLIVE
  /-- FRM_CHSTAT (R576) -/
  | FRM_CHSTAT
  /-- FRM_COOPOSg (R178) -/
  | FRM_COOPOS
  /-- FRM_L1CTLg (R178) -/
  | FRM_L1CTL
  /-- FRM_L1HOLDg (R178) -/
  | FRM_L1HOLD
  /-- FRM_L1CMDg (R178) -/
  | FRM_L1CMD
  /-- FRM_L1DATA (R178) -/
  | FRM_L1DATA
  /-- FRM_UNTRUST (R178) -/
  | FRM_UNTRUST
  /-- FRM_DCCCTLp (R576) -/
  | FRM_DCCCTL
  /-- FRM_DCCSTATp (R576) -/
  | FRM_DCCSTAT
  /-- FRM_DSTRp_i (R576) -/
  | FRM_DSTR
  /-- SCY_CMD (R221) -/
  | SCY_CMD
  /-- SCY_STAT (R221) -/
  | SCY_STAT
  /-- SCY_DATA (R221) -/
  | SCY_DATA
  /-- LEV_STAT (R602) -/
  | LEV_STAT
  /-- LEV_STICKY (R602) -/
  | LEV_STICKY
  /-- LEV_RAW (R602) -/
  | LEV_RAW
  /-- LEV_TEMP (R602) -/
  | LEV_TEMP
  /-- LEV_WATCH (R602) -/
  | LEV_WATCH
  /-- LEV_WTICK (R602) -/
  | LEV_WTICK
  /-- LEV_LOGCNT (R602) -/
  | LEV_LOGCNT
  /-- LEV_LOGRD (R602) -/
  | LEV_LOGRD
  /-- LEV_LOGDATA0 (R602) -/
  | LEV_LOGDATA0
  /-- LEV_LOGDATA1 (R602) -/
  | LEV_LOGDATA1
  /-- LEV_SRCCFGs (R602) -/
  | LEV_SRCCFG
  /-- LEV_EVCNT (R602) -/
  | LEV_EVCNT
  /-- CLK_TICK (R650) -/
  | CLK_TICK
  /-- CLK_TIME0 (R650) -/
  | CLK_TIME0
  /-- CLK_TIME1 (R650) -/
  | CLK_TIME1
  /-- CLK_SET0 (R650) -/
  | CLK_SET0
  /-- CLK_SET1 (R650) -/
  | CLK_SET1
  /-- CLK_ADJ (R650) -/
  | CLK_ADJ
  /-- CLK_RATE (R650) -/
  | CLK_RATE
  /-- CLK_JUMP (R650) -/
  | CLK_JUMP
  /-- CLK_CMD (R650) -/
  | CLK_CMD
  /-- CLK_STAT (R650) -/
  | CLK_STAT
  /-- CLK_PPS (R650) -/
  | CLK_PPS
  /-- CLK_PPSIN0 (R650) -/
  | CLK_PPSIN0
  /-- CLK_PPSIN1 (R650) -/
  | CLK_PPSIN1
  /-- CLK_PPSTICK (R650) -/
  | CLK_PPSTICK
  /-- CLK_PTPn (R650) -/
  | CLK_PTP
  /-- CLK_DLYn (R650) -/
  | CLK_DLY
  /-- CLK_TSAn (R650) -/
  | CLK_TSA
  /-- CLK_TSBn (R650) -/
  | CLK_TSB
  /-- SND_STAT (R670) -/
  | SND_STAT
  /-- SND_SAMPCTL (R670) -/
  | SND_SAMPCTL
  /-- SND_SAMPCORE (R670) -/
  | SND_SAMPCORE
  /-- SND_SRING (R670) -/
  | SND_SRING
  /-- SND_SRIDX (R670) -/
  | SND_SRIDX
  /-- SND_SCFGn (R670) -/
  | SND_SCFG
  /-- SND_SFIRSTn (R670) -/
  | SND_SFIRST
  /-- SND_SLISTn (R670) -/
  | SND_SLIST
  /-- SND_SRINGn (R670) -/
  | SND_RINGBASE
  /-- SND_SRIDXn (R670) -/
  | SND_RINGIDX
  /-- SND_SSEQn (R670) -/
  | SND_SSEQ
  /-- SND_TCFGn (R670) -/
  | SND_TCFG
  /-- SND_THIGHn (R670) -/
  | SND_THIGH
  /-- SND_TLOWn (R670) -/
  | SND_TLOW
  /-- SND_TVALn (R670) -/
  | SND_TVAL
  /-- HIF_CTL (R689) -/
  | HIF_CTL
  /-- HIF_STAT (R689) -/
  | HIF_STAT
  /-- HIF_HERR (R689) -/
  | HIF_HERR
  /-- HIF_BAR2WIN (R689) -/
  | HIF_BAR2WIN
  /-- HIF_CAUSE (R689) -/
  | HIF_CAUSE
  /-- HIF_CAUSEMSK (R689) -/
  | HIF_CAUSEMSK
  /-- HIF_CAUSEVEC (R689) -/
  | HIF_CAUSEVEC
  /-- HIF_RBASE (R689) -/
  | HIF_RBASE
  /-- HIF_CBASE (R689) -/
  | HIF_CBASE
  /-- HIF_RCFGr (R689) -/
  | HIF_RCFG
  /-- HIF_RCOALr (R689) -/
  | HIF_RCOAL
  /-- HIF_RSTATr (R689) -/
  | HIF_RSTAT
  /-- HIF_DBr (R689) -/
  | HIF_DB
  /-- HIF_RIDXr (R689) -/
  | HIF_RIDX
  /-- HIF_RDROP (R689) -/
  | HIF_RDROP
  /-- HIF_MSIXA (R720) -/
  | HIF_MSIXA
  /-- HIF_MSIXD (R720) -/
  | HIF_MSIXD
  /-- HIF_PBA (R720) -/
  | HIF_PBA
  /-- ELG_CTL (R705) -/
  | ELG_CTL
  /-- ELG_STAT (R705) -/
  | ELG_STAT
  /-- ELG_IDX (R705) -/
  | ELG_IDX
  /-- ELG_SEQ (R705) -/
  | ELG_SEQ
  /-- ELG_BREACH (R95) -/
  | ELG_BREACH
  /-- ELG_RETPOOL (R705) -/
  | ELG_RETPOOL
  /-- ELG_CE (R705) -/
  | ELG_CE
  /-- ELG_RETPAGEn (R705) -/
  | ELG_RETPAGE
  /-- ELG_KCNT (R705) -/
  | ELG_KCNT
  /-- ELG_LOG (R705) -/
  | ELG_LOG
  deriving DecidableEq, Repr

/-- A field of a register: bits `hi` down to `lo`, its access code and its reset value. -/
structure Field where
  reg : Reg
  hi : Nat
  lo : Nat
  acc : Access
  rst : Nat
  deriving DecidableEq, Repr

/-- Where a register lies: the offset of instance 0, the counts and strides of its replicas (R719), its width in octets. -/
structure Place where
  base : Nat
  count1 : Nat
  stride1 : Nat
  count2 : Nat
  stride2 : Nat
  octets : Nat
  deriving DecidableEq, Repr

/-- GBL_IDENT [31:16] PART (R4). -/
def GBL_IDENT.PART : Field := ⟨.GBL_IDENT, 31, 16, .ro, 0x1440⟩
/-- GBL_IDENT [15:8] STEP (R4). -/
def GBL_IDENT.STEP : Field := ⟨.GBL_IDENT, 15, 8, .ro, 0xA1⟩
/-- GBL_IDENT [7:4] GRADE (R4). -/
def GBL_IDENT.GRADE : Field := ⟨.GBL_IDENT, 7, 4, .ro, 0⟩

/-- GBL_MODE [31:28] MODE (R633). -/
def GBL_MODE.MODE : Field := ⟨.GBL_MODE, 31, 28, .ro, 1⟩
/-- GBL_MODE [27:26] LCS (R633). -/
def GBL_MODE.LCS : Field := ⟨.GBL_MODE, 27, 26, .ro, 0⟩
/-- GBL_MODE [25:25] STOP_CLEAN (R633). -/
def GBL_MODE.STOP_CLEAN : Field := ⟨.GBL_MODE, 25, 25, .ro, 0⟩
/-- GBL_MODE [24:24] DRAINED (R633). -/
def GBL_MODE.DRAINED : Field := ⟨.GBL_MODE, 24, 24, .ro, 0⟩
/-- GBL_MODE [23:23] DEGRADED (R633). -/
def GBL_MODE.DEGRADED : Field := ⟨.GBL_MODE, 23, 23, .ro, 0⟩
/-- GBL_MODE [22:22] REPLAY (R633). -/
def GBL_MODE.REPLAY : Field := ⟨.GBL_MODE, 22, 22, .ro, 0⟩
/-- GBL_MODE [15:0] TRANS (R633). -/
def GBL_MODE.TRANS : Field := ⟨.GBL_MODE, 15, 0, .ro, 0⟩

/-- GBL_MODECMD [31:31] BUSY (R634). -/
def GBL_MODECMD.BUSY : Field := ⟨.GBL_MODECMD, 31, 31, .ro, 0⟩
/-- GBL_MODECMD [30:28] STATUS (R634). -/
def GBL_MODECMD.STATUS : Field := ⟨.GBL_MODECMD, 30, 28, .ro, 0⟩
/-- GBL_MODECMD [27:27] CMD_DROP (R634). -/
def GBL_MODECMD.CMD_DROP : Field := ⟨.GBL_MODECMD, 27, 27, .rw1c, 0⟩
/-- GBL_MODECMD [3:0] TARGET (R634). -/
def GBL_MODECMD.TARGET : Field := ⟨.GBL_MODECMD, 3, 0, .rw, 0⟩

/-- GBL_LCCMD [31:31] BUSY (R634). -/
def GBL_LCCMD.BUSY : Field := ⟨.GBL_LCCMD, 31, 31, .ro, 0⟩
/-- GBL_LCCMD [30:28] STATUS (R634). -/
def GBL_LCCMD.STATUS : Field := ⟨.GBL_LCCMD, 30, 28, .ro, 0⟩
/-- GBL_LCCMD [27:27] CMD_DROP (R634). -/
def GBL_LCCMD.CMD_DROP : Field := ⟨.GBL_LCCMD, 27, 27, .rw1c, 0⟩
/-- GBL_LCCMD [15:8] CONFIRM (R634). -/
def GBL_LCCMD.CONFIRM : Field := ⟨.GBL_LCCMD, 15, 8, .wo, 0⟩
/-- GBL_LCCMD [1:0] TARGET (R634). -/
def GBL_LCCMD.TARGET : Field := ⟨.GBL_LCCMD, 1, 0, .wo, 0⟩

/-- GBL_PRES [31:31] OPEN (R635). -/
def GBL_PRES.OPEN : Field := ⟨.GBL_PRES, 31, 31, .ro, 0⟩
/-- GBL_PRES [30:30] STUCK (R635). -/
def GBL_PRES.STUCK : Field := ⟨.GBL_PRES, 30, 30, .rw1c, 0⟩
/-- GBL_PRES [29:29] LEVEL (R635). -/
def GBL_PRES.LEVEL : Field := ⟨.GBL_PRES, 29, 29, .ro, 0⟩
/-- GBL_PRES [13:0] REMAIN_MS (R635). -/
def GBL_PRES.REMAIN_MS : Field := ⟨.GBL_PRES, 13, 0, .ro, 0⟩

/-- GBL_RESET [31:31] DEVICE (R635). -/
def GBL_RESET.DEVICE : Field := ⟨.GBL_RESET, 31, 31, .wo, 0⟩
/-- GBL_RESET [30:30] HIF (R635). -/
def GBL_RESET.HIF : Field := ⟨.GBL_RESET, 30, 30, .wo, 0⟩

/-- GBL_POC [31:31] DONE (R635). -/
def GBL_POC.DONE : Field := ⟨.GBL_POC, 31, 31, .ro, 0⟩
/-- GBL_POC [30:30] FAIL (R635). -/
def GBL_POC.FAIL : Field := ⟨.GBL_POC, 30, 30, .ro, 0⟩
/-- GBL_POC [29:29] AO_LOST (R635). -/
def GBL_POC.AO_LOST : Field := ⟨.GBL_POC, 29, 29, .rw1c, 1⟩
/-- GBL_POC [27:24] STAGE (R635). -/
def GBL_POC.STAGE : Field := ⟨.GBL_POC, 27, 24, .ro, 0⟩
/-- GBL_POC [23:16] CODE (R635). -/
def GBL_POC.CODE : Field := ⟨.GBL_POC, 23, 16, .ro, 0⟩
/-- GBL_POC [15:0] UNIT (R635). -/
def GBL_POC.UNIT : Field := ⟨.GBL_POC, 15, 0, .ro, 0⟩

/-- GBL_DEBUG [31:31] OPEN (R635). -/
def GBL_DEBUG.OPEN : Field := ⟨.GBL_DEBUG, 31, 31, .ro, 0⟩
/-- GBL_DEBUG [30:30] REJECT (R635). -/
def GBL_DEBUG.REJECT : Field := ⟨.GBL_DEBUG, 30, 30, .rw1c, 0⟩
/-- GBL_DEBUG [1:1] CLOSE (R635). -/
def GBL_DEBUG.CLOSE : Field := ⟨.GBL_DEBUG, 1, 1, .wo, 0⟩
/-- GBL_DEBUG [0:0] REQ (R635). -/
def GBL_DEBUG.REQ : Field := ⟨.GBL_DEBUG, 0, 0, .wo, 0⟩

/-- GAU_READ [63:16] FRAME (R72). -/
def GAU_READ.FRAME : Field := ⟨.GAU_READ, 63, 16, .ro, 0⟩
/-- GAU_READ [15:0] OFFSET (R72). -/
def GAU_READ.OFFSET : Field := ⟨.GAU_READ, 15, 0, .ro, 0⟩

/-- GAU_PRESET [63:16] FRAME (R73). -/
def GAU_PRESET.FRAME : Field := ⟨.GAU_PRESET, 63, 16, .rw, 0⟩

/-- GAU_FTICK [63:0] TICK (R72). -/
def GAU_FTICK.TICK : Field := ⟨.GAU_FTICK, 63, 0, .ro, 0⟩

/-- GAU_FPER [31:16] INT (R74). -/
def GAU_FPER.INT : Field := ⟨.GAU_FPER, 31, 16, .ro, 0⟩
/-- GAU_FPER [15:0] FRAC (R74). -/
def GAU_FPER.FRAC : Field := ⟨.GAU_FPER, 15, 0, .ro, 0⟩

/-- GAU_STAT [31:31] RUN (R75). -/
def GAU_STAT.RUN : Field := ⟨.GAU_STAT, 31, 31, .ro, 0⟩
/-- GAU_STAT [30:30] FAR_LOCK (R75). -/
def GAU_STAT.FAR_LOCK : Field := ⟨.GAU_STAT, 30, 30, .ro, 0⟩
/-- GAU_STAT [29:29] PAST (R75). -/
def GAU_STAT.PAST : Field := ⟨.GAU_STAT, 29, 29, .rw1c, 0⟩
/-- GAU_STAT [28:28] FAR_LOSS (R75). -/
def GAU_STAT.FAR_LOSS : Field := ⟨.GAU_STAT, 28, 28, .rw1c, 0⟩
/-- GAU_STAT [15:0] EPOCH (R75). -/
def GAU_STAT.EPOCH : Field := ⟨.GAU_STAT, 15, 0, .ro, 0⟩

/-- GAU_SNAP [63:16] FRAME (R72). -/
def GAU_SNAP.FRAME : Field := ⟨.GAU_SNAP, 63, 16, .ro, 0⟩
/-- GAU_SNAP [15:0] OFFSET (R72). -/
def GAU_SNAP.OFFSET : Field := ⟨.GAU_SNAP, 15, 0, .ro, 0⟩

/-- GAU_FAR [63:16] FRAME (R72). -/
def GAU_FAR.FRAME : Field := ⟨.GAU_FAR, 63, 16, .ro, 0⟩
/-- GAU_FAR [15:0] OFFSET (R72). -/
def GAU_FAR.OFFSET : Field := ⟨.GAU_FAR, 15, 0, .ro, 0⟩

/-- GAU_SNAPFAR [63:16] FRAME (R72). -/
def GAU_SNAPFAR.FRAME : Field := ⟨.GAU_SNAPFAR, 63, 16, .ro, 0⟩
/-- GAU_SNAPFAR [15:0] OFFSET (R72). -/
def GAU_SNAPFAR.OFFSET : Field := ⟨.GAU_SNAPFAR, 15, 0, .ro, 0⟩

/-- GAU_RECORD [31:31] REJECT (R76). -/
def GAU_RECORD.REJECT : Field := ⟨.GAU_RECORD, 31, 31, .rw1c, 0⟩
/-- GAU_RECORD [4:0] GROUP (R76). -/
def GAU_RECORD.GROUP : Field := ⟨.GAU_RECORD, 4, 0, .rw, 0⟩

/-- GAU_SNAPCTL [25:8] SRUN (R77). -/
def GAU_SNAPCTL.SRUN : Field := ⟨.GAU_SNAPCTL, 25, 8, .ro, 0⟩
/-- GAU_SNAPCTL [1:1] AUTO (R77). -/
def GAU_SNAPCTL.AUTO : Field := ⟨.GAU_SNAPCTL, 1, 1, .rw, 0⟩
/-- GAU_SNAPCTL [0:0] TRIG (R77). -/
def GAU_SNAPCTL.TRIG : Field := ⟨.GAU_SNAPCTL, 0, 0, .wo, 0⟩

/-- GAU_EVFREE [12:0] FREE (R78). -/
def GAU_EVFREE.FREE : Field := ⟨.GAU_EVFREE, 12, 0, .ro, 0x1000⟩

/-- RC_CTL [1:1] FLAG_CLR (R136). -/
def RC_CTL.FLAG_CLR : Field := ⟨.RC_CTL, 1, 1, .wo, 0⟩
/-- RC_CTL [0:0] TEST (R136). -/
def RC_CTL.TEST : Field := ⟨.RC_CTL, 0, 0, .wo, 0⟩

/-- RC_STAT [31:31] FLAGGED (R137). -/
def RC_STAT.FLAGGED : Field := ⟨.RC_STAT, 31, 31, .rw1c, 0⟩
/-- RC_STAT [30:30] KAT_FAIL (R137). -/
def RC_STAT.KAT_FAIL : Field := ⟨.RC_STAT, 30, 30, .rw1c, 0⟩
/-- RC_STAT [29:29] KAT_DONE (R137). -/
def RC_STAT.KAT_DONE : Field := ⟨.RC_STAT, 29, 29, .rw1c, 0⟩
/-- RC_STAT [28:24] GROUP (R137). -/
def RC_STAT.GROUP : Field := ⟨.RC_STAT, 28, 24, .ro, 0x1F⟩
/-- RC_STAT [23:22] ROLE (R137). -/
def RC_STAT.ROLE : Field := ⟨.RC_STAT, 23, 22, .ro, 0⟩
/-- RC_STAT [2:0] STATE (R137). -/
def RC_STAT.STATE : Field := ⟨.RC_STAT, 2, 0, .ro, 0⟩

/-- RC_FLAG [63:63] VALID (R138). -/
def RC_FLAG.VALID : Field := ⟨.RC_FLAG, 63, 63, .ro, 0⟩
/-- RC_FLAG [62:62] DIR (R138). -/
def RC_FLAG.DIR : Field := ⟨.RC_FLAG, 62, 62, .ro, 0⟩
/-- RC_FLAG [61:59] CHECKER (R138). -/
def RC_FLAG.CHECKER : Field := ⟨.RC_FLAG, 61, 59, .ro, 0⟩
/-- RC_FLAG [58:56] UNIT (R138). -/
def RC_FLAG.UNIT : Field := ⟨.RC_FLAG, 58, 56, .ro, 0⟩
/-- RC_FLAG [55:44] CHAN (R138). -/
def RC_FLAG.CHAN : Field := ⟨.RC_FLAG, 55, 44, .ro, 0⟩
/-- RC_FLAG [43:32] BLOCK (R138). -/
def RC_FLAG.BLOCK : Field := ⟨.RC_FLAG, 43, 32, .ro, 0⟩
/-- RC_FLAG [31:0] SEQ (R138). -/
def RC_FLAG.SEQ : Field := ⟨.RC_FLAG, 31, 0, .ro, 0⟩

/-- RC_FLAGG [63:16] FRAME (R139). -/
def RC_FLAGG.FRAME : Field := ⟨.RC_FLAGG, 63, 16, .ro, 0⟩
/-- RC_FLAGG [15:0] OFFSET (R139). -/
def RC_FLAGG.OFFSET : Field := ⟨.RC_FLAGG, 15, 0, .ro, 0⟩

/-- WEI_GRP_CFG [31:31] EN (R27). -/
def WEI_GRP_CFG.EN : Field := ⟨.WEI_GRP_CFG, 31, 31, .rw, 0⟩
/-- WEI_GRP_CFG [30:29] PROT (R27). -/
def WEI_GRP_CFG.PROT : Field := ⟨.WEI_GRP_CFG, 30, 29, .rw, 0⟩
/-- WEI_GRP_CFG [28:28] CLOSING (R27). -/
def WEI_GRP_CFG.CLOSING : Field := ⟨.WEI_GRP_CFG, 28, 28, .ro, 0⟩
/-- WEI_GRP_CFG [12:8] RACE_B (R27). -/
def WEI_GRP_CFG.RACE_B : Field := ⟨.WEI_GRP_CFG, 12, 8, .rw, 0⟩
/-- WEI_GRP_CFG [4:0] RACE_A (R27). -/
def WEI_GRP_CFG.RACE_A : Field := ⟨.WEI_GRP_CFG, 4, 0, .rw, 0⟩

/-- WEI_POOL_STAT [31:31] CFG_REJECT (R30). -/
def WEI_POOL_STAT.CFG_REJECT : Field := ⟨.WEI_POOL_STAT, 31, 31, .rw1c, 0⟩
/-- WEI_POOL_STAT [28:24] STANDBY (R30). -/
def WEI_POOL_STAT.STANDBY : Field := ⟨.WEI_POOL_STAT, 28, 24, .ro, 0x18⟩
/-- WEI_POOL_STAT [23:0] FAILED (R30). -/
def WEI_POOL_STAT.FAILED : Field := ⟨.WEI_POOL_STAT, 23, 0, .ro, 0⟩

/-- WEI_FAILCLR [23:0] CLR (R316). -/
def WEI_FAILCLR.CLR : Field := ⟨.WEI_FAILCLR, 23, 0, .wo, 0⟩

/-- WEI_SAMPLE [31:31] DIP_BOOST (R317). -/
def WEI_SAMPLE.DIP_BOOST : Field := ⟨.WEI_SAMPLE, 31, 31, .ro, 0⟩
/-- WEI_SAMPLE [3:0] SHIFT (R317). -/
def WEI_SAMPLE.SHIFT : Field := ⟨.WEI_SAMPLE, 3, 0, .rw, 7⟩

/-- WEI_STAT [31:31] CLR_REJECT (R318). -/
def WEI_STAT.CLR_REJECT : Field := ⟨.WEI_STAT, 31, 31, .rw1c, 0⟩
/-- WEI_STAT [30:30] LAPSE (R318). -/
def WEI_STAT.LAPSE : Field := ⟨.WEI_STAT, 30, 30, .rw1c, 0⟩
/-- WEI_STAT [29:29] TAG_DISAGREE (R318). -/
def WEI_STAT.TAG_DISAGREE : Field := ⟨.WEI_STAT, 29, 29, .rw1c, 0⟩
/-- WEI_STAT [28:28] UNRESOLVED (R318). -/
def WEI_STAT.UNRESOLVED : Field := ⟨.WEI_STAT, 28, 28, .rw1c, 0⟩
/-- WEI_STAT [27:27] SAMPLE_FAIL (R318). -/
def WEI_STAT.SAMPLE_FAIL : Field := ⟨.WEI_STAT, 27, 27, .rw1c, 0⟩
/-- WEI_STAT [26:26] CKPT_ERR (R318). -/
def WEI_STAT.CKPT_ERR : Field := ⟨.WEI_STAT, 26, 26, .rw1c, 0⟩
/-- WEI_STAT [25:25] STALE_WR (R318). -/
def WEI_STAT.STALE_WR : Field := ⟨.WEI_STAT, 25, 25, .rw1c, 0⟩

/-- WEI_LEASE [63:62] STATE (R315). -/
def WEI_LEASE.STATE : Field := ⟨.WEI_LEASE, 63, 62, .ro, 0⟩
/-- WEI_LEASE [52:48] HOLDER_B (R315). -/
def WEI_LEASE.HOLDER_B : Field := ⟨.WEI_LEASE, 52, 48, .ro, 0x1F⟩
/-- WEI_LEASE [44:40] HOLDER_A (R315). -/
def WEI_LEASE.HOLDER_A : Field := ⟨.WEI_LEASE, 44, 40, .ro, 0x1F⟩
/-- WEI_LEASE [31:16] LEPOCH (R315). -/
def WEI_LEASE.LEPOCH : Field := ⟨.WEI_LEASE, 31, 16, .ro, 0⟩
/-- WEI_LEASE [15:0] RENEW (R315). -/
def WEI_LEASE.RENEW : Field := ⟨.WEI_LEASE, 15, 0, .ro, 0⟩

/-- WEI_CARD [31:31] CARD_EN (R319). -/
def WEI_CARD.CARD_EN : Field := ⟨.WEI_CARD, 31, 31, .rw, 0⟩
/-- WEI_CARD [30:30] ACTIVE (R319). -/
def WEI_CARD.ACTIVE : Field := ⟨.WEI_CARD, 30, 30, .ro, 0⟩
/-- WEI_CARD [19:0] LEN (R319). -/
def WEI_CARD.LEN : Field := ⟨.WEI_CARD, 19, 0, .rw, 0x2710⟩

/-- WEI_CARDGRANT [31:0] CARD_EPOCH (R319). -/
def WEI_CARDGRANT.CARD_EPOCH : Field := ⟨.WEI_CARDGRANT, 31, 0, .wo, 0⟩

/-- WEI_TETHCTL [31:31] MIRROR_TX (R320). -/
def WEI_TETHCTL.MIRROR_TX : Field := ⟨.WEI_TETHCTL, 31, 31, .rw, 0⟩
/-- WEI_TETHCTL [30:30] MIRROR_RX (R320). -/
def WEI_TETHCTL.MIRROR_RX : Field := ⟨.WEI_TETHCTL, 30, 30, .rw, 0⟩

/-- WEI_TETHSTAT [31:31] CARD_REJECT (R320). -/
def WEI_TETHSTAT.CARD_REJECT : Field := ⟨.WEI_TETHSTAT, 31, 31, .rw1c, 0⟩
/-- WEI_TETHSTAT [30:30] CRC_ERR (R320). -/
def WEI_TETHSTAT.CRC_ERR : Field := ⟨.WEI_TETHSTAT, 30, 30, .rw1c, 0⟩
/-- WEI_TETHSTAT [29:29] STALE (R320). -/
def WEI_TETHSTAT.STALE : Field := ⟨.WEI_TETHSTAT, 29, 29, .rw1c, 0⟩

/-- WEI_MIRROR [63:0] DATA (R314). -/
def WEI_MIRROR.DATA : Field := ⟨.WEI_MIRROR, 63, 0, .ro, 0⟩

/-- SPR_PGOWN [31:31] EN (R274). -/
def SPR_PGOWN.EN : Field := ⟨.SPR_PGOWN, 31, 31, .rw, 1⟩
/-- SPR_PGOWN [3:0] OWNER (R274). -/
def SPR_PGOWN.OWNER : Field := ⟨.SPR_PGOWN, 3, 0, .rw, 9⟩

/-- SPR_STAT [31:31] REJECT (R275). -/
def SPR_STAT.REJECT : Field := ⟨.SPR_STAT, 31, 31, .rw1c, 0⟩
/-- SPR_STAT [30:30] PAGE_VIOL (R275). -/
def SPR_STAT.PAGE_VIOL : Field := ⟨.SPR_STAT, 30, 30, .rw1c, 0⟩
/-- SPR_STAT [29:29] DIP_ABORT (R275). -/
def SPR_STAT.DIP_ABORT : Field := ⟨.SPR_STAT, 29, 29, .rw1c, 0⟩
/-- SPR_STAT [15:0] BUSY (R275). -/
def SPR_STAT.BUSY : Field := ⟨.SPR_STAT, 15, 0, .ro, 0⟩

/-- KST_CMD [31:31] BUSY (R276). -/
def KST_CMD.BUSY : Field := ⟨.KST_CMD, 31, 31, .ro, 0⟩
/-- KST_CMD [30:27] STATUS (R276). -/
def KST_CMD.STATUS : Field := ⟨.KST_CMD, 30, 27, .ro, 0⟩
/-- KST_CMD [26:24] OP (R276). -/
def KST_CMD.OP : Field := ⟨.KST_CMD, 26, 24, .rw, 0⟩

/-- KST_STAT [31:31] SWEEP (R277). -/
def KST_STAT.SWEEP : Field := ⟨.KST_STAT, 31, 31, .ro, 0⟩
/-- KST_STAT [30:30] DIP (R277). -/
def KST_STAT.DIP : Field := ⟨.KST_STAT, 30, 30, .ro, 0⟩
/-- KST_STAT [29:29] CMD_DROP (R277). -/
def KST_STAT.CMD_DROP : Field := ⟨.KST_STAT, 29, 29, .rw1c, 0⟩

/-- KST_DATA [63:0] DATA (R276). -/
def KST_DATA.DATA : Field := ⟨.KST_DATA, 63, 0, .rw, 0⟩

/-- KST_CISTAT [31:31] DS_VALID (R278). -/
def KST_CISTAT.DS_VALID : Field := ⟨.KST_CISTAT, 31, 31, .ro, 0⟩
/-- KST_CISTAT [30:30] CIS_ERR (R278). -/
def KST_CISTAT.CIS_ERR : Field := ⟨.KST_CISTAT, 30, 30, .rw1c, 0⟩
/-- KST_CISTAT [8:0] CAKS (R278). -/
def KST_CISTAT.CAKS : Field := ⟨.KST_CISTAT, 8, 0, .ro, 0⟩

/-- KST_DEVID [63:0] DEVICE_ID (R279). -/
def KST_DEVID.DEVICE_ID : Field := ⟨.KST_DEVID, 63, 0, .ro, 0⟩

/-- PKE_STAT [31:31] MSG_BAD (R280). -/
def PKE_STAT.MSG_BAD : Field := ⟨.PKE_STAT, 31, 31, .rw1c, 0⟩
/-- PKE_STAT [30:30] AUTH_FAIL (R280). -/
def PKE_STAT.AUTH_FAIL : Field := ⟨.PKE_STAT, 30, 30, .rw1c, 0⟩
/-- PKE_STAT [6:0] SESS_OPEN (R280). -/
def PKE_STAT.SESS_OPEN : Field := ⟨.PKE_STAT, 6, 0, .ro, 0⟩

/-- DLT_CMD [31:31] BUSY (R421). -/
def DLT_CMD.BUSY : Field := ⟨.DLT_CMD, 31, 31, .ro, 0⟩
/-- DLT_CMD [30:27] STATUS (R421). -/
def DLT_CMD.STATUS : Field := ⟨.DLT_CMD, 30, 27, .ro, 0⟩
/-- DLT_CMD [26:24] OP (R421). -/
def DLT_CMD.OP : Field := ⟨.DLT_CMD, 26, 24, .rw, 0⟩

/-- DLT_STAT [31:31] CMD_DROP (R423). -/
def DLT_STAT.CMD_DROP : Field := ⟨.DLT_STAT, 31, 31, .rw1c, 0⟩
/-- DLT_STAT [30:30] PAR_ERR (R423). -/
def DLT_STAT.PAR_ERR : Field := ⟨.DLT_STAT, 30, 30, .rw1c, 0⟩
/-- DLT_STAT [29:29] LEARN_DROP (R423). -/
def DLT_STAT.LEARN_DROP : Field := ⟨.DLT_STAT, 29, 29, .rw1c, 0⟩
/-- DLT_STAT [28:28] FULL (R423). -/
def DLT_STAT.FULL : Field := ⟨.DLT_STAT, 28, 28, .rw1c, 0⟩
/-- DLT_STAT [27:27] REJECT (R423). -/
def DLT_STAT.REJECT : Field := ⟨.DLT_STAT, 27, 27, .rw1c, 0⟩
/-- DLT_STAT [26:26] FLUSH (R423). -/
def DLT_STAT.FLUSH : Field := ⟨.DLT_STAT, 26, 26, .ro, 0⟩
/-- DLT_STAT [25:25] SCAN (R423). -/
def DLT_STAT.SCAN : Field := ⟨.DLT_STAT, 25, 25, .ro, 0⟩

/-- DLT_POS [31:31] OVF (R422). -/
def DLT_POS.OVF : Field := ⟨.DLT_POS, 31, 31, .rw, 0⟩
/-- DLT_POS [20:2] BUCKET (R422). -/
def DLT_POS.BUCKET : Field := ⟨.DLT_POS, 20, 2, .rw, 0⟩
/-- DLT_POS [1:0] WAY (R422). -/
def DLT_POS.WAY : Field := ⟨.DLT_POS, 1, 0, .rw, 0⟩

/-- DLT_HSEED [31:0] HSEED (R420). -/
def DLT_HSEED.HSEED : Field := ⟨.DLT_HSEED, 31, 0, .rw, 0⟩

/-- DLT_DATA0 [63:0] ENTRY_LO (R420). -/
def DLT_DATA0.ENTRY_LO : Field := ⟨.DLT_DATA0, 63, 0, .rw, 0⟩

/-- DLT_DATA1 [63:0] ENTRY_HI (R420). -/
def DLT_DATA1.ENTRY_HI : Field := ⟨.DLT_DATA1, 63, 0, .rw, 0⟩

/-- DLT_AGE [31:31] EN (R424). -/
def DLT_AGE.EN : Field := ⟨.DLT_AGE, 31, 31, .rw, 0⟩
/-- DLT_AGE [23:0] PERIOD (R424). -/
def DLT_AGE.PERIOD : Field := ⟨.DLT_AGE, 23, 0, .rw, 0⟩

/-- DLT_USED [21:0] ENTRIES (R424). -/
def DLT_USED.ENTRIES : Field := ⟨.DLT_USED, 21, 0, .ro, 0⟩

/-- DLT_PORT [31:31] EN (R425). -/
def DLT_PORT.EN : Field := ⟨.DLT_PORT, 31, 31, .rw, 0⟩
/-- DLT_PORT [30:30] MODE (R425). -/
def DLT_PORT.MODE : Field := ⟨.DLT_PORT, 30, 30, .rw, 0⟩
/-- DLT_PORT [29:29] DEF_ACT (R425). -/
def DLT_PORT.DEF_ACT : Field := ⟨.DLT_PORT, 29, 29, .rw, 0⟩
/-- DLT_PORT [28:28] DEF_POL_EN (R425). -/
def DLT_PORT.DEF_POL_EN : Field := ⟨.DLT_PORT, 28, 28, .rw, 0⟩
/-- DLT_PORT [11:0] DOMAIN (R425). -/
def DLT_PORT.DOMAIN : Field := ⟨.DLT_PORT, 11, 0, .rw, 0⟩

/-- DLT_PDEF [55:40] DEF_SC (R425). -/
def DLT_PDEF.DEF_SC : Field := ⟨.DLT_PDEF, 55, 40, .rw, 0⟩
/-- DLT_PDEF [39:20] DEF_QUEUE (R425). -/
def DLT_PDEF.DEF_QUEUE : Field := ⟨.DLT_PDEF, 39, 20, .rw, 0⟩
/-- DLT_PDEF [17:0] DEF_POLICER (R425). -/
def DLT_PDEF.DEF_POLICER : Field := ⟨.DLT_PDEF, 17, 0, .rw, 0⟩

/-- BSN_CMD [31:31] BUSY (R461). -/
def BSN_CMD.BUSY : Field := ⟨.BSN_CMD, 31, 31, .ro, 0⟩
/-- BSN_CMD [30:27] STATUS (R461). -/
def BSN_CMD.STATUS : Field := ⟨.BSN_CMD, 30, 27, .ro, 0⟩
/-- BSN_CMD [26:26] UNIT (R461). -/
def BSN_CMD.UNIT : Field := ⟨.BSN_CMD, 26, 26, .rw, 0⟩
/-- BSN_CMD [25:24] OP (R461). -/
def BSN_CMD.OP : Field := ⟨.BSN_CMD, 25, 24, .rw, 0⟩

/-- BSN_STAT [31:31] CMD_DROP (R462). -/
def BSN_STAT.CMD_DROP : Field := ⟨.BSN_STAT, 31, 31, .rw1c, 0⟩
/-- BSN_STAT [30:30] REJECT (R462). -/
def BSN_STAT.REJECT : Field := ⟨.BSN_STAT, 30, 30, .rw1c, 0⟩
/-- BSN_STAT [29:29] CHAIN_BREAK (R462). -/
def BSN_STAT.CHAIN_BREAK : Field := ⟨.BSN_STAT, 29, 29, .rw1c, 0⟩
/-- BSN_STAT [28:28] STATE_ERR (R462). -/
def BSN_STAT.STATE_ERR : Field := ⟨.BSN_STAT, 28, 28, .rw1c, 0⟩
/-- BSN_STAT [27:27] GEN_SPENT (R462). -/
def BSN_STAT.GEN_SPENT : Field := ⟨.BSN_STAT, 27, 27, .rw1c, 0⟩

/-- BSN_OBJ [31:29] LEVEL (R461). -/
def BSN_OBJ.LEVEL : Field := ⟨.BSN_OBJ, 31, 29, .rw, 0⟩
/-- BSN_OBJ [19:0] INDEX (R461). -/
def BSN_OBJ.INDEX : Field := ⟨.BSN_OBJ, 19, 0, .rw, 0⟩

/-- BSN_DATA [63:0] DATA (R460). -/
def BSN_DATA.DATA : Field := ⟨.BSN_DATA, 63, 0, .rw, 0⟩

/-- BSN_POOL [63:63] EN (R460). -/
def BSN_POOL.EN : Field := ⟨.BSN_POOL, 63, 63, .rw, 0⟩
/-- BSN_POOL [62:62] READY (R460). -/
def BSN_POOL.READY : Field := ⟨.BSN_POOL, 62, 62, .ro, 0⟩
/-- BSN_POOL [59:32] BASE (R460). -/
def BSN_POOL.BASE : Field := ⟨.BSN_POOL, 59, 32, .rw, 0⟩
/-- BSN_POOL [28:0] COUNT (R460). -/
def BSN_POOL.COUNT : Field := ⟨.BSN_POOL, 28, 0, .rw, 0⟩

/-- BSN_SHARED [55:28] YLIMIT (R464). -/
def BSN_SHARED.YLIMIT : Field := ⟨.BSN_SHARED, 55, 28, .rw, 0xFFFFFFF⟩
/-- BSN_SHARED [27:0] USED (R464). -/
def BSN_SHARED.USED : Field := ⟨.BSN_SHARED, 27, 0, .ro, 0⟩

/-- BSN_FREE [55:28] SPARE (R464). -/
def BSN_FREE.SPARE : Field := ⟨.BSN_FREE, 55, 28, .ro, 0⟩
/-- BSN_FREE [27:0] FREE (R464). -/
def BSN_FREE.FREE : Field := ⟨.BSN_FREE, 27, 0, .ro, 0⟩

/-- BSN_LOST [27:0] LOST (R464). -/
def BSN_LOST.LOST : Field := ⟨.BSN_LOST, 27, 0, .ro, 0⟩

/-- BSN_FIFO [15:0] BASE_MB (R460). -/
def BSN_FIFO.BASE_MB : Field := ⟨.BSN_FIFO, 15, 0, .rw, 0⟩

/-- BSN_RES [55:28] RES (R464). -/
def BSN_RES.RES : Field := ⟨.BSN_RES, 55, 28, .rw, 0⟩
/-- BSN_RES [27:0] USED (R464). -/
def BSN_RES.USED : Field := ⟨.BSN_RES, 27, 0, .ro, 0⟩

/-- CUL_CTL [31:31] TREE_EN (R500). -/
def CUL_CTL.TREE_EN : Field := ⟨.CUL_CTL, 31, 31, .rw, 0⟩
/-- CUL_CTL [30:30] SCRUB_EN (R500). -/
def CUL_CTL.SCRUB_EN : Field := ⟨.CUL_CTL, 30, 30, .rw, 1⟩
/-- CUL_CTL [3:0] TREE_POOL (R500). -/
def CUL_CTL.TREE_POOL : Field := ⟨.CUL_CTL, 3, 0, .rw, 0⟩

/-- CUL_STAT [31:31] REJECT (R501). -/
def CUL_STAT.REJECT : Field := ⟨.CUL_STAT, 31, 31, .rw1c, 0⟩
/-- CUL_STAT [30:30] CE (R501). -/
def CUL_STAT.CE : Field := ⟨.CUL_STAT, 30, 30, .rw1c, 0⟩
/-- CUL_STAT [29:29] UE (R501). -/
def CUL_STAT.UE : Field := ⟨.CUL_STAT, 29, 29, .rw1c, 0⟩
/-- CUL_STAT [28:28] TAG_FAIL (R501). -/
def CUL_STAT.TAG_FAIL : Field := ⟨.CUL_STAT, 28, 28, .rw1c, 0⟩
/-- CUL_STAT [27:27] POISON (R501). -/
def CUL_STAT.POISON : Field := ⟨.CUL_STAT, 27, 27, .rw1c, 0⟩
/-- CUL_STAT [26:26] TREE_BAD (R501). -/
def CUL_STAT.TREE_BAD : Field := ⟨.CUL_STAT, 26, 26, .rw1c, 0⟩
/-- CUL_STAT [25:25] POISON_OVF (R501). -/
def CUL_STAT.POISON_OVF : Field := ⟨.CUL_STAT, 25, 25, .ro, 0⟩
/-- CUL_STAT [16:0] POISONED (R501). -/
def CUL_STAT.POISONED : Field := ⟨.CUL_STAT, 16, 0, .ro, 0⟩

/-- CUL_SCRUB [31:0] INTERVAL (R500). -/
def CUL_SCRUB.INTERVAL : Field := ⟨.CUL_SCRUB, 31, 0, .rw, 0x10000⟩

/-- CUL_BW [63:63] PEAK_CLR (R501). -/
def CUL_BW.PEAK_CLR : Field := ⟨.CUL_BW, 63, 63, .wo, 0⟩
/-- CUL_BW [44:32] PEAK (R501). -/
def CUL_BW.PEAK : Field := ⟨.CUL_BW, 44, 32, .ro, 0⟩
/-- CUL_BW [12:0] LAST (R501). -/
def CUL_BW.LAST : Field := ⟨.CUL_BW, 12, 0, .ro, 0⟩

/-- CUL_RNG [63:63] EN (R497). -/
def CUL_RNG.EN : Field := ⟨.CUL_RNG, 63, 63, .rw, 0⟩
/-- CUL_RNG [62:62] READY (R497). -/
def CUL_RNG.READY : Field := ⟨.CUL_RNG, 62, 62, .ro, 0⟩
/-- CUL_RNG [61:60] TYPE (R497). -/
def CUL_RNG.TYPE : Field := ⟨.CUL_RNG, 61, 60, .rw, 0⟩
/-- CUL_RNG [47:32] COLOURS (R497). -/
def CUL_RNG.COLOURS : Field := ⟨.CUL_RNG, 47, 32, .rw, 0⟩
/-- CUL_RNG [31:16] SIZE_MB (R497). -/
def CUL_RNG.SIZE_MB : Field := ⟨.CUL_RNG, 31, 16, .rw, 0⟩
/-- CUL_RNG [15:0] BASE_MB (R497). -/
def CUL_RNG.BASE_MB : Field := ⟨.CUL_RNG, 15, 0, .rw, 0⟩

/-- CUL_RTREE [15:0] TREE_BASE_MB (R499). -/
def CUL_RTREE.TREE_BASE_MB : Field := ⟨.CUL_RTREE, 15, 0, .rw, 0⟩

/-- CUL_RSTAT [31:16] ENABLES (R499). -/
def CUL_RSTAT.ENABLES : Field := ⟨.CUL_RSTAT, 31, 16, .ro, 0⟩
/-- CUL_RSTAT [15:15] DEAD (R499). -/
def CUL_RSTAT.DEAD : Field := ⟨.CUL_RSTAT, 15, 15, .ro, 0⟩
/-- CUL_RSTAT [14:12] DOFF (R499). -/
def CUL_RSTAT.DOFF : Field := ⟨.CUL_RSTAT, 14, 12, .ro, 0⟩
/-- CUL_RSTAT [8:0] DAMAGED (R499). -/
def CUL_RSTAT.DAMAGED : Field := ⟨.CUL_RSTAT, 8, 0, .ro, 0⟩

/-- TID_ICINV [31:0] INV (R355). -/
def TID_ICINV.INV : Field := ⟨.TID_ICINV, 31, 0, .wo, 0⟩

/-- TID_RESET [31:0] RST (R355). -/
def TID_RESET.RST : Field := ⟨.TID_RESET, 31, 0, .wo, 0⟩

/-- TID_STAT [31:31] REJECT (R356). -/
def TID_STAT.REJECT : Field := ⟨.TID_STAT, 31, 31, .rw1c, 0⟩
/-- TID_STAT [30:30] SO_VALID (R356). -/
def TID_STAT.SO_VALID : Field := ⟨.TID_STAT, 30, 30, .ro, 0⟩
/-- TID_STAT [29:29] SO_OLD_PEND (R356). -/
def TID_STAT.SO_OLD_PEND : Field := ⟨.TID_STAT, 29, 29, .ro, 0⟩

/-- TID_SODIGLO [63:0] DIGEST (R355). -/
def TID_SODIGLO.DIGEST : Field := ⟨.TID_SODIGLO, 63, 0, .ro, 0⟩

/-- TID_SODIGHI [63:0] DIGEST (R355). -/
def TID_SODIGHI.DIGEST : Field := ⟨.TID_SODIGHI, 63, 0, .ro, 0⟩

/-- TID_SOINFO [31:16] GEN (R357). -/
def TID_SOINFO.GEN : Field := ⟨.TID_SOINFO, 31, 16, .ro, 0⟩
/-- TID_SOINFO [10:0] COUNT (R357). -/
def TID_SOINFO.COUNT : Field := ⟨.TID_SOINFO, 10, 0, .ro, 0⟩

/-- TID_EVQ [29:17] OVF (R357). -/
def TID_EVQ.OVF : Field := ⟨.TID_EVQ, 29, 17, .ro, 0⟩
/-- TID_EVQ [13:0] USED (R357). -/
def TID_EVQ.USED : Field := ⟨.TID_EVQ, 13, 0, .ro, 0⟩

/-- TID_TRAPSUM [31:0] TRAPPED (R361). -/
def TID_TRAPSUM.TRAPPED : Field := ⟨.TID_TRAPSUM, 31, 0, .ro, 0⟩

/-- TID_THRCFG [31:30] ROLE (R358). -/
def TID_THRCFG.ROLE : Field := ⟨.TID_THRCFG, 31, 30, .rws, 0⟩
/-- TID_THRCFG [29:29] WARDEN (R358). -/
def TID_THRCFG.WARDEN : Field := ⟨.TID_THRCFG, 29, 29, .rws, 0⟩
/-- TID_THRCFG [23:20] COLOUR (R358). -/
def TID_THRCFG.COLOUR : Field := ⟨.TID_THRCFG, 23, 20, .rws, 9⟩
/-- TID_THRCFG [13:8] RING (R358). -/
def TID_THRCFG.RING : Field := ⟨.TID_THRCFG, 13, 8, .rws, 0⟩

/-- TID_THRCTL [2:2] CLRTRAP (R359). -/
def TID_THRCTL.CLRTRAP : Field := ⟨.TID_THRCTL, 2, 2, .wo, 0⟩
/-- TID_THRCTL [1:1] STOP (R359). -/
def TID_THRCTL.STOP : Field := ⟨.TID_THRCTL, 1, 1, .wo, 0⟩
/-- TID_THRCTL [0:0] START (R359). -/
def TID_THRCTL.START : Field := ⟨.TID_THRCTL, 0, 0, .wo, 0⟩

/-- TID_THRSTAT [31:29] STATE (R360). -/
def TID_THRSTAT.STATE : Field := ⟨.TID_THRSTAT, 31, 29, .ro, 0⟩
/-- TID_THRSTAT [28:28] STOPPING (R360). -/
def TID_THRSTAT.STOPPING : Field := ⟨.TID_THRSTAT, 28, 28, .ro, 0⟩
/-- TID_THRSTAT [6:0] OUTSTANDING (R360). -/
def TID_THRSTAT.OUTSTANDING : Field := ⟨.TID_THRSTAT, 6, 0, .ro, 0⟩

/-- TID_ENTRY [63:0] ENTRY (R355). -/
def TID_ENTRY.ENTRY : Field := ⟨.TID_ENTRY, 63, 0, .rws, 0⟩

/-- TID_TRAPPC [63:0] PC (R355). -/
def TID_TRAPPC.PC : Field := ⟨.TID_TRAPPC, 63, 0, .ro, 0⟩

/-- TID_TRAPINFO [63:32] INSTR (R361). -/
def TID_TRAPINFO.INSTR : Field := ⟨.TID_TRAPINFO, 63, 32, .ro, 0⟩
/-- TID_TRAPINFO [31:24] CAUSE (R361). -/
def TID_TRAPINFO.CAUSE : Field := ⟨.TID_TRAPINFO, 31, 24, .ro, 0⟩
/-- TID_TRAPINFO [23:16] CODE (R361). -/
def TID_TRAPINFO.CODE : Field := ⟨.TID_TRAPINFO, 23, 16, .ro, 0⟩

/-- TID_TRAPADDR [63:0] ADDR (R355). -/
def TID_TRAPADDR.ADDR : Field := ⟨.TID_TRAPADDR, 63, 0, .ro, 0⟩

/-- CMP_CTL [31:31] PEND (R527). -/
def CMP_CTL.PEND : Field := ⟨.CMP_CTL, 31, 31, .ro, 0⟩
/-- CMP_CTL [0:0] COMMIT (R527). -/
def CMP_CTL.COMMIT : Field := ⟨.CMP_CTL, 0, 0, .wo, 0⟩

/-- CMP_STAT [31:31] REJECT (R528). -/
def CMP_STAT.REJECT : Field := ⟨.CMP_STAT, 31, 31, .rw1c, 0⟩
/-- CMP_STAT [30:30] VIOL (R528). -/
def CMP_STAT.VIOL : Field := ⟨.CMP_STAT, 30, 30, .rw1c, 0⟩
/-- CMP_STAT [29:29] DBG_LOCK (R528). -/
def CMP_STAT.DBG_LOCK : Field := ⟨.CMP_STAT, 29, 29, .rw1c, 0⟩
/-- CMP_STAT [28:28] WR_REFUSED (R528). -/
def CMP_STAT.WR_REFUSED : Field := ⟨.CMP_STAT, 28, 28, .rw1c, 0⟩
/-- CMP_STAT [24:16] REJ_ENTRY (R528). -/
def CMP_STAT.REJ_ENTRY : Field := ⟨.CMP_STAT, 24, 16, .ro, 0⟩
/-- CMP_STAT [2:0] LIVE (R528). -/
def CMP_STAT.LIVE : Field := ⟨.CMP_STAT, 2, 0, .ro, 1⟩

/-- CMP_EPOCH [31:0] EPOCH (R525). -/
def CMP_EPOCH.EPOCH : Field := ⟨.CMP_EPOCH, 31, 0, .ro, 0⟩

/-- CMP_FENCE [31:31] BUSY (R527). -/
def CMP_FENCE.BUSY : Field := ⟨.CMP_FENCE, 31, 31, .ro, 0⟩
/-- CMP_FENCE [0:0] START (R527). -/
def CMP_FENCE.START : Field := ⟨.CMP_FENCE, 0, 0, .wo, 0⟩

/-- CMP_VIOL [63:0] ADDR (R525). -/
def CMP_VIOL.ADDR : Field := ⟨.CMP_VIOL, 63, 0, .ro, 0⟩

/-- CMP_VINFO [31:31] DEFAULT (R528). -/
def CMP_VINFO.DEFAULT : Field := ⟨.CMP_VINFO, 31, 31, .ro, 0⟩
/-- CMP_VINFO [30:30] OWNER (R528). -/
def CMP_VINFO.OWNER : Field := ⟨.CMP_VINFO, 30, 30, .ro, 0⟩
/-- CMP_VINFO [19:11] ENTRY (R528). -/
def CMP_VINFO.ENTRY : Field := ⟨.CMP_VINFO, 19, 11, .ro, 0⟩
/-- CMP_VINFO [10:8] ACCESS (R528). -/
def CMP_VINFO.ACCESS : Field := ⟨.CMP_VINFO, 10, 8, .ro, 0⟩
/-- CMP_VINFO [7:4] MASTER (R528). -/
def CMP_VINFO.MASTER : Field := ⟨.CMP_VINFO, 7, 4, .ro, 0⟩
/-- CMP_VINFO [3:0] COLOUR (R528). -/
def CMP_VINFO.COLOUR : Field := ⟨.CMP_VINFO, 3, 0, .ro, 0⟩

/-- CMP_START [63:6] START (R526). -/
def CMP_START.START : Field := ⟨.CMP_START, 63, 6, .rws, 0⟩

/-- CMP_END [63:6] END (R526). -/
def CMP_END.END : Field := ⟨.CMP_END, 63, 6, .rws, 0⟩

/-- CMP_ATTR [31:31] V (R526). -/
def CMP_ATTR.V : Field := ⟨.CMP_ATTR, 31, 31, .rws, 0⟩
/-- CMP_ATTR [6:6] X (R526). -/
def CMP_ATTR.X : Field := ⟨.CMP_ATTR, 6, 6, .rws, 0⟩
/-- CMP_ATTR [5:5] W (R526). -/
def CMP_ATTR.W : Field := ⟨.CMP_ATTR, 5, 5, .rws, 0⟩
/-- CMP_ATTR [4:4] R (R526). -/
def CMP_ATTR.R : Field := ⟨.CMP_ATTR, 4, 4, .rws, 0⟩
/-- CMP_ATTR [3:0] COLOUR (R526). -/
def CMP_ATTR.COLOUR : Field := ⟨.CMP_ATTR, 3, 0, .rws, 0⟩

/-- CMP_LSTART [63:6] START (R526). -/
def CMP_LSTART.START : Field := ⟨.CMP_LSTART, 63, 6, .ro, 0⟩

/-- CMP_LEND [63:6] END (R526). -/
def CMP_LEND.END : Field := ⟨.CMP_LEND, 63, 6, .ro, 0⟩

/-- CMP_LATTR [31:31] V (R526). -/
def CMP_LATTR.V : Field := ⟨.CMP_LATTR, 31, 31, .ro, 0⟩
/-- CMP_LATTR [6:6] X (R526). -/
def CMP_LATTR.X : Field := ⟨.CMP_LATTR, 6, 6, .ro, 0⟩
/-- CMP_LATTR [5:5] W (R526). -/
def CMP_LATTR.W : Field := ⟨.CMP_LATTR, 5, 5, .ro, 0⟩
/-- CMP_LATTR [4:4] R (R526). -/
def CMP_LATTR.R : Field := ⟨.CMP_LATTR, 4, 4, .ro, 0⟩
/-- CMP_LATTR [3:0] COLOUR (R526). -/
def CMP_LATTR.COLOUR : Field := ⟨.CMP_LATTR, 3, 0, .ro, 0⟩

/-- POOL_OWN [3:0] OWNER (R527). -/
def POOL_OWN.OWNER : Field := ⟨.POOL_OWN, 3, 0, .rws, 9⟩

/-- LN_CTL [31:30] PSTATE (R551). -/
def LN_CTL.PSTATE : Field := ⟨.LN_CTL, 31, 30, .rw, 0⟩
/-- LN_CTL [29:26] RATE (R551). -/
def LN_CTL.RATE : Field := ⟨.LN_CTL, 29, 26, .rw, 0⟩
/-- LN_CTL [25:25] TX_INV (R551). -/
def LN_CTL.TX_INV : Field := ⟨.LN_CTL, 25, 25, .rw, 0⟩
/-- LN_CTL [24:24] RX_INV (R551). -/
def LN_CTL.RX_INV : Field := ⟨.LN_CTL, 24, 24, .rw, 0⟩
/-- LN_CTL [23:23] TRAIN_EN (R551). -/
def LN_CTL.TRAIN_EN : Field := ⟨.LN_CTL, 23, 23, .rw, 0⟩
/-- LN_CTL [22:22] AUTO_POL (R551). -/
def LN_CTL.AUTO_POL : Field := ⟨.LN_CTL, 22, 22, .rw, 0⟩

/-- LN_STAT [31:31] REJECT (R552). -/
def LN_STAT.REJECT : Field := ⟨.LN_STAT, 31, 31, .rw1c, 0⟩
/-- LN_STAT [30:30] CAL_FAIL (R552). -/
def LN_STAT.CAL_FAIL : Field := ⟨.LN_STAT, 30, 30, .rw1c, 0⟩
/-- LN_STAT [29:29] CDR_LOCK (R552). -/
def LN_STAT.CDR_LOCK : Field := ⟨.LN_STAT, 29, 29, .ro, 0⟩
/-- LN_STAT [28:28] LOCK_LOSS (R552). -/
def LN_STAT.LOCK_LOSS : Field := ⟨.LN_STAT, 28, 28, .rw1c, 0⟩
/-- LN_STAT [27:27] TRAIN_DONE (R552). -/
def LN_STAT.TRAIN_DONE : Field := ⟨.LN_STAT, 27, 27, .ro, 0⟩
/-- LN_STAT [26:26] TRAIN_FAIL (R552). -/
def LN_STAT.TRAIN_FAIL : Field := ⟨.LN_STAT, 26, 26, .rw1c, 0⟩
/-- LN_STAT [25:25] MARKER_LOCK (R552). -/
def LN_STAT.MARKER_LOCK : Field := ⟨.LN_STAT, 25, 25, .ro, 0⟩
/-- LN_STAT [24:24] POL_SEEN (R552). -/
def LN_STAT.POL_SEEN : Field := ⟨.LN_STAT, 24, 24, .rw1c, 0⟩
/-- LN_STAT [23:23] LANE_MIS (R552). -/
def LN_STAT.LANE_MIS : Field := ⟨.LN_STAT, 23, 23, .rw1c, 0⟩
/-- LN_STAT [1:0] PSTATE_NOW (R552). -/
def LN_STAT.PSTATE_NOW : Field := ⟨.LN_STAT, 1, 0, .ro, 0⟩

/-- LN_TXEQ [27:24] PRE2 (R553). -/
def LN_TXEQ.PRE2 : Field := ⟨.LN_TXEQ, 27, 24, .rw, 0⟩
/-- LN_TXEQ [21:16] PRE1 (R553). -/
def LN_TXEQ.PRE1 : Field := ⟨.LN_TXEQ, 21, 16, .rw, 6⟩
/-- LN_TXEQ [13:8] POST1 (R553). -/
def LN_TXEQ.POST1 : Field := ⟨.LN_TXEQ, 13, 8, .rw, 8⟩
/-- LN_TXEQ [5:0] AMP (R553). -/
def LN_TXEQ.AMP : Field := ⟨.LN_TXEQ, 5, 0, .rw, 0x2F⟩

/-- LN_MAP [7:0] MAP (R553). -/
def LN_MAP.MAP : Field := ⟨.LN_MAP, 7, 0, .rw, 0xE4⟩

/-- LN_EYECTL [31:31] START (R554). -/
def LN_EYECTL.START : Field := ⟨.LN_EYECTL, 31, 31, .wo, 0⟩
/-- LN_EYECTL [30:30] BUSY (R554). -/
def LN_EYECTL.BUSY : Field := ⟨.LN_EYECTL, 30, 30, .ro, 0⟩
/-- LN_EYECTL [29:29] ABORT (R554). -/
def LN_EYECTL.ABORT : Field := ⟨.LN_EYECTL, 29, 29, .rw1c, 0⟩
/-- LN_EYECTL [28:27] EYE (R554). -/
def LN_EYECTL.EYE : Field := ⟨.LN_EYECTL, 28, 27, .rw, 0⟩
/-- LN_EYECTL [26:20] PHASE (R554). -/
def LN_EYECTL.PHASE : Field := ⟨.LN_EYECTL, 26, 20, .rw, 0⟩
/-- LN_EYECTL [19:12] VOFF (R554). -/
def LN_EYECTL.VOFF : Field := ⟨.LN_EYECTL, 19, 12, .rw, 0⟩
/-- LN_EYECTL [11:8] DWELL (R554). -/
def LN_EYECTL.DWELL : Field := ⟨.LN_EYECTL, 11, 8, .rw, 0⟩

/-- LN_EYERES [63:32] COMPARED (R554). -/
def LN_EYERES.COMPARED : Field := ⟨.LN_EYERES, 63, 32, .ro, 0⟩
/-- LN_EYERES [31:0] MISMATCH (R554). -/
def LN_EYERES.MISMATCH : Field := ⟨.LN_EYERES, 31, 0, .ro, 0⟩

/-- FRM_CTL [31:31] TX_EN (R576). -/
def FRM_CTL.TX_EN : Field := ⟨.FRM_CTL, 31, 31, .rw, 0⟩
/-- FRM_CTL [30:30] RX_EN (R576). -/
def FRM_CTL.RX_EN : Field := ⟨.FRM_CTL, 30, 30, .rw, 0⟩
/-- FRM_CTL [29:29] LANE200 (R576). -/
def FRM_CTL.LANE200 : Field := ⟨.FRM_CTL, 29, 29, .rw, 0⟩
/-- FRM_CTL [28:28] MAP_COMMIT (R576). -/
def FRM_CTL.MAP_COMMIT : Field := ⟨.FRM_CTL, 28, 28, .wo, 0⟩
/-- FRM_CTL [26:24] NM1 (R576). -/
def FRM_CTL.NM1 : Field := ⟨.FRM_CTL, 26, 24, .rw, 0⟩
/-- FRM_CTL [19:0] GID (R576). -/
def FRM_CTL.GID : Field := ⟨.FRM_CTL, 19, 0, .rw, 0⟩

/-- FRM_STAT [31:31] REJECT (R578). -/
def FRM_STAT.REJECT : Field := ⟨.FRM_STAT, 31, 31, .rw1c, 0⟩
/-- FRM_STAT [30:30] IF (R578). -/
def FRM_STAT.IF : Field := ⟨.FRM_STAT, 30, 30, .ro, 0⟩
/-- FRM_STAT [29:29] MAP_PEND (R578). -/
def FRM_STAT.MAP_PEND : Field := ⟨.FRM_STAT, 29, 29, .ro, 0⟩

/-- FRM_GPOS [10:8] SLICE (R578). -/
def FRM_GPOS.SLICE : Field := ⟨.FRM_GPOS, 10, 8, .rw, 0⟩
/-- FRM_GPOS [5:0] POS (R578). -/
def FRM_GPOS.POS : Field := ⟨.FRM_GPOS, 5, 0, .rw, 0xD⟩

/-- FRM_DEF [31:16] LATCHED (R579). -/
def FRM_DEF.LATCHED : Field := ⟨.FRM_DEF, 31, 16, .rw1c, 0⟩
/-- FRM_DEF [15:0] RAISED (R579). -/
def FRM_DEF.RAISED : Field := ⟨.FRM_DEF, 15, 0, .ro, 0⟩

/-- FRM_CPORT [31:31] EN (R749). -/
def FRM_CPORT.EN : Field := ⟨.FRM_CPORT, 31, 31, .rw, 0⟩
/-- FRM_CPORT [30:28] RATE (R749). -/
def FRM_CPORT.RATE : Field := ⟨.FRM_CPORT, 30, 28, .rw, 0⟩
/-- FRM_CPORT [27:26] CLASS (R749). -/
def FRM_CPORT.CLASS : Field := ⟨.FRM_CPORT, 27, 26, .rw, 0⟩

/-- FRM_TSMAP [31:31] USED (R580). -/
def FRM_TSMAP.USED : Field := ⟨.FRM_TSMAP, 31, 31, .rw, 0⟩
/-- FRM_TSMAP [30:30] KIND (R580). -/
def FRM_TSMAP.KIND : Field := ⟨.FRM_TSMAP, 30, 30, .rw, 0⟩
/-- FRM_TSMAP [29:23] PORT (R580). -/
def FRM_TSMAP.PORT : Field := ⟨.FRM_TSMAP, 29, 23, .rw, 0⟩
/-- FRM_TSMAP [7:0] OWNER (R580). -/
def FRM_TSMAP.OWNER : Field := ⟨.FRM_TSMAP, 7, 0, .rw, 0⟩

/-- FRM_TSLIVE [31:31] USED (R580). -/
def FRM_TSLIVE.USED : Field := ⟨.FRM_TSLIVE, 31, 31, .ro, 0⟩
/-- FRM_TSLIVE [30:30] KIND (R580). -/
def FRM_TSLIVE.KIND : Field := ⟨.FRM_TSLIVE, 30, 30, .ro, 0⟩
/-- FRM_TSLIVE [29:23] PORT (R580). -/
def FRM_TSLIVE.PORT : Field := ⟨.FRM_TSLIVE, 29, 23, .ro, 0⟩
/-- FRM_TSLIVE [7:0] OWNER (R580). -/
def FRM_TSLIVE.OWNER : Field := ⟨.FRM_TSLIVE, 7, 0, .ro, 0⟩

/-- FRM_CHSTAT [31:16] LATCHED (R579). -/
def FRM_CHSTAT.LATCHED : Field := ⟨.FRM_CHSTAT, 31, 16, .rw1c, 0⟩
/-- FRM_CHSTAT [15:0] RAISED (R579). -/
def FRM_CHSTAT.RAISED : Field := ⟨.FRM_CHSTAT, 15, 0, .ro, 0⟩

/-- FRM_COOPOS [47:42] POS7 (R179). -/
def FRM_COOPOS.POS7 : Field := ⟨.FRM_COOPOS, 47, 42, .rw, 0x11⟩
/-- FRM_COOPOS [41:36] POS6 (R179). -/
def FRM_COOPOS.POS6 : Field := ⟨.FRM_COOPOS, 41, 36, .rw, 0x10⟩
/-- FRM_COOPOS [35:30] POS5 (R179). -/
def FRM_COOPOS.POS5 : Field := ⟨.FRM_COOPOS, 35, 30, .rw, 0xC⟩
/-- FRM_COOPOS [29:24] POS4 (R179). -/
def FRM_COOPOS.POS4 : Field := ⟨.FRM_COOPOS, 29, 24, .rw, 0xB⟩
/-- FRM_COOPOS [23:18] POS3 (R179). -/
def FRM_COOPOS.POS3 : Field := ⟨.FRM_COOPOS, 23, 18, .rw, 0xA⟩
/-- FRM_COOPOS [17:12] POS2 (R179). -/
def FRM_COOPOS.POS2 : Field := ⟨.FRM_COOPOS, 17, 12, .rw, 9⟩
/-- FRM_COOPOS [11:6] POS1 (R179). -/
def FRM_COOPOS.POS1 : Field := ⟨.FRM_COOPOS, 11, 6, .rw, 8⟩
/-- FRM_COOPOS [5:0] POS0 (R179). -/
def FRM_COOPOS.POS0 : Field := ⟨.FRM_COOPOS, 5, 0, .rw, 7⟩

/-- FRM_L1CTL [31:31] REJECT (R180). -/
def FRM_L1CTL.REJECT : Field := ⟨.FRM_L1CTL, 31, 31, .rw1c, 0⟩
/-- FRM_L1CTL [30:30] CMD_DROP (R180). -/
def FRM_L1CTL.CMD_DROP : Field := ⟨.FRM_L1CTL, 30, 30, .rw1c, 0⟩
/-- FRM_L1CTL [0:0] ROLE (R180). -/
def FRM_L1CTL.ROLE : Field := ⟨.FRM_L1CTL, 0, 0, .rw, 0⟩

/-- FRM_L1HOLD [31:31] EN (R181). -/
def FRM_L1HOLD.EN : Field := ⟨.FRM_L1HOLD, 31, 31, .rw, 0⟩
/-- FRM_L1HOLD [15:0] BASE_MB (R181). -/
def FRM_L1HOLD.BASE_MB : Field := ⟨.FRM_L1HOLD, 15, 0, .rw, 0⟩

/-- FRM_L1CMD [31:31] BUSY (R182). -/
def FRM_L1CMD.BUSY : Field := ⟨.FRM_L1CMD, 31, 31, .ro, 0⟩
/-- FRM_L1CMD [30:28] STATUS (R182). -/
def FRM_L1CMD.STATUS : Field := ⟨.FRM_L1CMD, 30, 28, .ro, 0⟩
/-- FRM_L1CMD [10:8] OP (R182). -/
def FRM_L1CMD.OP : Field := ⟨.FRM_L1CMD, 10, 8, .rw, 0⟩
/-- FRM_L1CMD [7:0] SLOT (R182). -/
def FRM_L1CMD.SLOT : Field := ⟨.FRM_L1CMD, 7, 0, .rw, 0⟩

/-- FRM_L1DATA [63:0] DATA (R182). -/
def FRM_L1DATA.DATA : Field := ⟨.FRM_L1DATA, 63, 0, .rw, 0⟩

/-- FRM_UNTRUST [31:0] UNTRUSTED (R184). -/
def FRM_UNTRUST.UNTRUSTED : Field := ⟨.FRM_UNTRUST, 31, 0, .rw1c, 0⟩

/-- FRM_DCCCTL [31:31] EN (R576). -/
def FRM_DCCCTL.EN : Field := ⟨.FRM_DCCCTL, 31, 31, .rw, 0⟩
/-- FRM_DCCCTL [30:30] TX_INV (R576). -/
def FRM_DCCCTL.TX_INV : Field := ⟨.FRM_DCCCTL, 30, 30, .rw, 0⟩
/-- FRM_DCCCTL [29:29] RX_INV (R576). -/
def FRM_DCCCTL.RX_INV : Field := ⟨.FRM_DCCCTL, 29, 29, .rw, 0⟩
/-- FRM_DCCCTL [28:28] AUTO_POL (R576). -/
def FRM_DCCCTL.AUTO_POL : Field := ⟨.FRM_DCCCTL, 28, 28, .rw, 0⟩

/-- FRM_DCCSTAT [31:31] MARKER_LOCK (R576). -/
def FRM_DCCSTAT.MARKER_LOCK : Field := ⟨.FRM_DCCSTAT, 31, 31, .ro, 0⟩
/-- FRM_DCCSTAT [30:30] POL_SEEN (R576). -/
def FRM_DCCSTAT.POL_SEEN : Field := ⟨.FRM_DCCSTAT, 30, 30, .rw1c, 0⟩
/-- FRM_DCCSTAT [29:29] LANE_MIS (R576). -/
def FRM_DCCSTAT.LANE_MIS : Field := ⟨.FRM_DCCSTAT, 29, 29, .rw1c, 0⟩
/-- FRM_DCCSTAT [28:28] REJECT (R576). -/
def FRM_DCCSTAT.REJECT : Field := ⟨.FRM_DCCSTAT, 28, 28, .rw1c, 0⟩

/-- FRM_DSTR [31:31] EN (R576). -/
def FRM_DSTR.EN : Field := ⟨.FRM_DSTR, 31, 31, .rw, 0⟩
/-- FRM_DSTR [30:30] INS (R576). -/
def FRM_DSTR.INS : Field := ⟨.FRM_DSTR, 30, 30, .rw, 0⟩
/-- FRM_DSTR [29:28] KIND (R576). -/
def FRM_DSTR.KIND : Field := ⟨.FRM_DSTR, 29, 28, .rw, 0⟩
/-- FRM_DSTR [24:20] GROUP (R576). -/
def FRM_DSTR.GROUP : Field := ⟨.FRM_DSTR, 24, 20, .rw, 0⟩
/-- FRM_DSTR [8:8] LO (R576). -/
def FRM_DSTR.LO : Field := ⟨.FRM_DSTR, 8, 8, .rw, 0⟩
/-- FRM_DSTR [7:0] SLOT (R576). -/
def FRM_DSTR.SLOT : Field := ⟨.FRM_DSTR, 7, 0, .rw, 0⟩

/-- SCY_CMD [31:31] BUSY (R222). -/
def SCY_CMD.BUSY : Field := ⟨.SCY_CMD, 31, 31, .ro, 0⟩
/-- SCY_CMD [30:28] STATUS (R222). -/
def SCY_CMD.STATUS : Field := ⟨.SCY_CMD, 30, 28, .ro, 0⟩
/-- SCY_CMD [27:24] OP (R222). -/
def SCY_CMD.OP : Field := ⟨.SCY_CMD, 27, 24, .rw, 0⟩
/-- SCY_CMD [17:0] INDEX (R222). -/
def SCY_CMD.INDEX : Field := ⟨.SCY_CMD, 17, 0, .rw, 0⟩

/-- SCY_STAT [31:31] CMD_DROP (R228). -/
def SCY_STAT.CMD_DROP : Field := ⟨.SCY_STAT, 31, 31, .rw1c, 0⟩
/-- SCY_STAT [30:30] PN_EVENT (R228). -/
def SCY_STAT.PN_EVENT : Field := ⟨.SCY_STAT, 30, 30, .rw1c, 0⟩
/-- SCY_STAT [16:0] SCI_USED (R228). -/
def SCY_STAT.SCI_USED : Field := ⟨.SCY_STAT, 16, 0, .ro, 0⟩

/-- SCY_DATA [63:0] DATA (R222). -/
def SCY_DATA.DATA : Field := ⟨.SCY_DATA, 63, 0, .rw, 0⟩

/-- LEV_STAT [31:31] REJECT (R603). -/
def LEV_STAT.REJECT : Field := ⟨.LEV_STAT, 31, 31, .rw1c, 0⟩
/-- LEV_STAT [30:30] DIP (R603). -/
def LEV_STAT.DIP : Field := ⟨.LEV_STAT, 30, 30, .ro, 0⟩
/-- LEV_STAT [29:29] LD_PEND (R603). -/
def LEV_STAT.LD_PEND : Field := ⟨.LEV_STAT, 29, 29, .ro, 0⟩
/-- LEV_STAT [28:28] WIPE_ARMED (R603). -/
def LEV_STAT.WIPE_ARMED : Field := ⟨.LEV_STAT, 28, 28, .ro, 0⟩
/-- LEV_STAT [21:16] PEND (R603). -/
def LEV_STAT.PEND : Field := ⟨.LEV_STAT, 21, 16, .ro, 0⟩
/-- LEV_STAT [15:0] LOST (R603). -/
def LEV_STAT.LOST : Field := ⟨.LEV_STAT, 15, 0, .ro, 0⟩

/-- LEV_STICKY [15:0] FLAG (R604). -/
def LEV_STICKY.FLAG : Field := ⟨.LEV_STICKY, 15, 0, .rw1c, 0⟩

/-- LEV_RAW [15:0] RAW (R604). -/
def LEV_RAW.RAW : Field := ⟨.LEV_RAW, 15, 0, .ro, 0⟩

/-- LEV_TEMP [15:8] HI (R604). -/
def LEV_TEMP.HI : Field := ⟨.LEV_TEMP, 15, 8, .rw, 0x73⟩
/-- LEV_TEMP [7:0] LO (R604). -/
def LEV_TEMP.LO : Field := ⟨.LEV_TEMP, 7, 0, .rw, 0xC9⟩

/-- LEV_WATCH [47:0] COUNT (R606). -/
def LEV_WATCH.COUNT : Field := ⟨.LEV_WATCH, 47, 0, .ro, 0⟩

/-- LEV_WTICK [63:0] TICK (R606). -/
def LEV_WTICK.TICK : Field := ⟨.LEV_WTICK, 63, 0, .ro, 0⟩

/-- LEV_LOGCNT [31:0] TLOG_COUNT (R602). -/
def LEV_LOGCNT.TLOG_COUNT : Field := ⟨.LEV_LOGCNT, 31, 0, .ro, 0⟩

/-- LEV_LOGRD [31:31] BUSY (R606). -/
def LEV_LOGRD.BUSY : Field := ⟨.LEV_LOGRD, 31, 31, .ro, 0⟩
/-- LEV_LOGRD [25:16] NEXT (R606). -/
def LEV_LOGRD.NEXT : Field := ⟨.LEV_LOGRD, 25, 16, .ro, 0⟩
/-- LEV_LOGRD [9:0] INDEX (R606). -/
def LEV_LOGRD.INDEX : Field := ⟨.LEV_LOGRD, 9, 0, .rw, 0⟩

/-- LEV_LOGDATA0 [63:0] OCTETS (R602). -/
def LEV_LOGDATA0.OCTETS : Field := ⟨.LEV_LOGDATA0, 63, 0, .ro, 0⟩

/-- LEV_LOGDATA1 [63:0] OCTETS (R602). -/
def LEV_LOGDATA1.OCTETS : Field := ⟨.LEV_LOGDATA1, 63, 0, .ro, 0⟩

/-- LEV_SRCCFG [31:31] EN (R605). -/
def LEV_SRCCFG.EN : Field := ⟨.LEV_SRCCFG, 31, 31, .rw, 0⟩
/-- LEV_SRCCFG [25:24] RESP (R605). -/
def LEV_SRCCFG.RESP : Field := ⟨.LEV_SRCCFG, 25, 24, .rw, 0⟩
/-- LEV_SRCCFG [23:20] KM1 (R605). -/
def LEV_SRCCFG.KM1 : Field := ⟨.LEV_SRCCFG, 23, 20, .rw, 0⟩
/-- LEV_SRCCFG [15:0] W (R605). -/
def LEV_SRCCFG.W : Field := ⟨.LEV_SRCCFG, 15, 0, .rw, 0⟩

/-- LEV_EVCNT [31:0] EVENTS (R602). -/
def LEV_EVCNT.EVENTS : Field := ⟨.LEV_EVCNT, 31, 0, .ro, 0⟩

/-- CLK_TICK [63:0] TICK (R650). -/
def CLK_TICK.TICK : Field := ⟨.CLK_TICK, 63, 0, .ro, 0⟩

/-- CLK_TIME0 [63:32] NS (R650). -/
def CLK_TIME0.NS : Field := ⟨.CLK_TIME0, 63, 32, .ro, 0⟩
/-- CLK_TIME0 [31:16] FRAC (R650). -/
def CLK_TIME0.FRAC : Field := ⟨.CLK_TIME0, 31, 16, .ro, 0⟩

/-- CLK_TIME1 [47:0] SEC (R650). -/
def CLK_TIME1.SEC : Field := ⟨.CLK_TIME1, 47, 0, .ro, 0⟩

/-- CLK_SET0 [63:32] NS (R650). -/
def CLK_SET0.NS : Field := ⟨.CLK_SET0, 63, 32, .rw, 0⟩
/-- CLK_SET0 [31:16] FRAC (R650). -/
def CLK_SET0.FRAC : Field := ⟨.CLK_SET0, 31, 16, .rw, 0⟩

/-- CLK_SET1 [47:0] SEC (R650). -/
def CLK_SET1.SEC : Field := ⟨.CLK_SET1, 47, 0, .rw, 0⟩

/-- CLK_ADJ [63:16] STEP_NS (R650). -/
def CLK_ADJ.STEP_NS : Field := ⟨.CLK_ADJ, 63, 16, .rw, 0⟩
/-- CLK_ADJ [15:0] STEP_FRAC (R650). -/
def CLK_ADJ.STEP_FRAC : Field := ⟨.CLK_ADJ, 15, 0, .rw, 0⟩

/-- CLK_RATE [31:0] RATE (R650). -/
def CLK_RATE.RATE : Field := ⟨.CLK_RATE, 31, 0, .rw, 0⟩

/-- CLK_JUMP [31:0] JUMP (R650). -/
def CLK_JUMP.JUMP : Field := ⟨.CLK_JUMP, 31, 0, .rw, 0x3E8⟩

/-- CLK_CMD [31:31] SET (R650). -/
def CLK_CMD.SET : Field := ⟨.CLK_CMD, 31, 31, .wo, 0⟩
/-- CLK_CMD [30:30] ADJ (R650). -/
def CLK_CMD.ADJ : Field := ⟨.CLK_CMD, 30, 30, .wo, 0⟩
/-- CLK_CMD [29:29] INVAL (R650). -/
def CLK_CMD.INVAL : Field := ⟨.CLK_CMD, 29, 29, .wo, 0⟩

/-- CLK_STAT [31:31] VALID (R650). -/
def CLK_STAT.VALID : Field := ⟨.CLK_STAT, 31, 31, .ro, 0⟩
/-- CLK_STAT [30:30] REFUSED (R650). -/
def CLK_STAT.REFUSED : Field := ⟨.CLK_STAT, 30, 30, .rw1c, 0⟩
/-- CLK_STAT [29:29] PPS_SEEN (R650). -/
def CLK_STAT.PPS_SEEN : Field := ⟨.CLK_STAT, 29, 29, .rw1c, 0⟩

/-- CLK_PPS [31:31] PPS_OUT_EN (R650). -/
def CLK_PPS.PPS_OUT_EN : Field := ⟨.CLK_PPS, 31, 31, .rw, 0⟩
/-- CLK_PPS [9:0] WIDTH (R650). -/
def CLK_PPS.WIDTH : Field := ⟨.CLK_PPS, 9, 0, .rw, 0x64⟩

/-- CLK_PPSIN0 [63:32] NS (R650). -/
def CLK_PPSIN0.NS : Field := ⟨.CLK_PPSIN0, 63, 32, .ro, 0⟩
/-- CLK_PPSIN0 [31:16] FRAC (R650). -/
def CLK_PPSIN0.FRAC : Field := ⟨.CLK_PPSIN0, 31, 16, .ro, 0⟩

/-- CLK_PPSIN1 [47:0] SEC (R650). -/
def CLK_PPSIN1.SEC : Field := ⟨.CLK_PPSIN1, 47, 0, .ro, 0⟩

/-- CLK_PPSTICK [63:0] TICK (R650). -/
def CLK_PPSTICK.TICK : Field := ⟨.CLK_PPSTICK, 63, 0, .ro, 0⟩

/-- CLK_PTP [31:31] TS_EN (R650). -/
def CLK_PTP.TS_EN : Field := ⟨.CLK_PTP, 31, 31, .rw, 0⟩
/-- CLK_PTP [30:30] TS_OVF (R650). -/
def CLK_PTP.TS_OVF : Field := ⟨.CLK_PTP, 30, 30, .rw1c, 0⟩
/-- CLK_PTP [7:0] USED (R650). -/
def CLK_PTP.USED : Field := ⟨.CLK_PTP, 7, 0, .ro, 0⟩

/-- CLK_DLY [31:16] TX_DLY (R650). -/
def CLK_DLY.TX_DLY : Field := ⟨.CLK_DLY, 31, 16, .rw, 0⟩
/-- CLK_DLY [15:0] RX_DLY (R650). -/
def CLK_DLY.RX_DLY : Field := ⟨.CLK_DLY, 15, 0, .rw, 0⟩

/-- CLK_TSA [63:32] NS (R650). -/
def CLK_TSA.NS : Field := ⟨.CLK_TSA, 63, 32, .ro, 0⟩
/-- CLK_TSA [31:0] SEC_LO (R650). -/
def CLK_TSA.SEC_LO : Field := ⟨.CLK_TSA, 31, 0, .ro, 0⟩

/-- CLK_TSB [63:63] PRESENT (R650). -/
def CLK_TSB.PRESENT : Field := ⟨.CLK_TSB, 63, 63, .ro, 0⟩
/-- CLK_TSB [62:62] DIR (R650). -/
def CLK_TSB.DIR : Field := ⟨.CLK_TSB, 62, 62, .ro, 0⟩
/-- CLK_TSB [61:61] TVALID (R650). -/
def CLK_TSB.TVALID : Field := ⟨.CLK_TSB, 61, 61, .ro, 0⟩
/-- CLK_TSB [60:60] ONESTEP (R650). -/
def CLK_TSB.ONESTEP : Field := ⟨.CLK_TSB, 60, 60, .ro, 0⟩
/-- CLK_TSB [59:56] MSGTYPE (R650). -/
def CLK_TSB.MSGTYPE : Field := ⟨.CLK_TSB, 59, 56, .ro, 0⟩
/-- CLK_TSB [55:48] DOMAIN (R650). -/
def CLK_TSB.DOMAIN : Field := ⟨.CLK_TSB, 55, 48, .ro, 0⟩
/-- CLK_TSB [47:32] SEQID (R650). -/
def CLK_TSB.SEQID : Field := ⟨.CLK_TSB, 47, 32, .ro, 0⟩
/-- CLK_TSB [31:16] SEC_HI (R650). -/
def CLK_TSB.SEC_HI : Field := ⟨.CLK_TSB, 31, 16, .ro, 0⟩
/-- CLK_TSB [15:0] FRAC (R650). -/
def CLK_TSB.FRAC : Field := ⟨.CLK_TSB, 15, 0, .ro, 0⟩

/-- SND_STAT [31:31] BUSY (R670). -/
def SND_STAT.BUSY : Field := ⟨.SND_STAT, 31, 31, .ro, 0⟩
/-- SND_STAT [30:30] REJECT (R670). -/
def SND_STAT.REJECT : Field := ⟨.SND_STAT, 30, 30, .rw1c, 0⟩
/-- SND_STAT [29:29] REFUSED (R670). -/
def SND_STAT.REFUSED : Field := ⟨.SND_STAT, 29, 29, .rw1c, 0⟩
/-- SND_STAT [28:28] MISSED (R670). -/
def SND_STAT.MISSED : Field := ⟨.SND_STAT, 28, 28, .rw1c, 0⟩
/-- SND_STAT [27:27] SAMP_DROP (R670). -/
def SND_STAT.SAMP_DROP : Field := ⟨.SND_STAT, 27, 27, .rw1c, 0⟩
/-- SND_STAT [6:0] QUEUED (R670). -/
def SND_STAT.QUEUED : Field := ⟨.SND_STAT, 6, 0, .ro, 0⟩

/-- SND_SAMPCTL [31:31] EN (R670). -/
def SND_SAMPCTL.EN : Field := ⟨.SND_SAMPCTL, 31, 31, .rw, 0⟩
/-- SND_SAMPCTL [26:24] CAT (R670). -/
def SND_SAMPCTL.CAT : Field := ⟨.SND_SAMPCTL, 26, 24, .rw, 0⟩
/-- SND_SAMPCTL [23:20] PSHIFT (R670). -/
def SND_SAMPCTL.PSHIFT : Field := ⟨.SND_SAMPCTL, 23, 20, .rw, 0xA⟩

/-- SND_SAMPCORE [31:0] CORES (R670). -/
def SND_SAMPCORE.CORES : Field := ⟨.SND_SAMPCORE, 31, 0, .rw, 0⟩

/-- SND_SRING [63:16] BASE (R670). -/
def SND_SRING.BASE : Field := ⟨.SND_SRING, 63, 16, .rw, 0⟩
/-- SND_SRING [15:0] SIZE (R670). -/
def SND_SRING.SIZE : Field := ⟨.SND_SRING, 15, 0, .rw, 0⟩

/-- SND_SRIDX [31:16] RD (R670). -/
def SND_SRIDX.RD : Field := ⟨.SND_SRIDX, 31, 16, .rw, 0⟩
/-- SND_SRIDX [15:0] WR (R670). -/
def SND_SRIDX.WR : Field := ⟨.SND_SRIDX, 15, 0, .ro, 0⟩

/-- SND_SCFG [63:63] EN (R670). -/
def SND_SCFG.EN : Field := ⟨.SND_SCFG, 63, 63, .rw, 0⟩
/-- SND_SCFG [62:62] CLEAR (R670). -/
def SND_SCFG.CLEAR : Field := ⟨.SND_SCFG, 62, 62, .rw, 0⟩
/-- SND_SCFG [61:61] DEST (R670). -/
def SND_SCFG.DEST : Field := ⟨.SND_SCFG, 61, 61, .rw, 0⟩
/-- SND_SCFG [57:52] SEL (R670). -/
def SND_SCFG.SEL : Field := ⟨.SND_SCFG, 57, 52, .rw, 0⟩
/-- SND_SCFG [47:40] ENTRIES (R670). -/
def SND_SCFG.ENTRIES : Field := ⟨.SND_SCFG, 47, 40, .rw, 0⟩
/-- SND_SCFG [31:0] PERIOD (R670). -/
def SND_SCFG.PERIOD : Field := ⟨.SND_SCFG, 31, 0, .rw, 0⟩

/-- SND_SFIRST [63:0] FIRST (R670). -/
def SND_SFIRST.FIRST : Field := ⟨.SND_SFIRST, 63, 0, .rw, 0⟩

/-- SND_SLIST [63:0] LIST (R670). -/
def SND_SLIST.LIST : Field := ⟨.SND_SLIST, 63, 0, .rw, 0⟩

/-- SND_RINGBASE [63:0] RING (R670). -/
def SND_RINGBASE.RING : Field := ⟨.SND_RINGBASE, 63, 0, .rw, 0⟩

/-- SND_RINGIDX [63:48] SLOTS (R670). -/
def SND_RINGIDX.SLOTS : Field := ⟨.SND_RINGIDX, 63, 48, .rw, 0⟩
/-- SND_RINGIDX [47:32] SLOT_SZ (R670). -/
def SND_RINGIDX.SLOT_SZ : Field := ⟨.SND_RINGIDX, 47, 32, .rw, 0⟩
/-- SND_RINGIDX [31:16] RD (R670). -/
def SND_RINGIDX.RD : Field := ⟨.SND_RINGIDX, 31, 16, .rw, 0⟩
/-- SND_RINGIDX [15:0] WR (R670). -/
def SND_RINGIDX.WR : Field := ⟨.SND_RINGIDX, 15, 0, .ro, 0⟩

/-- SND_SSEQ [31:0] SEQ (R670). -/
def SND_SSEQ.SEQ : Field := ⟨.SND_SSEQ, 31, 0, .ro, 0⟩

/-- SND_TCFG [31:31] EN (R670). -/
def SND_TCFG.EN : Field := ⟨.SND_TCFG, 31, 31, .rw, 0⟩
/-- SND_TCFG [30:30] DOWN (R670). -/
def SND_TCFG.DOWN : Field := ⟨.SND_TCFG, 30, 30, .rw, 0⟩
/-- SND_TCFG [29:29] ARMED (R670). -/
def SND_TCFG.ARMED : Field := ⟨.SND_TCFG, 29, 29, .ro, 0⟩
/-- SND_TCFG [28:28] HIT (R670). -/
def SND_TCFG.HIT : Field := ⟨.SND_TCFG, 28, 28, .rw1c, 0⟩
/-- SND_TCFG [27:24] SRC (R670). -/
def SND_TCFG.SRC : Field := ⟨.SND_TCFG, 27, 24, .rw, 0⟩
/-- SND_TCFG [23:0] INDEX (R670). -/
def SND_TCFG.INDEX : Field := ⟨.SND_TCFG, 23, 0, .rw, 0⟩

/-- SND_THIGH [63:0] HIGH (R670). -/
def SND_THIGH.HIGH : Field := ⟨.SND_THIGH, 63, 0, .rw, 0⟩

/-- SND_TLOW [63:0] LOW (R670). -/
def SND_TLOW.LOW : Field := ⟨.SND_TLOW, 63, 0, .rw, 0⟩

/-- SND_TVAL [63:0] VALUE (R670). -/
def SND_TVAL.VALUE : Field := ⟨.SND_TVAL, 63, 0, .ro, 0⟩

/-- HIF_CTL [3:0] HCOLOUR (R690). -/
def HIF_CTL.HCOLOUR : Field := ⟨.HIF_CTL, 3, 0, .rw, 9⟩

/-- HIF_STAT [31:31] REJECT (R690). -/
def HIF_STAT.REJECT : Field := ⟨.HIF_STAT, 31, 31, .rw1c, 0⟩
/-- HIF_STAT [30:30] HOST_REF (R690). -/
def HIF_STAT.HOST_REF : Field := ⟨.HIF_STAT, 30, 30, .rw1c, 0⟩
/-- HIF_STAT [29:29] FLASH_BAD (R690). -/
def HIF_STAT.FLASH_BAD : Field := ⟨.HIF_STAT, 29, 29, .ro, 0⟩
/-- HIF_STAT [28:28] PRE_BAD (R690). -/
def HIF_STAT.PRE_BAD : Field := ⟨.HIF_STAT, 28, 28, .ro, 0⟩
/-- HIF_STAT [27:27] PRE_DONE (R690). -/
def HIF_STAT.PRE_DONE : Field := ⟨.HIF_STAT, 27, 27, .ro, 0⟩
/-- HIF_STAT [2:0] BAR2_LOG2 (R690). -/
def HIF_STAT.BAR2_LOG2 : Field := ⟨.HIF_STAT, 2, 0, .ro, 0⟩

/-- HIF_HERR [63:0] ADDR (R689). -/
def HIF_HERR.ADDR : Field := ⟨.HIF_HERR, 63, 0, .ro, 0⟩

/-- HIF_BAR2WIN [5:0] WIN (R690). -/
def HIF_BAR2WIN.WIN : Field := ⟨.HIF_BAR2WIN, 5, 0, .rw, 0⟩

/-- HIF_CAUSE [5:0] CAUSE (R689). -/
def HIF_CAUSE.CAUSE : Field := ⟨.HIF_CAUSE, 5, 0, .rw1c, 0⟩

/-- HIF_CAUSEMSK [5:0] MASK (R689). -/
def HIF_CAUSEMSK.MASK : Field := ⟨.HIF_CAUSEMSK, 5, 0, .rw, 0x3F⟩

/-- HIF_CAUSEVEC [6:0] VEC (R689). -/
def HIF_CAUSEVEC.VEC : Field := ⟨.HIF_CAUSEVEC, 6, 0, .rw, 0⟩

/-- HIF_RBASE [63:0] BASE (R689). -/
def HIF_RBASE.BASE : Field := ⟨.HIF_RBASE, 63, 0, .rw, 0⟩

/-- HIF_CBASE [63:0] BASE (R689). -/
def HIF_CBASE.BASE : Field := ⟨.HIF_CBASE, 63, 0, .rw, 0⟩

/-- HIF_RCFG [31:31] EN (R691). -/
def HIF_RCFG.EN : Field := ⟨.HIF_RCFG, 31, 31, .rw, 0⟩
/-- HIF_RCFG [30:30] LOC (R691). -/
def HIF_RCFG.LOC : Field := ⟨.HIF_RCFG, 30, 30, .rw, 0⟩
/-- HIF_RCFG [29:26] COLOUR (R691). -/
def HIF_RCFG.COLOUR : Field := ⟨.HIF_RCFG, 29, 26, .rw, 9⟩
/-- HIF_RCFG [22:16] VEC (R691). -/
def HIF_RCFG.VEC : Field := ⟨.HIF_RCFG, 22, 16, .rw, 0⟩
/-- HIF_RCFG [3:0] LOG2SZ (R691). -/
def HIF_RCFG.LOG2SZ : Field := ⟨.HIF_RCFG, 3, 0, .rw, 1⟩

/-- HIF_RCOAL [31:16] COAL_US (R691). -/
def HIF_RCOAL.COAL_US : Field := ⟨.HIF_RCOAL, 31, 16, .rw, 0⟩
/-- HIF_RCOAL [11:0] COAL_N (R691). -/
def HIF_RCOAL.COAL_N : Field := ⟨.HIF_RCOAL, 11, 0, .rw, 1⟩

/-- HIF_RSTAT [31:31] FETCH_ERR (R691). -/
def HIF_RSTAT.FETCH_ERR : Field := ⟨.HIF_RSTAT, 31, 31, .rw1c, 0⟩
/-- HIF_RSTAT [30:30] CPL_ERR (R691). -/
def HIF_RSTAT.CPL_ERR : Field := ⟨.HIF_RSTAT, 30, 30, .rw1c, 0⟩
/-- HIF_RSTAT [29:29] DB_ERR (R691). -/
def HIF_RSTAT.DB_ERR : Field := ⟨.HIF_RSTAT, 29, 29, .rw1c, 0⟩
/-- HIF_RSTAT [28:28] HALTED (R691). -/
def HIF_RSTAT.HALTED : Field := ⟨.HIF_RSTAT, 28, 28, .ro, 0⟩
/-- HIF_RSTAT [12:0] OUTST (R691). -/
def HIF_RSTAT.OUTST : Field := ⟨.HIF_RSTAT, 12, 0, .ro, 0⟩

/-- HIF_DB [31:31] SQ_V (R691). -/
def HIF_DB.SQ_V : Field := ⟨.HIF_DB, 31, 31, .wo, 0⟩
/-- HIF_DB [27:16] SQ_TAIL (R691). -/
def HIF_DB.SQ_TAIL : Field := ⟨.HIF_DB, 27, 16, .wo, 0⟩
/-- HIF_DB [15:15] CQ_V (R691). -/
def HIF_DB.CQ_V : Field := ⟨.HIF_DB, 15, 15, .wo, 0⟩
/-- HIF_DB [11:0] CQ_HEAD (R691). -/
def HIF_DB.CQ_HEAD : Field := ⟨.HIF_DB, 11, 0, .wo, 0⟩

/-- HIF_RIDX [27:16] SQ_HEAD (R691). -/
def HIF_RIDX.SQ_HEAD : Field := ⟨.HIF_RIDX, 27, 16, .ro, 0⟩
/-- HIF_RIDX [12:12] PHASE (R691). -/
def HIF_RIDX.PHASE : Field := ⟨.HIF_RIDX, 12, 12, .ro, 1⟩
/-- HIF_RIDX [11:0] CQ_TAIL (R691). -/
def HIF_RIDX.CQ_TAIL : Field := ⟨.HIF_RIDX, 11, 0, .ro, 0⟩

/-- HIF_RDROP [31:0] DROPPED (R689). -/
def HIF_RDROP.DROPPED : Field := ⟨.HIF_RDROP, 31, 0, .ro, 0⟩

/-- HIF_MSIXA [63:0] ADDR (R720). -/
def HIF_MSIXA.ADDR : Field := ⟨.HIF_MSIXA, 63, 0, .rw, 0⟩

/-- HIF_MSIXD [32:32] MASK (R720). -/
def HIF_MSIXD.MASK : Field := ⟨.HIF_MSIXD, 32, 32, .rw, 1⟩
/-- HIF_MSIXD [31:0] DATA (R720). -/
def HIF_MSIXD.DATA : Field := ⟨.HIF_MSIXD, 31, 0, .rw, 0⟩

/-- HIF_PBA [63:0] PENDING (R720). -/
def HIF_PBA.PENDING : Field := ⟨.HIF_PBA, 63, 0, .ro, 0⟩

/-- ELG_CTL [7:0] LIMIT (R706). -/
def ELG_CTL.LIMIT : Field := ⟨.ELG_CTL, 7, 0, .rw, 0x10⟩

/-- ELG_STAT [31:31] FULL (R706). -/
def ELG_STAT.FULL : Field := ⟨.ELG_STAT, 31, 31, .ro, 0⟩
/-- ELG_STAT [30:30] OVF (R706). -/
def ELG_STAT.OVF : Field := ⟨.ELG_STAT, 30, 30, .rw1c, 0⟩
/-- ELG_STAT [29:29] SUPP (R706). -/
def ELG_STAT.SUPP : Field := ⟨.ELG_STAT, 29, 29, .rw1c, 0⟩
/-- ELG_STAT [28:28] IDX_ERR (R706). -/
def ELG_STAT.IDX_ERR : Field := ⟨.ELG_STAT, 28, 28, .rw1c, 0⟩
/-- ELG_STAT [27:27] REJECT (R706). -/
def ELG_STAT.REJECT : Field := ⟨.ELG_STAT, 27, 27, .rw1c, 0⟩
/-- ELG_STAT [10:0] USED (R706). -/
def ELG_STAT.USED : Field := ⟨.ELG_STAT, 10, 0, .ro, 0⟩

/-- ELG_IDX [25:16] RD (R706). -/
def ELG_IDX.RD : Field := ⟨.ELG_IDX, 25, 16, .rw, 0⟩
/-- ELG_IDX [9:0] WR (R706). -/
def ELG_IDX.WR : Field := ⟨.ELG_IDX, 9, 0, .ro, 0⟩

/-- ELG_SEQ [31:0] SEQ (R705). -/
def ELG_SEQ.SEQ : Field := ⟨.ELG_SEQ, 31, 0, .ro, 0⟩

/-- ELG_BREACH [31:16] RECORDS (R95). -/
def ELG_BREACH.RECORDS : Field := ⟨.ELG_BREACH, 31, 16, .ro, 0⟩
/-- ELG_BREACH [1:1] RATE (R95). -/
def ELG_BREACH.RATE : Field := ⟨.ELG_BREACH, 1, 1, .rw1c, 0⟩
/-- ELG_BREACH [0:0] DELIVERY (R95). -/
def ELG_BREACH.DELIVERY : Field := ⟨.ELG_BREACH, 0, 0, .rw1c, 0⟩

/-- ELG_RETPOOL [15:0] RET (R706). -/
def ELG_RETPOOL.RET : Field := ⟨.ELG_RETPOOL, 15, 0, .rw, 0⟩

/-- ELG_CE [47:0] COUNT (R705). -/
def ELG_CE.COUNT : Field := ⟨.ELG_CE, 47, 0, .ro, 0⟩

/-- ELG_RETPAGE [31:31] V (R706). -/
def ELG_RETPAGE.V : Field := ⟨.ELG_RETPAGE, 31, 31, .rw, 0⟩
/-- ELG_RETPAGE [23:0] PAGE (R706). -/
def ELG_RETPAGE.PAGE : Field := ⟨.ELG_RETPAGE, 23, 0, .rw, 0⟩

/-- ELG_KCNT [47:0] COUNT (R705). -/
def ELG_KCNT.COUNT : Field := ⟨.ELG_KCNT, 47, 0, .ro, 0⟩

/-- ELG_LOG [63:0] OCTETS (R705). -/
def ELG_LOG.OCTETS : Field := ⟨.ELG_LOG, 63, 0, .ro, 0⟩

/-- Offset, replicas and width of each register (R71, R135, R178, R221, R273, R314, R355, R420, R460, R497, R525,
R550, R576, R602, R632, R650, R670, R689, R705, R719, R720). -/
def Reg.place : Reg → Place
  | .GBL_IDENT => ⟨0x10, 1, 0x4, 1, 0x4, 4⟩
  | .GBL_MODE => ⟨0x100, 1, 0x4, 1, 0x4, 4⟩
  | .GBL_MODECMD => ⟨0x104, 1, 0x4, 1, 0x4, 4⟩
  | .GBL_LCCMD => ⟨0x108, 1, 0x4, 1, 0x4, 4⟩
  | .GBL_PRES => ⟨0x10C, 1, 0x4, 1, 0x4, 4⟩
  | .GBL_RESET => ⟨0x110, 1, 0x4, 1, 0x4, 4⟩
  | .GBL_POC => ⟨0x114, 1, 0x4, 1, 0x4, 4⟩
  | .GBL_DEBUG => ⟨0x118, 1, 0x4, 1, 0x4, 4⟩
  | .GAU_READ => ⟨0x100000, 18, 0x100, 1, 0x8, 8⟩
  | .GAU_PRESET => ⟨0x100008, 18, 0x100, 1, 0x8, 8⟩
  | .GAU_FTICK => ⟨0x100010, 18, 0x100, 1, 0x8, 8⟩
  | .GAU_FPER => ⟨0x100018, 18, 0x100, 1, 0x4, 4⟩
  | .GAU_STAT => ⟨0x10001C, 18, 0x100, 1, 0x4, 4⟩
  | .GAU_SNAP => ⟨0x100020, 18, 0x100, 1, 0x8, 8⟩
  | .GAU_FAR => ⟨0x100028, 18, 0x100, 1, 0x8, 8⟩
  | .GAU_SNAPFAR => ⟨0x100030, 18, 0x100, 1, 0x8, 8⟩
  | .GAU_RECORD => ⟨0x102000, 1, 0x4, 1, 0x4, 4⟩
  | .GAU_SNAPCTL => ⟨0x102008, 1, 0x4, 1, 0x4, 4⟩
  | .GAU_EVFREE => ⟨0x102010, 1, 0x4, 1, 0x4, 4⟩
  | .RC_CTL => ⟨0x200000, 24, 0x10000, 1, 0x4, 4⟩
  | .RC_STAT => ⟨0x200004, 24, 0x10000, 1, 0x4, 4⟩
  | .RC_FLAG => ⟨0x200008, 24, 0x10000, 1, 0x8, 8⟩
  | .RC_FLAGG => ⟨0x200010, 24, 0x10000, 1, 0x8, 8⟩
  | .WEI_GRP_CFG => ⟨0x400100, 18, 0x4, 1, 0x4, 4⟩
  | .WEI_POOL_STAT => ⟨0x400180, 1, 0x4, 1, 0x4, 4⟩
  | .WEI_FAILCLR => ⟨0x400184, 1, 0x4, 1, 0x4, 4⟩
  | .WEI_SAMPLE => ⟨0x400188, 1, 0x4, 1, 0x4, 4⟩
  | .WEI_STAT => ⟨0x400190, 1, 0x4, 1, 0x4, 4⟩
  | .WEI_LEASE => ⟨0x400200, 18, 0x8, 1, 0x8, 8⟩
  | .WEI_CARD => ⟨0x400400, 1, 0x4, 1, 0x4, 4⟩
  | .WEI_CARDGRANT => ⟨0x400404, 1, 0x4, 1, 0x4, 4⟩
  | .WEI_TETHCTL => ⟨0x400408, 1, 0x4, 1, 0x4, 4⟩
  | .WEI_TETHSTAT => ⟨0x40040C, 1, 0x4, 1, 0x4, 4⟩
  | .WEI_MIRROR => ⟨0x408000, 18, 0x1000, 512, 0x8, 8⟩
  | .SPR_PGOWN => ⟨0x500000, 16, 0x4, 1, 0x4, 4⟩
  | .SPR_STAT => ⟨0x500040, 1, 0x4, 1, 0x4, 4⟩
  | .KST_CMD => ⟨0x501000, 1, 0x4, 1, 0x4, 4⟩
  | .KST_STAT => ⟨0x501004, 1, 0x4, 1, 0x4, 4⟩
  | .KST_DATA => ⟨0x501008, 4, 0x8, 1, 0x8, 8⟩
  | .KST_CISTAT => ⟨0x501040, 1, 0x4, 1, 0x4, 4⟩
  | .KST_DEVID => ⟨0x501048, 1, 0x8, 1, 0x8, 8⟩
  | .PKE_STAT => ⟨0x502000, 1, 0x4, 1, 0x4, 4⟩
  | .DLT_CMD => ⟨0x600000, 1, 0x4, 1, 0x4, 4⟩
  | .DLT_STAT => ⟨0x600004, 1, 0x4, 1, 0x4, 4⟩
  | .DLT_POS => ⟨0x600008, 1, 0x4, 1, 0x4, 4⟩
  | .DLT_HSEED => ⟨0x60000C, 1, 0x4, 1, 0x4, 4⟩
  | .DLT_DATA0 => ⟨0x600010, 1, 0x8, 1, 0x8, 8⟩
  | .DLT_DATA1 => ⟨0x600018, 1, 0x8, 1, 0x8, 8⟩
  | .DLT_AGE => ⟨0x600020, 1, 0x4, 1, 0x4, 4⟩
  | .DLT_USED => ⟨0x600024, 1, 0x4, 1, 0x4, 4⟩
  | .DLT_PORT => ⟨0x601000, 72, 0x4, 1, 0x4, 4⟩
  | .DLT_PDEF => ⟨0x601200, 72, 0x8, 1, 0x8, 8⟩
  | .BSN_CMD => ⟨0x800000, 1, 0x4, 1, 0x4, 4⟩
  | .BSN_STAT => ⟨0x800004, 1, 0x4, 1, 0x4, 4⟩
  | .BSN_OBJ => ⟨0x800008, 1, 0x4, 1, 0x4, 4⟩
  | .BSN_DATA => ⟨0x800010, 6, 0x8, 1, 0x8, 8⟩
  | .BSN_POOL => ⟨0x800100, 1, 0x8, 1, 0x8, 8⟩
  | .BSN_SHARED => ⟨0x800108, 1, 0x8, 1, 0x8, 8⟩
  | .BSN_FREE => ⟨0x800110, 1, 0x8, 1, 0x8, 8⟩
  | .BSN_LOST => ⟨0x800118, 1, 0x4, 1, 0x4, 4⟩
  | .BSN_FIFO => ⟨0x80011C, 1, 0x4, 1, 0x4, 4⟩
  | .BSN_RES => ⟨0x800200, 18, 0x8, 1, 0x8, 8⟩
  | .CUL_CTL => ⟨0xC00000, 1, 0x4, 1, 0x4, 4⟩
  | .CUL_STAT => ⟨0xC00004, 1, 0x4, 1, 0x4, 4⟩
  | .CUL_SCRUB => ⟨0xC00008, 1, 0x4, 1, 0x4, 4⟩
  | .CUL_BW => ⟨0xC00010, 1, 0x8, 1, 0x8, 8⟩
  | .CUL_RNG => ⟨0xC00100, 8, 0x10, 1, 0x8, 8⟩
  | .CUL_RTREE => ⟨0xC00108, 8, 0x10, 1, 0x4, 4⟩
  | .CUL_RSTAT => ⟨0xC0010C, 8, 0x10, 1, 0x4, 4⟩
  | .TID_ICINV => ⟨0xD00004, 1, 0x4, 1, 0x4, 4⟩
  | .TID_RESET => ⟨0xD00008, 1, 0x4, 1, 0x4, 4⟩
  | .TID_STAT => ⟨0xD0000C, 1, 0x4, 1, 0x4, 4⟩
  | .TID_SODIGLO => ⟨0xD00020, 1, 0x8, 1, 0x8, 8⟩
  | .TID_SODIGHI => ⟨0xD00028, 1, 0x8, 1, 0x8, 8⟩
  | .TID_SOINFO => ⟨0xD00030, 1, 0x4, 1, 0x4, 4⟩
  | .TID_EVQ => ⟨0xD00034, 1, 0x4, 1, 0x4, 4⟩
  | .TID_TRAPSUM => ⟨0xD00040, 8, 0x4, 1, 0x4, 4⟩
  | .TID_THRCFG => ⟨0xD01000, 256, 0x40, 1, 0x4, 4⟩
  | .TID_THRCTL => ⟨0xD01004, 256, 0x40, 1, 0x4, 4⟩
  | .TID_THRSTAT => ⟨0xD01008, 256, 0x40, 1, 0x4, 4⟩
  | .TID_ENTRY => ⟨0xD01010, 256, 0x40, 1, 0x8, 8⟩
  | .TID_TRAPPC => ⟨0xD01018, 256, 0x40, 1, 0x8, 8⟩
  | .TID_TRAPINFO => ⟨0xD01020, 256, 0x40, 1, 0x8, 8⟩
  | .TID_TRAPADDR => ⟨0xD01028, 256, 0x40, 1, 0x8, 8⟩
  | .CMP_CTL => ⟨0xE00000, 1, 0x4, 1, 0x4, 4⟩
  | .CMP_STAT => ⟨0xE00004, 1, 0x4, 1, 0x4, 4⟩
  | .CMP_EPOCH => ⟨0xE00008, 1, 0x4, 1, 0x4, 4⟩
  | .CMP_FENCE => ⟨0xE0000C, 1, 0x4, 1, 0x4, 4⟩
  | .CMP_VIOL => ⟨0xE00010, 1, 0x8, 1, 0x8, 8⟩
  | .CMP_VINFO => ⟨0xE00018, 1, 0x4, 1, 0x4, 4⟩
  | .CMP_START => ⟨0xE01000, 512, 0x20, 1, 0x8, 8⟩
  | .CMP_END => ⟨0xE01008, 512, 0x20, 1, 0x8, 8⟩
  | .CMP_ATTR => ⟨0xE01010, 512, 0x20, 1, 0x4, 4⟩
  | .CMP_LSTART => ⟨0xE05000, 512, 0x20, 1, 0x8, 8⟩
  | .CMP_LEND => ⟨0xE05008, 512, 0x20, 1, 0x8, 8⟩
  | .CMP_LATTR => ⟨0xE05010, 512, 0x20, 1, 0x4, 4⟩
  | .POOL_OWN => ⟨0xE09000, 16, 0x4, 1, 0x4, 4⟩
  | .LN_CTL => ⟨0xF00000, 148, 0x1000, 1, 0x4, 4⟩
  | .LN_STAT => ⟨0xF00004, 148, 0x1000, 1, 0x4, 4⟩
  | .LN_TXEQ => ⟨0xF00008, 148, 0x1000, 1, 0x4, 4⟩
  | .LN_MAP => ⟨0xF0000C, 37, 0x4000, 1, 0x4, 4⟩
  | .LN_EYECTL => ⟨0xF00010, 148, 0x1000, 1, 0x4, 4⟩
  | .LN_EYERES => ⟨0xF00018, 148, 0x1000, 1, 0x8, 8⟩
  | .FRM_CTL => ⟨0x1100000, 18, 0x10000, 1, 0x4, 4⟩
  | .FRM_STAT => ⟨0x1100004, 18, 0x10000, 1, 0x4, 4⟩
  | .FRM_GPOS => ⟨0x1100008, 18, 0x10000, 1, 0x4, 4⟩
  | .FRM_DEF => ⟨0x110000C, 18, 0x10000, 1, 0x4, 4⟩
  | .FRM_CPORT => ⟨0x1100100, 18, 0x10000, 4, 0x4, 4⟩
  | .FRM_TSMAP => ⟨0x1100400, 18, 0x10000, 160, 0x4, 4⟩
  | .FRM_TSLIVE => ⟨0x1100800, 18, 0x10000, 160, 0x4, 4⟩
  | .FRM_CHSTAT => ⟨0x1100C00, 18, 0x10000, 160, 0x4, 4⟩
  | .FRM_COOPOS => ⟨0x110C000, 18, 0x10000, 1, 0x8, 8⟩
  | .FRM_L1CTL => ⟨0x110C008, 18, 0x10000, 1, 0x4, 4⟩
  | .FRM_L1HOLD => ⟨0x110C00C, 18, 0x10000, 1, 0x4, 4⟩
  | .FRM_L1CMD => ⟨0x110C010, 18, 0x10000, 1, 0x4, 4⟩
  | .FRM_L1DATA => ⟨0x110C018, 18, 0x10000, 6, 0x8, 8⟩
  | .FRM_UNTRUST => ⟨0x110C050, 18, 0x10000, 5, 0x4, 4⟩
  | .FRM_DCCCTL => ⟨0x1300000, 4, 0x100, 1, 0x4, 4⟩
  | .FRM_DCCSTAT => ⟨0x1300004, 4, 0x100, 1, 0x4, 4⟩
  | .FRM_DSTR => ⟨0x1300040, 4, 0x100, 16, 0x4, 4⟩
  | .SCY_CMD => ⟨0x1400000, 1, 0x4, 1, 0x4, 4⟩
  | .SCY_STAT => ⟨0x1400004, 1, 0x4, 1, 0x4, 4⟩
  | .SCY_DATA => ⟨0x1400008, 5, 0x8, 1, 0x8, 8⟩
  | .LEV_STAT => ⟨0x1500000, 1, 0x4, 1, 0x4, 4⟩
  | .LEV_STICKY => ⟨0x1500004, 1, 0x4, 1, 0x4, 4⟩
  | .LEV_RAW => ⟨0x1500008, 1, 0x4, 1, 0x4, 4⟩
  | .LEV_TEMP => ⟨0x150000C, 1, 0x4, 1, 0x4, 4⟩
  | .LEV_WATCH => ⟨0x1500010, 1, 0x8, 1, 0x8, 8⟩
  | .LEV_WTICK => ⟨0x1500018, 1, 0x8, 1, 0x8, 8⟩
  | .LEV_LOGCNT => ⟨0x1500020, 1, 0x4, 1, 0x4, 4⟩
  | .LEV_LOGRD => ⟨0x1500024, 1, 0x4, 1, 0x4, 4⟩
  | .LEV_LOGDATA0 => ⟨0x1500028, 1, 0x8, 1, 0x8, 8⟩
  | .LEV_LOGDATA1 => ⟨0x1500030, 1, 0x8, 1, 0x8, 8⟩
  | .LEV_SRCCFG => ⟨0x1500100, 16, 0x4, 1, 0x4, 4⟩
  | .LEV_EVCNT => ⟨0x1500200, 16, 0x4, 1, 0x4, 4⟩
  | .CLK_TICK => ⟨0x1600000, 1, 0x8, 1, 0x8, 8⟩
  | .CLK_TIME0 => ⟨0x1600008, 1, 0x8, 1, 0x8, 8⟩
  | .CLK_TIME1 => ⟨0x1600010, 1, 0x8, 1, 0x8, 8⟩
  | .CLK_SET0 => ⟨0x1600018, 1, 0x8, 1, 0x8, 8⟩
  | .CLK_SET1 => ⟨0x1600020, 1, 0x8, 1, 0x8, 8⟩
  | .CLK_ADJ => ⟨0x1600028, 1, 0x8, 1, 0x8, 8⟩
  | .CLK_RATE => ⟨0x1600030, 1, 0x4, 1, 0x4, 4⟩
  | .CLK_JUMP => ⟨0x1600034, 1, 0x4, 1, 0x4, 4⟩
  | .CLK_CMD => ⟨0x1600038, 1, 0x4, 1, 0x4, 4⟩
  | .CLK_STAT => ⟨0x160003C, 1, 0x4, 1, 0x4, 4⟩
  | .CLK_PPS => ⟨0x1600040, 1, 0x4, 1, 0x4, 4⟩
  | .CLK_PPSIN0 => ⟨0x1600048, 1, 0x8, 1, 0x8, 8⟩
  | .CLK_PPSIN1 => ⟨0x1600050, 1, 0x8, 1, 0x8, 8⟩
  | .CLK_PPSTICK => ⟨0x1600058, 1, 0x8, 1, 0x8, 8⟩
  | .CLK_PTP => ⟨0x1601000, 72, 0x20, 1, 0x4, 4⟩
  | .CLK_DLY => ⟨0x1601004, 72, 0x20, 1, 0x4, 4⟩
  | .CLK_TSA => ⟨0x1601008, 72, 0x20, 1, 0x8, 8⟩
  | .CLK_TSB => ⟨0x1601010, 72, 0x20, 1, 0x8, 8⟩
  | .SND_STAT => ⟨0x1700000, 1, 0x4, 1, 0x4, 4⟩
  | .SND_SAMPCTL => ⟨0x1700004, 1, 0x4, 1, 0x4, 4⟩
  | .SND_SAMPCORE => ⟨0x1700008, 1, 0x4, 1, 0x4, 4⟩
  | .SND_SRING => ⟨0x1700010, 1, 0x8, 1, 0x8, 8⟩
  | .SND_SRIDX => ⟨0x1700018, 1, 0x4, 1, 0x4, 4⟩
  | .SND_SCFG => ⟨0x1701000, 64, 0x40, 1, 0x8, 8⟩
  | .SND_SFIRST => ⟨0x1701008, 64, 0x40, 1, 0x8, 8⟩
  | .SND_SLIST => ⟨0x1701010, 64, 0x40, 1, 0x8, 8⟩
  | .SND_RINGBASE => ⟨0x1701018, 64, 0x40, 1, 0x8, 8⟩
  | .SND_RINGIDX => ⟨0x1701020, 64, 0x40, 1, 0x8, 8⟩
  | .SND_SSEQ => ⟨0x1701028, 64, 0x40, 1, 0x4, 4⟩
  | .SND_TCFG => ⟨0x1703000, 64, 0x20, 1, 0x4, 4⟩
  | .SND_THIGH => ⟨0x1703008, 64, 0x20, 1, 0x8, 8⟩
  | .SND_TLOW => ⟨0x1703010, 64, 0x20, 1, 0x8, 8⟩
  | .SND_TVAL => ⟨0x1703018, 64, 0x20, 1, 0x8, 8⟩
  | .HIF_CTL => ⟨0x1800000, 1, 0x4, 1, 0x4, 4⟩
  | .HIF_STAT => ⟨0x1800004, 1, 0x4, 1, 0x4, 4⟩
  | .HIF_HERR => ⟨0x1800008, 1, 0x8, 1, 0x8, 8⟩
  | .HIF_BAR2WIN => ⟨0x1800010, 1, 0x4, 1, 0x4, 4⟩
  | .HIF_CAUSE => ⟨0x1800014, 1, 0x4, 1, 0x4, 4⟩
  | .HIF_CAUSEMSK => ⟨0x1800018, 1, 0x4, 1, 0x4, 4⟩
  | .HIF_CAUSEVEC => ⟨0x180001C, 1, 0x4, 1, 0x4, 4⟩
  | .HIF_RBASE => ⟨0x1801000, 67, 0x40, 1, 0x8, 8⟩
  | .HIF_CBASE => ⟨0x1801008, 67, 0x40, 1, 0x8, 8⟩
  | .HIF_RCFG => ⟨0x1801010, 67, 0x40, 1, 0x4, 4⟩
  | .HIF_RCOAL => ⟨0x1801014, 67, 0x40, 1, 0x4, 4⟩
  | .HIF_RSTAT => ⟨0x1801018, 67, 0x40, 1, 0x4, 4⟩
  | .HIF_DB => ⟨0x180101C, 67, 0x40, 1, 0x4, 4⟩
  | .HIF_RIDX => ⟨0x1801020, 67, 0x40, 1, 0x4, 4⟩
  | .HIF_RDROP => ⟨0x1801024, 67, 0x40, 1, 0x4, 4⟩
  | .HIF_MSIXA => ⟨0x1810000, 128, 0x10, 1, 0x8, 8⟩
  | .HIF_MSIXD => ⟨0x1810008, 128, 0x10, 1, 0x8, 8⟩
  | .HIF_PBA => ⟨0x1811000, 2, 0x8, 1, 0x8, 8⟩
  | .ELG_CTL => ⟨0x1900000, 1, 0x4, 1, 0x4, 4⟩
  | .ELG_STAT => ⟨0x1900004, 1, 0x4, 1, 0x4, 4⟩
  | .ELG_IDX => ⟨0x1900008, 1, 0x4, 1, 0x4, 4⟩
  | .ELG_SEQ => ⟨0x190000C, 1, 0x4, 1, 0x4, 4⟩
  | .ELG_BREACH => ⟨0x1900040, 1, 0x4, 1, 0x4, 4⟩
  | .ELG_RETPOOL => ⟨0x1900084, 1, 0x4, 1, 0x4, 4⟩
  | .ELG_CE => ⟨0x1900100, 16, 0x8, 1, 0x8, 8⟩
  | .ELG_RETPAGE => ⟨0x1900400, 256, 0x4, 1, 0x4, 4⟩
  | .ELG_KCNT => ⟨0x1901000, 256, 0x8, 1, 0x8, 8⟩
  | .ELG_LOG => ⟨0x1908000, 1024, 0x20, 4, 0x8, 8⟩

/-- The fields of each register, as its field table lists them; bits that no field covers are reserved. -/
def Reg.fields : Reg → List Field
  | .GBL_IDENT => [GBL_IDENT.PART, GBL_IDENT.STEP, GBL_IDENT.GRADE]
  | .GBL_MODE => [GBL_MODE.MODE, GBL_MODE.LCS, GBL_MODE.STOP_CLEAN, GBL_MODE.DRAINED, GBL_MODE.DEGRADED, GBL_MODE.REPLAY, GBL_MODE.TRANS]
  | .GBL_MODECMD => [GBL_MODECMD.BUSY, GBL_MODECMD.STATUS, GBL_MODECMD.CMD_DROP, GBL_MODECMD.TARGET]
  | .GBL_LCCMD => [GBL_LCCMD.BUSY, GBL_LCCMD.STATUS, GBL_LCCMD.CMD_DROP, GBL_LCCMD.CONFIRM, GBL_LCCMD.TARGET]
  | .GBL_PRES => [GBL_PRES.OPEN, GBL_PRES.STUCK, GBL_PRES.LEVEL, GBL_PRES.REMAIN_MS]
  | .GBL_RESET => [GBL_RESET.DEVICE, GBL_RESET.HIF]
  | .GBL_POC => [GBL_POC.DONE, GBL_POC.FAIL, GBL_POC.AO_LOST, GBL_POC.STAGE, GBL_POC.CODE, GBL_POC.UNIT]
  | .GBL_DEBUG => [GBL_DEBUG.OPEN, GBL_DEBUG.REJECT, GBL_DEBUG.CLOSE, GBL_DEBUG.REQ]
  | .GAU_READ => [GAU_READ.FRAME, GAU_READ.OFFSET]
  | .GAU_PRESET => [GAU_PRESET.FRAME]
  | .GAU_FTICK => [GAU_FTICK.TICK]
  | .GAU_FPER => [GAU_FPER.INT, GAU_FPER.FRAC]
  | .GAU_STAT => [GAU_STAT.RUN, GAU_STAT.FAR_LOCK, GAU_STAT.PAST, GAU_STAT.FAR_LOSS, GAU_STAT.EPOCH]
  | .GAU_SNAP => [GAU_SNAP.FRAME, GAU_SNAP.OFFSET]
  | .GAU_FAR => [GAU_FAR.FRAME, GAU_FAR.OFFSET]
  | .GAU_SNAPFAR => [GAU_SNAPFAR.FRAME, GAU_SNAPFAR.OFFSET]
  | .GAU_RECORD => [GAU_RECORD.REJECT, GAU_RECORD.GROUP]
  | .GAU_SNAPCTL => [GAU_SNAPCTL.SRUN, GAU_SNAPCTL.AUTO, GAU_SNAPCTL.TRIG]
  | .GAU_EVFREE => [GAU_EVFREE.FREE]
  | .RC_CTL => [RC_CTL.FLAG_CLR, RC_CTL.TEST]
  | .RC_STAT => [RC_STAT.FLAGGED, RC_STAT.KAT_FAIL, RC_STAT.KAT_DONE, RC_STAT.GROUP, RC_STAT.ROLE, RC_STAT.STATE]
  | .RC_FLAG => [RC_FLAG.VALID, RC_FLAG.DIR, RC_FLAG.CHECKER, RC_FLAG.UNIT, RC_FLAG.CHAN, RC_FLAG.BLOCK, RC_FLAG.SEQ]
  | .RC_FLAGG => [RC_FLAGG.FRAME, RC_FLAGG.OFFSET]
  | .WEI_GRP_CFG => [WEI_GRP_CFG.EN, WEI_GRP_CFG.PROT, WEI_GRP_CFG.CLOSING, WEI_GRP_CFG.RACE_B, WEI_GRP_CFG.RACE_A]
  | .WEI_POOL_STAT => [WEI_POOL_STAT.CFG_REJECT, WEI_POOL_STAT.STANDBY, WEI_POOL_STAT.FAILED]
  | .WEI_FAILCLR => [WEI_FAILCLR.CLR]
  | .WEI_SAMPLE => [WEI_SAMPLE.DIP_BOOST, WEI_SAMPLE.SHIFT]
  | .WEI_STAT => [WEI_STAT.CLR_REJECT, WEI_STAT.LAPSE, WEI_STAT.TAG_DISAGREE, WEI_STAT.UNRESOLVED, WEI_STAT.SAMPLE_FAIL, WEI_STAT.CKPT_ERR, WEI_STAT.STALE_WR]
  | .WEI_LEASE => [WEI_LEASE.STATE, WEI_LEASE.HOLDER_B, WEI_LEASE.HOLDER_A, WEI_LEASE.LEPOCH, WEI_LEASE.RENEW]
  | .WEI_CARD => [WEI_CARD.CARD_EN, WEI_CARD.ACTIVE, WEI_CARD.LEN]
  | .WEI_CARDGRANT => [WEI_CARDGRANT.CARD_EPOCH]
  | .WEI_TETHCTL => [WEI_TETHCTL.MIRROR_TX, WEI_TETHCTL.MIRROR_RX]
  | .WEI_TETHSTAT => [WEI_TETHSTAT.CARD_REJECT, WEI_TETHSTAT.CRC_ERR, WEI_TETHSTAT.STALE]
  | .WEI_MIRROR => [WEI_MIRROR.DATA]
  | .SPR_PGOWN => [SPR_PGOWN.EN, SPR_PGOWN.OWNER]
  | .SPR_STAT => [SPR_STAT.REJECT, SPR_STAT.PAGE_VIOL, SPR_STAT.DIP_ABORT, SPR_STAT.BUSY]
  | .KST_CMD => [KST_CMD.BUSY, KST_CMD.STATUS, KST_CMD.OP]
  | .KST_STAT => [KST_STAT.SWEEP, KST_STAT.DIP, KST_STAT.CMD_DROP]
  | .KST_DATA => [KST_DATA.DATA]
  | .KST_CISTAT => [KST_CISTAT.DS_VALID, KST_CISTAT.CIS_ERR, KST_CISTAT.CAKS]
  | .KST_DEVID => [KST_DEVID.DEVICE_ID]
  | .PKE_STAT => [PKE_STAT.MSG_BAD, PKE_STAT.AUTH_FAIL, PKE_STAT.SESS_OPEN]
  | .DLT_CMD => [DLT_CMD.BUSY, DLT_CMD.STATUS, DLT_CMD.OP]
  | .DLT_STAT => [DLT_STAT.CMD_DROP, DLT_STAT.PAR_ERR, DLT_STAT.LEARN_DROP, DLT_STAT.FULL, DLT_STAT.REJECT, DLT_STAT.FLUSH, DLT_STAT.SCAN]
  | .DLT_POS => [DLT_POS.OVF, DLT_POS.BUCKET, DLT_POS.WAY]
  | .DLT_HSEED => [DLT_HSEED.HSEED]
  | .DLT_DATA0 => [DLT_DATA0.ENTRY_LO]
  | .DLT_DATA1 => [DLT_DATA1.ENTRY_HI]
  | .DLT_AGE => [DLT_AGE.EN, DLT_AGE.PERIOD]
  | .DLT_USED => [DLT_USED.ENTRIES]
  | .DLT_PORT => [DLT_PORT.EN, DLT_PORT.MODE, DLT_PORT.DEF_ACT, DLT_PORT.DEF_POL_EN, DLT_PORT.DOMAIN]
  | .DLT_PDEF => [DLT_PDEF.DEF_SC, DLT_PDEF.DEF_QUEUE, DLT_PDEF.DEF_POLICER]
  | .BSN_CMD => [BSN_CMD.BUSY, BSN_CMD.STATUS, BSN_CMD.UNIT, BSN_CMD.OP]
  | .BSN_STAT => [BSN_STAT.CMD_DROP, BSN_STAT.REJECT, BSN_STAT.CHAIN_BREAK, BSN_STAT.STATE_ERR, BSN_STAT.GEN_SPENT]
  | .BSN_OBJ => [BSN_OBJ.LEVEL, BSN_OBJ.INDEX]
  | .BSN_DATA => [BSN_DATA.DATA]
  | .BSN_POOL => [BSN_POOL.EN, BSN_POOL.READY, BSN_POOL.BASE, BSN_POOL.COUNT]
  | .BSN_SHARED => [BSN_SHARED.YLIMIT, BSN_SHARED.USED]
  | .BSN_FREE => [BSN_FREE.SPARE, BSN_FREE.FREE]
  | .BSN_LOST => [BSN_LOST.LOST]
  | .BSN_FIFO => [BSN_FIFO.BASE_MB]
  | .BSN_RES => [BSN_RES.RES, BSN_RES.USED]
  | .CUL_CTL => [CUL_CTL.TREE_EN, CUL_CTL.SCRUB_EN, CUL_CTL.TREE_POOL]
  | .CUL_STAT => [CUL_STAT.REJECT, CUL_STAT.CE, CUL_STAT.UE, CUL_STAT.TAG_FAIL, CUL_STAT.POISON, CUL_STAT.TREE_BAD, CUL_STAT.POISON_OVF, CUL_STAT.POISONED]
  | .CUL_SCRUB => [CUL_SCRUB.INTERVAL]
  | .CUL_BW => [CUL_BW.PEAK_CLR, CUL_BW.PEAK, CUL_BW.LAST]
  | .CUL_RNG => [CUL_RNG.EN, CUL_RNG.READY, CUL_RNG.TYPE, CUL_RNG.COLOURS, CUL_RNG.SIZE_MB, CUL_RNG.BASE_MB]
  | .CUL_RTREE => [CUL_RTREE.TREE_BASE_MB]
  | .CUL_RSTAT => [CUL_RSTAT.ENABLES, CUL_RSTAT.DEAD, CUL_RSTAT.DOFF, CUL_RSTAT.DAMAGED]
  | .TID_ICINV => [TID_ICINV.INV]
  | .TID_RESET => [TID_RESET.RST]
  | .TID_STAT => [TID_STAT.REJECT, TID_STAT.SO_VALID, TID_STAT.SO_OLD_PEND]
  | .TID_SODIGLO => [TID_SODIGLO.DIGEST]
  | .TID_SODIGHI => [TID_SODIGHI.DIGEST]
  | .TID_SOINFO => [TID_SOINFO.GEN, TID_SOINFO.COUNT]
  | .TID_EVQ => [TID_EVQ.OVF, TID_EVQ.USED]
  | .TID_TRAPSUM => [TID_TRAPSUM.TRAPPED]
  | .TID_THRCFG => [TID_THRCFG.ROLE, TID_THRCFG.WARDEN, TID_THRCFG.COLOUR, TID_THRCFG.RING]
  | .TID_THRCTL => [TID_THRCTL.CLRTRAP, TID_THRCTL.STOP, TID_THRCTL.START]
  | .TID_THRSTAT => [TID_THRSTAT.STATE, TID_THRSTAT.STOPPING, TID_THRSTAT.OUTSTANDING]
  | .TID_ENTRY => [TID_ENTRY.ENTRY]
  | .TID_TRAPPC => [TID_TRAPPC.PC]
  | .TID_TRAPINFO => [TID_TRAPINFO.INSTR, TID_TRAPINFO.CAUSE, TID_TRAPINFO.CODE]
  | .TID_TRAPADDR => [TID_TRAPADDR.ADDR]
  | .CMP_CTL => [CMP_CTL.PEND, CMP_CTL.COMMIT]
  | .CMP_STAT => [CMP_STAT.REJECT, CMP_STAT.VIOL, CMP_STAT.DBG_LOCK, CMP_STAT.WR_REFUSED, CMP_STAT.REJ_ENTRY, CMP_STAT.LIVE]
  | .CMP_EPOCH => [CMP_EPOCH.EPOCH]
  | .CMP_FENCE => [CMP_FENCE.BUSY, CMP_FENCE.START]
  | .CMP_VIOL => [CMP_VIOL.ADDR]
  | .CMP_VINFO => [CMP_VINFO.DEFAULT, CMP_VINFO.OWNER, CMP_VINFO.ENTRY, CMP_VINFO.ACCESS, CMP_VINFO.MASTER, CMP_VINFO.COLOUR]
  | .CMP_START => [CMP_START.START]
  | .CMP_END => [CMP_END.END]
  | .CMP_ATTR => [CMP_ATTR.V, CMP_ATTR.X, CMP_ATTR.W, CMP_ATTR.R, CMP_ATTR.COLOUR]
  | .CMP_LSTART => [CMP_LSTART.START]
  | .CMP_LEND => [CMP_LEND.END]
  | .CMP_LATTR => [CMP_LATTR.V, CMP_LATTR.X, CMP_LATTR.W, CMP_LATTR.R, CMP_LATTR.COLOUR]
  | .POOL_OWN => [POOL_OWN.OWNER]
  | .LN_CTL => [LN_CTL.PSTATE, LN_CTL.RATE, LN_CTL.TX_INV, LN_CTL.RX_INV, LN_CTL.TRAIN_EN, LN_CTL.AUTO_POL]
  | .LN_STAT => [LN_STAT.REJECT, LN_STAT.CAL_FAIL, LN_STAT.CDR_LOCK, LN_STAT.LOCK_LOSS, LN_STAT.TRAIN_DONE, LN_STAT.TRAIN_FAIL, LN_STAT.MARKER_LOCK, LN_STAT.POL_SEEN, LN_STAT.LANE_MIS, LN_STAT.PSTATE_NOW]
  | .LN_TXEQ => [LN_TXEQ.PRE2, LN_TXEQ.PRE1, LN_TXEQ.POST1, LN_TXEQ.AMP]
  | .LN_MAP => [LN_MAP.MAP]
  | .LN_EYECTL => [LN_EYECTL.START, LN_EYECTL.BUSY, LN_EYECTL.ABORT, LN_EYECTL.EYE, LN_EYECTL.PHASE, LN_EYECTL.VOFF, LN_EYECTL.DWELL]
  | .LN_EYERES => [LN_EYERES.COMPARED, LN_EYERES.MISMATCH]
  | .FRM_CTL => [FRM_CTL.TX_EN, FRM_CTL.RX_EN, FRM_CTL.LANE200, FRM_CTL.MAP_COMMIT, FRM_CTL.NM1, FRM_CTL.GID]
  | .FRM_STAT => [FRM_STAT.REJECT, FRM_STAT.IF, FRM_STAT.MAP_PEND]
  | .FRM_GPOS => [FRM_GPOS.SLICE, FRM_GPOS.POS]
  | .FRM_DEF => [FRM_DEF.LATCHED, FRM_DEF.RAISED]
  | .FRM_CPORT => [FRM_CPORT.EN, FRM_CPORT.RATE, FRM_CPORT.CLASS]
  | .FRM_TSMAP => [FRM_TSMAP.USED, FRM_TSMAP.KIND, FRM_TSMAP.PORT, FRM_TSMAP.OWNER]
  | .FRM_TSLIVE => [FRM_TSLIVE.USED, FRM_TSLIVE.KIND, FRM_TSLIVE.PORT, FRM_TSLIVE.OWNER]
  | .FRM_CHSTAT => [FRM_CHSTAT.LATCHED, FRM_CHSTAT.RAISED]
  | .FRM_COOPOS => [FRM_COOPOS.POS7, FRM_COOPOS.POS6, FRM_COOPOS.POS5, FRM_COOPOS.POS4, FRM_COOPOS.POS3, FRM_COOPOS.POS2, FRM_COOPOS.POS1, FRM_COOPOS.POS0]
  | .FRM_L1CTL => [FRM_L1CTL.REJECT, FRM_L1CTL.CMD_DROP, FRM_L1CTL.ROLE]
  | .FRM_L1HOLD => [FRM_L1HOLD.EN, FRM_L1HOLD.BASE_MB]
  | .FRM_L1CMD => [FRM_L1CMD.BUSY, FRM_L1CMD.STATUS, FRM_L1CMD.OP, FRM_L1CMD.SLOT]
  | .FRM_L1DATA => [FRM_L1DATA.DATA]
  | .FRM_UNTRUST => [FRM_UNTRUST.UNTRUSTED]
  | .FRM_DCCCTL => [FRM_DCCCTL.EN, FRM_DCCCTL.TX_INV, FRM_DCCCTL.RX_INV, FRM_DCCCTL.AUTO_POL]
  | .FRM_DCCSTAT => [FRM_DCCSTAT.MARKER_LOCK, FRM_DCCSTAT.POL_SEEN, FRM_DCCSTAT.LANE_MIS, FRM_DCCSTAT.REJECT]
  | .FRM_DSTR => [FRM_DSTR.EN, FRM_DSTR.INS, FRM_DSTR.KIND, FRM_DSTR.GROUP, FRM_DSTR.LO, FRM_DSTR.SLOT]
  | .SCY_CMD => [SCY_CMD.BUSY, SCY_CMD.STATUS, SCY_CMD.OP, SCY_CMD.INDEX]
  | .SCY_STAT => [SCY_STAT.CMD_DROP, SCY_STAT.PN_EVENT, SCY_STAT.SCI_USED]
  | .SCY_DATA => [SCY_DATA.DATA]
  | .LEV_STAT => [LEV_STAT.REJECT, LEV_STAT.DIP, LEV_STAT.LD_PEND, LEV_STAT.WIPE_ARMED, LEV_STAT.PEND, LEV_STAT.LOST]
  | .LEV_STICKY => [LEV_STICKY.FLAG]
  | .LEV_RAW => [LEV_RAW.RAW]
  | .LEV_TEMP => [LEV_TEMP.HI, LEV_TEMP.LO]
  | .LEV_WATCH => [LEV_WATCH.COUNT]
  | .LEV_WTICK => [LEV_WTICK.TICK]
  | .LEV_LOGCNT => [LEV_LOGCNT.TLOG_COUNT]
  | .LEV_LOGRD => [LEV_LOGRD.BUSY, LEV_LOGRD.NEXT, LEV_LOGRD.INDEX]
  | .LEV_LOGDATA0 => [LEV_LOGDATA0.OCTETS]
  | .LEV_LOGDATA1 => [LEV_LOGDATA1.OCTETS]
  | .LEV_SRCCFG => [LEV_SRCCFG.EN, LEV_SRCCFG.RESP, LEV_SRCCFG.KM1, LEV_SRCCFG.W]
  | .LEV_EVCNT => [LEV_EVCNT.EVENTS]
  | .CLK_TICK => [CLK_TICK.TICK]
  | .CLK_TIME0 => [CLK_TIME0.NS, CLK_TIME0.FRAC]
  | .CLK_TIME1 => [CLK_TIME1.SEC]
  | .CLK_SET0 => [CLK_SET0.NS, CLK_SET0.FRAC]
  | .CLK_SET1 => [CLK_SET1.SEC]
  | .CLK_ADJ => [CLK_ADJ.STEP_NS, CLK_ADJ.STEP_FRAC]
  | .CLK_RATE => [CLK_RATE.RATE]
  | .CLK_JUMP => [CLK_JUMP.JUMP]
  | .CLK_CMD => [CLK_CMD.SET, CLK_CMD.ADJ, CLK_CMD.INVAL]
  | .CLK_STAT => [CLK_STAT.VALID, CLK_STAT.REFUSED, CLK_STAT.PPS_SEEN]
  | .CLK_PPS => [CLK_PPS.PPS_OUT_EN, CLK_PPS.WIDTH]
  | .CLK_PPSIN0 => [CLK_PPSIN0.NS, CLK_PPSIN0.FRAC]
  | .CLK_PPSIN1 => [CLK_PPSIN1.SEC]
  | .CLK_PPSTICK => [CLK_PPSTICK.TICK]
  | .CLK_PTP => [CLK_PTP.TS_EN, CLK_PTP.TS_OVF, CLK_PTP.USED]
  | .CLK_DLY => [CLK_DLY.TX_DLY, CLK_DLY.RX_DLY]
  | .CLK_TSA => [CLK_TSA.NS, CLK_TSA.SEC_LO]
  | .CLK_TSB => [CLK_TSB.PRESENT, CLK_TSB.DIR, CLK_TSB.TVALID, CLK_TSB.ONESTEP, CLK_TSB.MSGTYPE, CLK_TSB.DOMAIN, CLK_TSB.SEQID, CLK_TSB.SEC_HI, CLK_TSB.FRAC]
  | .SND_STAT => [SND_STAT.BUSY, SND_STAT.REJECT, SND_STAT.REFUSED, SND_STAT.MISSED, SND_STAT.SAMP_DROP, SND_STAT.QUEUED]
  | .SND_SAMPCTL => [SND_SAMPCTL.EN, SND_SAMPCTL.CAT, SND_SAMPCTL.PSHIFT]
  | .SND_SAMPCORE => [SND_SAMPCORE.CORES]
  | .SND_SRING => [SND_SRING.BASE, SND_SRING.SIZE]
  | .SND_SRIDX => [SND_SRIDX.RD, SND_SRIDX.WR]
  | .SND_SCFG => [SND_SCFG.EN, SND_SCFG.CLEAR, SND_SCFG.DEST, SND_SCFG.SEL, SND_SCFG.ENTRIES, SND_SCFG.PERIOD]
  | .SND_SFIRST => [SND_SFIRST.FIRST]
  | .SND_SLIST => [SND_SLIST.LIST]
  | .SND_RINGBASE => [SND_RINGBASE.RING]
  | .SND_RINGIDX => [SND_RINGIDX.SLOTS, SND_RINGIDX.SLOT_SZ, SND_RINGIDX.RD, SND_RINGIDX.WR]
  | .SND_SSEQ => [SND_SSEQ.SEQ]
  | .SND_TCFG => [SND_TCFG.EN, SND_TCFG.DOWN, SND_TCFG.ARMED, SND_TCFG.HIT, SND_TCFG.SRC, SND_TCFG.INDEX]
  | .SND_THIGH => [SND_THIGH.HIGH]
  | .SND_TLOW => [SND_TLOW.LOW]
  | .SND_TVAL => [SND_TVAL.VALUE]
  | .HIF_CTL => [HIF_CTL.HCOLOUR]
  | .HIF_STAT => [HIF_STAT.REJECT, HIF_STAT.HOST_REF, HIF_STAT.FLASH_BAD, HIF_STAT.PRE_BAD, HIF_STAT.PRE_DONE, HIF_STAT.BAR2_LOG2]
  | .HIF_HERR => [HIF_HERR.ADDR]
  | .HIF_BAR2WIN => [HIF_BAR2WIN.WIN]
  | .HIF_CAUSE => [HIF_CAUSE.CAUSE]
  | .HIF_CAUSEMSK => [HIF_CAUSEMSK.MASK]
  | .HIF_CAUSEVEC => [HIF_CAUSEVEC.VEC]
  | .HIF_RBASE => [HIF_RBASE.BASE]
  | .HIF_CBASE => [HIF_CBASE.BASE]
  | .HIF_RCFG => [HIF_RCFG.EN, HIF_RCFG.LOC, HIF_RCFG.COLOUR, HIF_RCFG.VEC, HIF_RCFG.LOG2SZ]
  | .HIF_RCOAL => [HIF_RCOAL.COAL_US, HIF_RCOAL.COAL_N]
  | .HIF_RSTAT => [HIF_RSTAT.FETCH_ERR, HIF_RSTAT.CPL_ERR, HIF_RSTAT.DB_ERR, HIF_RSTAT.HALTED, HIF_RSTAT.OUTST]
  | .HIF_DB => [HIF_DB.SQ_V, HIF_DB.SQ_TAIL, HIF_DB.CQ_V, HIF_DB.CQ_HEAD]
  | .HIF_RIDX => [HIF_RIDX.SQ_HEAD, HIF_RIDX.PHASE, HIF_RIDX.CQ_TAIL]
  | .HIF_RDROP => [HIF_RDROP.DROPPED]
  | .HIF_MSIXA => [HIF_MSIXA.ADDR]
  | .HIF_MSIXD => [HIF_MSIXD.MASK, HIF_MSIXD.DATA]
  | .HIF_PBA => [HIF_PBA.PENDING]
  | .ELG_CTL => [ELG_CTL.LIMIT]
  | .ELG_STAT => [ELG_STAT.FULL, ELG_STAT.OVF, ELG_STAT.SUPP, ELG_STAT.IDX_ERR, ELG_STAT.REJECT, ELG_STAT.USED]
  | .ELG_IDX => [ELG_IDX.RD, ELG_IDX.WR]
  | .ELG_SEQ => [ELG_SEQ.SEQ]
  | .ELG_BREACH => [ELG_BREACH.RECORDS, ELG_BREACH.RATE, ELG_BREACH.DELIVERY]
  | .ELG_RETPOOL => [ELG_RETPOOL.RET]
  | .ELG_CE => [ELG_CE.COUNT]
  | .ELG_RETPAGE => [ELG_RETPAGE.V, ELG_RETPAGE.PAGE]
  | .ELG_KCNT => [ELG_KCNT.COUNT]
  | .ELG_LOG => [ELG_LOG.OCTETS]

/-- Every register. -/
def Reg.all : List Reg :=
  List.flatten [
    [.GBL_IDENT, .GBL_MODE, .GBL_MODECMD, .GBL_LCCMD, .GBL_PRES, .GBL_RESET, .GBL_POC, .GBL_DEBUG, .GAU_READ, .GAU_PRESET, .GAU_FTICK, .GAU_FPER],
    [.GAU_STAT, .GAU_SNAP, .GAU_FAR, .GAU_SNAPFAR, .GAU_RECORD, .GAU_SNAPCTL, .GAU_EVFREE, .RC_CTL, .RC_STAT, .RC_FLAG, .RC_FLAGG, .WEI_GRP_CFG],
    [.WEI_POOL_STAT, .WEI_FAILCLR, .WEI_SAMPLE, .WEI_STAT, .WEI_LEASE, .WEI_CARD, .WEI_CARDGRANT, .WEI_TETHCTL, .WEI_TETHSTAT, .WEI_MIRROR, .SPR_PGOWN, .SPR_STAT],
    [.KST_CMD, .KST_STAT, .KST_DATA, .KST_CISTAT, .KST_DEVID, .PKE_STAT, .DLT_CMD, .DLT_STAT, .DLT_POS, .DLT_HSEED, .DLT_DATA0, .DLT_DATA1],
    [.DLT_AGE, .DLT_USED, .DLT_PORT, .DLT_PDEF, .BSN_CMD, .BSN_STAT, .BSN_OBJ, .BSN_DATA, .BSN_POOL, .BSN_SHARED, .BSN_FREE, .BSN_LOST],
    [.BSN_FIFO, .BSN_RES, .CUL_CTL, .CUL_STAT, .CUL_SCRUB, .CUL_BW, .CUL_RNG, .CUL_RTREE, .CUL_RSTAT, .TID_ICINV, .TID_RESET, .TID_STAT],
    [.TID_SODIGLO, .TID_SODIGHI, .TID_SOINFO, .TID_EVQ, .TID_TRAPSUM, .TID_THRCFG, .TID_THRCTL, .TID_THRSTAT, .TID_ENTRY, .TID_TRAPPC, .TID_TRAPINFO, .TID_TRAPADDR],
    [.CMP_CTL, .CMP_STAT, .CMP_EPOCH, .CMP_FENCE, .CMP_VIOL, .CMP_VINFO, .CMP_START, .CMP_END, .CMP_ATTR, .CMP_LSTART, .CMP_LEND, .CMP_LATTR],
    [.POOL_OWN, .LN_CTL, .LN_STAT, .LN_TXEQ, .LN_MAP, .LN_EYECTL, .LN_EYERES, .FRM_CTL, .FRM_STAT, .FRM_GPOS, .FRM_DEF, .FRM_CPORT],
    [.FRM_TSMAP, .FRM_TSLIVE, .FRM_CHSTAT, .FRM_COOPOS, .FRM_L1CTL, .FRM_L1HOLD, .FRM_L1CMD, .FRM_L1DATA, .FRM_UNTRUST, .FRM_DCCCTL, .FRM_DCCSTAT, .FRM_DSTR],
    [.SCY_CMD, .SCY_STAT, .SCY_DATA, .LEV_STAT, .LEV_STICKY, .LEV_RAW, .LEV_TEMP, .LEV_WATCH, .LEV_WTICK, .LEV_LOGCNT, .LEV_LOGRD, .LEV_LOGDATA0],
    [.LEV_LOGDATA1, .LEV_SRCCFG, .LEV_EVCNT, .CLK_TICK, .CLK_TIME0, .CLK_TIME1, .CLK_SET0, .CLK_SET1, .CLK_ADJ, .CLK_RATE, .CLK_JUMP, .CLK_CMD],
    [.CLK_STAT, .CLK_PPS, .CLK_PPSIN0, .CLK_PPSIN1, .CLK_PPSTICK, .CLK_PTP, .CLK_DLY, .CLK_TSA, .CLK_TSB, .SND_STAT, .SND_SAMPCTL, .SND_SAMPCORE],
    [.SND_SRING, .SND_SRIDX, .SND_SCFG, .SND_SFIRST, .SND_SLIST, .SND_RINGBASE, .SND_RINGIDX, .SND_SSEQ, .SND_TCFG, .SND_THIGH, .SND_TLOW, .SND_TVAL],
    [.HIF_CTL, .HIF_STAT, .HIF_HERR, .HIF_BAR2WIN, .HIF_CAUSE, .HIF_CAUSEMSK, .HIF_CAUSEVEC, .HIF_RBASE, .HIF_CBASE, .HIF_RCFG, .HIF_RCOAL, .HIF_RSTAT],
    [.HIF_DB, .HIF_RIDX, .HIF_RDROP, .HIF_MSIXA, .HIF_MSIXD, .HIF_PBA, .ELG_CTL, .ELG_STAT, .ELG_IDX, .ELG_SEQ, .ELG_BREACH, .ELG_RETPOOL],
    [.ELG_CE, .ELG_RETPAGE, .ELG_KCNT, .ELG_LOG]]

/-- BAR0 offset of instance `(i, j)` of a register (R719). -/
def Reg.off (r : Reg) (i j : Nat) : Nat :=
  r.place.base + i * r.place.stride1 + j * r.place.stride2

/-- The instance of `r` that holds the octet at offset `o`, and the octet's place inside it. -/
def Reg.locate? (r : Reg) (o : Nat) : Option (Reg × Nat × Nat × Nat) :=
  let p := r.place
  if o < p.base then none else
  let d := o - p.base
  let i := d / p.stride1
  let e := d % p.stride1
  let j := e / p.stride2
  let b := e % p.stride2
  if i < p.count1 ∧ j < p.count2 ∧ b < p.octets then some (r, i, j, b) else none

/-- The register that holds the octet at a BAR0 offset; none at an unlisted offset (R709). -/
def Reg.locate (o : Nat) : Option (Reg × Nat × Nat × Nat) :=
  Reg.all.findSome? (fun r => r.locate? o)

/-- Mask of a field's bits. -/
def Field.mask (f : Field) : Nat := (2 ^ (f.hi + 1 - f.lo) - 1) * 2 ^ f.lo

/-- Mask of the bits of a register that no field covers (reserved, R11). -/
def Reg.rsvdMask (r : Reg) : Nat :=
  (2 ^ (8 * r.place.octets) - 1) - (r.fields.map Field.mask).foldl (· + ·) 0

/-- EN, K − 1 and W of Levee source `s` at always-on power-up (R583). -/
def levSrcReset (s : Nat) : Nat × Nat × Nat :=
  if s ≤ 3 then (1, 1, 8)
  else if s = 8 ∨ s = 9 then (1, 2, 128)
  else if s = 10 then (1, 1, 128)
  else if s = 11 then (0, 1, 64)
  else (1, 0, 1)

/-- The reset value of instance `(i, j)` of a register: the sum of its fields' reset values; SPR_PGOWN1 opens with
EN 1 and OWNER 9 (R274), LEV_SRCCFGs with the values of R583. -/
def Reg.resetValue (r : Reg) (i : Nat) : BitVec 64 :=
  match r with
  | .SPR_PGOWN => if i = 1 then 0x80000009#64 else 0#64
  | .LEV_SRCCFG =>
    let c := levSrcReset i
    BitVec.ofNat 64 (c.1 * 2 ^ 31 + c.2.1 * 2 ^ 20 + c.2.2)
  | r => BitVec.ofNat 64 (r.fields.foldl (fun a f => a + f.rst * 2 ^ f.lo) 0)

end Sys2Proof.Machine
end

