-- ==== Sys2Proof/Machine/Parts.lean ====
section
/-! DEFINITION. The parts of the state that are not registers of the register map: one structure for each block, all
plain data. Registers of the map (RO status fields included) have their one home in `State.regs`. -/

namespace Sys2Proof.Machine

/-! ### Counters, log, outputs -/

/-- A 48-bit counter with its sticky WRAPPED bit (R652, R656). -/
structure Ctr where
  n : BitVec 48 := 0
  wrapped : Bool := false
  deriving DecidableEq, Repr

/-- A report held until those of its cycle are in order (R698): KIND, DETAIL, the group it names, its Gauge reading. -/
structure Report where
  kind : Nat
  detail : Nat
  group : Nat
  gauge : Word
  deriving DecidableEq, Repr

/-- What the error log keeps beside its registers and slots (R698 to R700). -/
structure LogState where
  /-- newest record of each kind: slot and window (R698) -/
  newest : Tbl (Nat × Nat) := []
  /-- records of each kind written in a window: window and number (R699) -/
  written : Tbl (Nat × Nat) := []
  /-- reports suppressed, by kind (R699) -/
  suppressed : Tbl Nat := []
  /-- kinds whose record of kind 0xF1 is due (R699) -/
  due : List Nat := []
  /-- reports not written while the log was full (R700) -/
  fullCount : Nat := 0
  /-- the last 16 word indices corrected, by memory type, newest first (R696) -/
  corrected : Tbl (List Nat) := []
  /-- the reports of the cycle under way in ascending KIND and DETAIL, none outside one (R698) -/
  held : Option (List Report) := none
  deriving DecidableEq, Repr

/-- The trust state of a frame's plaintext (R165). -/
inductive Trust where
  | unverified
  | verified
  | confirmed
  deriving DecidableEq, Repr

/-- A lane of a word (R103, R134): its octets, empty when its bit of LV is 0; its bits of SOF, EOF and TAGL; its OK bit. -/
structure Lane where
  octets : Octets := []
  sof : Bool := false
  eof : Bool := false
  tagl : Bool := false
  ok : Bool := true
  deriving DecidableEq, Repr

/-- A word that a Race hands to the Sluice (R134): one channel, six lanes, lane 0 first. -/
structure SluiceWord where
  chan : Nat
  lanes : List Lane
  lepoch : Nat
  deriving DecidableEq, Repr

/-- What a tributary slot carries toward the line (R564, R567). -/
inductive SlotSignal where
  /-- the slot is unused in the live map -/
  | zero
  /-- ODU-OCI: a packet channel with no enabled level-3 node -/
  | oci
  /-- the idles of a packet channel whose group has no lease or whose card lease is not held -/
  | idles
  /-- frames of the channel -/
  | frames (channel : Nat)
  deriving DecidableEq, Repr

/-- What the block has put out on its lines, links, pins and host bus. The record of outputs is the model's own. -/
inductive Output where
  /-- an MSI-X message of a vector (R685) -/
  | msix (vec : Nat)
  /-- a posted write to host memory (R677, R662) -/
  | hostWrite (addr : Nat) (data : Octets)
  /-- completion of a read by a master: the data, or none for a failed read (R675) -/
  | readReply (m : Master) (data : Option Octets)
  /-- octets of a secured or stomped frame toward the line on a channel, with the FCS good or stomped (R85, R206) -/
  | lineFrame (channel : Nat) (octets : Octets) (fcsGood : Bool)
  /-- octets of a secured frame ended by an error control block on a channel (R566) -/
  | lineError (channel : Nat) (octets : Octets)
  /-- a frame toward a client port, with the FCS good or stomped (R34, R212) -/
  | clientFrame (port : Nat) (octets : Octets) (fcsGood : Bool)
  /-- a word of a Race that the Sluice of a group has passed in a direction (R134) -/
  | sluice (group : Nat) (dir : Dir) (word : SluiceWord)
  /-- an ODU frame of an L1 channel toward the line: its overhead, columns 1 to 16 of rows 1 to 4, row by row, and its
  payload (R142, R143, R151, R36) -/
  | oduFrame (channel : Nat) (overhead : Octets) (payload : Octets)
  /-- the maintenance signal ODU-AIS in place of a frame of a channel (R175, R177) -/
  | oduAis (channel : Nat)
  /-- the maintenance signal ODU-OCI in place of a frame of a channel (R177) -/
  | oduOci (channel : Nat)
  /-- an Ethernet frame toward the client of an L1 channel that ends with a stomped FCS: its octets and that FCS (R168,
  R169, R172) -/
  | clientStomp (channel : Nat) (octets : Octets)
  /-- the plaintext of an ODU frame toward the client of a channel, with its count and its trust state on release; a
  frame cut off ends early and the local-fault sequence takes the place of the rest (R165, R168) -/
  | clientOdu (channel : Nat) (count : Nat) (trust : Trust) (payload : Octets)
  /-- a released frame becomes Verified, or the 256 frames of a multiframe that begins with a count become Confirmed
  (R165) -/
  | oduTrust (channel : Nat) (count : Nat) (trust : Trust)
  /-- the local-fault sequence toward the client of a channel (R159, R172) -/
  | localFault (channel : Nat)
  /-- what the Gauge puts into a frame of a group's OTUCn: the MFAS, and the octet of the Gauge word at its slice and
  position (R46, R64, R569) -/
  | gaugeOctet (group : Nat) (mfas : Byte) (slice position : Nat) (octet : Byte)
  /-- the live slot map of a group as the MSI of its OPUCn carries it from a multiframe start on (R563) -/
  | msi (group : Nat) (slots : List Word)
  /-- what each tributary slot of a group's OPUCn carries in a frame (R567) -/
  | slots (group : Nat) (signals : List SlotSignal)
  /-- a Tether record (R311) -/
  | tether (octets : Octets)
  /-- a TSS block of a DCC port (R571) -/
  | dccRecord (port : Nat) (octets : Octets)
  /-- overhead octets inserted toward the line (R572) -/
  | gccInsert (group stream : Nat) (octets : Octets)
  /-- the PPS_OUT pin changes level (R645) -/
  | ppsOut (level : Bool)
  /-- Culvert's answer to a port: requester code of R695, the data read (empty for a write), none for a bus error -/
  | culvert (requester : Nat) (data : Option Octets)
  /-- the first three payload octets of the idle blocks that a lane sends in training (R539) -/
  | training (lane : Nat) (octets : Octets)
  /-- the scrambled blocks that carry a record on a TSS link, 17 octets each (R543, R544, R548, R571) -/
  | tssBlocks (link : Nat) (blocks : List Octets)
  deriving DecidableEq, Repr

/-! ### Gauges and the event unit (chapter 02) -/

/-- The receiver of a Far Gauge word (R65 to R67); the reading and the lock are registers. -/
structure FarRx where
  /-- multiframe number of the valid word of the multiframe just received, if it was valid -/
  lastValid : Option Nat := none
  /-- consecutive valid words that disagreed with the Far Gauge -/
  disagree : Nat := 0
  /-- reading of the Far Gauge at the octet of the last word, while it was locked -/
  wordAt : Option Word := none
  deriving DecidableEq, Repr

/-- An ATG block: where it runs and what it gets (R336). -/
structure AtgBlock where
  /-- the resolved selector it was scheduled on -/
  sel : Nat
  core : Nat
  warden : Bool
  colour : Nat
  pc : Word
  arg : Word
  target : Word
  /-- the cycle in which it became due (R56) -/
  dueAt : Nat := 0
  deriving DecidableEq, Repr

/-- What a place of the event unit holds (R57). -/
inductive EventKind where
  | atg (b : AtgBlock)
  | dump (schedule : Nat)
  deriving DecidableEq, Repr

/-- A pending event: its resolved selector (R59, R60), its target reading, and what it starts. -/
structure PendEvent where
  sel : Nat
  target : Word
  kind : EventKind
  deriving DecidableEq, Repr

/-- Gauge-side state that is no register. -/
structure LineState where
  far : Tbl FarRx := []
  /-- pending events, in the order in which they were scheduled (R56) -/
  events : List PendEvent := []
  /-- Tick of the first octet of the last multiframe of the epoch, by group (R63) -/
  mfTick : Tbl (Option Nat) := []
  deriving DecidableEq, Repr

/-! ### Tide (chapters 09 and 10) -/

/-- A tag of a thread (R332). -/
inductive Tag where
  | idle
  | outstanding
  | done (word : Word)
  deriving DecidableEq, Repr

/-- What holds a thread at an instruction (R374, R382, R383). -/
inductive Hold where
  | none
  | fence
  /-- FENCE.C: the destination register and the rule epoch current at issue -/
  | fenceC (rd : Nat) (epoch : Nat)
  /-- RESEAL: the destination register and the address -/
  | reseal (rd : Nat) (addr : Word)
  /-- END, waiting for the thread's operations: the job status -/
  | ending (status : Nat)
  /-- WAITC on a tag -/
  | waitc (rd tag : Nat)
  /-- WAITC.ANY -/
  | waitcAny (rd : Nat)
  /-- WAITG: destination register -/
  | waitg (rd : Nat)
  /-- STOP or CLRTRAP waits for outstanding operations (R350, R359, R360) -/
  | stopping
  deriving DecidableEq, Repr

/-- The job of a thread (R365). -/
inductive Job where
  | none
  | free
  | ring (ring slot tag : Nat)
  | handler (cls idx gen limit : Nat) (start : Nat)
  | atg
  deriving DecidableEq, Repr

/-- A Tide thread: what is not in its registers of the map. -/
structure Thread where
  g : Tbl Word := []
  pc : Word := 0
  tags : Tbl Tag := []
  /-- tags that are done, in the order in which they became done (R389) -/
  doneOrder : List Nat := []
  /-- the WAITG comparator: resolved selector and target, while armed (R57) -/
  cmp : Option (Nat × Word) := none
  job : Job := .none
  /-- privilege and colour of the job (R336, R345) -/
  warden : Bool := false
  colour : Nat := 9
  hold : Hold := .none
  deriving DecidableEq, Repr

/-- An engine operation in flight (R331 to R333, R387). -/
structure EngineOp where
  thread : Nat
  tag : Nat
  /-- ENGINE code of R387 -/
  engine : Nat
  /-- OP, FLAGS and OBJECT of the descriptor, and its BODY -/
  desc : Octets
  /-- colour of the issuing thread's accesses -/
  colour : Nat
  warden : Bool
  /-- output data, set when the engine has acted -/
  out : Octets := []
  /-- RESULT, AREA and STATUS, set when the engine has acted -/
  result : Nat := 0
  area : Nat := 0
  status : Nat := 0
  /-- the engine has acted -/
  acted : Bool := false
  /-- the completion is discarded (R349, R354) -/
  discard : Bool := false
  /-- the objects of Delta and Basin that it concerns: kind and number (R24) -/
  objects : List (Nat × Nat) := []
  /-- a KDER operation: its Spring page, and whether it runs (R261, R263) -/
  page : Nat := 0
  running : Bool := false
  deriving DecidableEq, Repr

/-- A command of the host's register path that has acted and waits for earlier operations of threads on its objects
(R24, R392): their threads and tags, and what the registers get when it completes. -/
structure HeldCmd where
  objects : List (Nat × Nat)
  waits : List (Nat × Nat)
  status : Nat
  image : Option (List Word) := none
  pos : Option Nat := none
  deriving DecidableEq, Repr

/-- An entry of the Standing Orders table (R337). -/
structure SoEntry where
  cls : Nat
  flags : Nat
  colour : Nat
  limit : Nat
  indexLo : Nat
  indexHi : Nat
  cores : Nat
  pc : Word
  arg : Word
  deriving DecidableEq, Repr

/-- A record of the event queue (R344, R345). -/
structure EventRec where
  cls : Nat
  idx : Nat
  count : Nat
  /-- the Gauge of record's reading when the event was raised -/
  reading : Word
  g5 : Word
  entry : SoEntry
  /-- image generation under which it was raised (R340) -/
  gen : Nat
  deriving DecidableEq, Repr

/-- Events of a class that found the event queue full (R344): their number, and the entry and image under which their
record will be dispatched. -/
structure OvfEvents where
  count : Nat
  entry : SoEntry
  gen : Nat
  deriving DecidableEq, Repr

/-- A line of a core's cache: its address divided by 64, and its 64 octets (R328). -/
structure CacheLine where
  line : Nat
  octets : Octets
  deriving DecidableEq, Repr

/-- The Tide block. -/
structure TideState where
  threads : Tbl Thread := []
  ops : List EngineOp := []
  orders : List SoEntry := []
  queue : List EventRec := []
  /-- overflowed events, by class (R344) -/
  ovf : Tbl (Option OvfEvents) := []
  /-- due ATG blocks held for an Idle EVENT thread: the block and the reading at which it became due (R16, R336) -/
  due : List AtgBlock := []
  /-- thread of each core that its issue slot was last charged to, 0 to 7 (R323, R665) -/
  turn : Tbl Nat := []
  /-- instruction and data caches, by core (R328) -/
  icache : Tbl (List CacheLine) := []
  dcache : Tbl (List CacheLine) := []
  deriving DecidableEq, Repr

/-! ### Culvert and the interconnect (chapters 13 and 14) -/

/-- What Culvert holds for a range beside its registers. -/
structure RangeState where
  /-- subkeys k1, k2, k3, empty while the range is disabled (R471) -/
  k1 : Octets := []
  k2 : Octets := []
  k3 : Octets := []
  /-- highest counter value ever written in the range since power-on (R486, R492) -/
  hwm : Nat := 0
  /-- counter values set over whole subtrees by initialisation and RESEAL, newest first: level, first sector, sector
  after the last, value (R486, R492) -/
  init : List (Nat × Nat × Nat × Nat) := []
  /-- which free contents a Confidential range has since its last enable (R492) -/
  fill : Nat := 0
  /-- write counters of sectors written since, by sector within the range, kept as counter + 1 (R476) -/
  ctr : Tbl Nat := []
  /-- node counters advanced since, by level × 2^28 + node index, kept as counter + 1 (R476) -/
  node : Tbl Nat := []
  /-- damaged nodes, oldest first: level and index (R485) -/
  damaged : List (Nat × Nat) := []
  /-- EN was cleared and accesses already accepted are still completing (R493) -/
  closing : Bool := false
  deriving DecidableEq, Repr

/-- Culvert. -/
structure CulvertState where
  /-- raw words of the sectors written since their range was enabled, 32 words of 80 bits each (R467) -/
  sectors : Tbl (List (BitVec 80)) := []
  ranges : Tbl RangeState := []
  /-- the poison table: sector numbers, oldest first (R479, R481) -/
  poison : List Nat := []
  /-- next sector the scrubber reads (R488) -/
  scrub : Nat := 0
  /-- words corrected since the scrubber's last pass over them, as sector × 32 + word (R483) -/
  corrected : List Nat := []
  /-- octets of R495 counted in the present bandwidth window (R501) -/
  windowSum : Nat := 0
  deriving DecidableEq, Repr

/-- A change of the rules held under R516. -/
inductive HeldChange where
  | commit
  | handover (pool colour : Nat)
  deriving DecidableEq, Repr

/-- The interconnect's rule epochs (R514 to R516). -/
structure AccessState where
  /-- older epochs with accesses still in flight, oldest first -/
  live : List Nat := []
  held : Option HeldChange := none
  /-- the epoch current when the host fence was started (R515) -/
  fence : Option Nat := none
  deriving DecidableEq, Repr

/-! ### Levee (chapter 17) -/

/-- An alarm waiting for the response point (R587, R590, R593). -/
structure Alarm where
  src : Nat
  /-- RESP in force in the cycle of its last event -/
  resp : Nat
  detail : Nat
  watch : Nat
  deriving DecidableEq, Repr

/-- A tamper record before it is written (R599): WATCH, TYPE, FLAGS, MODE, DETAIL. -/
structure TamperRec where
  watch : Nat
  typ : Nat
  flags : Nat
  mode : Nat
  detail : Nat
  deriving DecidableEq, Repr

/-- The Levee. -/
structure LeveeState where
  /-- Watch counts of each source's events since its last alarm, newest first (R587) -/
  recent : Tbl (List Nat) := []
  alarms : List Alarm := []
  /-- the record buffer, oldest first (R600) -/
  buffer : List TamperRec := []
  /-- the mesh pattern registers MESH0 to MESH3 (R584) -/
  lfsr : Tbl (BitVec 32) := []
  /-- the Watch runs on the internal oscillator, its crystal stopped (R732) -/
  oscillator : Bool := false
  /-- the always-on domain runs from VBAT (R726) -/
  cell : Bool := false
  deriving DecidableEq, Repr

/-! ### Sounding (chapter 20) -/

/-- A dump that waits for the engine (R659): its schedule, and the resolved selector and target it was scheduled with. -/
structure DumpReq where
  sched : Nat
  sel : Nat
  target : Word
  late : Bool
  /-- it became due while the engine was busy or others waited -/
  waited : Bool
  /-- the cycle in which it became due (R56, R659) -/
  dueAt : Nat := 0
  deriving DecidableEq, Repr

/-- The dump that runs (R660 to R663): what its header needs of the snapshot cycle, where its slot lies, and its counters
in list order, table counters not yet read. -/
structure DumpRun where
  req : DumpReq
  snap : Word
  tick : Word
  /-- VALID, and network time in units of 2^−16 ns -/
  timeValid : Bool
  time : Nat
  clear : Bool
  host : Bool
  slot : Nat
  items : List (Nat × Option Word)
  deriving DecidableEq, Repr

/-- A sample taken in a counted slot and not yet written (R666, R667): Tick, PC, thread, category, and the Gauge of record's
reading. -/
structure SlotRec where
  tick : Word
  pc : Word
  thread : Nat
  cat : Nat
  reading : Word
  deriving DecidableEq, Repr

/-- The Sounding engine. -/
structure SoundState where
  queue : List DumpReq := []
  running : Option DumpRun := none
  /-- dumps missed since the last published one, by schedule (R661) -/
  missed : Tbl Nat := []
  /-- a dump that cleared counters was abandoned since the last header, by schedule (R662) -/
  abandoned : Tbl Bool := []
  /-- dumps published since EN was last set, by schedule (R663) -/
  published : Tbl Nat := []
  /-- slots of the category sampled since the last sample, by core (R666) -/
  slots : Tbl Nat := []
  /-- the sample of a core that waits to be written (R667) -/
  samples : Tbl (Option SlotRec) := []
  deriving DecidableEq, Repr

/-! ### Races, the Weir and Eddy (chapters 04 and 08) -/

/-- What a Race wakes for (R29, R131, R298, R307, R748). -/
inductive Wake where
  | none
  /-- named by a group's WEI_GRP_CFGn -/
  | start (g : Nat)
  /-- replacement in a group's fail-over -/
  | replace (g : Nat)
  /-- joiner of a Twin group -/
  | join (g : Nat)
  deriving DecidableEq, Repr

/-- Disputes of a Race that have not been judged yet (R120, R293). -/
structure Dispute where
  /-- a block of the direction has been withheld: nothing more passes there -/
  egress : Bool := false
  ingress : Bool := false
  /-- disputes sent that the Weir has not received -/
  sent : Nat := 0
  /-- the Weir has received one -/
  received : Bool := false
  /-- contents of RC_FLAGk that the first of them carried (R120) -/
  flag : Word := 0
  deriving DecidableEq, Repr

/-- The copy of a block that a Race has sent to the reference pipeline (R123). -/
structure Sample where
  race : Nat
  dir : Nat
  /-- key handle, IV and counter of the block -/
  handle : Nat
  iv : Octets
  ctr : Nat
  input : Octets
  output : Octets
  deriving DecidableEq, Repr

/-- The keystream of a frame (R101, R108, R110): its IV, the lane of its first octet, the octets before its first
protected one, its keystream blocks with E(K, J0) as the last, and how many of them have been written to the FIFO. -/
structure Stream where
  iv : Octets := []
  lane : Nat := 0
  clear : Nat := 0
  total : Nat := 0
  ready : Nat := 0
  deriving DecidableEq, Repr

/-- A Race: what is not in its registers. -/
structure Race where
  wake : Wake := .none
  /-- STATE to which a Testing Race returns (R133) -/
  back : Nat := 0
  /-- a test ordered since the mark in FAILED has passed (R309) -/
  tested : Bool := false
  /-- the Race has been revoked and its power gate is still open (R286) -/
  gateOpen : Bool := false
  /-- blocks since the last sample, egress and ingress (R123) -/
  since0 : Nat := 0
  since1 : Nat := 0
  /-- reading of the last sample that matched, egress and ingress (R295) -/
  match0 : Option Word := none
  match1 : Option Word := none
  /-- reading of the grant under which the Race began serving (R295) -/
  granted : Word := 0
  dispute : Option Dispute := none
  /-- lease epoch that the Race stamps on its words (R134, R283) -/
  lepoch : Nat := 0
  /-- Tick at which RC_FLAGk captured a flag (R124) -/
  flagTick : Nat := 0
  deriving DecidableEq, Repr

/-- An entry of a delivery ring (R291), with how far its frame has come. -/
structure RingEntry where
  queue : Nat
  sa : Nat
  pn : Nat
  chan : Nat
  /-- the frame's cells with their generations, first cell first (R431) -/
  cells : List (Nat × Nat)
  /-- client length and charged length -/
  len : Nat
  charged : Nat
  /-- the SecTAG that SecY inserts and the confidentiality offset, as they stood when the IV descriptor was issued at
  dequeue (R196, R205, R206) -/
  tag : Octets := []
  offset : Nat := 0
  /-- the Race has accepted the IV descriptor, with the key it read (R107) -/
  key : Option Octets := none
  /-- the frame's IV, formed with its descriptor, and its keystream (R108) -/
  ks : Stream := {}
  /-- lanes of the secured frame that have passed the Sluice, and the unit whose GHASH product a checker has flagged
  (R114, R118) -/
  passed : Nat := 0
  ghash : Option Nat := none
  /-- the client frame, once Basin has read its cells (R445) -/
  data : Option Octets := none
  /-- it has been sent before (R85) -/
  resent : Bool := false
  deriving DecidableEq, Repr

/-- An L1 entry of a checkpoint (R290). -/
structure CkptL1 where
  chan : Nat
  /-- next transmit ODU frame count -/
  count : Nat
  txEpoch : Nat
  rxEpoch : Nat
  /-- the lock flags: CNT_LOCK of the channel, and whether its ODUflex is in frame -/
  locked : Bool
  inFrame : Bool
  deriving DecidableEq, Repr

/-- A checkpoint copy (R289, R290). -/
structure Ckpt where
  group : Nat
  frame : Nat
  sequence : Nat
  writer : Nat
  lepoch : Nat
  l1 : List CkptL1 := []
  /-- PN marks: receive, SA, low 45 bits -/
  pn : List (Bool × Nat × Nat) := []
  /-- CRC-32 over the copy -/
  crc : Nat := 0
  /-- writer and LEPOCH passed R287 when it was written -/
  valid : Bool := true
  deriving DecidableEq, Repr

/-- A packet ingress frame between the decrypt input and the client (R301, R302). -/
structure InFrame where
  chan : Nat
  /-- the secured frame, destination address through FCS -/
  octets : Octets
  /-- receive SA and recovered PN, once steps 1 to 6 of R208 have passed -/
  sa : Nat := 0
  pn : Nat := 0
  /-- below the lowest acceptable PN with REPLAY = 0 (R210) -/
  delayed : Bool := false
  /-- the key the Race read with the frame's IV descriptor (R107) -/
  key : Option Octets := none
  /-- the confidentiality offset of its SecY, and the frame's IV, formed with its descriptor, with its keystream (R108,
  R206) -/
  offset : Nat := 0
  ks : Stream := {}
  /-- lanes that have passed the Race, and the unit whose GHASH product a checker has flagged (R114, R118) -/
  passed : Nat := 0
  ghash : Option Nat := none
  deriving DecidableEq, Repr

/-- The long-tag accumulator of a multiframe (R154): key, IV of frame 0, GHASH so far, frames taken. -/
structure MfAcc where
  key : Octets
  iv : Octets
  y : Nat
  n : Nat
  deriving DecidableEq, Repr

/-- Where a group stands in a fail-over (R298, R307). -/
inductive Phase where
  | none
  /-- a dispute has arrived and a replacement may wake -/
  | waking
  /-- the lease is revoked and the group shelters (steps 3 to 6) -/
  | revoked
  /-- the replacement has loaded the checkpoint (step 6) -/
  | loaded
  /-- the lease is granted again; the recovery window is open (step 7 to 8) -/
  | granted
  deriving DecidableEq, Repr

/-- What the Weir holds for a group. -/
structure WeirGroup where
  /-- Tick of the last grant or renewal (R284) -/
  term : Nat := 0
  /-- after a lapse the grant waits for a new Gauge epoch (R283) -/
  epochOnly : Bool := false
  phase : Phase := .none
  /-- Gauge reading at which the gap began, and channels not served (R308) -/
  gapFrom : Word := 0
  /-- the two checkpoint copies, newer first -/
  copies : List Ckpt := []
  sequence : Nat := 0
  /-- PN marks of the frame that runs -/
  marks : List (Bool × Nat × Nat) := []
  ring : List RingEntry := []
  /-- channels of a Twin group that have not joined yet -/
  unjoined : List Nat := []
  /-- join entries by channel: the accumulator at the last ODU frame boundary and the count of that frame (R288, R307) -/
  join : Tbl (Nat × Option MfAcc) := []
  /-- frames in the retain ring, oldest first (R301) -/
  retain : List InFrame := []
  /-- frames dropped at the shelter input and not yet recorded: channel, SA, frames, octets (R90, R94) -/
  drops : List (Nat × Nat × Nat × Nat) := []
  deriving DecidableEq, Repr

/-- The Weir. -/
structure WeirState where
  groups : Tbl WeirGroup := []
  /-- the group that Eddy shelters, and its frames, oldest first (R302) -/
  eddy : Option Nat := none
  shelter : List InFrame := []
  /-- copies in the reference pipelines, oldest first (R123, R294) -/
  samples : List Sample := []
  /-- frames that found the ingress hold buffer full, by channel (R35) -/
  holdDrops : Tbl Nat := []
  /-- highest card epoch accepted, and the Tick of the last grant or renewal (R310) -/
  cardEpoch : Option Nat := none
  cardTick : Nat := 0
  /-- highest CARD_EPOCH seen in a mirror record, and GAUGE of the record stored for a group (R312) -/
  mirrorEpoch : Nat := 0
  mirrorGauge : Tbl (Option (Nat × Word)) := []
  deriving DecidableEq, Repr

/-! ### Keys (chapter 07) -/

/-- A slot of the key store: key material and attribute word (R244, R245), the PEER of a link root (R268) and the CAK
slot under which a SAK was written (R257). -/
structure KeySlot where
  key : Octets := []
  use : Nat := 0
  parent : Nat := 0
  epoch : Nat := 0
  gen : Nat := 0
  valid : Bool := false
  resetExp : Bool := false
  useEn : Bool := false
  /-- KLEN: 128 bits -/
  short : Bool := false
  peer : Nat := 0
  cak : Option Nat := none
  deriving DecidableEq, Repr

/-- A handshake session of the PKE (R268, R269). -/
structure Session where
  initiator : Bool
  /-- the SESSION field -/
  session : Nat
  /-- link-root slot -/
  slot : Nat
  /-- the peer's identity, once known -/
  peer : Nat := 0
  /-- identity of the initiator -/
  iId : Nat
  /-- ML-KEM decapsulation key and P-384 scalar of the initiator -/
  dk : Octets := []
  scalar : Octets := []
  /-- the whole INIT and RESP -/
  init : Octets
  resp : Octets := []
  /-- root and confirmation key, held by the responder -/
  root : Octets := []
  kconf : Octets := []
  /-- handle of the Unrex authentication key -/
  auth : Nat
  opened : Word
  deriving DecidableEq, Repr

/-- A key-store command that waits for the end of a supply dip (R260). -/
inductive HeldKst where
  | destroy
  | orphan
  | setuse
  | ctrInc
  deriving DecidableEq, Repr

/-- A register page of Spring: its two buffers, and the descriptor and status of its operation (R261). -/
structure SpringPage where
  input : Octets := []
  output : Octets := []
  desc : Octets := []
  status : Nat := 0
  deriving DecidableEq, Repr

/-- The key domain. -/
structure KeyState where
  /-- slots by CLASS × 2^24 + INDEX (R241, R242); GEN is kept less the advances of its whole class -/
  slots : Tbl KeySlot := []
  /-- advances of GEN made by every slot of a class at once, empty ones included (R629) -/
  turns : Tbl Nat := []
  /-- a KST_CMD operation waits for its sweep (R256, R276) -/
  kstWaits : Bool := false
  /-- a KST_CMD operation held by a supply dip -/
  held : Option HeldKst := none
  /-- page that Spring served last (R263) -/
  lastPage : Nat := 0
  /-- SPR_PGOWNk still in force while the page's operation runs (R262) -/
  oldOwner : Tbl Word := []
  sessions : Tbl (Option Session) := []
  /-- pages 0 to 15 of Spring (R261) -/
  pages : Tbl SpringPage := []
  /-- seed of the commissioning key pair, empty before start-up has derived it (R237) -/
  cekSeed : Octets := []
  deriving DecidableEq, Repr

/-- A CAK record of the Cistern (R234). -/
structure CakRec where
  short : Bool
  cknLen : Nat
  ckn : Octets
  wrapped : Octets
  /-- uncorrectable: unusable until a new import writes it (R278) -/
  bad : Bool := false
  deriving DecidableEq, Repr

/-- The domain record of the Cistern (R234). -/
structure DomainRec where
  domainId : Octets
  wrapped : Octets
  bad : Bool := false
  deriving DecidableEq, Repr

/-- The Cistern core (R234). -/
structure Cistern where
  domain : Option DomainRec := none
  caks : Tbl (Option CakRec) := []
  /-- monotonic counters 0 to 63 (R235) -/
  counters : Tbl Nat := []
  /-- tamper log: 1,024 records of 16 octets -/
  tamper : Tbl Octets := []
  /-- tamper records written since the part left the factory (R271) -/
  tamperCount : Nat := 0
  deriving DecidableEq, Repr

/-! ### Host interface (chapter 21) -/

/-- A fetched descriptor: its slot, its TAG and its eight words (R678, R681). -/
structure Desc where
  slot : Nat
  tag : Nat
  words : List Word
  deriving DecidableEq, Repr

/-- A ring: what is not in its registers (R680, R681, R685). -/
structure Ring where
  sqTail : Nat := 0
  cqHead : Nat := 0
  /-- fetched descriptors not yet taken by a thread or an engine, oldest first -/
  fetched : List Desc := []
  /-- records written since the last message, and the Tick of the first of them (R685) -/
  since : Nat := 0
  first : Option Nat := none
  /-- EN has been cleared and work already fetched still runs (R691) -/
  disabling : Bool := false
  /-- descriptors handed over whose records are still owed (R681, R688) -/
  owed : Nat := 0
  deriving DecidableEq, Repr

/-- A frame in the MKA queue of a channel (R684): where its record goes, and its octets. -/
structure MkaFrame where
  slot : Nat
  tag : Nat
  octets : Octets
  deriving DecidableEq, Repr

/-- The host interface. -/
structure HostState where
  rings : Tbl Ring := []
  /-- Bus Master Enable, MSI-X enable and function mask of the configuration space (R677, R685) -/
  busMaster : Bool := false
  msixEnable : Bool := false
  msixMask : Bool := false
  /-- MKA queues by channel, oldest first (R684) -/
  mka : Tbl (List MkaFrame) := []
  /-- Subsystem Vendor ID and Subsystem ID (R687) -/
  subsysVid : Nat := 0
  subsysId : Nat := 0
  /-- a preload from the boot flash runs: its length and its stated CRC (R687) -/
  preload : Option (Nat × Nat) := none
  deriving DecidableEq, Repr

/-! ### Delta (chapter 11) -/

/-- A learn request (R409): receive SC, source address and DOMAIN. -/
structure LearnReq where
  sc : Nat
  mac : Nat
  domain : Nat
  deriving DecidableEq, Repr

/-- Delta. -/
structure DeltaState where
  /-- entries of the main table by bucket × 4 + way (R399, R402) -/
  main : Tbl (BitVec 128) := []
  /-- entries of the overflow store -/
  overflow : Tbl (BitVec 128) := []
  /-- DLT_HSEED, when it is no longer the value of the first power-on (R403) -/
  seed : Option (BitVec 32) := none
  /-- learn queue, oldest first (R410) -/
  learn : List LearnReq := []
  /-- the FLUSH that runs: its domain, and whether DLT_CMD waits for it (R417) -/
  flush : Option (Nat × Bool) := none
  /-- search words learned while the FLUSH runs (R417) -/
  fresh : List Nat := []
  /-- the command of DLT_CMD that waits (R24) -/
  held : Option HeldCmd := none
  /-- next bucket of the Eddy-scan pass that runs, main table first (R412) -/
  scan : Nat := 0
  /-- multiframe starts of the Gauge of record since the last pass was due -/
  sinceMf : Nat := 0
  deriving DecidableEq, Repr

/-! ### Clock (chapter 19) -/

/-- An entry of a port's time-stamp FIFO (R647, R650). -/
structure Stamp where
  /-- sent to the client -/
  out : Bool
  valid : Bool
  oneStep : Bool
  msgType : Nat
  domain : Nat
  seqId : Nat
  /-- network time, units of 2^−16 ns -/
  time : Nat
  deriving DecidableEq, Repr

/-- The clock. -/
structure ClockState where
  /-- BASE_TIME, units of 2^−16 ns, and BASE_TICK (R638, R639) -/
  base : Nat := 0
  baseTick : BitVec 64 := 0
  /-- Tick of the last PPS_IN edge captured (R644) -/
  edge : Option (BitVec 64) := none
  /-- last second pulsed on PPS_OUT, and the Tick at which PPS_OUT rose while it is high (R645) -/
  pulsed : Nat := 0
  high : Option (BitVec 64) := none
  /-- time-stamp FIFOs by port, oldest first -/
  stamps : Tbl (List Stamp) := []
  deriving DecidableEq, Repr

/-! ### Basin (chapter 12) -/

/-- A frame of a queue: its cells with their generations, first cell first, and the cell that its last cell's NEXT
names (R430, R433). -/
structure QFrame where
  cells : List (Nat × Nat)
  next : Nat × Nat
  /-- client length and charged length (R195, R429) -/
  len : Nat
  charged : Nat
  sc : Nat
  /-- 0 green, 1 yellow -/
  colour : Nat
  /-- refused after its first cell was linked (R453) -/
  void : Bool := false
  /-- no frame: a cell whose write failed at the end of a queue that holds frames, where its chain is broken (R453) -/
  broken : Bool := false
  /-- the frame's octets until its cells are written -/
  data : Octets := []
  deriving DecidableEq, Repr

/-- A queue beside its record: frames in the chain, and frames admitted whose last cell is not yet written (R441). -/
structure BQueue where
  frames : List QFrame := []
  decided : List QFrame := []
  deriving DecidableEq, Repr

/-- Basin. -/
structure BasinState where
  /-- the free FIFO (R432): pool cells from `fresh` on at generation 0, then freed cells with their generations -/
  fresh : Nat := 0
  freed : List (Nat × Nat) := []
  /-- cells that have left the pool until the datapath domain is reset: those counted in LOST (R454) -/
  gone : List Nat := []
  /-- how many of the oldest entries of the free FIFO have become uncorrectable (R452) -/
  badFree : Nat := 0
  /-- ranges that held the pool's cells when it was last enabled, with their enables by then (R432) -/
  poolRanges : List (Nat × Nat) := []
  queues : Tbl BQueue := []
  /-- deficits of DWRR by child: level × 2^20 + number (R443) -/
  deficit : Tbl Nat := []
  /-- the child a node serves, by node × 4 + PRIO, kept as child + 1 -/
  current : Tbl Nat := []
  /-- the channel that a group serves next in round robin (R444) -/
  turn : Tbl Nat := []
  /-- mapper credit of packet channels, 2^−8 octet (R565) -/
  mapper : Tbl Int := []
  /-- the command of BSN_CMD that waits (R24) -/
  held : Option HeldCmd := none
  deriving DecidableEq, Repr

/-! ### SecY (chapter 06) -/

/-- What SecY keeps beside its records. -/
structure SecyState where
  /-- receive SCI entries by channel × 2^64 + SCI: SC + 1, 0 for none (R190) -/
  sci : Tbl Nat := []
  /-- receive SAs whose EN has been cleared and whose frames still complete (R219) -/
  draining : List Nat := []
  /-- the threshold event of an SA has been raised since PN_THRESH was last written (R201) -/
  fired : Tbl Bool := []
  deriving DecidableEq, Repr

/-! ### L1 channels and receive framers (chapters 05 and 16) -/

/-- Alignment of an OTUC or an ODUflex (R559 to R561), frame by frame. -/
structure Align where
  inFrame : Bool := false
  /-- consecutive errored FAS while in frame; consecutive correct ones while out of frame -/
  streak : Nat := 0
  inMf : Bool := false
  /-- MFAS expected in (in multiframe) or received in (out of multiframe) the last frame -/
  mfas : Option Nat := none
  mfBad : Nat := 0
  /-- consecutive frames out of frame or multiframe, and in both (R561) -/
  away : Nat := 0
  home : Nat := 0
  deriving DecidableEq, Repr

/-- The key of a slot of a channel as a Race reads it with an IV descriptor (R107): slot, epoch and generation, and the
key, none when it is missing, orphaned, uncorrectable or spent. -/
structure SlotKey where
  slot : Nat
  epoch : Nat
  gen : Nat
  key : Option Octets
  deriving DecidableEq, Repr

/-- The IV descriptor of a channel's next ODU frame, issued when the frame before it starts (R109): the frame's count and
the keys read, both slots' for a received frame 0 (R112). -/
structure L1Desc where
  count : Nat
  keys : List SlotKey := []
  ks : Stream := {}
  deriving DecidableEq, Repr

/-- How an ODU frame is sent (R143). -/
inductive TxKind where
  | enc
  | ais
  | fill
  deriving DecidableEq, Repr

/-- The ODU frame that a channel sends. -/
structure TxFrame where
  count : Nat
  kind : TxKind
  coo : Octets := []
  payload : Octets := []
  /-- the span before encryption -/
  plain : Octets := []
  key : Octets := []
  /-- its IV and keystream; lanes passed and GHASH units flagged, by Race (R114, R118) -/
  ks : Stream := {}
  passed : Tbl Nat := []
  ghash : Tbl (Option Nat) := []
  /-- the short tag, none when it is not to be sent (R305) -/
  tag : Option Octets := none
  /-- slot and generation of the key -/
  slot : Nat := 0
  gen : Nat := 0
  /-- octets of the span that passed before the channel was cut off (R175) -/
  cut : Option Nat := none
  /-- an ODU-AIS frame of a transmit gap -/
  gap : Bool := false
  deriving DecidableEq, Repr

/-- A decrypted frame that waits for its short tag. -/
structure RxFrame where
  count : Nat
  plain : Octets
  /-- its short tag as computed; its span as received, its slot -/
  tag : Octets
  cipher : Octets := []
  slot : Nat := 0
  /-- its IV and keystream; lanes passed and GHASH units flagged, by Race (R114, R118) -/
  ks : Stream := {}
  passed : Tbl Nat := []
  ghash : Tbl (Option Nat) := []
  /-- Frame-verified: its plaintext stands in the hold area (R166) -/
  held : Bool := false
  deriving DecidableEq, Repr

/-- A frame whose plaintext leaves toward the client: its count and trust state on release, and the octets that have
left when the rest is replaced (R121, R165, R172). -/
structure Leaving where
  count : Nat
  plain : Octets
  trust : Trust
  cut : Option Nat := none
  /-- octets at its start that Quarantine still replaced when it ended (R172) -/
  skip : Nat := 0
  deriving DecidableEq, Repr

/-- An L1 channel beside its record. -/
structure L1Run where
  /-- slot that encrypts the multiframe that runs (R161) -/
  txUse : Nat := 0
  cur : Option TxFrame := none
  /-- descriptors of the next frames sent and received (R109) -/
  txDesc : Option L1Desc := none
  rxDesc : Option L1Desc := none
  /-- the frame whose plaintext leaves toward the client -/
  leaving : Option Leaving := none
  /-- short tag of the last frame and long tag of the last multiframe, when they may be sent (R155) -/
  txTag : Option Octets := none
  txAcc : Option MfAcc := none
  txLong : Option Octets := none
  /-- the two Races' long tags differ (R305) -/
  txVeto : Bool := false
  /-- output was cut off and has not resumed; a gap is being recorded (R175) -/
  gap : Bool := false
  gapOpen : Bool := false
  /-- the FILL frame has been started (R177) -/
  filled : Bool := false
  /-- slot and generation of the key under which frame 7 was last sent, and received (R162) -/
  txSeven : Option (Nat × Nat) := none
  rxSeven : Option (Nat × Nat) := none
  /-- the slot that retires -/
  retire : Nat := 0
  align : Align := {}
  /-- last valid count word of the multiframe before, while unlocked; the last valid word disagreed (R156) -/
  word : Option Nat := none
  disagree : Bool := false
  /-- 0 no frame 0 has chosen a key; 1 it chose none; 2 + slot (R159) -/
  sel : Nat := 0
  /-- EPOCH of frame 0 -/
  nib : Nat := 0
  pend : Option RxFrame := none
  /-- the frame whose short tag has arrived, or is known not to come (R167) -/
  judge : Option (RxFrame × Option Octets) := none
  /-- whether the frame after it is to be released with the verdict -/
  next : Option RxFrame := none
  rxAcc : Option MfAcc := none
  /-- computed long tag of the last multiframe, and the count of its frame 0 -/
  longTag : Option Octets := none
  longFrom : Nat := 0
  frags : Octets := []
  fragOk : Bool := false
  longReady : Bool := false
  /-- the multiframe before the running one has not had its long-tag verdict (R170) -/
  longDue : Bool := false
  /-- consecutive short tags passed since frame 0 of a multiframe, that frame's count, and the multiframe whose 256 tags
  have passed -/
  passes : Nat := 0
  passFrom : Nat := 0
  whole : Option Nat := none
  /-- Quarantine: first frame replaced, the last one, whether a multiframe has verified, whether QCLR has ended it -/
  quarFirst : Nat := 0
  quarLast : Nat := 0
  quarDone : Bool := false
  /-- count of the first frame in which release may resume (R172) -/
  quarFrom : Nat := 0
  /-- the two Races do not both report a pass (R305) -/
  vetoShort : Bool := false
  vetoLong : Bool := false
  deriving DecidableEq, Repr

/-! ### Serial lanes and the TSS links (chapter 15) -/

/-- A lane: what is not in its registers. -/
structure LaneRun where
  /-- Tick at which training began, while it runs (R538) -/
  training : Option Nat := none
  /-- last octet 1 received, and the reply to it (R539) -/
  asked : Option Byte := none
  reply : Byte := 0
  /-- DONE has been sent, and received -/
  sentDone : Bool := false
  gotDone : Bool := false
  /-- DWELL of the eye scan that runs (R540) -/
  dwell : Nat := 0
  deriving DecidableEq, Repr

/-- A TSS link: its alignment (R547) and the record in progress (R548, R571). -/
structure TssLink where
  /-- bit positions of candidates -/
  cands : List Nat := []
  /-- consecutive expected positions without a good marker -/
  missed : Nat := 0
  /-- the last marker's lane field differs: blocks are discarded -/
  astray : Bool := false
  /-- octets of the record in progress, none while there is none -/
  record : Option Octets := none
  /-- the last 31 block bits received, the oldest uppermost (R544) -/
  past : Nat := 0
  /-- the run of identical bits that ends at the last bit received, and its value (R546) -/
  run : Nat := 0
  level : Bool := false
  deriving DecidableEq, Repr

/-- The lanes: by lane instance, and by link, 0 to 3 for the Tether and 4 to 7 for the DCC ports. -/
structure SerdesState where
  lanes : Tbl LaneRun := []
  links : Tbl TssLink := []
  deriving DecidableEq, Repr

/-! ### Framers (chapter 16) -/

/-- The receive side of an OTUC (R559, R560). -/
structure OtucRx where
  align : Align := {}
  /-- the position of its FAS in frame, and the candidates, first found first, out of frame (R559) -/
  pos : Nat := 0
  cands : List Nat := []
  lof : Bool := false
  lom : Bool := false
  /-- Tick since which it has been in, or out of, frame and multiframe -/
  since : Nat := 0
  sinceMf : Nat := 0
  deriving DecidableEq, Repr

/-- A GCC stream (R572): frames extracted with their SEQ, frames to insert, both oldest first. -/
structure GccStream where
  seqNo : Nat := 0
  extract : List (Nat × Octets) := []
  insert : List Octets := []
  last : Option Octets := none
  deriving DecidableEq, Repr

/-- Availability of a path end (R574): the last seconds of the run that may change it, newest first, each with whether
it is an ES and whether it belongs to the previous bin. -/
structure PathEnd where
  unavailable : Bool := false
  run : List (Bool × Bool) := []
  deriving DecidableEq, Repr

/-- The framers beside their registers. -/
structure FrmState where
  /-- OTUCs by 8 × group + OTUC, and whether their FlexO instances are locked and carry a wrong GID or PID (R556) -/
  otuc : Tbl OtucRx := []
  locked : Tbl Bool := []
  wrong : Tbl Bool := []
  /-- consecutive multiframes in which a slot's MSI disagrees, by 160 × group + slot (R563) -/
  msi : Tbl Nat := []
  /-- the accepted slot map that waits for a multiframe start, by group (R562) -/
  pendMap : Tbl (List Word) := []
  /-- streams by 16 × port + stream, and the stream that a port serves next (R571, R572) -/
  streams : Tbl GccStream := []
  turn : Tbl Nat := []
  /-- path ends by 2 × path + end (R574) -/
  paths : Tbl PathEnd := []
  /-- last second boundary of network time counted, and last 15-minute boundary taken (R574, R575) -/
  second : Nat := 0
  bin : Nat := 0
  deriving DecidableEq, Repr

/-! ### The chip: fuses, pins and power (chapter 18) -/

/-- Fuses, pins and power. -/
structure ChipState where
  /-- life-cycle state that the fuses hold: 0 Blank, 1 Manufactured, 2 Carrier, 3 Retired (R612) -/
  lcs : Nat := 1
  /-- fuses blown of the three that hold each of the bits M, C and T (R612) -/
  mFuses : Fin 4 := 3
  cFuses : Fin 4 := 0
  tFuses : Fin 4 := 0
  /-- the bit that a life-cycle change is programming, as its target state (R613) -/
  blowing : Option Nat := none
  /-- Tick of PRES_N's last change, negative for one before the last reset; the low level that runs followed at least
  50 ms of high level and has not opened the window (R614) -/
  presSince : Int := 0
  presArmed : Bool := false
  /-- Tick at which the presence window last opened -/
  presOpened : Nat := 0
  deriving DecidableEq, Repr

end Sys2Proof.Machine
end

