-- ==== Sys2Proof/Machine/State.lean ====
section
/-! DEFINITION. The state of the YD-1440, the reasons a command can stop, and the state after reset. -/

namespace Sys2Proof.Machine

/-- The whole state. -/
structure State where
  /-- commands that wait, first in, first out -/
  pending : List Instr := []
  /-- the Tick counter (R636) -/
  tick : BitVec 64 := 0
  /-- how many free words have been drawn: the model's own -/
  draws : Nat := 0
  /-- every register of the register map that is not at its reset value, by BAR0 offset -/
  regs : Tbl Word := []
  /-- words of the object records that are not at their reset value (R183, R224 to R227, R457 to R459) -/
  recs : Tbl Word := []
  /-- latched halves and companions, by (master, register offset) (R712, R713) -/
  latches : List (Master × Nat × Word) := []
  /-- counters by their 32-bit address (R653) -/
  counters : Tbl Ctr := []
  log : LogState := {}
  line : LineState := {}
  tide : TideState := {}
  culvert : CulvertState := {}
  /-- octets of the Pools that are not 0, by interconnect address (R519) -/
  pools : List Host.Cell := []
  access : AccessState := {}
  levee : LeveeState := {}
  sound : SoundState := {}
  host : HostState := {}
  races : Tbl Race := []
  l1 : Tbl L1Run := []
  weir : WeirState := {}
  keys : KeyState := {}
  cistern : Cistern := {}
  delta : DeltaState := {}
  basin : BasinState := {}
  secy : SecyState := {}
  clock : ClockState := {}
  serdes : SerdesState := {}
  frm : FrmState := {}
  chip : ChipState := {}
  /-- what has been put out, newest first: the model's own -/
  out : List Output := []
  deriving DecidableEq, Repr

/-- Why a command faults. -/
inductive Fault where
  /-- a host error whose result the spec calls unpredictable (R6, R10, R13, R100); raised by any command that commits
  it; safe: nothing is claimed of what follows -/
  | hostError
  deriving DecidableEq, Repr

/-- Why a command is refused. -/
inductive Refusal where
  /-- the command has no meaning yet; raised by `exec`'s arms only; safe -/
  | notModelled (mnemonic : String)
  deriving DecidableEq, Repr

/-- The machine right after power-on. -/
def State.reset : State := {}

end Sys2Proof.Machine
end

