-- ==== Sys2Proof/Machine/Ops.lean ====
section
/-! DEFINITION. The named operations every block shares: register fields, free values, counters, interrupts, Standing
Orders events, Gauge readings, the error log. -/

namespace Sys2Proof.Machine

open Sys2Proof

/-! ### Registers -/

/-- The value a register instance holds. -/
def State.reg (s : State) (r : Reg) (i : Nat := 0) (j : Nat := 0) : Word :=
  Tbl.get (r.resetValue i) s.regs (r.off i j)

/-- A register instance set whole. -/
def State.setReg (s : State) (r : Reg) (v : Word) (i : Nat := 0) (j : Nat := 0) : State :=
  { s with regs := Tbl.set (r.resetValue i) s.regs (r.off i j) v }

/-- A field of a register instance. -/
def State.rd (s : State) (f : Field) (i : Nat := 0) (j : Nat := 0) : Nat :=
  bits (s.reg f.reg i j).toNat f.hi f.lo

/-- A field of a register instance set. -/
def State.wr (s : State) (f : Field) (v : Nat) (i : Nat := 0) (j : Nat := 0) : State :=
  s.setReg f.reg (BitVec.ofNat 64 (setBits (s.reg f.reg i j).toNat f.hi f.lo v)) i j

/-- A one-bit field reads 1. -/
def State.is (s : State) (f : Field) (i : Nat := 0) (j : Nat := 0) : Bool := s.rd f i j != 0

/-- A one-bit field set to 1. -/
def State.mark (s : State) (f : Field) (i : Nat := 0) (j : Nat := 0) : State := s.wr f 1 i j

/-- A one-bit field set to 0. -/
def State.unmark (s : State) (f : Field) (i : Nat := 0) (j : Nat := 0) : State := s.wr f 0 i j

/-- The value of a field inside a word that is to be written. -/
def Field.of (f : Field) (v : Word) : Nat := bits v.toNat f.hi f.lo

/-- No reserved bit of a register is set in a word that is written to it (R13). -/
def rsvdOk (r : Reg) (v : Word) : Bool := decide (v.toNat &&& r.rsvdMask = 0)

/-- A write that sets a reserved bit is a host error (R13); another goes on. -/
def guardRsvd (r : Reg) (v : Word) (k : Host.Outcome State Fault Refusal) : Host.Outcome State Fault Refusal :=
  if rsvdOk r v then k else .fault .hostError

/-- A register word after a write of `v` by the access codes of its fields (R11): RW and RWS stored, RW1C cleared by a
1, RO and WO unchanged. -/
def plainWord (r : Reg) (old v : Nat) : Nat :=
  r.fields.foldl (fun a f => match f.acc with
    | .rw => setBits a f.hi f.lo (bits v f.hi f.lo)
    | .rws => setBits a f.hi f.lo (bits v f.hi f.lo)
    | .rw1c => setBits a f.hi f.lo (bits old f.hi f.lo &&& (2 ^ (f.hi + 1 - f.lo) - 1 - bits v f.hi f.lo))
    | _ => a) old

/-- A register written under its access codes (R11). -/
def State.plainWrite (s : State) (r : Reg) (v : Word) (i : Nat := 0) (j : Nat := 0) : State :=
  s.setReg r (BitVec.ofNat 64 (plainWord r (s.reg r i j).toNat v.toNat)) i j

/-- Something put out. -/
def State.emit (s : State) (o : Output) : State := { s with out := o :: s.out }

/-- The next free word, and the state with it used up. -/
def State.draw (s : State) : Word × State :=
  (Config.freeWord s.draws, { s with draws := s.draws + 1 })

/-- `n` free octets. -/
def State.drawOctets (s : State) : Nat → Octets × State
  | 0 => ([], s)
  | n + 1 =>
    let (w, s1) := s.draw
    let (t, s2) := s1.drawOctets n
    ((w.setWidth 8) :: t, s2)

/-- A count saturating at `2 ^ w − 1` in a field. -/
def State.satAdd (s : State) (f : Field) (n : Nat) (i : Nat := 0) (j : Nat := 0) : State :=
  s.wr f (min (s.rd f i j + n) (2 ^ (f.hi + 1 - f.lo) - 1)) i j

/-! ### Counters (R652 to R656) -/

/-- A counter of a scope: scope code and number within an instance (R653, R654). -/
structure CtrId where
  scope : Nat
  num : Nat
  deriving DecidableEq, Repr

/-- Counters per instance of a scope, C of R654; 0 for a code that is not listed. -/
def ctrPer : Nat → Nat
  | 0x01 => 5 | 0x02 => 8 | 0x03 => 9 | 0x04 => 9 | 0x05 => 3 | 0x06 => 8 | 0x07 => 7 | 0x08 => 6 | 0x09 => 4
  | 0x0A => 10 | 0x0B => 2 | 0x0C => 7 | 0x0D => 5 | 0x0E => 1 | 0x0F => 6 | 0x10 => 7 | 0x11 => 2 | 0x12 => 4
  | 0x13 => 1 | 0x14 => 3 | 0x15 => 3 | 0x16 => 3 | 0x17 => 6 | 0x20 => 19 | 0x21 => 6 | 0x22 => 6 | 0x23 => 2
  | 0x24 => 3 | 0x25 => 8 | 0x26 => 10 | 0x27 => 7 | _ => 0

/-- Instances of a scope (R654). -/
def ctrInstances : Nat → Nat
  | 0x01 => 48 | 0x02 => 1 | 0x03 => 18 | 0x04 => 1 | 0x05 => 32 | 0x06 => 32 | 0x07 => 256 | 0x08 => 1 | 0x09 => 72
  | 0x0A => 1 | 0x0B => 1 | 0x0C => 1 | 0x0D => 8 | 0x0E => 16 | 0x0F => 1 | 0x10 => 148 | 0x11 => 144 | 0x12 => 18
  | 0x13 => 2880 | 0x14 => 64 | 0x15 => 1 | 0x16 => 72 | 0x17 => 1 | 0x20 => 2880 | 0x21 => 5832 | 0x22 => 262144
  | 0x23 => 65536 | 0x24 => 4096 | 0x25 => 2880 | 0x26 => 1048576 | 0x27 => 262144 | _ => 0

/-- The scopes whose counters lie in the state tables of their objects (R652, R654). -/
def ctrIsTable (scope : Nat) : Bool := decide (0x20 ≤ scope)

/-- Counter address (R653). -/
def CtrId.addr (c : CtrId) (inst : Nat) : Nat := c.scope * 2 ^ 26 + inst * ctrPer c.scope + c.num

/-- A counter's value. -/
def State.ctr (s : State) (c : CtrId) (inst : Nat := 0) : Ctr := Tbl.get {} s.counters (c.addr inst)

/-- A counter after `n` more events (R656). -/
def Ctr.add (c : Ctr) (n : Nat) : Ctr :=
  { n := c.n + BitVec.ofNat 48 n, wrapped := c.wrapped || decide (2 ^ 48 ≤ c.n.toNat + n) }

/-- `n` events counted. -/
def State.count (s : State) (c : CtrId) (inst : Nat := 0) (n : Nat := 1) : State :=
  { s with counters := Tbl.set {} s.counters (c.addr inst) ((s.ctr c inst).add n) }

/-- A counter address is valid: its scope is listed and its instance exists (R655). -/
def ctrValid (addr : Nat) : Bool :=
  let scope := addr / 2 ^ 26
  let k := addr % 2 ^ 26
  decide (addr < 2 ^ 32) && decide (0 < ctrPer scope) && decide (k < ctrInstances scope * ctrPer scope)

/-! ### Interrupts (R685, R686) -/

/-- Messages of a vector may be sent: Bus Master Enable and MSI-X enable are 1, the function mask and the vector's mask
are 0 (R685; PRESUMED: PCIe masking). -/
def State.vecOpen (s : State) (v : Nat) : Bool :=
  s.host.busMaster && s.host.msixEnable && !s.host.msixMask && !s.is HIF_MSIXD.MASK v

/-- A message of an MSI-X vector, or its pending bit while it is held by a mask (R685). -/
def State.sendVec (s : State) (v : Nat) : State :=
  if s.vecOpen v then s.emit (.msix v)
  else s.wr HIF_PBA.PENDING (s.rd HIF_PBA.PENDING (v / 64) ||| 2 ^ (v % 64)) (v / 64)

/-- Held messages of the vectors that are open now (R685). -/
def State.flushVecs (s : State) : State :=
  (List.range 128).foldl (fun a v =>
    if (a.rd HIF_PBA.PENDING (v / 64)).testBit (v % 64) && a.vecOpen v then
      (a.wr HIF_PBA.PENDING (a.rd HIF_PBA.PENDING (v / 64) - 2 ^ (v % 64)) (v / 64)).emit (.msix v)
    else a) s

/-- A device cause set; a message when it was clear and its mask bit is 0 (R686). -/
def State.raiseCause (s : State) (b : Nat) : State :=
  let c := s.rd HIF_CAUSE.CAUSE
  if c.testBit b then s else
    let s1 := s.wr HIF_CAUSE.CAUSE (c ||| 2 ^ b)
    if (s.rd HIF_CAUSEMSK.MASK).testBit b then s1 else s1.sendVec (s.rd HIF_CAUSEVEC.VEC)

/-! ### Gauges (R44, R51, R59, R60) -/

/-- The reading of a group's Gauge. -/
def State.gauge (s : State) (g : Nat) : Word := s.reg .GAU_READ g

/-- The group whose Gauge is the Gauge of record (R60). -/
def State.recordGroup (s : State) : Nat := s.rd GAU_RECORD.GROUP

/-- The reading of the Gauge of record. -/
def State.recordReading (s : State) : Word := s.gauge s.recordGroup

/-- A selector that names a Gauge (R59). -/
def selValid (sel : Nat) : Bool :=
  decide (sel < 18) || (decide (32 ≤ sel) && decide (sel < 50)) || decide (sel = 63)

/-- Selector 63 resolved to the group of the Gauge of record (R60). -/
def State.resolveSel (s : State) (sel : Nat) : Nat := if sel = 63 then s.recordGroup else sel

/-- The reading that a resolved selector names; a stopped or unlocked Gauge gives its held reading (R376). -/
def State.selReading (s : State) (sel : Nat) : Word :=
  if sel < 18 then s.gauge sel else s.reg .GAU_FAR (sel - 32)

/-- The Gauge that a resolved selector names advances: it runs, or its Far Gauge is locked (R54). -/
def State.selRuns (s : State) (sel : Nat) : Bool :=
  if sel < 18 then s.is GAU_STAT.RUN sel else s.is GAU_STAT.FAR_LOCK (sel - 32)

/-- The group whose PAST bit a resolved selector sets (R54). -/
def selGroup (sel : Nat) : Nat := if sel < 18 then sel else sel - 32

/-- Reading `a` is at or after reading `b` (R51). -/
def atOrAfter (a b : Word) : Bool := !(a - b).msb

/-- A reading from its frame count and octet offset (R44). -/
def reading (frame offset : Nat) : Word := BitVec.ofNat 64 ((frame % 2 ^ 48) * 2 ^ 16 + offset % 2 ^ 16)

/-- FRAME of a reading (R44). -/
def frameOf (r : Word) : Nat := r.toNat / 2 ^ 16

/-- OFFSET of a reading (R44). -/
def offsetOf (r : Word) : Nat := r.toNat % 2 ^ 16

/-! ### Standing Orders events (R338 to R344) -/

namespace Ctrs
def EVENTS : CtrId := ⟨0x08, 0⟩
def MERGED : CtrId := ⟨0x08, 1⟩
def EVENT_OVF : CtrId := ⟨0x08, 2⟩
def NO_ORDER : CtrId := ⟨0x08, 3⟩
def TRAPS : CtrId := ⟨0x08, 4⟩
def HANDLER_ABORT : CtrId := ⟨0x08, 5⟩
end Ctrs

/-- An entry matches an event (R342). -/
def SoEntry.matchesEvent (e : SoEntry) (cls idx : Nat) : Bool :=
  decide (e.cls = cls) && decide (e.indexLo ≤ idx) && decide (idx ≤ e.indexHi)

/-- The entry that applies to an event: the lowest-numbered that matches, while an image is installed (R341, R342). -/
def State.orderFor (s : State) (cls idx : Nat) : Option SoEntry :=
  if s.is TID_STAT.SO_VALID then s.tide.orders.find? (fun e => e.matchesEvent cls idx) else none

/-- The first waiting record of a class and index with one more event merged into it (R344); a record of an earlier
image takes no event of the image `gen` (R340). -/
def mergeEvent (cls idx gen : Nat) : List EventRec → Option (List EventRec)
  | [] => none
  | r :: t =>
    if r.cls = cls ∧ r.idx = idx ∧ r.gen = gen then some ({ r with count := min (r.count + 1) 65535 } :: t)
    else (mergeEvent cls idx gen t).map (fun t' => r :: t')

/-- The entry under which the record of a class's overflowed events is dispatched: the one that its index 0xFFFF_FFFF
matches, if that queues a handler (R342), else the entry of the event overflowed last (DESIGN CHOICE). -/
def State.ovfEntry (s : State) (cls : Nat) (e : SoEntry) : SoEntry :=
  match s.orderFor cls 0xFFFFFFFF with
  | some x => if x.flags.testBit 0 then x else e
  | none => e

/-- Overflowed events of a class (R344). -/
def State.ovfCount (s : State) (cls : Nat) : Nat := ((Tbl.get none s.tide.ovf cls).map (fun o => o.count)).getD 0

/-- A handler queued for an event: merged, recorded, or overflowed (R344). -/
def State.queueEvent (s : State) (e : SoEntry) (cls idx : Nat) (g5 : Word) : State :=
  match mergeEvent cls idx (s.rd TID_SOINFO.GEN) s.tide.queue with
  | some q => ({ s with tide := { s.tide with queue := q } }).count Ctrs.MERGED
  | none =>
    if s.tide.queue.length < 8192 then
      { s with tide := { s.tide with queue := s.tide.queue ++
          [{ cls := cls, idx := idx, count := 1, reading := s.recordReading, g5 := g5, entry := e,
             gen := s.rd TID_SOINFO.GEN }] } }
    else
      let o : OvfEvents := { count := s.ovfCount cls + 1, entry := s.ovfEntry cls e, gen := s.rd TID_SOINFO.GEN }
      (({ s with tide := { s.tide with ovf := Tbl.set none s.tide.ovf cls (some o) } }).wr
        TID_EVQ.OVF (s.rd TID_EVQ.OVF ||| 2 ^ (cls - 1))).count Ctrs.EVENT_OVF

/-- A Standing Orders event raised (R338, R342 to R344). The built-in actions of R343 belong to the raising chapter. -/
def State.raiseEvent (s : State) (cls idx : Nat) (g5 : Word := 0) : State :=
  let s1 := s.count Ctrs.EVENTS
  match s.orderFor cls idx with
  | none => s1.count Ctrs.NO_ORDER
  | some e => if e.flags.testBit 0 then s1.queueEvent e cls idx g5 else s1

/-! ### The error log (R692 to R701, R95) -/

/-- Kinds whose record names its group's Gauge (R693). -/
def kindNamesGroup (k : Nat) : Bool := decide (0x21 ≤ k) && decide (k ≤ 0x24) || decide (k = 0x31) || decide (0x41 ≤ k) && decide (k ≤ 0x45)

/-- Kinds that are never suppressed and never count toward LIMIT (R699). -/
def kindExempt (k : Nat) : Bool := decide (0x21 ≤ k) && decide (k ≤ 0x31) || decide (k = 0xF1) || decide (k = 0xF2)

/-- Octets 0 to 7 of a record: KIND, FLAGS, COUNT, SEQ (R692). -/
def logHead (kind flags cnt sq : Nat) : Word :=
  BitVec.ofNat 64 (kind + flags * 2 ^ 8 + cnt * 2 ^ 16 + (sq % 2 ^ 32) * 2 ^ 32)

/-- Window of R699 at the present Tick. -/
def State.logWindow (s : State) : Nat := s.tick.toNat / 1500000

/-- A slot still holds a record that has not been released (R698). -/
def State.logHolds (s : State) (slot : Nat) : Bool :=
  let rd := s.rd ELG_IDX.RD
  decide ((slot + 1024 - rd) % 1024 < s.rd ELG_STAT.USED)

/-- A record written into slot WR (R692, R698, R701), with the breach summary of R95. -/
def State.logWrite (s : State) (kind group : Nat) (gauge : Word) (detail : Nat) : State :=
  let w := s.rd ELG_IDX.WR
  let seqNo := s.rd ELG_SEQ.SEQ
  let flags := (b2n (!s.is GAU_STAT.RUN group)) * 2 + group * 8
  let head := logHead kind flags 1 seqNo
  let s1 := (((s.setReg .ELG_LOG head w 0).setReg .ELG_LOG gauge w 1).setReg .ELG_LOG
    (BitVec.ofNat 64 detail) w 2).setReg .ELG_LOG (BitVec.ofNat 64 (detail / 2 ^ 64)) w 3
  let s2 := ((s1.wr ELG_IDX.WR ((w + 1) % 1024)).wr ELG_STAT.USED (s.rd ELG_STAT.USED + 1)).wr ELG_SEQ.SEQ
    ((seqNo + 1) % 2 ^ 32)
  let s3 := { s2 with log := { s2.log with newest := Tbl.set (1024, 0) s2.log.newest kind (w, s.logWindow) } }
  let s4 :=
    if 0x21 ≤ kind ∧ kind ≤ 0x24 then (s3.mark ELG_BREACH.DELIVERY).satAdd ELG_BREACH.RECORDS 1
    else if kind = 0x31 then (s3.mark ELG_BREACH.RATE).satAdd ELG_BREACH.RECORDS 1
    else s3
  (s4.raiseCause 0).raiseEvent 0x08 kind head

/-- Records of a kind written in the present window (R699). -/
def State.logWritten (s : State) (kind : Nat) : Nat :=
  let e := Tbl.get (0, 0) s.log.written kind
  if e.1 = s.logWindow then e.2 else 0

/-- The newest record of a kind into which a report may be merged: still in the log, of the present window, COUNT below
65,535, the same DETAIL (R698). -/
def State.logMergeSlot (s : State) (kind detail : Nat) : Option Nat :=
  let e := Tbl.get (1024, 0) s.log.newest kind
  let slot := e.1
  if slot < 1024 ∧ s.logHolds slot ∧ e.2 = s.logWindow ∧
      bits (s.reg .ELG_LOG slot 0).toNat 7 0 = kind ∧
      bits (s.reg .ELG_LOG slot 0).toNat 31 16 < 65535 ∧
      s.reg .ELG_LOG slot 2 = BitVec.ofNat 64 detail ∧
      s.reg .ELG_LOG slot 3 = BitVec.ofNat 64 (detail / 2 ^ 64)
  then some slot else none

/-- A report (R698 to R700): counted in ELG_KCNT, then merged, written, suppressed, or added to the full count. `gauge`
is the reading of the record and `group` the group it names. -/
def State.reportAt (s : State) (kind group : Nat) (gauge : Word) (detail : Nat) : State :=
  let s0 := s.wr ELG_KCNT.COUNT ((s.rd ELG_KCNT.COUNT kind + 1) % 2 ^ 48) kind
  match s0.logMergeSlot kind detail with
  | some slot =>
    let h := (s0.reg .ELG_LOG slot 0).toNat
    s0.setReg .ELG_LOG (BitVec.ofNat 64 (setBits h 31 16 (bits h 31 16 + 1))) slot 0
  | none =>
    if 1024 ≤ s0.rd ELG_STAT.USED then
      { s0.mark ELG_STAT.OVF with log := { s0.log with fullCount := s0.log.fullCount + 1 } }
    else if kindExempt kind then s0.logWrite kind group gauge detail
    else
      let lim := s0.rd ELG_CTL.LIMIT
      let n := s0.logWritten kind
      if lim ≠ 0 ∧ lim ≤ n then
        { s0.mark ELG_STAT.SUPP with log := { s0.log with
            suppressed := Tbl.set 0 s0.log.suppressed kind (Tbl.get 0 s0.log.suppressed kind + 1) } }
      else
        ({ s0 with log := { s0.log with
            written := Tbl.set (0, 0) s0.log.written kind (s0.logWindow, n + 1) } }).logWrite kind group gauge detail

/-- A report comes before another of the same cycle (R698). -/
def Report.before (a b : Report) : Bool := decide (a.kind < b.kind) || (decide (a.kind = b.kind) && decide (a.detail < b.detail))

/-- A report takes its place among those of its cycle (R698). -/
def addReport (r : Report) : List Report → List Report
  | [] => [r]
  | x :: t => if r.before x then r :: x :: t else x :: addReport r t

/-- A report made: held with those of its cycle while one is under way, else taken at once. -/
def State.reportWith (s : State) (r : Report) : State :=
  match s.log.held with
  | some l => { s with log := { s.log with held := some (addReport r l) } }
  | none => s.reportAt r.kind r.group r.gauge r.detail

/-- A report with the Gauge that R693 gives its kind: that of `group` for the kinds that name one, else the Gauge of
record. -/
def State.report (s : State) (kind detail : Nat) (group : Nat := 0) : State :=
  if kindNamesGroup kind then s.reportWith { kind := kind, detail := detail, group := group, gauge := s.gauge group }
  else s.reportWith { kind := kind, detail := detail, group := s.recordGroup, gauge := s.recordReading }

/-- What follows happens in one cycle: its reports are held (R698). -/
def State.holdReports (s : State) : State := { s with log := { s.log with held := some (s.log.held.getD []) } }

/-- The cycle ends: its reports are taken in ascending KIND and DETAIL (R698), unless an `outer` one goes on. -/
def State.takeReports (s : State) (outer : Bool) : State :=
  if outer then s
  else (s.log.held.getD []).foldl (fun (a : State) r => a.reportAt r.kind r.group r.gauge r.detail)
    { s with log := { s.log with held := none } }

/-- Reports are held for the cycle under way. -/
def State.inCycle (s : State) : Bool := s.log.held.isSome

/-! ### SECDED of on-chip memories (R695 to R697, R702) -/

/-- DETAIL of kinds 0x91 and 0x92 (R695). -/
def eccDetail (unit word requester : Nat) : Nat := unit + (word % 2 ^ 32) * 2 ^ 16 + requester * 2 ^ 48

/-- A correction in a word of a memory unit (R696): a hard fault when the word is one of the last 16 corrected in its
type of memory, and counted when it is not. -/
def State.eccCorrected (s : State) (unit word requester : Nat) : State :=
  let typ := unit / 2 ^ 8
  let key := unit % 2 ^ 8 * 2 ^ 32 + word
  let old := Tbl.get [] s.log.corrected typ
  let s1 : State := { s with log := { s.log with corrected := Tbl.set [] s.log.corrected typ ((key :: old).take 16) } }
  if old.contains key then s1.report 0x92 (eccDetail unit word requester)
  else s1.wr ELG_CE.COUNT ((s1.rd ELG_CE.COUNT typ + 1) % 2 ^ 48) typ

end Sys2Proof.Machine
end

