-- ==== Sys2Proof/Machine/LeveeOps.lean ====
section
/-! DEFINITION. From a Levee event to an alarm (R586 to R588, R590, R597). -/

namespace Sys2Proof.Machine

open Sys2Proof

/-- The Watch count (R606). -/
def State.watch (s : State) : Nat := s.rd LEV_WATCH.COUNT

/-- The Watch count of the earlier event that opens the window of K events, if there were K − 1 since the last alarm;
`old` holds the earlier events' counts, newest first. With K = 1 the event opens its own window. -/
def windowStart (k : Nat) (now : Nat) (old : List Nat) : Option Nat :=
  if k ≤ 1 then some now else old[k - 2]?

/-- An event of a source makes an alarm: K − 1 earlier events, and a window of at most W ticks (R587). -/
def alarmDue (k w now : Nat) (old : List Nat) : Bool :=
  match windowStart k now old with
  | none => false
  | some t => decide ((now + 2 ^ 48 - t) % 2 ^ 48 ≤ w)

/-- A sticky flag set, with the LEVEE cause (R597, R686). -/
def State.setSticky (s : State) (src : Nat) : State :=
  (s.wr LEV_STICKY.FLAG (s.rd LEV_STICKY.FLAG ||| 2 ^ src)).raiseCause 1

/-- An event of a source, with DETAIL of R583: counted, and filtered into an alarm (R586, R587, R588, R590). -/
def State.leveeEvent (s : State) (src detail : Nat) : State :=
  let s1 := s.satAdd LEV_EVCNT.EVENTS 1 src
  if !s.is LEV_SRCCFG.EN src then s1
  else
    let now := s.watch
    let old := Tbl.get [] s.levee.recent src
    if alarmDue (s.rd LEV_SRCCFG.KM1 src + 1) (s.rd LEV_SRCCFG.W src) now old then
      let lv : LeveeState := { s1.levee with
        recent := Tbl.set [] s1.levee.recent src []
        alarms := s1.levee.alarms ++ [{ src := src, resp := s.rd LEV_SRCCFG.RESP src, detail := detail, watch := now }] }
      State.setSticky { s1 with levee := lv } src
    else
      { s1 with levee := { s1.levee with recent := Tbl.set [] s1.levee.recent src ((now :: old).take 15) } }

end Sys2Proof.Machine
end

