-- ==== Sys2Proof/Machine/Cache.lean ====
section
/-! DEFINITION. The local memories of the Tide cores: their instruction and data caches (R37, R328 to R330, R354). -/

namespace Sys2Proof.Machine

open Sys2Proof

/-- The core of a thread (R323). -/
def coreOf (t : Nat) : Nat := t / 8

/-- Lines of a cache: 32 KiB of 64 octets each (R328). -/
def cacheSize : Nat := 512

/-- The data cache of a core, or its instruction cache; the line read last stands last. -/
def State.cache (s : State) (data : Bool) (core : Nat) : List CacheLine :=
  Tbl.get [] (if data then s.tide.dcache else s.tide.icache) core

/-- A cache of a core set. -/
def State.setCache (s : State) (data : Bool) (core : Nat) (l : List CacheLine) : State :=
  { s with tide := if data then { s.tide with dcache := Tbl.set [] s.tide.dcache core l }
                   else { s.tide with icache := Tbl.set [] s.tide.icache core l } }

/-- The line of a cache that holds an address. -/
def State.cached (s : State) (data : Bool) (core a : Nat) : Option CacheLine :=
  (s.cache data core).find? (fun l => decide (l.line = a / 64))

/-- A line taken out of one cache. -/
def State.dropLine (s : State) (data : Bool) (core a : Nat) : State :=
  s.setCache data core ((s.cache data core).filter (fun l => decide (l.line ≠ a / 64)))

/-- A line read into a cache; which line a full cache gives up for it is free (R328 gives no rule). -/
def State.fillLine (s : State) (data : Bool) (core : Nat) (l : CacheLine) : State :=
  let old := s.cache data core
  if old.length < cacheSize then s.setCache data core (old ++ [l])
  else
    let (w, s1) := s.draw
    s1.setCache data core (old.eraseIdx (w.toNat % cacheSize) ++ [l])

/-- A write of `n` octets at an address invalidates its lines in all the data caches, which are coherent; the
instruction caches are not (R329). -/
def State.dropLines (s : State) (a n : Nat) : State :=
  let keep := fun (l : CacheLine) => decide (64 * l.line + 64 ≤ a) || decide (a + n ≤ 64 * l.line)
  { s with tide := { s.tide with
      dcache := (s.tide.dcache.map (fun e => (e.1, e.2.filter keep))).filter (fun e => decide (e.2 ≠ [])) } }

/-- The caches of a core invalidated (R354). -/
def State.dropCaches (s : State) (core : Nat) : State := (s.setCache true core []).setCache false core []

/-- What the checkers of a core's local memory meet on an access (R330, R696, R697): a word corrected; or a line
invalidated, which is then fetched again, logged and without a trap. -/
def State.localFind (s : State) (data : Bool) (core a : Nat) (f : EccFind) : State :=
  match f with
  | .localCorrected w => s.eccCorrected (0x600 + core) w 2
  | .localBad w => (s.dropLine data core a).report 0x91 (eccDetail (0x600 + core) w 2)
  | _ => s

end Sys2Proof.Machine
end

