-- ==== Sys2Proof/Machine/Crypto.lean ====
section
/-! DEFINITION. The named algorithms the spec calls by name: AES (FIPS 197), its modes, GHASH and GCM, CMAC, the
counter-mode derivation of R246, AES key wrap (RFC 3394), XTS (R473), CRC-32, CRC-32C, CRC-16 and the BCH(80,66) code of
R468. PRESUMED: their definitions are the published standards the spec names. Octets are held as Nat inside. -/

namespace Sys2Proof.Machine.Crypto

open Sys2Proof.Machine

/-! ### AES -/

/-- Rows of the AES substitution table: sixteen entries a row, entry `x` in octet `x % 16` of row `x / 16`. -/
def sboxTable : Nat → Nat
  | 0 => 0x76ABD7FE2B670130C56F6BF27B777C63
  | 1 => 0xC072A49CAFA2D4ADF04759FA7DC982CA
  | 2 => 0x1531D871F1E5A534CCF73F362693FDB7
  | 3 => 0x75B227EBE28012079A059618C323C704
  | 4 => 0x842FE329B3D63B52A05A6E1B1A2C8309
  | 5 => 0xCF584C4A39BECB6A5BB1FC20ED00D153
  | 6 => 0xA89F3C507F02F94585334D43FBAAEFD0
  | 7 => 0xD2F3FF1021DAB6BCF5389D928F40A351
  | 8 => 0x73195D643D7EA7C41744975FEC130CCD
  | 9 => 0xDB0B5EDE14B8EE4688902A22DC4F8160
  | 10 => 0x79E4959162ACD3C25C2406490A3A32E0
  | 11 => 0x08AE7A65EAF4566CA94ED58D6D37C8E7
  | 12 => 0x8A8BBD4B1F74DDE8C6B4A61C2E2578BA
  | 13 => 0x9E1DC186B95735610EF6034866B53E70
  | 14 => 0xDF2855CEE9871E9B948ED9691198F8E1
  | 15 => 0x16BB54B00F2D99416842E6BF0D89A18C
  | _ => 0

/-- Rows of the inverse table. -/
def invSboxTable : Nat → Nat
  | 0 => 0xFBD7F3819EA340BF38A53630D56A0952
  | 1 => 0xCBE9DEC444438E3487FF2F9B8239E37C
  | 2 => 0x4EC3FA420B954CEE3D23C2A632947B54
  | 3 => 0x25D18B6D49A25B76B224D92866A12E08
  | 4 => 0x92B6655DCC5CA4D41698688664F6F872
  | 5 => 0x849D8DA75746155EDAB9EDFD5048706C
  | 6 => 0x0645B3B80558E4F70AD3BC8C00ABD890
  | 7 => 0x6B8A130103BDAFC1020F3FCA8F1E2CD0
  | 8 => 0x73E6B4F0CECFF297EADC674F4111913A
  | 9 => 0x6EDF751CE837F9E28535ADE72274AC96
  | 10 => 0x1BBE18AA0E62B76F89C5291D711AF147
  | 11 => 0xF45ACD78FEC0DB9A2079D2C64B3E56FC
  | 12 => 0x5FEC8027591012B131C7078833A8DD1F
  | 13 => 0xEF9CC9939F7AE52D0D4AB519A97F5160
  | 14 => 0x619953833CBBEBC8B0F52AAE4D3BE0A0
  | 15 => 0x7D0C2155631469E126D677BA7E042B17
  | _ => 0

/-- SubBytes of one octet. -/
def sub (x : Nat) : Nat := sboxTable (x / 16) / 256 ^ (x % 16) % 256
/-- InvSubBytes of one octet. -/
def invSub (x : Nat) : Nat := invSboxTable (x / 16) / 256 ^ (x % 16) % 256
/-- Multiplication by x in GF(2^8). -/
def xtime (x : Nat) : Nat := if x < 128 then 2 * x else (2 * x) ^^^ 0x11B
/-- Multiplication by 9, 11, 13, 14 in GF(2^8). -/
def mulBy (k x : Nat) : Nat :=
  let x2 := xtime x
  let x4 := xtime x2
  let x8 := xtime x4
  if k = 9 then x8 ^^^ x else if k = 11 then x8 ^^^ x2 ^^^ x
  else if k = 13 then x8 ^^^ x4 ^^^ x else x8 ^^^ x4 ^^^ x2

/-- Exclusive or of two octet lists. -/
def xorL (a b : List Nat) : List Nat := List.zipWith (· ^^^ ·) a b

/-- ShiftRows of a 16-octet block, and its inverse, as the source index of each octet. -/
def shiftIdx : List Nat := [0, 5, 10, 15, 4, 9, 14, 3, 8, 13, 2, 7, 12, 1, 6, 11]
def invShiftIdx : List Nat := [0, 13, 10, 7, 4, 1, 14, 11, 8, 5, 2, 15, 12, 9, 6, 3]
/-- A block with its octets taken at the given indices. -/
def permute (idx : List Nat) (b : List Nat) : List Nat := idx.map (fun i => b.getD i 0)

/-- MixColumns over the columns of a block. -/
def mixColumns : List Nat → List Nat
  | a :: b :: c :: d :: t =>
    (xtime a ^^^ (xtime b ^^^ b) ^^^ c ^^^ d) :: (a ^^^ xtime b ^^^ (xtime c ^^^ c) ^^^ d) ::
    (a ^^^ b ^^^ xtime c ^^^ (xtime d ^^^ d)) :: ((xtime a ^^^ a) ^^^ b ^^^ c ^^^ xtime d) :: mixColumns t
  | l => l

/-- InvMixColumns over the columns of a block. -/
def invMixColumns : List Nat → List Nat
  | a :: b :: c :: d :: t =>
    (mulBy 14 a ^^^ mulBy 11 b ^^^ mulBy 13 c ^^^ mulBy 9 d) ::
    (mulBy 9 a ^^^ mulBy 14 b ^^^ mulBy 11 c ^^^ mulBy 13 d) ::
    (mulBy 13 a ^^^ mulBy 9 b ^^^ mulBy 14 c ^^^ mulBy 11 d) ::
    (mulBy 11 a ^^^ mulBy 13 b ^^^ mulBy 9 c ^^^ mulBy 14 d) :: invMixColumns t
  | l => l

/-- One more word of the key schedule: `prev` is the last word, `back` the word Nk before, `i` its index. -/
def nextWord (nk i rcon : Nat) (prev back : List Nat) : List Nat :=
  let t :=
    if i % nk = 0 then
      match prev with
      | a :: r => match (r ++ [a]).map sub with
        | x :: u => (x ^^^ rcon) :: u
        | u => u
      | r => r
    else if nk = 8 ∧ i % nk = 4 then prev.map sub
    else prev
  xorL t back

/-- The key schedule: `n` more words after those of `acc`, newest first. -/
def expand (nk : Nat) : Nat → Nat → Nat → List (List Nat) → List (List Nat)
  | 0, _, _, acc => acc
  | n + 1, i, rcon, acc =>
    let w := nextWord nk i rcon (acc.headD []) (acc.getD (nk - 1) [])
    expand nk n (i + 1) (if i % nk = 0 then xtime rcon else rcon) (w :: acc)

/-- Words of four octets. -/
def quads : List Nat → List (List Nat)
  | a :: b :: c :: d :: t => [a, b, c, d] :: quads t
  | _ => []

/-- Round keys of a list of words, four words each. -/
def roundKeys : List (List Nat) → List (List Nat)
  | a :: b :: c :: d :: t => (a ++ b ++ c ++ d) :: roundKeys t
  | _ => []

/-- The round keys of a key of 16 or 32 octets. -/
def keySchedule (key : List Nat) : List (List Nat) :=
  let nk := key.length / 4
  let total := 4 * (nk + 7)
  roundKeys (expand nk (total - nk) nk 1 (quads key).reverse).reverse

/-- The rounds of the cipher after the first key addition. -/
def encRounds : List (List Nat) → List Nat → List Nat
  | [], b => b
  | [k], b => xorL (permute shiftIdx (b.map sub)) k
  | k :: ks, b => encRounds ks (xorL (mixColumns (permute shiftIdx (b.map sub))) k)

/-- Rounds of the inverse cipher, round keys in reverse order. -/
def decRounds : List (List Nat) → List Nat → List Nat
  | [], b => b
  | [k], b => xorL ((permute invShiftIdx b).map invSub) k
  | k :: ks, b => decRounds ks (invMixColumns (xorL ((permute invShiftIdx b).map invSub) k))

/-- AES encryption of a block under a key schedule. -/
def encBlockKs (ks : List (List Nat)) (b : List Nat) : List Nat :=
  match ks with
  | k :: r => encRounds r (xorL b k)
  | [] => b

/-- AES decryption of a block under a key schedule. -/
def decBlockKs (ks : List (List Nat)) (b : List Nat) : List Nat :=
  match ks.reverse with
  | k :: r => decRounds r (xorL b k)
  | [] => b

/-- Octets as Nat, and back. -/
def toN (l : Octets) : List Nat := l.map BitVec.toNat
def ofN (l : List Nat) : Octets := l.map (BitVec.ofNat 8)

/-- AES encryption of one block (the key of 16 or 32 octets chooses AES-128 or AES-256). -/
def aes (key b : Octets) : Octets := ofN (encBlockKs (keySchedule (toN key)) (toN b))

/-- AES decryption of one block. -/
def aesInv (key b : Octets) : Octets := ofN (decBlockKs (keySchedule (toN key)) (toN b))

/-! ### Blocks as numbers -/

/-- Number of a most-significant-first octet list. -/
def be (l : List Nat) : Nat := l.foldl (fun a b => a * 256 + b) 0
/-- `n` octets of a number, most significant first. -/
def unbe : Nat → Nat → List Nat
  | 0, _ => []
  | n + 1, x => (x / 256 ^ n % 256) :: unbe n x
/-- Number of a least-significant-first octet list. -/
def le (l : List Nat) : Nat := l.foldr (fun b a => a * 256 + b) 0

/-- Pieces of 16 octets, the last perhaps shorter; `fuel` bounds their number. -/
def chunks : Nat → List Nat → List (List Nat)
  | 0, _ => []
  | _ + 1, [] => []
  | n + 1, l => l.take 16 :: chunks n (l.drop 16)

/-- A list as 16-octet blocks. -/
def blocks (l : List Nat) : List (List Nat) := chunks (l.length / 16 + 1) l

/-- A block padded with zeros to 16 octets. -/
def pad16 (b : List Nat) : List Nat := b ++ List.replicate (16 - b.length) 0

/-! ### Counter mode, GHASH, GCM -/

/-- Counter-mode keystream exclusive-ored over blocks; the counter is the last four octets, modulo 2^32. -/
def ctr32 (ks : List (List Nat)) (pre ctr : Nat) : List (List Nat) → List Nat
  | [] => []
  | b :: t =>
    xorL b (encBlockKs ks (unbe 16 (pre * 2 ^ 32 + ctr % 2 ^ 32))) ++ ctr32 ks pre (ctr + 1) t

/-- Counter mode over the whole 128-bit counter block. -/
def ctr128 (ks : List (List Nat)) (c : Nat) : List (List Nat) → List Nat
  | [] => []
  | b :: t => xorL b (encBlockKs ks (unbe 16 (c % 2 ^ 128))) ++ ctr128 ks (c + 1) t

/-- GF(2^128) multiplication of GHASH; `n` counts the bits of `x` still to be taken. -/
def ghashMul (x : Nat) : Nat → Nat → Nat → Nat
  | 0, _, z => z
  | n + 1, v, z =>
    let z' := if x.testBit n then z ^^^ v else z
    let v' := if v % 2 = 1 then (v / 2) ^^^ (0xE1 * 2 ^ 120) else v / 2
    ghashMul x n v' z'

/-- GHASH over blocks from a running value. -/
def ghashFrom (h : Nat) (y : Nat) : List (List Nat) → Nat
  | [] => y
  | b :: t => ghashFrom h (ghashMul (y ^^^ be (pad16 b)) 128 h 0) t

/-- GHASH of a string. -/
def ghash (h : Nat) (l : List Nat) : Nat := ghashFrom h 0 (blocks l)

/-- GCM with a 96-bit IV: ciphertext (or plaintext) of `text`, and the 16-octet tag over `aad` and the ciphertext. -/
def gcm (decrypt : Bool) (key iv aad text : Octets) : Octets × Octets :=
  let ks := keySchedule (toN key)
  let h := be (encBlockKs ks (List.replicate 16 0))
  let pre := be (toN iv)
  let body := ctr32 ks pre 2 (blocks (toN text))
  let cipher := if decrypt then toN text else body
  let y1 := ghashFrom h 0 (blocks (toN aad))
  let y2 := ghashFrom h y1 (blocks cipher)
  let y3 := ghashMul (y2 ^^^ (aad.length * 8 * 2 ^ 64 + cipher.length * 8)) 128 h 0
  let e := encBlockKs ks (unbe 16 (pre * 2 ^ 32 + 1))
  (ofN body, ofN (xorL (unbe 16 y3) e))

/-! ### CMAC (SP 800-38B), derivation (SP 800-108) and key wrap (RFC 3394) -/

/-- Doubling in GF(2^128), most significant bit first. -/
def dbl (x : Nat) : Nat := if x < 2 ^ 127 then 2 * x else ((2 * x) % 2 ^ 128) ^^^ 0x87

/-- CBC-MAC over the blocks before the last, then the last block prepared by the caller. -/
def cbcMac (ks : List (List Nat)) (last : Nat) (y : Nat) : List (List Nat) → Nat
  | [] => be (encBlockKs ks (unbe 16 (y ^^^ last)))
  | [_] => be (encBlockKs ks (unbe 16 (y ^^^ last)))
  | b :: t => cbcMac ks last (be (encBlockKs ks (unbe 16 (y ^^^ be b)))) t

/-- AES-CMAC, 16 octets. -/
def cmac (key msg : Octets) : Octets :=
  let ks := keySchedule (toN key)
  let k1 := dbl (be (encBlockKs ks (List.replicate 16 0)))
  let bl := blocks (toN msg)
  let tail := bl.getLastD []
  let last := if tail.length = 16 then be tail ^^^ k1 else be (pad16 (tail ++ [0x80])) ^^^ dbl k1
  ofN (unbe 16 (cbcMac ks last 0 bl))

/-- The six outer steps of RFC 3394 wrap. `r` holds the 8-octet registers; `t` counts the steps made. -/
def wrapPass (ks : List (List Nat)) (t : Nat) (a : List Nat) : List (List Nat) → List Nat × List (List Nat)
  | [] => (a, [])
  | x :: rest =>
    let b := encBlockKs ks (a ++ x)
    let a' := xorL (b.take 8) (unbe 8 (t + 1))
    let p := wrapPass ks (t + 1) a' rest
    (p.1, b.drop 8 :: p.2)

/-- `n` wrap passes. -/
def wrapPasses (ks : List (List Nat)) : Nat → Nat → List Nat → List (List Nat) → List Nat × List (List Nat)
  | 0, _, a, r => (a, r)
  | n + 1, t, a, r =>
    let p := wrapPass ks t a r
    wrapPasses ks n (t + r.length) p.1 p.2

/-- One unwrap pass, registers in reverse order. -/
def unwrapPass (ks : List (List Nat)) (t : Nat) (a : List Nat) : List (List Nat) → List Nat × List (List Nat)
  | [] => (a, [])
  | x :: rest =>
    let b := decBlockKs ks (xorL a (unbe 8 t) ++ x)
    let p := unwrapPass ks (t - 1) (b.take 8) rest
    (p.1, b.drop 8 :: p.2)

/-- `n` unwrap passes. -/
def unwrapPasses (ks : List (List Nat)) : Nat → Nat → List Nat → List (List Nat) → List Nat × List (List Nat)
  | 0, _, a, r => (a, r)
  | n + 1, t, a, r =>
    let p := unwrapPass ks t a r
    unwrapPasses ks n (t - r.length) p.1 p.2

/-- Pieces of 8 octets. -/
def eights : Nat → List Nat → List (List Nat)
  | 0, _ => []
  | _ + 1, [] => []
  | n + 1, l => l.take 8 :: eights n (l.drop 8)

/-- RFC 3394 wrap of a multiple of 8 octets. -/
def keyWrap (key plain : Octets) : Octets :=
  let ks := keySchedule (toN key)
  let p := wrapPasses ks 6 0 (List.replicate 8 0xA6) (eights (plain.length / 8) (toN plain))
  ofN (p.1 ++ p.2.flatten)

/-- RFC 3394 unwrap; none when the integrity value is wrong. -/
def keyUnwrap (key wrapped : Octets) : Option Octets :=
  let ks := keySchedule (toN key)
  let n := wrapped.length / 8 - 1
  let w := toN wrapped
  let p := unwrapPasses ks 6 (6 * n) (w.take 8) (eights n (w.drop 8)).reverse
  if p.1 = List.replicate 8 0xA6 then some (ofN p.2.reverse.flatten) else none

/-! ### Block modes of KDER (R390) -/

/-- ECB over blocks. -/
def ecb (f : List Nat → List Nat) (l : List (List Nat)) : List Nat := (l.map f).flatten

/-- CBC encryption. -/
def cbcEnc (ks : List (List Nat)) (iv : List Nat) : List (List Nat) → List Nat
  | [] => []
  | b :: t =>
    let c := encBlockKs ks (xorL b iv)
    c ++ cbcEnc ks c t

/-- CBC decryption. -/
def cbcDec (ks : List (List Nat)) (iv : List Nat) : List (List Nat) → List Nat
  | [] => []
  | b :: t => xorL (decBlockKs ks b) iv ++ cbcDec ks b t

/-- CFB with 128-bit segments, encryption. -/
def cfbEnc (ks : List (List Nat)) (iv : List Nat) : List (List Nat) → List Nat
  | [] => []
  | b :: t =>
    let c := xorL b (encBlockKs ks iv)
    c ++ cfbEnc ks c t

/-- CFB with 128-bit segments, decryption. -/
def cfbDec (ks : List (List Nat)) (iv : List Nat) : List (List Nat) → List Nat
  | [] => []
  | b :: t => xorL b (encBlockKs ks iv) ++ cfbDec ks b t

/-! ### XTS (IEEE 1619) -/

/-- Multiplication of the tweak by α, octets least significant first. -/
def xtsNext (t : Nat) : Nat := if t < 2 ^ 127 then 2 * t else ((2 * t) % 2 ^ 128) ^^^ 0x87

/-- Sixteen octets of a number, least significant first. -/
def unle16 (x : Nat) : List Nat := (unbe 16 x).reverse

/-- XTS over blocks from tweak value `t`. -/
def xtsBlocks (f : List Nat → List Nat) (t : Nat) : List (List Nat) → List Nat
  | [] => []
  | b :: r =>
    let tw := unle16 t
    xorL (f (xorL b tw)) tw ++ xtsBlocks f (xtsNext t) r

/-- XTS-AES-256 of a data unit: `unit` is the data unit number T (R472, R473). -/
def xts (decrypt : Bool) (k1 k2 : Octets) (unit : Nat) (text : Octets) : Octets :=
  let t := le (encBlockKs (keySchedule (toN k2)) (unle16 unit))
  let ks := keySchedule (toN k1)
  ofN (xtsBlocks (if decrypt then decBlockKs ks else encBlockKs ks) t (blocks (toN text)))

/-! ### SHA3 and SHAKE (FIPS 202) -/

/-- What a round adds to lane 0: bit j of the code stands for bit 2^j − 1 of the lane. -/
def roundLane (code : Nat) : Nat := (List.range 7).foldl (fun v j => if code.testBit j then v + 2 ^ (2 ^ j - 1) else v) 0

/-- The codes of the 24 rounds, from the shift register of FIPS 202, section 3.2.5. -/
def roundCodes : List Nat :=
  [1, 26, 94, 112, 31, 33, 121, 85] ++ [14, 12, 53, 38, 63, 79, 93, 83] ++ [82, 72, 22, 102, 121, 88, 33, 116]

/-- After rho and pi, each lane of a plane comes from a lane of its sheet, turned left: (lane, turn), plane by plane. -/
def turned : List (List (Nat × Nat)) :=
  [[(0, 0), (6, 44), (12, 43), (18, 21), (24, 14)], [(3, 28), (9, 20), (10, 3), (16, 45), (22, 61)],
   [(1, 1), (7, 6), (13, 25), (19, 8), (20, 18)], [(4, 27), (5, 36), (11, 10), (17, 15), (23, 56)],
   [(2, 62), (8, 55), (14, 39), (15, 41), (21, 2)]]

/-- A 64-bit lane turned left by `n` < 64. -/
def turn (v n : Nat) : Nat := v * 2 ^ n % 2 ^ 64 + v / 2 ^ (64 - n)

/-- Chi on a plane of five lanes. -/
def chiPlane (p : List Nat) : List Nat :=
  (List.range 5).map (fun x => p.getD x 0 ^^^ ((2 ^ 64 - 1 - p.getD ((x + 1) % 5) 0) &&& p.getD ((x + 2) % 5) 0))

/-- One round on a state of 25 lanes, lane x + 5y. -/
def spongeRound (a : List Nat) (code : Nat) : List Nat :=
  let col := (List.range 5).map (fun x => xorAll ((List.range 5).map (fun y => a.getD (x + 5 * y) 0)))
  let mixed := fun (k : Nat) => a.getD k 0 ^^^ col.getD ((k + 4) % 5) 0 ^^^ turn (col.getD ((k + 1) % 5) 0) 1
  match (turned.map (fun plane => chiPlane (plane.map (fun e => turn (mixed e.1) e.2)))).flatten with
  | v :: rest => (v ^^^ roundLane code) :: rest
  | [] => []
where
  /-- Exclusive or of a list. -/
  xorAll (l : List Nat) : Nat := l.foldl (fun u v => u ^^^ v) 0

/-- The permutation. -/
def spongePermute (a : List Nat) : List Nat := roundCodes.foldl spongeRound a

/-- A message padded to whole blocks of `rate` octets; `last` holds the domain bits and the first bit of the padding. -/
def padded (rate last : Nat) (m : List Nat) : List Nat :=
  let z := rate - 1 - m.length % rate
  if z = 0 then m ++ [last + 0x80] else m ++ [last] ++ List.replicate (z - 1) 0 ++ [0x80]

/-- Octets of `n` blocks taken from a state. -/
def squeeze (rate : Nat) : Nat → List Nat → List Nat
  | 0, _ => []
  | n + 1, a => (a.flatMap (fun v => (unbe 8 v).reverse)).take rate ++ squeeze rate n (spongePermute a)

/-- The sponge: `n` octets from a message (FIPS 202). -/
def sponge (rate last n : Nat) (m : List Nat) : List Nat :=
  let p := padded rate last m
  let a := (List.range (p.length / rate)).foldl (fun a j =>
    let blk := (p.drop (rate * j)).take rate
    spongePermute ((List.range 25).map (fun k => a.getD k 0 ^^^ le ((blk.drop (8 * k)).take 8)))) (List.replicate 25 0)
  (squeeze rate ((n + rate - 1) / rate) a).take n

/-- SHA3-256 of a string: 32 octets. -/
def sha3 (l : Octets) : Octets := ofN (sponge 136 0x06 32 (toN l))

/-! ### Cyclic redundancy checks -/

/-- `n` shifts of a reflected CRC register. -/
def crcShift (poly : Nat) : Nat → Nat → Nat
  | 0, c => c
  | n + 1, c => crcShift poly n (if c % 2 = 1 then (c / 2) ^^^ poly else c / 2)

/-- A reflected CRC register over octets. -/
def crcReg (poly : Nat) (c : Nat) (l : Octets) : Nat :=
  l.foldl (fun c b => crcShift poly 8 (c ^^^ b.toNat)) c

/-- IEEE 802.3 CRC-32. -/
def crc32 (l : Octets) : Nat := crcReg 0xEDB88320 0xFFFFFFFF l ^^^ 0xFFFFFFFF

/-- CRC-32C (Castagnoli) from a given start value. -/
def crc32cFrom (start : Nat) (l : Octets) : Nat := crcReg 0x82F63B78 start l

/-- `n` shifts of a most-significant-first CRC-16 register. -/
def crc16Shift (poly : Nat) : Nat → Nat → Nat
  | 0, c => c
  | n + 1, c => crc16Shift poly n (if 0x8000 ≤ c then ((2 * c) % 0x10000) ^^^ poly else 2 * c)

/-- A most-significant-first CRC-16. -/
def crc16 (poly start : Nat) (l : Octets) : Nat :=
  l.foldl (fun c b => crc16Shift poly 8 (c ^^^ (b.toNat * 256))) start

/-! ### The BCH(80,66) code (R468) -/

/-- The generator polynomial m1(x) · m3(x) for x^7 + x^3 + 1, degree 14. -/
def bchGen : Nat := 0x4377

/-- Remainder of a polynomial of degree below `n + 14` modulo the generator. -/
def bchRem : Nat → Nat → Nat
  | 0, x => x
  | n + 1, x => bchRem n (if x.testBit (n + 14) then x ^^^ (bchGen * 2 ^ n) else x)

/-- Syndrome of an 80-bit word, bit b standing for x^b. DEDUCED: the order in which 0x2AD5 in CHECK is the syndrome of
no pattern of one or two errors (R481). -/
def bchSyndrome (w : Nat) : Nat := bchRem 66 w

/-- CHECK of 66 bits: the value that makes the syndrome 0. x^61 is the inverse of x^66 modulo the generator. -/
def bchCheck (d : Nat) : Nat := bchRem 113 ((d % 2 ^ 66) * 2 ^ 61)

/-- A word with its check bits. -/
def bchEncode (d : Nat) : BitVec 80 := BitVec.ofNat 80 ((d % 2 ^ 66) + bchCheck d * 2 ^ 66)

/-- Error patterns of one bit below `n`. -/
def single (n : Nat) : List Nat := (List.range n).map (2 ^ ·)

/-- The pattern of one or two bit errors with a syndrome, if there is one. -/
def bchFind (syn : Nat) : Option Nat :=
  match (single 80).find? (fun e => bchSyndrome e == syn) with
  | some e => some e
  | none => (List.range 80).findSome? (fun i =>
      (single i).findSome? (fun e => if bchSyndrome (e + 2 ^ i) == syn then some (e + 2 ^ i) else none))

/-- Decoding of a word: the corrected word, and whether a correction was made; none when it is uncorrectable. -/
def bchDecode (w : BitVec 80) : Option (BitVec 80 × Bool) :=
  let syn := bchSyndrome w.toNat
  if syn = 0 then some (w, false)
  else (bchFind syn).map (fun e => (w ^^^ BitVec.ofNat 80 e, true))

end Sys2Proof.Machine.Crypto
end

