-- ==== Sys2Proof/Machine/CulvertMem.lean ====
section
/-! DEFINITION. Culvert's sectors: words and their code, encryption, tags, counters, poison, damaged nodes, and the
reads and writes of one sector (R466 to R491, R495). -/

namespace Sys2Proof.Machine

open Sys2Proof

namespace Ctrs
def CUL_CE : CtrId := ⟨0x0C, 0⟩
def CUL_UE : CtrId := ⟨0x0C, 1⟩
def CUL_TAG_FAILS : CtrId := ⟨0x0C, 2⟩
def CUL_POISONED : CtrId := ⟨0x0C, 3⟩
def CUL_CTR_SAT : CtrId := ⟨0x0C, 4⟩
def CUL_COLOUR_REF : CtrId := ⟨0x0C, 5⟩
def CUL_SCRUBBED : CtrId := ⟨0x0C, 6⟩
def CUL_RD_OCTETS : CtrId := ⟨0x0D, 0⟩
def CUL_WR_OCTETS : CtrId := ⟨0x0D, 1⟩
def CUL_RMW : CtrId := ⟨0x0D, 2⟩
def CUL_TREE_DAMAGED : CtrId := ⟨0x0D, 3⟩
def CUL_RESEALS : CtrId := ⟨0x0D, 4⟩
end Ctrs

/-- A port of Culvert: the requester code of R695, and the generation that Basin's cell port passes (R475). -/
structure CulPort where
  req : Nat
  gen : Option Nat := none
  deriving DecidableEq, Repr

/-- What a range holds. -/
def State.range (s : State) (r : Nat) : RangeState := Tbl.get {} s.culvert.ranges r

/-- A range's holdings set. -/
def State.setRange (s : State) (r : Nat) (x : RangeState) : State :=
  { s with culvert := { s.culvert with ranges := Tbl.set {} s.culvert.ranges r x } }

/-- First octet of a range (R498). -/
def State.rangeBase (s : State) (r : Nat) : Nat := s.rd CUL_RNG.BASE_MB r * 2 ^ 20

/-- Octets of a range (R498). -/
def State.rangeSize (s : State) (r : Nat) : Nat := (s.rd CUL_RNG.SIZE_MB r + 1) * 2 ^ 20

/-- The enabled range that holds a memory offset (R470). -/
def State.rangeAt (s : State) (o : Nat) : Option Nat :=
  (List.range 8).find? (fun r => s.is CUL_RNG.EN r && decide (s.rangeBase r ≤ o) &&
    decide (o < s.rangeBase r + s.rangeSize r))

/-- TYPE of a range: 1 Confidential, 2 Sealed, 3 Sealed-fresh (R469). -/
def State.rangeType (s : State) (r : Nat) : Nat := s.rd CUL_RNG.TYPE r

/-- Nodes of a level of the tree over `n` sectors: ⌈n ÷ 8^k⌉ (R476). -/
def treeNodes (n k : Nat) : Nat := (n + 8 ^ k - 1) / 8 ^ k

/-- Levels held off chip: those with more than 4,096 nodes (R477). -/
def treeOff (n : Nat) : Nat := ((List.range 10).filter (fun k => decide (4096 < treeNodes n (k + 1)))).length

/-- Levels of the tree, up to the first with one node (R476). -/
def treeLevels (n : Nat) : Nat := ((List.range 10).filter (fun k => decide (1 < treeNodes n (k + 1)))).length + 1

/-- Octets of the tree area, rounded up to 1 MiB, in MiB (R499). -/
def treeAreaMb (n : Nat) : Nat :=
  (((List.range (treeOff n)).map (fun k => treeNodes n (k + 1))).foldl (· + ·) 0 * 64 + 2 ^ 20 - 1) / 2 ^ 20

/-- Sector number within its range (R476). -/
def State.rangeSector (s : State) (r sec : Nat) : Nat := sec - s.rangeBase r / 256

/-- The counter value set over a subtree that covers a sector at a level (R486, R492). -/
def initValue (k sec : Nat) : List (Nat × Nat × Nat × Nat) → Nat
  | [] => 0
  | (lv, lo, hi, v) :: t => if k ≤ lv ∧ lo ≤ sec ∧ sec < hi then v else initValue k sec t

/-- Write counter of a sector of a Sealed-fresh range (R476). -/
def RangeState.sectorCtr (x : RangeState) (rs : Nat) : Nat :=
  let v := Tbl.get 0 x.ctr rs
  if v = 0 then initValue 0 rs x.init else v - 1

/-- Counter of node `j` of level `k` in its parent (R476). -/
def RangeState.nodeCtr (x : RangeState) (k j : Nat) : Nat :=
  let v := Tbl.get 0 x.node (k * 2 ^ 28 + j)
  if v = 0 then initValue k (j * 8 ^ k) x.init else v - 1

/-- F of an access (R472, R475). -/
def State.culF (s : State) (r sec : Nat) (p : CulPort) : Nat :=
  if s.rangeType r = 2 then p.gen.getD 0
  else if s.rangeType r = 3 then (s.range r).sectorCtr (s.rangeSector r sec)
  else 0

/-- The tweak T of a data sector (R472). -/
def State.culT (s : State) (r sec f : Nat) : Nat :=
  sec + f * 2 ^ 28 + r * 2 ^ 92 + (s.rd CUL_RSTAT.ENABLES r % 2 ^ 16) * 2 ^ 96

/-- The tag of ciphertext under a tweak (R474): its first octet is bits [7:0]. -/
def culTag (k3 cipher : Octets) (t : Nat) : Nat :=
  let h := Crypto.be (Crypto.toN (Crypto.aes k3 (List.replicate 16 0)))
  let y := Crypto.ghash h (Crypto.toN (cipher ++ leBytes 16 t))
  leNat ((Crypto.aes k3 (Crypto.ofN (Crypto.unbe 16 y))).take 8)

/-- The 32 words of a sector from ciphertext and tag (R467, R474). -/
def culWords (cipher : Octets) (tag : Nat) : List (BitVec 80) :=
  (List.range 32).map (fun w =>
    Crypto.bchEncode (leNat (slice cipher (8 * w) 8) + (tag / 2 ^ (2 * w) % 4) * 2 ^ 64))

/-- The words of plaintext encrypted and tagged under F (R473, R474). -/
def State.culSeal (s : State) (r sec f : Nat) (plain : Octets) : List (BitVec 80) :=
  let x := s.range r
  let t := s.culT r sec f
  let c := Crypto.xts false x.k1 x.k2 t plain
  culWords c (if s.rangeType r = 1 then 0 else culTag x.k3 c t)

/-- F under which a sector that nothing has written was sealed: 0 by the initialisation, whatever the counters were set
to (R492); its counter by a RESEAL (R486). The entry of the initialisation is the one of level 11. -/
def initF (sec : Nat) : List (Nat × Nat × Nat × Nat) → Nat
  | [] => 0
  | (lv, lo, hi, v) :: t => if lo ≤ sec ∧ sec < hi then (if lv = 11 then 0 else v) else initF sec t

/-- The raw words of a sector: as last written; else as initialised (R492), or free in a Confidential range. -/
def State.culRaw (s : State) (r sec : Nat) : List (BitVec 80) :=
  match Tbl.get [] s.culvert.sectors sec with
  | [] =>
    if s.rangeType r = 1 then (List.range 32).map (fun w => Config.freeSector (s.range r).fill sec w)
    else s.culSeal r sec (initF (s.rangeSector r sec) (s.range r).init) (List.replicate 256 0)
  | ws => ws

/-- A sector's raw words set. -/
def State.setCulRaw (s : State) (sec : Nat) (ws : List (BitVec 80)) : State :=
  { s with culvert := { s.culvert with sectors := Tbl.set [] s.culvert.sectors sec ws } }

/-- Bit errors that the stack has developed in a sector: word and pattern. -/
def State.culFlip (s : State) (r sec : Nat) : List (Nat × BitVec 80) → State
  | [] => s
  | (w, m) :: t =>
    let ws := s.culRaw r sec
    (s.setCulRaw sec (setAt ws w (ws.getD w 0 ^^^ m))).culFlip r sec t

/-- A word bears the syndrome of R481. -/
def poisonWord (w : BitVec 80) : Bool :=
  Crypto.bchSyndrome w.toNat == Crypto.bchSyndrome (0x2AD5 * 2 ^ 66)

/-- A sector is known to be poisoned: its number is in the poison table; or, once the table has overflowed, its word 0
bears the syndrome (R481, R482). -/
def State.culPoisoned (s : State) (r sec : Nat) : Bool :=
  decide (s.rangeType r ≠ 1) &&
  (s.culvert.poison.contains sec || (s.is CUL_STAT.POISON_OVF && poisonWord ((s.culRaw r sec).getD 0 0)))

/-- One word decoded: corrected, counted, written back and checked for a hard fault, or reported uncorrectable
(R483, R484). -/
def State.culFixWord (s : State) (r sec w req : Nat) : Option (BitVec 80) × State :=
  let ws := s.culRaw r sec
  let page := r + (sec / 16) * 2 ^ 3 + (sec % 16 * 32 + w) * 2 ^ 27 + req * 2 ^ 36
  match Crypto.bchDecode (ws.getD w 0) with
  | none => (none, ((s.mark CUL_STAT.UE).count Ctrs.CUL_UE).report 0x71 page)
  | some (x, false) => (some x, s)
  | some (x, true) =>
    let s1 := (s.setCulRaw sec (setAt ws w x)).mark CUL_STAT.CE
    let key := sec * 32 + w
    if s.culvert.corrected.contains key then (some x, s1.report 0x76 page)
    else (some x, ({ s1 with culvert := { s1.culvert with corrected := key :: s1.culvert.corrected } }).count
      Ctrs.CUL_CE)

/-- Words decoded in order, up to the first that is uncorrectable. -/
def State.culFix (s : State) (r sec req : Nat) : List Nat → Option (List (BitVec 80)) × State
  | [] => (some [], s)
  | w :: t =>
    match s.culFixWord r sec w req with
    | (none, s1) => (none, s1)
    | (some x, s1) =>
      match s1.culFix r sec req t with
      | (none, s2) => (none, s2)
      | (some l, s2) => (some (x :: l), s2)

/-- DATA of decoded words as octets (R467). -/
def wordData (ws : List (BitVec 80)) : Octets := (ws.map (fun w => leBytes 8 (w.toNat % 2 ^ 64))).flatten

/-- The tag held in SPARE of 32 words (R474). -/
def wordTag (ws : List (BitVec 80)) : Nat :=
  ws.foldr (fun w a => a * 4 + (w.toNat / 2 ^ 64) % 4) 0

/-- Octets counted toward the budget and the range's octet counters (R495, R503). -/
def State.culCharge (s : State) (r : Nat) (isRead : Bool) (n : Nat) : State :=
  ({ s with culvert := { s.culvert with windowSum := s.culvert.windowSum + n } }).count
    (if isRead then Ctrs.CUL_RD_OCTETS else Ctrs.CUL_WR_OCTETS) r n

/-- 64-octet bursts touched by `n` octets from octet `lo` of a sector. -/
def burstsOf (lo n : Nat) : Nat := if n = 0 then 0 else (lo + n - 1) / 64 - lo / 64 + 1

/-- Index of the node of a level on a sector's path (R476). -/
def pathNode (rs k : Nat) : Nat := rs / 8 ^ k

/-- A node of the sector's path is in the damaged-node list (R485). -/
def State.culDamaged (s : State) (r sec : Nat) : Bool :=
  let rs := s.rangeSector r sec
  decide (s.rangeType r = 3) && (s.range r).damaged.any (fun d => decide (pathNode rs d.1 = d.2))

/-- A node found damaged (R485, R487): listed, or the range is DEAD. -/
def State.culDamage (s : State) (r k j : Nat) : State :=
  let x := s.range r
  if x.damaged.contains (k, j) then s
  else
    let s1 := (s.mark CUL_STAT.TREE_BAD).count Ctrs.CUL_TREE_DAMAGED r
    let s2 :=
      if 256 ≤ x.damaged.length then s1.mark CUL_RSTAT.DEAD r
      else (s1.setRange r { x with damaged := x.damaged ++ [(k, j)] }).wr CUL_RSTAT.DAMAGED (x.damaged.length + 1) r
    s2.report 0x74 (r + k * 2 ^ 3 + j * 2 ^ 7)

/-- The eight counters that a node holds (R476). -/
def RangeState.nodeCounters (x : RangeState) (k j : Nat) : List Nat :=
  (List.range 8).map (fun n => if k = 1 then x.sectorCtr (8 * j + n) else x.nodeCtr (k - 1) (8 * j + n))

/-- The tweak T of a tree node (R472). -/
def State.nodeT (s : State) (r k j : Nat) : Nat :=
  j + (s.range r).nodeCtr k j * 2 ^ 28 + r * 2 ^ 92 + 2 ^ 95 + (s.rd CUL_RSTAT.ENABLES r % 2 ^ 16) * 2 ^ 96 + k * 2 ^ 112

/-- The tag of an off-chip node over the octets of its counters (R477). -/
def State.nodeTag (s : State) (r k j : Nat) (counters : Octets) : Nat :=
  culTag (s.range r).k3 (counters ++ List.replicate 8 0) (s.nodeT r k j)

/-- The 64 octets of an off-chip node: its counters, 56 bits each, and its tag (R477). -/
def State.nodeOctets (s : State) (r k j : Nat) : Octets :=
  let c := ((s.range r).nodeCounters k j).flatMap (leBytes 7)
  c ++ leBytes 8 (s.nodeTag r k j c)

/-- Offset of an off-chip node in the tree area of a range of `n` sectors (R477). -/
def nodeOffset (n k j : Nat) : Nat := 64 * (j + ((List.range (k - 1)).map (fun l => treeNodes n (l + 1))).sum)

/-- An off-chip node read with bit errors in its words: whether they could be corrected and its tag verifies (R477,
R485). SPARE is 0 in tree areas (R467). -/
def State.nodeSurvives (s : State) (r k j : Nat) (flips : List (Nat × BitVec 80)) : Bool :=
  let o := s.nodeOctets r k j
  let ws := (List.range 8).map (fun w =>
    Crypto.bchDecode ((flips.filter (fun e => decide (e.1 = w))).foldl (fun a e => a ^^^ e.2)
      (Crypto.bchEncode (leNat (slice o (8 * w) 8)))))
  if ws.any Option.isNone then false
  else
    let d := (ws.filterMap id).flatMap (fun x => leBytes 8 (x.1.toNat % 2 ^ 64))
    decide (leNat (d.drop 56) = s.nodeTag r k j (d.take 56))

/-- The path of a Sealed-fresh sector verified: false when a node on it is or is found damaged (R478, R485). -/
def State.culPath (s : State) (r sec : Nat) (f : NodeFind) : Bool × State :=
  if s.rangeType r ≠ 3 then (true, s)
  else if s.culDamaged r sec then (false, s)
  else match f with
    | .good => (true, s)
    | .corrected _ => (true, (s.mark CUL_STAT.CE).count Ctrs.CUL_CE)
    | .flips k l =>
      let j := pathNode (s.rangeSector r sec) k
      if l = [] ∨ k = 0 ∨ treeOff (s.rangeSize r / 256) < k then (true, s)
      else if s.nodeSurvives r k j l then (true, (s.mark CUL_STAT.CE).count Ctrs.CUL_CE)
      else (false, s.culDamage r k j)
    | .bad k =>
      let lv := treeLevels (s.rangeSize r / 256)
      if 1 ≤ k ∧ k ≤ lv then (false, s.culDamage r k (pathNode (s.rangeSector r sec) k)) else (true, s)

/-- A range serves an access: READY and not DEAD (R470, R487). -/
def State.rangeServes (s : State) (r : Nat) : Bool := s.is CUL_RNG.READY r && !s.is CUL_RSTAT.DEAD r

/-- Decoded, verified and decrypted octets of a sector: all 256 (Sealed, Sealed-fresh), or the words asked for
(Confidential, where the others read 0). -/
def State.culOpen (s : State) (r sec : Nat) (p : CulPort) (words : List Nat) (tagKind : Bool) :
    Option Octets × State :=
  let x := s.range r
  let t := s.culT r sec (s.culF r sec p)
  if s.rangeType r = 1 then
    match s.culFix r sec p.req words with
    | (none, s1) => (none, s1)
    | (some _, s1) => (some (Crypto.xts true x.k1 x.k2 t (wordData (s1.culRaw r sec))), s1)
  else
    match s.culFix r sec p.req (List.range 32) with
    | (none, s1) => (none, s1)
    | (some ws, s1) =>
      let c := wordData ws
      if wordTag ws = culTag x.k3 c t then (some (Crypto.xts true x.k1 x.k2 t c), s1)
      else
        let s2 := (s1.mark CUL_STAT.TAG_FAIL).count Ctrs.CUL_TAG_FAILS
        (none, if tagKind then s2.report 0x72 (r + sec * 2 ^ 3 + p.req * 2 ^ 31) else s2)

/-- Words that hold octets `lo` to `lo + n − 1` of a sector, by whole 16-octet blocks. -/
def blockWords (lo n : Nat) : List Nat :=
  (List.range 32).filter (fun w => decide (lo / 16 ≤ w / 2) && decide (0 < n) && decide (w / 2 ≤ (lo + n - 1) / 16))

/-- A read of `n` octets from octet `lo` of a sector (R470, R474, R478, R481, R484); none is a bus error. -/
def State.culRead (s : State) (p : CulPort) (sec lo n : Nat) (f : NodeFind := .good) : Option Octets × State :=
  match s.rangeAt (sec * 256) with
  | none => (none, s)
  | some r =>
    if !s.rangeServes r then (none, s)
    else
      let d := treeOff (s.rangeSize r / 256)
      let cost := if s.rangeType r = 1 then 64 * burstsOf lo n
        else if s.rangeType r = 2 then 256 else 256 + 64 * d
      let s0 := s.culCharge r true cost
      match s0.culPath r sec f with
      | (false, s1) => (none, s1)
      | (true, s1) =>
        if s1.culPoisoned r sec then (none, s1)
        else match s1.culOpen r sec p (blockWords lo n) true with
          | (none, s2) => (none, s2)
          | (some o, s2) => (some (slice o lo n), s2)

/-- The write counter of a sector and the counters on its path up to the lowest on-chip level advanced; none when one
of them holds 2^56 − 1 (R478). -/
def State.culAdvance (s : State) (r sec : Nat) : Option State :=
  let x := s.range r
  let rs := s.rangeSector r sec
  let d := treeOff (s.rangeSize r / 256)
  let c := x.sectorCtr rs
  let path := (List.range d).map (fun k => (k + 1, pathNode rs (k + 1)))
  let top := 2 ^ 56 - 1
  if c = top ∨ path.any (fun kj => decide (x.nodeCtr kj.1 kj.2 = top)) then none
  else
    let node := path.foldl (fun t kj => Tbl.set 0 t (kj.1 * 2 ^ 28 + kj.2) (x.nodeCtr kj.1 kj.2 + 2)) x.node
    let high := path.foldl (fun h kj => max h (x.nodeCtr kj.1 kj.2 + 1)) (max x.hwm (c + 1))
    some (s.setRange r { x with ctr := Tbl.set 0 x.ctr rs (c + 2), node := node, hwm := high })

/-- A whole sector written: counters advanced, encrypted, tagged and stored (R478, R480 step 5). -/
def State.culStore (s : State) (r sec : Nat) (p : CulPort) (plain : Octets) : Bool × State :=
  if s.rangeType r = 3 then
    match s.culAdvance r sec with
    | none => (false, s.count Ctrs.CUL_CTR_SAT)
    | some s1 => (true, s1.setCulRaw sec (s1.culSeal r sec (s1.culF r sec p) plain))
  else (true, s.setCulRaw sec (s.culSeal r sec (s.culF r sec p) plain))

/-- A sector poisoned (R481, R482). -/
def State.culPoison (s : State) (r sec req : Nat) : State :=
  let ws := (s.culRaw r sec).map (fun w =>
    BitVec.ofNat 80 (w.toNat % 2 ^ 66 + (Crypto.bchCheck (w.toNat % 2 ^ 66) ^^^ 0x2AD5) * 2 ^ 66))
  let s1 := ((s.setCulRaw sec ws).mark CUL_STAT.POISON).count Ctrs.CUL_POISONED
  let s2 :=
    if s.culvert.poison.length < 65536 then
      ({ s1 with culvert := { s1.culvert with poison := s1.culvert.poison ++ [sec] } }).wr CUL_STAT.POISONED
        (s.culvert.poison.length + 1)
    else s1.mark CUL_STAT.POISON_OVF
  s2.report 0x73 (r + sec * 2 ^ 3 + req * 2 ^ 31)

/-- Cost of a write of `n` octets from octet `lo` (R495). -/
def State.culWriteCost (s : State) (r lo n : Nat) : Nat :=
  let d := treeOff (s.rangeSize r / 256)
  let whole := decide (lo = 0 ∧ n = 256)
  let blocks := decide (lo % 16 = 0 ∧ n % 16 = 0)
  if s.rangeType r = 1 then (if whole || blocks then 64 else 128) * burstsOf lo n
  else (if whole then 256 else 512) + (if s.rangeType r = 3 then 128 * d else 0)

/-- A write of octets from octet `lo` of a sector (R478, R480, R481); false is a bus error. -/
def State.culWrite (s : State) (p : CulPort) (sec lo : Nat) (data : Octets) (f : NodeFind := .good) : Bool × State :=
  match s.rangeAt (sec * 256) with
  | none => (false, s)
  | some r =>
    if !s.rangeServes r then (false, s)
    else
      let n := data.length
      let whole := decide (lo = 0 ∧ n = 256)
      let probe := whole && s.is CUL_STAT.POISON_OVF && decide (s.rangeType r ≠ 1)
      let s0 := s.culCharge r false (s.culWriteCost r lo n + (if probe then 64 else 0))
      match s0.culPath r sec f with
      | (false, s1) => (false, s1)
      | (true, s1) =>
        if s1.culPoisoned r sec then (false, s1)
        else if whole then s1.culStore r sec p data
        else if s1.rangeType r = 1 then
          let partly := (List.range 32).filter (fun w =>
            ((blockWords lo n).contains w) && !(decide (lo ≤ w / 2 * 16) && decide (w / 2 * 16 + 16 ≤ lo + n)))
          match s1.culOpen r sec p partly true with
          | (none, s2) => (false, s2)
          | (some o, s2) =>
            let full := s2.culSeal r sec 0 (splice o lo data)
            let old := s2.culRaw r sec
            let touched := blockWords lo n
            (true, s2.setCulRaw sec ((List.range 32).map (fun w =>
              if touched.contains w then full.getD w 0 else old.getD w 0)))
        else
          let s2 := s1.count Ctrs.CUL_RMW r
          match s2.culOpen r sec p [] false with
          | (none, s3) => (false, s3.culPoison r sec p.req)
          | (some o, s3) => s3.culStore r sec p (splice o lo data)

end Sys2Proof.Machine
end

