-- ==== Sys2Proof/Machine/Access.lean ====
section
/-! DEFINITION. The interconnect: colours, the Colour Map, the default map, the owner and target checks, and the octets
of the Pools and of Culvert memory behind them (R377, R504 to R513, R518 to R520, R490, R703, R704). -/

namespace Sys2Proof.Machine

open Sys2Proof

namespace Ctrs
def CMP_REFUSED : CtrId := ⟨0x0E, 0⟩
def CMP_DEFAULT_PASS : CtrId := ⟨0x0F, 0⟩
def CMP_DBG_LOCKED : CtrId := ⟨0x0F, 1⟩
def CMP_WR_REFUSED : CtrId := ⟨0x0F, 2⟩
def CMP_COMMITS : CtrId := ⟨0x0F, 3⟩
def CMP_HANDOVERS : CtrId := ⟨0x0F, 4⟩
def CMP_HELD : CtrId := ⟨0x0F, 5⟩
end Ctrs

/-- A thread of the Tide block. -/
def State.thread (s : State) (t : Nat) : Thread := Tbl.get {} s.tide.threads t

/-- A thread set. -/
def State.setThread (s : State) (t : Nat) (x : Thread) : State :=
  { s with tide := { s.tide with threads := Tbl.set {} s.tide.threads t x } }

/-- In mode M2, Factory. -/
def State.factory (s : State) : Bool := decide (s.rd GBL_MODE.MODE = 2)

/-- Who makes an access: master, colour, and whether an access with no matching entry meets the default map (R505). -/
structure Requester where
  m : Master
  colour : Nat
  dflt : Bool
  deriving DecidableEq, Repr

/-- The requester a master is at present (R505, R326, R677). -/
def State.requester (s : State) (m : Master) : Requester :=
  match m with
  | .host => ⟨m, s.rd HIF_CTL.HCOLOUR, true⟩
  | .dma r => ⟨m, s.rd HIF_RCFG.COLOUR r, true⟩
  | .thread t => ⟨m, (s.thread t).colour, (s.thread t).warden⟩
  | .engine t => ⟨m, (s.thread t).colour, (s.thread t).warden⟩
  | .sounding => ⟨m, 2, true⟩
  | .debug => ⟨m, 15, false⟩

/-- The three spaces of R377. -/
inductive Space where
  | regs
  | pool (k : Nat)
  | culvert (offset : Nat)
  | none
  deriving DecidableEq, Repr

/-- The space that an address lies in (R377, R519). -/
def spaceOf (a : Nat) : Space :=
  if a < 0x4000000 then .regs
  else if 0x100000000 ≤ a ∧ a < 0x104000000 then .pool ((a - 0x100000000) / 0x400000)
  else if 0x1000000000 ≤ a ∧ a < 0x2000000000 then .culvert (a - 0x1000000000)
  else .none

/-- Entry `n` of the live table covers an address (R507). -/
def State.covers (s : State) (n a : Nat) : Bool :=
  s.is CMP_LATTR.V n && decide (s.rd CMP_LSTART.START n ≤ a / 64) && decide (a / 64 ≤ s.rd CMP_LEND.END n)

/-- The entry that applies: the lowest-numbered that covers (R507). -/
def State.entryFor (s : State) (a : Nat) : Option Nat := (List.range 512).find? (fun n => s.covers n a)

/-- The rights an access needs, granted by R, W and X (R508). -/
def rightsGrant (k : AccKind) (r w x : Bool) : Bool :=
  match k with
  | .read => r
  | .write => w
  | .fetch => x
  | .atomic => r && w

/-- The default map's rights (R510). -/
def defaultGrants (k : AccKind) (sp : Space) : Bool :=
  match sp with
  | .regs => rightsGrant k true true false
  | .pool _ => rightsGrant k true true true
  | .culvert _ => false
  | .none => true

/-- What a check says. -/
inductive Check where
  | pass (dflt : Bool)
  /-- refused under R513: DEFAULT, OWNER and ENTRY of CMP_VINFO -/
  | refuse (dflt owner : Bool) (entry : Nat)
  /-- a bus error of the target -/
  | bus
  /-- the debug master meets a locked region (R518) -/
  | lock
  deriving DecidableEq, Repr

/-- The Colour Map's judgment of an access (R507 to R511, R518). -/
def State.mapCheck (s : State) (q : Requester) (k : AccKind) (a : Nat) : Check :=
  match q.m with
  | .debug =>
    if s.factory then .pass true
    else if !s.is GBL_DEBUG.OPEN then .lock
    else match s.entryFor a with
      | none => .lock
      | some n =>
        if s.rd CMP_LATTR.COLOUR n = 15 ∧
            rightsGrant k (s.is CMP_LATTR.R n) (s.is CMP_LATTR.W n) (s.is CMP_LATTR.X n) then .pass false
        else .lock
  | _ =>
    match s.entryFor a with
    | some n =>
      if s.rd CMP_LATTR.COLOUR n = q.colour ∧
          rightsGrant k (s.is CMP_LATTR.R n) (s.is CMP_LATTR.W n) (s.is CMP_LATTR.X n) then .pass false
      else .refuse false false n
    | none => if q.dflt ∧ defaultGrants k (spaceOf a) then .pass true else .refuse true false 0

/-- The page of a Culvert offset is retired (R703). -/
def State.pageRetired (s : State) (o : Nat) : Bool :=
  (List.range 256).any (fun n => s.is ELG_RETPAGE.V n && decide (s.rd ELG_RETPAGE.PAGE n = o / 4096))

/-- The Pool serves Culvert's tree only (R479). -/
def State.treePool (s : State) (k : Nat) : Bool :=
  s.is CUL_CTL.TREE_EN && decide (s.rd CUL_CTL.TREE_POOL = k)

/-- The target's checks of an access that has passed the Colour Map (R520, R479, R490, R703, R704, R380). -/
def State.targetCheck (s : State) (q : Requester) (k : AccKind) (a : Nat) (p : Check) : Check :=
  match spaceOf a with
  | .regs => if k = .atomic then .bus else p
  | .none => .bus
  | .pool n =>
    if s.treePool n ∨ (s.rd ELG_RETPOOL.RET).testBit n then .bus
    else if s.rd POOL_OWN.OWNER n = q.colour then p
    else match q.m, s.factory with
      | .debug, false => .lock
      | _, _ => .refuse (match p with | .pass d => d | _ => false) true
          (match s.entryFor a with | some e => e | none => 0)
  | .culvert o =>
    if k = .atomic ∨ s.pageRetired o then .bus
    else match s.rangeAt o with
      | none => .bus
      | some r =>
        if (s.rd CUL_RNG.COLOURS r).testBit q.colour then p
        else match q.m, s.factory with
          | .debug, false => .lock
          | _, _ => .bus

/-- A refusal captured and counted (R513, R528). -/
def State.refuse (s : State) (q : Requester) (k : AccKind) (a : Nat) (dflt owner : Bool) (entry : Nat) : State :=
  let s1 :=
    if s.is CMP_STAT.VIOL then s
    else
      let info := b2n dflt * 2 ^ 31 + b2n owner * 2 ^ 30 + (if dflt then 0 else entry) * 2 ^ 11 + k.code * 2 ^ 8 +
        q.m.code * 2 ^ 4 + q.colour
      ((s.setReg .CMP_VIOL (BitVec.ofNat 64 a)).setReg .CMP_VINFO (BitVec.ofNat 64 info)).mark CMP_STAT.VIOL
  s1.count Ctrs.CMP_REFUSED q.colour

/-- The effects of a check on the registers and counters (R513, R518, R529, R490, R703, R704). -/
def State.checked (s : State) (q : Requester) (k : AccKind) (a : Nat) (c : Check) : State :=
  match c with
  | .pass true => s.count Ctrs.CMP_DEFAULT_PASS
  | .pass false => s
  | .refuse d o e => s.refuse q k a d o e
  | .lock => ((s.mark CMP_STAT.DBG_LOCK).count Ctrs.CMP_DBG_LOCKED).leveeEvent 13 (bits a 21 6)
  | .bus =>
    match spaceOf a with
    | .pool n => if (s.rd ELG_RETPOOL.RET).testBit n ∧ !s.treePool n then
        s.wr ELG_KCNT.COUNT ((s.rd ELG_KCNT.COUNT 0 + 1) % 2 ^ 48) 0 else s
    | .culvert o =>
      if s.pageRetired o then s.wr ELG_KCNT.COUNT ((s.rd ELG_KCNT.COUNT 0 + 1) % 2 ^ 48) 0
      else match s.rangeAt o with
        | some r => if (s.rd CUL_RNG.COLOURS r).testBit q.colour then s else s.count Ctrs.CUL_COLOUR_REF
        | none => s
    | _ => s

/-- An access checked whole: the Colour Map, then its target (R508, R509). -/
def State.check (s : State) (q : Requester) (k : AccKind) (a : Nat) : Check × State :=
  let c := match s.mapCheck q k a with
    | .pass d => s.targetCheck q k a (.pass d)
    | c => c
  (c, s.checked q k a c)

/-! ### The octets of the Pools -/

/-- An octet of a Pool; an octet that nothing has written reads 0 (DESIGN CHOICE). -/
def poolGet : List Host.Cell → Nat → Byte
  | [], _ => 0
  | (k, v) :: t, a => if k = a then v else poolGet t a

/-- An octet of a Pool written, the list kept canonical: addresses rising, no octet of 0 listed. -/
def poolSet : List Host.Cell → Nat → Byte → List Host.Cell
  | [], a, v => if v = 0 then [] else [(a, v)]
  | (k, x) :: t, a, v =>
    if a < k then (if v = 0 then (k, x) :: t else (a, v) :: (k, x) :: t)
    else if a = k then (if v = 0 then t else (a, v) :: t)
    else (k, x) :: poolSet t a v

/-- Octets of the Pools from an address. -/
def State.poolRead (s : State) (a n : Nat) : Octets := (List.range n).map (fun i => poolGet s.pools (a + i))

/-- Octets written to the Pools from an address. -/
def State.poolWrite (s : State) (a : Nat) : Octets → State
  | [] => s
  | b :: t => ({ s with pools := poolSet s.pools a b }).poolWrite (a + 1) t

/-- Addresses rising from `lo`, no octet of 0 listed: the canonical form of the Pools. -/
def Memory.wfFrom (lo : Nat) : List Host.Cell → Bool
  | [] => true
  | (k, v) :: t => decide (lo ≤ k) && decide (v ≠ 0) && Memory.wfFrom (k + 1) t

/-- The canonical form of the Pools' octets. -/
def Memory.wf (m : List Host.Cell) : Bool := Memory.wfFrom 0 m

/-! ### Memory accesses of a requester -/

/-- What a memory access answers. -/
inductive MemRes where
  | data (o : Octets)
  | done
  /-- refused by the Colour Map or the owner check (R513) -/
  | refused
  | bus
  /-- locked to the debug master (R518) -/
  | locked
  deriving DecidableEq, Repr

/-- Octets `a` to `a + n − 1`, inside one 64-octet block, read from a Pool or Culvert memory. -/
def State.targetRead (s : State) (q : Requester) (a n : Nat) : MemRes × State :=
  match spaceOf a with
  | .pool _ => (.data (s.poolRead a n), s)
  | .culvert o =>
    match s.culRead { req := q.m.code } (o / 256) (o % 256) n with
    | (some d, s1) => (.data d, s1)
    | (none, s1) => (.bus, s1)
  | _ => (.bus, s)

/-- Octets read after the checks. -/
def State.memRead (s : State) (q : Requester) (k : AccKind) (a n : Nat) : MemRes × State :=
  match s.check q k a with
  | (.pass _, s1) => s1.targetRead q a n
  | (.refuse _ _ _, s1) => (.refused, s1)
  | (.bus, s1) => (.bus, s1)
  | (.lock, s1) => (.locked, s1)

/-- What the checkers meet on a read of a Pool at an address: whether the data can be returned (R330, R696, R697). -/
def State.eccRead (s : State) (a : Nat) (f : EccFind) : Bool × State :=
  match f, spaceOf a with
  | .corrected, .pool k => (true, s.eccCorrected (0x100 + k) (a % 0x400000 / 8) 2)
  | .bad, .pool k => (false, s.report 0x91 (eccDetail (0x100 + k) (a % 0x400000 / 8) 2))
  | _, _ => (true, s)

/-- Octets that a thread of a core reads, or fetches, from a Pool or Culvert memory through its data or instruction
cache, after the checks; `f`: what the checkers meet (R328 to R330). -/
def State.cachedRead (s : State) (q : Requester) (k : AccKind) (data : Bool) (core a n : Nat) (f : EccFind) :
    MemRes × State :=
  match s.check q k a with
  | (.pass _, s1) =>
    let s2 := s1.localFind data core a f
    match s2.cached data core a with
    | some l => (.data (slice l.octets (a % 64) n), s2)
    | none =>
      match s2.eccRead a f with
      | (false, s3) => (.bus, s3)
      | (true, s3) =>
        match s3.targetRead q (a / 64 * 64) 64 with
        | (.data d, s4) => (.data (slice d (a % 64) n), s4.fillLine data core { line := a / 64, octets := d })
        | r => r
  | (.refuse _ _ _, s1) => (.refused, s1)
  | (.bus, s1) => (.bus, s1)
  | (.lock, s1) => (.locked, s1)

/-- Octets written from address `a`, inside one 64-octet block, after the checks. A write to a line that a data cache
holds invalidates it (R329). -/
def State.memWrite (s : State) (q : Requester) (a : Nat) (d : Octets) : MemRes × State :=
  match s.check q .write a with
  | (.pass _, s1) =>
    match spaceOf a with
    | .pool _ => (.done, (s1.poolWrite a d).dropLines a d.length)
    | .culvert o =>
      match s1.culWrite { req := q.m.code } (o / 256) (o % 256) d with
      | (true, s2) => (.done, s2.dropLines a d.length)
      | (false, s2) => (.bus, s2)
    | _ => (.bus, s1)
  | (.refuse _ _ _, s1) => (.refused, s1)
  | (.bus, s1) => (.bus, s1)
  | (.lock, s1) => (.locked, s1)

/-- The pieces of `n` octets from `a` that end at 64-octet boundaries (R509, R394); `fuel` bounds their number. -/
def pieces : Nat → Nat → Nat → List (Nat × Nat)
  | 0, _, _ => []
  | fuel + 1, a, n =>
    if n = 0 then [] else
      let m := min n (64 - a % 64)
      (a, m) :: pieces fuel (a + m) (n - m)

/-- A read in pieces: all of it, or the result of the first piece that fails. -/
def State.areaReadPieces (s : State) (q : Requester) : List (Nat × Nat) → MemRes × State
  | [] => (.data [], s)
  | (a, n) :: t =>
    match s.memRead q .read a n with
    | (.data d, s1) =>
      match s1.areaReadPieces q t with
      | (.data e, s2) => (.data (d ++ e), s2)
      | r => r
    | r => r

/-- An area read in pieces (R387, R509). -/
def State.areaRead (s : State) (q : Requester) (a n : Nat) : MemRes × State :=
  s.areaReadPieces q (pieces (n + 1) a n)

/-- A write in pieces, stopping at the first that fails. -/
def State.areaWritePieces (s : State) (q : Requester) : List (Nat × Nat) → Octets → MemRes × State
  | [], _ => (.done, s)
  | (a, n) :: t, d =>
    match s.memWrite q a (d.take n) with
    | (.done, s1) => s1.areaWritePieces q t (d.drop n)
    | r => r

/-- An area written in pieces (R387, R509). -/
def State.areaWrite (s : State) (q : Requester) (a : Nat) (d : Octets) : MemRes × State :=
  s.areaWritePieces q (pieces (d.length + 1) a d.length) d

end Sys2Proof.Machine
end

