-- ==== Sys2Proof/Machine/TideOps.lean ====
section
/-! DEFINITION. Threads: states, registers, resuming and stopping, traps, and the end of the work a thread holds
(R324, R332, R349, R351, R364). -/

namespace Sys2Proof.Machine

open Sys2Proof

/-! ### Thread states (R324) -/

def stOff : Nat := 0
def stIdle : Nat := 1
def stRunning : Nat := 2
def stWaitC : Nat := 3
def stWaitG : Nat := 4
def stStalled : Nat := 5
def stTrapped : Nat := 6

/-- STATE of a thread. -/
def State.tstate (s : State) (t : Nat) : Nat := s.rd TID_THRSTAT.STATE t

/-- STATE of a thread set. -/
def State.setTstate (s : State) (t v : Nat) : State := s.wr TID_THRSTAT.STATE v t

/-- A general register; g0 reads 0 (R364). -/
def State.g (s : State) (t r : Nat) : Word := if r = 0 then 0 else Tbl.get 0 (s.thread t).g r

/-- A general register written; a write to g0 is discarded (R364). -/
def State.setG (s : State) (t r : Nat) (v : Word) : State :=
  if r = 0 then s
  else
    let x := s.thread t
    s.setThread t { x with g := Tbl.set 0 x.g r v }

/-- The PC of a thread set. -/
def State.setPc (s : State) (t : Nat) (v : Word) : State :=
  let x := s.thread t
  s.setThread t { x with pc := v }

/-- The end of an instruction that does not branch: pc + 4. -/
def State.step4 (s : State) (t : Nat) : State := s.setPc t ((s.thread t).pc + 4)

/-- What holds a thread set. -/
def State.setHold (s : State) (t : Nat) (h : Hold) : State :=
  let x := s.thread t
  s.setThread t { x with hold := h }

/-- A tag of a thread. -/
def State.tag (s : State) (t n : Nat) : Tag := Tbl.get .idle (s.thread t).tags n

/-- A tag of a thread set. -/
def State.setTag (s : State) (t n : Nat) (v : Tag) : State :=
  let x := s.thread t
  s.setThread t { x with tags := Tbl.set .idle x.tags n v }

/-- A thread that was held completes its instruction: rd is written, the PC advances, and it runs again. -/
def State.resume (s : State) (t rd : Nat) (v : Word) : State :=
  ((((s.setG t rd v).step4 t).setHold t .none)).setTstate t stRunning

/-- Tags of a thread that are outstanding or done (R375, selector 6). -/
def State.tagsInUse (s : State) (t : Nat) : Nat := (s.thread t).tags.length

/-! ### Completion records of a ring (R678, R679, R682, R685) -/

/-- SIZE of a ring (R677). -/
def State.ringSize (s : State) (r : Nat) : Nat := 2 ^ s.rd HIF_RCFG.LOG2SZ r

/-- A ring halted by a failed access, with the RING cause (R682, R686). -/
def State.haltRing (s : State) (r : Nat) (f : Field) : State :=
  ((s.mark f r).mark HIF_RSTAT.HALTED r).raiseCause 4

/-- A ring. -/
def State.ring (s : State) (r : Nat) : Ring := Tbl.get {} s.host.rings r

/-- A ring set. -/
def State.setRing (s : State) (r : Nat) (x : Ring) : State :=
  { s with host := { s.host with rings := Tbl.set {} s.host.rings r x } }

/-- A record lost: CPL_ERR, the drop count, the ring halts (R682). -/
def State.recordLost (s : State) (r : Nat) : State :=
  (s.satAdd HIF_RDROP.DROPPED 1 r).haltRing r HIF_RSTAT.CPL_ERR

/-- The octets of a completion record (R678). -/
def recordOctets (status tag slot kind : Nat) (tick : Nat) (phase : Nat) : Octets :=
  leBytes 4 status ++ leBytes 2 tag ++ leBytes 2 (slot % 4096 + kind * 4096) ++
  leBytes 8 (tick % 2 ^ 63 + phase * 2 ^ 63)

/-- CQ_TAIL advanced, PHASE toggled at a wrap (R679), and the message of R685 when COAL_N records are reached. -/
def State.recordWritten (s : State) (r : Nat) : State :=
  let q := s.rd HIF_RIDX.CQ_TAIL r
  let q' := (q + 1) % s.ringSize r
  let s1 := s.wr HIF_RIDX.CQ_TAIL q' r
  let s2 := if q' = 0 then s1.wr HIF_RIDX.PHASE (1 - s.rd HIF_RIDX.PHASE r) r else s1
  let x := s.ring r
  let n := max 1 (s.rd HIF_RCOAL.COAL_N r)
  if n ≤ x.since + 1 then (s2.setRing r { x with since := 0, first := none }).sendVec (s.rd HIF_RCFG.VEC r)
  else s2.setRing r { x with since := x.since + 1, first := some (x.first.getD s.tick.toNat) }

/-- A TAG marked: the descriptor was fetched before a reset of the host interface (R688). -/
def staleTag (tag : Nat) : Nat := if tag < 2 ^ 16 then tag + 2 ^ 16 else tag

/-- A completion record written into slot CQ_TAIL of a ring (R678, R679); discarded and counted while the ring is
disabled, or when its descriptor was fetched before a reset of the host interface (R688); lost when its write fails
(R682). -/
def State.writeRecord (s : State) (r slot tag kind status : Nat) : State :=
  if 2 ^ 16 ≤ tag then s.satAdd HIF_RDROP.DROPPED 1 r else
  let x := s.ring r
  let s0 := s.setRing r { x with owed := x.owed - 1 }
  if !s.is HIF_RCFG.EN r then s0.satAdd HIF_RDROP.DROPPED 1 r
  else if !s.host.busMaster then s0.recordLost r
  else
    let o := recordOctets status tag slot kind s.tick.toNat (s.rd HIF_RIDX.PHASE r)
    let a := s.rd HIF_CBASE.BASE r + 16 * s.rd HIF_RIDX.CQ_TAIL r
    if s.is HIF_RCFG.LOC r then
      match s0.memWrite (s0.requester (.dma r)) a o with
      | (.done, s1) => s1.recordWritten r
      | (_, s1) => s1.recordLost r
    else (s0.emit (.hostWrite a o)).recordWritten r

/-! ### Ending work (R349, R354) -/

/-- The operations of a thread go on, and their completions are discarded (R349, R354). -/
def State.discardOps (s : State) (t : Nat) : State :=
  { s with tide := { s.tide with ops := s.tide.ops.map (fun o => if o.thread = t then { o with discard := true } else o) } }

/-- Operations outstanding of a thread, discarded ones included (R360). -/
def State.opsOf (s : State) (t : Nat) : Nat := (s.tide.ops.filter (fun o => decide (o.thread = t))).length

/-- The work a thread holds ends: its ring descriptor completes as ABORTED with `cause`, a handler or block is not
dispatched again, and its comparator, tags and operations are given up (R349). -/
def State.abandonWork (s : State) (t cause : Nat) : State :=
  let x := s.thread t
  let s1 := (s.setThread t { x with tags := [], doneOrder := [], cmp := none, job := .none, hold := .none }).discardOps t
  match x.job with
  | .none => s1
  | .ring r slot tag => (s1.count Ctrs.HANDLER_ABORT).writeRecord r slot tag 1 cause
  | _ => s1.count Ctrs.HANDLER_ABORT

/-- DETAIL of kinds 0x51 and 0x52 (R695): PC, thread, event class and index or g9 of ring work, cause. -/
def State.workDetail (s : State) (t cause : Nat) : Nat :=
  let x := s.thread t
  let w := match x.job with
    | .handler c i _ _ _ => (c, i % 2 ^ 32)
    | .ring r slot _ => (0, r * 2 ^ 16 + slot)
    | _ => (0, 0)
  x.pc.toNat + t * 2 ^ 64 + w.1 * 2 ^ 72 + w.2 * 2 ^ 80 + cause * 2 ^ 112

/-- TAKING A TRAP (R349): the thread stops before the instruction has any effect; PC, cause, code, word and address are
recorded, kind 0x52 is written, class 0x0C is raised (not by a handler of that class, R347), and its work ends. -/
def State.takeTrap (s : State) (t cause code : Nat) (instr : Nat) (addr : Nat) : State :=
  let x := s.thread t
  let isTrapHandler := match x.job with
    | .handler 0x0C _ _ _ _ => true
    | _ => false
  let s1 := ((s.setReg .TID_TRAPPC x.pc t).setReg .TID_TRAPINFO
    (BitVec.ofNat 64 ((instr % 2 ^ 32) * 2 ^ 32 + cause * 2 ^ 24 + (code % 256) * 2 ^ 16)) t).setReg .TID_TRAPADDR
    (BitVec.ofNat 64 addr) t
  let s2 := ((s1.setTstate t stTrapped).count Ctrs.TRAPS).report 0x52 (s.workDetail t cause)
  let s3 := if isTrapHandler then s2 else s2.raiseEvent 0x0C t
  s3.abandonWork t cause

end Sys2Proof.Machine
end

