-- ==== Sys2Proof/Machine/Operands.lean ====
section
/-! DEFINITION. Operand forms: the five Balrid formats as instruction words (R367 to R371), the fetch of an instruction,
and the engine descriptor with its checks (R331, R332, R386 to R388). -/

namespace Sys2Proof.Machine

open Sys2Proof

/-! ### Instruction words (R367 to R371) -/

/-- Format A. -/
def encA (op rd rs1 rs2 fn : Nat) : Nat := op * 2 ^ 25 + rd * 2 ^ 20 + rs1 * 2 ^ 15 + rs2 * 2 ^ 10 + fn

/-- Format I: `op` is the even opcode of the pair; imm[15] stands in bit 25. -/
def encI (op rd rs1 : Nat) (imm : BitVec 16) : Nat :=
  op * 2 ^ 25 + (imm.toNat / 2 ^ 15) * 2 ^ 25 + rd * 2 ^ 20 + rs1 * 2 ^ 15 + imm.toNat % 2 ^ 15

/-- Format M. -/
def encM (op rd base : Nat) (offset : BitVec 12) (size : Nat) : Nat :=
  op * 2 ^ 25 + rd * 2 ^ 20 + base * 2 ^ 15 + offset.toNat * 2 ^ 3 + size

/-- Format E. -/
def encE (op rd rs variant tag : Nat) : Nat := op * 2 ^ 25 + rd * 2 ^ 20 + rs * 2 ^ 15 + variant * 2 ^ 8 + tag

/-- Format G. -/
def encG (rd rs1 rs2 sel fn : Nat) : Nat := 0x60 * 2 ^ 25 + rd * 2 ^ 20 + rs1 * 2 ^ 15 + rs2 * 2 ^ 10 + sel * 2 ^ 4 + fn

/-- Fields of a word of format A used by a function code: rd, rs1, rs2 (R370); `none` for an undefined code. -/
def aluFields (fn : Nat) : Option (Bool × Bool × Bool) :=
  if fn ≤ 0x00C then some (true, true, true) else if fn ≤ 0x00E then some (true, true, false) else none

/-- The fields a system function code uses; RDS names its selector in the rs2 field (R370). -/
def sysFields (fn : Nat) : Option (Bool × Bool × Bool) :=
  match fn with
  | 0 => some (false, true, false)
  | 1 => some (false, false, false)
  | 2 => some (true, false, false)
  | 3 => some (true, true, false)
  | 4 => some (true, true, false)
  | 5 => some (true, false, true)
  | _ => none

/-- A field that is not used holds 0 (R368). -/
def unusedZero (used : Bool) (v : Nat) : Bool := used || decide (v = 0)

/-- An instruction word is defined: opcode, function code, selector and unused fields (R368 to R371, R375, R378). -/
def wordLegal (w : Nat) : Bool :=
  let op := bits w 31 25
  let rd := bits w 24 20
  let rs1 := bits w 19 15
  let rs2 := bits w 14 10
  let fn := bits w 9 0
  if op = 0x00 then
    match aluFields fn with
    | some (a, b, c) => unusedZero a rd && unusedZero b rs1 && unusedZero c rs2
    | none => false
  else if op = 0x01 then
    match sysFields fn with
    | some (a, b, c) => unusedZero a rd && unusedZero b rs1 && unusedZero c rs2 && !(decide (fn = 5) && decide (7 ≤ rs2))
    | none => false
  else if 0x10 ≤ op ∧ op ≤ 0x19 then true
  else if 0x1A ≤ op ∧ op ≤ 0x1F then decide (op % 2 = 0) && decide (bits w 14 6 = 0)
  else if 0x20 ≤ op ∧ op ≤ 0x2F then true
  else if op = 0x30 ∨ op = 0x31 then decide (rd = 0) && decide (rs1 = 0)
  else if op = 0x40 then decide (bits w 2 0 ≠ 7)
  else if op = 0x41 then decide (bits w 2 0 ≤ 3)
  else if op = 0x42 ∨ op = 0x43 then decide (bits w 2 0 = 3)
  else if 0x50 ≤ op ∧ op ≤ 0x55 then decide (rd = 0) && decide (rs2 = 0) && decide (bits w 9 8 = 0)
  else if op = 0x58 then
    decide (rs1 = 0) && decide (rs2 = 0) &&
      (decide (bits w 9 8 = 0) || (decide (bits w 9 8 = 1) && decide (bits w 7 0 = 0)))
  else if op = 0x60 then
    let f := bits w 3 0
    let sel := bits w 9 4
    if f = 0 then decide (rs1 = 0) && decide (rs2 = 0) && selValid sel
    else if f = 1 then decide (rs2 = 0) && selValid sel
    else if f = 2 then selValid sel
    else if f = 3 ∨ f = 4 then decide (sel = 0)
    else false
  else false

/-! ### Issue of an instruction -/

namespace Ctrs
def INSTR : CtrId := ⟨0x05, 0⟩
def ENGINE_OPS : CtrId := ⟨0x05, 1⟩
def SLOT_FULL : CtrId := ⟨0x05, 2⟩
def SAMPLES : CtrId := ⟨0x17, 3⟩
def SAMP_DROP : CtrId := ⟨0x17, 4⟩
/-- slots of a category: of a core, and of a thread (R664) -/
def coreSlot (cat : Nat) : CtrId := ⟨0x06, cat⟩
def threadSlot (cat : Nat) : CtrId := ⟨0x07, cat⟩
end Ctrs

/-- A sample dropped (R667). -/
def State.sampleDropped (s : State) : State := (s.mark SND_STAT.SAMP_DROP).count Ctrs.SAMP_DROP

/-- A slot of core `c` in a category, charged to thread `t` (R666, R667): every 2^PSHIFT-th one of the category sampled is a
sample, which is dropped while the core's previous one is not yet written. A category-7 sample records thread 0xFF and
PC 0. -/
def State.sampleSlot (s : State) (c t cat : Nat) : State :=
  if !s.is SND_SAMPCTL.EN ∨ !(s.rd SND_SAMPCORE.CORES).testBit c ∨ s.rd SND_SAMPCTL.CAT ≠ cat then s
  else
    let n := Tbl.get 0 s.sound.slots c + 1
    if n < 2 ^ s.rd SND_SAMPCTL.PSHIFT then { s with sound := { s.sound with slots := Tbl.set 0 s.sound.slots c n } }
    else
      let s1 : State := { s with sound := { s.sound with slots := Tbl.set 0 s.sound.slots c 0 } }
      if (Tbl.get none s.sound.samples c).isSome then s1.sampleDropped
      else
        let x : SlotRec := { tick := s.tick, pc := if cat = 7 then 0 else (s.thread t).pc, thread := t, cat := cat,
                             reading := s.recordReading }
        { s1 with sound := { s1.sound with samples := Tbl.set none s1.sound.samples c (some x) } }

/-- The slot of a thread's core charged to it with a category (R664); the turn of R323 has reached it. -/
def State.chargeSlot (s : State) (t cat : Nat) : State :=
  (State.count (State.count { s with tide := { s.tide with turn := Tbl.set 0 s.tide.turn (coreOf t) (t % 8) } }
    (Ctrs.coreSlot cat) (coreOf t)) (Ctrs.threadSlot cat) t).sampleSlot (coreOf t) t cat

/-- A cycle of a core in which a thread of it is Stalled is counted (R363). -/
def State.stallCycle (s : State) (c : Nat) : State :=
  if (List.range 8).any (fun h => decide (s.tstate (8 * c + h) = stStalled)) then s.count Ctrs.SLOT_FULL c else s

/-- An instruction issues: it is counted, and the slot of its cycle charged to ISSUED (R323, R664). -/
def State.issued (s : State) (t : Nat) : State := ((s.stallCycle (coreOf t)).count Ctrs.INSTR (coreOf t)).chargeSlot t 0

/-- A thread issues instructions: it is Running and nothing holds it (R323, R374). -/
def State.issues (s : State) (t : Nat) : Bool :=
  decide (s.tstate t = stRunning) && decide ((s.thread t).hold = .none)

/-- What a fetch comes to: a trap, or the word at the PC. -/
inductive Fetched where
  | trap (cause : Nat)
  | word (w : Nat)
  deriving DecidableEq, Repr

/-- The fetch of the word at the PC through the core's instruction cache: the execute right, then a bus error (R328 to
R330, R397); `f`: what the checkers meet. -/
def State.fetch (s : State) (t : Nat) (f : EccFind := .good) : Fetched × State :=
  match s.cachedRead (s.requester (.thread t)) .fetch false (coreOf t) (s.thread t).pc.toNat 4 f with
  | (.data d, s1) => (.word (leNat d), s1)
  | (.refused, s1) => (.trap 0x03, s1)
  | (_, s1) => (.trap 0x04, s1)

/-- A fetch trap; the word was never read, so INSTR is a free value (R349). -/
def State.fetchTrap (s : State) (t cause : Nat) : State :=
  let (w, s1) := s.draw
  s1.takeTrap t cause 0 (w.toNat % 2 ^ 32) (s.thread t).pc.toNat

/-- The instruction word `w` issued by a thread: nothing when the thread issues none, or when the word at its PC is
another; a fetch trap; or its effect, with the slot charged to ISSUED (R367, R664). -/
def State.issue (s : State) (t w : Nat) (body : State → Host.Outcome State Fault Refusal) (f : EccFind := .good) :
    Host.Outcome State Fault Refusal :=
  if !s.issues t then .next s
  else match s.fetch t f with
    | (.trap c, s1) => .next (s1.fetchTrap t c)
    | (.word v, s1) => if v = w then body (s1.issued t) else .next s

/-- An instruction of register operands: rd is written and the PC moves on (R372). -/
def State.writeStep (s : State) (t rd : Nat) (v : Word) : State := (s.setG t rd v).step4 t

/-! ### Engine descriptors (R386 to R388) -/

/-- OP, FLAGS, OBJECT, RES_ADDR of a descriptor. -/
def descOp (d : Octets) : Nat := leNat (slice d 0 1)
def descFlags (d : Octets) : Nat := leNat (slice d 1 1)
def descObject (d : Octets) : Nat := leNat (slice d 4 4)
def descRes (d : Octets) : Nat := leNat (slice d 8 8)
/-- A little-endian field of a descriptor. -/
def descField (d : Octets) (o n : Nat) : Nat := leNat (slice d o n)

/-- Octets of a descriptor from `o` that must be 0 (R386). -/
def descZero (d : Octets) (o n : Nat) : Bool := decide (leNat (slice d o n) = 0)

/-- The checks of R388 that every engine shares: octets 2 and 3, RES_ADDR aligned, RES_ADDR given when the operation
produces output. -/
def descCommon (d : Octets) (needsOut : Bool) : Bool :=
  descZero d 2 2 && decide (descRes d % 8 = 0) && !(needsOut && decide (descRes d = 0))

/-- Operation slots in use on a core (R332). -/
def State.slotsUsed (s : State) (core : Nat) : Nat :=
  (s.tide.ops.filter (fun o => decide (coreOf o.thread = core))).length

/-- What issuing an E-format instruction comes to (R331, R332, R397, R398). -/
inductive Issue where
  | trap (cause addr : Nat)
  | stall
  | go (desc : Octets)
  deriving DecidableEq, Repr

/-- The issue checks: the descriptor's address and its read (0x0A), the tag (0x07), a free slot (R331, R332, R398). -/
def State.engineIssue (s : State) (t tag : Nat) (addr : Nat) : Issue × State :=
  if addr % 8 ≠ 0 then (.trap 0x0A addr, s)
  else match s.areaRead (s.requester (.engine t)) addr 64 with
    | (.data d, s1) =>
      if s1.tag t tag ≠ .idle then (.trap 0x07 0, s1)
      else if 64 ≤ s1.slotsUsed (coreOf t) then (.stall, s1)
      else (.go d, s1)
    | (_, s1) => (.trap 0x0A addr, s1)

/-- An operation put in flight: its tag is outstanding and takes a slot; the PC moves on (R331, R332). -/
def State.launch (s : State) (o : EngineOp) : State :=
  (((({ s with tide := { s.tide with ops := s.tide.ops ++ [o] } }).setTag o.thread o.tag .outstanding).step4
    o.thread).setTstate o.thread stRunning).count Ctrs.ENGINE_OPS (coreOf o.thread)

/-- An E-format instruction of opcode `opc` (R331, R332): traps, stalls, or puts in flight the operation that `make`
forms from the descriptor, if that does not end in a host error. A Stalled thread issues again. `want` says whether the
descriptor is of the row's kind; with another, or with another word at the PC, the command is not this row's and does
nothing. -/
def State.engineTry (s : State) (opc t tag rs : Nat) (want : Octets → Bool)
    (make : EngineOp → State → Host.Outcome (EngineOp × State) Fault Refusal) : Host.Outcome State Fault Refusal :=
  let ready := decide ((s.thread t).hold = .none) && (decide (s.tstate t = stRunning) || decide (s.tstate t = stStalled))
  if !ready then .next s
  else match s.fetch t with
    | (.trap c, s1) => .next (s1.fetchTrap t c)
    | (.word v, s1) =>
      if v ≠ encE opc 0 rs 0 tag then .next s
      else match s1.engineIssue t tag (s.g t rs).toNat with
      | (.trap c a, s2) => .next (s2.takeTrap t c 0 (encE opc 0 rs 0 tag) a)
      | (.stall, s2) => .next (s2.setTstate t stStalled)
      | (.go d, s2) =>
        if !want d then .next s
        else
          let s3 := s2.issued t
          let x := s.thread t
          match make { thread := t, tag := tag, engine := opc - 0x4F, desc := d, colour := x.colour,
                       warden := x.warden } s3 with
          | .next (o, s4) => .next (s4.launch o)
          | .fault f => .fault f
          | .refused r => .refused r

/-- An E-format instruction whose operation ends in no host error. -/
def State.engineCall (s : State) (opc t tag rs : Nat) (want : Octets → Bool)
    (make : EngineOp → State → EngineOp × State) : Host.Outcome State Fault Refusal :=
  s.engineTry opc t tag rs want (fun o b => .next (make o b))

/-- Operations of threads that concern one of some objects and have not completed: their threads and tags (R24). -/
def State.opsOn (s : State) (l : List (Nat × Nat)) : List (Nat × Nat) :=
  (s.tide.ops.filter (fun o => o.objects.any (fun x => l.contains x))).map (fun o => (o.thread, o.tag))

/-- An operation that has acted with an error status and no effect (R388). -/
def EngineOp.fail (o : EngineOp) (status : Nat) : EngineOp := { o with acted := true, status := status }

/-- The requester of an operation's area accesses (R387). -/
def EngineOp.requester (o : EngineOp) : Requester := ⟨.engine o.thread, o.colour, o.warden⟩

/-- The completion word of an operation (R387). -/
def EngineOp.word (o : EngineOp) : Word :=
  BitVec.ofNat 64 (o.result * 2 ^ 24 + o.engine * 2 ^ 16 + o.tag * 2 ^ 8 + o.area * 2 ^ 4 + o.status)

end Sys2Proof.Machine
end

