-- ==== Sys2Proof/Machine/Cycle.lean ====
section
/-! DEFINITION. One cycle of the core clock in which no command arrives: the Tick advances, and each core's issue slot is
charged (R323, R636, R664, R665). -/

namespace Sys2Proof.Machine

open Sys2Proof

/-- A thread holds work: it is Running, WaitC, WaitG or Stalled (R664). -/
def State.holdsWork (s : State) (t : Nat) : Bool := decide (stRunning ≤ s.tstate t) && decide (s.tstate t ≤ stStalled)

/-- The thread of a core that the turn reaches next among those that hold work (R665). -/
def State.nextInTurn (s : State) (c : Nat) : Option Nat :=
  ((List.range 8).map (fun k => 8 * c + (Tbl.get 0 s.tide.turn c + 1 + k) % 8)).find? s.holdsWork

/-- The category that a thread's wait has (R664). A Running thread that no instruction holds waits on a fetch or on data:
which is a free bit. -/
def State.waitCategory (s : State) (t : Nat) : Nat × State :=
  if s.tstate t = stWaitC then (5, s)
  else if s.tstate t = stWaitG then (6, s)
  else if s.tstate t = stStalled then (4, s)
  else if (s.thread t).hold ≠ .none then (3, s)
  else
    let (w, s1) := s.draw
    (1 + w.toNat % 2, s1)

/-- The slot of a core in a cycle in which it issues nothing (R664, R665). -/
def State.idleSlot (s : State) (c : Nat) : State :=
  let s0 := s.stallCycle c
  match s0.nextInTurn c with
  | none => (s0.count (Ctrs.coreSlot 7) c).sampleSlot c 0xFF 7
  | some t =>
    let (cat, s1) := s0.waitCategory t
    s1.chargeSlot t cat

/-- A cycle of the core clock in which no command arrives. With the main domains off (M0) there is no core clock. -/
def State.idleCycle (s : State) : State :=
  if s.rd GBL_MODE.MODE = 0 then s
  else (List.range 32).foldl State.idleSlot { s with tick := s.tick + 1 }

end Sys2Proof.Machine
end

