-- ==== Sys2Proof/Machine/Flags.lean ====
section
/-! DEFINITION. Conditions and comparisons. Balrid has no condition codes: these are the tests of its branches and set
instructions (R372, R373), and the bit counts. -/

namespace Sys2Proof.Machine

open Sys2Proof

/-- A condition as a register value. -/
def ofBool (b : Bool) : Word := if b then 1 else 0

/-- Signed less-than (R372, R373). -/
def ltSigned (a b : Word) : Bool := a.slt b

/-- Unsigned less-than. -/
def ltUnsigned (a b : Word) : Bool := a.ult b

/-- Wrap-around order: `a` before `b` under R51 (R372, SLTW). -/
def ltWrap (a b : Word) : Bool := (a - b).msb

/-- Leading zero bits among the low `n` bits. -/
def clzFrom (v : Nat) : Nat → Nat
  | 0 => 0
  | n + 1 => if v.testBit n then 0 else clzFrom v n + 1

/-- Leading zero bits of a word, 0 to 64. -/
def clz (v : Word) : Word := BitVec.ofNat 64 (clzFrom v.toNat 64)

/-- One bits among the low `n` bits. -/
def popFrom (v : Nat) : Nat → Nat
  | 0 => 0
  | n + 1 => (if v.testBit n then 1 else 0) + popFrom v n

/-- One bits of a word. -/
def popc (v : Word) : Word := BitVec.ofNat 64 (popFrom v.toNat 64)

/-- A 16-bit immediate, sign-extended and zero-extended. -/
def sext16 (i : BitVec 16) : Word := i.signExtend 64
def zext16 (i : BitVec 16) : Word := i.setWidth 64

end Sys2Proof.Machine
end

