-- ==== Sys2Proof/Machine/Gauge.lean ====
section
/-! DEFINITION. Gauges: event dispatch, epochs' comparisons, the Far Gauge, snapshots and latched reads (chapter 02). -/

namespace Sys2Proof.Machine

open Sys2Proof

namespace Ctrs
def DUMPS : CtrId := ⟨0x17, 0⟩
def DUMP_MISSED : CtrId := ⟨0x17, 1⟩
def DUMP_REFUSED : CtrId := ⟨0x17, 2⟩
def THR_EVENTS : CtrId := ⟨0x17, 5⟩
def FAS_ERR : CtrId := ⟨0x12, 0⟩
def OOF_EVENTS : CtrId := ⟨0x12, 1⟩
def GW_DISAGREE : CtrId := ⟨0x12, 2⟩
def GW_BAD : CtrId := ⟨0x12, 3⟩
end Ctrs

/-- A place of the event unit taken by an event (R56, R57). -/
def State.addEvent (s : State) (e : PendEvent) : State :=
  { s with line := { s.line with events := s.line.events ++ [e] } }

/-- Free places of the event unit (R57, R78). -/
def State.evFree (s : State) : Nat := 4096 - s.line.events.length

/-- The place of work of selector `sel` that becomes due in cycle `now`, in a list of work that waits (R56): behind
everything that was due before, and behind what is due in the same cycle on the same or a lower selector. What goes before
it, and what goes after. -/
def dueSplit {α : Type} (selOf dueOf : α → Nat) (sel now : Nat) (l : List α) : List α × List α :=
  let behind := (l.reverse.takeWhile (fun x => decide (dueOf x = now) && decide (sel < selOf x))).length
  (l.take (l.length - behind), l.drop (l.length - behind))

/-- `n` dumps of a schedule that are not taken (R659). -/
def State.dumpMissed (s : State) (n k : Nat) : State :=
  if k = 0 then s
  else (({ s with sound := { s.sound with missed := Tbl.set 0 s.sound.missed n (min 65535 (Tbl.get 0 s.sound.missed n + k)) } }).mark
    SND_STAT.MISSED).count Ctrs.DUMP_MISSED 0 k

/-- A dump of a schedule becomes due (R659): it waits for the engine, or is missed when the last one still waits. Of
dumps due in one cycle the one that starts first has not waited. -/
def State.dumpDue (s : State) (n sel : Nat) (target : Word) (late : Bool) : State :=
  if s.sound.queue.any (fun q => decide (q.sched = n)) then s.dumpMissed n 1
  else
    let (before, after) := dueSplit DumpReq.sel DumpReq.dueAt sel s.tick.toNat s.sound.queue
    { s with sound := { s.sound with queue := before ++
        [{ sched := n, sel := sel, target := target, late := late, dueAt := s.tick.toNat
           waited := s.sound.running.isSome || !before.isEmpty }] ++ after.map (fun q => { q with waited := true }) } }

/-- An enabled schedule takes a place with a target (R54, R57, R657). Where the Gauge runs and its reading is at the
target or past it, the dump is due at once and late, and so is every further target, PERIOD frames on, that the reading
has reached: all but the first find it waiting and are missed. -/
def State.scheduleAt (s : State) (n : Nat) (target : Word) : State :=
  let sel := s.resolveSel (s.rd SND_SCFG.SEL n)
  let put := fun (a : State) (t : Word) => a.addEvent { sel := sel, target := t, kind := .dump n }
  let per := s.rd SND_SCFG.PERIOD n * 2 ^ 16
  if s.selRuns sel ∧ atOrAfter (s.selReading sel) target then
    let more := (s.selReading sel - target).toNat / per
    put (((s.mark GAU_STAT.PAST (selGroup sel)).dumpDue n sel target true).dumpMissed n more)
      (target + BitVec.ofNat 64 ((more + 1) * per))
  else put s target

/-- An event of the unit dispatched (R53, R657): an ATG block waits for a thread of its core; a dump becomes due, and
its schedule's next target takes the place it leaves. -/
def State.dispatchEvent (s : State) (e : PendEvent) (late : Bool) : State :=
  let s1 := if late then s.mark GAU_STAT.PAST (selGroup e.sel) else s
  match e.kind with
  | .atg b =>
    let (before, after) := dueSplit AtgBlock.sel AtgBlock.dueAt e.sel s.tick.toNat s1.tide.due
    { s1 with tide := { s1.tide with due := before ++ [{ b with dueAt := s.tick.toNat }] ++ after } }
  | .dump n =>
    let s2 := s1.dumpDue n e.sel e.target late
    if s.is SND_SCFG.EN n then s2.scheduleAt n (e.target + BitVec.ofNat 64 (s.rd SND_SCFG.PERIOD n * 2 ^ 16)) else s2

/-- The events of a selector that are due at a reading, dispatched in the order in which they were scheduled (R56);
`late` says which of them are late. -/
def State.dispatchDue (s : State) (sel : Nat) (r : Word) (late : Word → Bool) : State :=
  let isDue := fun e : PendEvent => decide (e.sel = sel) && atOrAfter r e.target
  let due := s.line.events.filter isDue
  let s1 := { s with line := { s.line with events := s.line.events.filter (fun e => !isDue e) } }
  due.foldl (fun a e => a.dispatchEvent e (late e.target)) s1

/-- A WAITG completes: rd receives 0 on time, 1 late (R335). -/
def State.waitgDone (s : State) (t : Nat) (late : Bool) : State :=
  match (s.thread t).hold, (s.thread t).cmp with
  | .waitg rd, some (sel, _) =>
    let x := s.thread t
    let s1 := s.setThread t { x with cmp := none }
    let s2 := if late then s1.mark GAU_STAT.PAST (selGroup sel) else s1
    s2.resume t rd (if late then 1 else 0)
  | _, _ => s

/-- Comparators of a selector compared with the first reading of an epoch or after lock (R49, R68): a target before it
is late, a target equal to it is on time. -/
def State.compareWaits (s : State) (sel : Nat) (r : Word) : State :=
  (List.range 256).foldl (fun a t =>
    match (a.thread t).cmp with
    | some (c, target) =>
      if c = sel ∧ atOrAfter r target then a.waitgDone t (decide (r ≠ target)) else a
    | none => a) s

/-- Pending events compared with the first reading of an epoch, or of a Far Gauge after lock (R49, R68). -/
def State.compareFirst (s : State) (sel : Nat) (r : Word) : State :=
  (s.dispatchDue sel r (fun t => decide (t ≠ r))).compareWaits sel r

/-- Every Gauge and Far Gauge captured in one cycle, with the RUN bits (R62). -/
def State.snapshot (s : State) : State :=
  let s1 := (List.range 18).foldl (fun a g =>
    (a.setReg .GAU_SNAP (s.reg .GAU_READ g) g).setReg .GAU_SNAPFAR (s.reg .GAU_FAR g) g) s
  s1.wr GAU_SNAPCTL.SRUN ((List.range 18).foldl (fun m g => m + s.rd GAU_STAT.RUN g * 2 ^ g) 0)

/-- The Far Gauge of a group loses lock (R67): it holds its reading, FAR_LOSS is set, class 0x0D is raised. -/
def State.farLose (s : State) (g : Nat) : State :=
  if s.is GAU_STAT.FAR_LOCK g then
    (({ (s.unmark GAU_STAT.FAR_LOCK g) with line := { s.line with far := Tbl.set {} s.line.far g {} } }).mark
      GAU_STAT.FAR_LOSS g).raiseEvent 0x0D g
  else { s with line := { s.line with far := Tbl.set {} s.line.far g {} } }

/-- The reading at an octet with the given FRAME[7:0] and OFFSET, from the reading `r` (R65): the Far Gauge advances with
every received octet. `at_`: the reading at the last word; a further word of the same place is a multiframe later. -/
def farNext (r : Word) (at_ : Option Word) (mfas offset : Nat) : Word :=
  let mf := frameOf r / 256
  let c := reading (mf * 256 + mfas % 256) offset
  if atOrAfter c r ∧ at_ ≠ some c then c else reading ((mf + 1) * 256 + mfas % 256) offset

/-- The multiframe number of a Gauge word whose check octet matches (R64, R65). -/
def gaugeWord (o : Octets) : Option Nat :=
  match o with
  | [a, b, c, d, e, k] =>
    if k = a ^^^ b ^^^ c ^^^ d ^^^ e ^^^ 0x5A#8 then some (beNat [a, b, c, d, e]) else none
  | _ => none

/-! ### Meanings -/

/-- GAUGE_EVENT_DUE (R53, R54): the sampled reading of a running Gauge or a locked Far Gauge moves on, and the events
that are due at it are dispatched on time. -/
def execGaugeEventDue (sel : Nat) (r : Word) (s : State) : Host.Outcome State Fault Refusal :=
  if (sel < 18 ∨ (32 ≤ sel ∧ sel < 50)) ∧ s.selRuns sel ∧ atOrAfter r (s.selReading sel) ∧
      (32 ≤ sel ∨ frameOf r = frameOf (s.selReading sel)) ∧ offsetOf r < 16320 then
    let s1 := if sel < 18 then s.setReg .GAU_READ r sel else s.setReg .GAU_FAR r (sel - 32)
    .next (s1.dispatchDue sel r (fun _ => false))
  else if 16320 ≤ offsetOf r then .fault .hostError
  else .next s

/-- WAITG_DUE (R335): the thread's comparator reaches its target on a Gauge that runs. -/
def execBalWaitgDue (t : ThreadNo) (s : State) : Host.Outcome State Fault Refusal :=
  match (s.thread t).cmp with
  | some (sel, target) =>
    if s.selRuns sel ∧ atOrAfter (s.selReading sel) target then .next (s.waitgDone t false) else .next s
  | none => .next s

/-- GAUGE_WORD_RX (R65 to R68): the word of one multiframe that an enabled receive framer gets while it is in frame, with
FRAME[7:0] and OFFSET of the octet that arrives. The second disagreeing word, which loses the lock, is not the first word
of the acquisition that starts again (R67; DESIGN CHOICE). -/
def execGaugeWordRx (g : Group) (word : Octets) (mfas : Byte) (offset : Nat) (s : State) :
    Host.Outcome State Fault Refusal :=
  let x := Tbl.get {} s.line.far g
  let lock := s.is GAU_STAT.FAR_LOCK g
  let r := farNext (s.reg .GAU_FAR g) x.wordAt mfas.toNat offset
  let put := fun (y : FarRx) (a : State) => { a with line := { a.line with far := Tbl.set {} a.line.far g y } }
  let heard := if lock then some r else none
  let s0 := if lock then s.setReg .GAU_FAR r g else s
  if !s.is FRM_CTL.RX_EN g ∨ !s.is FRM_STAT.IF g then .next s
  else match gaugeWord word with
  | none => .next ((put { x with lastValid := none, wordAt := heard } s0).count Ctrs.GW_BAD g)
  | some m =>
    if lock then
      if frameOf r / 256 = m then .next (put { lastValid := some m, wordAt := heard } s0)
      else
        let s1 := s0.count Ctrs.GW_DISAGREE g
        if 1 ≤ x.disagree then .next (s1.farLose g)
        else .next (put { lastValid := some m, disagree := x.disagree + 1, wordAt := heard } s1)
    else if x.lastValid = some ((m + 2 ^ 40 - 1) % 2 ^ 40) then
      let first := reading (m * 256 + mfas.toNat) offset
      .next (((put { lastValid := some m, wordAt := some first } (s0.setReg .GAU_FAR first g)).mark
        GAU_STAT.FAR_LOCK g).compareFirst (32 + g) first)
    else .next (put { lastValid := some m } s0)

/-- GAU_SNAPCTL_TRIG (R62, R77): a write to GAU_SNAPCTL; AUTO is stored, and 1 in TRIG takes a snapshot. -/
def execGauSnapctlTrig (v : Word) (s : State) : Host.Outcome State Fault Refusal :=
  let s1 := s.wr GAU_SNAPCTL.AUTO (GAU_SNAPCTL.AUTO.of v)
  guardRsvd .GAU_SNAPCTL v (.next (if GAU_SNAPCTL.TRIG.of v = 1 then s1.snapshot else s1))

/-- GAU_RECORD_WRITE (R60, R61, R76): GROUP is stored, or the write is refused; 1 in REJECT clears it. -/
def gauRecordWrite (s : State) (v : Word) : State :=
  let s1 := if GAU_RECORD.REJECT.of v = 1 then s.unmark GAU_RECORD.REJECT else s
  if 18 ≤ GAU_RECORD.GROUP.of v then s.mark GAU_RECORD.REJECT
  else s1.wr GAU_RECORD.GROUP (GAU_RECORD.GROUP.of v)

/-- GAU_RECORD_WRITE (R61). -/
def execGauRecordWrite (v : Word) (s : State) : Host.Outcome State Fault Refusal :=
  guardRsvd .GAU_RECORD v (.next (gauRecordWrite s v))

/-- A latched value of a master for a register, replacing what it held (R712, R713). -/
def State.latch (s : State) (m : Master) (off : Nat) (v : Word) : State :=
  { s with latches := (m, off, v) :: s.latches.filter (fun e => !(decide (e.1 = m) && decide (e.2.1 = off))) }

/-- The value a master has latched for a register (R712). -/
def State.latched (s : State) (m : Master) (off : Nat) : Option Word :=
  (s.latches.find? (fun e => decide (e.1 = m) && decide (e.2.1 = off))).map (fun e => e.2.2)

/-- A read that includes the low word of GAU_READn latches the reading, FTICK and FPER for its master (R70). -/
def State.latchGauge (s : State) (m : Master) (g : Nat) : State :=
  ((s.latch m (Reg.GAU_READ.off g 0) (s.reg .GAU_READ g)).latch m (Reg.GAU_FTICK.off g 0) (s.reg .GAU_FTICK g)).latch m
    (Reg.GAU_FPER.off g 0) (s.reg .GAU_FPER g)

/-- GAU_READ_LATCH (R70): the low word, or all 64 bits, read and latched. -/
def execGauReadLatch (m : Master) (g : Group) (wide : Bool) (s : State) : Host.Outcome State Fault Refusal :=
  .next ((s.latchGauge m g).emit (.readReply m (some (leBytes (if wide then 8 else 4) (s.reg .GAU_READ g).toNat))))

end Sys2Proof.Machine
end

