-- ==== Sys2Proof/Machine/Balrid.lean ====
section
/-! DEFINITION. The Balrid instructions that need no register of another block: ALU, control, Gauge, tags, fences, END
and MOV.M (chapter 10). Each is one command: thread `t` issues it. -/

namespace Sys2Proof.Machine

open Sys2Proof

/-! ### ALU, register–register (R372) -/

/-- A register–register instruction of function code `fn` (R370): rd receives a function of x[rs1] and x[rs2]. -/
def State.alu3 (s : State) (fn t rd rs1 rs2 : Nat) (f : Word → Word → Word) : Host.Outcome State Fault Refusal :=
  s.issue t (encA 0x00 rd rs1 rs2 fn) (fun s1 => .next (s1.writeStep t rd (f (s1.g t rs1) (s1.g t rs2))))

/-- An instruction of one register operand, with its word. -/
def State.alu2 (s : State) (w t rd rs1 : Nat) (f : Word → Word) : Host.Outcome State Fault Refusal :=
  s.issue t w (fun s1 => .next (s1.writeStep t rd (f (s1.g t rs1))))

/-- ADD (R372). -/
def execBalAdd (t : ThreadNo) (rd rs1 rs2 : GReg) (s : State) : Host.Outcome State Fault Refusal :=
  s.alu3 0x000 t rd rs1 rs2 (fun a b => a + b)

/-- SUB (R372). -/
def execBalSub (t : ThreadNo) (rd rs1 rs2 : GReg) (s : State) : Host.Outcome State Fault Refusal :=
  s.alu3 0x001 t rd rs1 rs2 (fun a b => a - b)

/-- AND (R372). -/
def execBalAnd (t : ThreadNo) (rd rs1 rs2 : GReg) (s : State) : Host.Outcome State Fault Refusal :=
  s.alu3 0x002 t rd rs1 rs2 (fun a b => a &&& b)

/-- OR (R372). -/
def execBalOr (t : ThreadNo) (rd rs1 rs2 : GReg) (s : State) : Host.Outcome State Fault Refusal :=
  s.alu3 0x003 t rd rs1 rs2 (fun a b => a ||| b)

/-- XOR (R372). -/
def execBalXor (t : ThreadNo) (rd rs1 rs2 : GReg) (s : State) : Host.Outcome State Fault Refusal :=
  s.alu3 0x004 t rd rs1 rs2 (fun a b => a ^^^ b)

/-- SLL (R372). -/
def execBalSll (t : ThreadNo) (rd rs1 rs2 : GReg) (s : State) : Host.Outcome State Fault Refusal :=
  s.alu3 0x005 t rd rs1 rs2 (fun a b => a <<< (b.toNat % 64))

/-- SRL (R372). -/
def execBalSrl (t : ThreadNo) (rd rs1 rs2 : GReg) (s : State) : Host.Outcome State Fault Refusal :=
  s.alu3 0x006 t rd rs1 rs2 (fun a b => a >>> (b.toNat % 64))

/-- SRA (R372). -/
def execBalSra (t : ThreadNo) (rd rs1 rs2 : GReg) (s : State) : Host.Outcome State Fault Refusal :=
  s.alu3 0x007 t rd rs1 rs2 (fun a b => a.sshiftRight (b.toNat % 64))

/-- MUL (R372). -/
def execBalMul (t : ThreadNo) (rd rs1 rs2 : GReg) (s : State) : Host.Outcome State Fault Refusal :=
  s.alu3 0x008 t rd rs1 rs2 (fun a b => a * b)

/-- MULHU (R372). -/
def execBalMulhu (t : ThreadNo) (rd rs1 rs2 : GReg) (s : State) : Host.Outcome State Fault Refusal :=
  s.alu3 0x009 t rd rs1 rs2 (fun a b => BitVec.ofNat 64 (a.toNat * b.toNat / 2 ^ 64))

/-- SLT (R372). -/
def execBalSlt (t : ThreadNo) (rd rs1 rs2 : GReg) (s : State) : Host.Outcome State Fault Refusal :=
  s.alu3 0x00A t rd rs1 rs2 (fun a b => ofBool (ltSigned a b))

/-- SLTU (R372). -/
def execBalSltu (t : ThreadNo) (rd rs1 rs2 : GReg) (s : State) : Host.Outcome State Fault Refusal :=
  s.alu3 0x00B t rd rs1 rs2 (fun a b => ofBool (ltUnsigned a b))

/-- SLTW (R372). -/
def execBalSltw (t : ThreadNo) (rd rs1 rs2 : GReg) (s : State) : Host.Outcome State Fault Refusal :=
  s.alu3 0x00C t rd rs1 rs2 (fun a b => ofBool (ltWrap a b))

/-- CLZ (R372). -/
def execBalClz (t : ThreadNo) (rd rs1 : GReg) (s : State) : Host.Outcome State Fault Refusal :=
  s.alu2 (encA 0x00 rd rs1 0 0x00D) t rd rs1 (fun a => clz a)

/-- POPC (R372). -/
def execBalPopc (t : ThreadNo) (rd rs1 : GReg) (s : State) : Host.Outcome State Fault Refusal :=
  s.alu2 (encA 0x00 rd rs1 0 0x00E) t rd rs1 (fun a => popc a)

/-! ### Immediates (R372) -/

/-- ADDI (R372). -/
def execBalAddi (t : ThreadNo) (rd rs1 : GReg) (imm : BitVec 16) (s : State) : Host.Outcome State Fault Refusal :=
  s.alu2 (encI 0x10 rd rs1 imm) t rd rs1 (fun a => a + sext16 imm)

/-- ANDI (R372). -/
def execBalAndi (t : ThreadNo) (rd rs1 : GReg) (imm : BitVec 16) (s : State) : Host.Outcome State Fault Refusal :=
  s.alu2 (encI 0x12 rd rs1 imm) t rd rs1 (fun a => a &&& zext16 imm)

/-- ORI (R372). -/
def execBalOri (t : ThreadNo) (rd rs1 : GReg) (imm : BitVec 16) (s : State) : Host.Outcome State Fault Refusal :=
  s.alu2 (encI 0x14 rd rs1 imm) t rd rs1 (fun a => a ||| zext16 imm)

/-- XORI (R372). -/
def execBalXori (t : ThreadNo) (rd rs1 : GReg) (imm : BitVec 16) (s : State) : Host.Outcome State Fault Refusal :=
  s.alu2 (encI 0x16 rd rs1 imm) t rd rs1 (fun a => a ^^^ zext16 imm)

/-- SHI (R372). -/
def execBalShi (t : ThreadNo) (rd rs1 : GReg) (imm : BitVec 16) (s : State) : Host.Outcome State Fault Refusal :=
  s.alu2 (encI 0x18 rd rs1 imm) t rd rs1 (fun a => (a <<< 16) ||| zext16 imm)

/-- A shift by an immediate: imm[15:6] must be 0, or the word is illegal (R368, R372). -/
def State.shiftImm (s : State) (op t rd rs1 : Nat) (imm : BitVec 16) (f : Word → Nat → Word) :
    Host.Outcome State Fault Refusal :=
  s.issue t (encI op rd rs1 imm) (fun s1 =>
    if 64 ≤ imm.toNat then .next (s1.takeTrap t 0x01 0 (encI op rd rs1 imm) 0)
    else .next (s1.writeStep t rd (f (s1.g t rs1) imm.toNat)))

/-- SLLI (R372). -/
def execBalSlli (t : ThreadNo) (rd rs1 : GReg) (imm : BitVec 16) (s : State) : Host.Outcome State Fault Refusal :=
  s.shiftImm 0x1A t rd rs1 imm (fun a n => a <<< n)

/-- SRLI (R372). -/
def execBalSrli (t : ThreadNo) (rd rs1 : GReg) (imm : BitVec 16) (s : State) : Host.Outcome State Fault Refusal :=
  s.shiftImm 0x1C t rd rs1 imm (fun a n => a >>> n)

/-- SRAI (R372). -/
def execBalSrai (t : ThreadNo) (rd rs1 : GReg) (imm : BitVec 16) (s : State) : Host.Outcome State Fault Refusal :=
  s.shiftImm 0x1E t rd rs1 imm (fun a n => a.sshiftRight n)

/-! ### Control (R373) -/

/-- A branch: x[rd] is the first operand. -/
def State.branch (s : State) (op t rd rs1 : Nat) (imm : BitVec 16) (cond : Word → Word → Bool) :
    Host.Outcome State Fault Refusal :=
  s.issue t (encI op rd rs1 imm) (fun s1 =>
    if cond (s1.g t rd) (s1.g t rs1) then .next (s1.setPc t ((s1.thread t).pc + 4 * sext16 imm))
    else .next (s1.step4 t))

/-- BEQ (R373). -/
def execBalBeq (t : ThreadNo) (rd rs1 : GReg) (imm : BitVec 16) (s : State) : Host.Outcome State Fault Refusal :=
  s.branch 0x20 t rd rs1 imm (fun a b => decide (a = b))

/-- BNE (R373). -/
def execBalBne (t : ThreadNo) (rd rs1 : GReg) (imm : BitVec 16) (s : State) : Host.Outcome State Fault Refusal :=
  s.branch 0x22 t rd rs1 imm (fun a b => decide (a ≠ b))

/-- BLT (R373). -/
def execBalBlt (t : ThreadNo) (rd rs1 : GReg) (imm : BitVec 16) (s : State) : Host.Outcome State Fault Refusal :=
  s.branch 0x24 t rd rs1 imm (fun a b => ltSigned a b)

/-- BGE (R373). -/
def execBalBge (t : ThreadNo) (rd rs1 : GReg) (imm : BitVec 16) (s : State) : Host.Outcome State Fault Refusal :=
  s.branch 0x26 t rd rs1 imm (fun a b => !ltSigned a b)

/-- BLTU (R373). -/
def execBalBltu (t : ThreadNo) (rd rs1 : GReg) (imm : BitVec 16) (s : State) : Host.Outcome State Fault Refusal :=
  s.branch 0x28 t rd rs1 imm (fun a b => ltUnsigned a b)

/-- BGEU (R373). -/
def execBalBgeu (t : ThreadNo) (rd rs1 : GReg) (imm : BitVec 16) (s : State) : Host.Outcome State Fault Refusal :=
  s.branch 0x2A t rd rs1 imm (fun a b => !ltUnsigned a b)

/-- JAL (R373): the rs1 field holds offset bits [20:16]. -/
def execBalJal (t : ThreadNo) (rd : GReg) (hi : Fin 32) (imm : BitVec 16) (s : State) :
    Host.Outcome State Fault Refusal :=
  s.issue t (encI 0x2C rd hi imm) (fun s1 =>
    let pc := (s1.thread t).pc
    let off : BitVec 21 := BitVec.ofNat 21 (hi.val * 2 ^ 16 + imm.toNat)
    .next ((s1.setG t rd (pc + 4)).setPc t (pc + 4 * off.signExtend 64)))

/-- JALR (R373): cause 0x05 when the target is not a multiple of 4, before any effect. TRAPADDR holds the target. -/
def execBalJalr (t : ThreadNo) (rd rs1 : GReg) (imm : BitVec 16) (s : State) : Host.Outcome State Fault Refusal :=
  s.issue t (encI 0x2E rd rs1 imm) (fun s1 =>
    let tgt := s1.g t rs1 + sext16 imm
    if tgt.toNat % 4 ≠ 0 then .next (s1.takeTrap t 0x05 0 (encI 0x2E rd rs1 imm) tgt.toNat)
    else .next ((s1.setG t rd ((s1.thread t).pc + 4)).setPc t tgt))

/-- TRAP (R348, R361, R373): cause 0x08, CODE imm[7:0]. -/
def execBalTrap (t : ThreadNo) (imm : BitVec 16) (s : State) : Host.Outcome State Fault Refusal :=
  s.issue t (encI 0x30 0 0 imm) (fun s1 => .next (s1.takeTrap t 0x08 (imm.toNat % 256) (encI 0x30 0 0 imm) 0))

/-- ILLEGAL_INSTRUCTION (R368): a word that is not defined traps with cause 0x01. A word that is defined is another
row's. -/
def execBalIllegalInstruction (t : ThreadNo) (w : BitVec 32) (s : State) : Host.Outcome State Fault Refusal :=
  if wordLegal w.toNat then .next s
  else s.issue t w.toNat (fun s1 => .next (s1.takeTrap t 0x01 0 w.toNat 0))

/-! ### END, fences, RDS (R374, R375, R382 to R384) -/

/-- A job ends (R384): every completion not consumed is discarded, all tags are idle, the ring record is written, and
the thread goes Off (FREE) or Idle. -/
def State.endJob (s : State) (t status : Nat) : State :=
  let x := s.thread t
  let s1 := s.setThread t { x with tags := [], doneOrder := [], job := .none, hold := .none, cmp := none }
  match x.job with
  | .ring r slot tag => (s1.writeRecord r slot tag 0 (status % 2 ^ 32)).setTstate t stIdle
  | .free => s1.setTstate t stOff
  | _ => s1.setTstate t (if s.rd TID_THRCFG.ROLE t = 0 then stOff else stIdle)

/-- END (R384): the thread waits in WaitC for its outstanding operations, then its job ends. -/
def execBalEnd (t : ThreadNo) (rs1 : GReg) (s : State) : Host.Outcome State Fault Refusal :=
  s.issue t (encA 0x01 0 rs1 0 0x000) (fun s1 =>
    let status := (s1.g t rs1).toNat % 2 ^ 32
    if s1.opsOf t = 0 then .next (s1.endJob t status)
    else .next ((s1.setHold t (.ending status)).setTstate t stWaitC))

/-- END_DONE (R384): no operation of the thread is outstanding any more. -/
def execBalEndDone (t : ThreadNo) (s : State) : Host.Outcome State Fault Refusal :=
  match (s.thread t).hold with
  | .ending status => if s.opsOf t = 0 then .next (s.endJob t status) else .next s
  | _ => .next s

/-- FENCE (R374, R382): the thread is held. -/
def execBalFence (t : ThreadNo) (s : State) : Host.Outcome State Fault Refusal :=
  s.issue t (encA 0x01 0 0 0 0x001) (fun s1 => .next (s1.setHold t .fence))

/-- FENCE_DONE (R382): the earlier loads have returned and the earlier stores are visible. -/
def execBalFenceDone (t : ThreadNo) (s : State) : Host.Outcome State Fault Refusal :=
  match (s.thread t).hold with
  | .fence => .next ((s.step4 t).setHold t .none)
  | _ => .next s

/-- FENCE.C (R374, R383): the thread is held until the accesses of older rule epochs complete. -/
def execBalFenceC (t : ThreadNo) (rd : GReg) (s : State) : Host.Outcome State Fault Refusal :=
  s.issue t (encA 0x01 rd 0 0 0x002) (fun s1 => .next (s1.setHold t (.fenceC rd (s1.rd CMP_EPOCH.EPOCH))))

/-- Epoch `e` is older than epoch `f`, as 32-bit counts that wrap (R514). -/
def epochOlder (e f : Nat) : Bool :=
  let d := (f + 2 ^ 32 - e % 2 ^ 32) % 2 ^ 32
  decide (0 < d) && decide (d < 2 ^ 31)

/-- RDS (R375): undefined selectors trap with cause 0x01. -/
def execBalRds (t : ThreadNo) (rd : GReg) (sel : Fin 32) (s : State) : Host.Outcome State Fault Refusal :=
  s.issue t (encA 0x01 rd 0 sel 0x005) (fun s1 =>
    let put := fun (n : Nat) => Host.Outcome.next (s1.writeStep t rd (BitVec.ofNat 64 n))
    match sel.val with
    | 0 => put t
    | 1 => put (coreOf t)
    | 2 => put (s1.rd TID_THRCFG.ROLE t * 2 ^ 30 + s1.rd TID_THRCFG.WARDEN t * 2 ^ 29 + s1.rd TID_THRCFG.COLOUR t * 2 ^ 20)
    | 3 => put s1.tick.toNat
    | 4 => put (s1.rd CMP_EPOCH.EPOCH)
    | 5 => put (s1.rd GBL_MODE.MODE)
    | 6 => put (s1.tagsInUse t)
    | n => .next (s1.takeTrap t 0x01 0 (encA 0x01 rd 0 n 0x005) 0))

/-! ### Gauge instructions (R335, R336, R376) -/

/-- GREAD (R376). -/
def execBalGread (t : ThreadNo) (rd : GReg) (sel : Fin 64) (s : State) : Host.Outcome State Fault Refusal :=
  s.issue t (encG rd 0 0 sel 0) (fun s1 =>
    if selValid sel then .next (s1.writeStep t rd (s1.selReading (s1.resolveSel sel)))
    else .next (s1.takeTrap t 0x01 0 (encG rd 0 0 sel 0) 0))

/-- WAITG (R53, R54, R335, R376): due at once and late when the target is at or before the reading of a Gauge that
runs; otherwise the thread waits in WaitG. -/
def execBalWaitg (t : ThreadNo) (rd rs1 : GReg) (sel : Fin 64) (s : State) : Host.Outcome State Fault Refusal :=
  s.issue t (encG rd rs1 0 sel 1) (fun s1 =>
    if !selValid sel then .next (s1.takeTrap t 0x01 0 (encG rd rs1 0 sel 1) 0)
    else
      let target := s1.g t rs1
      if 16320 ≤ offsetOf target then .fault .hostError
      else
        let c := s1.resolveSel sel
        if s1.selRuns c ∧ atOrAfter (s1.selReading c) target then
          .next ((s1.mark GAU_STAT.PAST (selGroup c)).writeStep t rd 1)
        else
          let x := s1.thread t
          .next ((s1.setThread t { x with cmp := some (c, target), hold := .waitg rd }).setTstate t stWaitG))

/-- ATG (R336, R376): the argument is the old x[rd]. Status 2 when no place is free, 1 late, 0 scheduled. -/
def execBalAtg (t : ThreadNo) (rd rs1 rs2 : GReg) (sel : Fin 64) (s : State) : Host.Outcome State Fault Refusal :=
  s.issue t (encG rd rs1 rs2 sel 2) (fun s1 =>
    let w := encG rd rs1 rs2 sel 2
    if !selValid sel then .next (s1.takeTrap t 0x01 0 w 0)
    else
      let pc := s1.g t rs2
      let target := s1.g t rs1
      if pc.toNat % 4 ≠ 0 then .next (s1.takeTrap t 0x05 0 w pc.toNat)
      else if 16320 ≤ offsetOf target then .fault .hostError
      else if s1.evFree = 0 then .next (s1.writeStep t rd 2)
      else
        let c := s1.resolveSel sel
        let x := s1.thread t
        let b : AtgBlock := { sel := c, core := coreOf t, warden := x.warden, colour := x.colour, pc := pc,
                              arg := s1.g t rd, target := target }
        let e : PendEvent := { sel := c, target := target, kind := .atg b }
        if s1.selRuns c ∧ atOrAfter (s1.selReading c) target then .next ((s1.dispatchEvent e true).writeStep t rd 1)
        else .next ((s1.addEvent e).writeStep t rd 0))

/-- A reading advanced by a signed number of octet positions (R376, GADV). -/
def gadv (r : Word) (n : Word) : Word :=
  let p : Int := (offsetOf r : Int) + n.toInt
  reading (((frameOf r : Int) + p / 16320) % (2 ^ 48 : Nat)).toNat (p % 16320).toNat

/-- The distance of two readings in octet positions (R52, R376, GDIST). -/
def gdist (a b : Word) : Word :=
  let df : BitVec 48 := BitVec.ofNat 48 (frameOf a) - BitVec.ofNat 48 (frameOf b)
  BitVec.ofInt 64 (df.toInt * 16320 + (offsetOf a : Int) - (offsetOf b : Int))

/-- GADV (R376): a reading whose offset is 16,320 or more is a host error (R10). -/
def execBalGadv (t : ThreadNo) (rd rs1 rs2 : GReg) (s : State) : Host.Outcome State Fault Refusal :=
  s.issue t (encG rd rs1 rs2 0 3) (fun s1 =>
    if 16320 ≤ offsetOf (s1.g t rs1) then .fault .hostError
    else .next (s1.writeStep t rd (gadv (s1.g t rs1) (s1.g t rs2))))

/-- GDIST (R376). -/
def execBalGdist (t : ThreadNo) (rd rs1 rs2 : GReg) (s : State) : Host.Outcome State Fault Refusal :=
  s.issue t (encG rd rs1 rs2 0 4) (fun s1 =>
    if 16320 ≤ offsetOf (s1.g t rs1) ∨ 16320 ≤ offsetOf (s1.g t rs2) then .fault .hostError
    else .next (s1.writeStep t rd (gdist (s1.g t rs1) (s1.g t rs2))))

/-! ### Tags (R334, R389) -/

/-- A done tag consumed: it becomes idle. -/
def State.consumeTag (s : State) (t n : Nat) : State :=
  let x := s.thread t
  s.setThread t { x with tags := Tbl.set .idle x.tags n .idle, doneOrder := x.doneOrder.filter (· ≠ n) }

/-- WAITC (R334). -/
def execBalWaitc (t : ThreadNo) (rd : GReg) (tag : BitVec 8) (s : State) : Host.Outcome State Fault Refusal :=
  s.issue t (encE 0x58 rd 0 0 tag.toNat) (fun s1 =>
    match s1.tag t tag.toNat with
    | .done w => .next ((s1.consumeTag t tag.toNat).writeStep t rd w)
    | .outstanding => .next ((s1.setHold t (.waitc rd tag.toNat)).setTstate t stWaitC)
    | .idle => .next (s1.writeStep t rd (BitVec.allOnes 64)))

/-- WAITC.ANY (R389): the tag that became done first. -/
def execBalWaitcAny (t : ThreadNo) (rd : GReg) (s : State) : Host.Outcome State Fault Refusal :=
  s.issue t (encE 0x58 rd 0 1 0) (fun s1 =>
    match (s1.thread t).doneOrder with
    | n :: _ =>
      match s1.tag t n with
      | .done w => .next ((s1.consumeTag t n).writeStep t rd w)
      | _ => .next (s1.writeStep t rd (BitVec.allOnes 64))
    | [] =>
      if s1.tagsInUse t = 0 then .next (s1.writeStep t rd (BitVec.allOnes 64))
      else .next ((s1.setHold t (.waitcAny rd)).setTstate t stWaitC))

/-! ### MOV.M (R393, R394) -/

/-- The octets of a fill pattern for `n` octets from a multiple of 8. -/
def fillOctets (pattern : Octets) (n : Nat) : Octets := (List.replicate (n / 8 + 1) pattern).flatten.take n

/-- A MOV.M descriptor is well formed (R386, R388, R393). -/
def movOk (d : Octets) : Bool :=
  let fill := decide (descFlags d % 2 = 1)
  decide (descOp d = 1) && decide (descFlags d < 2) && decide (descObject d = 0) && descCommon d false &&
  descZero d 48 16 && (fill || decide (descField d 16 8 % 8 = 0)) && decide (descField d 24 8 % 8 = 0) &&
  decide (descField d 32 8 % 8 = 0) && decide (8 ≤ descField d 32 8) && decide (descField d 32 8 ≤ 16777216)

/-- Source and destination of a copy overlap: a host error (R394). -/
def movOverlaps (d : Octets) : Bool :=
  let a := descField d 16 8
  let b := descField d 24 8
  let n := descField d 32 8
  decide (descFlags d % 2 = 0) && decide (a < b + n) && decide (b < a + n)

/-! ### Completion (R333, R387) -/

/-- A thread that waits on a tag goes on with it (R334, R389). -/
def State.wakeOnTag (s : State) (t n : Nat) (w : Word) : State :=
  match (s.thread t).hold with
  | .waitc rd k => if k = n then (s.consumeTag t n).resume t rd w else s
  | .waitcAny rd => (s.consumeTag t n).resume t rd w
  | _ => s

end Sys2Proof.Machine
end

