-- ==== Sys2Proof/Machine/Records.lean ====
section
/-! DEFINITION. The object records that command registers and engine operations reach: L1 channels, SecYs, SCs, SAs,
SecY channels, queues, nodes and policers, with the fields of their tables (R183, R224 to R227, R457 to R459). -/

namespace Sys2Proof.Machine

open Sys2Proof

/-- The kinds of record. -/
inductive RecKind where
  /-- channel record of an L1 channel (R183) -/
  | l1
  /-- SecY record (R224) -/
  | secy
  /-- SC record (R225) -/
  | sc
  /-- SA record (R226) -/
  | sa
  /-- channel record of SecY (R227) -/
  | ch
  /-- queue record (R457) -/
  | queue
  /-- node record; index = level × 2^20 + number (R458) -/
  | node
  /-- policer record (R459) -/
  | policer
  deriving DecidableEq, Repr

/-- A number for each kind, to key the table of words. -/
def RecKind.code : RecKind → Nat
  | .l1 => 0
  | .secy => 1
  | .sc => 2
  | .sa => 3
  | .ch => 4
  | .queue => 5
  | .node => 6
  | .policer => 7

/-- A field of a record. -/
structure RField where
  kind : RecKind
  word : Nat
  hi : Nat
  lo : Nat
  acc : Access
  rst : Nat
  deriving DecidableEq, Repr

/-- L1 word 0 [63:63] EN (R183). -/
def L1.EN : RField := ⟨.l1, 0, 63, 63, .rw, 0⟩
/-- L1 word 0 [62:62] POLICY (R183). -/
def L1.POLICY : RField := ⟨.l1, 0, 62, 62, .rw, 0⟩
/-- L1 word 0 [47:36] PEER_CHAN (R183). -/
def L1.PEER_CHAN : RField := ⟨.l1, 0, 47, 36, .rw, 0⟩
/-- L1 word 0 [31:16] TX_EPOCH (R183). -/
def L1.TX_EPOCH : RField := ⟨.l1, 0, 31, 16, .ro, 0⟩
/-- L1 word 0 [15:0] RX_EPOCH (R183). -/
def L1.RX_EPOCH : RField := ⟨.l1, 0, 15, 0, .ro, 0⟩
/-- L1 word 1 [63:0] TX_COUNT (R183). -/
def L1.TX_COUNT : RField := ⟨.l1, 1, 63, 0, .rw, 0⟩
/-- L1 word 2 [63:0] RX_COUNT (R183). -/
def L1.RX_COUNT : RField := ⟨.l1, 2, 63, 0, .ro, 0⟩
/-- L1 word 3 [63:16] SW_FRAME (R183). -/
def L1.SW_FRAME : RField := ⟨.l1, 3, 63, 16, .rw, 0⟩
/-- L1 word 3 [15:15] UNTRUSTED (R183). -/
def L1.UNTRUSTED : RField := ⟨.l1, 3, 15, 15, .rw1c, 0⟩
/-- L1 word 3 [14:14] QUAR (R183). -/
def L1.QUAR : RField := ⟨.l1, 3, 14, 14, .ro, 0⟩
/-- L1 word 3 [13:13] CNT_LOCK (R183). -/
def L1.CNT_LOCK : RField := ⟨.l1, 3, 13, 13, .ro, 0⟩
/-- L1 word 3 [12:12] SW_PEND (R183). -/
def L1.SW_PEND : RField := ⟨.l1, 3, 12, 12, .ro, 0⟩
/-- L1 word 3 [11:11] RET_PEND (R183). -/
def L1.RET_PEND : RField := ⟨.l1, 3, 11, 11, .ro, 0⟩
/-- L1 word 3 [10:10] TX_SLOT (R183). -/
def L1.TX_SLOT : RField := ⟨.l1, 3, 10, 10, .ro, 0⟩
/-- L1 word 3 [9:9] SLOT1 (R183). -/
def L1.SLOT1 : RField := ⟨.l1, 3, 9, 9, .ro, 0⟩
/-- L1 word 3 [8:8] SLOT0 (R183). -/
def L1.SLOT0 : RField := ⟨.l1, 3, 8, 8, .ro, 0⟩
/-- L1 word 3 [7:7] ROLE_CONF (R183). -/
def L1.ROLE_CONF : RField := ⟨.l1, 3, 7, 7, .rw1c, 0⟩
/-- L1 word 3 [6:6] CLOSING (R183). -/
def L1.CLOSING : RField := ⟨.l1, 3, 6, 6, .ro, 0⟩
/-- L1 word 4 [63:0] GAP_FIRST (R183). -/
def L1.GAP_FIRST : RField := ⟨.l1, 4, 63, 0, .ro, 0⟩
/-- L1 word 5 [63:0] GAP_LAST (R183). -/
def L1.GAP_LAST : RField := ⟨.l1, 5, 63, 0, .ro, 0⟩
/-- SECY word 0 [63:63] EN (R224). -/
def SECY.EN : RField := ⟨.secy, 0, 63, 63, .rw, 0⟩
/-- SECY word 0 [62:60] SUITE (R224). -/
def SECY.SUITE : RField := ⟨.secy, 0, 62, 60, .rw, 0⟩
/-- SECY word 0 [59:58] OFFSET (R224). -/
def SECY.OFFSET : RField := ⟨.secy, 0, 59, 58, .rw, 0⟩
/-- SECY word 0 [57:57] TX_SCI (R224). -/
def SECY.TX_SCI : RField := ⟨.secy, 0, 57, 57, .rw, 0⟩
/-- SECY word 0 [56:56] ES (R224). -/
def SECY.ES : RField := ⟨.secy, 0, 56, 56, .rw, 0⟩
/-- SECY word 0 [55:55] SCB (R224). -/
def SECY.SCB : RField := ⟨.secy, 0, 55, 55, .rw, 0⟩
/-- SECY word 0 [54:54] REPLAY (R224). -/
def SECY.REPLAY : RField := ⟨.secy, 0, 54, 54, .rw, 1⟩
/-- SECY word 0 [45:32] MAX_FRAME (R224). -/
def SECY.MAX_FRAME : RField := ⟨.secy, 0, 45, 32, .rw, 1518⟩
/-- SECY word 0 [31:0] WINDOW (R224). -/
def SECY.WINDOW : RField := ⟨.secy, 0, 31, 0, .rw, 0⟩
/-- SECY word 1 [63:0] SCI (R224). -/
def SECY.SCI : RField := ⟨.secy, 1, 63, 0, .rw, 0⟩
/-- SC word 0 [63:63] EN (R225). -/
def SC.EN : RField := ⟨.sc, 0, 63, 63, .rw, 0⟩
/-- SC word 0 [62:62] DIR (R225). -/
def SC.DIR : RField := ⟨.sc, 0, 62, 62, .rw, 0⟩
/-- SC word 0 [61:61] DRAIN (R225). -/
def SC.DRAIN : RField := ⟨.sc, 0, 61, 61, .ro, 0⟩
/-- SC word 0 [60:60] SW_PEND (R225). -/
def SC.SW_PEND : RField := ⟨.sc, 0, 60, 60, .ro, 0⟩
/-- SC word 0 [59:59] SW_BY_PN (R225). -/
def SC.SW_BY_PN : RField := ⟨.sc, 0, 59, 59, .rw, 0⟩
/-- SC word 0 [57:56] ENC_AN (R225). -/
def SC.ENC_AN : RField := ⟨.sc, 0, 57, 56, .rw, 0⟩
/-- SC word 0 [55:54] SW_AN (R225). -/
def SC.SW_AN : RField := ⟨.sc, 0, 55, 54, .rw, 0⟩
/-- SC word 0 [43:32] CHAN (R225). -/
def SC.CHAN : RField := ⟨.sc, 0, 43, 32, .rw, 0⟩
/-- SC word 0 [11:0] SECY (R225). -/
def SC.SECY : RField := ⟨.sc, 0, 11, 0, .rw, 0⟩
/-- SC word 1 [63:0] SW_AT (R225). -/
def SC.SW_AT : RField := ⟨.sc, 1, 63, 0, .rw, 0⟩
/-- SC word 2 [63:0] SCI (R225). -/
def SC.SCI : RField := ⟨.sc, 2, 63, 0, .rw, 0⟩
/-- SA word 0 [63:63] EN (R226). -/
def SA.EN : RField := ⟨.sa, 0, 63, 63, .rw, 0⟩
/-- SA word 0 [62:62] KEY (R226). -/
def SA.KEY : RField := ⟨.sa, 0, 62, 62, .ro, 0⟩
/-- SA word 0 [61:61] EXHAUST (R226). -/
def SA.EXHAUST : RField := ⟨.sa, 0, 61, 61, .ro, 0⟩
/-- SA word 0 [60:60] PN_LOST (R226). -/
def SA.PN_LOST : RField := ⟨.sa, 0, 60, 60, .ro, 0⟩
/-- SA word 0 [59:59] THRESH_HIT (R226). -/
def SA.THRESH_HIT : RField := ⟨.sa, 0, 59, 59, .rw1c, 0⟩
/-- SA word 0 [31:0] SSCI (R226). -/
def SA.SSCI : RField := ⟨.sa, 0, 31, 0, .rw, 0⟩
/-- SA word 1 [63:0] NEXT_PN (R226). -/
def SA.NEXT_PN : RField := ⟨.sa, 1, 63, 0, .rw, 1⟩
/-- SA word 2 [63:0] PN_THRESH (R226). -/
def SA.PN_THRESH : RField := ⟨.sa, 2, 63, 0, .rw, 0⟩
/-- SA word 3 [63:0] SALT_LO (R226). -/
def SA.SALT_LO : RField := ⟨.sa, 3, 63, 0, .rw, 0⟩
/-- SA word 4 [31:0] SALT_HI (R226). -/
def SA.SALT_HI : RField := ⟨.sa, 4, 31, 0, .rw, 0⟩
/-- CH word 0 [63:63] EN (R227). -/
def CH.EN : RField := ⟨.ch, 0, 63, 63, .rw, 0⟩
/-- CH word 0 [62:62] POLICY (R227). -/
def CH.POLICY : RField := ⟨.ch, 0, 62, 62, .rw, 0⟩
/-- CH word 0 [61:61] DEF_V (R227). -/
def CH.DEF_V : RField := ⟨.ch, 0, 61, 61, .rw, 0⟩
/-- CH word 0 [15:0] DEF_SC (R227). -/
def CH.DEF_SC : RField := ⟨.ch, 0, 15, 0, .rw, 0⟩
/-- QUE word 0 [63:63] EN (R457). -/
def QUE.EN : RField := ⟨.queue, 0, 63, 63, .rw, 0⟩
/-- QUE word 0 [62:62] DRAIN (R457). -/
def QUE.DRAIN : RField := ⟨.queue, 0, 62, 62, .ro, 0⟩
/-- QUE word 0 [61:60] PRIO (R457). -/
def QUE.PRIO : RField := ⟨.queue, 0, 61, 60, .rw, 0⟩
/-- QUE word 0 [59:52] WEIGHT (R457). -/
def QUE.WEIGHT : RField := ⟨.queue, 0, 59, 52, .rw, 1⟩
/-- QUE word 0 [51:51] SHP_EN (R457). -/
def QUE.SHP_EN : RField := ⟨.queue, 0, 51, 51, .rw, 0⟩
/-- QUE word 0 [47:32] FG (R457). -/
def QUE.FG : RField := ⟨.queue, 0, 47, 32, .rw, 0⟩
/-- QUE word 0 [23:0] CAP (R457). -/
def QUE.CAP : RField := ⟨.queue, 0, 23, 0, .rw, 0⟩
/-- QUE word 1 [63:32] INC (R457). -/
def QUE.INC : RField := ⟨.queue, 1, 63, 32, .rw, 0⟩
/-- QUE word 1 [23:0] BURST (R457). -/
def QUE.BURST : RField := ⟨.queue, 1, 23, 0, .rw, 0⟩
/-- QUE word 2 [39:0] CREDIT (R457). -/
def QUE.CREDIT : RField := ⟨.queue, 2, 39, 0, .ro, 0⟩
/-- QUE word 3 [63:32] HEAD_GEN (R457). -/
def QUE.HEAD_GEN : RField := ⟨.queue, 3, 63, 32, .ro, 0⟩
/-- QUE word 3 [31:28] HEAD_GEN_HI (R457). -/
def QUE.HEAD_GEN_HI : RField := ⟨.queue, 3, 31, 28, .ro, 0⟩
/-- QUE word 3 [27:0] HEAD (R457). -/
def QUE.HEAD : RField := ⟨.queue, 3, 27, 0, .ro, 0⟩
/-- QUE word 4 [63:32] TAIL_GEN (R457). -/
def QUE.TAIL_GEN : RField := ⟨.queue, 4, 63, 32, .ro, 0⟩
/-- QUE word 4 [31:28] TAIL_GEN_HI (R457). -/
def QUE.TAIL_GEN_HI : RField := ⟨.queue, 4, 31, 28, .ro, 0⟩
/-- QUE word 4 [27:0] TAIL (R457). -/
def QUE.TAIL : RField := ⟨.queue, 4, 27, 0, .ro, 0⟩
/-- QUE word 5 [63:36] CELLS (R457). -/
def QUE.CELLS : RField := ⟨.queue, 5, 63, 36, .ro, 0⟩
/-- QUE word 5 [27:0] FRAMES (R457). -/
def QUE.FRAMES : RField := ⟨.queue, 5, 27, 0, .ro, 0⟩
/-- NODE word 0 [63:63] EN (R458). -/
def NODE.EN : RField := ⟨.node, 0, 63, 63, .rw, 0⟩
/-- NODE word 0 [61:60] PRIO (R458). -/
def NODE.PRIO : RField := ⟨.node, 0, 61, 60, .rw, 0⟩
/-- NODE word 0 [59:52] WEIGHT (R458). -/
def NODE.WEIGHT : RField := ⟨.node, 0, 59, 52, .rw, 1⟩
/-- NODE word 0 [51:51] SHP_EN (R458). -/
def NODE.SHP_EN : RField := ⟨.node, 0, 51, 51, .rw, 0⟩
/-- NODE word 0 [43:32] PARENT (R458). -/
def NODE.PARENT : RField := ⟨.node, 0, 43, 32, .rw, 0⟩
/-- NODE word 1 [63:32] INC (R458). -/
def NODE.INC : RField := ⟨.node, 1, 63, 32, .rw, 0⟩
/-- NODE word 1 [23:0] BURST (R458). -/
def NODE.BURST : RField := ⟨.node, 1, 23, 0, .rw, 0⟩
/-- NODE word 2 [39:0] CREDIT (R458). -/
def NODE.CREDIT : RField := ⟨.node, 2, 39, 0, .ro, 0⟩
/-- POL word 0 [63:63] EN (R459). -/
def POL.EN : RField := ⟨.policer, 0, 63, 63, .rw, 0⟩
/-- POL word 0 [62:62] YDROP (R459). -/
def POL.YDROP : RField := ⟨.policer, 0, 62, 62, .rw, 0⟩
/-- POL word 0 [52:48] GRP (R459). -/
def POL.GRP : RField := ⟨.policer, 0, 52, 48, .rw, 0⟩
/-- POL word 1 [63:32] PIR_INC (R459). -/
def POL.PIR_INC : RField := ⟨.policer, 1, 63, 32, .rw, 0⟩
/-- POL word 1 [31:0] CIR_INC (R459). -/
def POL.CIR_INC : RField := ⟨.policer, 1, 31, 0, .rw, 0⟩
/-- POL word 2 [55:32] PBS (R459). -/
def POL.PBS : RField := ⟨.policer, 2, 55, 32, .rw, 0⟩
/-- POL word 2 [23:0] CBS (R459). -/
def POL.CBS : RField := ⟨.policer, 2, 23, 0, .rw, 0⟩
/-- POL word 3 [39:0] TC (R459). -/
def POL.TC : RField := ⟨.policer, 3, 39, 0, .ro, 0⟩
/-- POL word 4 [39:0] TP (R459). -/
def POL.TP : RField := ⟨.policer, 4, 39, 0, .ro, 0⟩

/-- The fields of a kind of record. -/
def RecKind.fields : RecKind → List RField
  | .l1 => [L1.EN, L1.POLICY, L1.PEER_CHAN, L1.TX_EPOCH, L1.RX_EPOCH, L1.TX_COUNT, L1.RX_COUNT, L1.SW_FRAME, L1.UNTRUSTED, L1.QUAR, L1.CNT_LOCK, L1.SW_PEND, L1.RET_PEND, L1.TX_SLOT, L1.SLOT1, L1.SLOT0, L1.ROLE_CONF, L1.CLOSING, L1.GAP_FIRST, L1.GAP_LAST]
  | .secy => [SECY.EN, SECY.SUITE, SECY.OFFSET, SECY.TX_SCI, SECY.ES, SECY.SCB, SECY.REPLAY, SECY.MAX_FRAME, SECY.WINDOW, SECY.SCI]
  | .sc => [SC.EN, SC.DIR, SC.DRAIN, SC.SW_PEND, SC.SW_BY_PN, SC.ENC_AN, SC.SW_AN, SC.CHAN, SC.SECY, SC.SW_AT, SC.SCI]
  | .sa => [SA.EN, SA.KEY, SA.EXHAUST, SA.PN_LOST, SA.THRESH_HIT, SA.SSCI, SA.NEXT_PN, SA.PN_THRESH, SA.SALT_LO, SA.SALT_HI]
  | .ch => [CH.EN, CH.POLICY, CH.DEF_V, CH.DEF_SC]
  | .queue => [QUE.EN, QUE.DRAIN, QUE.PRIO, QUE.WEIGHT, QUE.SHP_EN, QUE.FG, QUE.CAP, QUE.INC, QUE.BURST, QUE.CREDIT, QUE.HEAD_GEN, QUE.HEAD_GEN_HI, QUE.HEAD, QUE.TAIL_GEN, QUE.TAIL_GEN_HI, QUE.TAIL, QUE.CELLS, QUE.FRAMES]
  | .node => [NODE.EN, NODE.PRIO, NODE.WEIGHT, NODE.SHP_EN, NODE.PARENT, NODE.INC, NODE.BURST, NODE.CREDIT]
  | .policer => [POL.EN, POL.YDROP, POL.GRP, POL.PIR_INC, POL.CIR_INC, POL.PBS, POL.CBS, POL.TC, POL.TP]

/-- Words of a record (R183, R224 to R227, R457 to R459). -/
def RecKind.words : RecKind → Nat
  | .l1 => 6 | .secy => 2 | .sc => 3 | .sa => 5 | .ch => 1 | .queue => 6 | .node => 6 | .policer => 6

/-- Where a word of a record stands in the table. -/
def RecKind.key (k : RecKind) (i w : Nat) : Nat := k.code * 2 ^ 40 + i * 8 + w

/-- Reset value of a word of a record. -/
def RecKind.resetWord (k : RecKind) (w : Nat) : Word :=
  BitVec.ofNat 64 (k.fields.foldl (fun a f => if f.word = w then a + f.rst * 2 ^ f.lo else a) 0)

/-- A word of a record. -/
def State.rword (s : State) (k : RecKind) (i w : Nat) : Word := Tbl.get (k.resetWord w) s.recs (k.key i w)

/-- A word of a record set. -/
def State.setRword (s : State) (k : RecKind) (i w : Nat) (v : Word) : State :=
  { s with recs := Tbl.set (k.resetWord w) s.recs (k.key i w) v }

/-- A field of a record. -/
def State.rrd (s : State) (f : RField) (i : Nat) : Nat := bits (s.rword f.kind i f.word).toNat f.hi f.lo

/-- A field of a record set. -/
def State.rwr (s : State) (f : RField) (i : Nat) (v : Nat) : State :=
  s.setRword f.kind i f.word (BitVec.ofNat 64 (setBits (s.rword f.kind i f.word).toNat f.hi f.lo v))

/-- A one-bit field of a record reads 1. -/
def State.ris (s : State) (f : RField) (i : Nat) : Bool := s.rrd f i != 0

/-- A field inside a record image. -/
def RField.of (f : RField) (image : List Word) : Nat := bits (image.getD f.word 0).toNat f.hi f.lo

/-- The words of a record, as a read of its image gives them. Their reserved bits read 0 (R11 leaves them undefined; DESIGN
CHOICE, log entry 9). -/
def State.recWords (s : State) (k : RecKind) (i : Nat) : List Word := (List.range k.words).map (s.rword k i)

/-- The bits of a word of a record that no field covers (R13). -/
def RecKind.rsvd (k : RecKind) (w : Nat) : Nat :=
  2 ^ 64 - 1 - k.fields.foldl (fun a f => if f.word = w then a + (2 ^ (f.hi + 1 - f.lo) - 1) * 2 ^ f.lo else a) 0

/-- No reserved bit of an image is set. -/
def RecKind.imageOk (k : RecKind) (image : List Word) : Bool :=
  (List.range k.words).all (fun w => decide ((image.getD w 0).toNat &&& k.rsvd w = 0))

/-- The RW fields of an image stored and its RW1C bits cleared, in the words that `which` names. -/
def State.recStore (s : State) (k : RecKind) (i : Nat) (image : List Word) (which : Nat → Bool) : State :=
  k.fields.foldl (fun a f =>
    if !which f.word then a
    else match f.acc with
      | .rw => a.rwr f i (f.of image)
      | .rw1c => a.rwr f i (a.rrd f i &&& (2 ^ (f.hi + 1 - f.lo) - 1 - f.of image))
      | _ => a) s

/-- A record back at its reset values. -/
def State.recReset (s : State) (k : RecKind) (i : Nat) : State :=
  (List.range k.words).foldl (fun a w => a.setRword k i w (k.resetWord w)) s

end Sys2Proof.Machine
end

