-- ==== Sys2Proof/Machine/KeyOps.lean ====
section
/-! DEFINITION. The key store: handles, usability, writing, destroying and orphaning keys, sweeps, the KDF, and what a
change of keys does to armed switches (R161, R198, R203, R241 to R259). -/

namespace Sys2Proof.Machine

open Sys2Proof

namespace Ctrs
def DERIVES : CtrId := ⟨0x04, 0⟩
def DERIVE_FAIL : CtrId := ⟨0x04, 1⟩
def DIP_ABORTS : CtrId := ⟨0x04, 2⟩
def ORPHANED : CtrId := ⟨0x04, 3⟩
def HS_OK : CtrId := ⟨0x04, 4⟩
def HS_FAIL : CtrId := ⟨0x04, 5⟩
def IMPORTS : CtrId := ⟨0x04, 6⟩
def IMPORT_FAIL : CtrId := ⟨0x04, 7⟩
def ATTESTS : CtrId := ⟨0x04, 8⟩
def L1_SW_CANCEL : CtrId := ⟨0x20, 15⟩
def SC_SW_CANCEL : CtrId := ⟨0x23, 0⟩
end Ctrs

/-- The PARENT of a root-level key (R245). -/
def rootParent : Nat := 0xFFFFFFFF

/-- CLASS of a handle (R241). -/
def handleClass (h : Nat) : Nat := bits h 31 30
/-- GEN of a handle (R241). -/
def handleGen (h : Nat) : Nat := bits h 29 24
/-- INDEX of a handle (R241). -/
def handleIndex (h : Nat) : Nat := bits h 23 0

/-- Where a slot stands in the table of slots. -/
def slotKey (cls i : Nat) : Nat := cls * 2 ^ 24 + i

/-- Advances of GEN made by every slot of a class at once (R629). -/
def State.turns (s : State) (cls : Nat) : Nat := Tbl.get 0 s.keys.turns cls

/-- A slot of the key store. -/
def State.kslot (s : State) (cls i : Nat) : KeySlot :=
  let x := Tbl.get {} s.keys.slots (slotKey cls i)
  { x with gen := (x.gen + s.turns cls) % 64 }

/-- A slot of the key store set. -/
def State.setKslot (s : State) (cls i : Nat) (x : KeySlot) : State :=
  let y : KeySlot := { x with gen := (x.gen + 64 - s.turns cls % 64) % 64 }
  { s with keys := { s.keys with slots := Tbl.set {} s.keys.slots (slotKey cls i) y } }

/-- Every slot of a class destroyed: key material zeroed, VALID clear, GEN advanced (R629). -/
def State.destroyClass (s : State) (cls : Nat) : State :=
  let slots := s.keys.slots.map (fun e => if e.1 / 2 ^ 24 = cls then (e.1, { e.2 with key := [], valid := false }) else e)
  { s with keys := { s.keys with
      slots := slots.filter (fun e => decide (e.2 ≠ {})), turns := Tbl.set 0 s.keys.turns cls (s.turns cls + 1) } }

/-- The handle of the slot at a class and index, with its current GEN. -/
def State.handle (s : State) (cls i : Nat) : Nat := cls * 2 ^ 30 + (s.kslot cls i).gen * 2 ^ 24 + i

/-- The indices that R242 lists. -/
def slotIndexValid (cls i : Nat) : Bool :=
  match cls with
  | 0 => decide (i < 262144)
  | 1 => decide (i < 5760)
  | 2 => decide (i < 1024)
  | _ => decide (i = 0) || decide (i = 2) || decide (i = 3) || decide (i = 4) || (decide (0x10 ≤ i) && decide (i ≤ 0x17)) ||
    (decide (0x80000 ≤ i) && decide (i ≤ 0x800FF)) || (decide (0x100000 ≤ i) && decide (i ≤ 0x1001FF)) ||
    (decide (0x200000 ≤ i) && decide (i ≤ 0x200FFF))

/-- A key is usable (R255): VALID, and every parent on its chain valid and at the recorded GEN. A chain has at most three
links; `fuel` bounds it. -/
def State.usableFrom (s : State) (cls i : Nat) : Nat → Bool
  | 0 => false
  | fuel + 1 =>
    let x := s.kslot cls i
    if !x.valid then false
    else if x.parent = rootParent then true
    else
      let pc := handleClass x.parent
      let pi := handleIndex x.parent
      decide ((s.kslot pc pi).gen = handleGen x.parent) && s.usableFrom pc pi fuel

/-- A key is usable (R255). -/
def State.usable (s : State) (cls i : Nat) : Bool := s.usableFrom cls i 5

/-- A slot that a running sweep has still to clear: valid, and no longer usable (R256). -/
def State.sweepPends (s : State) (cls i : Nat) : Bool := s.is KST_STAT.SWEEP && (s.kslot cls i).valid && !s.usable cls i

/-- A handle names a key: its index is listed and its GEN is the slot's (R241, R242). -/
def State.handleNames (s : State) (h : Nat) : Bool :=
  slotIndexValid (handleClass h) (handleIndex h) && decide ((s.kslot (handleClass h) (handleIndex h)).gen = handleGen h)

/-- The SAs of the SC of an SA, other than itself, that hold keys (R243). -/
def State.otherWays (s : State) (sa : Nat) : Nat :=
  ((List.range 4).filter (fun a => decide (sa / 4 * 4 + a ≠ sa) && s.usable 0 (sa / 4 * 4 + a))).length

/-- A slot is in use (R41, R162, R177, R216, R258): an SA enabled with a key or its SC draining; a slot of an enabled L1
channel that holds a key, or of one that closes. -/
def State.slotInUse (s : State) (cls i : Nat) : Bool :=
  match cls with
  | 0 => s.ris SC.DRAIN (i / 4) || (s.ris SA.EN i && s.usable 0 i)
  | 1 => s.ris L1.CLOSING (i / 2) || (s.ris L1.EN (i / 2) && s.usable 1 i)
  | _ => false

/-- The octets of a key: 16 for KLEN 1, else 32 (R244). -/
def KeySlot.octets (x : KeySlot) : Octets := if x.short then slice x.key 0 16 else slice x.key 0 32

/-- A key is exhausted for derivations or blocks (R252). -/
def KeySlot.spent (x : KeySlot) (n : Nat) : Bool := x.useEn && decide (x.use < n)

/-- `n` uses of a key taken (R252). -/
def State.takeUse (s : State) (cls i n : Nat) : State :=
  let x := s.kslot cls i
  if x.useEn then s.setKslot cls i { x with use := x.use - n } else s

/-! ### Switches that a lost key cancels (R161, R198) -/

/-- The objects of a kind that have a word in the table of records. -/
def State.recObjects (s : State) (k : RecKind) (w : Nat) : List Nat :=
  (s.recs.filter (fun e => decide (e.1 / 2 ^ 40 = k.code) && decide (e.1 % 8 = w))).map (fun e => e.1 % 2 ^ 40 / 8)

/-- An SC's armed switch cancelled when its target SA holds no usable key (R198). -/
def State.cancelScSwitch (s : State) (sc : Nat) : State :=
  if s.ris SC.SW_PEND sc ∧ !s.usable 0 (sc * 4 + s.rrd SC.SW_AN sc) then
    (s.rwr SC.SW_PEND sc 0).count Ctrs.SC_SW_CANCEL sc
  else s

/-- An L1 channel's armed switch cancelled when its other slot holds no usable key (R161). -/
def State.cancelL1Switch (s : State) (c : Nat) : State :=
  if s.ris L1.SW_PEND c ∧ !s.usable 1 (2 * c + (1 - s.rrd L1.TX_SLOT c)) then
    (s.rwr L1.SW_PEND c 0).count Ctrs.L1_SW_CANCEL c
  else s

/-- Switches whose key has been lost cancelled (R161, R198). -/
def State.cancelSwitches (s : State) : State :=
  let s1 := (s.recObjects .sc 0).foldl State.cancelScSwitch s
  (s1.recObjects .l1 3).foldl State.cancelL1Switch s1

/-! ### Writing and ending keys -/

/-- A key to be written. -/
structure NewKey where
  key : Octets
  parent : Nat
  epoch : Nat := 0
  useEn : Bool := false
  use : Nat := 0
  resetExp : Bool := false
  short : Bool := false
  peer : Nat := 0
  cak : Option Nat := none
  deriving DecidableEq, Repr

/-- The attributes of a slot but its GEN are those of no key. -/
def KeySlot.bare (x : KeySlot) : Bool := decide ({ x with gen := 0 } = ({} : KeySlot))

/-- The two ways of an SC (R243, R244): before a third of its SAs takes a key, the lowest SA that has no usable key gives up
its way, and its attributes with it. Its GEN, kept in the generation tables, advances if a sweep has still to end its key. -/
def State.freeWay (s : State) (sa : Nat) : State :=
  let full := (List.range 4).map (fun a => sa / 4 * 4 + a)
  let held := full.filter (fun n => decide (n ≠ sa) && !(s.kslot 0 n).bare)
  match (if 2 ≤ held.length then held.find? (fun n => !s.usable 0 n) else none) with
  | some n => s.setKslot 0 n { gen := ((s.kslot 0 n).gen + b2n (s.kslot 0 n).valid) % 64 }
  | none => s

/-- A key written into a slot: GEN advances (R250); a link root always expires at reset (R251); EXHAUST and PN_LOST of
an SA clear (R203); the epoch of the transmit slot of an L1 channel is TX_EPOCH (R183). -/
def State.writeKey (s : State) (cls i : Nat) (k : NewKey) : State :=
  let x := s.kslot cls i
  let s1 := (if cls = 0 then s.freeWay i else s).setKslot cls i
    { key := k.key, use := k.use, parent := k.parent, epoch := k.epoch % 2 ^ 16, gen := (x.gen + 1) % 64, valid := true,
      resetExp := k.resetExp || decide (cls = 2), useEn := k.useEn, short := k.short, peer := k.peer, cak := k.cak }
  match cls with
  | 0 => (s1.rwr SA.EXHAUST i 0).rwr SA.PN_LOST i 0
  | 1 => if i % 2 = s.rrd L1.TX_SLOT (i / 2) then s1.rwr L1.TX_EPOCH (i / 2) (k.epoch % 2 ^ 16) else s1
  | _ => s1

/-- VALID cleared and GEN advanced; `zero` also zeroes the key material (R256, R257). -/
def State.endKey (s : State) (cls i : Nat) (zero : Bool) : State :=
  let x := s.kslot cls i
  s.setKslot cls i { x with key := if zero then [] else x.key, valid := false, gen := (x.gen + 1) % 64 }

/-- One pass of a sweep over the slots: each valid slot whose PARENT names a slot at another GEN is orphaned (R256). -/
def State.sweepPass (s : State) : State :=
  let stale := s.keys.slots.filter (fun e => e.2.valid && decide (e.2.parent ≠ rootParent) &&
    decide ((s.kslot (handleClass e.2.parent) (handleIndex e.2.parent)).gen ≠ handleGen e.2.parent))
  stale.foldl (fun a e => (a.endKey (e.1 / 2 ^ 24) (e.1 % 2 ^ 24) false).count Ctrs.ORPHANED) s

/-- A sweep run to its end: children, their children, and theirs (R255, R256). -/
def State.sweepAll (s : State) : State := s.sweepPass.sweepPass.sweepPass

/-- ORPHAN of a slot, with its sweep still to run (R256). -/
def State.orphanKey (s : State) (cls i : Nat) : State := (s.endKey cls i false).cancelSwitches

/-- DESTROY of a slot, with the sweep of its children still to run (R257). -/
def State.destroyKey (s : State) (cls i : Nat) : State := (s.endKey cls i true).cancelSwitches

/-! ### Derivation (R246, R247) -/

/-- Iteration `i` of the KDF (R246). -/
def kdfBlock (parent label : Octets) (l i : Nat) : Octets :=
  Crypto.cmac parent (beBytes 4 i ++ [0x59, 0x4B, 0x44, 0x31, 0x00] ++ label ++ beBytes 4 l)

/-- The KDF of R246 with an output of `l` bits. -/
def kdf (parent label : Octets) (l : Nat) : Octets :=
  (((List.range ((l + 127) / 128)).map (fun i => kdfBlock parent label l (i + 1))).flatten).take (l / 8)

/-- A context label (R247). -/
def contextLabel (purpose peer object epoch : Nat) (extra : Octets) : Octets :=
  beBytes 4 purpose ++ beBytes 8 peer ++ beBytes 4 object ++ beBytes 4 epoch ++ slice extra 0 28

/-- The KDF of IEEE 802.1X-2020 with AES-CMAC (R214; PRESUMED: clause 6.2.1), for a key of `n` octets. -/
def mkaKdf (cak label context : Octets) (n : Nat) : Octets :=
  (((List.range ((n + 15) / 16)).map (fun i =>
    Crypto.cmac cak (beBytes 1 (i + 1) ++ label ++ [0] ++ context ++ beBytes 2 (8 * n)))).flatten).take n

/-- "IEEE8021 KEK". -/
def labelKek : Octets := [0x49, 0x45, 0x45, 0x45, 0x38, 0x30, 0x32, 0x31, 0x20, 0x4B, 0x45, 0x4B]
/-- "IEEE8021 ICK". -/
def labelIck : Octets := [0x49, 0x45, 0x45, 0x45, 0x38, 0x30, 0x32, 0x31, 0x20, 0x49, 0x43, 0x4B]

/-- DEVICE_ID (R279). -/
def State.deviceId (s : State) : Nat := (s.reg .KST_DEVID).toNat

/-- A monotonic counter of the Cistern (R235). -/
def State.monotonic (s : State) (n : Nat) : Nat := Tbl.get 0 s.cistern.counters n

/-- A monotonic counter advanced, saturating at 2^64 − 1 (R235). -/
def State.bumpMonotonic (s : State) (n : Nat) : State :=
  { s with cistern := { s.cistern with
      counters := Tbl.set 0 s.cistern.counters n (min (s.monotonic n + 1) (2 ^ 64 - 1)) } }

/-- The Cistern's domain record and CAK records cleared and the key store zeroed (R236): GEN of each slot advances as
at a destruction (R250). -/
def State.wipeCistern (s : State) : State :=
  ({ s with cistern := { s.cistern with domain := none, caks := [] } }).setReg .KST_CISTAT
    (BitVec.ofNat 64 (s.rd KST_CISTAT.CIS_ERR * 2 ^ 30))

/-- The whole key store zeroed (R236): keys and attributes, and Spring's page buffers. The generation tables are not: GEN
of each slot that held a key advances as at a destruction (R250). -/
def State.zeroKeys (s : State) : State :=
  let s1 := s.keys.slots.foldl (fun (a : State) e =>
    let x := a.kslot (e.1 / 2 ^ 24) (e.1 % 2 ^ 24)
    a.setKslot (e.1 / 2 ^ 24) (e.1 % 2 ^ 24) { gen := (x.gen + b2n x.valid) % 64 }) s
  State.cancelSwitches { s1 with keys := { s1.keys with pages := [] } }

end Sys2Proof.Machine
end

