-- ==== Sys2Proof/Machine/SecY.lean ====
section
/-! DEFINITION. SecY: the slot map's channels, SecYs, SCs, SAs and channel records, the receive SCI table, and armed
switches (R186 to R229). -/

namespace Sys2Proof.Machine

open Sys2Proof

/-! ### Channels of the live slot map (R21, R562, R580) -/

/-- The group of a channel index, and its slot (R21). -/
def chanGroup (c : Nat) : Nat := c / 160
def chanSlot (c : Nat) : Nat := c % 160

/-- The live map has a channel of a kind at an index: 0 L1 tributary, 1 packet (R21, R562). -/
def State.chanOfKind (s : State) (kind c : Nat) : Bool :=
  decide (c < 2880) && s.is FRM_TSLIVE.USED (chanGroup c) (chanSlot c) &&
  decide (s.rd FRM_TSLIVE.KIND (chanGroup c) (chanSlot c) = kind) &&
  decide (s.rd FRM_TSLIVE.OWNER (chanGroup c) (chanSlot c) = chanSlot c)

/-- An index names an L1 channel of the live map. -/
def State.l1Chan (s : State) (c : Nat) : Bool := s.chanOfKind 0 c
/-- An index names the lowest slot of a packet line channel of the live map. -/
def State.packetChan (s : State) (c : Nat) : Bool := s.chanOfKind 1 c

/-- Slots of a channel (R562). -/
def State.slotCount (s : State) (c : Nat) : Nat :=
  ((List.range 160).filter (fun t => s.is FRM_TSLIVE.USED (chanGroup c) t &&
    decide (s.rd FRM_TSLIVE.OWNER (chanGroup c) t = chanSlot c))).length

/-- A packet line channel is configured in an enabled Twin group: by a slot of the live or the waiting map, by its channel
record, or by an enabled SC. That is a host error (R128). -/
def State.twinPacket (s : State) (g : Nat) : Bool :=
  s.is WEI_GRP_CFG.EN g && decide (s.rd WEI_GRP_CFG.PROT g = 2) &&
  ((List.range 160).any (fun t => s.packetChan (160 * g + t)) ||
   (Tbl.get [] s.frm.pendMap g).any (fun w => decide (FRM_TSMAP.USED.of w = 1) && decide (FRM_TSMAP.KIND.of w = 1)) ||
   (s.recObjects .ch 0).any (fun c => decide (chanGroup c = g) && s.ris CH.EN c) ||
   (s.recObjects .sc 0).any (fun c => decide (chanGroup (s.rrd SC.CHAN c) = g) && s.ris SC.EN c))

/-! ### Objects (R190 to R206) -/

/-- The SecY of an SC, and of an SA. -/
def State.scSecy (s : State) (sc : Nat) : Nat := s.rrd SC.SECY sc
def State.saSecy (s : State) (sa : Nat) : Nat := s.scSecy (sa / 4)

/-- The suite of a SecY is an XPN suite, and a 128-bit suite (R224). -/
def State.xpn (s : State) (y : Nat) : Bool := decide (2 ≤ s.rrd SECY.SUITE y)
def State.suite128 (s : State) (y : Nat) : Bool := decide (s.rrd SECY.SUITE y % 2 = 0)

/-- An SC is a receive SC. -/
def State.rxSc (s : State) (sc : Nat) : Bool := s.ris SC.DIR sc

/-- The encoding SA of a transmit SC (R197). -/
def State.encSa (s : State) (sc : Nat) : Nat := sc * 4 + s.rrd SC.ENC_AN sc

/-- KEY: the SA's slot holds a usable key (R226). -/
def State.saKey (s : State) (sa : Nat) : Bool := s.usable 0 sa

/-- The SA is enabled and holds a key. -/
def State.saReady (s : State) (sa : Nat) : Bool := s.ris SA.EN sa && s.saKey sa

/-- Last PN of an SA (R200). -/
def State.lastPn (s : State) (sa : Nat) : Nat :=
  let top := if s.xpn (s.saSecy sa) then 2 ^ 64 - 1 else 2 ^ 32 - 1
  let x := s.kslot 0 sa
  if x.useEn then min top x.use else top

/-- NEXT_PN as a number past every PN when the last one of 64 bits has been assigned. -/
def State.nextPn (s : State) (sa : Nat) : Nat :=
  let n := s.rrd SA.NEXT_PN sa
  if n = 0 ∧ s.ris SA.EXHAUST sa then 2 ^ 64 else n

/-- An SA assigns no PN: exhausted, its PN state lost (R202, R203), or disabled by an error in its record (R229). NEXT_PN
reads 0 once 2^64 − 1 has been assigned, and PN 0 is never assigned (R200), not under a later key either, until NEXT_PN
is written. -/
def State.noPn (s : State) (sa : Nat) : Bool :=
  s.ris SA.EXHAUST sa || s.ris SA.PN_LOST sa || !s.ris SA.EN sa || decide (s.rrd SA.NEXT_PN sa = 0) ||
  decide (s.lastPn sa < s.nextPn sa)

/-- A transmit SA whose NEXT_PN is past its last PN has assigned it: EXHAUST is set and the event raised, if not before
(R202). So it is too when SETUSE lowers the last PN below NEXT_PN, or when SA_WR raises NEXT_PN past it (DESIGN CHOICE). -/
def State.exhaustCheck (s : State) (sa : Nat) : State :=
  if s.saKey sa ∧ !s.rxSc (sa / 4) ∧ !s.ris SA.EXHAUST sa ∧ s.lastPn sa < s.nextPn sa then
    ((s.rwr SA.EXHAUST sa 1).mark SCY_STAT.PN_EVENT).raiseEvent 0x05 sa
  else s

/-- The PN trigger of an armed switch holds (R197). -/
def State.pnTrigger (s : State) (sc : Nat) : Bool :=
  let sa := s.encSa sc
  let t := s.rrd SC.SW_AT sc
  if t = 0 then s.ris SA.EXHAUST sa || decide (s.lastPn sa < s.nextPn sa) else decide (t ≤ s.nextPn sa)

/-- A switch takes effect (R197). -/
def State.scSwitch (s : State) (sc : Nat) : State := (s.rwr SC.ENC_AN sc (s.rrd SC.SW_AN sc)).rwr SC.SW_PEND sc 0

/-- A switch armed by PN takes effect when its trigger holds (R197). -/
def State.tryPnSwitch (s : State) (sc : Nat) : State :=
  if s.ris SC.SW_PEND sc ∧ s.ris SC.SW_BY_PN sc ∧ s.pnTrigger sc then s.scSwitch sc else s

/-- The Gauge frame that starts reaches the target of a switch armed by frame (R55 step 1, R197). -/
def State.tryFrameSwitch (s : State) (sc : Nat) : State :=
  let g := chanGroup (s.rrd SC.CHAN sc)
  if s.ris SC.SW_PEND sc ∧ !s.ris SC.SW_BY_PN sc ∧
      atOrAfter (s.gauge g) (reading (s.rrd SC.SW_AT sc / 2 ^ 16) 0) then s.scSwitch sc else s

/-- A PN assigned by an SA: NEXT_PN advances; the threshold and exhaustion events (R196, R201, R202). -/
def State.assignPn (s : State) (sa : Nat) : Nat × State :=
  let pn := s.rrd SA.NEXT_PN sa
  let s1 := s.rwr SA.NEXT_PN sa ((pn + 1) % 2 ^ 64)
  let hit := decide (s.rrd SA.PN_THRESH sa ≠ 0) && decide (s.rrd SA.PN_THRESH sa = pn) && !(Tbl.get false s.secy.fired sa)
  let s2 := if hit then
      let s' := (s1.rwr SA.THRESH_HIT sa 1).mark SCY_STAT.PN_EVENT
      State.raiseEvent { s' with secy := { s'.secy with fired := Tbl.set false s'.secy.fired sa true } } 0x04 sa
    else s1
  let s3 := if pn = s.lastPn sa then ((s2.rwr SA.EXHAUST sa 1).mark SCY_STAT.PN_EVENT).raiseEvent 0x05 sa else s2
  (pn, s3.tryPnSwitch (sa / 4))

/-! ### SCY_CMD (R222) -/

/-- An SCY_CMD operation completes. -/
def State.scyDone (s : State) (status : Nat) : State := (s.wr SCY_CMD.STATUS status).unmark SCY_CMD.BUSY

/-- The record image in SCY_DATA. -/
def State.scyImage (s : State) : List Word := (List.range 5).map (fun w => s.reg .SCY_DATA w)

/-- A record image put into SCY_DATA. -/
def State.setScyImage (s : State) (ws : List Word) : State :=
  (List.range ws.length).foldl (fun a w => a.setReg .SCY_DATA (ws.getD w 0) w) s

/-- Objects of a kind (R190). -/
def secyCount : RecKind → Nat
  | .secy => 4096
  | .sc => 65536
  | .sa => 262144
  | _ => 2880

/-- A write to SCY_CMD (R222): dropped while BUSY is 1; else OP and INDEX are stored, BUSY is set, and the operation
runs. -/
def State.scyCommand (s : State) (op i : Nat) (run : State → Host.Outcome State Fault Refusal) :
    Host.Outcome State Fault Refusal :=
  if s.is SCY_CMD.BUSY then .next (s.mark SCY_STAT.CMD_DROP)
  else run (((s.wr SCY_CMD.OP op).wr SCY_CMD.INDEX i).mark SCY_CMD.BUSY)

/-- The words of a record as they read: KEY of an SA is computed (R226). -/
def State.secyWords (s : State) (k : RecKind) (i : Nat) : List Word :=
  let ws := s.recWords k i
  match k with
  | .sa => setAt ws 0 (BitVec.ofNat 64 (setBits (ws.getD 0 0).toNat 62 62 (b2n (s.saKey i))))
  | _ => ws

/-- OBJECT code of kind 0x62 (R695). -/
def secyCode : RecKind → Nat
  | .secy => 0
  | .sc => 1
  | .sa => 2
  | _ => 3

/-- An SC takes no new work from now on, as after DISABLE (R218, R229). -/
def State.drainSc (s : State) (c : Nat) : State := if s.ris SC.EN c then s.rwr SC.DRAIN c 1 else s

/-- A record's word is uncorrectable when it is read (R203, R229): NEXT_PN of an SA sets PN_LOST; another word disables
the object as DISABLE does. With a SecY, each of its SCs drains; a receive SA drains; a transmit SA assigns no further PN;
a channel discards every frame (R208; which objects go with a SecY is a DESIGN CHOICE). The error is logged. -/
def State.secyLost (s : State) (k : RecKind) (i w : Nat) : State :=
  let pn := decide (k = .sa) && decide (w = 1)
  let s1 := s.report 0x62 (secyCode k + i * 2 ^ 3 + w * 2 ^ 21 + b2n pn * 2 ^ 24)
  if pn then s1.rwr SA.PN_LOST i 1
  else match k with
    | .secy => ((s1.recObjects .sc 0).filter (fun c => decide (s1.scSecy c = i))).foldl State.drainSc (s1.rwr SECY.EN i 0)
    | .sc => s1.drainSc i
    | .sa => if s1.ris SA.EN i ∧ s1.rxSc (i / 4) ∧ !s1.secy.draining.contains i then
        { s1 with secy := { s1.secy with draining := s1.secy.draining ++ [i] } }
      else if s1.rxSc (i / 4) then s1 else s1.rwr SA.EN i 0
    | _ => s1.rwr CH.EN i 0

/-- A record copied into the image; `ue` names a word that proves uncorrectable, whose content is then a free value. -/
def State.scyRead (s : State) (op : Nat) (k : RecKind) (i : Nat) (ue : Option Nat) : Host.Outcome State Fault Refusal :=
  s.scyCommand op i (fun s1 => .next (
    if secyCount k ≤ i then s1.scyDone 1
    else match ue with
      | none => (s1.setScyImage (s1.secyWords k i)).scyDone 0
      | some w =>
        if k.words ≤ w then (s1.setScyImage (s1.secyWords k i)).scyDone 0
        else
          let s2 := s1.secyLost k i w
          let (x, s3) := s2.draw
          (s3.setScyImage (setAt (s3.secyWords k i) w x)).scyDone 0))

/-- SECY_RD (R222). -/
def execSecyRd (i : BitVec 18) (ue : Option Nat) (s : State) : Host.Outcome State Fault Refusal :=
  s.scyRead 0 .secy i.toNat ue
/-- SC_RD (R222). -/
def execScRd (i : BitVec 18) (ue : Option Nat) (s : State) : Host.Outcome State Fault Refusal :=
  s.scyRead 2 .sc i.toNat ue
/-- SA_RD (R222). -/
def execSaRd (i : BitVec 18) (ue : Option Nat) (s : State) : Host.Outcome State Fault Refusal :=
  s.scyRead 4 .sa i.toNat ue
/-- CH_RD (R222). -/
def execChRd (i : BitVec 18) (ue : Option Nat) (s : State) : Host.Outcome State Fault Refusal :=
  s.scyRead 6 .ch i.toNat ue

/-- A record write: `bad` gives the status of a refusal; `after` follows a write that is done, and `wrong` tells whether
it left a host error. -/
def State.scyWrite (s : State) (op : Nat) (k : RecKind) (i : Nat) (bad : State → List Word → Nat)
    (after : State → State) (wrong : State → Bool) : Host.Outcome State Fault Refusal :=
  s.scyCommand op i (fun s1 =>
    let image := s1.scyImage
    if secyCount k ≤ i then .next (s1.scyDone 1)
    else if !k.imageOk image then .fault .hostError
    else if bad s1 image ≠ 0 then .next (s1.scyDone (bad s1 image))
    else
      let s2 := after (s1.recStore k i image (fun _ => true))
      if wrong s2 then .fault .hostError else .next (s2.scyDone 0))

/-- An SC that names a SecY is enabled or draining (R224). -/
def State.secyUsed (s : State) (y : Nat) : Bool :=
  (s.recObjects .sc 0).any (fun c => decide (s.rrd SC.SECY c = y) && (s.ris SC.EN c || s.ris SC.DRAIN c))

/-- Refusals of SECY_WR (R224). -/
def secyBad (i : Nat) (s : State) (im : List Word) : Nat :=
  let en := s.ris SECY.EN i
  let same := fun (f : RField) => decide (f.of im = s.rrd f i)
  if decide (4 ≤ SECY.SUITE.of im) || decide (SECY.OFFSET.of im = 3) || decide (SECY.MAX_FRAME.of im < 64) ||
      decide (10240 < SECY.MAX_FRAME.of im) || (decide (2 ≤ SECY.SUITE.of im) && decide (2 ^ 30 ≤ SECY.WINDOW.of im)) ||
      (en && !([SECY.SUITE, SECY.OFFSET, SECY.TX_SCI, SECY.ES, SECY.SCB, SECY.MAX_FRAME, SECY.SCI].all same)) ||
      (en && decide (SECY.EN.of im = 0) && s.secyUsed i) then 2 else 0

/-- SECY_WR (R224). -/
def execSecyWr (i : BitVec 18) (s : State) : Host.Outcome State Fault Refusal :=
  s.scyWrite 1 .secy i.toNat (secyBad i.toNat) id (fun _ => false)

/-- Refusals of SC_WR (R225). -/
def scBad (i : Nat) (s : State) (im : List Word) : Nat :=
  let en := s.ris SC.EN i
  let sets := decide (SC.EN.of im = 1) && !en
  let same := fun (f : RField) => decide (f.of im = s.rrd f i)
  if s.ris SC.DRAIN i then 5
  else if (sets && !s.ris SECY.EN (SC.SECY.of im)) || (sets && !s.packetChan (SC.CHAN.of im)) ||
      (sets && decide (SC.DIR.of im = 0) && !s.saReady (i * 4 + SC.ENC_AN.of im)) ||
      (en && decide (SC.EN.of im = 0)) || (en && !([SC.DIR, SC.CHAN, SC.SECY, SC.ENC_AN].all same)) then 2 else 0

/-- SC_WR (R225). -/
def execScWr (i : BitVec 18) (s : State) : Host.Outcome State Fault Refusal :=
  s.scyWrite 3 .sc i.toNat (scBad i.toNat) (fun a => a.tryPnSwitch i.toNat) (fun a => a.twinPacket (chanGroup (a.rrd SC.CHAN i.toNat)))

/-- Refusals of SA_WR (R219, R220, R226). Writing NEXT_PN with the value it has is no write of a lower or equal number but
no change, so that the SA's other fields can be written under a key (R220; DESIGN CHOICE); once 2^64 − 1 has been
assigned, no value is higher. -/
def saBad (i : Nat) (s : State) (im : List Word) : Nat :=
  let y := s.saSecy i
  let en := s.ris SA.EN i
  let key := s.saKey i
  let n := SA.NEXT_PN.of im
  let same := fun (f : RField) => decide (f.of im = s.rrd f i)
  if s.secy.draining.contains i then 5
  else if decide (n = 0) || (!s.xpn y && decide (2 ^ 32 ≤ n)) || (key && decide (n < s.nextPn i)) ||
      (en && key && !([SA.SSCI, SA.SALT_LO, SA.SALT_HI].all same)) ||
      (en && decide (SA.EN.of im = 0) && s.ris SC.EN (i / 4) && !s.rxSc (i / 4) && decide (s.encSa (i / 4) = i)) then 2
  else 0

/-- What follows an SA_WR: a receive SA whose EN was cleared drains (R219); the threshold event may be raised again
(R201); a switch by PN is compared (R197). -/
def saAfter (i : Nat) (was : Bool) (s : State) : State :=
  let s1 := { s with secy := { s.secy with fired := Tbl.set false s.secy.fired i false } }
  let s2 := if was ∧ !s.ris SA.EN i ∧ s.rxSc (i / 4) then
      State.rwr { s1 with secy := { s1.secy with draining := s1.secy.draining ++ [i] } } SA.EN i 1
    else s1
  (s2.exhaustCheck i).tryPnSwitch (i / 4)

/-- Two enabled SAs of one SecY under an XPN suite, one of each direction, have the same SSCI: a host error (R217). -/
def State.ssciClash (s : State) (i : Nat) : Bool :=
  s.ris SA.EN i && s.xpn (s.saSecy i) && (s.recObjects .sa 0).any (fun j => s.ris SA.EN j &&
    decide (s.saSecy j = s.saSecy i) && decide (s.rxSc (j / 4) ≠ s.rxSc (i / 4)) && decide (s.rrd SA.SSCI j = s.rrd SA.SSCI i))

/-- SA_WR (R226). -/
def execSaWr (i : BitVec 18) (s : State) : Host.Outcome State Fault Refusal :=
  s.scyWrite 5 .sa i.toNat (saBad i.toNat) (saAfter i.toNat (s.ris SA.EN i.toNat)) (fun a => a.ssciClash i.toNat)

/-- Refusals of CH_WR (R227). -/
def chBad (i : Nat) (s : State) (im : List Word) : Nat :=
  let c := CH.DEF_SC.of im
  if (s.ris CH.EN i && decide (CH.POLICY.of im ≠ s.rrd CH.POLICY i)) ||
      (decide (CH.DEF_V.of im = 1) && !(s.rxSc c && decide (s.rrd SC.CHAN c = i))) then 2 else 0

/-- CH_WR (R227). -/
def execChWr (i : BitVec 18) (s : State) : Host.Outcome State Fault Refusal :=
  s.scyWrite 7 .ch i.toNat (chBad i.toNat) id (fun a => a.twinPacket (chanGroup i.toNat))

/-! ### The receive SCI table (R190, R222, R223) -/

/-- Where an entry stands. -/
def sciKey (chan sci : Nat) : Nat := chan * 2 ^ 64 + sci

/-- The SC of an entry. -/
def State.sciFind (s : State) (chan sci : Nat) : Option Nat :=
  match Tbl.get 0 s.secy.sci (sciKey chan sci) with
  | 0 => none
  | n + 1 => some n

/-- An entry set; SCI_USED follows (R228). -/
def State.sciSet (s : State) (chan sci v : Nat) : State :=
  let t := Tbl.set 0 s.secy.sci (sciKey chan sci) v
  State.wr { s with secy := { s.secy with sci := t } } SCY_STAT.SCI_USED t.length

/-- SCI, channel and SC in SCY_DATA0 and SCY_DATA1. -/
def State.sciArg (s : State) : Nat := (s.reg .SCY_DATA 0).toNat
def State.sciChan (s : State) : Nat := bits (s.reg .SCY_DATA 1).toNat 43 32
def State.sciSc (s : State) : Nat := bits (s.reg .SCY_DATA 1).toNat 15 0

/-- SCI_ADD (R222, R223). -/
def execSciAdd (i : BitVec 18) (s : State) : Host.Outcome State Fault Refusal :=
  s.scyCommand 8 i.toNat (fun s1 =>
    .next (if 2880 ≤ s1.sciChan then s1.scyDone 1
      else if (s1.sciFind s1.sciChan s1.sciArg).isSome ∨ 65536 ≤ s1.secy.sci.length then s1.scyDone 3
      else (s1.sciSet s1.sciChan s1.sciArg (s1.sciSc + 1)).scyDone 0))

/-- SCI_DEL (R222). -/
def execSciDel (i : BitVec 18) (s : State) : Host.Outcome State Fault Refusal :=
  s.scyCommand 9 i.toNat (fun s1 =>
    .next (match s1.sciFind s1.sciChan s1.sciArg with
      | none => s1.scyDone (if 2880 ≤ s1.sciChan then 1 else 4)
      | some _ => (s1.sciSet s1.sciChan s1.sciArg 0).scyDone 0))

/-- SCI_FIND (R222). -/
def execSciFind (i : BitVec 18) (s : State) : Host.Outcome State Fault Refusal :=
  s.scyCommand 10 i.toNat (fun s1 =>
    .next (match s1.sciFind s1.sciChan s1.sciArg with
      | none => s1.scyDone (if 2880 ≤ s1.sciChan then 1 else 4)
      | some c => (s1.setReg .SCY_DATA (BitVec.ofNat 64 (setBits (s1.reg .SCY_DATA 1).toNat 15 0 c)) 1).scyDone 0))

/-! ### SWITCH, DISABLE (R197, R198, R218) -/

/-- A switch armed from the image; a trigger that already holds takes effect at once (R197, R198). -/
def State.armSwitch (s : State) (c : Nat) (im : List Word) : State :=
  let s1 := (((s.rwr SC.SW_AN c (SC.SW_AN.of im)).rwr SC.SW_BY_PN c (SC.SW_BY_PN.of im)).rwr SC.SW_AT c
    (SC.SW_AT.of im)).rwr SC.SW_PEND c 1
  let g := chanGroup (s.rrd SC.CHAN c)
  if SC.SW_BY_PN.of im = 1 then s1.tryPnSwitch c
  else if g < 18 ∧ s.is GAU_STAT.RUN g ∧ atOrAfter (s.gauge g) (reading (SC.SW_AT.of im / 2 ^ 16) 0) then
    (s1.scSwitch c).mark GAU_STAT.PAST g
  else s1

/-- SWITCH (R198): of a transmit SC. -/
def execScySwitch (i : BitVec 18) (s : State) : Host.Outcome State Fault Refusal :=
  s.scyCommand 11 i.toNat (fun s1 =>
    let c := i.toNat
    let im := s1.scyImage
    let an := SC.SW_AN.of im
    .next (if 65536 ≤ c then s1.scyDone 1
      else if s1.rxSc c then s1.scyDone 1
      else if !s1.saReady (c * 4 + an) ∨ an = s1.rrd SC.ENC_AN c ∨ s1.ris SC.SW_PEND c then s1.scyDone 6
      else (s1.armSwitch c im).scyDone 0))

/-- DISABLE (R218): DRAIN is set; SC_DRAIN_END ends it. -/
def execScyDisable (i : BitVec 18) (s : State) : Host.Outcome State Fault Refusal :=
  s.scyCommand 12 i.toNat (fun s1 =>
    let c := i.toNat
    .next (if 65536 ≤ c then s1.scyDone 1
      else if !s1.ris SC.EN c then s1.scyDone 7
      else if s1.ris SC.DRAIN c then s1.scyDone 5
      else (s1.rwr SC.DRAIN c 1).scyDone 0))

/-- SCY_CMD_INVALID (R222): OP 13 to 15. -/
def execScyCmdInvalid (op : Fin 3) (i : BitVec 18) (s : State) : Host.Outcome State Fault Refusal :=
  s.scyCommand (13 + op.val) i.toNat (fun s1 => .next (s1.scyDone 1))

/-- A write of a word to SCY_CMD. -/
def State.scyCmdWrite (s : State) (v : Word) : Host.Outcome State Fault Refusal :=
  let i := BitVec.ofNat 18 (SCY_CMD.INDEX.of v)
  match SCY_CMD.OP.of v with
  | 0 => execSecyRd i none s
  | 1 => execSecyWr i s
  | 2 => execScRd i none s
  | 3 => execScWr i s
  | 4 => execSaRd i none s
  | 5 => execSaWr i s
  | 6 => execChRd i none s
  | 7 => execChWr i s
  | 8 => execSciAdd i s
  | 9 => execSciDel i s
  | 10 => execSciFind i s
  | 11 => execScySwitch i s
  | 12 => execScyDisable i s
  | n => execScyCmdInvalid (Fin.ofNat 3 (n - 13)) i s

end Sys2Proof.Machine
end

