-- ==== Sys2Proof/Machine/WeirOps.lean ====
section
/-! DEFINITION. What the Weir and the modes share: which Races a group names, standby Races, leases and the Sluice, and
entry into a mode (R25 to R32, R282 to R285, R607 to R611, R622). -/

namespace Sys2Proof.Machine

open Sys2Proof

/-! ### Races and groups (R25 to R28) -/

def rsOff : Nat := 0
def rsWaking : Nat := 1
def rsReady : Nat := 2
def rsServing : Nat := 3
def rsFailed : Nat := 4
def rsTesting : Nat := 5

/-- A Race: what is not in its registers. -/
def State.race (s : State) (k : Nat) : Race := Tbl.get {} s.races k
/-- A Race set. -/
def State.setRace (s : State) (k : Nat) (x : Race) : State := { s with races := Tbl.set {} s.races k x }
/-- STATE of a Race (R130). -/
def State.rstate (s : State) (k : Nat) : Nat := s.rd RC_STAT.STATE k
/-- STATE of a Race set. -/
def State.setRstate (s : State) (k v : Nat) : State := s.wr RC_STAT.STATE v k

/-- What the Weir holds for a group. -/
def State.wgrp (s : State) (g : Nat) : WeirGroup := Tbl.get {} s.weir.groups g
/-- What the Weir holds for a group set. -/
def State.setWgrp (s : State) (g : Nat) (x : WeirGroup) : State :=
  { s with weir := { s.weir with groups := Tbl.set {} s.weir.groups g x } }

/-- The group is Twin (R27). -/
def State.twin (s : State) (g : Nat) : Bool := decide (s.rd WEI_GRP_CFG.PROT g = 2)

/-- WEI_GRP_CFGg names a Race (R28). -/
def State.names (s : State) (g k : Nat) : Bool :=
  s.is WEI_GRP_CFG.EN g && (decide (s.rd WEI_GRP_CFG.RACE_A g = k) || (s.twin g && decide (s.rd WEI_GRP_CFG.RACE_B g = k)))

/-- Some group names a Race. -/
def State.named (s : State) (k : Nat) : Bool := (List.range 18).any (fun g => s.names g k)

/-- A Race is marked in FAILED (R30, R31). -/
def State.failed (s : State) (k : Nat) : Bool := (s.rd WEI_POOL_STAT.FAILED).testBit k

/-- A standby Race (R26). -/
def State.standby (s : State) (k : Nat) : Bool := decide (s.rstate k = rsOff) && !s.failed k && !s.named k

/-- STANDBY: the number of standby Races (R26, R30). -/
def State.standbyCount (s : State) : Nat := ((List.range 24).filter s.standby).length

/-- The replacement that R297 chooses: the lowest-numbered standby Race. -/
def State.chooseRace (s : State) : Option Nat := (List.range 24).find? s.standby

/-! ### Leases and the Sluice (R282 to R285, R310) -/

/-- A lease is held. -/
def State.leaseHeld (s : State) (g : Nat) : Bool := decide (s.rd WEI_LEASE.STATE g = 1)

/-- A Race is a current holder of a group's lease (R287). -/
def State.holds (s : State) (g k : Nat) : Bool :=
  s.leaseHeld g && (decide (s.rd WEI_LEASE.HOLDER_A g = k) || decide (s.rd WEI_LEASE.HOLDER_B g = k))

/-- Output passes a group's Sluice: its lease is held, and the card is active when CARD_EN is 1 (R134, R310). -/
def State.sluiceOpen (s : State) (g : Nat) : Bool :=
  s.leaseHeld g && (!s.is WEI_CARD.CARD_EN || s.is WEI_CARD.ACTIVE)

/-- The holder that computes a group's output alone, or first (R282). -/
def State.holder (s : State) (g : Nat) : Option Nat :=
  let a := s.rd WEI_LEASE.HOLDER_A g
  let b := s.rd WEI_LEASE.HOLDER_B g
  if !s.leaseHeld g then none else if a < 24 then some a else if b < 24 then some b else none

/-- A Race passes nothing more in a direction: it has withheld a block there (R120). -/
def State.withheld (s : State) (k d : Nat) : Bool :=
  match (s.race k).dispute with
  | some x => if d = 0 then x.egress else x.ingress
  | none => false

/-- Some holder of a group's lease still passes a direction (R120, R134). -/
def State.flows (s : State) (g d : Nat) : Bool :=
  s.sluiceOpen g && [s.rd WEI_LEASE.HOLDER_A g, s.rd WEI_LEASE.HOLDER_B g].any (fun k => decide (k < 24) && !s.withheld k d)

/-- A group's lease goes to none (R129, R608); LEPOCH is kept, and its Races wait for the next grant. -/
def State.endLease (s : State) (g : Nat) : State :=
  let s1 := ((s.wr WEI_LEASE.STATE 0 g).wr WEI_LEASE.HOLDER_A 0x1F g).wr WEI_LEASE.HOLDER_B 0x1F g
  (List.range 24).foldl (fun (a : State) k =>
    if a.names g k ∧ a.rstate k = rsServing then
      (((a.setRace k { a.race k with dispute := none }).setRstate k rsReady).wr RC_STAT.GROUP 0x1F k).wr RC_STAT.ROLE 0 k
    else a) s1

/-- A Race goes to Off and serves no group (R130). -/
def State.raceOff (s : State) (k : Nat) : State :=
  let x := s.race k
  let y : Race := { tested := x.tested, gateOpen := x.gateOpen }
  (((s.setRace k y).setRstate k rsOff).wr RC_STAT.GROUP 0x1F k).wr RC_STAT.ROLE 0 k

/-- A Race starts waking (R131). -/
def State.wakeRace (s : State) (k : Nat) (w : Wake) : State :=
  let x := s.race k
  let y : Race := { tested := x.tested, gateOpen := x.gateOpen, wake := w }
  (s.setRace k y).setRstate k rsWaking

/-- A Race is waking, or Ready and waiting, as the replacement or the joiner of a group. -/
def State.abroad (s : State) (g k : Nat) : Bool :=
  (decide (s.rstate k = rsWaking) || decide (s.rstate k = rsReady)) &&
  (decide ((s.race k).wake = .replace g) || decide ((s.race k).wake = .join g))

/-! ### Breaches (R94) -/

/-- A breach record of kind 0x21 (R94, R695). -/
def State.breach21 (s : State) (g q sa frames octets : Nat) : State :=
  s.report 0x21 (q + sa * 2 ^ 20 + (frames % 2 ^ 32) * 2 ^ 38 + (octets % 2 ^ 48) * 2 ^ 70) g

/-- A breach record of kind 0x22 (R94, R695). -/
def State.breach22 (s : State) (g chan sa frames octets : Nat) : State :=
  s.report 0x22 (chan + sa * 2 ^ 12 + (frames % 2 ^ 32) * 2 ^ 30 + (octets % 2 ^ 48) * 2 ^ 62) g

/-- The breach records of a group's dropped frames, one for each channel and SA (R94). -/
def State.dropRecords (s : State) (g : Nat) : State :=
  let x := s.wgrp g
  State.takeReports (x.drops.foldl (fun (a : State) e => a.breach22 g e.1 e.2.1 e.2.2.1 e.2.2.2)
    (s.holdReports.setWgrp g { x with drops := [] })) s.inCycle

/-! ### A fail-over given up -/

/-- A fail-over or join given up: the Races woken for it go back to Off (DEDUCED), and what the shelter input has dropped
is recorded (R94). -/
def State.dropFailover (s : State) (g : Nat) : State :=
  let s1 := (List.range 24).foldl (fun (a : State) k => if a.abroad g k then a.raceOff k else a) s
  (s1.setWgrp g { s1.wgrp g with phase := .none }).dropRecords g

/-- Every lease ended, and owed again to each enabled group (R608). -/
def State.endLeases (s : State) : State :=
  (List.range 18).foldl (fun (a : State) g =>
    let a1 := (a.endLease g).dropFailover g
    a1.setWgrp g { a1.wgrp g with epochOnly := false }) s

/-- The modes in which the Races stay Off (R610). -/
def modeTests (m : Nat) : Bool := decide (m = 2) || decide (m = 8)

/-- Races that a group names and that are Off start waking, in a mode that uses them (R29, R131, R610). -/
def State.wakeNamed (s : State) : State :=
  if modeTests (s.rd GBL_MODE.MODE) then s
  else (List.range 18).foldl (fun (a : State) g =>
    if a.is WEI_GRP_CFG.CLOSING g then a
    else (List.range 24).foldl (fun (b : State) k =>
      if b.names g k && decide (b.rstate k = rsOff) && !b.failed k then b.wakeRace k (.start g) else b) a) s

/-- Races that wake or wait go back to Off in M2 and M8 (R610). -/
def State.sleepNamed (s : State) : State :=
  (List.range 24).foldl (fun (a : State) k =>
    if a.rstate k = rsWaking ∨ a.rstate k = rsReady then a.raceOff k else a) s

/-- A lease granted to one or two Races (R283): LEPOCH + 1, the term starts, and each holder serves. -/
def State.grantLease (s : State) (g a : Nat) (b : Option Nat) : State :=
  let s1 := ((((s.wr WEI_LEASE.STATE 1 g).wr WEI_LEASE.HOLDER_A a g).wr WEI_LEASE.HOLDER_B (b.getD 0x1F) g).wr
    WEI_LEASE.LEPOCH ((s.rd WEI_LEASE.LEPOCH g + 1) % 2 ^ 16) g).wr WEI_LEASE.RENEW (frameOf (s.gauge g) % 2 ^ 16) g
  let x := s1.wgrp g
  let s2 := s1.setWgrp g { x with term := s.tick.toNat, epochOnly := false }
  (a :: b.toList).foldl (fun t k =>
    let y := t.race k
    let fresh : Race := { y with wake := .none, granted := s.gauge g, match0 := none, match1 := none, since0 := 0, since1 := 0 }
    let t0 := if t.rstate k = rsServing then t else t.setRace k fresh
    let t1 := t0.setRace k { t0.race k with lepoch := t0.rd WEI_LEASE.LEPOCH g }
    ((t1.setRstate k rsServing).wr RC_STAT.GROUP g k).wr RC_STAT.ROLE (if k = a then 1 else 2) k) s2

/-! ### Modes (R607 to R611, R622) -/

/-- The current mode. -/
def State.mode (s : State) : Nat := s.rd GBL_MODE.MODE

/-- A mode in which group leases are granted (R608). -/
def modeServes (m : Nat) : Bool := decide (5 ≤ m) && decide (m ≤ 7)

/-- Entry into a mode (R607 to R611, R622, R631, R686): TRANS, STOP_CLEAN, leases, class 0x06, and the MODE cause. -/
def State.enterMode (s : State) (m : Nat) : State :=
  let s1 := (s.wr GBL_MODE.MODE m).wr GBL_MODE.TRANS ((s.rd GBL_MODE.TRANS + 1) % 2 ^ 16)
  let s2 := if m = 2 ∨ m = 3 ∨ m = 4 ∨ m = 11 then s1.mark GBL_MODE.STOP_CLEAN
    else if m = 5 ∨ m = 8 ∨ m = 10 then s1.unmark GBL_MODE.STOP_CLEAN else s1
  let s3 := if modeServes s.mode ∧ !modeServes m then s2.endLeases else s2
  let s4 := if m = 2 then s3.mark GBL_DEBUG.OPEN else s3
  let s5 := if m = 6 then s4.raiseEvent 0x06 0 else s4
  let s6 := if modeTests m then s5.sleepNamed else s5.wakeNamed
  if m = s.mode then s6 else s6.raiseCause 2

/-- The device returns from M6 to M5 when STANDBY reads 2 or more (R609). -/
def State.degradedExit (s : State) : State := if s.mode = 6 ∧ 2 ≤ s.standbyCount then s.enterMode 5 else s

/-- A Race has failed: with fewer than two standby Races left the device enters M6 (R32). -/
def State.degradedEntry (s : State) : State := if s.mode = 5 ∧ s.standbyCount < 2 then s.enterMode 6 else s

/-- The presence window is open (R614). -/
def State.present (s : State) : Bool := s.is GBL_PRES.OPEN

end Sys2Proof.Machine
end

