-- ==== Sys2Proof/Machine/Basin.lean ====
section
/-! DEFINITION. Basin: the tree, cells and queue chains, admission, the scheduler, shapers, policers and Basin's
commands by both paths (chapter 12). -/

namespace Sys2Proof.Machine

open Sys2Proof

namespace Ctrs
def ACC_FRAMES : CtrId := ⟨0x26, 0⟩
def ACC_OCTETS : CtrId := ⟨0x26, 1⟩
def DEQ_FRAMES : CtrId := ⟨0x26, 2⟩
def REF_QDIS : CtrId := ⟨0x26, 3⟩
def REF_SC : CtrId := ⟨0x26, 4⟩
def REF_CAP : CtrId := ⟨0x26, 5⟩
def REF_YELLOW : CtrId := ⟨0x26, 6⟩
def REF_POOL : CtrId := ⟨0x26, 7⟩
def REF_MEMERR : CtrId := ⟨0x26, 8⟩
def POL_OFF : CtrId := ⟨0x26, 9⟩
def GREEN_F : CtrId := ⟨0x27, 0⟩
def GREEN_O : CtrId := ⟨0x27, 1⟩
def YELLOW_F : CtrId := ⟨0x27, 2⟩
def YELLOW_O : CtrId := ⟨0x27, 3⟩
def RED_F : CtrId := ⟨0x27, 4⟩
def RED_O : CtrId := ⟨0x27, 5⟩
def YDROP : CtrId := ⟨0x27, 6⟩
def CHAIN_BREAKS : CtrId := ⟨0x0B, 0⟩
def VOIDED : CtrId := ⟨0x0B, 1⟩
def OUT_TOO_LONG : CtrId := ⟨0x24, 0⟩
end Ctrs

/-! ### The tree (R427, R428) -/

/-- Index of the record of a node of level 1 to 3. -/
def nodeIx (level n : Nat) : Nat := level * 2 ^ 20 + n

/-- Queues and nodes of the next level down that are enabled under a node (R428). -/
def State.childrenOf (s : State) (level n : Nat) : List Nat :=
  match level with
  | 1 => (s.recObjects .queue 0).filter (fun q => s.ris QUE.EN q && decide (s.rrd QUE.FG q = n))
  | _ => ((s.recObjects .node 0).filter (fun x => decide (x / 2 ^ 20 + 1 = level) && s.ris NODE.EN x &&
      decide (s.rrd NODE.PARENT x = n))).map (fun x => x % 2 ^ 20)

/-- The line channel that a flow group or tenant reaches through its parents. -/
def State.fgChan (s : State) (fg : Nat) : Nat := s.rrd NODE.PARENT (nodeIx 2 (s.rrd NODE.PARENT (nodeIx 1 fg)))
/-- The line channel of a queue (R428). -/
def State.queueChan (s : State) (q : Nat) : Nat := s.fgChan (s.rrd QUE.FG q)
/-- The line group of a queue (R428). -/
def State.queueGroup (s : State) (q : Nat) : Nat := chanGroup (s.queueChan q)
/-- The line group of a node of level 1 to 3, by the index of its record. -/
def State.nodeGroup (s : State) (x : Nat) : Nat :=
  let n := x % 2 ^ 20
  match x / 2 ^ 20 with
  | 1 => chanGroup (s.fgChan n)
  | 2 => chanGroup (s.rrd NODE.PARENT x)
  | _ => chanGroup n

/-! ### The pool (R431, R432, R439, R703) -/

/-- A queue beside its record. -/
def State.bq (s : State) (q : Nat) : BQueue := Tbl.get {} s.basin.queues q
/-- A queue beside its record set. -/
def State.setBq (s : State) (q : Nat) (x : BQueue) : State :=
  { s with basin := { s.basin with queues := Tbl.set {} s.basin.queues q x } }

/-- COUNT of the pool. -/
def State.poolCount (s : State) : Nat := s.rd BSN_POOL.COUNT
/-- U_g (R439). -/
def State.used (s : State) (g : Nat) : Nat := s.rd BSN_RES.USED g
/-- sum(RES_g). -/
def State.resSum (s : State) : Nat := (List.range 18).foldl (fun a g => a + s.rd BSN_RES.RES g) 0
/-- SUSED (R439). -/
def State.sused (s : State) : Nat :=
  (List.range 18).foldl (fun a g => a + (s.used g - s.rd BSN_RES.RES g)) 0 + s.rd BSN_FREE.SPARE + s.rd BSN_LOST.LOST
/-- shared_free (R439). -/
def State.sharedFree (s : State) : Nat := s.poolCount - s.resSum - s.sused
/-- Shared demand of `c` cells of a group (R439). -/
def State.sharedDemand (s : State) (g c : Nat) : Nat :=
  (s.used g + c - s.rd BSN_RES.RES g) - (s.used g - s.rd BSN_RES.RES g)

/-- Pool cells still at generation 0 in the free FIFO: those LOST before the pool was enabled never enter it (R454). -/
def State.freshCells (s : State) : Nat :=
  let lo := s.rd BSN_POOL.BASE + s.basin.fresh
  let hi := s.rd BSN_POOL.BASE + s.poolCount
  hi - lo - (s.basin.gone.filter (fun c => decide (lo ≤ c) && decide (c < hi))).length

/-- FREE: cells in the free FIFO (R464). -/
def State.freeCells (s : State) : Nat :=
  if s.is BSN_POOL.READY then s.freshCells + s.basin.freed.length else 0

/-- Cells counted in LOST: they leave the pool (R454). -/
def State.lose (s : State) (cells : List Nat) : State :=
  State.satAdd { s with basin := { s.basin with gone := s.basin.gone ++ cells } } BSN_LOST.LOST cells.length

/-- `n` cells taken from or given back to the charge of a group. -/
def State.charge (s : State) (g n : Nat) : State := s.wr BSN_RES.USED (s.used g + n) g
def State.uncharge (s : State) (g n : Nat) : State := s.wr BSN_RES.USED (s.used g - n) g

/-- The number of pool cells, from number `n` on, that were LOST before the pool was enabled. -/
def State.goneRun (s : State) (n : Nat) : Nat → Nat
  | 0 => 0
  | fuel + 1 => if s.basin.gone.contains (s.rd BSN_POOL.BASE + n) then s.goneRun (n + 1) fuel + 1 else 0

/-- The oldest entry of the free FIFO taken: the cell and its last generation. -/
def State.popFree (s : State) : Option (Nat × Nat) × State :=
  let n := s.basin.fresh + s.goneRun s.basin.fresh s.basin.gone.length
  if !s.is BSN_POOL.READY then (none, s)
  else if n < s.poolCount then
    (some (s.rd BSN_POOL.BASE + n, 0), { s with basin := { s.basin with fresh := n + 1 } })
  else match s.basin.freed with
    | [] => (none, s)
    | c :: t => (some c, { s with basin := { s.basin with freed := t } })

/-- An entry of the free FIFO found uncorrectable (R452): its cell is lost. The entry's index in the record is free. -/
def State.freeEntryBad (s : State) (c : Nat) : State :=
  let s1 : State := { s with basin := { s.basin with badFree := s.basin.badFree - 1 } }
  let (w, s2) := (s1.lose [c]).draw
  s2.report 0x67 (5 + bits w.toNat 19 0 * 2 ^ 3)

/-- A cell allocated: entries found uncorrectable and entries of retired pages are passed over and lost (R452, R703); its
generation advances (R431). `fuel` bounds the entries passed over. -/
def State.allocCell (s : State) : Nat → Option (Nat × Nat) × State
  | 0 => (none, s)
  | fuel + 1 =>
    match s.popFree with
    | (none, s1) => (none, s1)
    | (some (c, g), s1) =>
      if s1.basin.badFree ≠ 0 then (s1.freeEntryBad c).allocCell fuel
      else if s1.pageRetired (c * 256) then (s1.lose [c]).allocCell fuel
      else (some (c, g + 1), s1)

/-- `n` cells allocated, or none of them (R438; DESIGN CHOICE: when the FIFO runs dry the frame is refused). -/
def State.allocCells (s : State) : Nat → Option (List (Nat × Nat)) × State
  | 0 => (some [], s)
  | n + 1 =>
    match s.allocCell 4200 with
    | (none, s1) => (none, s1)
    | (some c, s1) =>
      match s1.allocCells n with
      | (none, s2) => (none, { s2 with basin := { s2.basin with freed := (c.1, c.2 - 1) :: s2.basin.freed } })
      | (some l, s2) => (some (c :: l), s2)

/-- Cells freed: appended to the FIFO, or spent and lost (R431, R432). -/
def State.freeCellsOf (s : State) : List (Nat × Nat) → State
  | [] => s
  | (c, g) :: t =>
    if g = 2 ^ 36 - 1 then ((s.lose [c]).mark BSN_STAT.GEN_SPENT).freeCellsOf t
    else ({ s with basin := { s.basin with freed := s.basin.freed ++ [(c, g)] } }).freeCellsOf t

/-! ### The queue record (R433, R457) -/

/-- HEAD and its generation. -/
def State.setHead (s : State) (q : Nat) (c : Nat × Nat) : State :=
  ((s.rwr QUE.HEAD q c.1).rwr QUE.HEAD_GEN q (c.2 % 2 ^ 32)).rwr QUE.HEAD_GEN_HI q (c.2 / 2 ^ 32)
/-- TAIL and its generation. -/
def State.setTail (s : State) (q : Nat) (c : Nat × Nat) : State :=
  ((s.rwr QUE.TAIL q c.1).rwr QUE.TAIL_GEN q (c.2 % 2 ^ 32)).rwr QUE.TAIL_GEN_HI q (c.2 / 2 ^ 32)
/-- The tail cell and its generation. -/
def State.tailCell (s : State) (q : Nat) : Nat × Nat :=
  (s.rrd QUE.TAIL q, s.rrd QUE.TAIL_GEN_HI q * 2 ^ 32 + s.rrd QUE.TAIL_GEN q)
/-- The cell that the next frame of a queue starts in: the tail after the frames already decided. -/
def State.writeCell (s : State) (q : Nat) : Nat × Nat :=
  match (s.bq q).decided.getLast? with
  | some f => f.next
  | none => s.tailCell q
/-- HEAD follows the chain: the first frame's first cell, or the tail. -/
def State.headOf (s : State) (q : Nat) : Nat × Nat :=
  match (s.bq q).frames with
  | f :: _ => f.cells.headD (s.tailCell q)
  | [] => s.tailCell q
def State.fixHead (s : State) (q : Nat) : State := s.setHead q (s.headOf q)
/-- CELLS and FRAMES changed. -/
def State.addCells (s : State) (q n : Nat) : State := s.rwr QUE.CELLS q (s.rrd QUE.CELLS q + n)
def State.subCells (s : State) (q n : Nat) : State := s.rwr QUE.CELLS q (s.rrd QUE.CELLS q - n)
def State.addFrames (s : State) (q n : Nat) : State := s.rwr QUE.FRAMES q (s.rrd QUE.FRAMES q + n)
def State.subFrames (s : State) (q n : Nat) : State := s.rwr QUE.FRAMES q (s.rrd QUE.FRAMES q - n)

/-! ### Cells in Culvert (R429, R430, R452) -/

/-- The header of a cell (R430). -/
def cellHeader (q : Nat) (f : QFrame) (next : Nat × Nat) (eof sof void : Bool) : Nat :=
  (next.2 / 2 ^ 32) * 2 ^ 116 + q * 2 ^ 96 + f.sc * 2 ^ 80 + f.colour * 2 ^ 78 + f.len * 2 ^ 64 + (next.2 % 2 ^ 32) * 2 ^ 32 +
  b2n eof * 2 ^ 31 + b2n sof * 2 ^ 30 + b2n void * 2 ^ 29 + next.1

/-- The 256 octets of a frame's cell `k`. -/
def cellOctets (q : Nat) (f : QFrame) (k : Nat) (void : Bool) : Octets :=
  let last := decide (k + 1 = f.cells.length)
  let next := if last || void then f.next else f.cells.getD (k + 1) f.next
  leBytes 16 (cellHeader q f next (last || void) (decide (k = 0)) void) ++ slice f.data (k * 240) 240

/-- A cell written through Basin's cell port (R431, R475). -/
def State.putCell (s : State) (c : Nat × Nat) (d : Octets) : Bool × State :=
  s.culWrite { req := 6, gen := some c.2 } c.1 0 d

/-- The cells of a frame written in order: the number of the cell whose write failed, if one did. -/
def State.writeCells (s : State) (q : Nat) (f : QFrame) : List Nat → Option Nat × State
  | [] => (none, s)
  | k :: t =>
    match s.putCell (f.cells.getD k (0, 0)) (cellOctets q f k false) with
    | (true, s1) => s1.writeCells q f t
    | (false, s1) => (some k, s1)

/-! ### Admission (R434 to R441, R453) -/

/-- SecTAG and ICV octets that the SecY of an SC adds (R195). -/
def State.secOverhead (s : State) (sc : Nat) : Nat := 16 + (if s.ris SECY.TX_SCI (s.scSecy sc) then 16 else 8)

/-- What a policer decides (R435): the colour, or none for a discarded frame. -/
def State.police (s : State) (p charged : Nat) : Option Nat × State :=
  let cost := charged * 256
  if s.rrd POL.TP p < cost then
    (none, ((s.count Ctrs.RED_F p).count Ctrs.RED_O p charged))
  else
    let s1 := s.rwr POL.TP p (s.rrd POL.TP p - cost)
    if s.rrd POL.TC p < cost then
      let s2 := (s1.count Ctrs.YELLOW_F p).count Ctrs.YELLOW_O p charged
      if s.ris POL.YDROP p then (none, s2.count Ctrs.YDROP p) else (some 1, s2)
    else (some 0, ((s1.rwr POL.TC p (s.rrd POL.TC p - cost)).count Ctrs.GREEN_F p).count Ctrs.GREEN_O p charged)

/-- The policer named by an action: none passes as green (R437). -/
def State.policeWith (s : State) (pol : Option Nat) (q charged : Nat) : Option Nat × State :=
  match pol with
  | none => (some 0, s)
  | some p => if s.ris POL.EN p then s.police p charged else (some 0, s.count Ctrs.POL_OFF q)

/-- Why admission refuses a frame at steps 1 to 6 (R438, R608, R626): the counter and its instance; none admits. -/
def State.refusal (s : State) (q sc colour charged c : Nat) : Option (CtrId × Nat) :=
  let m := s.rd GBL_MODE.MODE
  if !(decide (m = 5) || decide (m = 6)) || !s.ris QUE.EN q || s.ris QUE.DRAIN q then some (Ctrs.REF_QDIS, q)
  else if !s.ris SC.EN sc || s.rxSc sc || s.ris SC.DRAIN sc then some (Ctrs.REF_SC, q)
  else if s.rrd SECY.MAX_FRAME (s.scSecy sc) < charged then some (Ctrs.OUT_TOO_LONG, s.scSecy sc)
  else if s.rrd QUE.CAP q < s.rrd QUE.CELLS q + c then some (Ctrs.REF_CAP, q)
  else if colour = 1 ∧ s.rd BSN_SHARED.YLIMIT < s.sused + c then some (Ctrs.REF_YELLOW, q)
  else if s.sharedFree < s.sharedDemand (s.queueGroup q) c then some (Ctrs.REF_POOL, q)
  else none

/-- A frame decided by admission: refused and counted, or its cells charged and reserved (R438, R439). -/
def State.admitFrame (s : State) (q sc colour : Nat) (frame : Octets) : State :=
  let c := (frame.length + 239) / 240
  let charged := frame.length + s.secOverhead sc
  match s.refusal q sc colour charged c with
  | some (k, i) => s.count k i
  | none =>
    match s.allocCells c with
    | (none, s1) => s1.count Ctrs.REF_POOL q
    | (some l, s1) =>
      let f : QFrame := { cells := s.writeCell q :: l.dropLast, next := l.getLastD (0, 0), len := frame.length,
                          charged := charged, sc := sc, colour := colour, data := frame }
      let x := s1.bq q
      (((s1.setBq q { x with decided := x.decided ++ [f] }).charge (s.queueGroup q) c).addCells q c)

/-- The record of kind 0x65 (R695). -/
def State.cellFailed (s : State) (q cell : Nat) (first : Bool) : State :=
  s.report 0x65 (q + cell * 2 ^ 20 + b2n first * 2 ^ 48)

/-- A frame accepted (R441): the queue's TAIL and FRAMES advance past it. -/
def State.acceptFrame (s : State) (q : Nat) (f : QFrame) : State :=
  let x := s.bq q
  ((((s.setBq q { x with frames := x.frames ++ [{ f with data := [] }] }).setTail q f.next).fixHead q).addFrames q 1
    |>.count Ctrs.ACC_FRAMES q).count Ctrs.ACC_OCTETS q f.charged

/-- A queue's chain broken at the first cell of a refused frame (R453, R454): the queue goes on at the reserved tail. -/
def State.breakAt (s : State) (q : Nat) (f : QFrame) : State :=
  let x := s.bq q
  let b : QFrame := { f with cells := f.cells.take 1, len := 0, charged := 0, broken := true, data := [] }
  let s1 := if x.frames = [] then s else s.setBq q { x with frames := x.frames ++ [b] }
  (((s1.setTail q f.next).fixHead q).mark BSN_STAT.CHAIN_BREAK).count Ctrs.CHAIN_BREAKS

/-- A frame whose cell `k` could not be written (R453): refused; the charge falls back. With its first cell written it
stays in the chain marked VOID; otherwise the chain breaks at its first cell, and the queue goes on at the reserved
tail (R454): frames accepted from then on cannot be reached once those before the break have gone. -/
def State.refuseFrame (s : State) (q : Nat) (f : QFrame) (k : Nat) : State :=
  let n := f.cells.length
  let bad := f.cells.getD k (0, 0)
  let s1 := ((((s.uncharge (s.queueGroup q) n).subCells q n).count Ctrs.REF_MEMERR q).lose [bad.1]).cellFailed q bad.1 (decide (k = 0))
  let others := (f.cells.zipIdx.filter (fun e => decide (e.2 ≠ 0) && decide (e.2 ≠ k))).map (·.1)
  let s2 := s1.freeCellsOf others
  let x := s2.bq q
  if k = 0 then s2.breakAt q f
  else
    match s2.putCell (f.cells.headD (0, 0)) (cellOctets q f 0 true) with
    | (true, s3) =>
      let v : QFrame := { f with cells := f.cells.take 1, void := true, data := [] }
      (((s3.setBq q { x with frames := x.frames ++ [v] }).setTail q f.next).fixHead q).count Ctrs.VOIDED
    | (false, s3) =>
      let first := (f.cells.headD (0, 0)).1
      ((s3.lose [first]).cellFailed q first true).breakAt q f

/-- FRAME_ENQUEUE (R441, R453): the oldest frame decided for a queue has its cells written; it is accepted, or refused
with its first cell marked VOID. -/
def execFrameEnqueue (q : BitVec 20) (s : State) : Host.Outcome State Fault Refusal :=
  let q := q.toNat
  let x := s.bq q
  match x.decided with
  | [] => .next s
  | f :: t =>
    match (s.setBq q { x with decided := t }).writeCells q f (List.range f.cells.length) with
    | (none, s1) => .next (s1.acceptFrame q f)
    | (some k, s1) => .next (s1.refuseFrame q f k)

/-! ### Choosing the next frame (R442 to R445) -/

/-- A signed 40-bit credit is at least 0 (R442, R447). -/
def creditOk (c : Nat) : Bool := decide (c < 2 ^ 39)

/-- A frame that has been accepted: neither VOID nor the mark of a break. -/
def QFrame.real (f : QFrame) : Bool := !f.void && !f.broken

/-- The first entry of a queue that is not marked VOID. -/
def State.headFrame (s : State) (q : Nat) : Option QFrame := (s.bq q).frames.find? (fun f => !f.void)

/-- A queue is eligible (R442). -/
def State.queueEligible (s : State) (q : Nat) : Bool :=
  (s.headFrame q).isSome && (!s.ris QUE.SHP_EN q || creditOk (s.rrd QUE.CREDIT q))

/-- A node's own part of eligibility (R442). -/
def State.nodeOpen (s : State) (x : Nat) : Bool :=
  s.ris NODE.EN x && (!s.ris NODE.SHP_EN x || creditOk (s.rrd NODE.CREDIT x))

/-- A child that a node may serve: its number, PRIO, quantum, the queue it would serve, the length of that frame, and
the scheduler's state after that choice. -/
structure Cand where
  child : Nat
  prio : Nat
  quantum : Nat
  queue : Nat
  len : Nat
  sched : BasinState
  deriving DecidableEq, Repr

/-- Deficit weighted round robin over the children of one PRIO, from the head of the rotation (R443): each child in
turn gains its quantum until one covers its frame. -/
def dwrr (base : Nat) : Nat → List Cand → Tbl Nat → Option (Cand × Tbl Nat)
  | 0, _, _ => none
  | _, [], _ => none
  | fuel + 1, c :: t, d =>
    let x := Tbl.get 0 d (base + c.child) + c.quantum
    if c.len ≤ x then some (c, Tbl.set 0 d (base + c.child) (x - c.len))
    else dwrr base fuel (t ++ [c]) (Tbl.set 0 d (base + c.child) x)

/-- The candidates from the child that is being served on. -/
def rotateTo (cur : Nat) (l : List Cand) : List Cand :=
  l.filter (fun c => decide (cur ≤ c.child)) ++ l.filter (fun c => decide (c.child < cur))

/-- The child a node serves next: highest PRIO, then DWRR; a child being served goes on while its deficit covers its
next frame (R443; DESIGN CHOICE: within a PRIO children are served in ascending order, from the one served last). -/
def pickChild (b : BasinState) (level n : Nat) (cands : List Cand) : Option (Nat × BasinState) :=
  match (cands.map Cand.prio).min? with
  | none => none
  | some p =>
    let mine := cands.filter (fun c => decide (c.prio = p))
    let base := (level - 1) * 2 ^ 20
    let key := nodeIx level n * 4 + p
    let cur := Tbl.get 0 b.current key
    let stay := mine.find? (fun c => decide (c.child + 1 = cur) && decide (c.len ≤ Tbl.get 0 b.deficit (base + c.child)))
    let pick := match stay with
      | some c => some (c, Tbl.set 0 b.deficit (base + c.child) (Tbl.get 0 b.deficit (base + c.child) - c.len))
      | none => dwrr base (41 * mine.length + 1) (rotateTo cur mine) b.deficit
    pick.map (fun r =>
      let b1 := r.1.sched
      let d := Tbl.get 0 r.2 (base + r.1.child)
      let merged := (r.2.filter (fun e => decide (e.1 / 2 ^ 20 + 1 = level))).foldl (fun t e => Tbl.put t e.1 e.2) b1.deficit
      let b2 : BasinState := { b1 with
        deficit := Tbl.set 0 merged (base + r.1.child) d
        current := Tbl.set 0 b1.current key (r.1.child + 1) }
      (r.1.queue, b2))

/-- The queue that a node of level 1 to 3 would serve, and the scheduler's state after it (R442, R443). -/
def State.pickUnder (s : State) : Nat → Nat → Option (Nat × BasinState)
  | 0, q => if s.queueEligible q then some (q, s.basin) else none
  | level + 1, n =>
    if !s.nodeOpen (nodeIx (level + 1) n) then none
    else
      let cands := (s.childrenOf (level + 1) n).filterMap (fun c =>
        (s.pickUnder level c).bind (fun r => (s.headFrame r.1).map (fun f =>
          { child := c
            prio := if level = 0 then s.rrd QUE.PRIO c else s.rrd NODE.PRIO (nodeIx level c)
            quantum := 256 * (if level = 0 then s.rrd QUE.WEIGHT c else s.rrd NODE.WEIGHT (nodeIx level c))
            queue := r.1, len := f.charged, sched := r.2 })))
      pickChild s.basin (level + 1) n cands

/-- Mapper credit of a packet channel (R565). -/
def State.mapper (s : State) (c : Nat) : Int := Tbl.get 0 s.basin.mapper c
/-- Mapper credit of a packet channel set. -/
def State.setMapper (s : State) (c : Nat) (v : Int) : State :=
  { s with basin := { s.basin with mapper := Tbl.set 0 s.basin.mapper c v } }
/-- Mapper credit charged for a secured frame (R565). -/
def State.chargeMapper (s : State) (c charged : Nat) : State := s.setMapper c (s.mapper c - 256 * ((charged : Int) + 20))

/-- A packet line channel is ready (R442, R565). -/
def State.chanReady (s : State) (c : Nat) : Bool := s.packetChan c && decide (0 ≤ s.mapper c)

/-- The line channels of a group that can be served, with the queue each would serve (R444); `wait` names channels whose
re-sends wait. -/
def State.servable (s : State) (g : Nat) (wait : List Nat) : List (Nat × Nat × BasinState) :=
  ((s.recObjects .node 0).filter (fun x => decide (x / 2 ^ 20 = 3) && decide (chanGroup (x % 2 ^ 20) = g))).filterMap (fun x =>
    let c := x % 2 ^ 20
    if s.chanReady c && !wait.contains c then (s.pickUnder 3 c).map (fun r => (c, r.1, r.2)) else none)

/-- The channel and queue that a group serves next, in round robin by channel index (R444), with the scheduler's state
after it. -/
def State.chooseFrame (s : State) (g : Nat) (wait : List Nat) : Option (Nat × Nat × BasinState) :=
  let l := s.servable g wait
  let from' := Tbl.get 0 s.basin.turn g
  let r := match l.find? (fun e => decide (from' ≤ e.1)) with
    | some e => some e
    | none => l.head?
  r.map (fun e => (e.1, e.2.1, { e.2.2 with turn := Tbl.set 0 e.2.2.turn g (e.1 + 1) }))

/-- A signed credit lowered by `n` octets, kept in 40 bits (R448). -/
def creditLess (c n : Nat) : Nat := (c + 2 ^ 40 - 256 * n % 2 ^ 40) % 2 ^ 40

/-- A frame of `charged` octets is larger than the BURST of a shaped object on its queue's path: a host error (R100). -/
def State.burstSmall (s : State) (q charged : Nat) : Bool :=
  let fg := nodeIx 1 (s.rrd QUE.FG q)
  let te := nodeIx 2 (s.rrd NODE.PARENT fg)
  let ch := nodeIx 3 (s.rrd NODE.PARENT te)
  (s.ris QUE.SHP_EN q && decide (s.rrd QUE.BURST q < charged)) ||
  [fg, te, ch].any (fun x => s.ris NODE.SHP_EN x && decide (s.rrd NODE.BURST x < charged))

/-- The charged length taken from every shaped object on a queue's path (R445). -/
def State.chargePath (s : State) (q charged : Nat) : State :=
  let fg := nodeIx 1 (s.rrd QUE.FG q)
  let te := nodeIx 2 (s.rrd NODE.PARENT fg)
  let ch := nodeIx 3 (s.rrd NODE.PARENT te)
  let s1 := if s.ris QUE.SHP_EN q then s.rwr QUE.CREDIT q (creditLess (s.rrd QUE.CREDIT q) charged) else s
  [fg, te, ch].foldl (fun a x => if a.ris NODE.SHP_EN x then a.rwr NODE.CREDIT x (creditLess (a.rrd NODE.CREDIT x) charged)
    else a) s1

/-- VOID frames at the head of a queue are passed over and their cells freed (R445). -/
def State.skipVoid (s : State) (q : Nat) : State :=
  let x := s.bq q
  let v := x.frames.takeWhile (fun f => f.void)
  ((s.setBq q { x with frames := x.frames.dropWhile (fun f => f.void) }).freeCellsOf (v.flatMap QFrame.cells)).fixHead q

/-! ### Breaches (R94, R454) -/

/-- The accepted frames of a queue are given up: counted, their cells uncharged and lost, the queue left empty with
HEAD at TAIL (R452, R454); answers frames and octets. -/
def State.loseQueue (s : State) (q : Nat) : Nat × Nat × State :=
  let x := s.bq q
  let real := x.frames.filter QFrame.real
  let cells := (real.map (fun f => f.cells.length)).sum
  let s1 := (s.uncharge (s.queueGroup q) cells).lose (((x.frames.filter (fun f => !f.broken)).flatMap QFrame.cells).map (·.1))
  let s2 := ((s1.setBq q { x with frames := [] }).rwr QUE.FRAMES q 0).subCells q cells
  (real.length, (real.map QFrame.len).sum, s2.fixHead q)

/-- A chain found broken at a cell of a queue (R454): the record of kind 0x66, the flag, and the count. -/
def State.chainBroken (s : State) (q cell gen : Nat) (mismatch : Bool) : State :=
  ((s.report 0x66 (q + cell * 2 ^ 20 + gen * 2 ^ 48 + b2n mismatch * 2 ^ 84)).mark BSN_STAT.CHAIN_BREAK).count Ctrs.CHAIN_BREAKS

/-- HEAD stands at a cell whose write failed (R453, R454): the frames accepted behind it cannot be reached. -/
def State.meetBreak (s : State) (q : Nat) (f : QFrame) : State :=
  let c := f.cells.headD (0, 0)
  let (n, oct, s1) := (s.holdReports.chainBroken q c.1 c.2 false).loseQueue q
  (if n = 0 then s1 else s1.breach21 (s.queueGroup q) q (s.encSa f.sc) n oct).takeReports s.inCycle

/-- The head frame removed from its queue (R445): HEAD moves on, FRAMES and CELLS fall. At a break of the chain there is
none. -/
def State.takeHead (s : State) (q : Nat) : Option QFrame × State :=
  let s1 := s.skipVoid q
  let x := s1.bq q
  match x.frames with
  | [] => (none, s1)
  | f :: t =>
    if f.broken then (none, s1.meetBreak q f)
    else
    let s2 := ((s1.setBq q { x with frames := t }).subFrames q 1).subCells q f.cells.length
    (some f, (s2.skipVoid q).count Ctrs.DEQ_FRAMES q)

/-! ### Refills (R436, R448, R565) -/

/-- A credit after one refill. -/
def refilled (credit inc burst : Nat) : Nat :=
  let c := signed 40 credit + inc
  unsigned 40 (if (burst : Int) * 256 < c then (burst : Int) * 256 else c)

/-- The shapers of a group refilled (R448). -/
def State.refillShapers (s : State) (g : Nat) : State :=
  let s1 := (s.recObjects .queue 0).foldl (fun a q =>
    if a.ris QUE.SHP_EN q ∧ a.queueGroup q = g then
      a.rwr QUE.CREDIT q (refilled (a.rrd QUE.CREDIT q) (a.rrd QUE.INC q) (a.rrd QUE.BURST q)) else a) s
  (s1.recObjects .node 0).foldl (fun a x =>
    if a.ris NODE.SHP_EN x ∧ a.nodeGroup x = g then
      a.rwr NODE.CREDIT x (refilled (a.rrd NODE.CREDIT x) (a.rrd NODE.INC x) (a.rrd NODE.BURST x)) else a) s1

/-- The policers of a group refilled (R436). -/
def State.refillPolicers (s : State) (g : Nat) : State :=
  (s.recObjects .policer 0).foldl (fun a p =>
    if a.ris POL.EN p ∧ a.rrd POL.GRP p = g then
      (a.rwr POL.TC p (min (a.rrd POL.TC p + a.rrd POL.CIR_INC p) (a.rrd POL.CBS p * 256))).rwr POL.TP p
        (min (a.rrd POL.TP p + a.rrd POL.PIR_INC p) (a.rrd POL.PBS p * 256))
    else a) s

/-- The mapper credits of a group's packet channels refilled (R565). -/
def State.refillMappers (s : State) (g : Nat) : State :=
  (List.range 160).foldl (fun a t =>
    let c := g * 160 + t
    if a.packetChan c then a.setMapper c (min (a.mapper c + (a.slotCount c * 188270 : Nat)) (20520 * 256)) else a) s

/-! ### Commands (R450, R451, R455, R456) -/

/-- An object of a Basin command. -/
inductive BsnObj where
  | queue (q : Nat)
  | node (level n : Nat)
  | policer (p : Nat)
  /-- no such object -/
  | bad
  deriving DecidableEq, Repr

/-- The object that UNIT and BSN_OBJ name (R461). -/
def bsnObject (unit obj : Nat) : BsnObj :=
  let i := obj % 2 ^ 20
  let level := bits obj 31 29
  if unit = 0 then (if obj < 2 ^ 20 then .queue i else .bad)
  else if bits obj 28 20 ≠ 0 then .bad
  else match level with
    | 1 => if i < 65536 then .node 1 i else .bad
    | 2 => if i < 4096 then .node 2 i else .bad
    | 3 => if i < 2880 then .node 3 i else .bad
    | 4 => if i < 262144 then .policer i else .bad
    | _ => .bad

/-- What a Basin operation answers. -/
structure BsnRes where
  status : Nat
  image : Option (List Word) := none
  result : Nat := 0
  deriving DecidableEq, Repr

/-- Kind and index of an object's record. -/
def BsnObj.place : BsnObj → Option (RecKind × Nat)
  | .queue q => some (.queue, q)
  | .node l n => some (.node, nodeIx l n)
  | .policer p => some (.policer, p)
  | .bad => none

/-- A Basin record whose word proves uncorrectable (R452): object code, index and word. -/
def State.basinLost (s : State) (o : BsnObj) (w : Nat) : State :=
  match o with
  | .queue q =>
    let s1 := s.mark BSN_STAT.STATE_ERR
    let sa := match s.headFrame q with | some f => s.encSa f.sc | none => 0
    let g := s.queueGroup q
    let (n, oct, s2) := s1.loseQueue q
    let dec := (s2.bq q).decided
    let back := (dec.map (fun f => f.cells.length)).sum
    let held := (s2.headOf q).1 :: (dec.flatMap (fun f => f.cells.drop 1 ++ [f.next])).map (·.1)
    let s3 := ((s2.uncharge g back).subCells q back).setBq q {}
    let s4 := if s.ris QUE.EN q then
        ((s3.lose held).wr BSN_FREE.SPARE (s3.rd BSN_FREE.SPARE - 1)).breach21 g q sa (if w = 5 then 0xFFFFFFFF else n)
          (if w = 5 then 0xFFFFFFFF else oct)
      else s3
    ((s4.rwr QUE.EN q 0).rwr QUE.DRAIN q 0).report 0x67 (q * 2 ^ 3 + w * 2 ^ 25)
  | .node l n => ((s.mark BSN_STAT.STATE_ERR).rwr NODE.EN (nodeIx l n) 0).report 0x67 (l + n * 2 ^ 3 + w * 2 ^ 25)
  | .policer p => ((s.mark BSN_STAT.STATE_ERR).rwr POL.EN p 0).report 0x67 (4 + p * 2 ^ 3 + w * 2 ^ 25)
  | .bad => s

/-- READ (R455); a word that proves uncorrectable reads as a free value. -/
def State.bsnRead (s : State) (o : BsnObj) (ue : Option Nat) : BsnRes × State :=
  match o.place with
  | none => ({ status := 1 }, s)
  | some (k, i) =>
    match ue with
    | some w =>
      if w < 6 then
        let s1 := s.basinLost o w
        let (x, s2) := s1.draw
        ({ status := 0, image := some (setAt (s2.recWords k i) w x) }, s2)
      else ({ status := 0, image := some (s.recWords k i) }, s)
    | none => ({ status := 0, image := some (s.recWords k i) }, s)

/-- Refusals of a CONFIG of a queue (R450, R456), in the order 1, 3, 2, 5, 7. -/
def State.queueBad (s : State) (q : Nat) (im : List Word) : Nat :=
  let en := s.ris QUE.EN q
  let sets := decide (QUE.EN.of im = 1) && !en
  if !RecKind.queue.imageOk im then 1
  else if s.ris QUE.DRAIN q then 3
  else if QUE.WEIGHT.of im = 0 ∨ (en ∧ QUE.EN.of im = 0) ∨ (en ∧ QUE.FG.of im ≠ s.rrd QUE.FG q) then 2
  else if sets ∧ !s.ris NODE.EN (nodeIx 1 (QUE.FG.of im)) then 5
  else if sets ∧ (!s.is BSN_POOL.READY ∨ s.sharedFree = 0 ∨ (s.allocCell 4200).1.isNone) then 7
  else 0

/-- A queue that has just been enabled: its tail cell is allocated and counted in SPARE; CREDIT is 0 (R433, R449, R456). -/
def State.queueStart (s : State) (q : Nat) : State :=
  match s.allocCell 4200 with
  | (none, s1) => s1
  | (some c, s1) =>
    ((((s1.setHead q c).setTail q c).rwr QUE.CREDIT q 0).wr BSN_FREE.SPARE (s1.rd BSN_FREE.SPARE + 1)).setBq q {}

/-- CONFIG of a queue. -/
def State.queueConfig (s : State) (q : Nat) (im : List Word) : BsnRes × State :=
  let st := s.queueBad q im
  if st ≠ 0 then ({ status := st }, s)
  else
    let starts := decide (QUE.EN.of im = 1) && !s.ris QUE.EN q
    let shapes := decide (QUE.SHP_EN.of im = 1) && !s.ris QUE.SHP_EN q
    let s1 := s.recStore .queue q im (fun _ => true)
    let s2 := if shapes then s1.rwr QUE.CREDIT q 0 else s1
    ({ status := 0 }, if starts then s2.queueStart q else s2)

/-- Refusals of a CONFIG of a node. -/
def State.nodeBad (s : State) (l n : Nat) (im : List Word) : Nat :=
  let x := nodeIx l n
  let en := s.ris NODE.EN x
  let sets := decide (NODE.EN.of im = 1) && !en
  let p := NODE.PARENT.of im
  if !RecKind.node.imageOk im then 1
  else if NODE.WEIGHT.of im = 0 ∨ (en ∧ NODE.EN.of im = 0) ∨ (l < 3 ∧ en ∧ p ≠ s.rrd NODE.PARENT x) ∨
      (l = 3 ∧ sets ∧ !s.packetChan n) then 2
  else if l < 3 ∧ sets ∧ !(s.ris NODE.EN (nodeIx (l + 1) p) && (decide (l = 1) || decide (p < 2880))) then 5
  else 0

/-- CONFIG of a node. -/
def State.nodeConfig (s : State) (l n : Nat) (im : List Word) : BsnRes × State :=
  let x := nodeIx l n
  let st := s.nodeBad l n im
  if st ≠ 0 then ({ status := st }, s)
  else
    let zero := (decide (NODE.EN.of im = 1) && !s.ris NODE.EN x) || (decide (NODE.SHP_EN.of im = 1) && !s.ris NODE.SHP_EN x)
    let s1 := s.recStore .node x im (fun _ => true)
    ({ status := 0 }, if zero then s1.rwr NODE.CREDIT x 0 else s1)

/-- CONFIG of a policer (R456). -/
def State.policerConfig (s : State) (p : Nat) (im : List Word) : BsnRes × State :=
  if !RecKind.policer.imageOk im then ({ status := 1 }, s)
  else if POL.PIR_INC.of im < POL.CIR_INC.of im ∨ POL.PBS.of im < POL.CBS.of im ∨ 18 ≤ POL.GRP.of im ∨
      (s.ris POL.EN p ∧ POL.EN.of im = 0) then ({ status := 2 }, s)
  else ({ status := 0 }, s.recStore .policer p im (fun _ => true))

/-- CONFIG (R455). -/
def State.bsnConfig (s : State) (o : BsnObj) (im : List Word) : BsnRes × State :=
  match o with
  | .queue q => s.queueConfig q im
  | .node l n => s.nodeConfig l n im
  | .policer p => s.policerConfig p im
  | .bad => ({ status := 1 }, s)

/-- DISABLE (R450, R451). -/
def State.bsnDisable (s : State) (o : BsnObj) : BsnRes × State :=
  match o with
  | .queue q =>
    if !s.ris QUE.EN q then ({ status := 6 }, s)
    else if s.ris QUE.DRAIN q then ({ status := 3 }, s)
    else ({ status := 0, result := s.rrd QUE.FRAMES q }, s.rwr QUE.DRAIN q 1)
  | .node l n =>
    if !s.ris NODE.EN (nodeIx l n) then ({ status := 6 }, s)
    else if s.childrenOf l n ≠ [] then ({ status := 4 }, s)
    else ({ status := 0 }, (s.rwr NODE.EN (nodeIx l n) 0).rwr NODE.CREDIT (nodeIx l n) 0)
  | .policer p => if s.ris POL.EN p then ({ status := 0 }, s.rwr POL.EN p 0) else ({ status := 6 }, s)
  | .bad => ({ status := 1 }, s)

/-- A Basin operation on an object (R455): 0 READ, 1 CONFIG, 2 DISABLE. -/
def State.bsnAct (s : State) (op : Nat) (o : BsnObj) (im : List Word) (ue : Option Nat) : BsnRes × State :=
  match op with
  | 0 => s.bsnRead o ue
  | 1 => s.bsnConfig o im
  | 2 => s.bsnDisable o
  | _ => ({ status := 1 }, s)

/-- The record image in BSN_DATA. -/
def State.bsnImage (s : State) : List Word := (List.range 6).map (fun w => s.reg .BSN_DATA w)

/-- An object of Basin, as operations on it keep their order (R24). -/
def BsnObj.objects : BsnObj → List (Nat × Nat)
  | .queue q => [(30, q)]
  | .node l n => [(30 + l, n)]
  | .policer p => [(34, p)]
  | .bad => []

/-- A BSN_CMD operation leaves its results in the registers. -/
def State.bsnFinish (s : State) (h : HeldCmd) : State :=
  let s1 := match h.image with
    | some ws => (List.range 6).foldl (fun (a : State) w => a.setReg .BSN_DATA (ws.getD w 0) w) s
    | none => s
  (s1.wr BSN_CMD.STATUS h.status).unmark BSN_CMD.BUSY

/-- A write to BSN_CMD with UNIT and OP: dropped while BUSY is 1 (R455). The operation acts in the order of arrival and
completes after the operations of threads on the same object that arrived before it (R24). -/
def State.bsnCmd (s : State) (unit op : Nat) (ue : Option Nat) : State :=
  if s.is BSN_CMD.BUSY then s.mark BSN_STAT.CMD_DROP
  else
    let s1 := ((s.wr BSN_CMD.UNIT unit).wr BSN_CMD.OP op).mark BSN_CMD.BUSY
    let obj := bsnObject unit (s1.reg .BSN_OBJ).toNat
    let (r, s2) := s1.bsnAct op obj s1.bsnImage ue
    let h : HeldCmd := { objects := obj.objects, waits := s2.opsOn obj.objects, status := r.status, image := r.image }
    if h.waits = [] then s2.bsnFinish h else { s2 with basin := { s2.basin with held := some h } }

/-- A QOP or SHP descriptor is well formed (R386, R388, R392). -/
def bsnForm (d : Octets) : Bool :=
  decide (descOp d ≤ 2) && decide (descFlags d = 0) && descCommon d (decide (descOp d = 0))

/-- The words of the record image of a descriptor (R392). -/
def descImage (d : Octets) : List Word := (List.range 6).map (fun w => BitVec.ofNat 64 (descField d (16 + 8 * w) 8))

/-- QOP (UNIT 0) or SHP (UNIT 1) carried out (R392). -/
def bsnEngine (unit : Nat) (ue : Option Nat) (o : EngineOp) (s : State) : EngineOp × State :=
  let d := o.desc
  if !bsnForm d then (o.fail 1, s)
  else
    let (r, s1) := s.bsnAct (descOp d) (bsnObject unit (descObject d)) (descImage d) ue
    ({ o with acted := true, status := r.status, result := r.result,
              out := match r.image with | some ws => (ws.map (fun w => leBytes 8 w.toNat)).flatten | none => []
              objects := (bsnObject unit (descObject d)).objects }, s1)

/-- The kinds of object that a row commands. -/
def bsnWants (kind : Nat) (unit obj : Nat) : Bool :=
  match bsnObject unit obj with
  | .queue _ => decide (kind = 0)
  | .node _ _ => decide (kind = 1)
  | .policer _ => decide (kind = 2)
  | .bad => false

/-- A Basin operation of a row by either path; the object must be of the row's kind. -/
def State.bsnOp (s : State) (p : Path) (kind op : Nat) (ue : Option Nat) : Host.Outcome State Fault Refusal :=
  let unit := if kind = 0 then 0 else 1
  match p with
  | .register => if bsnWants kind unit (s.reg .BSN_OBJ).toNat then .next (s.bsnCmd unit op ue) else .next s
  | .thread t tag rs =>
    s.engineCall (if unit = 0 then 0x52 else 0x53) t tag.toNat rs
      (fun d => decide (descOp d = op) && bsnWants kind unit (descObject d)) (bsnEngine unit ue)

/-- QUEUE_READ (R455). -/
def execQueueRead (p : Path) (ue : Option Nat) (s : State) : Host.Outcome State Fault Refusal := s.bsnOp p 0 0 ue
/-- QUEUE_CONFIG (R456). -/
def execQueueConfig (p : Path) (s : State) : Host.Outcome State Fault Refusal := s.bsnOp p 0 1 none
/-- QUEUE_DISABLE (R450). -/
def execQueueDisable (p : Path) (s : State) : Host.Outcome State Fault Refusal := s.bsnOp p 0 2 none
/-- NODE_READ (R455). -/
def execNodeRead (p : Path) (ue : Option Nat) (s : State) : Host.Outcome State Fault Refusal := s.bsnOp p 1 0 ue
/-- NODE_CONFIG (R456). -/
def execNodeConfig (p : Path) (s : State) : Host.Outcome State Fault Refusal := s.bsnOp p 1 1 none
/-- NODE_DISABLE (R451). -/
def execNodeDisable (p : Path) (s : State) : Host.Outcome State Fault Refusal := s.bsnOp p 1 2 none
/-- POLICER_READ (R455). -/
def execPolicerRead (p : Path) (ue : Option Nat) (s : State) : Host.Outcome State Fault Refusal := s.bsnOp p 2 0 ue
/-- POLICER_CONFIG (R456). -/
def execPolicerConfig (p : Path) (s : State) : Host.Outcome State Fault Refusal := s.bsnOp p 2 1 none
/-- POLICER_DISABLE (R451). -/
def execPolicerDisable (p : Path) (s : State) : Host.Outcome State Fault Refusal := s.bsnOp p 2 2 none

/-- BSN_CMD_INVALID (R455, R461): OP 3, or an object that does not exist; by a thread, an OP above 2. -/
def execBsnCmdInvalid (p : Path) (shp : Bool) (op : Fin 4) (s : State) : Host.Outcome State Fault Refusal :=
  let unit := b2n shp
  match p with
  | .register =>
    if op.val = 3 ∨ bsnObject unit (s.reg .BSN_OBJ).toNat = .bad then .next (s.bsnCmd unit op.val none) else .next s
  | .thread t tag rs =>
    s.engineCall (if shp then 0x53 else 0x52) t tag.toNat rs
      (fun d => decide (2 < descOp d) || decide (bsnObject unit (descObject d) = .bad)) (bsnEngine unit none)

/-! ### Pool and reservations (R432, R463, R464) -/

/-- A queue is enabled or draining. -/
def State.anyQueue (s : State) : Bool := (s.recObjects .queue 0).any (fun q => s.ris QUE.EN q || s.ris QUE.DRAIN q)

/-- Octets `lo` to `lo + n − 1` lie in one enabled range of a TYPE. -/
def State.inRangeOf (s : State) (ty lo n : Nat) : Bool :=
  match s.rangeAt lo with
  | some r => decide (s.rangeType r = ty) && decide (lo + n ≤ s.rangeBase r + s.rangeSize r)
  | none => false

/-- The range that holds the pool's first cell, with the number of its enables. -/
def State.poolHeld (s : State) : List (Nat × Nat) :=
  match s.rangeAt (s.rd BSN_POOL.BASE * 256) with
  | some r => [(r, (s.range r).fill)]
  | none => []

/-- A write to BSN_POOL is refused (R463). -/
def State.bsnPoolBad (s : State) (v : Word) : Bool :=
  let base := BSN_POOL.BASE.of v
  let cnt := BSN_POOL.COUNT.of v
  let en := decide (BSN_POOL.EN.of v = 1)
  s.anyQueue || decide (2 ^ 28 < base + cnt) || (en && decide (cnt < s.resSum)) ||
    (en && decide (2 ^ 36 < s.rd BSN_FIFO.BASE_MB * 2 ^ 20 + 8 * cnt))

/-- A write to BSN_POOL (R463). -/
def State.bsnPoolWrite (s : State) (v : Word) : State :=
  if s.bsnPoolBad v then s.mark BSN_STAT.REJECT
  else
    let s1 := (s.plainWrite .BSN_POOL v).unmark BSN_POOL.READY
    { s1 with basin := { s1.basin with fresh := 0, freed := [], badFree := 0
                                       poolRanges := if BSN_POOL.EN.of v = 1 then s1.poolHeld else s1.basin.poolRanges } }

/-- Enabling the pool is a host error (R432): cells outside a Sealed range, the FIFO outside a Sealed-fresh range, or the
same range still under the enable that it had when the pool was enabled before. -/
def State.poolMisplaced (s : State) (v : Word) : Bool :=
  let base := BSN_POOL.BASE.of v * 256
  let n := BSN_POOL.COUNT.of v
  let fifo := s.rd BSN_FIFO.BASE_MB * 2 ^ 20
  decide (BSN_POOL.EN.of v = 1) && decide (n ≠ 0) && !s.bsnPoolBad v &&
  (!s.inRangeOf 2 base (256 * n) || !s.inRangeOf 3 fifo (8 * n) ||
    (s.bsnPoolWrite v).basin.poolRanges.any s.basin.poolRanges.contains)

/-- BSN_POOL_WRITE (R432, R463). -/
def execBsnPoolWrite (v : Word) (s : State) : Host.Outcome State Fault Refusal :=
  guardRsvd .BSN_POOL v (if s.poolMisplaced v then .fault .hostError else .next (s.bsnPoolWrite v))

/-- POOL_READY (R432): every pool cell stands in the FIFO at generation 0, but for the LOST ones, which return only at a
reset of the datapath domain (R454). -/
def execPoolReady (s : State) : Host.Outcome State Fault Refusal :=
  .next (if s.is BSN_POOL.EN ∧ !s.is BSN_POOL.READY then
    State.mark { s with basin := { s.basin with fresh := 0, freed := [], badFree := 0 } } BSN_POOL.READY else s)

/-- A write to BSN_FIFO (R463). -/
def State.bsnFifoWrite (s : State) (v : Word) : State :=
  if s.anyQueue then s.mark BSN_STAT.REJECT else s.plainWrite .BSN_FIFO v

/-- A write to BSN_RESg (R464). -/
def State.bsnResWrite (s : State) (g : Nat) (v : Word) : State :=
  let s1 := s.plainWrite .BSN_RES v g
  if s.poolCount < s1.resSum + s1.sused then s.mark BSN_STAT.REJECT else s1

/-- BSN_RES_WRITE (R464). -/
def execBsnResWrite (g : Group) (v : Word) (s : State) : Host.Outcome State Fault Refusal :=
  guardRsvd .BSN_RES v (.next (s.bsnResWrite g v))

/-- A write to BSN_CMD of a word. -/
def State.bsnCmdWrite (s : State) (v : Word) : State := s.bsnCmd (BSN_CMD.UNIT.of v) (BSN_CMD.OP.of v) none

/-- QUEUE_DRAIN_END (R450 step 3): FRAMES is 0 and no ring entry names the queue. -/
def execQueueDrainEnd (q : BitVec 20) (s : State) : Host.Outcome State Fault Refusal :=
  let q := q.toNat
  let ringed := s.weir.groups.any (fun e => e.2.ring.any (fun r => decide (r.queue = q)))
  if s.ris QUE.DRAIN q ∧ s.rrd QUE.FRAMES q = 0 ∧ (s.bq q).decided = [] ∧ !ringed then
    let s0 := s.skipVoid q
    let s1 := (s0.freeCellsOf [s0.tailCell q]).wr BSN_FREE.SPARE (s0.rd BSN_FREE.SPARE - 1)
    .next ((s1.rwr QUE.DRAIN q 0).rwr QUE.EN q 0)
  else .next s

end Sys2Proof.Machine
end

