-- ==== Sys2Proof/Machine/Colour.lean ====
section
/-! DEFINITION. The Colour Map's commands: staging, commits, hand-overs, rule epochs and fences (chapter 14). The model's
accesses are whole; that accesses of an epoch are still in flight is said by the command. -/

namespace Sys2Proof.Machine

open Sys2Proof

/-! ### Rule epochs (R514 to R516) -/

/-- LIVE of CMP_STAT follows the epochs with accesses in flight (R528). -/
def State.setLive (s : State) (l : List Nat) : State :=
  ({ s with access := { s.access with live := l } }).wr CMP_STAT.LIVE (min 4 (l.length + 1))

/-- A new rule epoch; `busy` says that accesses checked under the one that closes are in flight (R514). -/
def State.newEpoch (s : State) (busy : Bool) : State :=
  let e := s.rd CMP_EPOCH.EPOCH
  (if busy then s.setLive (s.access.live ++ [e]) else s).wr CMP_EPOCH.EPOCH ((e + 1) % 2 ^ 32)

/-- The staged table made live (R514). -/
def State.makeLive (s : State) : State :=
  (List.range 512).foldl (fun a n =>
    ((a.setReg .CMP_LSTART (s.reg .CMP_START n) n).setReg .CMP_LEND (s.reg .CMP_END n) n).setReg .CMP_LATTR
      (s.reg .CMP_ATTR n) n) s

/-- A change of the rules takes effect (R514, R521). -/
def State.applyChange (s : State) (c : HeldChange) (busy : Bool) : State :=
  match c with
  | .commit => (s.makeLive.newEpoch busy).count Ctrs.CMP_COMMITS
  | .handover k colour => ((s.wr POOL_OWN.OWNER colour k).newEpoch busy).count Ctrs.CMP_HANDOVERS

/-- A change of the rules asked for: it takes effect, or is held while it would open a fifth epoch (R516). -/
def State.changeRules (s : State) (c : HeldChange) (busy : Bool) : State :=
  if busy ∧ 3 ≤ s.access.live.length then
    (({ s with access := { s.access with held := some c } }).mark CMP_CTL.PEND).count Ctrs.CMP_HELD
  else s.applyChange c busy

/-- The accesses of some older epochs have completed; a held change then takes effect (R515, R516). -/
def State.retireEpochs (s : State) (done : Nat → Bool) : State :=
  let l := s.access.live.filter (fun e => !done e)
  let s1 := s.setLive l
  match s.access.held with
  | some c =>
    if l.length < s.access.live.length then
      (({ s1 with access := { s1.access with held := none } }).unmark CMP_CTL.PEND).applyChange c true
    else s1
  | none => s1

/-! ### Meanings -/

/-- A write while a change is held is refused (R516). -/
def State.unlessPend (s : State) (k : State) : State := if s.is CMP_CTL.PEND then s.mark CMP_STAT.REJECT else k

/-- The staged registers: 0 START, 1 END, 2 ATTR (R526). -/
def stagedReg (which : Nat) : Reg := if which = 0 then .CMP_START else if which = 1 then .CMP_END else .CMP_ATTR

/-- CMP_STAGE_WRITE (R516, R526). -/
def execCmpStageWrite (which : Fin 3) (n : Fin 512) (v : Word) (s : State) : Host.Outcome State Fault Refusal :=
  guardRsvd (stagedReg which) v (.next (s.unlessPend (s.plainWrite (stagedReg which) v n)))

/-- A staged entry at fault (R517). -/
def State.entryFaulty (s : State) (n : Nat) : Bool :=
  s.is CMP_ATTR.V n && (decide (s.rd CMP_END.END n < s.rd CMP_START.START n) ||
    (decide (s.rd CMP_ATTR.COLOUR n = 15) && !s.factory && !s.is GBL_DEBUG.OPEN))

/-- A write of 1 to COMMIT (R516, R517). -/
def State.commitTable (s : State) (busy : Bool) : State :=
  s.unlessPend (match (List.range 512).find? s.entryFaulty with
    | some n => (s.mark CMP_STAT.REJECT).wr CMP_STAT.REJ_ENTRY n
    | none => s.changeRules .commit busy)

/-- The staged table has overlapping entries of different colours (R507, R100). -/
def State.overlapClash (s : State) : Bool :=
  let l := (List.range 512).filter (fun n => s.is CMP_ATTR.V n)
  l.any (fun a => l.any (fun b => decide (s.rd CMP_START.START a ≤ s.rd CMP_END.END b) &&
    decide (s.rd CMP_START.START b ≤ s.rd CMP_END.END a) && decide (s.rd CMP_ATTR.COLOUR a ≠ s.rd CMP_ATTR.COLOUR b)))

/-- COMMIT (R514, R516, R517); `busy`: accesses of the closing epoch are in flight. A commit that is accepted with
overlapping entries of different colours is a host error (R507). -/
def execCommit (busy : Bool) (s : State) : Host.Outcome State Fault Refusal :=
  if !s.is CMP_CTL.PEND ∧ !(List.range 512).any s.entryFaulty ∧ s.overlapClash then .fault .hostError
  else .next (s.commitTable busy)

/-- HELD_CHANGE_APPLY (R516): the accesses of the oldest epoch have completed. -/
def execHeldChangeApply (s : State) : Host.Outcome State Fault Refusal :=
  match s.access.live with
  | [] => .next s
  | e :: _ => if s.access.held.isSome then .next (s.retireEpochs (fun x => decide (x = e))) else .next s

/-- A write of 1 to START of CMP_FENCE (R515, R527). -/
def State.fenceStart (s : State) : State :=
  if s.is CMP_FENCE.BUSY then s
  else ({ s with access := { s.access with fence := some (s.rd CMP_EPOCH.EPOCH) } }).mark CMP_FENCE.BUSY

/-- CMP_FENCE_START (R515). -/
def execCmpFenceStart (s : State) : Host.Outcome State Fault Refusal := .next s.fenceStart

/-- CMP_FENCE_DONE (R515): the accesses of older epochs have completed. -/
def execCmpFenceDone (s : State) : Host.Outcome State Fault Refusal :=
  match s.access.fence with
  | some f =>
    let s1 := { s with access := { s.access with fence := none } }
    .next ((s1.unmark CMP_FENCE.BUSY).retireEpochs (fun e => epochOlder e f))
  | none => .next s

/-- FENCE_C_DONE (R383): every access checked under an older epoch has completed; FENCE.C returns the epoch. -/
def execBalFenceCDone (t : ThreadNo) (s : State) : Host.Outcome State Fault Refusal :=
  match (s.thread t).hold with
  | .fenceC rd e => .next ((s.retireEpochs (fun x => epochOlder x e)).resume t rd (BitVec.ofNat 64 e))
  | _ => .next s

/-- A write to POOL_OWNk (R516, R521). -/
def State.poolOwnWrite (s : State) (k colour : Nat) (busy : Bool) : State :=
  s.unlessPend (
    if (colour = 15 ∧ !s.factory) ∨ s.treePool k then s.mark CMP_STAT.REJECT
    else if s.rd POOL_OWN.OWNER k = colour then s
    else s.changeRules (.handover k colour) busy)

/-- POOL_HANDOVER (R521); `busy`: accesses of the closing epoch are in flight. -/
def execPoolHandover (k : PoolNo) (v : Word) (busy : Bool) (s : State) : Host.Outcome State Fault Refusal :=
  guardRsvd .POOL_OWN v (.next (s.poolOwnWrite k (POOL_OWN.OWNER.of v) busy))

/-- A write to CMP_STAT (R528): clearing VIOL clears CMP_VIOL and CMP_VINFO. -/
def State.cmpStatWrite (s : State) (v : Word) : State :=
  let s1 := s.plainWrite .CMP_STAT v
  if CMP_STAT.VIOL.of v = 1 then (s1.setReg .CMP_VIOL 0).setReg .CMP_VINFO 0 else s1

/-- VIOL_CLEAR (R528): a write to CMP_STAT. -/
def execViolClear (v : Word) (s : State) : Host.Outcome State Fault Refusal :=
  guardRsvd .CMP_STAT v (.next (s.cmpStatWrite v))

end Sys2Proof.Machine
end

