-- ==== Sys2Proof/Machine/Tide.lean ====
section
/-! DEFINITION. The Tide block's commands: thread configuration and control, resets, dispatch of handlers, ATG blocks
and ring descriptors, limits, and the installation of Standing Orders (chapter 09). -/

namespace Sys2Proof.Machine

open Sys2Proof

/-! ### Time -/

/-- The Tick of an event that falls later than the present Tick; Ticks never go back (R636, R637). -/
def State.timeTo (s : State) (now : Word) : State := if atOrAfter now s.tick then { s with tick := now } else s

/-! ### Jobs (R365) -/

/-- A general-register file with g1 and up loaded, every other register 0 (R365). -/
def loadRegs (ws : List Word) : Tbl Word :=
  ((List.range ws.length).zip ws).foldl (fun t p => Tbl.set 0 t (p.1 + 1) p.2) []

/-- A thread starts a job (R365): registers loaded, tags idle, PC, privilege and colour of the job. -/
def State.startJob (s : State) (t : Nat) (job : Job) (pc : Word) (warden : Bool) (colour : Nat) (g : List Word) : State :=
  (s.setThread t { g := loadRegs g, pc := pc, job := job, warden := warden, colour := colour }).setTstate t stRunning

/-- ROLE of a thread: 0 FREE, 1 EVENT, 2 RING (R358). -/
def State.role (s : State) (t : Nat) : Nat := s.rd TID_THRCFG.ROLE t

/-! ### Configuration and control (R325, R327, R358, R359) -/

/-- A master may configure and clear threads: any but a stream thread (R325, R350). -/
def State.mayConfigure (s : State) (m : Master) : Bool :=
  match m with
  | .thread t => (s.thread t).warden
  | _ => true

/-- A colour that no thread may hold: Slate, and Ivory outside Factory (R327). -/
def State.colourBarred (s : State) (c : Nat) : Bool := decide (c = 2) || (decide (c = 15) && !s.factory)

/-- A write to TID_THRCFGt by a master (R325, R327, R358). -/
def State.thrcfgWrite (s : State) (m : Master) (t : Nat) (v : Word) : State :=
  if s.tstate t ≠ stOff ∨ !s.mayConfigure m ∨ TID_THRCFG.ROLE.of v = 3 ∨ s.colourBarred (TID_THRCFG.COLOUR.of v) then
    s.mark TID_STAT.REJECT
  else s.setReg .TID_THRCFG v t

/-- TID_THRCFG_WRITE (R325, R327, R358). -/
def execTidThrcfgWrite (m : Master) (t : ThreadNo) (v : Word) (s : State) : Host.Outcome State Fault Refusal :=
  guardRsvd .TID_THRCFG v (.next (s.thrcfgWrite m t v))

/-- A write to TID_ENTRYt (R325, R355): only while the thread is Off, by a master that may configure it; the entry is a
multiple of 4. -/
def State.entryWrite (s : State) (m : Master) (t : Nat) (v : Word) : State :=
  if s.tstate t ≠ stOff ∨ !s.mayConfigure m ∨ v.toNat % 4 ≠ 0 then s else s.setReg .TID_ENTRY v t

/-- START from Off (R359). -/
def State.threadStart (s : State) (t : Nat) : State :=
  if s.tstate t ≠ stOff then s.mark TID_STAT.REJECT
  else if s.role t = 0 then
    s.startJob t .free (s.reg .TID_ENTRY t) (s.is TID_THRCFG.WARDEN t) (s.rd TID_THRCFG.COLOUR t) []
  else (s.setThread t { warden := s.is TID_THRCFG.WARDEN t, colour := s.rd TID_THRCFG.COLOUR t }).setTstate t stIdle

/-- A thread goes Off (R350, R359): what it held is gone. -/
def State.goOff (s : State) (t : Nat) : State :=
  ((s.setThread t {}).setTstate t stOff).unmark TID_THRSTAT.STOPPING t

/-- STOP from any state but Off and Trapped (R359, R360): the work in hand ends as under R349, and the thread is Off
once no operation is outstanding. -/
def State.threadStop (s : State) (t : Nat) : State :=
  if s.tstate t = stOff ∨ s.tstate t = stTrapped then s.mark TID_STAT.REJECT
  else if s.is TID_THRSTAT.STOPPING t then s
  else
    let s1 := s.abandonWork t 0
    if s1.opsOf t = 0 then s1.goOff t
    else ((s1.setHold t .stopping).setTstate t stWaitC).mark TID_THRSTAT.STOPPING t

/-- CLRTRAP from Trapped (R350, R359), by the host or a warden thread. -/
def State.threadClear (s : State) (m : Master) (t : Nat) : State :=
  if s.tstate t ≠ stTrapped ∨ !s.mayConfigure m then s.mark TID_STAT.REJECT
  else if s.opsOf t = 0 then s.goOff t
  else (s.setHold t .stopping).mark TID_THRSTAT.STOPPING t

/-- A write to TID_THRCTLt (R359): more than one bit set is ignored, with REJECT. -/
def State.thrctlWrite (s : State) (m : Master) (t : Nat) (v : Word) : State :=
  match TID_THRCTL.CLRTRAP.of v, TID_THRCTL.STOP.of v, TID_THRCTL.START.of v with
  | 0, 0, 0 => s
  | 0, 0, _ => s.threadStart t
  | 0, _, 0 => s.threadStop t
  | _, 0, 0 => s.threadClear m t
  | _, _, _ => s.mark TID_STAT.REJECT

/-- THREAD_START (R359). -/
def execThreadStart (t : ThreadNo) (s : State) : Host.Outcome State Fault Refusal := .next (s.threadStart t)

/-- THREAD_STOP (R359). -/
def execThreadStop (t : ThreadNo) (s : State) : Host.Outcome State Fault Refusal := .next (s.threadStop t)

/-- A thread that waits under STOP or CLRTRAP goes Off once its operations have completed (R350, R360). -/
def State.stopDone (s : State) (t : Nat) (trapped : Bool) : State :=
  if s.is TID_THRSTAT.STOPPING t ∧ s.opsOf t = 0 ∧ decide (s.tstate t = stTrapped) = trapped then s.goOff t else s

/-- THREAD_STOPPED (R359). -/
def execThreadStopped (t : ThreadNo) (s : State) : Host.Outcome State Fault Refusal := .next (s.stopDone t false)

/-- CLRTRAP (R350). -/
def execClrtrap (m : Master) (t : ThreadNo) (s : State) : Host.Outcome State Fault Refusal := .next (s.threadClear m t)

/-- TRAP_CLEARED (R350). -/
def execTrapCleared (t : ThreadNo) (s : State) : Host.Outcome State Fault Refusal := .next (s.stopDone t true)

/-! ### Resets of cores (R353, R354) -/

/-- A reset that reaches a master discards its latches (R713). -/
def State.dropLatches (s : State) (m : Master) : State :=
  { s with latches := s.latches.filter (fun e => !decide (e.1 = m)) }

/-- A reset reaches a thread (R354): kind 0x51 for a handler or ATG block, its work ends, its registers, comparator and
tags are lost; EVENT and RING threads go Idle, FREE threads Off. -/
def State.resetThread (s : State) (t : Nat) : State :=
  let s1 := match (s.thread t).job with
    | .handler _ _ _ _ _ => s.report 0x51 (s.workDetail t 0)
    | .atg => s.report 0x51 (s.workDetail t 0)
    | _ => s
  let s2 := ((s1.abandonWork t 0).unmark TID_THRSTAT.STOPPING t).dropLatches (.thread t)
  let role := s.role t
  (s2.setThread t { warden := s.is TID_THRCFG.WARDEN t, colour := s.rd TID_THRCFG.COLOUR t }).setTstate t
    (if role = 0 then stOff else stIdle)

/-- A reset reaches the cores whose bits are set (R353, R354): their threads, and their caches. -/
def State.resetCores (s : State) (mask : Nat) : State :=
  let s1 := State.takeReports
    ((List.range 256).foldl (fun a t => if mask.testBit (t / 8) then a.resetThread t else a) s.holdReports) s.inCycle
  (List.range 32).foldl (fun a c => if mask.testBit c then a.dropCaches c else a) s1

/-- TIDE_RESET (R353, R354): a write to TID_RESET. -/
def execTideReset (v : BitVec 32) (s : State) : Host.Outcome State Fault Refusal := .next (s.resetCores v.toNat)

/-- The instruction caches of the cores whose bits are set invalidated (R329). -/
def State.dropCode (s : State) (mask : Nat) : State :=
  (List.range 32).foldl (fun a c => if mask.testBit c then a.setCache false c [] else a) s

/-- ICACHE_INVALIDATE (R329): a write to TID_ICINV. -/
def execIcacheInvalidate (v : BitVec 32) (s : State) : Host.Outcome State Fault Refusal := .next (s.dropCode v.toNat)

/-! ### Dispatch (R16, R336, R344 to R346, R351) -/

/-- A record of the event queue for a class that has overflowed, while there is room (R344): under the image of the event
that overflowed last (R340). -/
def State.ovfRecord (s : State) (cls : Nat) : State :=
  match (if s.tide.queue.length < 8192 then Tbl.get none s.tide.ovf cls else none) with
  | some o =>
    let r : EventRec := { cls := cls, idx := 0xFFFFFFFF, count := min o.count 65535, reading := s.recordReading, g5 := 0,
                          entry := o.entry, gen := o.gen }
    let td := { s.tide with ovf := Tbl.set none s.tide.ovf cls none, queue := s.tide.queue ++ [r] }
    State.wr { s with tide := td } TID_EVQ.OVF (s.rd TID_EVQ.OVF &&& (2 ^ 13 - 1 - 2 ^ (cls - 1)))
  | none => s

/-- EVENT_OVF_RECORD (R344): a record has freed. -/
def execEventOvfRecord (s : State) : Host.Outcome State Fault Refusal :=
  .next (((List.range 13).map (· + 1)).foldl State.ovfRecord s)

/-- A thread can take a record of an entry (R345). -/
def State.eligible (s : State) (e : SoEntry) (t : Nat) : Bool :=
  decide (s.role t = 1) && decide (s.tstate t = stIdle) && e.cores.testBit (coreOf t) &&
  (!e.flags.testBit 4 || s.is TID_THRCFG.WARDEN t)

/-- HANDLER_DISPATCH (R345): the record at a place of the queue, none of the same entry before it, goes to the
lowest-numbered eligible Idle thread. -/
def execHandlerDispatch (n : Nat) (s : State) : Host.Outcome State Fault Refusal :=
  match s.tide.queue[n]? with
  | none => .next s
  | some r =>
    if (s.tide.queue.take n).any (fun q => decide (q.entry = r.entry) && decide (q.gen = r.gen)) then .next s
    else match (List.range 256).find? (s.eligible r.entry) with
      | none => .next s
      | some t =>
        let s1 := { s with tide := { s.tide with queue := s.tide.queue.eraseIdx n } }
        .next (s1.startJob t (.handler r.cls r.idx r.gen r.entry.limit s.tick.toNat) r.entry.pc
          (r.entry.flags.testBit 4) r.entry.colour
          [BitVec.ofNat 64 r.idx, BitVec.ofNat 64 (r.cls + r.count * 2 ^ 16), r.reading, r.entry.arg, r.g5])

/-- ATG_BLOCK_DISPATCH (R16, R336): the block of a core that became due first runs on its lowest-numbered Idle EVENT
thread. -/
def execAtgBlockDispatch (core : Fin 32) (s : State) : Host.Outcome State Fault Refusal :=
  match s.tide.due.find? (fun b => decide (b.core = core.val)) with
  | none => .next s
  | some b =>
    match (List.range 8).find? (fun h => decide (s.role (8 * core + h) = 1) && decide (s.tstate (8 * core + h) = stIdle)) with
    | none => .next s
    | some h =>
      let s1 := { s with tide := { s.tide with due := s.tide.due.erase b } }
      .next (s1.startJob (8 * core + h) .atg b.pc b.warden b.colour [b.arg, b.target, s.selReading b.sel])

/-- HANDLER_LIMIT_TRAP (R346): a handler has run LIMIT × 1,024 cycles by Tick `now`; the instruction word recorded is
free, since the rule names none. -/
def execHandlerLimitTrap (t : ThreadNo) (now : Word) (s : State) : Host.Outcome State Fault Refusal :=
  let s1 := s.timeTo now
  match (s.thread t).job with
  | .handler _ _ _ limit start =>
    if limit ≠ 0 ∧ start + limit * 1024 ≤ s1.tick.toNat ∧ s.tstate t ≠ stTrapped then
      let (w, s2) := s1.draw
      .next (s2.takeTrap t 0x09 0 (w.toNat % 2 ^ 32) 0)
    else .next s1
  | _ => .next s1

/-- RING_DESCRIPTOR_DISPATCH (R351): the oldest fetched descriptor of a command ring goes to the lowest-numbered Idle
thread of the ring. -/
def execRingDescriptorDispatch (r : Fin 64) (s : State) : Host.Outcome State Fault Refusal :=
  let x := s.ring r
  match x.fetched with
  | [] => .next s
  | d :: rest =>
    match (List.range 256).find? (fun t => decide (s.role t = 2) && decide (s.rd TID_THRCFG.RING t = r.val) &&
        decide (s.tstate t = stIdle)) with
    | none => .next s
    | some t =>
      let s1 := s.setRing r { x with fetched := rest }
      .next (s1.startJob t (.ring r d.slot d.tag) (s.reg .TID_ENTRY t) (s.is TID_THRCFG.WARDEN t)
        (s.rd TID_THRCFG.COLOUR t) (d.words ++ [BitVec.ofNat 64 (r.val * 2 ^ 16 + d.slot)]))

/-! ### Standing Orders (R337, R339 to R341) -/

/-- An entry of an image read from its 32 octets. -/
def soEntry (o : Octets) : SoEntry :=
  { cls := leNat (slice o 0 1), flags := leNat (slice o 1 1), colour := leNat (slice o 2 1), limit := leNat (slice o 3 1),
    indexLo := leNat (slice o 4 4), indexHi := leNat (slice o 8 4), cores := leNat (slice o 12 4),
    pc := BitVec.ofNat 64 (leNat (slice o 16 8)), arg := BitVec.ofNat 64 (leNat (slice o 24 8)) }

/-- An entry passes the checks of status 2 (R337, R339). -/
def State.soEntryOk (s : State) (e : SoEntry) : Bool :=
  decide (1 ≤ e.cls) && decide (e.cls ≤ 0x0D) && decide (e.flags < 32) &&
  (decide (e.flags / 2 % 4 = 0) || decide (e.cls = 1)) && (!e.flags.testBit 3 || decide (e.cls = 2)) &&
  decide (e.colour < 16) && !s.colourBarred e.colour && decide (e.indexLo ≤ e.indexHi) && decide (e.cores ≠ 0) &&
  decide (e.pc.toNat % 4 = 0)

/-- The header passes the checks of status 1 (R337, R339). -/
def soHeaderOk (h : Octets) : Bool :=
  decide (leNat (slice h 0 4) = 0x5344524F) && decide (leNat (slice h 4 2) = 1) && decide (1 ≤ leNat (slice h 6 2)) &&
  decide (leNat (slice h 6 2) ≤ 1024) && decide (leNat (slice h 8 56) = 0)

/-- A handler of an earlier image is queued, or will be after an overflow, or runs (R340). -/
def State.oldHandlers (s : State) : Bool :=
  let gen := s.rd TID_SOINFO.GEN
  s.tide.queue.any (fun r => decide (r.gen ≠ gen)) || s.tide.ovf.any (fun e => e.2.any (fun o => decide (o.gen ≠ gen))) ||
  (List.range 256).any (fun t => match (s.thread t).job with
    | .handler _ _ g _ _ => decide (g ≠ gen)
    | _ => false)

/-- An image installed (R339, R357): the table, SO_DIGEST, GEN and COUNT. -/
def State.installOrders (s : State) (image : Octets) (es : List SoEntry) : State :=
  let dg := Crypto.sha3 image
  let s1 := ((({ s with tide := { s.tide with orders := es } }).setReg .TID_SODIGLO
    (BitVec.ofNat 64 (leNat (dg.take 8)))).setReg .TID_SODIGHI (BitVec.ofNat 64 (leNat (slice dg 8 8))))
  ((s1.mark TID_STAT.SO_VALID).wr TID_SOINFO.GEN ((s.rd TID_SOINFO.GEN + 1) % 2 ^ 16)).wr TID_SOINFO.COUNT es.length

/-- The Standing Orders table cleared (R341). -/
def State.clearOrders (s : State) : State :=
  (((({ s with tide := { s.tide with orders := [] } }).unmark TID_STAT.SO_VALID).wr TID_SOINFO.COUNT 0).setReg
    .TID_SODIGLO 0).setReg .TID_SODIGHI 0

/-- The image at an address checked and installed: the status, with the entry number in [31:16] (R339). The checks are
made in the order 3, 4, 1, 2, 5. An image that cannot be read, refused or not, gives status 4: ORDER.SET has no other
trap than cause 0x02 (R397). -/
def State.orderSet (s : State) (t a : Nat) : Nat × State :=
  let q := s.requester (.thread t)
  let inPool := fun (n : Nat) => decide (0x100000000 ≤ a) && decide (a + n ≤ 0x104000000)
  let mode := s.rd GBL_MODE.MODE
  if mode < 3 ∨ 7 < mode then (3, s)
  else if !inPool 64 then (4, s)
  else match s.areaRead q a 64 with
    | (.data h, s1) =>
      if !soHeaderOk h then (1, s1)
      else
        let n := leNat (slice h 6 2)
        if !inPool (64 + 32 * n) then (4, s1)
        else match s1.areaRead q (a + 64) (32 * n) with
          | (.data b, s2) =>
            let es := (List.range n).map (fun k => soEntry (slice b (32 * k) 32))
            match es.findIdx? (fun e => !s2.soEntryOk e) with
            | some k => (k * 2 ^ 16 + 2, s2)
            | none => if s2.oldHandlers then (5, s2) else (0, s2.installOrders (h ++ b) es)
          | (_, s2) => (4, s2)
    | (_, s1) => (4, s1)

/-- ORDER_SET (R326, R339, R374). -/
def execBalOrderSet (t : ThreadNo) (rd rs1 : GReg) (s : State) : Host.Outcome State Fault Refusal :=
  s.issue t (encA 0x01 rd rs1 0 0x003) (fun s1 =>
    if !(s1.thread t).warden then .next (s1.takeTrap t 0x02 0 (encA 0x01 rd rs1 0 0x003) 0)
    else
      let (v, s2) := s1.orderSet t (s1.g t rs1).toNat
      .next (s2.writeStep t rd (BitVec.ofNat 64 v)))

end Sys2Proof.Machine
end

