-- ==== Sys2Proof/Machine/Culvert.lean ====
section
/-! DEFINITION. Culvert's commands: accesses by port, the scrubber, ranges, RESEAL, the tree Pool and the bandwidth
windows (R474 to R501). Bit errors of the stacks and what a tree read finds come with the command. -/

namespace Sys2Proof.Machine

open Sys2Proof

/-! ### Accesses -/

/-- Requester code of a port (R695), and the generation it passes (R475). -/
def portOf (p : CulvertPort) : CulPort :=
  match p with
  | .cell g => { req := 6, gen := some g }
  | .hold => { req := 7 }
  | .master m => { req := m.code }

/-- What the stacks and the tree have come to before an access: bit errors in words, and a node that fails (R483 to
R485). -/
def State.culMishaps (s : State) (sec : Nat) (flips : List (Nat × BitVec 80)) (find : NodeFind) : State :=
  match s.rangeAt (sec * 256) with
  | none => s
  | some r => if s.rangeServes r then ((s.culFlip r sec flips).culPath r sec find).2 else s

/-- Octets of a sector read through a port; none is a bus error. -/
def State.portRead (s : State) (p : CulvertPort) (sec lo n : Nat) : Option Octets × State :=
  match p with
  | .master m =>
    match s.areaRead (s.requester m) (0x1000000000 + sec * 256 + lo) n with
    | (.data d, s1) => (some d, s1)
    | (_, s1) => (none, s1)
  | _ => s.culRead (portOf p) sec lo n

/-- Octets written to a sector through a port; false is a bus error. -/
def State.portWrite (s : State) (p : CulvertPort) (sec lo : Nat) (d : Octets) : Bool × State :=
  match p with
  | .master m =>
    match s.areaWrite (s.requester m) (0x1000000000 + sec * 256 + lo) d with
    | (.done, s1) => (true, s1)
    | (_, s1) => (false, s1)
  | _ => s.culWrite (portOf p) sec lo d

/-- CULVERT_READ (R474, R478, R481, R483 to R485): the reply goes to the port. -/
def execCulvertRead (p : CulvertPort) (sec lo n : Nat) (flips : List (Nat × BitVec 80)) (find : NodeFind) (s : State) :
    Host.Outcome State Fault Refusal :=
  if 2 ^ 28 ≤ sec ∨ 256 < lo + n then .next s
  else
    let (r, s1) := (s.culMishaps sec flips find).portRead p sec lo n
    .next (s1.emit (.culvert (portOf p).req r))

/-- A write's answer to its port. -/
def State.portReply (s : State) (p : CulvertPort) (ok : Bool) : State :=
  s.emit (.culvert (portOf p).req (if ok then some [] else none))

/-- CULVERT_WRITE (R473, R474, R478): a whole sector. -/
def execCulvertWrite (p : CulvertPort) (sec : Nat) (d : Octets) (find : NodeFind) (s : State) :
    Host.Outcome State Fault Refusal :=
  if 2 ^ 28 ≤ sec ∨ d.length ≠ 256 then .next s
  else
    let (ok, s1) := (s.culMishaps sec [] find).portWrite p sec 0 d
    .next (s1.portReply p ok)

/-- CULVERT_PARTIAL_WRITE (R480, R481): fewer octets than a sector. -/
def execCulvertPartialWrite (p : CulvertPort) (sec lo : Nat) (d : Octets) (flips : List (Nat × BitVec 80))
    (find : NodeFind) (s : State) : Host.Outcome State Fault Refusal :=
  if 2 ^ 28 ≤ sec ∨ 256 < lo + d.length ∨ d.length = 256 then .next s
  else
    let (ok, s1) := (s.culMishaps sec flips find).portWrite p sec lo d
    .next (s1.portReply p ok)

/-! ### The scrubber (R483, R488) -/

/-- Sectors of the tree area of a range, first and after the last (R477, R499). -/
def State.treeArea (s : State) (r : Nat) : Nat × Nat :=
  let b := s.rd CUL_RTREE.TREE_BASE_MB r
  (b * 4096, (b + treeAreaMb (s.rangeSize r / 256)) * 4096)

/-- Sector intervals that the scrubber visits: enabled ranges and tree areas. -/
def State.scrubAreas (s : State) : List (Nat × Nat) :=
  ((List.range 8).filter (fun r => s.is CUL_RNG.EN r)).flatMap (fun r =>
    let a := (s.rangeBase r / 256, (s.rangeBase r + s.rangeSize r) / 256)
    if s.rangeType r = 3 then [a, s.treeArea r] else [a])

/-- The first sector of the areas at or after `n`, else the lowest of all. -/
def nextScrub (areas : List (Nat × Nat)) (n : Nat) : Option Nat :=
  let up := areas.filterMap (fun a => if n < a.2 then some (max n a.1) else none)
  match up.min? with
  | some x => some x
  | none => (areas.map (·.1)).min?

/-- The node that stands in a quarter of a sector of a tree area: range, level and index (R477). -/
def State.treeNodeAt (s : State) (sec quarter : Nat) : Option (Nat × Nat × Nat) :=
  ((List.range 8).find? (fun r => s.is CUL_RNG.EN r && decide (s.rangeType r = 3) && decide ((s.treeArea r).1 ≤ sec) &&
      decide (sec < (s.treeArea r).2))).bind (fun r =>
    let n := s.rangeSize r / 256
    let a := (sec - (s.treeArea r).1) * 256 + 64 * quarter
    ((List.range (treeOff n)).find? (fun l => decide (a < nodeOffset n (l + 2) 0))).map (fun l =>
      (r, l + 1, (a - nodeOffset n (l + 1) 0) / 64)))

/-- The scrubber meets bit errors in a sector of a tree area: a node is corrected, or found damaged (R483, R485, R488). -/
def State.scrubTree (s : State) (sec : Nat) (flips : List (Nat × BitVec 80)) : State :=
  (List.range 4).foldl (fun (a : State) q =>
    let l := (flips.filter (fun e => decide (e.1 / 8 = q))).map (fun e => (e.1 % 8, e.2))
    match a.treeNodeAt sec q with
    | some (r, k, j) =>
      if l = [] ∨ !a.rangeServes r ∨ (a.range r).damaged.contains (k, j) then a
      else if a.nodeSurvives r k j l then (a.mark CUL_STAT.CE).count Ctrs.CUL_CE
      else a.culDamage r k j
    | none => a) s

/-- The scrubber reads one sector. -/
def State.scrubOne (s : State) (flips : List (Nat × BitVec 80)) : State :=
  match nextScrub s.scrubAreas s.culvert.scrub with
  | none => s
  | some sec =>
    let cl := { s.culvert with scrub := sec + 1, corrected := s.culvert.corrected.filter (fun k => decide (k / 32 ≠ sec)) }
    let s1 := State.count { s with culvert := cl } Ctrs.CUL_SCRUBBED
    match s.rangeAt (sec * 256) with
    | none => s1.scrubTree sec flips
    | some r =>
      let s2 := s1.culFlip r sec flips
      if !s.rangeServes r ∨ s2.culPoisoned r sec then s2
      else (List.range 32).foldl (fun a w => (a.culFixWord r sec w 9).2) s2

/-- SCRUB_SECTOR (R488). -/
def execScrubSector (flips : List (Nat × BitVec 80)) (s : State) : Host.Outcome State Fault Refusal :=
  .next (if s.is CUL_CTL.SCRUB_EN then s.scrubOne flips else s)

/-! ### Ranges (R471, R492, R493, R498) -/

/-- Intervals of MiB overlap. -/
def overlaps (a b : Nat × Nat) : Bool := decide (a.1 < b.2) && decide (b.1 < a.2)

/-- MiB interval of an enabled range, and its tree area when Sealed-fresh. -/
def State.rangeMb (s : State) (r : Nat) : List (Nat × Nat) :=
  let b := s.rd CUL_RNG.BASE_MB r
  let a := (b, b + s.rd CUL_RNG.SIZE_MB r + 1)
  if s.rangeType r = 3 then [a, ((s.treeArea r).1 / 4096, (s.treeArea r).2 / 4096)] else [a]

/-- The range key is usable (R498). -/
def State.rangeKeyOk (s : State) (r : Nat) : Bool := s.usable 3 (0x10 + r)

/-- A write that sets EN is refused (R498); `s1` holds the register as it would be. -/
def State.enableBad (s s1 : State) (r : Nat) : Bool :=
  let mine := s1.rangeMb r
  let others := ((List.range 8).filter (fun q => decide (q ≠ r) && s.is CUL_RNG.EN q)).flatMap s.rangeMb
  decide (s1.rangeType r = 0) || decide (65536 < s1.rd CUL_RNG.BASE_MB r + s1.rd CUL_RNG.SIZE_MB r + 1) ||
  mine.any (fun a => others.any (overlaps a)) ||
  (decide (s1.rangeType r = 3) && (!s.is CUL_CTL.TREE_EN ||
    (match mine with
     | [a, b] => overlaps a b || decide (65536 < b.2)
     | _ => false))) ||
  decide (s.rd CUL_RSTAT.ENABLES r = 65535) || !s.rangeKeyOk r

/-- The three subkeys of a range key (R471). -/
def subkeys (k : Octets) : Octets × Octets × Octets :=
  let e := fun (n : Nat) => Crypto.aes k (BitVec.ofNat 8 n :: List.replicate 15 0)
  (e 1 ++ e 2, e 3 ++ e 4, e 5 ++ e 6)

/-- Sectors of a range: first and after the last. -/
def State.rangeSectors (s : State) (r : Nat) : Nat × Nat :=
  (s.rangeBase r / 256, (s.rangeBase r + s.rangeSize r) / 256)

/-- A range enabled: ENABLES advances, the subkeys are loaded, its old contents, poison and damage are gone, from
the data caches too (R329, R492). -/
def State.rangeEnable (s : State) (r : Nat) : State :=
  let x := s.range r
  let (k1, k2, k3) := subkeys (s.kslot 3 (0x10 + r)).octets
  let (lo, hi) := s.rangeSectors r
  let out := fun (n : Nat) => decide (n < lo) || decide (hi ≤ n)
  let n := s.rangeSize r / 256
  let fresh := decide (s.rangeType r = 3)
  let h := if fresh then x.hwm + 1 else x.hwm
  let y : RangeState := { k1 := k1, k2 := k2, k3 := k3, hwm := h, init := if fresh then [(11, 0, n, h)] else [],
                          fill := x.fill + 1 }
  let cl := { s.culvert with
    sectors := s.culvert.sectors.filter (fun e => out e.1)
    poison := s.culvert.poison.filter out
    corrected := s.culvert.corrected.filter (fun k => out (k / 32)) }
  let s0 : State := State.dropLines { s with culvert := cl } (0x1000000000 + s.rangeBase r) (s.rangeSize r)
  let s1 := (s0.setRange r y).wr CUL_STAT.POISONED cl.poison.length
  (((s1.wr CUL_RSTAT.ENABLES (s.rd CUL_RSTAT.ENABLES r + 1) r).wr CUL_RSTAT.DAMAGED 0 r).unmark CUL_RSTAT.DEAD r).wr
    CUL_RSTAT.DOFF (if fresh then treeOff n else 0) r

/-- A write to CUL_RNGr (R492, R493, R498). -/
def State.rngWrite (s : State) (r : Nat) (v : Word) : State :=
  let en := s.is CUL_RNG.EN r
  let s1 := s.plainWrite .CUL_RNG v r
  let same := decide (s1.rd CUL_RNG.TYPE r = s.rd CUL_RNG.TYPE r) && decide (s1.rd CUL_RNG.COLOURS r = s.rd CUL_RNG.COLOURS r) &&
    decide (s1.rd CUL_RNG.SIZE_MB r = s.rd CUL_RNG.SIZE_MB r) && decide (s1.rd CUL_RNG.BASE_MB r = s.rd CUL_RNG.BASE_MB r)
  if en then
    if !same then s.mark CUL_STAT.REJECT
    else if s1.is CUL_RNG.EN r then s
    else
      let x := s1.range r
      s1.setRange r { x with closing := true }
  else if !s1.is CUL_RNG.EN r then s1
  else if s.enableBad s1 r then s.mark CUL_STAT.REJECT
  else (s1.unmark CUL_RNG.READY r).rangeEnable r

/-- CUL_RNG_WRITE (R498). -/
def execCulRngWrite (r : RangeNo) (v : Word) (s : State) : Host.Outcome State Fault Refusal :=
  guardRsvd .CUL_RNG v (.next (s.rngWrite r v))

/-- RANGE_READY (R492): the subkeys are loaded and the initialisation has ended. -/
def execRangeReady (r : RangeNo) (s : State) : Host.Outcome State Fault Refusal :=
  .next (if s.is CUL_RNG.EN r then s.mark CUL_RNG.READY r else s)

/-- RANGE_DISABLE_END (R493). -/
def execRangeDisableEnd (r : RangeNo) (s : State) : Host.Outcome State Fault Refusal :=
  let x := s.range r
  if !x.closing then .next s
  else .next ((s.setRange r { x with closing := false, k1 := [], k2 := [], k3 := [] }).unmark CUL_RNG.READY r)

/-! ### Control and bandwidth (R500, R501) -/

/-- A write to CUL_CTL (R500): the tree Pool stays as it is while a Sealed-fresh range is enabled. -/
def State.culCtlWrite (s : State) (v : Word) : State :=
  let s1 := s.plainWrite .CUL_CTL v
  let moved := decide (s1.rd CUL_CTL.TREE_EN ≠ s.rd CUL_CTL.TREE_EN) || decide (s1.rd CUL_CTL.TREE_POOL ≠ s.rd CUL_CTL.TREE_POOL)
  if moved ∧ ((List.range 8).any (fun r => s.is CUL_RNG.EN r && decide (s.rangeType r = 3))) then s.mark CUL_STAT.REJECT
  else s1

/-- CUL_CTL_WRITE (R500). -/
def execCulCtlWrite (v : Word) (s : State) : Host.Outcome State Fault Refusal :=
  guardRsvd .CUL_CTL v (.next (s.culCtlWrite v))

/-- CUL_BW_WINDOW (R501): a window of 150,000 Ticks ends at Tick `now`; whole GB/s. -/
def execCulBwWindow (now : Word) (s : State) : Host.Outcome State Fault Refusal :=
  let s1 := s.timeTo now
  let x := min 8191 (s.culvert.windowSum / 100000)
  let s2 := { s1 with culvert := { s1.culvert with windowSum := 0 } }
  .next ((s2.wr CUL_BW.LAST x).wr CUL_BW.PEAK (max x (s.rd CUL_BW.PEAK)))

/-- PEAK_CLR (R501): a write to CUL_BW. -/
def execPeakClr (v : Word) (s : State) : Host.Outcome State Fault Refusal :=
  guardRsvd .CUL_BW v (.next (if CUL_BW.PEAK_CLR.of v = 1 then s.wr CUL_BW.PEAK 0 else s))

/-! ### RESEAL (R374, R486) -/

/-- RESEAL: cause 0x02 in a stream thread; the thread is held until Culvert has re-sealed. -/
def execBalReseal (t : ThreadNo) (rd rs1 : GReg) (s : State) : Host.Outcome State Fault Refusal :=
  s.issue t (encA 0x01 rd rs1 0 0x004) (fun s1 =>
    if !(s1.thread t).warden then .next (s1.takeTrap t 0x02 0 (encA 0x01 rd rs1 0 0x004) 0)
    else .next (s1.setHold t (.reseal rd (s1.g t rs1))))

/-- The highest-level damaged node on a sector's path: level and index. -/
def topDamaged (rs : Nat) (l : List (Nat × Nat)) : Option (Nat × Nat) :=
  (l.filter (fun d => decide (pathNode rs d.1 = d.2))).foldl (fun a d => match a with
    | some b => if b.1 < d.1 then some d else some b
    | none => some d) none

/-- A damaged node re-sealed with everything below it (R486). -/
def State.resealNode (s : State) (r k j : Nat) : State :=
  let x := s.range r
  let n := s.rangeSize r / 256
  let lo := j * 8 ^ k
  let hi := min n ((j + 1) * 8 ^ k)
  let base := s.rangeBase r / 256
  let inside := fun (rs : Nat) => decide (lo ≤ rs) && decide (rs < hi)
  let y : RangeState := { x with
    hwm := x.hwm + 1, init := (k, lo, hi, x.hwm + 1) :: x.init, ctr := x.ctr.filter (fun e => !inside e.1)
    node := x.node.filter (fun e => !(decide (e.1 / 2 ^ 28 ≤ k) && inside (e.1 % 2 ^ 28 * 8 ^ (e.1 / 2 ^ 28))))
    damaged := x.damaged.filter (fun d => decide (d ≠ (k, j))) }
  let cl := { s.culvert with sectors := s.culvert.sectors.filter (fun e =>
    decide (e.1 < base) || !inside (e.1 - base) || s.culPoisoned r e.1) }
  let s0 : State := State.dropLines { s with culvert := cl } (0x1000000000 + 256 * (base + lo)) (256 * (hi - lo))
  let s1 := (s0.setRange r y).wr CUL_RSTAT.DAMAGED y.damaged.length r
  (s1.count Ctrs.CUL_RESEALS r).report 0x75 (r + k * 2 ^ 3 + j * 2 ^ 7 + (hi - lo) * 2 ^ 39)

/-- A re-seal at a memory offset: its status, and the node re-sealed; `further`: another uncorrectable error arose. -/
def State.resealAt (s : State) (o : Nat) (further : Bool) : Nat × State :=
  match s.rangeAt o with
  | none => (1, s)
  | some r =>
    if s.rangeType r ≠ 3 then (1, s)
    else if s.is CUL_RSTAT.DEAD r then (4, s)
    else match topDamaged (s.rangeSector r (o / 256)) (s.range r).damaged with
      | none => (2, s)
      | some (k, j) => if further then (3, s) else (0, s.resealNode r k j)

/-- RESEAL_DONE (R486): the re-seal ends and x[rd] receives its status. -/
def execBalResealDone (t : ThreadNo) (further : Bool) (s : State) : Host.Outcome State Fault Refusal :=
  match (s.thread t).hold with
  | .reseal rd a =>
    let (st, s1) := s.resealAt a.toNat further
    .next (s1.resume t rd (BitVec.ofNat 64 st))
  | _ => .next s

end Sys2Proof.Machine
end

