-- ==== Sys2Proof/Machine/ErrorLog.lean ====
section
/-! DEFINITION. The error log's commands: windows, releases, and the retirement registers (R698 to R706). -/

namespace Sys2Proof.Machine

open Sys2Proof

/-- The record of kind 0xF1 of a kind that is due, while the log has room (R699). -/
def State.logSummary (s : State) (k : Nat) : State :=
  let n := Tbl.get 0 s.log.suppressed k
  if 1024 ≤ s.rd ELG_STAT.USED ∨ n = 0 then s
  else
    let lg := { s.log with suppressed := Tbl.set 0 s.log.suppressed k 0, due := s.log.due.filter (· ≠ k) }
    State.report { s with log := lg } 0xF1 (k + n * 2 ^ 8)

/-- The records of kind 0xF1 that are due, in ascending kind (R699). -/
def State.logSummaries (s : State) : State := s.log.due.foldl State.logSummary s

/-- LOG_WINDOW (R699): the first cycle of the window that holds Tick `now`. Every kind with a suppressed count is due. -/
def execLogWindow (now : Word) (s : State) : Host.Outcome State Fault Refusal :=
  let s1 := s.timeTo now
  if s1.logWindow = s.logWindow then .next s1
  else .next (State.logSummaries { s1 with log := { s1.log with due := s1.log.suppressed.map (·.1) } })

/-- Records that a write of RD releases (R706). -/
def State.logReleases (s : State) (rd : Nat) : Nat :=
  let n := (rd + 1024 - s.rd ELG_IDX.RD) % 1024
  if n = 0 ∧ s.rd ELG_STAT.USED = 1024 then 1024 else n

/-- A write to ELG_IDX (R700, R706): released slots; then the record of kind 0xF2, then those of kind 0xF1 due. -/
def State.logRelease (s : State) (rd : Nat) : State :=
  let n := s.logReleases rd
  if s.rd ELG_STAT.USED < n then s.mark ELG_STAT.IDX_ERR
  else
    let s1 := (s.wr ELG_IDX.RD rd).wr ELG_STAT.USED (s.rd ELG_STAT.USED - n)
    let s2 := if s1.rd ELG_STAT.USED < 1024 ∧ 0 < s.log.fullCount then
        State.report { s1 with log := { s1.log with fullCount := 0 } } 0xF2 (s.log.fullCount % 2 ^ 32)
      else s1
    s2.logSummaries

/-- LOG_RELEASE (R706): a write to ELG_IDX. -/
def execLogRelease (v : Word) (s : State) : Host.Outcome State Fault Refusal :=
  guardRsvd .ELG_IDX v (.next (s.logRelease (ELG_IDX.RD.of v)))

/-- RETPAGE_WRITE (R703, R704): an entry is written while its V is 0, and stays. -/
def execRetpageWrite (n : Fin 256) (v : Word) (s : State) : Host.Outcome State Fault Refusal :=
  guardRsvd .ELG_RETPAGE v (.next (if s.is ELG_RETPAGE.V n then s else s.plainWrite .ELG_RETPAGE v n))

/-- A write to ELG_RETPOOL (R704): bits are set, never cleared; the tree Pool in use is not retired. -/
def State.retpoolWrite (s : State) (m : Nat) : State :=
  let fresh := m &&& (2 ^ 16 - 1 - s.rd ELG_RETPOOL.RET)
  if (List.range 16).any (fun k => fresh.testBit k && s.treePool k) then s.mark ELG_STAT.REJECT
  else s.wr ELG_RETPOOL.RET (s.rd ELG_RETPOOL.RET ||| m)

/-- RETPOOL_WRITE (R704). -/
def execRetpoolWrite (v : Word) (s : State) : Host.Outcome State Fault Refusal :=
  guardRsvd .ELG_RETPOOL v (.next (s.retpoolWrite (ELG_RETPOOL.RET.of v)))

end Sys2Proof.Machine
end

