-- ==== Sys2Proof/Machine/Delta.lean ====
section
/-! DEFINITION. Delta: entries, hash, lookups, insertion with relocation, commands by both paths, learning and Eddy-scan
(chapter 11). -/

namespace Sys2Proof.Machine

open Sys2Proof

namespace Ctrs
def EG_HIT : CtrId := ⟨0x09, 0⟩
def EG_MISS_DROP : CtrId := ⟨0x09, 1⟩
def EG_MISS_DEF : CtrId := ⟨0x09, 2⟩
def EG_DROP : CtrId := ⟨0x09, 3⟩
def LEARNED : CtrId := ⟨0x0A, 0⟩
def MOVES : CtrId := ⟨0x0A, 1⟩
def MOVE_STATIC : CtrId := ⟨0x0A, 2⟩
def LEARN_NOANCHOR : CtrId := ⟨0x0A, 3⟩
def LEARN_FULL : CtrId := ⟨0x0A, 4⟩
def LEARN_DROP : CtrId := ⟨0x0A, 5⟩
def AGED : CtrId := ⟨0x0A, 6⟩
def RELOCS : CtrId := ⟨0x0A, 7⟩
def FULL : CtrId := ⟨0x0A, 8⟩
def PAR_ERR : CtrId := ⟨0x0A, 9⟩
end Ctrs

/-- A Delta entry (R399). -/
abbrev Entry := BitVec 128

/-! ### Fields (R399, R400) -/

def Entry.fld (e : Entry) (hi lo : Nat) : Nat := bits e.toNat hi lo
def Entry.valid (e : Entry) : Bool := e.toNat.testBit 126
def Entry.type (e : Entry) : Nat := e.fld 125 124
def Entry.static (e : Entry) : Bool := e.toNat.testBit 123
def Entry.hit (e : Entry) : Bool := e.toNat.testBit 122
def Entry.learned (e : Entry) : Bool := e.toNat.testBit 121
def Entry.key (e : Entry) : Nat := e.fld 119 60
/-- TYPE ‖ KEY: the search word of R402. -/
def Entry.search (e : Entry) : Nat := e.type * 2 ^ 60 + e.key
/-- ACT, POL_EN, SC, QUEUE and POLICER: bits [59:0]. -/
def Entry.action (e : Entry) : Nat := e.fld 59 0

/-- The XOR of all 128 bits is 0 (R399). -/
def Entry.sound (e : Entry) : Bool := decide (popFrom e.toNat 128 % 2 = 0)

/-- An entry with the parity bit computed. -/
def withParity (n : Nat) : Entry :=
  let m := n % 2 ^ 127
  BitVec.ofNat 128 (m + (popFrom m 127 % 2) * 2 ^ 127)

/-- An entry written with V, HIT, LEARNED given and P computed (R415). -/
def Entry.written (e : Entry) (hit learned : Bool) : Entry :=
  withParity (setBits (setBits (setBits e.toNat 126 126 1) 122 122 (b2n hit)) 121 121 (b2n learned))

/-- An entry's HIT bit set or cleared, P kept true. -/
def Entry.withHit (e : Entry) (h : Bool) : Entry := withParity (setBits e.toNat 122 122 (b2n h))

/-- An image that ADD, UPDATE, DELETE, LOOKUP and FLUSH accept (R415). -/
def Entry.imageOk (e : Entry) : Bool :=
  decide (e.type ≠ 3) && decide (e.fld 59 58 < 2) && decide (e.fld 120 120 = 0) && decide (e.fld 56 56 = 0) &&
  decide (e.fld 19 18 = 0) &&
  (if e.type = 1 then decide (e.fld 100 60 = 0) else if e.type = 2 then decide (e.fld 103 60 = 0) else true)

/-- The search word of a DA key (R400). -/
def daSearch (domain mac : Nat) : Nat := domain % 2 ^ 12 * 2 ^ 48 + mac % 2 ^ 48
/-- The search word of a PORT key. -/
def portSearch (port vid : Nat) : Nat := 2 ^ 60 + port % 2 ^ 7 * 2 ^ 53 + vid % 2 ^ 12 * 2 ^ 41
/-- The search word of an ANCHOR key. -/
def anchorSearch (sc : Nat) : Nat := 2 * 2 ^ 60 + sc % 2 ^ 16 * 2 ^ 44

/-! ### Hash and tables (R402 to R404) -/

/-- The CRC register after `n` bits of `w`, most significant first (R402). -/
def crcMsb (w : Nat) : Nat → Nat → Nat
  | 0, c => c
  | n + 1, c =>
    let b := (c.testBit 31) != w.testBit n
    crcMsb w n ((c * 2 % 2 ^ 32) ^^^ (if b then 0x1EDC6F41 else 0))

/-- DLT_HSEED (R403). -/
def State.hseed (s : State) : BitVec 32 := s.delta.seed.getD Config.hashSeed

/-- The hash of a search word. -/
def State.dhash (s : State) (w : Nat) : Nat := crcMsb w 64 s.hseed.toNat

/-- Main and overflow bucket of a search word. -/
def State.mainBucket (s : State) (w : Nat) : Nat := s.dhash w % 2 ^ 19
def State.overBucket (s : State) (w : Nat) : Nat := s.dhash w / 2 ^ 18

/-- A position as DLT_POS lays it out: overflow store, bucket × 4 + way (R422). -/
def dpos (ovf : Bool) (idx : Nat) : Nat := b2n ovf * 2 ^ 31 + idx

/-- The entry at a position. -/
def State.dget (s : State) (p : Nat) : Entry :=
  if 2 ^ 31 ≤ p then Tbl.get 0 s.delta.overflow (p % 2 ^ 31) else Tbl.get 0 s.delta.main p

/-- An entry written at a position; DLT_USED follows V (R424). -/
def State.dset (s : State) (p : Nat) (e : Entry) : State :=
  let old := s.dget p
  let s1 := if 2 ^ 31 ≤ p then { s with delta := { s.delta with overflow := Tbl.set 0 s.delta.overflow (p % 2 ^ 31) e } }
    else { s with delta := { s.delta with main := Tbl.set 0 s.delta.main p e } }
  s1.wr DLT_USED.ENTRIES (s.rd DLT_USED.ENTRIES + b2n e.valid - b2n old.valid)

/-- The positions of a key's two buckets: main, then overflow. -/
def State.dways (s : State) (w : Nat) : List Nat :=
  (List.range 4).map (fun k => s.mainBucket w * 4 + k) ++ (List.range 4).map (fun k => 2 ^ 31 + s.overBucket w * 4 + k)

/-- A way whose parity fails is detected (R419): detector 0 lookup, 1 learn, 2 command, 3 Eddy-scan. -/
def State.parityAt (s : State) (det p : Nat) : State :=
  if (s.dget p).sound then s
  else ((s.count Ctrs.PAR_ERR).mark DLT_STAT.PAR_ERR).report 0x61
    (p % 2 ^ 31 / 4 + b2n (decide (2 ^ 31 ≤ p)) * 2 ^ 19 + (p % 4) * 2 ^ 20 + det * 2 ^ 22)

/-- The position of the entry that a search word hits (R404). -/
def State.dfind (s : State) (w : Nat) : Option Nat :=
  (s.dways w).find? (fun p => (s.dget p).valid && (s.dget p).sound && decide ((s.dget p).search = w))

/-- A lookup of a search word: parity failures detected on the way, then the hit (R404, R419). -/
def State.dlookup (s : State) (det w : Nat) : Option Nat × State :=
  (s.dfind w, (s.dways w).foldl (fun a p => a.parityAt det p) s)

/-- Bit errors that the tables have developed: position and pattern. -/
def State.dflip (s : State) (l : List (Nat × Entry)) : State := l.foldl (fun a x => a.dset x.1 (a.dget x.1 ^^^ x.2)) s

/-! ### Insertion (R414, R416) -/

/-- A way is free: V is 0 and its parity is sound (R416). -/
def State.dfree (s : State) (p : Nat) : Bool := !(s.dget p).valid && (s.dget p).sound

/-- The lowest free way of the main bucket of a search word. -/
def State.freeMain (s : State) (w : Nat) : Option Nat :=
  ((List.range 4).map (fun k => s.mainBucket w * 4 + k)).find? s.dfree

/-- The lowest free way of the overflow bucket. -/
def State.freeOver (s : State) (w : Nat) : Option Nat :=
  ((List.range 4).map (fun k => 2 ^ 31 + s.overBucket w * 4 + k)).find? s.dfree

/-- DELTA_RELOCATE (R416): the lowest way of the overflow bucket whose entry can move to its main bucket is freed. -/
def State.relocate (s : State) (w : Nat) : Option Nat × State :=
  match ((List.range 4).map (fun k => 2 ^ 31 + s.overBucket w * 4 + k)).find? (fun p =>
      (s.dget p).sound && (s.freeMain (s.dget p).search).isSome) with
  | none => (none, s)
  | some p =>
    match s.freeMain (s.dget p).search with
    | none => (none, s)
    | some q => (some p, ((s.dset q (s.dget p)).dset p 0).count Ctrs.RELOCS)

/-- An entry put in the lowest free way, relocating one if needed; none when it cannot be placed (R414, R416). -/
def State.dinsert (s : State) (e : Entry) : Option Nat × State :=
  match s.freeMain e.search with
  | some p => (some p, s.dset p e)
  | none =>
    match s.freeOver e.search with
    | some p => (some p, s.dset p e)
    | none =>
      match s.relocate e.search with
      | (some p, s1) => (some p, s1.dset p e)
      | (none, s1) => (none, (s1.count Ctrs.FULL).mark DLT_STAT.FULL)

/-! ### Commands (R414 to R418) -/

/-- What an operation comes to: STATUS, the position found or written, the image returned. -/
structure DeltaRes where
  status : Nat
  pos : Option Nat := none
  image : Option Entry := none
  deriving DecidableEq, Repr

/-- A position that READ and CLEAR accept (R418, R422). -/
def posOk (p : Nat) : Bool := decide (p < 2 ^ 21) || (decide (2 ^ 31 ≤ p) && decide (p < 2 ^ 31 + 2 ^ 16))

/-- An operation but FLUSH carried out. -/
def State.deltaAct (s : State) (op : Nat) (e : Entry) (pos : Nat) : DeltaRes × State :=
  if op = 4 ∨ op = 5 then
    if !posOk pos then ({ status := 1 }, s)
    else if op = 5 then ({ status := 0, pos := some pos }, s.dset pos 0)
    else
      let x := s.dget pos
      ({ status := if x.sound then 0 else 5, pos := some pos, image := some x }, s.parityAt 2 pos)
  else if 6 < op ∨ !e.imageOk then ({ status := 1 }, s)
  else
    let (f, s1) := s.dlookup 2 e.search
    match op, f with
    | 0, some p => ({ status := 0, pos := some p, image := some (s1.dget p) }, s1)
    | 1, some p => ({ status := 3, pos := some p }, s1)
    | 2, some p => ({ status := 0, pos := some p }, s1.dset p (e.written (s1.dget p).hit false))
    | 3, some p => ({ status := 0, pos := some p }, s1.dset p 0)
    | 1, none =>
      match s1.dinsert (e.written true false) with
      | (some p, s2) => ({ status := 0, pos := some p }, s2)
      | (none, s2) => ({ status := 4 }, s2)
    | _, _ => ({ status := 2 }, s1)

/-- FLUSH starts, or finds one running (R417); `reg` says that DLT_CMD waits for it. -/
def State.flushStart (s : State) (e : Entry) (reg : Bool) : Option Nat × State :=
  if !e.imageOk then (some 1, s)
  else if s.is DLT_STAT.FLUSH then (some 6, s)
  else (none, ({ s with delta := { s.delta with flush := some (e.fld 119 108, reg), fresh := [] } }).mark DLT_STAT.FLUSH)

/-- A DLT_CMD operation completes. -/
def State.dltDone (s : State) (status : Nat) : State := (s.wr DLT_CMD.STATUS status).unmark DLT_CMD.BUSY

/-- The objects of an operation (R24): the key it names and the position it found, wrote or names. -/
def deltaObjects (op : Nat) (e : Entry) (r : DeltaRes) : List (Nat × Nat) :=
  (if op < 4 then [(20, e.search)] else []) ++ r.pos.toList.map (fun p => (21, p))

/-- A DLT_CMD operation leaves its results in the registers (R414, R418). -/
def State.dltFinish (s : State) (h : HeldCmd) : State :=
  let s1 := match h.pos with
    | some p => s.setReg .DLT_POS (BitVec.ofNat 64 p)
    | none => s
  let s2 := match h.image with
    | some ws => (s1.setReg .DLT_DATA0 (ws.getD 0 0)).setReg .DLT_DATA1 (ws.getD 1 0)
    | none => s1
  s2.dltDone h.status

/-- The image in DLT_DATA1 and DLT_DATA0. -/
def State.dltImage (s : State) : Entry := (s.reg .DLT_DATA1) ++ (s.reg .DLT_DATA0)

/-- A write to DLT_CMD with OP `op` (R414, R417, R421): dropped while BUSY is 1. The operation acts in the order of arrival
and completes after the operations of threads on the same object that arrived before it (R24). -/
def State.dltCmd (s : State) (op : Nat) : State :=
  if s.is DLT_CMD.BUSY then s.mark DLT_STAT.CMD_DROP
  else
    let s0 := (s.wr DLT_CMD.OP op).mark DLT_CMD.BUSY
    if op = 6 then
      match s0.flushStart s.dltImage true with
      | (some st, s1) => s1.dltDone st
      | (none, s1) => s1
    else
      let (r, s1) := s0.deltaAct op s.dltImage (s.reg .DLT_POS).toNat
      let objs := deltaObjects op s.dltImage r
      let h : HeldCmd := { objects := objs, waits := s1.opsOn objs, status := r.status, pos := r.pos
                           image := r.image.map (fun (x : Entry) => [x.setWidth 64, (x >>> 64).setWidth 64]) }
      if h.waits = [] then s1.dltFinish h else { s1 with delta := { s1.delta with held := some h } }

/-- RESULT[55:24] of TBL for a position (R392). -/
def tblResult (p : Nat) : Nat :=
  if 2 ^ 31 ≤ p then 2 ^ 21 + p % 2 ^ 16 else (p % 4) * 2 ^ 19 + p / 4

/-- A TBL descriptor is well formed (R386, R388, R392). -/
def tblForm (d : Octets) : Bool :=
  decide (descOp d ≤ 6) && decide (descFlags d = 0) && descCommon d (decide (descOp d = 0) || decide (descOp d = 4)) &&
  descZero d 32 32

/-- TBL carried out (R392); FLUSH completes at FLUSH_END. -/
def tblAct (o : EngineOp) (s : State) : EngineOp × State :=
  let d := o.desc
  let op := descOp d
  let e : Entry := BitVec.ofNat 128 (descField d 16 16)
  if !tblForm d ∨ (op ≠ 4 ∧ op ≠ 5 ∧ descObject d ≠ 0) then (o.fail 1, s)
  else if op = 6 then
    match s.flushStart e false with
    | (some st, s1) => (o.fail st, s1)
    | (none, s1) => (o, s1)
  else
    let (r, s1) := s.deltaAct op e (descObject d)
    ({ o with acted := true, status := r.status, result := (r.pos.map tblResult).getD 0,
              out := match r.image with | some x => leBytes 16 x.toNat | none => []
              objects := deltaObjects op e r }, s1)

/-- A Delta operation by either path. -/
def State.deltaOp (s : State) (p : Path) (op : Nat) : Host.Outcome State Fault Refusal :=
  match p with
  | .register => .next (s.dltCmd op)
  | .thread t tag rs => s.engineCall 0x51 t tag.toNat rs (fun d => decide (descOp d = op)) tblAct

/-- DELTA_LOOKUP (R414). -/
def execDeltaLookup (p : Path) (s : State) : Host.Outcome State Fault Refusal := s.deltaOp p 0
/-- DELTA_ADD (R414 to R416). -/
def execDeltaAdd (p : Path) (s : State) : Host.Outcome State Fault Refusal := s.deltaOp p 1
/-- DELTA_UPDATE (R414, R415). -/
def execDeltaUpdate (p : Path) (s : State) : Host.Outcome State Fault Refusal := s.deltaOp p 2
/-- DELTA_DELETE (R414). -/
def execDeltaDelete (p : Path) (s : State) : Host.Outcome State Fault Refusal := s.deltaOp p 3
/-- DELTA_READ (R414, R419); `flips`: bit errors of the tables. -/
def execDeltaRead (p : Path) (flips : List (Nat × BitVec 128)) (s : State) : Host.Outcome State Fault Refusal :=
  (s.dflip flips).deltaOp p 4
/-- DELTA_CLEAR (R414). -/
def execDeltaClear (p : Path) (s : State) : Host.Outcome State Fault Refusal := s.deltaOp p 5
/-- DELTA_FLUSH (R414, R417). -/
def execDeltaFlush (p : Path) (s : State) : Host.Outcome State Fault Refusal := s.deltaOp p 6
/-- DELTA_CMD_INVALID (R414): OP 7, or by TBL any OP above 6. -/
def execDeltaCmdInvalid (p : Path) (s : State) : Host.Outcome State Fault Refusal :=
  match p with
  | .register => .next (s.dltCmd 7)
  | .thread t tag rs => s.engineCall 0x51 t tag.toNat rs (fun d => decide (7 ≤ descOp d)) tblAct

/-- Of the search words learned while a FLUSH ran, those whose entries survive it: which do is free (R417). -/
def State.survivors (s : State) : List Nat → List Nat × State
  | [] => ([], s)
  | k :: t =>
    let (w, s1) := s.draw
    let (l, s2) := s1.survivors t
    (if w.getLsbD 0 then k :: l else l, s2)

/-- Every learned DA entry of a domain that is not static removed, `kept` apart (R414, R417). -/
def State.flushDomain (s : State) (dom : Nat) (kept : List Nat) : State :=
  let goes := fun (e : Entry) => e.valid && e.sound && decide (e.type = 0) && decide (e.fld 119 108 = dom) && e.learned &&
    !e.static && !kept.contains e.search
  let s1 := (s.delta.main.filter (fun x => goes x.2)).foldl (fun a x => a.dset x.1 0) s
  (s.delta.overflow.filter (fun x => goes x.2)).foldl (fun a x => a.dset (2 ^ 31 + x.1) 0) s1

/-- FLUSH_END (R417). -/
def execFlushEnd (s : State) : Host.Outcome State Fault Refusal :=
  match s.delta.flush with
  | none => .next s
  | some (dom, reg) =>
    let (kept, s0) := s.survivors s.delta.fresh
    let s1 := s0.flushDomain dom kept
    let s2 := ({ s1 with delta := { s1.delta with flush := none, fresh := [] } }).unmark DLT_STAT.FLUSH
    if reg then .next (s2.dltDone 0)
    else .next { s2 with tide := { s2.tide with ops := s2.tide.ops.map (fun o =>
      if o.engine = 2 ∧ descOp o.desc = 6 then { o with acted := true } else o) } }

/-- DLT_HSEED_WRITE (R403): refused unless both tables are empty. -/
def execDltHseedWrite (v : BitVec 32) (s : State) : Host.Outcome State Fault Refusal :=
  .next (if s.delta.main = [] ∧ s.delta.overflow = [] then { s with delta := { s.delta with seed := some v } }
    else s.mark DLT_STAT.REJECT)

/-! ### Learning (R408 to R410) -/

/-- A learn request joins the queue, or is dropped (R410). -/
def State.learnAsk (s : State) (q : LearnReq) : State :=
  if s.delta.learn.length < 4096 then { s with delta := { s.delta with learn := s.delta.learn ++ [q] } }
  else (s.count Ctrs.LEARN_DROP).mark DLT_STAT.LEARN_DROP

/-- The action of an entry with its HIT and LEARNED bits set by learning (R409): a DA entry of a request. -/
def learnedEntry (q : LearnReq) (anchor : Entry) : Entry :=
  Entry.written (BitVec.ofNat 128 (daSearch q.domain q.mac * 2 ^ 60 + anchor.action)) true true

/-- A search word learned: remembered while a FLUSH runs (R417). -/
def State.learned (s : State) (w : Nat) : State :=
  if s.delta.flush.isSome then { s with delta := { s.delta with fresh := w :: s.delta.fresh.erase w } } else s

/-- A learn request handled (R409). -/
def State.learn (s : State) (q : LearnReq) : State :=
  let (a, s1) := s.dlookup 1 (anchorSearch q.sc)
  match a with
  | none => s1.count Ctrs.LEARN_NOANCHOR
  | some ap =>
    let anchor := s1.dget ap
    let (f, s2) := s1.dlookup 1 (daSearch q.domain q.mac)
    match f with
    | none =>
      match s2.dinsert (learnedEntry q anchor) with
      | (some _, s3) => (s3.learned (daSearch q.domain q.mac)).count Ctrs.LEARNED
      | (none, s3) => s3.count Ctrs.LEARN_FULL
    | some p =>
      let e := s2.dget p
      let same := decide (e.action = anchor.action)
      if e.static then (if same then s2 else s2.count Ctrs.MOVE_STATIC)
      else if same then s2.dset p (e.withHit true)
      else ((s2.dset p (learnedEntry q anchor)).learned (daSearch q.domain q.mac)).count Ctrs.MOVES

/-- LEARN_REQUEST (R409): the oldest request of the queue; `flips`: bit errors of the tables. -/
def execLearnRequest (flips : List (Nat × BitVec 128)) (s : State) : Host.Outcome State Fault Refusal :=
  match s.delta.learn with
  | [] => .next s
  | q :: t => .next ((State.dflip { s with delta := { s.delta with learn := t } } flips).learn q)

/-! ### Ageing (R412, R413) -/

/-- EDDY_SCAN_PASS_START (R412). -/
def execEddyScanPassStart (s : State) : Host.Outcome State Fault Refusal :=
  if s.is DLT_AGE.EN ∧ !s.is DLT_STAT.SCAN ∧ s.is GAU_STAT.RUN s.recordGroup ∧ max 2 (s.rd DLT_AGE.PERIOD) ≤ s.delta.sinceMf then
    .next (State.mark { s with delta := { s.delta with scan := 0, sinceMf := 0 } } DLT_STAT.SCAN)
  else .next s

/-- A way under Eddy-scan (R413). -/
def State.ageWay (s : State) (p : Nat) : State :=
  let e := s.dget p
  if !e.sound then s.parityAt 3 p
  else if !e.valid ∨ e.type ≠ 0 ∨ e.static then s
  else if e.hit then s.dset p (e.withHit false)
  else (s.dset p 0).count Ctrs.AGED

/-- EDDY_SCAN_BUCKET (R412, R413): the next bucket of the pass; buckets from 524,288 on are the overflow store's. A pass
waits while EN is 0 (DESIGN CHOICE). -/
def execEddyScanBucket (flips : List (Nat × BitVec 128)) (s : State) : Host.Outcome State Fault Refusal :=
  if !s.is DLT_STAT.SCAN ∨ !s.is DLT_AGE.EN then .next s
  else
    let b := s.delta.scan
    let base := if b < 524288 then b * 4 else 2 ^ 31 + (b - 524288) * 4
    let s1 := (List.range 4).foldl (fun a k => a.ageWay (base + k)) (s.dflip flips)
    let s2 := { s1 with delta := { s1.delta with scan := b + 1 } }
    .next (if b + 1 = 540672 then s2.unmark DLT_STAT.SCAN else s2)

end Sys2Proof.Machine
end

