-- ==== Sys2Proof/Machine/Clock.lean ====
section
/-! DEFINITION. Network time: its value at a Tick, corrections, 1PPS, and time-stamps of PTP event messages
(chapter 19). Times are counted in units of 2^−16 ns. -/

namespace Sys2Proof.Machine

open Sys2Proof

namespace Ctrs
def ADJ_REFUSED : CtrId := ⟨0x15, 0⟩
def PPS_GLITCH : CtrId := ⟨0x15, 1⟩
def PPS_SKIP : CtrId := ⟨0x15, 2⟩
def TS_RX : CtrId := ⟨0x16, 0⟩
def TS_TX : CtrId := ⟨0x16, 1⟩
def TS_OVF : CtrId := ⟨0x16, 2⟩
end Ctrs

/-! ### Network time (R638 to R641) -/

/-- A second, in units of 2^−16 ns. -/
def second : Nat := 10 ^ 9 * 2 ^ 16

/-- Seconds wrap modulo 2^48 (R638). -/
def timeWrap (t : Nat) : Nat := t % (2 ^ 48 * second)

/-- Time passed in `n` Ticks at a signed RATE, rounded down (R638). -/
def elapsed (n rate : Nat) : Nat := (n * 2 ^ 17 * ((2 ^ 40 : Int) + signed 32 rate).toNat) / (3 * 2 ^ 40)

/-- Network time at a Tick (R638, R641). -/
def State.timeAt (s : State) (k : BitVec 64) : Nat :=
  if s.is CLK_STAT.VALID then timeWrap (s.clock.base + elapsed (k - s.clock.baseTick).toNat (s.rd CLK_RATE.RATE))
  else timeWrap (elapsed k.toNat 0)

/-- Network time now. -/
def State.timeNow (s : State) : Nat := s.timeAt s.tick

/-- SEC, NS and FRAC of a time. -/
def timeSec (t : Nat) : Nat := t / second
def timeNs (t : Nat) : Nat := t % second / 2 ^ 16
def timeFrac (t : Nat) : Nat := t % 2 ^ 16

/-- CLK_TIME0 and CLK_TIME1 for a time (R650). -/
def time0 (t : Nat) : Word := BitVec.ofNat 64 (timeNs t * 2 ^ 32 + timeFrac t * 2 ^ 16)
def time1 (t : Nat) : Word := BitVec.ofNat 64 (timeSec t)

/-- BASE_TIME and BASE_TICK set at the present Tick (R639). -/
def State.rebase (s : State) (t : Nat) : State := { s with clock := { s.clock with base := timeWrap t, baseTick := s.tick } }

/-! ### Corrections (R641 to R643) -/

/-- CLK_SET (R641): refused while VALID is 1. -/
def execClkSet (s : State) : Host.Outcome State Fault Refusal :=
  if s.is CLK_STAT.VALID then .next (s.mark CLK_STAT.REFUSED)
  else
    let t := s.rd CLK_SET1.SEC * second + s.rd CLK_SET0.NS * 2 ^ 16 + s.rd CLK_SET0.FRAC
    .next ((s.rebase t).mark CLK_STAT.VALID)

/-- The signed step of CLK_ADJ. -/
def State.adjStep (s : State) : Int := signed 64 (s.reg .CLK_ADJ).toNat

/-- CLK_ADJ (R642, R643). -/
def execClkAdj (s : State) : Host.Outcome State Fault Refusal :=
  let step := s.adjStep
  if (s.rd CLK_JUMP.JUMP : Int) * 2 ^ 16 < step.natAbs then
    .next (((s.mark CLK_STAT.REFUSED).count Ctrs.ADJ_REFUSED).raiseEvent 0x0B 0 (s.reg .CLK_ADJ))
  else if !s.is CLK_STAT.VALID then .next s
  else .next (s.rebase (((s.timeNow : Int) + step) % (2 ^ 48 * second : Nat)).toNat)

/-- CLK_INVAL (R641, R643). -/
def execClkInval (s : State) : Host.Outcome State Fault Refusal :=
  .next ((s.unmark CLK_STAT.VALID).raiseEvent 0x0B 0 0)

/-- CLK_RATE_WRITE (R639): time does not jump. -/
def execClkRateWrite (v : BitVec 32) (s : State) : Host.Outcome State Fault Refusal :=
  .next ((if s.is CLK_STAT.VALID then s.rebase s.timeNow else s).wr CLK_RATE.RATE v.toNat)

/-- A write of a word to CLK_CMD (R650): a write with two bits set is ignored. -/
def State.clkCmdWrite (s : State) (v : Word) : Host.Outcome State Fault Refusal :=
  match CLK_CMD.SET.of v, CLK_CMD.ADJ.of v, CLK_CMD.INVAL.of v with
  | 1, 0, 0 => execClkSet s
  | 0, 1, 0 => execClkAdj s
  | 0, 0, 1 => execClkInval s
  | _, _, _ => .next s

/-- CLK_TIME_LATCH (R650): a read of CLK_TIME0 latches CLK_TIME1 and CLK_TICK for the same master. -/
def State.latchTime (s : State) (m : Master) : State :=
  let t := s.timeNow
  ((s.latch m (Reg.CLK_TIME0.off 0 0) (time0 t)).latch m (Reg.CLK_TIME1.off 0 0) (time1 t)).latch m
    (Reg.CLK_TICK.off 0 0) s.tick

/-- CLK_TIME_LATCH (R650). -/
def execClkTimeLatch (m : Master) (wide : Bool) (s : State) : Host.Outcome State Fault Refusal :=
  .next ((s.latchTime m).emit (.readReply m (some (leBytes (if wide then 8 else 4) (time0 s.timeNow).toNat))))

/-! ### 1PPS (R644, R645) -/

/-- PPS_IN_EDGE (R644): a rising edge at Tick `now`. -/
def execPpsInEdge (now : Word) (s : State) : Host.Outcome State Fault Refusal :=
  let s1 := s.timeTo now
  let glitch := match s.clock.edge with
    | some e => decide ((s1.tick - e).toNat < 150000000)
    | none => false
  if glitch then .next (s1.count Ctrs.PPS_GLITCH)
  else
    let t := s1.timeNow
    let s2 := { s1 with clock := { s1.clock with edge := some s1.tick } }
    .next ((((s2.setReg .CLK_PPSIN0 (time0 t)).setReg .CLK_PPSIN1 (time1 t)).setReg .CLK_PPSTICK s1.tick).mark
      CLK_STAT.PPS_SEEN)

/-- Seconds from `a` to `b` when `b` lies ahead, modulo 2^48; 0 when it does not. -/
def secondsAhead (a b : Nat) : Nat :=
  let d := (b + 2 ^ 48 - a % 2 ^ 48) % 2 ^ 48
  if d < 2 ^ 47 then d else 0

/-- PPS_OUT_PULSE (R645): at Tick `now`, the first whose time is at or after the next whole second. -/
def execPpsOutPulse (now : Word) (s : State) : Host.Outcome State Fault Refusal :=
  let s1 := s.timeTo now
  let sec := timeSec s1.timeNow
  let d := secondsAhead s.clock.pulsed sec
  if !s.is CLK_PPS.PPS_OUT_EN ∨ d = 0 then .next s1
  else
    let s2 := { s1 with clock := { s1.clock with pulsed := sec, high := some s1.tick } }
    .next ((if 1 < d then s2.count Ctrs.PPS_SKIP 0 (d - 1) else s2).emit (.ppsOut true))

/-- PPS_OUT_FALL (R645): WIDTH ms after the rise. -/
def execPpsOutFall (now : Word) (s : State) : Host.Outcome State Fault Refusal :=
  let s1 := s.timeTo now
  match s.clock.high with
  | none => .next s1
  | some t =>
    if (s1.tick - t).toNat < max 1 (s.rd CLK_PPS.WIDTH) * 1500000 then .next s1
    else .next (State.emit { s1 with clock := { s1.clock with high := none } } (.ppsOut false))

/-- A write to CLK_PPS: setting PPS_OUT_EN takes the present second as the last pulsed (DESIGN CHOICE). -/
def State.clkPpsWrite (s : State) (v : Word) : State :=
  let s1 := s.plainWrite .CLK_PPS v
  if s1.is CLK_PPS.PPS_OUT_EN ∧ !s.is CLK_PPS.PPS_OUT_EN then
    { s1 with clock := { s1.clock with pulsed := timeSec s.timeNow } } else s1

/-! ### PTP event messages (R646 to R648) -/

/-- Two octets of a frame, most significant first. -/
def be16 (f : Octets) (o : Nat) : Nat := beNat (slice f o 2)

/-- Where the EtherType of a frame stands behind at most `n` VLAN tags. -/
def typeAt (f : Octets) (o : Nat) : Nat → Nat
  | 0 => o
  | n + 1 => if be16 f o = 0x8100 ∨ be16 f o = 0x88A8 then typeAt f (o + 4) n else o

/-- A carrier of PTP messages: where the message starts, where a UDP checksum stands, and whether it is IPv6
(R646; PRESUMED: the header layouts of IEEE 802.3, IPv4, IPv6 and UDP). -/
structure PtpAt where
  msg : Nat
  udp : Option Nat
  v6 : Bool
  deriving DecidableEq, Repr

/-- The PTP carrier of a frame, if it is one. -/
def ptpCarrier (f : Octets) : Option PtpAt :=
  let o := typeAt f 12 2
  let p := o + 2
  if be16 f o = 0x88F7 then some ⟨p, none, false⟩
  else if be16 f o = 0x0800 then
    let u := p + beNat (slice f p 1) % 16 * 4
    if beNat (slice f (p + 9) 1) = 17 ∧ be16 f (u + 2) = 319 then some ⟨u + 8, some (u + 6), false⟩ else none
  else if be16 f o = 0x86DD then
    if beNat (slice f (p + 6) 1) = 17 ∧ be16 f (p + 42) = 319 then some ⟨p + 48, some (p + 46), true⟩ else none
  else none

/-- The carrier of an event message: messageType 0 to 3, majorVersionPTP 2 (R646; PRESUMED: IEEE 1588-2019 header). -/
def ptpEvent (f : Octets) : Option PtpAt :=
  (ptpCarrier f).filter (fun a => decide (beNat (slice f a.msg 1) % 16 ≤ 3) && decide (beNat (slice f (a.msg + 1) 1) % 16 = 2) &&
    decide (a.msg + 34 ≤ f.length))

/-- The stamp of an event message that passes a port at the present Tick (R646). -/
def State.stampOf (s : State) (port : Nat) (out oneStep : Bool) (f : Octets) (a : PtpAt) : Stamp :=
  let dly := if out then s.rd CLK_DLY.TX_DLY port else s.rd CLK_DLY.RX_DLY port
  { out := out, valid := s.is CLK_STAT.VALID, oneStep := oneStep, msgType := beNat (slice f a.msg 1) % 16
    domain := beNat (slice f (a.msg + 4) 1), seqId := be16 f (a.msg + 30), time := timeWrap (s.timeNow + dly * 2 ^ 8) }

/-- The FIFO of a port. -/
def State.stamps (s : State) (port : Nat) : List Stamp := Tbl.get [] s.clock.stamps port

/-- The FIFO of a port set; USED follows. -/
def State.setStamps (s : State) (port : Nat) (l : List Stamp) : State :=
  State.wr { s with clock := { s.clock with stamps := Tbl.set [] s.clock.stamps port l } } CLK_PTP.USED l.length port

/-- A stamp enters the port's FIFO, or is dropped (R647). -/
def State.pushStamp (s : State) (port : Nat) (x : Stamp) : State :=
  if (s.stamps port).length < 128 then
    (s.setStamps port (s.stamps port ++ [x])).count (if x.out then Ctrs.TS_TX else Ctrs.TS_RX) port
  else (s.mark CLK_PTP.TS_OVF port).count Ctrs.TS_OVF port

/-- A frame passes a client port: an event message is stamped while TS_EN is 1 (R646). -/
def State.ptpStamp (s : State) (port : Nat) (out : Bool) (f : Octets) : State :=
  if port < 72 ∧ s.is CLK_PTP.TS_EN port then
    match ptpEvent f with
    | some a => s.pushStamp port (s.stampOf port out false f a)
    | none => s
  else s

/-- A Sync message with the stamp written into originTimestamp and the fraction added to correctionField (R648). -/
def oneStepFrame (f : Octets) (a : PtpAt) (t : Nat) : Octets :=
  let f1 := splice f (a.msg + 34) (beBytes 6 (timeSec t) ++ beBytes 4 (timeNs t))
  let f2 := splice f1 (a.msg + 8) (beBytes 8 ((beNat (slice f (a.msg + 8) 8) + timeFrac t) % 2 ^ 64))
  match a.udp with
  | some u => splice f2 u [0, 0]
  | none => f2

/-- The words of CLK_TSA and CLK_TSB for an entry (R650). -/
def stampA (x : Stamp) : Word := BitVec.ofNat 64 (timeNs x.time * 2 ^ 32 + timeSec x.time % 2 ^ 32)
def stampB (x : Stamp) : Word :=
  BitVec.ofNat 64 (2 ^ 63 + b2n x.out * 2 ^ 62 + b2n x.valid * 2 ^ 61 + b2n x.oneStep * 2 ^ 60 + x.msgType * 2 ^ 56 +
    x.domain * 2 ^ 48 + x.seqId * 2 ^ 32 + timeSec x.time / 2 ^ 32 * 2 ^ 16 + timeFrac x.time)

/-- A read of CLK_TSBn (R650): the FIFO head is removed and its other half stands in CLK_TSAn; an empty FIFO reads 0. -/
def State.tsbRead (s : State) (m : Master) (port : Nat) : Word × State :=
  match s.stamps port with
  | [] => (0, (s.latch m (Reg.CLK_TSB.off port 0) 0).latch m (Reg.CLK_TSA.off port 0) (s.reg .CLK_TSA port))
  | x :: t => (stampB x, (((s.setStamps port t).setReg .CLK_TSA (stampA x) port).latch m (Reg.CLK_TSB.off port 0)
      (stampB x)).latch m (Reg.CLK_TSA.off port 0) (stampA x))

/-- CLK_TSB_READ (R650). -/
def execClkTsbRead (m : Master) (n : Port) (wide : Bool) (s : State) : Host.Outcome State Fault Refusal :=
  let (w, s1) := s.tsbRead m n
  .next (s1.emit (.readReply m (some (leBytes (if wide then 8 else 4) w.toNat))))

end Sys2Proof.Machine
end

