-- ==== Sys2Proof/Machine/HostIf.lean ====
section
/-! DEFINITION. Host interface: rings, doorbells, fetches, the frame rings, interrupts' timers, the BAR2 window and the
configuration space (R672 to R691). Host memory is outside the model: what it returns comes with the command. -/

namespace Sys2Proof.Machine

open Sys2Proof

/-! ### Command rings (R677 to R682, R691) -/

/-- Entries from `a` on to `b` in a ring. -/
def ringGap (size a b : Nat) : Nat := (b + size - a % size) % size

/-- A doorbell write (R680): CQ_HEAD that would pass CQ_TAIL is ignored with DB_ERR; a disabled ring takes none. -/
def State.doorbell (s : State) (r : Nat) (v : Word) : State :=
  if !s.is HIF_RCFG.EN r then s
  else
    let x := s.ring r
    let n := s.ringSize r
    let s1 := if HIF_DB.SQ_V.of v = 1 then s.setRing r { x with sqTail := HIF_DB.SQ_TAIL.of v % n } else s
    if HIF_DB.CQ_V.of v = 0 then s1
    else
      let h := HIF_DB.CQ_HEAD.of v
      let d := ringGap n x.cqHead h
      if n ≤ h ∨ ringGap n x.cqHead (s.rd HIF_RIDX.CQ_TAIL r) < d then (s1.mark HIF_RSTAT.DB_ERR r).raiseCause 4
      else
        let y := s1.ring r
        (s1.setRing r { y with cqHead := h }).wr HIF_RSTAT.OUTST (s.rd HIF_RSTAT.OUTST r - d) r

/-- A doorbell write posts descriptors into slots that have not yet been fetched: a host error (R680). -/
def State.postsUnfetched (s : State) (r : Nat) (v : Word) : Bool :=
  let n := s.ringSize r
  let waiting := ringGap n (s.rd HIF_RIDX.SQ_HEAD r) (s.ring r).sqTail
  s.is HIF_RCFG.EN r && decide (HIF_DB.SQ_V.of v = 1) && decide (n < waiting + ringGap n (s.ring r).sqTail (HIF_DB.SQ_TAIL.of v % n))

/-- HIF_DOORBELL (R680). -/
def execHifDoorbell (r : RingNo) (v : Word) (s : State) : Host.Outcome State Fault Refusal :=
  guardRsvd .HIF_DB v (if s.postsUnfetched r v then .fault .hostError else .next (s.doorbell r v))

/-- The ring can fetch (R677, R681). -/
def State.canFetch (s : State) (r : Nat) : Bool :=
  s.is HIF_RCFG.EN r && !(s.ring r).disabling && !s.is HIF_RSTAT.HALTED r && s.host.busMaster &&
  decide (s.rd HIF_RIDX.SQ_HEAD r ≠ (s.ring r).sqTail) && decide (s.rd HIF_RSTAT.OUTST r + 1 < s.ringSize r)

/-- Eight words of a descriptor. -/
def descWords (o : Octets) : List Word := (List.range 8).map (fun k => BitVec.ofNat 64 (leNat (slice o (8 * k) 8)))

/-- A descriptor that has been fetched (R678, R681). -/
def State.fetchedDesc (s : State) (r : Nat) (o : Octets) : State :=
  let h := s.rd HIF_RIDX.SQ_HEAD r
  let x := s.ring r
  let d : Desc := { slot := h, tag := leNat (slice o 0 2), words := descWords o }
  ((s.setRing r { x with fetched := x.fetched ++ [d], owed := x.owed + 1 }).wr HIF_RIDX.SQ_HEAD
    ((h + 1) % s.ringSize r) r).wr HIF_RSTAT.OUTST (s.rd HIF_RSTAT.OUTST r + 1) r

/-- RING_FETCH (R681, R682): `data` is what host memory returns, none for a PCIe error; a ring at an interconnect
address is read there. -/
def execRingFetch (r : RingNo) (data : Option Octets) (s : State) : Host.Outcome State Fault Refusal :=
  if !s.canFetch r then .next s
  else if s.is HIF_RCFG.LOC r then
    match s.areaRead (s.requester (.dma r)) (s.rd HIF_RBASE.BASE r + 64 * s.rd HIF_RIDX.SQ_HEAD r) 64 with
    | (.data o, s1) => .next (s1.fetchedDesc r o)
    | (_, s1) => .next (s1.haltRing r HIF_RSTAT.FETCH_ERR)
  else match data with
    | some o => .next (s.fetchedDesc r (slice o 0 64))
    | none => .next (s.haltRing r HIF_RSTAT.FETCH_ERR)

/-- A ring enabled: indices 0, PHASE 1, not halted (R679, R682). -/
def State.ringStart (s : State) (r : Nat) : State :=
  (((((s.setRing r {}).wr HIF_RIDX.SQ_HEAD 0 r).wr HIF_RIDX.CQ_TAIL 0 r).wr HIF_RIDX.PHASE 1 r).wr HIF_RSTAT.OUTST 0 r).unmark
    HIF_RSTAT.HALTED r

/-- A write to HIF_RCFGr (R691): clearing EN takes effect once work already fetched has completed. -/
def State.rcfgWrite (s : State) (r : Nat) (v : Word) : State :=
  let s1 := s.plainWrite .HIF_RCFG v r
  let en := s.is HIF_RCFG.EN r
  let size := HIF_RCFG.LOG2SZ.of v
  let same := [HIF_RCFG.LOC, HIF_RCFG.COLOUR, HIF_RCFG.VEC, HIF_RCFG.LOG2SZ].all (fun f => decide (s1.rd f r = s.rd f r))
  if size = 0 ∨ 12 < size ∨ (en ∧ !same) then s.mark HIF_STAT.REJECT
  else if en then
    if HIF_RCFG.EN.of v = 1 then s
    else
      let x := s.ring r
      s.setRing r { x with disabling := true }
  else if HIF_RCFG.EN.of v = 1 then s1.ringStart r
  else s1

/-- HIF_RCFG_WRITE (R691). -/
def execHifRcfgWrite (r : RingNo) (v : Word) (s : State) : Host.Outcome State Fault Refusal :=
  guardRsvd .HIF_RCFG v (.next (s.rcfgWrite r v))

/-- RING_DISABLE_END (R691). -/
def execRingDisableEnd (r : RingNo) (s : State) : Host.Outcome State Fault Refusal :=
  let x := s.ring r
  if x.disabling ∧ x.owed = 0 then .next ((s.setRing r { x with disabling := false }).unmark HIF_RCFG.EN r)
  else .next s

/-- MSIX_COAL_TIMER (R685): at Tick `now`, COAL_US µs after the first record since the last message. -/
def execMsixCoalTimer (r : RingNo) (now : Word) (s : State) : Host.Outcome State Fault Refusal :=
  let s1 := s.timeTo now
  let x := s.ring r
  let us := s.rd HIF_RCOAL.COAL_US r
  match x.first with
  | none => .next s1
  | some t =>
    if us = 0 ∨ x.since = 0 ∨ s1.tick.toNat < t + us * 1500 then .next s1
    else .next ((s1.setRing r { x with since := 0, first := none }).sendVec (s.rd HIF_RCFG.VEC r))

/-! ### BAR2, the host colour, the configuration space (R673, R676, R677, R685) -/

/-- Log2 of the size of BAR2. -/
def State.bar2Log (s : State) : Nat := s.rd HIF_STAT.BAR2_LOG2 + 30

/-- A write to HIF_BAR2WIN (R673). -/
def State.bar2Write (s : State) (v : Word) : State :=
  let w := HIF_BAR2WIN.WIN.of v
  if 2 ^ 36 < (w + 1) * 2 ^ s.bar2Log then s.mark HIF_STAT.REJECT else s.wr HIF_BAR2WIN.WIN w

/-- HIF_BAR2WIN_WRITE (R673). -/
def execHifBar2winWrite (v : Word) (s : State) : Host.Outcome State Fault Refusal :=
  guardRsvd .HIF_BAR2WIN v (.next (s.bar2Write v))

/-- A write to HIF_CTL (R676): Slate, and Ivory outside Factory, are refused. -/
def State.hcolourWrite (s : State) (v : Word) : State :=
  let c := HIF_CTL.HCOLOUR.of v
  if c = 2 ∨ (c = 15 ∧ !s.factory) then s.mark HIF_STAT.REJECT else s.wr HIF_CTL.HCOLOUR c

/-- HCOLOUR_WRITE (R676). -/
def execHcolourWrite (v : Word) (s : State) : Host.Outcome State Fault Refusal :=
  guardRsvd .HIF_CTL v (.next (s.hcolourWrite v))

/-- PCIE_CONFIG_WRITE (R677, R685): messages that the masks held are sent when they open. -/
def execPcieConfigWrite (busMaster msixEnable msixMask : Bool) (s : State) : Host.Outcome State Fault Refusal :=
  .next (State.flushVecs { s with host := { s.host with
    busMaster := busMaster, msixEnable := msixEnable, msixMask := msixMask } })

/-! ### Frame rings (R683, R684) -/

/-- The FCS of a frame: the IEEE 802.3 CRC-32, in the octet order of the line. -/
def fcs (f : Octets) : Octets := leBytes 4 (Crypto.crc32 f)
/-- A stomped FCS (R122). -/
def stomp (f : Octets) : Octets := leBytes 4 (Crypto.crc32 f ^^^ 0xFFFFFFFF)
/-- The last four octets of a frame are its FCS. -/
def fcsGood (f : Octets) : Bool := decide (4 < f.length) && decide (fcs (f.dropLast.dropLast.dropLast.dropLast) = f.drop (f.length - 4))
/-- A frame without its FCS. -/
def body (f : Octets) : Octets := f.take (f.length - 4)

/-- Word `k` of a descriptor. -/
def Desc.word (d : Desc) (k : Nat) : Nat := (d.words.getD k 0).toNat

/-- Words 3 to 7 are 0, and so are the bits of words 0 and 2 that a mask does not name (R683). -/
def Desc.rsvdOk (d : Desc) (mask0 mask2 : Nat) : Bool :=
  decide (d.word 0 &&& (2 ^ 64 - 1 - mask0) = 0) && decide (d.word 2 &&& (2 ^ 64 - 1 - mask2) = 0) &&
  [3, 4, 5, 6, 7].all (fun k => decide (d.word k = 0))

/-- The oldest fetched descriptor of a ring, taken. -/
def State.takeDesc (s : State) (r : Nat) : Option Desc × State :=
  let x := s.ring r
  match x.fetched with
  | [] => (none, s)
  | d :: t => (some d, s.setRing r { x with fetched := t })

/-- The buffer of a frame descriptor read: from host memory as the command brings it, or at an interconnect address. -/
def State.frameBuffer (s : State) (r : Nat) (d : Desc) (data : Option Octets) : Option Octets × State :=
  let n := d.word 2
  if s.is HIF_RCFG.LOC r then
    match s.areaRead (s.requester (.dma r)) (d.word 1) n with
    | (.data o, s1) => (some o, s1)
    | (_, s1) => (none, s1)
  else (data.map (fun o => slice o 0 n), s)

/-- The MKA queue of a channel. -/
def State.mkaQueue (s : State) (c : Nat) : List MkaFrame := Tbl.get [] s.host.mka c
/-- The MKA queue of a channel set. -/
def State.setMkaQueue (s : State) (c : Nat) (l : List MkaFrame) : State :=
  { s with host := { s.host with mka := Tbl.set [] s.host.mka c l } }

/-- A packet line channel enabled under R227. -/
def State.chanEnabled (s : State) (c : Nat) : Bool := s.packetChan c && s.ris CH.EN c

/-- MKA_TX_DESCRIPTOR (R683, R684): the oldest fetched descriptor of ring 64; `data` is its buffer in host memory, none
when it cannot be read. -/
def execMkaTxDescriptor (data : Option Octets) (s : State) : Host.Outcome State Fault Refusal :=
  match s.takeDesc 64 with
  | (none, _) => .next s
  | (some d, s1) =>
    let c := bits (d.word 0) 27 16
    let n := d.word 2
    let refuse := fun (a : State) (st : Nat) => a.writeRecord 64 d.slot d.tag 2 st
    if !d.rsvdOk 0x0FFFFFFF 0x3FFF ∨ n < 60 ∨ 1514 < n ∨ !s1.chanEnabled c then .next (refuse s1 1)
    else match s1.frameBuffer 64 d data with
      | (none, s2) => .next (refuse s2 2)
      | (some f, s2) =>
        if be16 f 12 ≠ 0x888E ∨ 8 ≤ (s2.mkaQueue c).length then .next (refuse s2 1)
        else .next (s2.setMkaQueue c (s2.mkaQueue c ++ [{ slot := d.slot, tag := d.tag, octets := f }]))

/-- PTP_TX_DESCRIPTOR (R648, R683, R684): the oldest fetched descriptor of ring 66; the frame is stamped as it leaves. -/
def execPtpTxDescriptor (data : Option Octets) (s : State) : Host.Outcome State Fault Refusal :=
  match s.takeDesc 66 with
  | (none, _) => .next s
  | (some d, s1) =>
    let p := bits (d.word 0) 22 16
    let n := d.word 2
    let refuse := fun (a : State) (st : Nat) => a.writeRecord 66 d.slot d.tag 2 st
    if !d.rsvdOk 0x107FFFFF 0x3FFF ∨ n < 60 ∨ 1514 < n ∨ 72 ≤ p ∨ !s1.is FRM_CPORT.EN (p / 4) (p % 4) then
      .next (refuse s1 1)
    else match s1.frameBuffer 66 d data with
      | (none, s2) => .next (refuse s2 2)
      | (some f, s2) =>
        let one := bit (d.word 0) 28
        let (g, s3) := match ptpEvent f with
          | some a =>
            if !s2.is CLK_PTP.TS_EN p then (f, s2)
            else
              let does := one && decide (beNat (slice f a.msg 1) % 16 = 0) && !a.v6 && decide (a.msg + 44 ≤ f.length)
              let x := s2.stampOf p true does f a
              (if does then oneStepFrame f a x.time else f, s2.pushStamp p x)
          | none => (f, s2)
        .next ((s3.emit (.clientFrame p (g ++ fcs g) true)).writeRecord 66 d.slot d.tag 0 0)

/-- A ring 65 descriptor is in form (R683). -/
def mkaRxOk (d : Desc) : Bool := d.rsvdOk 0xFFFF 0x3FFF && decide (60 ≤ d.word 2)

/-- Leading fetched descriptors of ring 65 that are not in form are refused (R684); `fuel` bounds them. -/
def State.refuseBad (s : State) : Nat → State
  | 0 => s
  | fuel + 1 =>
    match s.takeDesc 65 with
    | (some d, s1) => if mkaRxOk d then s else (s1.writeRecord 65 d.slot d.tag 2 1).refuseBad fuel
    | (none, _) => s

/-- A received EAPOL frame, its FCS removed, goes to the MKA receive ring (R684). -/
def State.mkaReceive (s0 : State) (c : Nat) (f : Octets) : State :=
  let s := s0.refuseBad 4096
  let drop := s.satAdd HIF_RDROP.DROPPED 1 65
  if !s.is HIF_RCFG.EN 65 then drop
  else match s.takeDesc 65 with
    | (none, _) => drop
    | (some d, s1) =>
      if d.word 2 < f.length then drop
      else if !s.host.busMaster then s1.recordLost 65
      else
        let status := f.length + c * 2 ^ 16
        if s.is HIF_RCFG.LOC 65 then
          match s1.areaWrite (s1.requester (.dma 65)) (d.word 1) f with
          | (.done, s2) => s2.writeRecord 65 d.slot d.tag 0 status
          | (_, s2) => s2.recordLost 65
        else (s1.emit (.hostWrite (d.word 1) f)).writeRecord 65 d.slot d.tag 0 status

end Sys2Proof.Machine
end

