-- ==== Sys2Proof/Machine/Datapath.lean ====
section
/-! DEFINITION. What every frame meets in a Race: the keystream FIFO, lanes and words, the in-line stages with their
checkers, sample copies, withholding and the dispute (R101 to R124, R134, R138 to R140). -/

namespace Sys2Proof.Machine

open Sys2Proof

namespace Ctrs
def RC_BLOCKS : CtrId := ⟨0x01, 0⟩
def RC_FLAGS : CtrId := ⟨0x01, 1⟩
def RC_SAMPLES : CtrId := ⟨0x01, 2⟩
def KS_DISCARD : CtrId := ⟨0x01, 3⟩
def KEY_MISS : CtrId := ⟨0x01, 4⟩
def SAMPLES_DROPPED : CtrId := ⟨0x02, 3⟩
end Ctrs

/-- Counters of a Race direction (R654). -/
def raceDir (k d : Nat) : Nat := 2 * k + d

/-- The holders of a group's lease. -/
def State.holders (s : State) (g : Nat) : List Nat :=
  [s.rd WEI_LEASE.HOLDER_A g, s.rd WEI_LEASE.HOLDER_B g].filter (fun k => decide (k < 24))

/-- A Race holds the group's lease, held or lapsed (R293). -/
def State.judgeable (s : State) (g k : Nat) : Bool :=
  (decide (s.rd WEI_LEASE.STATE g = 1) || decide (s.rd WEI_LEASE.STATE g = 3)) && (s.holders g).contains k

/-- The holders that compute a channel of a group: a joiner computes none that has not joined (R307). -/
def State.computing (s : State) (g c : Nat) : List Nat :=
  (s.holders g).filter (fun k => decide (some k = (s.holders g).head?) || !(s.wgrp g).unjoined.contains c)

/-- A frame without a usable key counted at each Race that computes its channel (R140). -/
def State.raceKeyMiss (s : State) (g c d : Nat) : State :=
  (s.computing g c).foldl (fun (a : State) k => a.count Ctrs.KEY_MISS (raceDir k d)) s

/-! ### What lies in a Race: delivery rings, retained frames, L1 channels -/

/-- The delivery ring of a group. -/
def State.ringOf (s : State) (g : Nat) : List RingEntry := (s.wgrp g).ring
/-- The delivery ring of a group set. -/
def State.setRingOf (s : State) (g : Nat) (l : List RingEntry) : State := s.setWgrp g { s.wgrp g with ring := l }
/-- The group's frames between decrypt input and client. -/
def State.retainOf (s : State) (g : Nat) : List InFrame := (s.wgrp g).retain
/-- The group's frames between decrypt input and client set. -/
def State.setRetain (s : State) (g : Nat) (l : List InFrame) : State := s.setWgrp g { s.wgrp g with retain := l }

/-- The first entry that satisfies a test changed: the entry, and the list with its replacement (none: removed). -/
def updFirst {α : Type} (p : α → Bool) (f : α → Option α) : List α → List α
  | [] => []
  | a :: t => if p a then (match f a with | some b => b :: t | none => t) else a :: updFirst p f t

/-- An L1 channel beside its record. -/
def State.l1run (s : State) (c : Nat) : L1Run := Tbl.get {} s.l1 c
/-- An L1 channel beside its record set. -/
def State.setL1 (s : State) (c : Nat) (x : L1Run) : State := { s with l1 := Tbl.set {} s.l1 c x }

/-- L1 channels of a group whose records have EN = 1. -/
def State.l1Enabled (s : State) (g : Nat) : List Nat :=
  (s.recObjects .l1 0).filter (fun c => decide (chanGroup c = g) && s.ris L1.EN c)

/-- The octets of a span (R141). -/
def spanLen : Nat := 15232
/-- The lanes of an ODU frame: 952 blocks and the lane of its short tag (R117, R141). -/
def oduLanes : Nat := 953

/-! ### The keystream FIFO (R101, R108, R110) -/

/-- Lanes of a number of octets (R103). -/
def lanesOf (n : Nat) : Nat := (n + 15) / 16

/-- Keystream blocks of a frame with `n` protected octets: its data and E(K, J0) (R105). -/
def streamBlocks (n : Nat) : Nat := lanesOf n + 1

/-- Keystream blocks that the first `p` lanes of a frame of `lanes` lanes have read. -/
def Stream.used (x : Stream) (p lanes : Nat) : Nat := if lanes ≤ p then x.total else min (p - x.clear / 16) x.total

/-- Keystream blocks of a frame that lie in its Race's FIFO. -/
def Stream.held (x : Stream) (p lanes : Nat) : Nat := x.ready - x.used p lanes

/-- Of the first `b` keystream blocks of a frame, those that pipeline `p` makes: lane k is served by pipeline k. -/
def Stream.dealt (x : Stream) (p b : Nat) : Nat := (b + 5 - (p + 12 - (x.lane + x.clear / 16) % 6) % 6) / 6

/-- The streams of a Race direction of a group, each with the lanes that have passed and all its lanes. -/
def State.streams (s : State) (g k : Nat) (d : Dir) : List (Stream × Nat × Nat) :=
  let desc := fun (x : Option L1Desc) => (x.toList.filter (fun y => y.keys ≠ [])).map (fun y => (y.ks, 0, oduLanes))
  match d with
  | .egress =>
    ((s.ringOf g).filter (fun e => e.key.isSome)).map (fun e => (e.ks, e.passed, lanesOf (e.ks.clear + 16 * e.ks.total))) ++
    (s.l1Enabled g).flatMap (fun c => desc (s.l1run c).txDesc ++
      (s.l1run c).cur.toList.map (fun f => (f.ks, Tbl.get 0 f.passed k, oduLanes)))
  | .ingress =>
    ((s.retainOf g).filter (fun f => f.key.isSome)).map (fun f => (f.ks, f.passed, lanesOf (f.ks.clear + 16 * f.ks.total))) ++
    (s.l1Enabled g).flatMap (fun c => desc (s.l1run c).rxDesc ++
      (s.l1run c).pend.toList.map (fun f => (f.ks, Tbl.get 0 f.passed k, oduLanes)))

/-- Blocks in the FIFO of a pipeline. -/
def pipeLoad (l : List (Stream × Nat × Nat)) (p : Nat) : Nat :=
  (l.map (fun x => x.1.dealt p x.1.ready - x.1.dealt p (min (x.1.used x.2.1 x.2.2) x.1.ready))).sum

/-- How many further blocks of a stream find room: each pipeline's FIFO holds 128, and blocks go to the pipelines in
turn. -/
def fifoRoom (l : List (Stream × Nat × Nat)) (x : Stream) : Nat :=
  let next := x.lane + x.clear / 16 + x.ready
  (List.range 6).foldl (fun a p => min a ((p + 6 - next % 6) % 6 + 6 * (128 - pipeLoad l p))) 768

/-- A stream whose keystream reaches the FIFO, as far as it has room (R108, R109). -/
def State.makeReady (s : State) (g : Nat) (d : Dir) (x : Stream) : Stream :=
  match s.holder g with
  | some k => { x with ready := x.ready + min (x.total - x.ready) (fifoRoom (s.streams g k d) x) }
  | none => x

/-- Keystream blocks that will not be used cleared and counted at each Race that made them (R110, R140). -/
def State.discardKs (s : State) (g c d n : Nat) : State :=
  if n = 0 then s else (s.computing g c).foldl (fun (a : State) k => a.count Ctrs.KS_DISCARD (raceDir k d) n) s

/-- The descriptor of a channel's next frame in a direction given up, and its keystream with it. -/
def State.dropDesc (s : State) (c : Nat) (d : Dir) : State :=
  let x := s.l1run c
  let lost := fun (y : Option L1Desc) => match y with | some e => e.ks.ready | none => 0
  match d with
  | .egress => (s.discardKs (chanGroup c) c 0 (lost x.txDesc)).setL1 c { x with txDesc := none }
  | .ingress => (s.discardKs (chanGroup c) c 1 (lost x.rxDesc)).setL1 c { x with rxDesc := none }

/-- Both descriptors of a channel given up. -/
def State.dropDescs (s : State) (c : Nat) : State := (s.dropDesc c .egress).dropDesc c .ingress

/-! ### Frames, lanes and samples (R103, R114, R123, R134) -/

/-- A frame on its way through a Race, as its lanes show it. -/
structure Flow where
  /-- what names it within its channel: SA and PN, or 0 and count -/
  id : Nat × Nat
  /-- SEQ of RC_FLAGk (R138) -/
  seqNo : Nat
  ks : Stream
  passed : Nat
  lanes : Nat
  /-- first octet of the tag -/
  tagAt : Nat
  /-- octets as they enter, and as they leave -/
  input : Octets
  output : Octets
  handle : Nat
  ghash : Option Nat
  deriving DecidableEq, Repr

/-- A lane of a frame. -/
structure FlowLane where
  flow : Flow
  /-- its number within the frame, from 0 -/
  block : Nat
  deriving DecidableEq, Repr

/-- The lane of a word that carries it: a frame fills lanes in turn from its first one. -/
def FlowLane.lane (x : FlowLane) : Nat := (x.flow.ks.lane + x.block) % 6
/-- It carries tag octets (TAGL). -/
def FlowLane.tagged (x : FlowLane) : Bool := decide (x.flow.tagAt < 16 * x.block + 16)
/-- Sixteen octets of a frame. -/
def laneOctets (o : Octets) (i : Nat) : Octets := (o.drop (16 * i)).take 16
/-- The lane as the Sluice gets it. -/
def FlowLane.toLane (x : FlowLane) (ok : Bool) : Lane :=
  { octets := laneOctets x.flow.output x.block, sof := decide (x.block = 0), eof := decide (x.block + 1 = x.flow.lanes)
    tagl := x.tagged, ok := ok }
/-- The copy of a lane for the reference pipeline (R105, R123). -/
def FlowLane.copy (x : FlowLane) (k d : Nat) : Sample :=
  { race := k, dir := d, handle := x.flow.handle, iv := x.flow.ks.iv, ctr := 2 + (16 * x.block - x.flow.ks.clear) / 16
    input := laneOctets x.flow.input x.block, output := laneOctets x.flow.output x.block }

/-- LAST_LEN of a word (R134): octets valid in the last valid lane, where 0 means 16. -/
def SluiceWord.lastLen (w : SluiceWord) : Nat :=
  match (w.lanes.filter (fun l => l.octets ≠ [])).getLast? with
  | some l => l.octets.length % 16
  | none => 0

/-- Bit k of LV, SOF, EOF, TAGL or OK of a word: the lanes that have a property (R134). -/
def SluiceWord.mask (w : SluiceWord) (p : Lane → Bool) : Nat :=
  (List.range 6).foldl (fun a k => a + b2n (p (w.lanes.getD k { ok := false })) * 2 ^ k) 0

/-- DATA of a word (R134): six lanes of 16 octets, lane 0 in DATA[127:0]; an octet that is not valid is 0. -/
def SluiceWord.data (w : SluiceWord) : Octets :=
  (List.range 6).flatMap (fun k => slice (w.lanes.getD k {}).octets 0 16)

/-- The Sluice passes a word (R134): its LEPOCH is the group's current one and its Race holds the lease. -/
def State.sluicePasses (s : State) (g k : Nat) (w : SluiceWord) : Bool :=
  s.sluiceOpen g && s.holds g k && decide (w.lepoch = s.rd WEI_LEASE.LEPOCH g)

/-- Every how many blocks of a direction a Race copies one (R123, R296). -/
def State.samplePeriod (s : State) : Nat := if s.is WEI_SAMPLE.DIP_BOOST then 1 else 2 ^ s.rd WEI_SAMPLE.SHIFT

/-- Places in the reference pipeline: two pipelines of 20 cycles each (R294). -/
def refPlaces : Nat := 40

/-- The copies of every Nth among `n` further blocks of a direction (R123); `taken`: both reference pipelines are taken
in the cycle (R296). `copy i` is the copy of the i-th of these blocks. -/
def State.sampleBlocks (s : State) (k d n : Nat) (taken : Bool) (copy : Nat → Sample) : State :=
  let x := s.race k
  let per := s.samplePeriod
  let since := min (if d = 0 then x.since0 else x.since1) (per - 1)
  let hits := (since + n) / per
  let left := (since + n) % per
  let s1 := s.setRace k (if d = 0 then { x with since0 := left } else { x with since1 := left })
  if hits = 0 then s1
  else
    let fit := if taken then 0 else min hits (refPlaces - s1.weir.samples.length)
    let new := (List.range fit).map (fun j => copy (per * (j + 1) - since - 1))
    let s2 : State := { s1 with weir := { s1.weir with samples := s1.weir.samples ++ new } }
    let s3 := s2.count Ctrs.RC_SAMPLES (raceDir k d) hits
    if fit = hits then s3 else s3.count Ctrs.SAMPLES_DROPPED 0 (hits - fit)

/-- Lanes `from_` to `upto` − 1 of a frame pass Race `k` with OK = 1 (R114): counted and sampled. -/
def State.passLanes (s : State) (k d : Nat) (x : Flow) (from_ upto : Nat) : State :=
  if upto ≤ from_ then s
  else (s.count Ctrs.RC_BLOCKS (raceDir k d) (upto - from_)).sampleBlocks k d (upto - from_) false
    (fun i => (FlowLane.mk x (from_ + i)).copy k d)

/-! ### Withholding (R118, R120, R124, R138, R139) -/

/-- The reading that RC_FLAGGk takes (R139). -/
def State.flagReading (s : State) (k : Nat) : Word :=
  let g := s.rd RC_STAT.GROUP k
  if g < 18 then s.gauge g else s.recordReading

/-- A flag captured when none is held, or in the same cycle as an ingress flag when it is an egress flag (R124, R138). -/
def State.capture (s : State) (k d checker unit chan block sq : Nat) : State :=
  let same := decide (d = 0) && decide (s.rd RC_FLAG.DIR k = 1) && decide (s.rd RC_FLAG.CHECKER k ≠ 6) &&
    decide ((s.race k).flagTick = s.tick.toNat)
  if s.is RC_FLAG.VALID k ∧ !same then s
  else
    let w := 2 ^ 63 + d * 2 ^ 62 + checker * 2 ^ 59 + unit * 2 ^ 56 + chan * 2 ^ 44 + block % 2 ^ 12 * 2 ^ 32 + sq % 2 ^ 32
    ((s.setReg .RC_FLAG (BitVec.ofNat 64 w) k).setReg .RC_FLAGG (s.flagReading k) k).setRace k
      { s.race k with flagTick := s.tick.toNat }

/-- The ODU frame that a channel sends, as the lanes of Race `k` show it: its span and its short tag (R117). -/
def State.txFlow (s : State) (c k : Nat) (f : TxFrame) : Flow :=
  { id := (0, f.count), seqNo := f.count, ks := f.ks, passed := Tbl.get 0 f.passed k, lanes := oduLanes, tagAt := spanLen
    input := f.plain, output := f.payload ++ f.tag.getD [], handle := s.handle 1 (2 * c + f.slot), ghash := Tbl.get none f.ghash k }

/-- The ODU frame that a channel decrypts, as the lanes of Race `k` show it. -/
def State.rxFlow (s : State) (c k : Nat) (f : RxFrame) : Flow :=
  { id := (0, f.count), seqNo := f.count, ks := f.ks, passed := Tbl.get 0 f.passed k, lanes := oduLanes - 1, tagAt := spanLen
    input := f.cipher, output := f.plain, handle := s.handle 1 (2 * c + f.slot), ghash := Tbl.get none f.ghash k }

/-- A group's L1 output is cut off: each channel listed has its frame cut at an octet of its span, as far as the lanes
that have passed, or at least the octets listed; the next frame's descriptor goes, and every channel gaps until its
output resumes (R175, R567). -/
def State.cutL1 (s : State) (g : Nat) (cuts : List (Channel × Nat)) : State :=
  (s.l1Enabled g).foldl (fun a c =>
    let b := a.dropDescs c
    let x := b.l1run c
    let listed : List Nat := (cuts.filter (fun e => decide (e.1.val = c))).map Prod.snd
    match x.cur with
    | none => b.setL1 c { x with gap := true }
    | some f =>
      if listed = [] ∧ f.passed = [] then b.setL1 c { x with gap := true }
      else
        let p := min ((listed ++ f.passed.map (fun (e : Nat × Nat) => 16 * e.2)).foldl max 0) spanLen
        let cut := f.cut.getD p
        let held := if f.kind = .enc ∧ f.cut = none then f.ks.held (p / 16) oduLanes else 0
        (b.discardKs g c 0 held).setL1 c { x with gap := true, cur := some { f with cut := some cut } }) s

/-- The frame that a channel decrypts is cut after `p` octets of its span (R121): it is not decrypted further, so it gets
no verdict; in Cut-through the local-fault sequence takes the place of its rest. -/
def State.cutRxAt (s : State) (c p : Nat) : State :=
  let x := s.l1run c
  match x.pend with
  | none => s
  | some f =>
    let b := s.discardKs (chanGroup c) c 1 (f.ks.held (p / 16) (oduLanes - 1))
    let leaving := x.leaving.map (fun (y : Leaving) =>
      if y.count = f.count then { y with cut := some (min (y.cut.getD spanLen) p) } else y)
    b.setL1 c { x with pend := none, rxAcc := none, leaving := leaving }

/-- A group's L1 input is cut off (R121, L1 Solo): the frames under way that are listed, or whose lanes have begun to
pass, are cut where they stand; the next frame's descriptor goes. -/
def State.cutL1Rx (s : State) (g : Nat) (cuts : List (Channel × Nat)) : State :=
  (s.l1Enabled g).foldl (fun a c =>
    let b := a.dropDesc c .ingress
    match (b.l1run c).pend with
    | none => b
    | some f =>
      let listed : List Nat := (cuts.filter (fun e => decide (e.1.val = c))).map Prod.snd
      if listed = [] ∧ f.passed = [] then b
      else b.cutRxAt c (min ((listed ++ f.passed.map (fun (e : Nat × Nat) => 16 * e.2)).foldl max 0) spanLen)) s

/-- A block withheld (R120, R124): `n` blocks flagged in the cycle are counted and the lowest lane's flag captured; a
Race whose lease has not been revoked sends a dispute with RC_FLAGk and passes nothing more in the direction, and L1
traffic with no other source is cut off (R121, R175). -/
def State.withhold (s : State) (k d checker unit chan block sq n : Nat) (cuts : List (Channel × Nat)) : State :=
  let g := s.rd RC_STAT.GROUP k
  let s1 := ((s.count Ctrs.RC_FLAGS (raceDir k d) n).mark RC_STAT.FLAGGED k).capture k d checker unit chan block sq
  if 18 ≤ g ∨ !s.judgeable g k ∨ s.withheld k d then s1
  else
    let x := s1.race k
    let y := x.dispute.getD { flag := s1.reg .RC_FLAG k }
    let z : Dispute := { y with egress := y.egress || decide (d = 0), ingress := y.ingress || decide (d = 1), sent := y.sent + 1 }
    let s2 := s1.setRace k { x with dispute := some z }
    let all := (Fin.ofNat 2880 chan, 0) :: cuts
    if s2.flows g d then s2 else if d = 0 then s2.cutL1 g all else s2.cutL1Rx g all

end Sys2Proof.Machine
end

