-- ==== Sys2Proof/Machine/Packet.lean ====
section
/-! DEFINITION. The packet path: classification and admission of client frames, dequeue, keystream, delivery of secured
frames, the receive checks, release toward the client, drains of SCs and SAs, and MKA frames (chapters 03, 04, 06, 08,
11, 12). -/

namespace Sys2Proof.Machine

open Sys2Proof

namespace Ctrs
def LAPSE_DROPS : CtrId := ⟨0x03, 4⟩
def SHELTERED : CtrId := ⟨0x03, 6⟩
def SHELTER_DROPS : CtrId := ⟨0x03, 7⟩
def DRAIN_DROPS : CtrId := ⟨0x03, 8⟩
def OUT_PKTS_ENCRYPTED : CtrId := ⟨0x22, 0⟩
def OUT_OCTETS_PROTECTED : CtrId := ⟨0x22, 1⟩
def OUT_OCTETS_ENCRYPTED : CtrId := ⟨0x22, 2⟩
def PN_EXHAUST : CtrId := ⟨0x22, 3⟩
def RESENT : CtrId := ⟨0x22, 4⟩
def IN_OK : CtrId := ⟨0x22, 0⟩
def IN_NOT_VALID : CtrId := ⟨0x22, 1⟩
def IN_LATE : CtrId := ⟨0x22, 2⟩
def IN_DELAYED : CtrId := ⟨0x22, 3⟩
def IN_OCTETS_VALIDATED : CtrId := ⟨0x22, 4⟩
def IN_OCTETS_DECRYPTED : CtrId := ⟨0x22, 5⟩
def IN_NOT_USING_SA : CtrId := ⟨0x23, 1⟩
def SECY_UNKNOWN_SCI : CtrId := ⟨0x24, 1⟩
def SECY_NO_SCI : CtrId := ⟨0x24, 2⟩
def IN_NO_TAG : CtrId := ⟨0x25, 0⟩
def IN_BAD_TAG : CtrId := ⟨0x25, 1⟩
def RX_STOMPED : CtrId := ⟨0x25, 2⟩
def EAPOL_RX : CtrId := ⟨0x25, 3⟩
def IN_UNKNOWN_SCI : CtrId := ⟨0x25, 4⟩
def IN_NO_SCI : CtrId := ⟨0x25, 5⟩
def IN_BAD_FCS : CtrId := ⟨0x25, 6⟩
def IN_CH_OFF : CtrId := ⟨0x25, 7⟩
def MAP_UNDER : CtrId := ⟨0x13, 0⟩
end Ctrs

/-! ### From the client (R405 to R407, R434) -/

/-- A client port carries packet traffic: it is enabled, and no L1 channel of the live map names it (R749). -/
def State.packetPort (s : State) (p : Nat) : Bool :=
  s.is FRM_CPORT.EN (p / 4) (p % 4) &&
  !(List.range 160).any (fun t => s.l1Chan (p / 4 * 160 + t) && decide (s.rd FRM_TSLIVE.PORT (p / 4) t = p))

/-- The VLAN ID that MODE PORT uses (R405; DEDUCED: the tag directly after the source address). -/
def frameVid (f : Octets) : Nat :=
  if be16 f 12 = 0x8100 ∨ be16 f 12 = 0x88A8 then be16 f 14 % 2 ^ 12 else 0xFFF

/-- The search word of a client frame (R405). -/
def State.egressSearch (s : State) (p : Nat) (f : Octets) : Nat :=
  if s.is DLT_PORT.MODE p then daSearch (s.rd DLT_PORT.DOMAIN p) (beNat (slice f 0 6)) else portSearch p (frameVid f)

/-- A classified frame policed and admitted (R406, R435, R437, R438). -/
def State.policedAdmit (s : State) (q sc : Nat) (pol : Option Nat) (f : Octets) : State :=
  match s.policeWith pol q (f.length + s.secOverhead sc) with
  | (none, s1) => s1
  | (some c, s1) => s1.admitFrame q sc c f

/-- Delta and Basin for a frame of an enabled packet port (R405 to R407). -/
def State.classify (s : State) (p : Nat) (f : Octets) : State :=
  if !s.is DLT_PORT.EN p then s.count Ctrs.EG_DROP p
  else match s.dlookup 0 (s.egressSearch p f) with
    | (some x, s1) =>
      let e := s1.dget x
      let s2 := (s1.dset x (e.withHit true)).count Ctrs.EG_HIT p
      if e.fld 59 58 = 1 then s2.count Ctrs.EG_DROP p
      else s2.policedAdmit (e.fld 39 20) (e.fld 55 40) (if e.fld 57 57 = 1 then some (e.fld 17 0) else none) f
    | (none, s1) =>
      if !s1.is DLT_PORT.DEF_ACT p then s1.count Ctrs.EG_MISS_DROP p
      else (s1.count Ctrs.EG_MISS_DEF p).policedAdmit (s1.rd DLT_PDEF.DEF_QUEUE p) (s1.rd DLT_PDEF.DEF_SC p)
        (if s1.is DLT_PORT.DEF_POL_EN p then some (s1.rd DLT_PDEF.DEF_POLICER p) else none) f

/-- Some queue carries frames of SCs bound to different line channels: a host error (R193). -/
def State.mixedQueue (s : State) : Bool :=
  s.basin.queues.any (fun e =>
    let l := (e.2.frames ++ e.2.decided).map (fun f => s.rrd SC.CHAN f.sc)
    l.any (fun c => decide (some c ≠ l.head?)))

/-- CLIENT_FRAME_RX (R434): a whole frame with its FCS at a client port; `flips`: bit errors of Delta's tables; `bad`: so
many of the oldest entries of the free FIFO prove uncorrectable when they are read (R452). A frame that makes a queue
carry two SCs of different channels is a host error (R193). -/
def execClientFrameRx (p : Port) (f : Octets) (flips : List (Nat × BitVec 128)) (bad : Fin 65) (s : State) :
    Host.Outcome State Fault Refusal :=
  if !fcsGood f ∨ !s.packetPort p then .next s
  else
    let s0 : State := { s with basin := { s.basin with badFree := max s.basin.badFree bad.val } }
    let t := ((s0.ptpStamp p false (body f)).dflip flips).classify p f
    if t.mixedQueue then .fault .hostError else .next t

/-! ### PN marks of the checkpoint (R290) -/

/-- The highest PN of an SA in the frame that runs. -/
def State.markPn (s : State) (g : Nat) (rx : Bool) (sa pn : Nat) : State :=
  let x := s.wgrp g
  s.setWgrp g { x with marks := x.marks.filter (fun m => !(decide (m.1 = rx) && decide (m.2.1 = sa))) ++ [(rx, sa, pn % 2 ^ 45)] }

/-! ### Errors in records (R203, R229, R452) -/

/-- A SecY record's word found uncorrectable on the datapath: 0 SecY, 1 SC, 2 SA, 3 channel; index; word. A lost
NEXT_PN is a free value. -/
def State.secyFault (s : State) (e : Option (Fin 4 × Nat × Fin 5)) : State :=
  match e with
  | none => s
  | some (k, i, w) =>
    let kind := [RecKind.secy, .sc, .sa, .ch].getD k.val .ch
    if i < secyCount kind ∧ w.val < kind.words then
      let s1 := s.secyLost kind i w
      if k.val = 2 ∧ w.val = 1 then
        let (x, s2) := s1.draw
        s2.rwr SA.NEXT_PN i x.toNat
      else s1
    else s

/-- A Basin record's word found uncorrectable on the datapath: 0 queue, 1 to 3 node level, 4 policer; index; word. -/
def State.basinFault (s : State) (e : Option (Fin 5 × Nat × Fin 6)) : State :=
  match e with
  | none => s
  | some (k, i, w) =>
    let obj : BsnObj := bsnObject (if k.val = 0 then 0 else 1) (if k.val = 0 then i else k.val * 2 ^ 29 + i)
    s.basinLost obj w

/-! ### The IV descriptor (R196, R205, R206) -/

/-- The salt of an SA, most significant octet first. -/
def State.salt (s : State) (sa : Nat) : Octets := beBytes 4 (s.rrd SA.SALT_HI sa) ++ beBytes 8 (s.rrd SA.SALT_LO sa)

/-- The IV of a frame (R206): `sci` is the SecY's on transmit, the SC's on receive. -/
def State.frameIv (s : State) (sa sci pn : Nat) : Octets :=
  if s.xpn (s.saSecy sa) then xorOctets (beBytes 4 (s.rrd SA.SSCI sa) ++ beBytes 8 pn) (s.salt sa)
  else beBytes 8 sci ++ beBytes 4 (pn % 2 ^ 32)

/-- The confidentiality offset of a SecY (R206, R224). -/
def State.confOffset (s : State) (y : Nat) : Nat := match s.rrd SECY.OFFSET y with | 0 => 0 | 1 => 30 | _ => 50

/-- TCI and AN (R205). -/
def State.tciAn (s : State) (sa : Nat) : Nat :=
  let y := s.saSecy sa
  0x0C + sa % 4 + (if s.ris SECY.TX_SCI y then 0x20 else 0x40 * b2n (s.ris SECY.ES y) + 0x10 * b2n (s.ris SECY.SCB y))

/-- The SecTAG of a frame with `n` octets of secure data (R205). -/
def State.secTag (s : State) (sa pn n : Nat) : Octets :=
  let y := s.saSecy sa
  [0x88, 0xE5, BitVec.ofNat 8 (s.tciAn sa), BitVec.ofNat 8 (if n < 48 then n else 0)] ++ beBytes 4 (pn % 2 ^ 32) ++
    (if s.ris SECY.TX_SCI y then beBytes 8 (s.rrd SECY.SCI y) else [])

/-! ### Dequeue (R196, R202, R203, R442 to R445) -/

/-- A re-send of an entry waits to be accepted: it has been sent before and has no key yet (R85, R565). -/
def RingEntry.waits (e : RingEntry) : Bool := e.resent && e.key.isNone

/-- The channels of a group whose re-sends wait for credit. -/
def State.waitingChans (s : State) (g : Nat) : List Nat := ((s.ringOf g).filter RingEntry.waits).map RingEntry.chan

/-- A dequeued frame's cells uncharged and freed (R446). -/
def State.releaseCells (s : State) (g : Nat) (cells : List (Nat × Nat)) : State :=
  (s.uncharge g cells.length).freeCellsOf cells

/-- The ring entry of a dequeued frame with the IV descriptor that is issued for it (R196): SecTAG, confidentiality
offset, IV and keystream blocks. -/
def State.ringEntry (s : State) (chan q sa pn : Nat) (f : QFrame) : RingEntry :=
  let y := s.saSecy sa
  let n := f.len - 16
  let tag := s.secTag sa pn n
  let c := min n (s.confOffset y)
  { queue := q, sa := sa, pn := pn, chan := chan, cells := f.cells, len := f.len, charged := f.charged
    tag := tag, offset := s.confOffset y
    ks := { iv := s.frameIv sa (s.rrd SECY.SCI y) pn, clear := 12 + tag.length + c, total := streamBlocks (n - c) } }

/-- A dequeued frame gets its PN and its place in the ring, or is discarded for want of one (R196, R202, R203). -/
def State.numberFrame (s : State) (g chan q : Nat) (f : QFrame) : State :=
  let s0 := s.tryPnSwitch f.sc
  let sa := s0.encSa f.sc
  if s0.noPn sa then
    ((s0.count Ctrs.PN_EXHAUST sa).breach21 g q sa 1 f.len).releaseCells g f.cells
  else
    let (pn, s1) := s0.assignPn sa
    let s2 := s1.markPn g false sa pn
    s2.setRingOf g (s2.ringOf g ++ [s2.ringEntry chan q sa pn f])

/-- DEQUEUE (R445): the group's next frame, while its lease is held and its ring has room (R442); `sue`, `bue`: words of
SecY's and Basin's records that prove uncorrectable. -/
def execDequeue (g : Group) (sue : Option (Fin 4 × Nat × Fin 5)) (bue : Option (Fin 5 × Nat × Fin 6)) (s : State) :
    Host.Outcome State Fault Refusal :=
  if !s.sluiceOpen g ∨ 256 ≤ (s.ringOf g).length then .next s
  else
    let s0 := (s.basinFault bue).secyFault sue
    match s0.chooseFrame g (s0.waitingChans g) with
    | none => .next s0
    | some (chan, q, sched) =>
      if s.twin g then .fault .hostError
      else match State.takeHead { s0 with basin := sched } q with
        | (none, s1) => .next s1
        | (some f, s1) => if s1.burstSmall q f.charged then .fault .hostError else .next (((s1.chargePath q f.charged).chargeMapper chan f.charged).numberFrame g chan q f)

/-! ### The key and the keystream (R107, R108) -/

/-- The key of an SA under its suite (R188). -/
def State.saKeyOctets (s : State) (sa : Nat) : Octets :=
  slice (s.kslot 0 sa).key 0 (if s.suite128 (s.saSecy sa) then 16 else 32)

/-- The key a Race reads for an SA; `bad`: SECDED finds it uncorrectable, which is logged (R107, R255). -/
def State.readSaKey (s : State) (sa : Nat) (bad : Bool) : Option Octets × State :=
  if !s.saKey sa then (none, s)
  else if bad then (none, s.report 0x63 (s.handle 0 sa))
  else (some (s.saKeyOctets sa), s)

/-- Lanes of an entry's secured frame. -/
def RingEntry.lanes (e : RingEntry) : Nat := lanesOf (12 + e.tag.length + (e.len - 16) + 16)
/-- Lanes of a received secured frame. -/
def InFrame.lanes (f : InFrame) : Nat := lanesOf (body f.octets).length

/-- The lane at which a frame begins (R103): the one after the last lane of the channel's frame before it, while that one
is still in the Race; else lane 0. -/
def startLane (before : Option (Nat × Nat)) : Nat := match before with | some (lane, n) => (lane + n) % 6 | none => 0

/-- An egress frame's IV descriptor accepted: the key is read, or the frame discarded (R107, R258). A key that is missing
or orphaned then makes a breach; one that is uncorrectable is missing under R39 and makes none (R83). -/
def State.acceptEgress (s : State) (g k : Nat) (bad : Bool) (e : RingEntry) : State :=
  let isNext := fun (x : RingEntry) => x.key.isNone && decide (x.sa = e.sa) && decide (x.pn = e.pn)
  match s.readSaKey e.sa bad with
  | (some key, s1) =>
    let s2 := if e.resent then s1.chargeMapper e.chan e.charged else s1
    let last := ((s2.ringOf g).filter (fun x => x.key.isSome && decide (x.chan = e.chan))).getLast?
    let lane := startLane (last.map (fun x => (x.ks.lane, x.lanes)))
    s2.setRingOf g (updFirst isNext (fun x => some { x with key := some key, ks := { x.ks with lane := lane } }) (s2.ringOf g))
  | (none, s1) =>
    let s2 := s1.count Ctrs.KEY_MISS (raceDir k 0)
    let s3 := if s.saKey e.sa then s2 else s2.breach21 g e.queue e.sa 1 e.len
    (s3.setRingOf g (updFirst isNext (fun _ => none) (s3.ringOf g))).releaseCells g e.cells

/-- An ingress frame's IV descriptor accepted: the key is read, or the frame discarded, as on egress. -/
def State.acceptIngress (s : State) (g k : Nat) (bad : Bool) (f : InFrame) : State :=
  let isNext := fun (x : InFrame) => x.key.isNone
  match s.readSaKey f.sa bad with
  | (some key, s1) =>
    let last := ((s1.retainOf g).filter (fun x => x.key.isSome && decide (x.chan = f.chan))).getLast?
    let lane := startLane (last.map (fun x => (x.ks.lane, x.lanes)))
    s1.setRetain g (updFirst isNext (fun x => some { x with key := some key, ks := { x.ks with lane := lane } }) (s1.retainOf g))
  | (none, s1) =>
    let s2 := s1.count Ctrs.KEY_MISS (raceDir k 1)
    let s3 := if s.saKey f.sa then s2 else s2.breach22 g f.chan f.sa 1 f.octets.length
    s3.setRetain g (updFirst isNext (fun _ => none) (s3.retainOf g))

/-- The next egress frame whose IV descriptor the Race takes: in ring order, passing over channels whose re-sends wait
for mapper credit (R85, R565). -/
def State.nextEgress (s : State) (g : Nat) : Option RingEntry :=
  (s.ringOf g).find? (fun e => e.key.isNone && !(e.resent && decide (s.mapper e.chan < 0)))

/-- IV_DESCRIPTOR_ACCEPT (R107) of a packet frame: the next of the group in a direction; `bad`: the key is
uncorrectable. While the group closes, its Races start no further block (R129). -/
def execIvDescriptorAccept (g : Group) (d : Dir) (bad : Bool) (s : State) : Host.Outcome State Fault Refusal :=
  if s.is WEI_GRP_CFG.CLOSING g then .next s
  else match s.holder g, d with
  | some k, .egress => match s.nextEgress g with
    | some e => .next (s.acceptEgress g k bad e)
    | none => .next s
  | some k, .ingress => match (s.retainOf g).find? (fun f => f.key.isNone) with
    | some f => .next (s.acceptIngress g k bad f)
    | none => .next s
  | none, _ => .next s

/-- The keystream of a channel's next ODU frame reaches the FIFO (R108, R109). -/
def State.l1Ready (s : State) (c : Nat) (d : Dir) : State :=
  let x := s.l1run c
  let made := fun (y : L1Desc) => if y.ks.ready = 0 then { y with ks := s.makeReady (chanGroup c) d y.ks } else y
  s.setL1 c (match d with
    | .egress => { x with txDesc := x.txDesc.map made }
    | .ingress => { x with rxDesc := x.rxDesc.map made })

/-- KEYSTREAM_READY (R108): the keystream of the group's first accepted packet frame that has none, or of a channel's
next ODU frame, has reached the FIFO. -/
def execKeystreamReady (g : Group) (d : Dir) (c : Option Channel) (s : State) : Host.Outcome State Fault Refusal :=
  match c, d with
  | some c, d => .next (if s.l1Chan c ∧ chanGroup c = g then s.l1Ready c d else s)
  | none, .egress => .next (s.setRingOf g (updFirst (fun e => e.key.isSome && decide (e.ks.ready = 0))
      (fun e => some { e with ks := s.makeReady g .egress e.ks }) (s.ringOf g)))
  | none, .ingress => .next (s.setRetain g (updFirst (fun f => f.key.isSome && decide (f.ks.ready = 0))
      (fun f => some { f with ks := s.makeReady g .ingress f.ks }) (s.retainOf g)))

/-! ### The secured frame (R205, R206) -/

/-- The header of an entry's secured frame, which is sent in clear: addresses, SecTAG and the first octets of the secure
data (R205, R206). -/
def RingEntry.clearOctets (e : RingEntry) (data : Octets) : Octets := data.take 12 ++ e.tag ++ (data.drop 12).take e.offset

/-- The secured octets of a client frame without its FCS, or of its first octets, and the ICV over them (R205, R206). -/
def RingEntry.cipher (e : RingEntry) (key data : Octets) : Octets × Octets :=
  let clear := e.clearOctets data
  let x := Crypto.gcm false key e.ks.iv clear ((data.drop 12).drop e.offset)
  (clear ++ x.1, x.2)

/-- The secured frame without its FCS of a client frame with its FCS (R205, R206). -/
def RingEntry.secure (e : RingEntry) (key frame : Octets) : Octets :=
  let x := e.cipher key (body frame)
  x.1 ++ x.2

/-- A ring entry's frame as its lanes show it. -/
def State.egressFlow (s : State) (e : RingEntry) (key data : Octets) : Flow :=
  { id := (e.sa, e.pn), seqNo := e.pn, ks := e.ks, passed := e.passed, lanes := e.lanes, tagAt := 12 + e.tag.length + (e.len - 16)
    input := e.clearOctets (body data) ++ ((body data).drop 12).drop e.offset, output := e.secure key data
    handle := s.handle 0 e.sa, ghash := e.ghash }

/-! ### Reading a frame's cells (R445, R452, R454) -/

/-- What a chain read meets. -/
inductive ChainRead where
  | whole (octets : Octets)
  /-- broken at a cell: its number and generation, whether its header disagreed, the cells read before it, and the
  octets they gave -/
  | broken (cell gen : Nat) (mismatch : Bool) (read : Nat) (octets : Octets)
  deriving DecidableEq, Repr

/-- The cells of a frame read along the chain from a cell: `i` is the cell's place, `c` the number of cells. -/
def State.readChain (s : State) (q len c : Nat) : Nat → Nat → Nat × Nat → Octets → ChainRead × State
  | 0, _, _, acc => (.whole (acc.take len), s)
  | fuel + 1, i, (cell, gen), acc =>
    match s.culRead { req := 6, gen := some gen } cell 0 256 with
    | (none, s1) => (.broken cell gen false i acc, s1)
    | (some o, s1) =>
      let h := leNat (o.take 16)
      if bits h 115 96 = q ∧ bits h 77 64 = len ∧ (bits h 30 30 = 1 ↔ i = 0) ∧ (bits h 31 31 = 1 ↔ i + 1 = c) then
        s1.readChain q len c fuel (i + 1) (bits h 27 0, bits h 119 116 * 2 ^ 32 + bits h 63 32) (acc ++ o.drop 16)
      else (.broken cell gen true i acc, s1)

/-- Bit errors that the stacks have developed: sector, word, pattern. -/
def State.stackFlips (s : State) (l : List (Nat × Nat × BitVec 80)) : State :=
  l.foldl (fun a x => match a.rangeAt (x.1 * 256) with
    | some r => a.culFlip r x.1 [(x.2.1, x.2.2)]
    | none => a) s

/-- An entry of the ring taken out of it. -/
def State.dropEntry (s : State) (g : Nat) (e : RingEntry) : State :=
  s.setRingOf g (updFirst (fun x => decide (x.sa = e.sa) && decide (x.pn = e.pn)) (fun _ => none) (s.ringOf g))

/-- A chain broken while a frame of the ring is read (R454): the octets that the cells before the break gave have gone
out, and a stomped FCS ends them; the frame and those behind it in its queue are discarded, its keystream with it; cells
read before the break are freed, the others counted in LOST. -/
def State.breakChain (s : State) (g : Nat) (e : RingEntry) (cell gen : Nat) (mismatch : Bool) (read : Nat) (octets : Octets) :
    State :=
  let x := (e.cipher (e.key.getD []) (octets.take (e.len - 4))).1
  let s0 := if octets = [] ∨ !s.flows g 0 then s else s.emit (.lineFrame e.chan (x ++ stomp x) false)
  let s1 := (s0.discardKs g e.chan 0 (e.ks.held (x.length / 16) e.lanes)).chainBroken e.queue cell gen mismatch
  let (n, oct, s2) := s1.loseQueue e.queue
  let s3 := ((s2.uncharge g e.cells.length).freeCellsOf (e.cells.take read)).lose ((e.cells.drop read).map (·.1))
  (s3.dropEntry g e).breach21 g e.queue e.sa (n + 1) (oct + e.len)

/-- A word late at the mapper (R566): `passed` octets of the secured frame have gone out, an error control block ends
them, and the frame is not sent again. -/
def State.lateWord (s : State) (g : Nat) (e : RingEntry) (data : Octets) (passed : Nat) : State :=
  let x := (e.secure (e.key.getD []) data).take passed
  let s1 := ((s.emit (.lineError e.chan x)).count Ctrs.MAP_UNDER e.chan).discardKs g e.chan 0
    (e.ks.held (x.length / 16) e.lanes)
  (s1.dropEntry g e).releaseCells g e.cells

/-- EGRESS_FRAME_READ (R445): the cells of the first frame of the ring whose keystream is ready; `flips`: bit errors of
the stacks, `bue`: a word of Basin's records that proves uncorrectable; `late`: the memory-bandwidth budget is exceeded,
and a word comes late once so many octets of the frame have gone out (R566). -/
def execEgressFrameRead (g : Group) (flips : List (Nat × Nat × BitVec 80)) (bue : Option (Fin 5 × Nat × Fin 6))
    (late : Option Nat) (s : State) : Host.Outcome State Fault Refusal :=
  let w := (s.stackFlips flips).basinFault bue
  let s0 := w.holdReports
  let next := fun (e : RingEntry) => decide (0 < e.ks.ready) && e.data.isNone
  let s2 := match (s0.ringOf g).find? next with
    | none => s0
    | some e =>
      match s0.readChain e.queue e.len e.cells.length e.cells.length 0 (e.cells.headD (0, 0)) [], late with
      | (.whole o, s1), none => s1.setRingOf g (updFirst next (fun x => some { x with data := some o }) (s1.ringOf g))
      | (.whole o, s1), some n => if s1.flows g 0 then s1.lateWord g e o n else s1
      | (.broken cell gen mismatch i o, s1), _ => s1.breakChain g e cell gen mismatch i o
  .next (s2.takeReports w.inCycle)

/-! ### Delivery (R86) -/

/-- A frame delivered (R86, R230): it passes the Sluice, its ring entry is removed, its cells are freed. -/
def State.deliver (s : State) (g : Nat) (e : RingEntry) (key data : Octets) : State :=
  let x := e.secure key data
  let n := e.len - 16
  let c := min n e.offset
  let s1 := (((s.emit (.lineFrame e.chan (x ++ fcs x) true)).count Ctrs.OUT_PKTS_ENCRYPTED e.sa).count
    Ctrs.OUT_OCTETS_PROTECTED e.sa c).count Ctrs.OUT_OCTETS_ENCRYPTED e.sa (n - c)
  let s2 := if e.resent then s1.count Ctrs.RESENT e.sa else s1
  let s3 := s2.setRingOf g (updFirst (fun x => x.data.isSome) (fun _ => none) (s2.ringOf g))
  s3.releaseCells g e.cells

/-- The rest of a frame's lanes passes Race `k`, up to the tag (R114); a GHASH product flagged for the frame makes the
tag block a withheld one (R118): answers whether every block was OK. -/
def State.passFrame (s : State) (k d chan : Nat) (x : Flow) : Bool × State :=
  match x.ghash with
  | none => (true, s.passLanes k d x x.passed x.lanes)
  | some u =>
    let b := x.tagAt / 16
    (false, (s.passLanes k d x x.passed b).withhold k d 4 u chan b x.seqNo 1 [(Fin.ofNat 2880 chan, 16 * b)])

/-- EGRESS_FRAME_DELIVERED (R86): the last lanes of the first frame read pass its Race, each with OK = 1, and the frame
leaves, while the Sluice passes its Race's output. -/
def execEgressFrameDelivered (g : Group) (s : State) : Host.Outcome State Fault Refusal :=
  match (s.ringOf g).find? (fun e => e.data.isSome), s.holder g with
  | some e, some k =>
    match e.key, e.data with
    | some key, some data =>
      if s.flows g 0 then
        .next (match s.passFrame k 0 e.chan (s.egressFlow e key data) with
          | (true, s1) => s1.deliver g e key data
          | (false, s1) => s1)
      else .next s
    | _, _ => .next s
  | _, _ => .next s

/-! ### From the line (R82, R207 to R209, R302) -/

/-- The parts of a received SecTAG: octets of tag, TCI and AN, SL, PN field, SCI, secure data length. -/
structure RxTag where
  len : Nat
  tci : Nat
  sl : Nat
  pn : Nat
  sci : Nat
  n : Nat
  deriving DecidableEq, Repr

/-- The SecTAG of a received frame without its FCS, when the frame is long enough for SecTAG and ICV (R208, step 2). -/
def rxTag (f : Octets) : Option RxTag :=
  let tci := beNat (slice f 14 1)
  let t := if tci.testBit 5 then 16 else 8
  if f.length < 12 + t + 16 then none
  else some { len := t, tci := tci, sl := beNat (slice f 15 1), pn := beNat (slice f 16 4)
              sci := if tci.testBit 5 then beNat (slice f 20 8) else 0, n := f.length - 28 - t }

/-- The TCI and SL are valid (R208, step 2). -/
def RxTag.ok (x : RxTag) : Bool :=
  !x.tci.testBit 7 && x.tci.testBit 3 && x.tci.testBit 2 && !(x.tci.testBit 5 && (x.tci.testBit 6 || x.tci.testBit 4)) &&
  decide (x.sl = if x.n < 48 then x.n else 0)

/-- The lowest acceptable PN of a receive SA (R209). -/
def State.lowestPn (s : State) (sa : Nat) : Nat :=
  let n := s.rrd SA.NEXT_PN sa
  let w := s.rrd SECY.WINDOW (s.saSecy sa)
  if w < n then n - w else 1

/-- The PN of a received frame (R209). -/
def State.recoverPn (s : State) (sa lo : Nat) : Nat :=
  if s.xpn (s.saSecy sa) then
    let l := s.lowestPn sa
    let hi := l / 2 ^ 32 + (if lo < l % 2 ^ 32 then 1 else 0)
    (hi * 2 ^ 32 + lo) % 2 ^ 64
  else lo

/-- A receive SC takes frames: enabled and not draining (R208 step 4, R218). -/
def State.rxScOpen (s : State) (sc : Nat) : Bool := s.ris SC.EN sc && s.rxSc sc && !s.ris SC.DRAIN sc

/-- A frame that has passed steps 1 to 6 of R208, with its IV descriptor (R113, R206). -/
def State.inFrame (s : State) (c sa pn : Nat) (low : Bool) (octets : Octets) (x : RxTag) : InFrame :=
  let offset := s.confOffset (s.saSecy sa)
  let c0 := min x.n offset
  { chan := c, octets := octets, sa := sa, pn := pn, delayed := low, offset := offset
    ks := { iv := s.frameIv sa (s.rrd SC.SCI (sa / 4)) pn, clear := 12 + x.len + c0, total := streamBlocks (x.n - c0) } }

/-- Octets of the group's ingress hold buffer in use: its store-and-verify frames (R34, R37). -/
def State.holdUsed (s : State) (g : Nat) : Nat :=
  (((s.retainOf g).filter (fun f => !s.ris CH.POLICY f.chan)).map (fun f => f.octets.length)).sum

/-- Octets of an ingress hold buffer (R18, R37). -/
def holdSize : Nat := 65536

/-- A frame goes on to the Race (R34, R301); one that is to be held and finds the hold buffer full is dropped and counted
for its channel (R35). -/
def State.retainFrame (s : State) (g : Nat) (f : InFrame) : State :=
  if !s.ris CH.POLICY f.chan ∧ holdSize < s.holdUsed g + f.octets.length then
    { s with weir := { s.weir with holdDrops := Tbl.set 0 s.weir.holdDrops f.chan (Tbl.get 0 s.weir.holdDrops f.chan + 1) } }
  else s.setRetain g (s.retainOf g ++ [f])

/-- Steps 3 to 6 of R208 for a frame with a valid SecTAG: it joins the group's retain ring, or is discarded. -/
def State.rxResolve (s : State) (g c : Nat) (octets : Octets) (x : RxTag) : State :=
  let withSci := x.tci.testBit 5
  let found := if withSci then s.sciFind c x.sci else if s.ris CH.DEF_V c then some (s.rrd CH.DEF_SC c) else none
  match found with
  | none => s.count (if withSci then Ctrs.IN_UNKNOWN_SCI else Ctrs.IN_NO_SCI) c
  | some sc =>
    if !s.rxScOpen sc then s.count (if withSci then Ctrs.SECY_UNKNOWN_SCI else Ctrs.SECY_NO_SCI) (s.scSecy sc)
    else
      let sa := sc * 4 + x.tci % 4
      if !s.saReady sa ∨ s.secy.draining.contains sa then s.count Ctrs.IN_NOT_USING_SA sc
      else
        let pn := s.recoverPn sa x.pn
        let low := decide (pn < s.lowestPn sa)
        if low && s.ris SECY.REPLAY (s.saSecy sa) then s.count Ctrs.IN_LATE sa
        else
          s.retainFrame g (s.inFrame c sa pn low octets x)

/-- The receive checks of R208 before the ICV, for an accepted frame of an enabled channel (R207, R208). -/
def State.rxChecks (s : State) (g c : Nat) (octets : Octets) : State :=
  let f := body octets
  if be16 f 12 = 0x888E then (s.count Ctrs.EAPOL_RX c).mkaReceive c f
  else if be16 f 12 ≠ 0x88E5 then s.count Ctrs.IN_NO_TAG c
  else match rxTag f with
    | none => s.count Ctrs.IN_BAD_TAG c
    | some x => if x.ok then s.rxResolve g c octets x else s.count Ctrs.IN_BAD_TAG c

/-- Cells of the shelter that a frame takes (R302). -/
def shelterCells (n : Nat) : Nat := (n + 63) / 64
/-- Cells of the shelter in use. -/
def State.shelterUsed (s : State) : Nat := (s.weir.shelter.map (fun f => shelterCells f.octets.length)).sum

/-- The group is in fail-over, from step 3 to step 7 of R298 (R82). -/
def State.inFailover (s : State) (g : Nat) : Bool := decide ((s.wgrp g).phase = .revoked) || decide ((s.wgrp g).phase = .loaded)

/-- The receive SA that a frame's SecTAG names, 0 when it names none. -/
def State.frameSa (s : State) (c : Nat) (octets : Octets) : Nat :=
  match rxTag (body octets) with
  | none => 0
  | some x =>
    match if x.tci.testBit 5 then s.sciFind c x.sci else if s.ris CH.DEF_V c then some (s.rrd CH.DEF_SC c) else none with
    | some sc => sc * 4 + x.tci % 4
    | none => 0

/-- An accepted frame dropped at the shelter input joins the record of its channel and SA (R90, R94). -/
def State.shelterDrop (s : State) (g c : Nat) (octets : Octets) : State :=
  let sa := s.frameSa c octets
  let x := s.wgrp g
  let old := (x.drops.find? (fun e => decide (e.1 = c) && decide (e.2.1 = sa))).map (fun e => e.2.2)
  let sum := ((old.getD (0, 0)).1 + 1, (old.getD (0, 0)).2 + octets.length)
  let rest := x.drops.filter (fun e => !(decide (e.1 = c) && decide (e.2.1 = sa)))
  (s.count Ctrs.SHELTER_DROPS g).setWgrp g { x with drops := rest ++ [(c, sa, sum.1, sum.2)] }

/-- A frame that arrives at the shelter input: stored in order of arrival, or dropped (R90, R302). -/
def State.shelterFrame (s : State) (g c : Nat) (octets : Octets) : State :=
  if s.weir.eddy = some g ∧ s.shelterUsed + shelterCells octets.length ≤ 108032 then
    State.count { s with weir := { s.weir with shelter := s.weir.shelter ++ [{ chan := c, octets := octets }] } }
      Ctrs.SHELTERED g
  else s.shelterDrop g c octets

/-- A frame with a good FCS at the decrypt input of an enabled channel (R82, R302, R310, R626): frames behind a shelter
that still drains join it (R303). -/
def State.ingress (s : State) (g c : Nat) (octets : Octets) : State :=
  if s.mode = 7 then s.count Ctrs.DRAIN_DROPS g
  else if s.inFailover g then s.shelterFrame g c octets
  else if s.rd WEI_LEASE.STATE g = 3 then s.count Ctrs.LAPSE_DROPS g
  else if !s.sluiceOpen g then s
  else if s.weir.eddy = some g ∧ s.weir.shelter ≠ [] then s.shelterFrame g c octets
  else s.rxChecks g c octets

/-- The received OTUCn carries channels: the framer runs, is in frame, and shows no defect of R567. -/
def State.otuGood (s : State) (g : Nat) : Bool :=
  s.is FRM_CTL.RX_EN g && s.is FRM_STAT.IF g && decide ((s.reg .FRM_DEF g).toNat &&& 0b11110 = 0)

/-- What the checkers of the on-chip memories meet while packet frames pass (R696, R697): a word corrected; or an
uncorrectable word of the n-th frame sheltered in Eddy, or of the n-th frame behind the group's Race, which is dropped
whole. Every such frame was accepted (R82), so record 0x22 goes with 0x91. A frame of a cut-through channel waits in Eddy's
retain ring, one of store-and-verify in the ingress hold buffer (R303). -/
def State.memFind (s : State) (g : Nat) (f : MemFind) : State :=
  match f with
  | .corrected u w => s.eccCorrected u.toNat w.toNat 10
  | .shelterBad n w =>
    match s.weir.shelter[n]? with
    | none => s
    | some x =>
      let s1 : State := { s with weir := { s.weir with shelter := s.weir.shelter.eraseIdx n } }
      (s1.report 0x91 (eccDetail 0x500 w.toNat 10)).breach22 (chanGroup x.chan) x.chan (s.frameSa x.chan x.octets) 1
        x.octets.length
  | .retainBad n w =>
    match (s.retainOf g)[n]? with
    | none => s
    | some x =>
      let detail := if s.ris CH.POLICY x.chan then eccDetail 0x500 w.toNat 10 else eccDetail (0x800 + g) w.toNat 7
      let s1 := (s.setRetain g ((s.retainOf g).eraseIdx n)).discardKs g x.chan 1 (x.ks.held x.passed x.lanes)
      (s1.report 0x91 detail).breach22 g x.chan x.sa 1 x.octets.length

/-- INGRESS_FRAME_RX (R34, R208): a secured frame with its FCS at the decrypt input of a packet line channel, while the
received OTUCn carries channels; `sue`: a word of SecY's records that proves uncorrectable; `finds`: what the checkers of
the memories meet. -/
def execIngressFrameRx (c : Channel) (octets : Octets) (sue : Option (Fin 4 × Nat × Fin 5)) (finds : List MemFind)
    (s : State) : Host.Outcome State Fault Refusal :=
  if !s.packetChan c ∨ !s.otuGood (chanGroup c) then .next s
  else if !fcsGood octets then .next (s.count Ctrs.IN_BAD_FCS c)
  else
    let s0 := (State.takeReports (finds.foldl (fun (a : State) f => a.memFind (chanGroup c) f) s.holdReports) s.inCycle).secyFault sue
    if !s0.ris CH.EN c then .next (s0.count Ctrs.IN_CH_OFF c)
    else if s.twin (chanGroup c) then .fault .hostError
    else .next (s0.ingress (chanGroup c) c octets)

/-! ### Release toward the client (R208 steps 7 and 8, R210 to R212, R408) -/

/-- The client port of a packet line channel (R34; PRESUMED: PORT of the channel's OWNER entry). -/
def State.clientPort (s : State) (c : Nat) : Nat := s.rd FRM_TSLIVE.PORT (chanGroup c) (chanSlot c)

/-- A frame sent toward the client port, stamped when its FCS is good (R212, R646); a port that is not enabled passes
nothing (R749). -/
def State.toClient (s : State) (p : Nat) (f : Octets) (good : Bool) : State :=
  if p < 72 ∧ s.is FRM_CPORT.EN (p / 4) (p % 4) then
    let s1 := if good then s.ptpStamp p true f else s
    s1.emit (.clientFrame p (f ++ (if good then fcs f else stomp f)) good)
  else s

/-- The source address of a verified frame learned (R408, R409). -/
def State.learnFrom (s : State) (sc p : Nat) (f : Octets) : State :=
  let src := slice f 6 6
  if (src.headD 0).toNat.testBit 0 ∨ beNat src = 0 then s
  else s.learnAsk { sc := sc, mac := beNat src, domain := s.rd DLT_PORT.DOMAIN p }

/-- NEXT_PN after a frame verified (R210); the number past 2^64 − 1 is a free value. -/
def State.advanceRxPn (s : State) (sa pn : Nat) : State :=
  if pn + 1 < 2 ^ 64 then s.rwr SA.NEXT_PN sa (max (s.rrd SA.NEXT_PN sa) (pn + 1))
  else
    let (x, s1) := s.draw
    s1.rwr SA.NEXT_PN sa x.toNat

/-- A retained frame's plaintext without FCS, and whether its ICV verifies (R206). -/
def InFrame.opened (f : InFrame) (key : Octets) : Octets × Bool :=
  let o := body f.octets
  let t := if (beNat (slice o 14 1)).testBit 5 then 16 else 8
  let n := o.length - 28 - t
  let c := min n f.offset
  let sdata := slice o (12 + t) n
  let (plain, icv) := Crypto.gcm true key f.ks.iv (o.take (12 + t + c)) (sdata.drop c)
  (o.take 12 ++ sdata.take c ++ plain, decide (icv = slice o (12 + t + n) 16))

/-- A retained frame as its lanes show it: the SecTAG and the ICV keep their places. -/
def State.ingressFlow (s : State) (f : InFrame) (key : Octets) : Flow :=
  let o := body f.octets
  let n := o.length - 16 - f.ks.clear
  { id := (f.sa, f.pn), seqNo := f.pn, ks := f.ks, passed := f.passed, lanes := f.lanes, tagAt := o.length - 16, input := o
    output := o.take f.ks.clear ++ (f.opened key).1.drop ((f.opened key).1.length - n) ++ o.drop (o.length - 16)
    handle := s.handle 0 f.sa, ghash := f.ghash }

/-- The verdict on a retained frame (R208 steps 7 and 8, R210, R212). -/
def State.verdict (s : State) (g : Nat) (f : InFrame) (key : Octets) : State :=
  let (plain, good) := f.opened key
  let p := s.clientPort f.chan
  let c := min (plain.length - 12) f.offset
  let s0 := s.setRetain g ((s.retainOf g).drop 1)
  if good then
    let s1 := ((s0.count Ctrs.IN_OK f.sa).count Ctrs.IN_OCTETS_VALIDATED f.sa c).count Ctrs.IN_OCTETS_DECRYPTED f.sa
      (plain.length - 12 - c)
    let s2 := (if f.delayed then s1.count Ctrs.IN_DELAYED f.sa else s1).advanceRxPn f.sa f.pn
    let s3 := s2.markPn g true f.sa (s2.rrd SA.NEXT_PN f.sa - 1)
    (s3.toClient p plain true).learnFrom (f.sa / 4) p plain
  else
    let s1 := s0.count Ctrs.IN_NOT_VALID f.sa
    if s.ris CH.POLICY f.chan then (s1.count Ctrs.RX_STOMPED f.chan).toClient p plain false else s1

/-- The oldest sheltered frame goes on to the receive checks once the frames retained before it have left (R303). -/
def State.unshelter (s : State) (g : Nat) : State :=
  match s.weir.shelter with
  | f :: t =>
    if s.weir.eddy = some g ∧ s.retainOf g = [] ∧ s.sluiceOpen g then
      let s1 : State := { s with weir := { s.weir with shelter := t } }
      if s1.ris CH.EN f.chan then s1.rxChecks g f.chan f.octets else s1.count Ctrs.IN_CH_OFF f.chan
    else s
  | [] => s

/-- ICV_VERDICT (R212): on the oldest retained frame of a group, once its keystream is ready and its last lanes have
passed; a GHASH product flagged for it withholds the verdict, and the frame is not released (R118, R121). Then the next
sheltered frame, if the shelter drains, is taken. -/
def execIcvVerdict (g : Group) (s : State) : Host.Outcome State Fault Refusal :=
  match (s.retainOf g).head?, s.holder g with
  | some f, some k =>
    match f.key with
    | some key =>
      if 0 < f.ks.ready ∧ s.flows g 1 then
        .next (match s.passFrame k 1 f.chan (s.ingressFlow f key) with
          | (true, s1) => (s1.verdict g f key).unshelter g
          | (false, s1) => s1)
      else .next s
    | none => .next s
  | some _, none => .next s
  | none, _ => .next (if s.flows g 1 then s.unshelter g else s)

/-! ### Drains of SCs and SAs (R218, R219) -/

/-- Work of a transmit SC remains: queued, decided or in a delivery ring. -/
def State.scTxWork (s : State) (sc : Nat) : Bool :=
  s.basin.queues.any (fun e => e.2.frames.any (fun f => decide (f.sc = sc) && f.real) || e.2.decided.any (fun f => decide (f.sc = sc))) ||
  s.weir.groups.any (fun e => e.2.ring.any (fun r => decide (r.sa / 4 = sc)))

/-- Work of a receive SA remains: past its check and not yet released. -/
def State.saRxWork (s : State) (p : Nat → Bool) : Bool := s.weir.groups.any (fun e => e.2.retain.any (fun f => p f.sa))

/-- SC_DRAIN_END (R218, step 3): DRAIN clears and EN reads 0. -/
def execScDrainEnd (sc : BitVec 16) (s : State) : Host.Outcome State Fault Refusal :=
  let c := sc.toNat
  if s.ris SC.DRAIN c ∧ !s.scTxWork c ∧ !s.saRxWork (fun a => decide (a / 4 = c)) then
    .next ((s.rwr SC.DRAIN c 0).rwr SC.EN c 0)
  else .next s

/-- SA_DRAIN_END (R219): EN of a receive SA reads 0. -/
def execSaDrainEnd (sa : BitVec 18) (s : State) : Host.Outcome State Fault Refusal :=
  let i := sa.toNat
  if s.secy.draining.contains i ∧ !s.saRxWork (fun a => decide (a = i)) then
    .next (State.rwr { s with secy := { s.secy with draining := s.secy.draining.filter (fun a => decide (a ≠ i)) } } SA.EN i 0)
  else .next s

/-! ### MKA frames toward the line (R207, R684) -/

/-- MKA_TX_SENT (R684): the oldest frame of a channel's MKA queue leaves the mapper and its record is written. -/
def execMkaTxSent (c : Channel) (s : State) : Host.Outcome State Fault Refusal :=
  match s.mkaQueue c with
  | [] => .next s
  | f :: t =>
    if s.is FRM_CTL.TX_EN (chanGroup c) ∧ s.sluiceOpen (chanGroup c) ∧ s.packetChan c then
      .next (((s.setMkaQueue c t).emit (.lineFrame c (f.octets ++ fcs f.octets) true)).writeRecord 64 f.slot f.tag 0 0)
    else .next s

end Sys2Proof.Machine
end

