-- ==== Sys2Proof/Machine/L1.lean ====
section
/-! DEFINITION. L1 channels: the count and the IV, Cipher Overhead Octets, tags, keys and epochs, IV descriptors, release
of plaintext, Quarantine, gaps, and the commands of FRM_L1CMD (chapter 05; R567, R568). -/

namespace Sys2Proof.Machine

open Sys2Proof

namespace Ctrs
def FRAMES_TX : CtrId := ⟨0x20, 0⟩
def FRAMES_RX : CtrId := ⟨0x20, 1⟩
def SHORT_FAIL : CtrId := ⟨0x20, 2⟩
def LONG_FAIL : CtrId := ⟨0x20, 3⟩
def LONG_SKIP : CtrId := ⟨0x20, 4⟩
def REL_UNTRUSTED : CtrId := ⟨0x20, 5⟩
def STOMPED : CtrId := ⟨0x20, 6⟩
def QUAR_FRAMES : CtrId := ⟨0x20, 7⟩
def KEY_MISS_TX : CtrId := ⟨0x20, 8⟩
def KEY_MISS_RX : CtrId := ⟨0x20, 9⟩
def GAP_FRAMES : CtrId := ⟨0x20, 10⟩
def AIS_RX : CtrId := ⟨0x20, 11⟩
def FILL_RX : CtrId := ⟨0x20, 12⟩
def SEQ_ERR : CtrId := ⟨0x20, 13⟩
def EPOCH_ERR : CtrId := ⟨0x20, 14⟩
def HOLD_ERR : CtrId := ⟨0x20, 16⟩
def CW_DISAGREE : CtrId := ⟨0x20, 17⟩
def CW_BAD : CtrId := ⟨0x20, 18⟩
end Ctrs

/-- ROLE of a group (R180). -/
def State.l1Role (s : State) (g : Nat) : Nat := s.rd FRM_L1CTL.ROLE g

/-! ### IV and tags (R145, R153, R154) -/

/-- The IV of an ODU frame (R145). -/
def oduIv (role chan epoch count : Nat) : Octets :=
  beBytes 2 (role * 2 ^ 15 + chan % 2 ^ 12) ++ beBytes 2 epoch ++ beBytes 8 count

/-- The accumulator after one more span of ciphertext (R154). -/
def MfAcc.take (a : MfAcc) (cipher : Octets) : MfAcc :=
  let h := Crypto.be (Crypto.encBlockKs (Crypto.keySchedule (Crypto.toN a.key)) (List.replicate 16 0))
  { a with y := Crypto.ghashFrom h a.y (Crypto.blocks (Crypto.toN cipher)), n := a.n + 1 }

/-- The long tag of a whole multiframe (R154). -/
def MfAcc.tag (a : MfAcc) : Octets :=
  let ks := Crypto.keySchedule (Crypto.toN a.key)
  let h := Crypto.be (Crypto.encBlockKs ks (List.replicate 16 0))
  let y := Crypto.ghashMul (a.y ^^^ (256 * 121856)) 128 h 0
  Crypto.ofN (Crypto.xorL (Crypto.unbe 16 y) (Crypto.encBlockKs ks (Crypto.toN (a.iv ++ [0, 0, 0, 0]))))

/-- The accumulator after frame `j` of a multiframe was ciphered in full under a key (R154, R155). -/
def accAfter (a : Option MfAcc) (j : Nat) (key iv cipher : Octets) : Option MfAcc :=
  if j = 0 then some (MfAcc.take { key := key, iv := iv, y := 0, n := 0 } cipher)
  else match a with
    | some x => if x.n = j ∧ x.key = key then some (x.take cipher) else none
    | none => none

/-- The long tag when all 256 frames have been taken. -/
def accDone (a : Option MfAcc) : Option Octets := (a.filter (fun x => decide (x.n = 256))).map MfAcc.tag

/-! ### Overhead (R142, R143, R151, R179) -/

/-- Position field `k` of FRM_COOPOS (R179): row − 1 and column − 1. -/
def cooPos (v k : Nat) : Nat := bits v (6 * k + 5) (6 * k)

/-- The COO of a frame's overhead, taken from their positions (R151). -/
def State.cooFrom (s : State) (g : Nat) (overhead : Octets) : Octets :=
  (List.range 8).map (fun k => overhead.getD (cooPos (s.reg .FRM_COOPOS g).toNat k) 0)

/-- The FAS of a frame, columns 1 to 6 of row 1 (R559; PRESUMED: G.709 for columns 1 and 6). -/
def fasOctets : Octets := [0xF6, 0xF6, 0xF6, 0x28, 0x28, 0x28]
/-- The FAS of a frame's overhead is correct (R559). -/
def fasOk (overhead : Octets) : Bool := decide (slice overhead 1 4 = slice fasOctets 1 4)

/-- The overhead of frame `n` of a channel (R142, R143, R151): the FAS, count[7:0] as the MFAS, and the COO at their
positions; 0 elsewhere. -/
def State.oduOverhead (s : State) (g n : Nat) (coo : Octets) : Octets :=
  (List.range 8).foldl (fun o k => setAt o (cooPos (s.reg .FRM_COOPOS g).toNat k) (coo.getD k 0))
    (fasOctets ++ [BitVec.ofNat 8 n] ++ List.replicate 57 0)

/-! ### Keys of a channel (R158 to R160) -/

/-- A slot of a channel holds a usable key. -/
def State.l1Key (s : State) (c slot : Nat) : Bool := s.usable 1 (2 * c + slot)
/-- Epoch of the key of a slot. -/
def State.l1Epoch (s : State) (c slot : Nat) : Nat := (s.kslot 1 (2 * c + slot)).epoch

/-- A Race reads the key of a slot (R107); `bad`: SECDED finds it uncorrectable, which is logged. -/
def State.readL1Key (s : State) (c slot : Nat) (bad : Bool) : Option Octets × State :=
  if !s.l1Key c slot then (none, s)
  else if bad then (none, s.report 0x63 (s.handle 1 (2 * c + slot)))
  else (some (slice (s.kslot 1 (2 * c + slot)).key 0 32), s)

/-- The slot and its key as an IV descriptor takes them. -/
def State.slotKey (s : State) (c slot : Nat) (bad : Bool) : SlotKey × State :=
  let (k, s1) := s.readL1Key c slot bad
  ({ slot := slot, epoch := s.l1Epoch c slot, gen := (s.kslot 1 (2 * c + slot)).gen, key := k }, s1)

/-! ### Gaps (R175, R567) -/

/-- A frame that was not wholly encrypted joins the channel's gap (R175). -/
def State.gapFrame (s : State) (c n : Nat) : State :=
  let x := s.l1run c
  let s1 := if x.gapOpen then s else (s.rwr L1.GAP_FIRST c n).setL1 c { x with gapOpen := true }
  (s1.rwr L1.GAP_LAST c n).count Ctrs.GAP_FRAMES c

/-! ### Toward the line (R109, R143, R147 to R149, R155, R163, R174, R175, R177) -/

/-- COO 6 and 7 of frame `n` (R149). -/
def cooWord (role n : Nat) (long : Option Octets) : Octets :=
  let j := n % 256
  let base := n - j
  if j < 8 then slice (long.getD []) (2 * j) 2
  else if j < 12 then slice (beBytes 8 base) (2 * (j - 8)) 2
  else if j = 12 then [(beBytes 8 base).foldl (fun a b => a ^^^ b) 0x5A, BitVec.ofNat 8 role]
  else [0, 0]

/-- The COO of a frame (R147, R148) under the key of a slot and an epoch; COO 2 to 5 are free octets while STV is 0. -/
def State.cooOf (s : State) (c n slot e : Nat) (fill : Bool) : Octets × State :=
  let x := s.l1run c
  let long := if n % 256 < 8 then x.txLong else none
  let nxt := s.l1Key c (1 - slot) && decide (s.l1Epoch c (1 - slot) = (e + 1) % 2 ^ 16)
  let b0 := b2n x.txTag.isSome * 128 + b2n long.isSome * 64 + b2n nxt * 32 + b2n fill * 16 + e % 16
  let (t, s1) := match x.txTag with
    | some t => (t, s)
    | none => s.drawOctets 4
  ([BitVec.ofNat 8 b0, BitVec.ofNat 8 n] ++ t ++ cooWord (s.l1Role (chanGroup c)) n long, s1)

/-- The frame under way passes the rest of its lanes at every Race that computes the channel and has not withheld a block
(R114); where a checker has flagged a GHASH product, that Race withholds the tag block (R118). -/
def State.passTx (s : State) (c : Nat) (f : TxFrame) : State :=
  (s.computing (chanGroup c) c).foldl (fun (a : State) k =>
    if a.withheld k 0 then a else (a.passFrame k 0 c (a.txFlow c k f)).2) s

/-- The join entry of a channel of a Twin group, written at every ODU frame boundary (R288, R307). -/
def State.joinEntry (s : State) (c n : Nat) (acc : Option MfAcc) : State :=
  let g := chanGroup c
  if s.twin g ∧ s.leaseHeld g then
    s.setWgrp g { s.wgrp g with join := Tbl.put (s.wgrp g).join c (n, acc) }
  else s

/-- What follows for the tags, the gap and retirement when the frame `f` has left (R155, R162, R175). -/
def State.frameLeft (s : State) (c : Nat) (f : TxFrame) : State :=
  let x := s.l1run c
  let g := chanGroup c
  let j := f.count % 256
  let head := s.oduOverhead g f.count f.coo
  let part := match f.kind, f.cut with | .enc, some p => some p | _, _ => none
  match f.kind, part with
  | .enc, none =>
    let acc := accAfter x.txAcc j f.key f.ks.iv f.payload
    let y := { x with
      cur := none, txTag := f.tag
      txAcc := if j = 255 then none else acc
      txLong := if j = 255 then (if x.txVeto then none else accDone acc) else x.txLong
      txVeto := if j = 255 then false else x.txVeto
      txSeven := if j = 7 then some (f.slot, f.gen) else x.txSeven }
    (((s.setL1 c y).emit (.oduFrame c head f.payload)).count Ctrs.FRAMES_TX c).joinEntry c f.count y.txAcc
  | kind, cut =>
    let y := { x with cur := none, txTag := none, txAcc := none, txLong := if j = 255 then none else x.txLong }
    let s1 := (s.setL1 c y).joinEntry c f.count none
    match kind, cut with
    | .ais, _ => if f.gap then (s1.emit (.oduAis c)).gapFrame c f.count else s1.emit (.oduAis c)
    | .fill, _ => s1.emit (.oduFrame c head f.payload)
    | .enc, p =>
      let n := p.getD 0
      let s2 := s1.emit (.oduFrame c head (f.payload.take n ++ List.replicate (spanLen - n) 0xFF))
      if spanLen ≤ n then s2.count Ctrs.FRAMES_TX c else s2.gapFrame c f.count

/-- The frame a channel sends has left. -/
def State.finishTx (s : State) (c : Nat) : State :=
  match (s.l1run c).cur with
  | none => s
  | some f =>
    let s1 := if f.kind = .enc ∧ f.cut = none then s.passTx c f else s
    match (s1.l1run c).cur with
    | none => s1
    | some y => s1.frameLeft c y

/-- A frame started: it is under way, and the count advances (R143). -/
def State.startTx (s : State) (c : Nat) (f : TxFrame) : State :=
  (s.setL1 c { s.l1run c with cur := some f }).rwr L1.TX_COUNT c ((f.count + 1) % 2 ^ 64)

/-- The slot whose key frame `n` is to carry, when its IV descriptor is issued now (R161). -/
def State.txSlotFor (s : State) (c n : Nat) : Nat := if n % 256 = 0 then s.rrd L1.TX_SLOT c else (s.l1run c).txUse

/-- The IV descriptor of frame `n` issued (R109): a Race of the group reads the key, and a use of it is taken (R163,
R252); an exhausted key is missing. -/
def State.issueTx (s : State) (c n : Nat) (bad : Bool) : State :=
  let slot := s.txSlotFor c n
  let (k, s1) := s.slotKey c slot bad
  let key := if (s1.kslot 1 (2 * c + slot)).spent 1 then none else k.key
  let s2 := if key.isSome then s1.takeUse 1 (2 * c + slot) 1 else s1
  let x := s2.l1run c
  let lane := startLane ((x.cur.filter (fun f => decide (f.kind = .enc))).map (fun f => (f.ks.lane, oduLanes)))
  let d : L1Desc := { count := n, keys := [{ k with key := key }],
                      ks := { iv := oduIv (s.l1Role (chanGroup c)) c k.epoch n, lane := lane, total := oduLanes } }
  s2.setL1 c { x with txDesc := some d }

/-- The descriptor under which frame `n` goes: the one issued when the frame before it started, its keystream ready by
now (R109), or one issued now. A descriptor of another frame is dropped with its keystream (R110, R111). -/
def State.txDescFor (s : State) (c n : Nat) (bad : Bool) : State :=
  if ((s.l1run c).txDesc.map (fun d => d.count)) = some n then s.l1Ready c .egress
  else ((s.dropDesc c .egress).issueTx c n bad).l1Ready c .egress

/-- A frame encrypted under its descriptor (R105, R145, R153). -/
def State.encryptTx (s : State) (c n : Nat) (d : L1Desc) (k : SlotKey) (key payload : Octets) : State :=
  let (coo, s1) := s.cooOf c n k.slot k.epoch false
  let plain := slice payload 0 spanLen
  let (cipher, tag) := Crypto.gcm false key d.ks.iv (coo.take 2) plain
  let f : TxFrame := { count := n, kind := .enc, coo := coo, payload := cipher, plain := plain, key := key, ks := d.ks,
                       tag := some (tag.take 4), slot := k.slot, gen := k.gen }
  (s1.setL1 c { s1.l1run c with gap := false, gapOpen := false, txUse := k.slot, txDesc := none }).startTx c f

/-- Frame `n` goes under its descriptor: encrypted, or as ODU-AIS for want of a key (R174). -/
def State.sendTx (s : State) (c n : Nat) (payload : Octets) : State :=
  let miss := (((s.count Ctrs.KEY_MISS_TX c).raceKeyMiss (chanGroup c) c 0).dropDesc c .egress).startTx c { count := n, kind := .ais }
  match (s.l1run c).txDesc with
  | some d =>
    match d.keys with
    | k :: _ => match k.key with
      | some key => s.encryptTx c n d k key payload
      | none => miss
    | [] => miss
  | none => miss

/-- L1_TX_FRAME (R143): an L1 channel of a group whose transmit framer runs starts a frame with the span `payload`, and
the IV descriptor of the frame after it is issued (R109); `bad`: the key read is uncorrectable. In M2 and M8 test
patterns take its place (R610). -/
def execL1TxFrame (c : Channel) (payload : Octets) (bad : Bool) (s : State) : Host.Outcome State Fault Refusal :=
  let g := chanGroup c
  if !s.l1Chan c ∨ !s.is FRM_CTL.TX_EN g ∨ s.mode = 2 ∨ s.mode = 8 then .next s
  else if !s.ris L1.EN c then .next (s.emit (.oduOci c))
  else
    let s0 := s.finishTx c
    let x := s0.l1run c
    let n := s0.rrd L1.TX_COUNT c
    if s.ris L1.CLOSING c then
      if x.filled then .next s0
      else
        let slot := s0.txSlotFor c n
        let (coo, s1) := (s0.dropDesc c .egress).cooOf c n slot (s0.l1Epoch c slot) true
        let f : TxFrame := { count := n, kind := .fill, coo := coo, payload := List.replicate spanLen 0 }
        .next ((s1.setL1 c { s1.l1run c with filled := true }).startTx c f)
    else if !s0.flows g 0 ∨ s0.is WEI_GRP_CFG.CLOSING g then
      .next ((s0.dropDesc c .egress).startTx c { count := n, kind := .ais, gap := x.gap })
    else .next (((s0.txDescFor c n bad).sendTx c n payload).issueTx c ((n + 1) % 2 ^ 64) bad)

/-- What a channel keeps when it closes, and when it starts: its alignment, a gap being recorded, a pending retirement,
and Quarantine. -/
def L1Run.kept (x : L1Run) : L1Run :=
  { align := x.align, gapOpen := x.gapOpen, retire := x.retire, txSeven := x.txSeven, rxSeven := x.rxSeven
    quarFirst := x.quarFirst, quarLast := x.quarLast, quarDone := x.quarDone, quarFrom := x.quarFrom }

/-! ### Alignment of a received ODUflex (R559 to R561) -/

/-- Alignment after a frame whose FAS was correct or errored, with its MFAS. -/
def Align.step (a : Align) (fas : Bool) (mfas : Nat) : Align :=
  let b : Align :=
    if a.inFrame then
      if fas then { a with streak := 0 }
      else if a.streak + 1 = 5 then { a with inFrame := false, streak := 0, inMf := false, mfas := none, mfBad := 0 }
      else { a with streak := a.streak + 1 }
    else if fas then (if a.streak + 1 = 2 then { a with inFrame := true, streak := 0 } else { a with streak := 1 })
    else { a with streak := 0 }
  let m : Align :=
    if !b.inFrame then b
    else match b.mfas with
      | none => { b with mfas := some (mfas % 256) }
      | some e =>
        let want := (e + 1) % 256
        if b.inMf then
          if mfas % 256 = want then { b with mfas := some want, mfBad := 0 }
          else if b.mfBad + 1 = 5 then { b with inMf := false, mfas := some (mfas % 256), mfBad := 0 }
          else { b with mfas := some want, mfBad := b.mfBad + 1 }
        else { b with mfas := some (mfas % 256), inMf := decide (mfas % 256 = want), mfBad := 0 }
  if m.inFrame && m.inMf then { m with away := 0, home := m.home + 1 } else { m with away := m.away + 1, home := 0 }

/-- A defect bit of FRM_CHSTAT raised or cleared, with its latched bit (R579). -/
def State.chDefect (s : State) (c b : Nat) (on : Bool) : State :=
  let g := chanGroup c
  let t := chanSlot c
  let v := (s.reg .FRM_CHSTAT g t).toNat
  let w := setBits v b b (b2n on)
  s.setReg .FRM_CHSTAT (BitVec.ofNat 64 (if on && !v.testBit b then setBits w (b + 16) (b + 16) 1 else w)) g t

/-- A defect bit of FRM_CHSTAT. -/
def State.chHas (s : State) (c b : Nat) : Bool := (s.reg .FRM_CHSTAT (chanGroup c) (chanSlot c)).toNat.testBit b

/-- The count lock is lost (R156, R568): nothing is decrypted until it is found again. The multiframe that runs, and one
whose long tag has had no verdict yet, cannot be checked (R170). -/
def State.unlock (s : State) (c : Nat) : State :=
  let x := s.l1run c
  let s1 := (s.count Ctrs.LONG_SKIP c (1 + b2n x.longDue)).dropDesc c .ingress
  (s1.rwr L1.CNT_LOCK c 0).setL1 c { s1.l1run c with
    word := none, disagree := false, sel := 0, rxAcc := none, longTag := none, frags := [], fragOk := false,
    longReady := false, longDue := false, passes := 0 }

/-- ODUFLEX_FRAME_ALIGN (R561): a channel's alignment moves on by a frame; LOFLOM is raised after 3 frames out, cleared
after 3 in; the count lock goes with frame alignment. -/
def State.alignOdu (s : State) (c : Nat) (fas : Bool) (mfas : Option Nat) : State :=
  let x := s.l1run c
  let guess := match x.align.mfas with | some e => (e + 1) % 256 | none => 0
  let a := x.align.step fas (mfas.getD guess)
  let s1 := s.setL1 c { x with align := a }
  let s2 := if x.align.inFrame ∧ !a.inFrame ∧ s.ris L1.CNT_LOCK c then s1.unlock c else s1
  if 3 ≤ a.away then s2.chDefect c 0 true else if 3 ≤ a.home then s2.chDefect c 0 false else s2

/-! ### Release toward the client (R165 to R173) -/

/-- Where the hold area keeps a frame: sector of its first octet; frames alternate between the halves of the channel's
32 KiB (DESIGN CHOICE). -/
def State.holdSector (s : State) (c n : Nat) : Nat :=
  (s.rd FRM_L1HOLD.BASE_MB (chanGroup c) * 2 ^ 20 + chanSlot c * 32768 + n % 2 * 16384) / 256

/-- Octets written to consecutive sectors through the framers' hold port (R166). -/
def State.holdWrite (s : State) (sec : Nat) : List Octets → Bool × State
  | [] => (true, s)
  | o :: t =>
    match s.culWrite { req := 7, gen := none } sec 0 o with
    | (true, s1) => s1.holdWrite (sec + 1) t
    | (false, s1) => (false, s1)

/-- `n` octets read from consecutive sectors. -/
def State.holdRead (s : State) (sec : Nat) : List Nat → Option Octets × State
  | [] => (some [], s)
  | n :: t =>
    match s.culRead { req := 7, gen := none } sec 0 n with
    | (none, s1) => (none, s1)
    | (some o, s1) =>
      match s1.holdRead (sec + 1) t with
      | (some r, s2) => (some (o ++ r), s2)
      | (none, s2) => (none, s2)

/-- The octets of a span, sector by sector. -/
def spanSectors (o : Octets) : List Octets := (List.range 60).map (fun k => (o.drop (256 * k)).take 256)
/-- Octets in each sector of a span. -/
def spanLens : List Nat := List.replicate 59 256 ++ [128]

/-- A span sent toward the client as the local-fault sequence. -/
def State.lf (s : State) (c : Nat) : State := s.emit (.localFault c)

/-- The frame whose plaintext leaves has left: its octets from `skip` on, up to where it was cut (R121, R165, R172). -/
def State.finishLeaving (s : State) (c : Nat) : State :=
  let x := s.l1run c
  match x.leaving with
  | none => s
  | some f =>
    let o := match f.cut with | some p => (f.plain.take p).drop f.skip | none => f.plain.drop f.skip
    let s1 := s.setL1 c { x with leaving := none }
    let s2 := if 0 < f.skip then s1.lf c else s1
    let s3 := if o = [] then s2 else s2.emit (.clientOdu c f.count f.trust o)
    if f.cut.isSome then s3.lf c else s3

/-- A frame whose payload Quarantine replaces, in whole or in part: counted, and the last one so far (R172, R173). -/
def State.quarFrame (s : State) (c n : Nat) : State :=
  (s.setL1 c { s.l1run c with quarLast := n }).count Ctrs.QUAR_FRAMES c

/-- A frame's plaintext goes toward the client, in its trust state; while Quarantine runs the local-fault sequence takes
its place (R165, R172). -/
def State.release (s : State) (c n : Nat) (plain : Octets) (trust : Trust) : State :=
  let s0 := s.finishLeaving c
  let f : Leaving := { count := n, plain := plain, trust := trust, cut := if s.ris L1.QUAR c then some 0 else none }
  let s1 := if s.ris L1.QUAR c then s0.quarFrame c n else s0
  s1.setL1 c { s1.l1run c with leaving := some f }

/-- A frame whose place is taken by the local-fault sequence for another cause. -/
def State.replaced (s : State) (c n : Nat) : State :=
  if s.ris L1.QUAR c then (s.quarFrame c n).lf c else s.lf c

/-- The channel is Frame-verified (R165). -/
def State.verified (s : State) (c : Nat) : Bool := s.ris L1.POLICY c

/-- A decrypted frame that no verdict precedes: in Cut-through it is released, Unverified; in Frame-verified it goes to
the hold area (R165, R166). -/
def State.takeFrame (s : State) (c : Nat) (f : RxFrame) : State :=
  if s.verified c then
    let (ok, s1) := s.holdWrite (s.holdSector c f.count) (spanSectors f.plain)
    s1.setL1 c { s1.l1run c with pend := some { f with held := ok } }
  else (s.setL1 c { s.l1run c with pend := some f }).release c f.count f.plain .unverified

/-- An Ethernet frame toward the client that ends after the octets which have left, with the FCS stomped over them
(R122, R172). -/
def State.ethEnd (s : State) (c : Nat) (e : EthPart) : State :=
  let x := e.octets.take e.passed
  if x = [] then s else s.emit (.clientStomp c (x ++ stomp x))

/-- An Ethernet frame toward the client that leaves whole, with the FCS stomped over its plaintext (R122, R169). -/
def State.ethStomp (s : State) (c : Nat) (e : EthPart) : State := s.emit (.clientStomp c (e.octets ++ stomp e.octets))

/-- Ethernet frames at a failed tag (R168 to R170, R172): `rel` released whole before it, and those whose FCS has not left,
each ended where it stands when the data behind is replaced, or else left whole with its FCS stomped. -/
def State.ethFailed (s : State) (c rel : Nat) (l : List EthPart) (cut : Bool) : State :=
  let s1 := (s.count Ctrs.REL_UNTRUSTED c rel).count Ctrs.STOMPED c l.length
  l.foldl (fun (a : State) e => if cut then a.ethEnd c e else a.ethStomp c e) s1

/-- The Quarantine entry of a channel is installed (R172, R343). -/
def State.quarOrder (s : State) (c : Nat) : Bool :=
  match s.orderFor 0x02 c with
  | some e => e.flags.testBit 3
  | none => false

/-- Quarantine starts, or starts its count again (R172): the frame that leaves is cut after `p` octets, and what follows
is replaced. -/
def State.quarantine (s : State) (c p : Nat) : State :=
  let x := s.l1run c
  if s.ris L1.QUAR c then s.setL1 c { x with passes := 0, whole := none, quarDone := false }
  else
    let now := s.rrd L1.RX_COUNT c
    let y := { x with passes := 0, whole := none, quarDone := false, quarFirst := (x.leaving.map (fun f => f.count)).getD now }
    let s1 := s.rwr L1.QUAR c 1
    match x.leaving with
    | some f => (s1.setL1 c { y with leaving := some { f with cut := some (min p (f.cut.getD spanLen)) } }).quarFrame c f.count
    | none => s1.setL1 c y

/-- The UNTRUSTED defect (R171), and Quarantine when its entry is installed; `n` is the count reported, `p` the octets of
the leaving frame that are out. -/
def State.untrusted (s : State) (c n p : Nat) : State :=
  let s1 := (s.rwr L1.UNTRUSTED c 1).raiseEvent 0x02 c (BitVec.ofNat 64 n)
  if s.quarOrder c then s1.quarantine c p else s1

/-! ### From the line (R109, R112, R146, R156, R157, R159, R167, R568) -/

/-- The next count whose low octet is the received MFAS (R156). An MFAS out of its turn is followed to the next count that
has it (DESIGN CHOICE); a count word that disagrees then loses the lock. -/
def nextCount (old mfas : Nat) : Nat :=
  (old + 1 + (mfas + 256 - (old + 1) % 256) % 256) % 2 ^ 64

/-- The last decrypted frame passes the rest of its lanes at every Race that computes the channel (R114). -/
def State.passRx (s : State) (c : Nat) (f : RxFrame) : State :=
  (s.computing (chanGroup c) c).foldl (fun (a : State) k =>
    if a.withheld k 1 then a else a.passLanes k 1 (a.rxFlow c k f) (Tbl.get 0 f.passed k) (oduLanes - 1)) s

/-- The last decrypted frame gets its verdict: with a short tag, or without one (R167). -/
def State.askVerdict (s : State) (c : Nat) (tag : Option Octets) : State :=
  match (s.l1run c).pend with
  | none => s
  | some f =>
    let s1 := s.passRx c f
    s1.setL1 c { s1.l1run c with judge := some (f, tag), pend := none }

/-- A frame that is not decrypted: the frame before it finds its tag or none, its own keystream is discarded, and the
local-fault sequence takes its place (R110, R167, R174). -/
def State.notDecrypted (s : State) (c n : Nat) (tag : Option Octets) : State :=
  let s1 := (s.askVerdict c tag).dropDesc c .ingress
  (s1.setL1 c { s1.l1run c with rxAcc := none }).replaced c n

/-- Fragments of the long tag taken from frames 0 to 7 (R149), and the long-tag verdict due after frame 7. -/
def State.takeFrag (s : State) (c n : Nat) (coo : Option Octets) : State :=
  let x := s.l1run c
  let j := n % 256
  if 7 < j then s
  else
    let ltv := match coo with | some o => (o.headD 0).toNat.testBit 6 | none => false
    let o := match coo with | some o => slice o 6 2 | none => [0, 0]
    let frags := if j = 0 then o else x.frags ++ o
    let ok := ltv && (decide (j = 0) || (x.fragOk && decide (frags.length = 2 * j + 2)))
    s.setL1 c { x with frags := frags, fragOk := ok, longReady := decide (j = 7), longDue := x.longDue || decide (j = 0) }

/-- The slots whose keys the descriptor of received frame `n` reads: for frame 0 those that hold keys (R112), else the one
that frame 0 chose. -/
def State.rxSlots (s : State) (c n : Nat) : List Nat :=
  if n % 256 = 0 then [0, 1].filter (fun k => s.l1Key c k)
  else match (s.l1run c).sel with
    | k + 2 => [k]
    | _ => []

/-- The IV of a received frame (R146). -/
def State.rxIv (s : State) (c epoch n : Nat) : Octets := oduIv (1 - s.l1Role (chanGroup c)) (s.rrd L1.PEER_CHAN c) epoch n

/-- The IV descriptor of received frame `n` issued (R109), while a Race of the group decrypts. -/
def State.issueRx (s : State) (c n : Nat) (bad : Bool) : State :=
  let g := chanGroup c
  if !s.flows g 1 ∨ s.is WEI_GRP_CFG.CLOSING g then s
  else
    let (ks, s1) := (s.rxSlots c n).foldl (fun (p : List SlotKey × State) k =>
      let (x, t) := p.2.slotKey c k bad
      (p.1 ++ [x], t)) ([], s)
    let x := s1.l1run c
    let lane := startLane (x.pend.map (fun f => (f.ks.lane, oduLanes - 1)))
    let total := if n % 256 = 0 then 256 * ks.length else if ks = [] then 0 else oduLanes
    let iv := match ks with | k :: _ => s.rxIv c k.epoch n | [] => []
    s1.setL1 c { x with rxDesc := some { count := n, keys := ks, ks := { iv := iv, lane := lane, total := total } } }

/-- The descriptor of received frame `n`: the one issued when the frame before it started, its keystream ready by now
(R109), or one issued now; one of another frame is dropped with its keystream (R110). -/
def State.rxDescFor (s : State) (c n : Nat) (bad : Bool) : State :=
  if ((s.l1run c).rxDesc.map (fun d => d.count)) = some n then s.l1Ready c .ingress
  else ((s.dropDesc c .ingress).issueRx c n bad).l1Ready c .ingress

/-- The slot that frame 0 of a multiframe chooses among the keys of its descriptor (R112, R159): 2 + slot, or 1 for none;
RX_EPOCH, and the blocks of the keys not chosen discarded, 256 for each. -/
def State.chooseSlot (s : State) (c nib : Nat) : State :=
  let x := s.l1run c
  let held := match x.rxDesc with | some d => d.keys | none => []
  let fit := held.filter (fun k => decide (k.epoch % 16 = nib))
  let drop := 256 * (if fit.length = 1 then held.length - 1 else held.length)
  let s1 := s.discardKs (chanGroup c) c 1 drop
  match fit with
  | [k] =>
    let chosen := fun (d : L1Desc) => { d with
      keys := [k], ks := { d.ks with iv := s.rxIv c k.epoch d.count, total := oduLanes, ready := min 256 d.ks.ready } }
    (s1.setL1 c { s1.l1run c with sel := 2 + k.slot, nib := nib, rxDesc := x.rxDesc.map chosen }).rwr L1.RX_EPOCH c k.epoch
  | _ => s1.setL1 c { s1.l1run c with sel := 1, nib := nib, rxDesc := none }

/-- A frame decrypted under the key that frame 0 chose (R146, R153, R154). -/
def State.decryptRx (s : State) (c n : Nat) (ks : Stream) (k : SlotKey) (key coo payload : Octets) (tag : Option Octets) : State :=
  let span := slice payload 0 spanLen
  let (plain, t) := Crypto.gcm true key ks.iv (coo.take 2) span
  let s1 := (s.count Ctrs.FRAMES_RX c).askVerdict c tag
  let x := s1.l1run c
  let j := n % 256
  let acc := accAfter x.rxAcc j key ks.iv span
  let y := { x with
    rxDesc := none
    rxAcc := if j = 255 then none else acc
    longTag := if j = 255 then accDone acc else x.longTag
    longFrom := if j = 255 then n - 255 else x.longFrom
    rxSeven := if j = 7 then some (k.slot, k.gen) else x.rxSeven }
  let f : RxFrame := { count := n, plain := plain, tag := t.take 4, cipher := span, slot := k.slot, ks := ks }
  let s2 := s1.setL1 c y
  if y.judge.isSome then s2.setL1 c { y with next := some f } else s2.takeFrame c f

/-- A received frame for which no key is usable (R159, R174). -/
def State.rxMiss (s : State) (c n : Nat) (tag : Option Octets) : State :=
  ((s.count Ctrs.KEY_MISS_RX c).raceKeyMiss (chanGroup c) c 1).notDecrypted c n tag

/-- A received frame with readable overhead, while the count is locked (R157, R159). -/
def State.lockedRx (s : State) (c n : Nat) (coo payload : Octets) (bad : Bool) : State :=
  let b0 := (coo.headD 0).toNat
  let j := n % 256
  let s0 := if (slice coo 1 1) = [BitVec.ofNat 8 n] then s else s.count Ctrs.SEQ_ERR c
  let s1 := (s0.takeFrag c n (some coo)).rxDescFor c n bad
  let tag := if b0.testBit 7 then some (slice coo 2 4) else none
  let s2 := if j = 0 then s1.chooseSlot c (b0 % 16)
    else if 1 ≤ (s1.l1run c).sel ∧ b0 % 16 ≠ (s1.l1run c).nib then s1.count Ctrs.EPOCH_ERR c else s1
  if b0.testBit 4 then (s2.count Ctrs.FILL_RX c).notDecrypted c n tag
  else if (s2.l1run c).sel = 0 then s2.notDecrypted c n tag
  else if (s2.l1run c).sel = 1 then s2.rxMiss c n tag
  else if !s2.flows (chanGroup c) 1 then s2.notDecrypted c n tag
  else match (s2.l1run c).rxDesc with
    | some d => match d.keys with
      | k :: _ => match k.key with
        | some key => s2.decryptRx c n d.ks k key coo payload tag
        | none => s2.rxMiss c n tag
      | [] => s2.rxMiss c n tag
    | none => s2.notDecrypted c n tag

/-- A frame without readable overhead, while the count is locked: it takes its count (R568). -/
def State.blankRx (s : State) (c : Nat) (bad : Bool) : State :=
  let n := (s.rrd L1.RX_COUNT c + 1) % 2 ^ 64
  let s1 := ((s.rwr L1.RX_COUNT c n).takeFrag c n none).rxDescFor c n bad
  let x := s1.l1run c
  let s2 := if n % 256 = 0 then s1.setL1 c { x with sel := 0 } else s1
  let s3 := if n % 256 = 255 then s2.setL1 c { s2.l1run c with longTag := none, longFrom := n - 255 } else s2
  s3.notDecrypted c n none

/-- What arrives, once the channel's alignment has moved on; then the descriptor of the frame after it is issued. A frame
that finds no count lock has no count, so Quarantine does not count it. -/
def State.oduArrives (s : State) (c : Nat) (r : OduRx) (bad : Bool) : State :=
  let locked := s.ris L1.EN c && s.ris L1.CNT_LOCK c
  let next := fun (t : State) => t.issueRx c ((t.rrd L1.RX_COUNT c + 1) % 2 ^ 64) bad
  match r with
  | .frame overhead payload _ =>
    let coo := s.cooFrom (chanGroup c) overhead
    if locked then
      let n := nextCount (s.rrd L1.RX_COUNT c) (overhead.getD 6 0).toNat
      next ((s.rwr L1.RX_COUNT c n).lockedRx c n coo payload bad)
    else
      let s1 := if s.ris L1.EN c ∧ (coo.headD 0).toNat.testBit 4 then s.count Ctrs.FILL_RX c else s
      (s1.askVerdict c none).lf c
  | .ais => if locked then next ((s.count Ctrs.AIS_RX c).blankRx c bad) else (s.count Ctrs.AIS_RX c).lf c
  | .oci => (if locked then (s.askVerdict c none).unlock c else s).lf c
  | _ => if locked then next (s.blankRx c bad) else s.lf c

/-- L1_RX_FRAME (R157, R159): what a channel receives in the place of one ODU frame; `bad`: a key read is uncorrectable.
The verdicts on earlier frames must have been given. The frame whose plaintext left meanwhile has left. -/
def execL1RxFrame (c : Channel) (r : OduRx) (bad : Bool) (s : State) : Host.Outcome State Fault Refusal :=
  let x := s.l1run c
  if !s.l1Chan c ∨ !s.is FRM_CTL.RX_EN (chanGroup c) ∨ x.judge.isSome ∨ x.longReady then .next s
  else
    let s0 := s.finishLeaving c
    let good := s0.otuGood (chanGroup c) && !s0.chHas c 5
    let r' := if good then r else .lost
    let s1 := match r' with
      | .frame o _ _ => s0.alignOdu c (fasOk o) (some (o.getD 6 0).toNat)
      | .lost => s0.alignOdu c false none
      | _ => s0.alignOdu c true none
    let s2 := ((s1.chDefect c 1 (decide (r' = .ais))).chDefect c 2 (decide (r' = .oci))).chDefect c 3 (decide (r' = .lck))
    let s3 := match r' with
      | .frame _ _ bdi => s2.chDefect c 4 bdi
      | _ => s2
    if !(s3.l1run c).align.inFrame then .next ((s3.askVerdict c none).lf c)
    else .next (s3.oduArrives c r' bad)

/-- L1_CHANNEL_CLOSE_END (R177): the FILL frame has left; ODU-OCI begins, EN and CLOSING read 0. A pending retirement and
Quarantine stay as they stand (DESIGN CHOICE). -/
def execL1ChannelCloseEnd (c : Channel) (s : State) : Host.Outcome State Fault Refusal :=
  if s.ris L1.CLOSING c ∧ (s.l1run c).filled then
    let s1 := ((s.finishTx c).finishLeaving c).dropDescs c
    .next ((((s1.rwr L1.EN c 0).rwr L1.CLOSING c 0).setL1 c (s1.l1run c).kept).rwr L1.CNT_LOCK c 0)
  else .next s

/-- COUNT_WORD_RX (R156, R157): the word of frames 8 to 12 of a received multiframe. When a second disagreeing word loses
the lock, the last frame decrypted has no tag any more, since tags are not checked while the count is unlocked (DESIGN
CHOICE), and that word is the first of the new acquisition. -/
def execCountWordRx (c : Channel) (word : Word) (check last : Byte) (s : State) : Host.Outcome State Fault Refusal :=
  let x := s.l1run c
  let w := word.toNat
  if !s.l1Chan c ∨ !s.ris L1.EN c ∨ !s.is FRM_CTL.RX_EN (chanGroup c) ∨ !x.align.inFrame then .next s
  else if check ≠ (beBytes 8 w).foldl (fun a b => a ^^^ b) 0x5A then
    .next ((s.count Ctrs.CW_BAD c).setL1 c { x with word := none })
  else
    let s1 := if last.toNat % 2 = s.l1Role (chanGroup c) then (s.rwr L1.ROLE_CONF c 1).raiseEvent 0x03 c else s
    if s.ris L1.CNT_LOCK c then
      if w = s.rrd L1.RX_COUNT c / 256 * 256 then .next (s1.setL1 c { s1.l1run c with disagree := false })
      else
        let s2 := s1.count Ctrs.CW_DISAGREE c
        if x.disagree then
          let s3 := (s2.askVerdict c none).unlock c
          .next (s3.setL1 c { s3.l1run c with word := some w })
        else .next (s2.setL1 c { s2.l1run c with disagree := true })
    else if x.word = some ((w + 2 ^ 64 - 256) % 2 ^ 64) then
      .next (((s1.rwr L1.CNT_LOCK c 1).rwr L1.RX_COUNT c ((w + 12) % 2 ^ 64)).setL1 c
        { s1.l1run c with word := none, disagree := false, sel := 0, longDue := false })
    else .next (s1.setL1 c { s1.l1run c with word := some w })

/-! ### Verdicts (R118, R166 to R172) -/

/-- A short tag that passed (R165, R166, R172). -/
def State.shortPass (s : State) (c : Nat) (f : RxFrame) : State :=
  let x := s.l1run c
  let j := f.count % 256
  let p := if j = 0 then 1 else if x.passes = j ∧ x.passFrom = f.count - j then j + 1 else 0
  let s1 := s.setL1 c { x with
    passes := p, passFrom := f.count - j, whole := if p = 256 then some (f.count - 255) else x.whole }
  if !s.verified c then s1.emit (.oduTrust c f.count .verified)
  else
    let (r, s2) := if f.held then s1.holdRead (s1.holdSector c f.count) spanLens else (none, s1)
    match r with
    | some o => s2.release c f.count o .verified
    | none => (s2.count Ctrs.HOLD_ERR c).replaced c f.count

/-- A short tag that failed or never came (R167 to R169): in Frame-verified the frame is replaced and the Ethernet frames
at its edges are stomped; in Cut-through those that hold an octet of it are, and UNTRUSTED is raised. -/
def State.shortFail (s : State) (c : Nat) (f : RxFrame) (rel : Nat) (l : List EthPart) : State :=
  let s1 := (s.setL1 c { s.l1run c with passes := 0 }).count Ctrs.SHORT_FAIL c
  if s.verified c then
    (l.foldl (fun (a : State) e => if e.passed = 0 then a.ethStomp c e else a.ethEnd c e)
      (s1.count Ctrs.STOMPED c l.length)).replaced c f.count
  else (s1.ethFailed c rel l (s.quarOrder c)).untrusted c f.count spanLen

/-- The Races whose verification result on a frame a GHASH checker has flagged withhold it (R118, R120): answers whether
a Race is left that reports one. -/
def State.resultOk (s : State) (c : Nat) (f : RxFrame) : Bool × State :=
  let l := s.computing (chanGroup c) c
  let bad := l.filterMap (fun k => (Tbl.get none f.ghash k).map (fun u => (k, u)))
  (decide (bad = []) || decide (bad.length < l.length),
    bad.foldl (fun (a : State) e => a.withhold e.1 1 4 e.2 c (oduLanes - 1) f.count 1 []) s)

/-- SHORT_TAG_VERDICT (R168, R169): on the frame whose tag has arrived or will not come; `rel` Ethernet frames that hold
an octet of it have left whole, `l` are those whose FCS has not left. Then the frame after it goes on. A frame whose
result every Race withholds is not released and gets no verdict (R121). -/
def execShortTagVerdict (c : Channel) (rel : Nat) (l : List EthPart) (s : State) : Host.Outcome State Fault Refusal :=
  let x := s.l1run c
  match x.judge with
  | none => .next s
  | some (f, tag) =>
    let s0 := s.setL1 c { x with judge := none, next := none, vetoShort := false }
    let s1 := match s0.resultOk c f with
      | (true, t) => if tag = some f.tag ∧ !x.vetoShort then t.shortPass c f else t.shortFail c f rel l
      | (false, t) => if s.verified c then t.replaced c f.count else t
    .next (match x.next with
      | some y => s1.takeFrame c y
      | none => s1)

/-- Octets of the leaving frame's span that are out when COO 6 and 7 of the frame being received arrive: those of the rows
before the later of the two (R151). -/
def State.outAtFrag (s : State) (c : Nat) : Nat :=
  let v := (s.reg .FRM_COOPOS (chanGroup c)).toNat
  max (cooPos v 6) (cooPos v 7) / 16 * 3808

/-- LONG_TAG_VERDICT (R170, R172): after frame 7 of the next multiframe; `rel` Ethernet frames hold an octet of the
multiframe and have left, `l` is the one under way toward the client, if any. -/
def execLongTagVerdict (c : Channel) (rel : Nat) (l : List EthPart) (s : State) : Host.Outcome State Fault Refusal :=
  let x := s.l1run c
  if !x.longReady ∨ x.judge.isSome then .next s
  else
    let y := { x with
      longReady := false, longDue := false, longTag := none, frags := [], fragOk := false, whole := none, vetoLong := false }
    let s0 := s.setL1 c y
    match x.longTag with
    | none => .next (s0.count Ctrs.LONG_SKIP c)
    | some t =>
      if !x.fragOk then .next (s0.count Ctrs.LONG_SKIP c)
      else if t = x.frags ∧ !x.vetoLong then
        let done := s.ris L1.QUAR c && decide (x.whole = some x.longFrom) && decide (x.quarFirst < x.longFrom)
        .next ((s0.setL1 c { y with
          quarDone := y.quarDone || done, quarFrom := if done then x.longFrom + 264 else y.quarFrom }).emit
          (.oduTrust c x.longFrom .confirmed))
      else
        let starts := s.quarOrder c && !s.ris L1.QUAR c
        let s1 := (s0.count Ctrs.LONG_FAIL c).ethFailed c rel (if starts then l else []) true
        let old := s.ris L1.QUAR c && decide (x.longFrom ≤ x.quarFirst)
        if old then
          .next (((s1.rwr L1.UNTRUSTED c 1).raiseEvent 0x02 c (BitVec.ofNat 64 x.longFrom)))
        else .next (s1.untrusted c x.longFrom (s.outAtFrag c))

/-- QUARANTINE_END (R172, R173): release resumes at an Ethernet frame start: at octet `resume` of the frame that leaves, or
with the frame after it; after a verified multiframe in frame 8 of the next one or later. In Twin the breach is
recorded. -/
def execQuarantineEnd (c : Channel) (resume : Option Nat) (s : State) : Host.Outcome State Fault Refusal :=
  let x := s.l1run c
  let now := (x.leaving.map (fun f => f.count)).getD (s.rrd L1.RX_COUNT c)
  if !s.ris L1.QUAR c ∨ !x.quarDone ∨ now < x.quarFrom then .next s
  else
    let g := chanGroup c
    let leaving := match resume with
      | some p => x.leaving.map (fun (f : Leaving) => { f with cut := none, skip := p })
      | none => x.leaving
    let s1 := (s.rwr L1.QUAR c 0).setL1 c { x with
      quarDone := false, quarFirst := 0, quarLast := 0, quarFrom := 0, leaving := leaving }
    .next (if s.twin g then
      s1.report 0x23 (x.quarFirst + ((x.quarLast - x.quarFirst) % 2 ^ 32) * 2 ^ 64 + c * 2 ^ 96) g else s1)

/-! ### Switching and retiring (R160 to R162) -/

/-- A transmit switch takes effect (R161): TX_SLOT moves to the other slot, TX_EPOCH follows. -/
def State.l1Switch (s : State) (c : Nat) : State :=
  let t := 1 - s.rrd L1.TX_SLOT c
  ((s.rwr L1.TX_SLOT c t).rwr L1.SW_PEND c 0).rwr L1.TX_EPOCH c (s.l1Epoch c t)

/-- The slot that TX_SLOT does not select holds the key of epoch TX_EPOCH + 1 (R160). -/
def State.nextKey (s : State) (c : Nat) : Bool :=
  let other := 1 - s.rrd L1.TX_SLOT c
  s.l1Key c other && decide (s.l1Epoch c other = (s.rrd L1.TX_EPOCH c + 1) % 2 ^ 16)

/-- The Gauge frame that starts reaches the target of an armed switch (R55 step 1, R161): it takes effect, or is cancelled
when the slot's key is not the next one any more (R160). -/
def State.tryL1Switch (s : State) (c : Nat) : State :=
  if s.ris L1.SW_PEND c ∧ atOrAfter (s.gauge (chanGroup c)) (reading (s.rrd L1.SW_FRAME c) 0) then
    if s.nextKey c then s.l1Switch c else (s.rwr L1.SW_PEND c 0).count Ctrs.L1_SW_CANCEL c
  else s

/-- RETIREMENT_COMPLETE (R162): both directions have passed frame 7 of a multiframe under the newer key; the retiring
slot is cleared to zero. -/
def execRetirementComplete (c : Channel) (s : State) : Host.Outcome State Fault Refusal :=
  let x := s.l1run c
  let other := 1 - x.retire
  let now := some (other, (s.kslot 1 (2 * c + other)).gen)
  if s.ris L1.RET_PEND c ∧ x.txSeven = now ∧ x.rxSeven = now then
    .next ((s.rwr L1.RET_PEND c 0).endKey 1 (2 * c + x.retire) true)
  else .next s

/-! ### Registers (R152, R180, R181) -/

/-- The positions of a word are allowed (R152). -/
def cooPosOk (v : Nat) : Bool :=
  let p := (List.range 8).map (cooPos v)
  decide p.Nodup && p.all (fun x => !(decide (x / 16 = 0) && decide (x % 16 < 7))) && decide (p.headD 0 / 16 ≤ 1) &&
  ((p.drop 2).take 4).all (fun x => decide (x / 16 = 0))

/-- A write to FRM_COOPOSg (R152). -/
def State.cooposWrite (s : State) (g : Nat) (v : Word) : State :=
  if !cooPosOk v.toNat ∨ (s.l1Enabled g ≠ [] ∧ v ≠ s.reg .FRM_COOPOS g) then s.mark FRM_L1CTL.REJECT g
  else s.plainWrite .FRM_COOPOS v g

/-- A write to FRM_L1CTLg (R180). -/
def State.l1ctlWrite (s : State) (g : Nat) (v : Word) : State :=
  if FRM_L1CTL.ROLE.of v ≠ s.l1Role g ∧ s.l1Enabled g ≠ [] then s.mark FRM_L1CTL.REJECT g
  else s.plainWrite .FRM_L1CTL v g

/-- FRM_L1CTL_WRITE (R180). -/
def execFrmL1ctlWrite (g : Group) (v : Word) (s : State) : Host.Outcome State Fault Refusal :=
  guardRsvd .FRM_L1CTL v (.next (s.l1ctlWrite g v))

/-- A write to FRM_L1HOLDg (R181). -/
def State.l1holdWrite (s : State) (g : Nat) (v : Word) : State :=
  if FRM_L1HOLD.EN.of v = 1 ∧ 65531 < FRM_L1HOLD.BASE_MB.of v then s.mark FRM_L1CTL.REJECT g
  else s.plainWrite .FRM_L1HOLD v g

/-- FRM_L1HOLD_WRITE (R181). -/
def execFrmL1holdWrite (g : Group) (v : Word) (s : State) : Host.Outcome State Fault Refusal :=
  guardRsvd .FRM_L1HOLD v (.next (s.l1holdWrite g v))

/-- UNTRUSTED cleared by software at the channel's bit of FRM_UNTRUST (R184). -/
def State.untrustWrite (s : State) (g k : Nat) (v : Word) : State :=
  (List.range 32).foldl (fun a j =>
    if v.toNat.testBit j then a.rwr L1.UNTRUSTED (g * 160 + 32 * k + j) 0 else a) s

/-- FRM_UNTRUSTgk as it reads (R184). -/
def State.untrustWord (s : State) (g k : Nat) : Nat :=
  (List.range 32).foldl (fun a j =>
    let c := g * 160 + 32 * k + j
    if s.l1Chan c ∧ s.ris L1.UNTRUSTED c then a + 2 ^ j else a) 0

/-! ### FRM_L1CMD (R182, R183) -/

/-- A command of FRM_L1CMDg with OP and SLOT (R180, R182): dropped while BUSY is 1; else OP and SLOT are stored, BUSY is
set, and the command runs. -/
def State.l1Command (s : State) (g op slot : Nat) (run : State → Host.Outcome State Fault Refusal) :
    Host.Outcome State Fault Refusal :=
  if s.is FRM_L1CMD.BUSY g then .next (s.mark FRM_L1CTL.CMD_DROP g)
  else run (((s.wr FRM_L1CMD.OP op g).wr FRM_L1CMD.SLOT slot g).mark FRM_L1CMD.BUSY g)
/-- A command completes. -/
def State.l1Done (s : State) (g status : Nat) : State := (s.wr FRM_L1CMD.STATUS status g).unmark FRM_L1CMD.BUSY g
/-- The record image in FRM_L1DATA. -/
def State.l1Image (s : State) (g : Nat) : List Word := (List.range 6).map (fun w => s.reg .FRM_L1DATA g w)

/-- The record of a channel as it reads: SLOT0 and SLOT1 are computed (R183). -/
def State.l1Words (s : State) (c : Nat) : List Word :=
  let ws := s.recWords .l1 c
  let w3 := (ws.getD 3 0).toNat
  setAt ws 3 (BitVec.ofNat 64 (setBits (setBits w3 8 8 (b2n (s.l1Key c 0))) 9 9 (b2n (s.l1Key c 1))))

/-- L1_READ (R182). -/
def execL1Read (g : Group) (slot : Byte) (s : State) : Host.Outcome State Fault Refusal :=
  s.l1Command g 0 slot.toNat fun s1 =>
  if 160 ≤ slot.toNat then .next (s1.l1Done g 1)
  else
    let ws := s1.l1Words (g * 160 + slot.toNat)
    .next (((List.range 6).foldl (fun (a : State) w => a.setReg .FRM_L1DATA (ws.getD w 0) g w) s1).l1Done g 0)

/-- TX_COUNT may be written (R144): EN reads 0 and neither slot holds a key. -/
def State.txCountOpen (s : State) (c : Nat) : Bool := !s.ris L1.EN c && !s.l1Key c 0 && !s.l1Key c 1

/-- A WRITE is refused (R183). -/
def State.l1WriteBad (s : State) (g c : Nat) (im : List Word) : Bool :=
  let en := s.ris L1.EN c
  let sets := decide (L1.EN.of im = 1) && !en
  (sets && !s.l1Chan c) || (sets && decide (L1.POLICY.of im = 1) && !s.is FRM_L1HOLD.EN g) ||
  (en && (decide (L1.POLICY.of im ≠ s.rrd L1.POLICY c) || decide (L1.PEER_CHAN.of im ≠ s.rrd L1.PEER_CHAN c))) ||
  decide (2880 ≤ L1.PEER_CHAN.of im) || (!s.txCountOpen c && decide (L1.TX_COUNT.of im ≠ s.rrd L1.TX_COUNT c)) ||
  s.ris L1.CLOSING c

/-- A WRITE carried out (R177, R182, R183): EN going to 0 starts the closing frames, EN going to 1 starts the channel. -/
def State.l1Store (s : State) (c : Nat) (im : List Word) : State :=
  let en := s.ris L1.EN c
  let s1 := (((s.rwr L1.POLICY c (L1.POLICY.of im)).rwr L1.PEER_CHAN c (L1.PEER_CHAN.of im)).rwr L1.TX_COUNT c
    (L1.TX_COUNT.of im))
  let s2 := if L1.UNTRUSTED.of im = 1 then s1.rwr L1.UNTRUSTED c 0 else s1
  let s3 := if L1.ROLE_CONF.of im = 1 then s2.rwr L1.ROLE_CONF c 0 else s2
  if L1.EN.of im = 1 then
    if en then s3
    else
      (s3.rwr L1.EN c 1).setL1 c { (s3.l1run c).kept with txUse := s3.rrd L1.TX_SLOT c }
  else if en then s3.rwr L1.CLOSING c 1 else s3

/-- Octets of Culvert memory lie in one enabled Sealed range. -/
def State.inSealed (s : State) (lo n : Nat) : Bool :=
  match s.rangeAt lo with
  | some r => decide (s.rangeType r = 2) && decide (lo + n ≤ s.rangeBase r + s.rangeSize r)
  | none => false

/-- A Frame-verified channel is enabled while its group's hold area is not inside a Sealed range: a host error (R166). -/
def State.holdMisplaced (s : State) (g c : Nat) (im : List Word) : Bool :=
  decide (L1.EN.of im = 1) && !s.ris L1.EN c && decide (L1.POLICY.of im = 1) &&
  !s.inSealed (s.rd FRM_L1HOLD.BASE_MB g * 2 ^ 20) (5 * 2 ^ 20)

/-- L1_WRITE (R183). -/
def execL1Write (g : Group) (slot : Byte) (s : State) : Host.Outcome State Fault Refusal :=
  s.l1Command g 1 slot.toNat fun s1 =>
  let c := g.val * 160 + slot.toNat
  let im := s1.l1Image g
  if 160 ≤ slot.toNat then .next (s1.l1Done g 1)
  else if !RecKind.l1.imageOk im then .fault .hostError
  else if s1.l1WriteBad g c im then .next (s1.l1Done g 5)
  else if s1.holdMisplaced g c im then .fault .hostError
  else .next ((s1.l1Store c im).l1Done g 0)

/-- L1_SWITCH (R161): arms a switch; a target already past takes effect at once (R54). -/
def execL1Switch (g : Group) (slot : Byte) (s : State) : Host.Outcome State Fault Refusal :=
  s.l1Command g 2 slot.toNat fun s1 =>
  let c := g.val * 160 + slot.toNat
  let f := L1.SW_FRAME.of (s1.l1Image g)
  if 160 ≤ slot.toNat then .next (s1.l1Done g 1)
  else if !s1.nextKey c then .next (s1.l1Done g 2)
  else if s1.ris L1.SW_PEND c then .next (s1.l1Done g 3)
  else
    let s2 := ((s1.rwr L1.SW_FRAME c f).rwr L1.SW_PEND c 1).l1Done g 0
    if s.is GAU_STAT.RUN g ∧ atOrAfter (s.gauge g) (reading f 0) then .next ((s2.l1Switch c).mark GAU_STAT.PAST g)
    else .next s2

/-- The slot that RETIRE marks (R162): the one of epoch TX_EPOCH − 1, or the one that a pending switch will leave. -/
def State.retiring (s : State) (c : Nat) : Option Nat :=
  let t := s.rrd L1.TX_SLOT c
  if s.l1Key c (1 - t) ∧ s.l1Epoch c (1 - t) = (s.rrd L1.TX_EPOCH c + 2 ^ 16 - 1) % 2 ^ 16 then some (1 - t)
  else if s.ris L1.SW_PEND c then some t else none

/-- L1_RETIRE (R162). -/
def execL1Retire (g : Group) (slot : Byte) (s : State) : Host.Outcome State Fault Refusal :=
  s.l1Command g 3 slot.toNat fun s1 =>
  let c := g.val * 160 + slot.toNat
  if 160 ≤ slot.toNat then .next (s1.l1Done g 1)
  else if s1.ris L1.RET_PEND c then .next (s1.l1Done g 6)
  else match s1.retiring c with
    | none => .next (s1.l1Done g 4)
    | some k => .next (((s1.rwr L1.RET_PEND c 1).setL1 c { s1.l1run c with retire := k }).l1Done g 0)

/-- QCLR (R172): Quarantine ends at the next Ethernet frame start. -/
def execQclr (g : Group) (slot : Byte) (s : State) : Host.Outcome State Fault Refusal :=
  s.l1Command g 4 slot.toNat fun s1 =>
  let c := g.val * 160 + slot.toNat
  if 160 ≤ slot.toNat then .next (s1.l1Done g 1)
  else .next ((if s1.ris L1.QUAR c then s1.setL1 c { s1.l1run c with quarDone := true } else s1).l1Done g 0)

/-- L1_CMD_INVALID (R182): OP 5 to 7. -/
def execL1CmdInvalid (g : Group) (op : Fin 3) (slot : Byte) (s : State) : Host.Outcome State Fault Refusal :=
  s.l1Command g (5 + op.val) slot.toNat fun s1 => .next (s1.l1Done g 1)

/-- A write of a word to FRM_L1CMDg. -/
def State.l1CmdWrite (s : State) (g : Group) (v : Word) : Host.Outcome State Fault Refusal :=
  let slot := BitVec.ofNat 8 (FRM_L1CMD.SLOT.of v)
  match FRM_L1CMD.OP.of v with
  | 0 => execL1Read g slot s
  | 1 => execL1Write g slot s
  | 2 => execL1Switch g slot s
  | 3 => execL1Retire g slot s
  | 4 => execQclr g slot s
  | n => execL1CmdInvalid g (Fin.ofNat 3 (n - 5)) slot s

end Sys2Proof.Machine
end

