-- ==== Sys2Proof/Machine/Races.lean ====
section
/-! DEFINITION. Races and the Weir: group configuration, blocks and their flags, known-answer tests, judgment, fail-over,
leases, Twin, Eddy, card protection and the mirror (chapters 01, 03, 04 and 08). -/

namespace Sys2Proof.Machine

open Sys2Proof

namespace Ctrs
def DISPUTES : CtrId := ⟨0x02, 0⟩
def JUDGED : CtrId := ⟨0x02, 1⟩
def SAMPLES_CHECKED : CtrId := ⟨0x02, 2⟩
def REF_FLAGS : CtrId := ⟨0x02, 4⟩
def MIRROR_TX : CtrId := ⟨0x02, 5⟩
def MIRROR_RX : CtrId := ⟨0x02, 6⟩
def MIRROR_BAD : CtrId := ⟨0x02, 7⟩
def TWIN_VOTES : CtrId := ⟨0x03, 0⟩
def TAG_DISAGREES : CtrId := ⟨0x03, 1⟩
def STALE_WRITES : CtrId := ⟨0x03, 2⟩
def LAPSES : CtrId := ⟨0x03, 3⟩
def PN_RAISE : CtrId := ⟨0x03, 5⟩
end Ctrs

/-! ### Group configuration (R26 to R29, R129) -/

/-- A Race of a group that a write would enable cannot be taken (R29). -/
def State.cannotTake (s : State) (k : Nat) : Bool := decide (24 ≤ k) || !s.standby k

/-- A write to WEI_GRP_CFGg is refused (R29). The tests on the Races that a write with EN = 1 names are made when it
enables the group: a write that repeats EN = 1 and the fields of an enabled group changes nothing and is accepted, though
its Races are no longer standby (DESIGN CHOICE). -/
def State.grpCfgBad (s : State) (g : Nat) (v : Word) : Bool :=
  let en := decide (WEI_GRP_CFG.EN.of v = 1)
  let prot := WEI_GRP_CFG.PROT.of v
  let a := WEI_GRP_CFG.RACE_A.of v
  let b := WEI_GRP_CFG.RACE_B.of v
  let was := s.is WEI_GRP_CFG.EN g
  let twin := decide (prot = 2)
  s.is WEI_GRP_CFG.CLOSING g || (en && (decide (prot = 0) || decide (prot = 3))) ||
  (was && (decide (prot ≠ s.rd WEI_GRP_CFG.PROT g) || decide (a ≠ s.rd WEI_GRP_CFG.RACE_A g) ||
    decide (b ≠ s.rd WEI_GRP_CFG.RACE_B g))) ||
  (en && !was && (s.cannotTake a || (twin && (s.cannotTake b || decide (a = b)))))

/-- A write to WEI_GRP_CFGg (R29, R129). -/
def State.grpCfgWrite (s : State) (g : Nat) (v : Word) : State :=
  if s.grpCfgBad g v then s.mark WEI_POOL_STAT.CFG_REJECT
  else if WEI_GRP_CFG.EN.of v = 0 ∧ s.is WEI_GRP_CFG.EN g then s.mark WEI_GRP_CFG.CLOSING g
  else (s.plainWrite .WEI_GRP_CFG v g).wakeNamed

/-- After a write that sets EN, some group is Twin and fewer than two standby Races remain: a host error (R26). -/
def State.tooFewStandby (s t : State) (g : Nat) : Bool :=
  !s.is WEI_GRP_CFG.EN g && t.is WEI_GRP_CFG.EN g &&
  (List.range 18).any (fun h => t.is WEI_GRP_CFG.EN h && t.twin h) && decide (t.standbyCount < 2)

/-- WEI_GRP_CFG_WRITE (R29); too few standby Races are left, or packet channels are configured in a Twin group: host
errors (R26, R128). -/
def execWeiGrpCfgWrite (g : Group) (v : Word) (s : State) : Host.Outcome State Fault Refusal :=
  let t := s.grpCfgWrite g v
  guardRsvd .WEI_GRP_CFG v (if s.tooFewStandby t g ∨ (WEI_GRP_CFG.EN.of v = 1 ∧ t.twinPacket g) then .fault .hostError else .next t)

/-- A group's Races have started blocks that have still to pass (R129): packet frames whose descriptors they have
accepted, and ODU frames under way, with their tags. -/
def State.started (s : State) (g : Nat) : Bool :=
  s.leaseHeld g && ((s.ringOf g).any (fun e => e.key.isSome) || (s.retainOf g).any (fun f => f.key.isSome) ||
    (s.l1Enabled g).any (fun c => let x := s.l1run c
      x.cur.any (fun f => decide (f.kind = .enc) && f.cut.isNone) || x.pend.isSome || x.next.isSome))

/-- The closing drain of a group ends (R129). -/
def State.closeGroup (s : State) (g : Nat) : State :=
  let s1 := ((s.endLease g).dropFailover g).cutL1 g []
  let s2 := (List.range 24).foldl (fun (a : State) k =>
    if a.names g k && decide (a.rstate k ≠ rsFailed) && decide (a.rstate k ≠ rsTesting) then a.raceOff k else a) s1
  (((s2.setWgrp g { s2.wgrp g with epochOnly := false }).unmark WEI_GRP_CFG.EN g).unmark WEI_GRP_CFG.CLOSING g).degradedExit

/-- GROUP_DRAIN_END (R129): every block already started has passed. -/
def execGroupDrainEnd (g : Group) (s : State) : Host.Outcome State Fault Refusal :=
  if s.is WEI_GRP_CFG.CLOSING g ∧ !s.started g then .next (s.closeGroup g) else .next s

/-! ### Flags and known-answer tests (R131 to R133, R136 to R139, R747) -/

/-- A known-answer test has failed (R747). -/
def State.katFail (s : State) (k d unit : Nat) : State := (s.mark RC_STAT.KAT_FAIL k).capture k d 6 unit 0 0 0

/-- RC_CTL with FLAG_CLR (R136). -/
def State.flagClear (s : State) (k : Nat) : State := (s.setReg .RC_FLAG 0 k).setReg .RC_FLAGG 0 k

/-- RC_CTL with TEST (R133, R136). -/
def State.testStart (s : State) (k : Nat) : State :=
  let st := s.rstate k
  if st = rsOff ∨ st = rsFailed then (s.setRace k { s.race k with back := st }).setRstate k rsTesting else s

/-- A write to RC_CTLk (R136). -/
def State.rcCtlWrite (s : State) (k : Nat) (v : Word) : State :=
  let s1 := if RC_CTL.FLAG_CLR.of v = 1 then s.flagClear k else s
  if RC_CTL.TEST.of v = 1 then s1.testStart k else s1

/-- RC_CTL_TEST (R133). -/
def execRcCtlTest (k : RaceNo) (s : State) : Host.Outcome State Fault Refusal := .next (s.testStart k)

/-- RC_CTL_FLAG_CLR (R136). -/
def execRcCtlFlagClr (k : RaceNo) (s : State) : Host.Outcome State Fault Refusal := .next (s.flagClear k)

/-- RACE_TEST_DONE (R133, R309, R747): an ordered test ends; `d` and `unit` name the first failing unit. -/
def execRaceTestDone (k : RaceNo) (pass : Bool) (d : Dir) (unit : Fin 7) (s : State) : Host.Outcome State Fault Refusal :=
  if s.rstate k ≠ rsTesting then .next s
  else
    let x := s.race k
    let s1 := (s.setRstate k x.back).mark RC_STAT.KAT_DONE k
    let s2 := if pass then s1 else s1.katFail k d.code unit
    let s3 := s2.setRace k { x with back := 0, tested := pass && decide (x.back = rsFailed) }
    .next (if x.back = rsOff then s3.wakeNamed.degradedExit else s3)

/-! ### Fail-over: choice and waking (R297 to R300, R306, R307, R748) -/

/-- The entry that applies to a group's Race fault has a flag: 1 REPLACE, 2 JOIN (R337, R343). -/
def State.raceOrder (s : State) (g b : Nat) : Bool :=
  match s.orderFor 0x01 g with
  | some e => e.flags.testBit b
  | none => false

/-- A Race marked in FAILED (R31, R298 step 2): STATE reads 4; a test made before the mark counts no more (R309). -/
def State.markFailed (s : State) (k : Nat) : State :=
  let y : Race := { gateOpen := (s.race k).gateOpen }
  ((((s.wr WEI_POOL_STAT.FAILED (s.rd WEI_POOL_STAT.FAILED ||| 2 ^ k)).setRace k y).setRstate k rsFailed).wr
    RC_STAT.GROUP 0x1F k).wr RC_STAT.ROLE 0 k

/-- A replacement is waking or Ready for a group. -/
def State.replacement (s : State) (g : Nat) : Option Nat :=
  (List.range 24).find? (fun k => decide ((s.race k).wake = .replace g) && s.abroad g k)

/-- The Race that a group's join waits for. -/
def State.joiner (s : State) (g : Nat) : Option Nat :=
  (List.range 24).find? (fun k => decide ((s.race k).wake = .join g) && s.abroad g k)

/-- The next replacement of a group wakes (R297, R298 step 1, R300); with none to choose the group stays as R99
describes. -/
def State.wakeReplacement (s : State) (g : Nat) : State :=
  match s.chooseRace with
  | some j =>
    let s1 := s.wakeRace j (.replace g)
    let p := (s.wgrp g).phase
    if p = .none ∨ p = .granted then s1.setWgrp g { s1.wgrp g with phase := .waking } else s1
  | none => s.setWgrp g { s.wgrp g with phase := .none }

/-- Step 1 of a fail-over (R298), for a Race that serves its group alone: a joiner that has not joined is given up. -/
def State.failoverStart (s : State) (g : Nat) : State :=
  if s.raceOrder g 1 ∧ (s.holders g).length ≤ 1 ∧ (s.replacement g).isNone then (s.dropFailover g).wakeReplacement g else s

/-- A Race wakes to join a Twin group (R307). -/
def State.wakeJoiner (s : State) (g : Nat) : State :=
  if s.raceOrder g 2 then
    match s.chooseRace with
    | some j => s.wakeRace j (.join g)
    | none => s
  else s

/-- A Race woken for its group by EN has failed its test (R748). -/
def State.startFailed (s : State) (g k : Nat) : State :=
  let s1 := s.raiseEvent 0x01 g
  let a := decide (s1.rd WEI_GRP_CFG.RACE_A g = k)
  let swap := fun (t : State) =>
    if t.twin g && a then (t.wr WEI_GRP_CFG.RACE_A (t.rd WEI_GRP_CFG.RACE_B g) g).wr WEI_GRP_CFG.RACE_B k g else t
  if s1.raceOrder g 1 then
    match s1.chooseRace with
    | some j => (s1.wr (if a then WEI_GRP_CFG.RACE_A else WEI_GRP_CFG.RACE_B) j g).wakeRace j (.start g)
    | none => swap s1
  else swap s1

/-- A waking Race has failed its test (R132, R300, R747, R748); R32 is applied with STANDBY as it reads once the Race
that takes its place wakes (R298 step 2). -/
def State.wakeFailed (s : State) (k d unit : Nat) : State :=
  let w := (s.race k).wake
  let s1 := (s.katFail k d unit).markFailed k
  let s2 := match w with
    | .start g => if s1.names g k then s1.startFailed g k else s1
    | .replace g => s1.wakeReplacement g
    | .join g => s1.wakeJoiner g
    | .none => s1
  s2.degradedEntry

/-- RACE_WAKE_DONE (R131, R132): a waking Race is Ready, or Failed. -/
def execRaceWakeDone (k : RaceNo) (pass : Bool) (d : Dir) (unit : Fin 7) (s : State) : Host.Outcome State Fault Refusal :=
  if s.rstate k ≠ rsWaking then .next s
  else if pass then .next (s.setRstate k rsReady)
  else .next (s.wakeFailed k d.code unit)

/-- RACE_GATE_CLOSE (R286): the power gate of a revoked Race closes. -/
def execRaceGateClose (k : RaceNo) (s : State) : Host.Outcome State Fault Refusal :=
  .next (s.setRace k { s.race k with gateOpen := false })

/-! ### Cutting off a group's output (R85, R121, R122, R175) -/

/-- The partial packet frames of a group ended with a stomp (R85, R121, R122): as far as their lanes have passed, or at
least `eg` octets of the secured frame and `ing` of the plaintext frame. -/
def State.stompPartial (s : State) (g eg ing : Nat) : State :=
  let s1 := match (s.ringOf g).find? (fun e => e.data.isSome) with
    | some e =>
      match e.key, e.data with
      | some key, some data =>
        let x := (e.secure key data).take (max eg (16 * e.passed))
        if x = [] then s else s.emit (.lineFrame e.chan (x ++ stomp x) false)
      | _, _ => s
    | none => s
  match (s.retainOf g).head? with
  | some f =>
    match f.key with
    | some key =>
      let x := (f.opened key).1.take ing
      if x = [] ∨ !s.ris CH.POLICY f.chan then s1 else s1.toClient (s.clientPort f.chan) x false
    | none => s1
  | none => s1

/-- The frames in the delivery ring wait to be sent again, those in the retain ring to be decrypted again (R85, R303); the
keystream that lies ready for them is discarded (R110). -/
def State.rewindRings (s : State) (g : Nat) : State :=
  let x := s.wgrp g
  let lost0 := ((x.ring.filter (fun e => e.key.isSome)).map (fun e => e.ks.held e.passed e.lanes)).sum
  let lost1 := ((x.retain.filter (fun f => f.key.isSome)).map (fun f => f.ks.held f.passed f.lanes)).sum
  let again := fun (y : Stream) => { y with lane := 0, ready := 0 }
  let ring := x.ring.map (fun (e : RingEntry) =>
    { e with key := none, ks := again e.ks, passed := 0, ghash := none, data := none, resent := true })
  let retain := x.retain.map (fun (f : InFrame) => { f with key := none, ks := again f.ks, passed := 0, ghash := none })
  ((s.discardKs g (g * 160) 0 lost0).discardKs g (g * 160) 1 lost1).setWgrp g { x with ring := ring, retain := retain }

/-- A group's Sluice closes in both directions while work is under way. -/
def State.cutGroup (s : State) (g eg ing : Nat) (cuts : List (Channel × Nat)) : State :=
  (((s.stompPartial g eg ing).rewindRings g).cutL1 g cuts).cutL1Rx g []

/-! ### Judgment (R293, R298 steps 2 and 3, R304, R306) -/

/-- Eddy is busy with a group: in fail-over, or its shelter is not yet empty (R303). -/
def State.eddyBusy (s : State) : Bool :=
  match s.weir.eddy with
  | some g => s.inFailover g || !s.weir.shelter.isEmpty
  | none => false

/-- A lease left with no holder (R285): the Sluice closes, and with a replacement on its way the group is in fail-over
and Eddy shelters it when it is free (R298 step 3, R302). -/
def State.revokeAll (s : State) (g eg ing : Nat) (cuts : List (Channel × Nat)) : State :=
  let s1 := s.cutGroup g eg ing cuts
  let s2 := ((s1.wr WEI_LEASE.STATE 2 g).wr WEI_LEASE.HOLDER_A 0x1F g).wr WEI_LEASE.HOLDER_B 0x1F g
  let on := decide ((s2.wgrp g).phase = .waking)
  let s3 : State := if on && !s2.eddyBusy then { s2 with weir := { s2.weir with eddy := some g } } else s2
  s3.setWgrp g { s3.wgrp g with gapFrom := s3.gauge g, phase := if on then .revoked else .none }

/-- A Race judged failed: counted, marked, recorded with the contents of RC_FLAGk that its dispute carried, its clocks
stopped (R120, R286, R293, R321). -/
def State.markJudged (s : State) (g k : Nat) (data : Bool) : State :=
  let flag := match (s.race k).dispute with
    | some y => y.flag.toNat
    | none => (s.reg .RC_FLAG k).toNat
  let s1 := (s.markFailed k).count Ctrs.JUDGED
  let s2 := s1.setRace k { s1.race k with gateOpen := true }
  let s3 := s2.report 0x41 (flag + k * 2 ^ 64 + g * 2 ^ 69 + b2n data * 2 ^ 74) g
  s3.raiseEvent 0x01 g

/-- The partner of a holder of a Twin lease. -/
def State.partner (s : State) (g k : Nat) : Option Nat := (s.holders g).find? (fun j => decide (j ≠ k))

/-- The survivor of a Twin group goes on alone (R306), and a Race wakes to join it (R307). -/
def State.survive (s : State) (g k j : Nat) : State :=
  let s1 := (s.wr WEI_LEASE.HOLDER_A j g).wr WEI_LEASE.HOLDER_B 0x1F g
  let s2 := ((s1.wr WEI_GRP_CFG.RACE_A j g).wr WEI_GRP_CFG.RACE_B k g).wr RC_STAT.ROLE 1 j
  s2.wakeJoiner g

/-- A Race of a group judged failed (R293, R298 steps 2 and 3, R306), with R32 applied to STANDBY as it then reads: the
Race that replaces it, or that wakes to join, is no longer Off. -/
def State.judge (s : State) (g k : Nat) (data : Bool) (eg ing : Nat) (cuts : List (Channel × Nat)) : State :=
  match s.partner g k with
  | some j => ((s.markJudged g k data).survive g k j).degradedEntry
  | none => (((s.failoverStart g).markJudged g k data).degradedEntry).revokeAll g eg ing cuts

/-- Both Races of a Twin group judged failed (R304): nothing passes until the host acts. -/
def State.judgeBoth (s : State) (g : Nat) (dataA dataB : Bool) (cuts : List (Channel × Nat)) : State :=
  let a := s.rd WEI_LEASE.HOLDER_A g
  let b := s.rd WEI_LEASE.HOLDER_B g
  let s1 := ((s.holdReports.markJudged g a dataA).markJudged g b dataB).degradedEntry
  ((s1.report 0x42 (a + b * 2 ^ 5 + g * 2 ^ 10 + 2 ^ 15) g).takeReports s.inCycle).revokeAll g 0 0 cuts

/-! ### Words (R103, R114, R118, R120, R123, R124, R134) -/

/-- The frames of a channel that are under way in Race `k` in a direction, oldest first. -/
def State.flowsOf (s : State) (g k : Nat) (d : Dir) (chan : Nat) : List Flow :=
  match d with
  | .egress =>
    (s.ringOf g).filterMap (fun e => match e.key, e.data with
      | some key, some data => if e.chan = chan ∧ 0 < e.ks.ready then some (s.egressFlow e key data) else none
      | _, _ => none) ++
    ((s.l1run chan).cur.filter (fun f => decide (f.kind = .enc) && f.cut.isNone)).toList.map (s.txFlow chan k)
  | .ingress =>
    (s.retainOf g).filterMap (fun f => match f.key with
      | some key => if f.chan = chan ∧ 0 < f.ks.ready then some (s.ingressFlow f key) else none
      | none => none) ++
    (s.l1run chan).pend.toList.map (s.rxFlow chan k)

/-- Lanes that carry on from lane `n`, at most `m` of them, up to lane 5. -/
def lanesFrom : Nat → Nat → List FlowLane → List FlowLane
  | n, m + 1, x :: t => if x.lane = n ∧ n < 6 then x :: lanesFrom (n + 1) m t else []
  | _, _, _ => []

/-- The lanes of a channel's next word, at most `m` (R103): the rest of the frame under way, and the beginning of the
next one, which starts at the lane boundary after it. -/
def wordOf (l : List Flow) (m : Nat) : List FlowLane :=
  let all := l.flatMap (fun x => (List.range (min 6 (x.lanes - x.passed))).map (fun i => FlowLane.mk x (x.passed + i)))
  match all with
  | x :: _ => lanesFrom x.lane m all
  | [] => []

/-- A checker's flag in a cycle: lane, checker and unit as RC_FLAGk codes them (R118, R138). -/
abbrev LaneFlag := Fin 6 × Fin 6 × Fin 7

/-- The checker and unit that flag a lane (R118), pipelines by the number of the lane that they serve: a parity checker of
the lane; control parity, which flags every lane of the word; on egress, for a lane that carries the tag, a GHASH product
of the frame. -/
def FlowLane.flag (x : FlowLane) (d : Dir) (flags : List LaneFlag) : Option (Nat × Nat) :=
  match flags.find? (fun f => decide (f.1.val = x.lane) && decide (f.2.1.val ≤ 3)), flags.find? (fun f => decide (f.2.1.val = 5)) with
  | some f, _ => some (f.2.1.val, x.lane)
  | none, some f => some (5, f.2.2.val)
  | none, none =>
    if d = .egress ∧ x.tagged then
      match x.flow.ghash, flags.find? (fun f => decide (f.1.val = x.lane) && decide (f.2.1.val = 4)) with
      | some u, _ => some (4, u)
      | none, some f => some (4, f.2.2.val)
      | none, none => none
    else none

/-- A frame's mark changed by what a word brings: the lanes that have passed, with the blocks that follow into their
places in the FIFO, and a GHASH product flagged. -/
def State.markFlow (s : State) (g k : Nat) (d : Dir) (chan : Nat) (x : Flow) (passed : Option Nat) (ghash : Option Nat) : State :=
  let more := fun (y : Stream) (old : Nat) => { y with ready := min y.total (y.ready + (passed.getD old - old)) }
  match d, s.l1Chan chan with
  | .egress, false => s.setRingOf g (updFirst (fun e => decide (e.sa = x.id.1) && decide (e.pn = x.id.2)) (fun e =>
      some { e with passed := passed.getD e.passed, ks := more e.ks e.passed, ghash := ghash.or e.ghash }) (s.ringOf g))
  | .ingress, false => s.setRetain g (updFirst (fun f => f.key.isSome && decide (f.sa = x.id.1) && decide (f.pn = x.id.2)) (fun f =>
      some { f with passed := passed.getD f.passed, ks := more f.ks f.passed, ghash := ghash.or f.ghash }) (s.retainOf g))
  | .egress, true => let y := s.l1run chan
    s.setL1 chan { y with cur := y.cur.map (fun (f : TxFrame) => let old := Tbl.get 0 f.passed k
      { f with passed := Tbl.put f.passed k (passed.getD old), ks := more f.ks old
               ghash := Tbl.set none f.ghash k (ghash.or (Tbl.get none f.ghash k)) }) }
  | .ingress, true => let y := s.l1run chan
    s.setL1 chan { y with pend := y.pend.map (fun (f : RxFrame) => let old := Tbl.get 0 f.passed k
      { f with passed := Tbl.put f.passed k (passed.getD old), ks := more f.ks old
               ghash := Tbl.set none f.ghash k (ghash.or (Tbl.get none f.ghash k)) }) }

/-- The partner of a Twin group has still to deliver a lane, so the Sluice waits for it (R127). -/
def State.awaited (s : State) (g k : Nat) (d : Dir) (chan : Nat) (x : FlowLane) : Bool :=
  (s.computing g chan).any (fun j => decide (j ≠ k) && !s.withheld j d.code &&
    (s.flowsOf g j d chan).any (fun y => decide (y.id = x.flow.id) && decide (y.passed ≤ x.block)))

/-- The lanes of a word that are OK pass to the Sluice (R114, R134): the blocks are counted; where the Sluice passes the
word its frames move on, and the word goes out once no partner's copy is awaited. -/
def State.passWord (s : State) (g k : Nat) (d : Dir) (chan : Nat) (l : List FlowLane) : State :=
  match l.head?, l.getLast? with
  | some a, some z =>
    let w : SluiceWord := { chan := chan, lepoch := (s.race k).lepoch
                            lanes := List.replicate a.lane {} ++ l.map (fun x => x.toLane true) }
    let s1 := s.count Ctrs.RC_BLOCKS (raceDir k d.code) l.length
    if !s.sluicePasses g k w then s1
    else
      let s2 := l.foldl (fun (b : State) x => b.markFlow g k d chan x.flow (some (x.block + 1)) none) s1
      if s.awaited g k d chan z then s2 else s2.emit (.sluice g d w)
  | _, _ => s

/-- The lowest flagged lane of a word of which no frame is under way in the model, with its checker and unit. -/
def lowestFlag (flags : List LaneFlag) : Option LaneFlag :=
  flags.foldl (fun a f => match a with | some x => if f.1 < x.1 then some f else some x | none => some f) none

/-- A word of a Race of the group it serves (R114): the lanes below the lowest flagged one pass, every lane is sampled, and
a flagged lane is withheld. A GHASH product flagged before the frame's tag lane is kept with the frame (R118). -/
def State.raceWord (s : State) (g k : Nat) (d : Dir) (chan : Nat) (l : List FlowLane) (flags : List LaneFlag) (taken : Bool)
    (cuts : List (Channel × Nat)) : State :=
  let hit := fun (x : FlowLane) => (x.flag d flags).isSome
  let good := l.takeWhile (fun x => !hit x)
  let s1 := s.sampleBlocks k d.code l.length taken (fun i => match l.drop i with | x :: _ => x.copy k d.code | [] => ⟨k, d.code, 0, [], 0, [], []⟩)
  let s2 := l.foldl (fun (b : State) x =>
    match flags.find? (fun f => decide (f.1.val = x.lane) && decide (f.2.1.val = 4)) with
    | some f => if hit x then b else b.markFlow g k d chan x.flow none (some f.2.2.val)
    | none => b) s1
  let s3 := if s.withheld k d.code then s2 else s2.passWord g k d chan good
  match l.drop good.length with
  | x :: _ => match x.flag d flags with
    | some (checker, unit) =>
      s3.withhold k d.code checker unit chan x.block x.flow.seqNo (l.filter hit).length cuts
    | none => s3
  | [] => s3

/-- RACE_BLOCK (R103, R114): a word of a channel, of `m` + 1 lanes at most, passes the in-line stages of a Race; `flags`: the
checkers that flag in its cycle; `block`, `sq`: its place as RC_FLAGk names it, where the Race works on no frame of the
group any more; `taken`: both reference pipelines are taken in its cycle; `cuts`: octets of other L1 spans passed so
far. -/
def execRaceBlock (k : RaceNo) (d : Dir) (chan : Channel) (m : Fin 6) (flags : List LaneFlag) (block : BitVec 12)
    (sq : BitVec 32) (taken : Bool) (cuts : List (Channel × Nat)) (now : Word) (s : State) : Host.Outcome State Fault Refusal :=
  let s0 := s.timeTo now
  let g := s0.rd RC_STAT.GROUP k
  if s0.rstate k ≠ rsServing ∧ !(s0.race k).gateOpen then .next s0
  else
    let l := if s0.rstate k = rsServing ∧ (s0.computing g chan).contains k.val then wordOf (s0.flowsOf g k d chan) (m + 1) else []
    match l, lowestFlag flags with
    | x :: t, _ => .next (s0.raceWord g k d chan (x :: t) flags taken cuts)
    | [], some f => .next (s0.withhold k d.code f.2.1 f.2.2 chan block.toNat sq.toNat flags.length cuts)
    | [], none => .next s0

/-- WEIR_DISPUTE (R293, R298 step 1): a dispute of a Race arrives. -/
def execWeirDispute (k : RaceNo) (s : State) : Host.Outcome State Fault Refusal :=
  let g := s.rd RC_STAT.GROUP k
  match (s.race k).dispute with
  | some y =>
    if y.sent = 0 then .next s
    else
      let y' := { y with sent := y.sent - 1, received := true }
      .next (((s.count Ctrs.DISPUTES).setRace k { s.race k with dispute := some y' }).failoverStart g)
  | none => .next s

/-- RACE_JUDGED (R293, R298 steps 2 and 3): the reference has recomputed the withheld block; `data`: its output differs;
`again`: how often a reference checker had it computed again; `eg`, `ing`, `cuts`: octets passed of the partial packet
frames and L1 spans. -/
def execRaceJudged (k : RaceNo) (data : Bool) (again eg ing : Nat) (cuts : List (Channel × Nat)) (s : State) :
    Host.Outcome State Fault Refusal :=
  let g := s.rd RC_STAT.GROUP k
  match (s.race k).dispute with
  | some y =>
    if y.received ∧ s.judgeable g k then .next ((s.count Ctrs.REF_FLAGS 0 again).judge g k data eg ing cuts) else .next s
  | none => .next s

/-- SAMPLE_CHECK (R295): the reference pipeline has recomputed the oldest copy of a Race and direction that it holds. -/
def execSampleCheck (k : RaceNo) (d : Dir) (good : Bool) (again eg ing : Nat) (cuts : List (Channel × Nat)) (s : State) :
    Host.Outcome State Fault Refusal :=
  let g := s.rd RC_STAT.GROUP k
  let mine := fun (x : Sample) => decide (x.race = k.val) && decide (x.dir = d.code)
  if !s.weir.samples.any mine then .next s
  else
    let sa : State := { s with weir := { s.weir with samples := updFirst mine (fun _ => none) s.weir.samples } }
    let s0 := (sa.count Ctrs.SAMPLES_CHECKED).count Ctrs.REF_FLAGS 0 again
    let x := s0.race k
    if good then
      .next (if g < 18 then s0.setRace k (match d with
        | .egress => { x with match0 := some (s0.gauge g) }
        | .ingress => { x with match1 := some (s0.gauge g) }) else s0)
    else
      let s1 := s0.mark WEI_STAT.SAMPLE_FAIL
      if s1.judgeable g k then
        let last := (match d with | .egress => x.match0 | .ingress => x.match1).getD x.granted
        .next (((s1.holdReports.report 0x44 (last.toNat + k.val * 2 ^ 64 + d.code * 2 ^ 69) g).judge g k true eg ing
          cuts).takeReports s1.inCycle)
      else .next s1

/-! ### Twin (R304, R305, R307) -/

/-- A block of a channel that passes nothing while both Races keep the lease (R304): on egress the rest of the span is
cut off; on ingress the frame is decrypted no further and the local-fault sequence takes the place of its rest (DESIGN
CHOICE). -/
def State.lostBlock (s : State) (c d : Nat) (passed : Nat) : State :=
  if d = 0 then
    let x := s.l1run c
    match x.cur with
    | some f => s.setL1 c { x with cur := some { f with cut := some (f.cut.getD (min passed spanLen)) } }
    | none => s
  else s.cutRxAt c (min passed spanLen)

/-- Tags of a channel that differ between the Races (R305). -/
def State.tagDisagree (s : State) (g c d : Nat) (long : Bool) : State :=
  let x := s.l1run c
  let sent := match x.cur with | some f => f.count | none => s.rrd L1.TX_COUNT c
  let got := match x.judge with | some (f, _) => f.count | none => s.rrd L1.RX_COUNT c
  let n := if d = 0 then (if long then sent / 256 * 256 else sent) else (if long then x.longFrom else got)
  let y : L1Run :=
    if d = 0 then
      if long then { x with txVeto := true } else { x with cur := x.cur.map (fun f => { f with tag := none }) }
    else if long then { x with vetoLong := true } else { x with vetoShort := true }
  (((s.setL1 c y).mark WEI_STAT.TAG_DISAGREE).count Ctrs.TAG_DISAGREES g).report 0x43 (n + c * 2 ^ 64) g

/-- TWIN_BLOCK_SETTLE (R304, R305): the blocks, or the tags, of a channel that both holders compute are settled; `passed`:
octets of its span passed, `cuts` those of every channel of the group. -/
def execTwinBlockSettle (c : Channel) (d : Dir) (r : TwinCase) (passed again : Nat) (cuts : List (Channel × Nat)) (s : State) :
    Host.Outcome State Fault Refusal :=
  let g := chanGroup c
  let a := s.rd WEI_LEASE.HOLDER_A g
  let b := s.rd WEI_LEASE.HOLDER_B g
  if !s.leaseHeld g ∨ (s.holders g).length ≠ 2 ∨ (s.wgrp g).unjoined.contains c.val then .next s
  else
    let s0 := s.count Ctrs.REF_FLAGS 0 again
    match r with
    | .equal => .next s
    | .oneFlagged => .next s
    | .differ (some second) => .next ((s0.count Ctrs.TWIN_VOTES g).judge g (if second then a else b) true 0 0 cuts)
    | .differ none => .next ((s0.count Ctrs.TWIN_VOTES g).judgeBoth g true true cuts)
    | .bothFlagged x y => .next (s0.judgeBoth g x y cuts)
    | .missing second true => .next ((s0.count Ctrs.TWIN_VOTES g).judge g (if second then b else a) false 0 0 cuts)
    | .missing _ false => .next ((s0.count Ctrs.TWIN_VOTES g).judgeBoth g true true cuts)
    | .unresolved =>
      .next (((s0.mark WEI_STAT.UNRESOLVED).report 0x42 (a + b * 2 ^ 5 + g * 2 ^ 10) g).lostBlock c d.code passed)
    | .tags long => .next (s.tagDisagree g c d.code long)

/-- CHANNEL_JOIN (R307): the joiner has read the channel's join entry, which stands once a frame of a running multiframe
has passed, and votes from the channel's next ODU frame. -/
def execChannelJoin (c : Channel) (s : State) : Host.Outcome State Fault Refusal :=
  let g := chanGroup c
  let x := s.wgrp g
  if x.join.any (fun e => decide (e.1 = c.val)) ∨ (s.l1run c).txAcc = none then
    .next (s.setWgrp g { x with unjoined := x.unjoined.filter (fun i => decide (i ≠ c.val)) })
  else .next s

/-! ### The checkpoint and the grant (R283, R290, R292, R298 steps 6 and 7, R299, R307, R308) -/

/-- The whole PN of a mark (R290). -/
def State.wholePn (s : State) (sa m : Nat) : Nat :=
  if s.xpn (s.saSecy sa) then
    let lo := (s.rrd SA.NEXT_PN sa + 2 ^ 64 - 1 - 2 ^ 44) % 2 ^ 64
    (lo + (m + 2 ^ 64 - lo) % 2 ^ 45) % 2 ^ 64
  else m

/-- NEXT_PN of an SA raised above a mark (R220, R299). -/
def State.raisePn (s : State) (g sa mark : Nat) : State :=
  if s.rrd SA.NEXT_PN sa ≤ mark then (s.rwr SA.NEXT_PN sa ((mark + 1) % 2 ^ 64)).count Ctrs.PN_RAISE g else s

/-- CRC-32 of IEEE 802.3 with bit 1 of each octet first (R311). -/
def crc32First (o : Octets) : Nat :=
  let step := fun (c : Nat) (b : Byte) => (List.range 8).foldl (fun c j =>
    let t := c.testBit 31 != b.toNat.testBit (7 - j)
    (c * 2 % 2 ^ 32) ^^^ (if t then 0x04C11DB7 else 0)) c
  (o.foldl step 0xFFFFFFFF) ^^^ 0xFFFFFFFF

/-- A checkpoint copy as octets, without its CRC-32 (R290; DESIGN CHOICE: the order of the header's fields): a 64-octet
header with group, writer, LEPOCH, the numbers of entries, frame and sequence; 16 octets for each L1 entry; 8 for each PN
mark. -/
def Ckpt.octets (c : Ckpt) : Octets :=
  let head : Octets := [BitVec.ofNat 8 c.group, BitVec.ofNat 8 c.writer] ++ beBytes 2 c.lepoch ++ beBytes 2 c.l1.length ++
    beBytes 2 c.pn.length ++ beBytes 8 c.frame ++ beBytes 8 c.sequence ++ List.replicate 40 0
  let l1 := c.l1.flatMap (fun e => beBytes 2 e.chan ++ beBytes 8 e.count ++ beBytes 2 e.txEpoch ++ beBytes 2 e.rxEpoch ++
    [0, BitVec.ofNat 8 (b2n e.locked + 2 * b2n e.inFrame)])
  head ++ l1 ++ c.pn.flatMap (fun m => beBytes 8 (b2n m.1 * 2 ^ 63 + m.2.1 % 2 ^ 18 * 2 ^ 45 + m.2.2 % 2 ^ 45))

/-- A copy is valid (R289): its CRC-32 matches, and its writer passed R287. -/
def Ckpt.good (c : Ckpt) : Bool := c.valid && decide (c.crc = crc32First c.octets)

/-- The copy that a replacement uses, whether CKPT_ERR is set, and the words found uncorrectable (R292); `bad0`, `bad1`:
the uncorrectable word that the newer and the older copy hold, if they do. -/
def chooseCopy (copies : List Ckpt) (bad0 bad1 : Option (BitVec 32)) : Option Ckpt × Bool × List (BitVec 32) :=
  match copies with
  | a :: rest =>
    if a.good && bad0.isNone then (some a, false, [])
    else match rest with
      | b :: _ => (if b.good && bad1.isNone then some b else none, true, bad0.toList ++ bad1.toList)
      | [] => (none, true, bad0.toList)
  | [] => (none, true, [])

/-- An uncorrectable word of the Weir checkpoint store (R697, R702). -/
def State.ckptWordBad (s : State) (w : BitVec 32) : State := s.report 0x91 (eccDetail 0x700 w.toNat 10)

/-- The replacement loads a copy (R299): marks and ring entries raise NEXT_PN; an L1 entry whose count is not the framer's
sets CKPT_ERR, and the framer's count is kept. -/
def State.loadCopy (s : State) (g : Nat) (c : Ckpt) : State :=
  let s1 := c.pn.foldl (fun (a : State) m => a.raisePn g m.2.1 (a.wholePn m.2.1 m.2.2)) s
  let s2 := (s.ringOf g).foldl (fun (a : State) e => a.raisePn g e.sa e.pn) s1
  if c.l1.any (fun e => decide (s.rrd L1.TX_COUNT e.chan ≠ e.count)) then s2.mark WEI_STAT.CKPT_ERR else s2

/-- The delivery-ring entries at the places listed hold an uncorrectable word (R292, R697, R86, R92 rank 3): whether their frames
were delivered cannot be told, so each is discarded, not sent again, and recorded as a breach; its cells cannot be
reached (DESIGN CHOICE: they count as LOST). -/
def State.loseEntries (s : State) (g : Nat) (l : List (Nat × BitVec 32)) : State :=
  let ring := s.ringOf g
  let bad := fun (i : Nat) => l.find? (fun x => decide (x.1 = i))
  let gone := (List.range ring.length).filterMap (fun i => match bad i, ring[i]? with
    | some x, some e => some (x.2, e)
    | _, _ => none)
  let kept := ((List.range ring.length).filter (fun i => (bad i).isNone)).filterMap (fun i => ring[i]?)
  State.takeReports (gone.foldl (fun (a : State) x =>
    let e := x.2
    (((a.uncharge g e.cells.length).lose (e.cells.map (·.1))).ckptWordBad x.1).breach21 g e.queue e.sa 1 e.len)
    (s.holdReports.setRingOf g kept)) s.inCycle

/-- FAILOVER_CKPT_LOADED (R298 step 6): the replacement, Ready, has loaded the checkpoint; `bad0`, `bad1`: words of the
copies that prove uncorrectable; `lost`: places of the delivery ring, with a word of the entry that does. -/
def execFailoverCkptLoaded (g : Group) (bad0 bad1 : Option (BitVec 32)) (lost : List (Nat × BitVec 32)) (s : State) :
    Host.Outcome State Fault Refusal :=
  let x := s.wgrp g
  match s.replacement g with
  | some k =>
    if x.phase = .revoked ∧ s.rstate k = rsReady then
      let (c, err, words) := chooseCopy x.copies bad0 bad1
      let s1 := words.foldl State.ckptWordBad ((s.setWgrp g { x with phase := .loaded }).loseEntries g lost)
      let s2 := if err then s1.mark WEI_STAT.CKPT_ERR else s1
      .next (match c with
        | some y => s2.loadCopy g y
        | none => s2)
    else .next s
  | none => .next s

/-- A channel of the live map. -/
def State.anyChan (s : State) (c : Nat) : Bool := s.l1Chan c || s.packetChan c

/-- Records of kind 0x31 of a group's channels (R94, R308). -/
def State.gapRecords (s : State) (g : Nat) : State :=
  let from_ := (s.wgrp g).gapFrom
  let n := (frameOf (s.gauge g) + 2 ^ 48 - frameOf from_) % 2 ^ 32
  (List.range 160).foldl (fun (a : State) t =>
    if a.anyChan (g * 160 + t) then a.reportWith { kind := 0x31, detail := g * 160 + t + n * 2 ^ 12, group := g, gauge := from_ } else a) s

/-- Step 7 of R298: the replacement gets the lease and becomes RACE_A. -/
def State.grantReplacement (s : State) (g k : Nat) : State :=
  let s1 := (s.wr WEI_GRP_CFG.RACE_A k g).grantLease g k none
  let s2 := s1.setWgrp g { s1.wgrp g with phase := .granted }
  ((s2.holdReports.gapRecords g).dropRecords g).takeReports s2.inCycle

/-- The survivor and the joiner get the lease (R307). -/
def State.grantJoin (s : State) (g k : Nat) : State :=
  let s1 := (s.wr WEI_GRP_CFG.RACE_B k g).grantLease g (s.rd WEI_LEASE.HOLDER_A g) (some k)
  s1.setWgrp g { s1.wgrp g with unjoined := s1.l1Enabled g }

/-- Some holder has a dispute outstanding (R284). -/
def State.disputed (s : State) (g : Nat) : Bool := (s.holders g).any (fun k => (s.race k).dispute.isSome)

/-- The Races that a group names and that are not marked failed, primary first (R283, R748). -/
def State.liveNamed (s : State) (g : Nat) : List Nat :=
  let a := s.rd WEI_GRP_CFG.RACE_A g
  (if s.twin g then [a, s.rd WEI_GRP_CFG.RACE_B g] else [a]).filter (fun k => !s.failed k)

/-- A grant at a frame start of the group (R283): the first, once its Races are Ready, or the one after a lapse, in a new
epoch. -/
def State.grantAtFrame (s : State) (g : Nat) : State :=
  if !modeServes s.mode ∨ !s.is WEI_GRP_CFG.EN g ∨ s.is WEI_GRP_CFG.CLOSING g then s
  else if s.rd WEI_LEASE.STATE g = 0 then
    match s.liveNamed g with
    | a :: rest =>
      if (a :: rest).all (fun k => decide (s.rstate k = rsReady)) then s.grantLease g a rest.head? else s
    | [] => s
  else if s.rd WEI_LEASE.STATE g = 3 ∧ !(s.wgrp g).epochOnly ∧ !s.disputed g then
    match s.holders g with
    | a :: rest => s.grantLease g a rest.head?
    | [] => s
  else s

/-- LEASE_GRANT (R283): at a fail-over's step 7, at a Twin join, or at a frame start of the group. -/
def execLeaseGrant (g : Group) (s : State) : Host.Outcome State Fault Refusal :=
  if !modeServes s.mode then .next s
  else match s.replacement g with
    | some k =>
      if (s.wgrp g).phase = .loaded then .next (s.grantReplacement g k) else .next s
    | none =>
      match s.joiner g with
      | some k =>
        if s.leaseHeld g ∧ s.rstate k = rsReady ∧ !s.disputed g then .next (s.grantJoin g k) else .next s
      | none =>
        if s.is GAU_STAT.RUN g ∧ offsetOf (s.gauge g) = 0 then .next (s.grantAtFrame g) else .next s

/-- LEASE_LAPSE (R284): 6,000 cycles since the last grant or renewal; `eg`, `ing`, `cuts` as for a judgment. -/
def execLeaseLapse (g : Group) (eg ing : Nat) (cuts : List (Channel × Nat)) (now : Word) (s : State) :
    Host.Outcome State Fault Refusal :=
  let s0 := s.timeTo now
  let x := s0.wgrp g
  if s0.leaseHeld g ∧ x.term + 6000 ≤ s0.tick.toNat then
    let s1 := (s0.cutGroup g eg ing cuts).wr WEI_LEASE.STATE 3 g
    let s2 := ((s1.setWgrp g { s1.wgrp g with epochOnly := true }).mark WEI_STAT.LAPSE).count Ctrs.LAPSES g
    .next ((s2.report 0x45 (s0.rd WEI_LEASE.LEPOCH g + g.val * 2 ^ 16) g).raiseEvent 0x07 g)
  else .next s0

/-! ### Eddy, FAILED and the card (R303, R309, R310) -/

/-- EDDY_SHELTER_EMPTY (R303): Eddy is free once its shelter is empty and its group out of fail-over. -/
def execEddyShelterEmpty (s : State) : Host.Outcome State Fault Refusal :=
  .next (if s.eddyBusy then s
    else match s.weir.eddy with
      | some g => State.dropRecords { s with weir := { s.weir with eddy := none } } g
      | none => s)

/-- One bit of WEI_FAILCLR (R309). -/
def State.failClear (s : State) (k : Nat) : State :=
  if s.rstate k = rsFailed ∧ (s.race k).tested ∧ !s.named k then
    let s1 := s.wr WEI_POOL_STAT.FAILED (s.rd WEI_POOL_STAT.FAILED &&& (2 ^ 24 - 1 - 2 ^ k))
    (s1.setRace k {}).raceOff k
  else s.mark WEI_STAT.CLR_REJECT

/-- A write to WEI_FAILCLR (R309, R609). -/
def State.failclrWrite (s : State) (v : Word) : State :=
  ((List.range 24).foldl (fun (a : State) k => if v.toNat.testBit k then a.failClear k else a) s).degradedExit

/-- WEI_FAILCLR_WRITE (R309). -/
def execWeiFailclrWrite (v : Word) (s : State) : Host.Outcome State Fault Refusal :=
  guardRsvd .WEI_FAILCLR v (.next (s.failclrWrite v))

/-- The groups whose output the card lease closes (R310). -/
def State.cutCard (s t : State) (cuts : List (Channel × Nat)) (parts : List (Group × Nat × Nat)) : State :=
  (List.range 18).foldl (fun (a : State) g =>
    if s.sluiceOpen g && !a.sluiceOpen g then
      let p := (parts.find? (fun e => decide (e.1.val = g))).map (fun e => e.2)
      a.cutGroup g (p.getD (0, 0)).1 (p.getD (0, 0)).2 cuts
    else a) t

/-- A write to WEI_CARD (R310): CARD_EN without ACTIVE closes the Sluices' output. -/
def State.cardWrite (s : State) (v : Word) : State := s.cutCard (s.plainWrite .WEI_CARD v) [] []

/-- A write to WEI_CARDGRANT (R310). -/
def State.cardGrantWrite (s : State) (v : Word) : State :=
  let e := WEI_CARDGRANT.CARD_EPOCH.of v
  if (s.weir.cardEpoch.getD 0) ≤ e then
    State.mark { s with weir := { s.weir with cardEpoch := some e, cardTick := s.tick.toNat } } WEI_CARD.ACTIVE
  else s.mark WEI_TETHSTAT.CARD_REJECT

/-- CARD_GRANT (R310). -/
def execCardGrant (v : Word) (now : Word) (s : State) : Host.Outcome State Fault Refusal :=
  guardRsvd .WEI_CARDGRANT v (.next ((s.timeTo now).cardGrantWrite v))

/-- CARD_LEASE_EXPIRE (R310): LEN µs have passed; `cuts` and `parts`: octets passed of the L1 spans, and by group of the
partial packet frames. -/
def execCardLeaseExpire (cuts : List (Channel × Nat)) (parts : List (Group × Nat × Nat)) (now : Word) (s : State) :
    Host.Outcome State Fault Refusal :=
  let s0 := s.timeTo now
  if s0.is WEI_CARD.ACTIVE ∧ s0.weir.cardTick + max 1 (s0.rd WEI_CARD.LEN) * 1500 ≤ s0.tick.toNat then
    .next (s0.cutCard (s0.unmark WEI_CARD.ACTIVE) cuts parts)
  else .next s0

/-! ### The mirror (R311, R312) -/

/-- The mirror record of a group (R311). -/
def State.mirrorRecord (s : State) (g : Nat) : Octets :=
  let l1 := match (s.wgrp g).copies.find? Ckpt.good with | some c => c.l1 | none => []
  let head : Octets := [0x4D, BitVec.ofNat 8 g] ++ beBytes 2 (s.rd WEI_LEASE.LEPOCH g) ++
    beBytes 4 (s.weir.cardEpoch.getD 0) ++ beBytes 8 (s.gauge g).toNat ++ beBytes 2 l1.length ++ [0, 0]
  let body := l1.foldl (fun (a : Octets) e => a ++ beBytes 2 e.chan ++ beBytes 2 e.txEpoch ++ beBytes 8 e.count ++ [0, 0, 0, 0]) head
  body ++ beBytes 4 (crc32First body)

/-- A record stored in a group's mirror slot, octet 0 first; the rest of the slot keeps what it held. -/
def State.mirrorStore (s : State) (g : Nat) (o : Octets) : State :=
  (List.range ((o.length + 7) / 8)).foldl (fun (a : State) w =>
    let old := leBytes 8 (a.reg .WEI_MIRROR g w).toNat
    let new := slice o (8 * w) (min 8 (o.length - 8 * w))
    a.setReg .WEI_MIRROR (BitVec.ofNat 64 (leNat (new ++ old.drop new.length))) g w) s

/-- A record is whole: TYPE, GROUP, its length, and its CRC (R311, R312). -/
def mirrorGood (o : Octets) : Bool :=
  let n := beNat (slice o 16 2)
  decide (o.take 1 = [0x4D]) && decide (beNat (slice o 1 1) < 18) && decide (n ≤ 160) && decide (o.length = 24 + 16 * n) &&
  decide (beNat (o.drop (20 + 16 * n)) = crc32First (o.take (20 + 16 * n)))

/-- MIRROR_RECORD_RX (R312): a whole record arrives on the Tether. -/
def execMirrorRecordRx (o : Octets) (s : State) : Host.Outcome State Fault Refusal :=
  if !s.is WEI_TETHCTL.MIRROR_RX then .next s
  else if !mirrorGood o then .next ((s.mark WEI_TETHSTAT.CRC_ERR).count Ctrs.MIRROR_BAD)
  else
    let g := beNat (slice o 1 1)
    let e := beNat (slice o 4 4)
    let r := BitVec.ofNat 64 (beNat (slice o 8 8))
    let after := match Tbl.get none s.weir.mirrorGauge g with
      | some (e', r') => decide (e' ≠ e) || (decide (r ≠ r') && atOrAfter r r')
      | none => true
    if decide (s.weir.mirrorEpoch ≤ e) && after then
      let s1 : State := { s with weir := { s.weir with
        mirrorEpoch := e, mirrorGauge := Tbl.set none s.weir.mirrorGauge g (some (e, r)) } }
      .next ((s1.mirrorStore g o).count Ctrs.MIRROR_RX)
    else .next ((s.mark WEI_TETHSTAT.STALE).count Ctrs.MIRROR_BAD)

end Sys2Proof.Machine
end

