-- ==== Sys2Proof/Machine/Lanes.lean ====
section
/-! DEFINITION. Serial lanes: power states, calibration, taps and training, eye scans, lane order, and the TSS code of the
Tether and the DCC ports (chapter 15, R571, R572). -/

namespace Sys2Proof.Machine

open Sys2Proof

namespace Ctrs
def CDR_LOSS : CtrId := ⟨0x10, 0⟩
def CAL_FAILS : CtrId := ⟨0x10, 1⟩
def TRAIN_REQS : CtrId := ⟨0x10, 2⟩
def STUFF_VIOL : CtrId := ⟨0x10, 3⟩
def MARKER_ERR : CtrId := ⟨0x10, 4⟩
def BLOCKS_RX : CtrId := ⟨0x10, 5⟩
def BLOCK_BAD : CtrId := ⟨0x10, 6⟩
def SLIP_DROP : CtrId := ⟨0x14, 0⟩
def SLIP_REP : CtrId := ⟨0x14, 1⟩
def REC_BAD : CtrId := ⟨0x14, 2⟩
end Ctrs

/-! ### Lanes, logical and physical (R530, R542) -/

def State.lane (s : State) (n : Nat) : LaneRun := Tbl.get {} s.serdes.lanes n
def State.setLane (s : State) (n : Nat) (x : LaneRun) : State :=
  { s with serdes := { s.serdes with lanes := Tbl.set {} s.serdes.lanes n x } }
def State.link (s : State) (l : Nat) : TssLink := Tbl.get {} s.serdes.links l
def State.setLink (s : State) (l : Nat) (x : TssLink) : State :=
  { s with serdes := { s.serdes with links := Tbl.set {} s.serdes.links l x } }

/-- The instance that carries a logical lane (R542). -/
def State.carrier (s : State) (n : Nat) : Nat :=
  let q := n / 4 * 4
  q + bits (s.rd LN_MAP.MAP q) (2 * (n % 4) + 1) (2 * (n % 4))

/-- The logical lane that an instance carries. -/
def State.carried (s : State) (n : Nat) : Nat :=
  ((List.range 4).map (fun i => n / 4 * 4 + i)).find? (fun l => decide (s.carrier l = n)) |>.getD n

/-- A logical lane is ACTIVE at a rate code. -/
def State.laneAt (s : State) (n code : Nat) : Bool :=
  let p := s.carrier n
  decide (s.rd LN_STAT.PSTATE_NOW p = 2) && decide (s.rd LN_CTL.RATE p = code)

/-! ### Claims (R19, R20, R532, R556) -/

/-- Client lanes that a port occupies at a RATE (R20): the first, and how many. -/
def portLanes (p rate : Nat) : Nat × Nat := (p, [1, 1, 2, 4, 8].getD rate 0)

/-- Some enabled client port occupies a client lane. -/
def State.clientClaim (s : State) (l : Nat) : Bool :=
  (List.range 72).any (fun p => s.is FRM_CPORT.EN (p / 4) (p % 4) &&
    (let x := portLanes p (s.rd FRM_CPORT.RATE (p / 4) (p % 4)); decide (x.1 ≤ l) && decide (l < x.1 + x.2)))

/-- OTUCs of a group. -/
def State.otucs (s : State) (g : Nat) : Nat := s.rd FRM_CTL.NM1 g + 1

/-- Rate codes of the line lanes of a group of `n` OTUCs, from its first lane (R556). -/
def lineRates (lane200 : Bool) (n : Nat) : List Nat :=
  if lane200 then List.replicate (n / 2) 4 ++ List.replicate (n % 2) 3 else List.replicate n 3

/-- A logical lane is claimed (R532). -/
def State.logicalClaim (s : State) (l : Nat) : Bool :=
  if l < 72 then s.clientClaim l
  else if l < 144 then
    let g := (l - 72) / 4
    (s.is FRM_CTL.TX_EN g || s.is FRM_CTL.RX_EN g) &&
    decide ((l - 72) % 4 < (lineRates (s.is FRM_CTL.LANE200 g) (s.otucs g)).length)
  else s.is WEI_TETHCTL.MIRROR_TX || s.is WEI_TETHCTL.MIRROR_RX

/-- An instance carries a claimed lane. -/
def State.claimed (s : State) (n : Nat) : Bool := s.logicalClaim (s.carried n)

/-! ### Training (R538) -/

/-- A lane that can train: a client lane of a -KR or -CR port, or a Tether lane. -/
def State.canTrain (s : State) (n : Nat) : Bool :=
  if n < 72 then
    let l := s.carried n
    (List.range 72).any (fun p => s.is FRM_CPORT.EN (p / 4) (p % 4) && decide (2 ≤ s.rd FRM_CPORT.CLASS (p / 4) (p % 4)) &&
      (let x := portLanes p (s.rd FRM_CPORT.RATE (p / 4) (p % 4)); decide (x.1 ≤ l) && decide (l < x.1 + x.2)))
  else decide (144 ≤ n)

/-- Training starts on an ACTIVE lane with TRAIN_EN. -/
def State.trainStart (s : State) (n : Nat) : State :=
  if s.is LN_CTL.TRAIN_EN n ∧ s.rd LN_STAT.PSTATE_NOW n = 2 ∧ s.canTrain n then
    (s.setLane n { dwell := (s.lane n).dwell, training := some s.tick.toNat }).unmark LN_STAT.TRAIN_DONE n
  else s

/-- Training stops without an end of its own. -/
def State.trainStop (s : State) (n : Nat) : State := s.setLane n { dwell := (s.lane n).dwell }

/-! ### Eye scans (R540, R541) -/

/-- A scan that runs ends early: ABORT, and LN_EYERESn undefined. -/
def State.scanAbort (s : State) (n : Nat) : State :=
  if s.is LN_EYECTL.BUSY n then
    let (x, s1) := s.draw
    ((s1.unmark LN_EYECTL.BUSY n).mark LN_EYECTL.ABORT n).setReg .LN_EYERES x n
  else s

/-- A write to LN_EYECTLn (R540, R541). -/
def State.eyeWrite (s : State) (n : Nat) (v : Word) : State :=
  let s1 := s.plainWrite .LN_EYECTL v n
  if LN_EYECTL.START.of v = 0 ∨ s.is LN_EYECTL.BUSY n then s1
  else if !s.is LN_STAT.CDR_LOCK n then s1.mark LN_STAT.REJECT n
  else (s1.mark LN_EYECTL.BUSY n).setLane n { s1.lane n with dwell := s1.rd LN_EYECTL.DWELL n }

/-- EYE_SCAN_START (R540, R541): a write to LN_EYECTLn. -/
def execEyeScanStart (n : LaneNo) (v : Word) (s : State) : Host.Outcome State Fault Refusal :=
  guardRsvd .LN_EYECTL v (.next (s.eyeWrite n v))

/-- EYE_SCAN_END (R540): the scan has run its length; `mismatch` is the count, saturating. -/
def execEyeScanEnd (n : LaneNo) (mismatch : Nat) (s : State) : Host.Outcome State Fault Refusal :=
  if s.is LN_EYECTL.BUSY n then
    .next (((s.unmark LN_EYECTL.BUSY n).wr LN_EYERES.COMPARED (2 ^ (s.lane n).dwell) n).wr LN_EYERES.MISMATCH
      (min mismatch (2 ^ 32 - 1)) n)
  else .next s

/-! ### A record cut off (R548, R571, R572) -/

/-- The record in progress on a link is cut off (R548, R572): a CRC failure of the mirror, or REC_BAD of its stream. -/
def State.cutRecord (s : State) (l : Nat) : State :=
  match (s.link l).record with
  | none => s
  | some o =>
    let s1 := s.setLink l { s.link l with record := none }
    if l < 4 then
      if s.is WEI_TETHCTL.MIRROR_RX then (s1.mark WEI_TETHSTAT.CRC_ERR).count Ctrs.MIRROR_BAD else s1
    else if beNat (o.take 1) < 16 then s1.count Ctrs.REC_BAD (16 * (l - 4) + beNat (o.take 1)) else s1

/-! ### Power states (R532 to R535) -/

/-- Rate codes that a lane may run (R530), 0 among them. -/
def rateOk (n code : Nat) : Bool :=
  decide (code = 0) || (if n < 72 then decide (code = 1) || decide (code = 2)
    else if n < 144 then decide (code = 3) || decide (code = 4) else decide (code = 5))

/-- A write to LN_CTLn is refused (R532, R533). -/
def State.lnCtlBad (s : State) (n : Nat) (v : Word) : Bool :=
  let p := LN_CTL.PSTATE.of v
  let was := decide (s.rd LN_CTL.PSTATE n = 2)
  !rateOk n (LN_CTL.RATE.of v) || decide (p = 3) || (decide (p = 2) && decide (LN_CTL.RATE.of v = 0)) ||
  (was && (decide (LN_CTL.RATE.of v ≠ s.rd LN_CTL.RATE n) || decide (LN_CTL.TX_INV.of v ≠ s.rd LN_CTL.TX_INV n) ||
    decide (LN_CTL.RX_INV.of v ≠ s.rd LN_CTL.RX_INV n))) ||
  (was && decide (p ≠ 2) && s.claimed n)

/-- A write to LN_CTLn (R532). -/
def State.lnCtlWrite (s : State) (n : Nat) (v : Word) : State :=
  if s.lnCtlBad n v then s.mark LN_STAT.REJECT n
  else
    let s1 := s.plainWrite .LN_CTL v n
    if LN_CTL.TRAIN_EN.of v = 0 then s1.trainStop n
    else if s.is LN_CTL.TRAIN_EN n then s1 else s1.trainStart n

/-- LN_CTL_WRITE (R532). -/
def execLnCtlWrite (n : LaneNo) (v : Word) (s : State) : Host.Outcome State Fault Refusal :=
  guardRsvd .LN_CTL v (.next (s.lnCtlWrite n v))

/-- The links that an instance carries. -/
def State.linkOf (s : State) (n : Nat) : Option Nat := if 144 ≤ n then some (s.carried n - 144) else none

/-- A lane leaves ACTIVE (R534, R541): its loops stop. -/
def State.laneStops (s : State) (n : Nat) : State :=
  let s1 := (((s.scanAbort n).trainStop n).unmark LN_STAT.CDR_LOCK n).unmark LN_STAT.MARKER_LOCK n
  match s1.linkOf n with
  | some l => (s1.cutRecord l).setLink l {}
  | none => s1

/-- A calibration that fails (R535). -/
def State.calFail (s : State) (n : Nat) : State :=
  ((s.mark LN_STAT.CAL_FAIL n).count Ctrs.CAL_FAILS n).report 0x81 n

/-- A power-state move completes (R534, R535); `calibrated`: the calibration of a move out of OFF succeeded. -/
def State.laneMove (s : State) (n : Nat) (calibrated : Bool) : State :=
  let p := s.rd LN_CTL.PSTATE n
  let now := s.rd LN_STAT.PSTATE_NOW n
  if p = now then s
  else if now = 0 ∧ !calibrated then s.calFail n
  else
    let s1 := (if now = 2 then s.laneStops n else s).wr LN_STAT.PSTATE_NOW p n
    if p = 2 then s1.trainStart n else s1

/-- LANE_PSTATE_REACHED (R534). -/
def execLanePstateReached (n : LaneNo) (calibrated : Bool) (now : Word) (s : State) : Host.Outcome State Fault Refusal :=
  .next ((s.timeTo now).laneMove n calibrated)

/-- CDR_LOCK_GAIN (R534, R536): the receiver locks; a move into ACTIVE completes with it. -/
def execCdrLockGain (n : LaneNo) (now : Word) (s : State) : Host.Outcome State Fault Refusal :=
  if s.rd LN_CTL.PSTATE n = 2 then .next (((s.timeTo now).laneMove n true).mark LN_STAT.CDR_LOCK n) else .next s

/-- CDR_LOCK_LOSS (R536, R541). -/
def execCdrLockLoss (n : LaneNo) (s : State) : Host.Outcome State Fault Refusal :=
  if !s.is LN_STAT.CDR_LOCK n then .next s
  else
    let s1 := (((s.unmark LN_STAT.CDR_LOCK n).mark LN_STAT.LOCK_LOSS n).count Ctrs.CDR_LOSS n).scanAbort n
    .next (if s.claimed n then s1.report 0x82 n else s1)

/-! ### Taps (R537, R539) -/

/-- The taps of LN_TXEQ are allowed (R537). -/
def tapsOk (n pre2 pre1 post1 : Nat) : Bool := decide (pre2 + pre1 + post1 ≤ 32) && (decide (n < 144) || decide (pre2 = 0))

/-- A write to LN_TXEQn (R537, R538). -/
def State.txeqWrite (s : State) (n : Nat) (v : Word) : State :=
  if !tapsOk n (LN_TXEQ.PRE2.of v) (LN_TXEQ.PRE1.of v) (LN_TXEQ.POST1.of v) ∨ (s.lane n).training.isSome then
    s.mark LN_STAT.REJECT n
  else s.plainWrite .LN_TXEQ v n

/-- LN_TXEQ_WRITE (R537). -/
def execLnTxeqWrite (n : LaneNo) (v : Word) (s : State) : Host.Outcome State Fault Refusal :=
  guardRsvd .LN_TXEQ v (.next (s.txeqWrite n v))

/-- A tap asked to move: its new value, when R537 and its field allow it, and the reply (R539); `sum` is that of the three
side taps, `top` the largest value. -/
def moveTap (ask x sum top : Nat) : Nat × Nat :=
  match ask with
  | 1 => if x < top ∧ sum < 32 then (x + 1, 1) else (x, 3)
  | 2 => if 0 < x then (x - 1, 1) else (x, 2)
  | _ => (x, 0)

/-- A changed request applied (R539): the state, the reply, and whether anything moved. The main tap follows the others,
so a request for it alone is at its limit (DEDUCED). -/
def State.applyAsk (s : State) (n : Nat) (o : Nat) : State × Nat × Bool :=
  if o.testBit 0 then (s.setReg .LN_TXEQ (Reg.LN_TXEQ.resetValue n) n, 0b01010100, true)
  else
    let pre2 := s.rd LN_TXEQ.PRE2 n
    let post1 := s.rd LN_TXEQ.POST1 n
    let (a, ra) := moveTap (bits o 7 6) (s.rd LN_TXEQ.PRE1 n) (pre2 + s.rd LN_TXEQ.PRE1 n + post1) 31
    let (b, rb) := moveTap (bits o 3 2) post1 (pre2 + a + post1) 31
    let rm := match bits o 5 4 with | 1 => 3 | 2 => 2 | _ => 0
    ((s.wr LN_TXEQ.PRE1 a n).wr LN_TXEQ.POST1 b n, ra * 64 + rm * 16 + rb * 4, decide (ra = 1) || decide (rb = 1))

/-- Training ends when DONE has gone both ways (R539). -/
def State.trainEnd (s : State) (n : Nat) : State :=
  let x := s.lane n
  if x.sentDone && x.gotDone then (s.setLane n { x with training := none }).mark LN_STAT.TRAIN_DONE n else s

/-- TRAINING_BLOCK_RX (R539): the first two payload octets of an idle block on a lane that trains; `ask`: octet 1 of the
idle blocks this end sends, what its receiver asks of the far end and whether it is satisfied. On a client lane the
training is that of IEEE 802.3, and `taps` are what it sets. -/
def execTrainingBlockRx (n : LaneNo) (o0 o1 ask : Byte) (taps : Option Word) (s : State) :
    Host.Outcome State Fault Refusal :=
  let x := s.lane n
  if x.training.isNone ∨ o0 ≠ 0xC5 then .next s
  else
    let done : LaneRun := { x with sentDone := x.sentDone || ask.toNat.testBit 1, gotDone := x.gotDone || o1.toNat.testBit 1 }
    if n.val < 144 then
      let s1 := match taps with
        | some v => if tapsOk n (LN_TXEQ.PRE2.of v) (LN_TXEQ.PRE1.of v) (LN_TXEQ.POST1.of v) then s.plainWrite .LN_TXEQ v n else s
        | none => s
      .next ((s1.setLane n done).trainEnd n)
    else if x.asked = some o1 then .next (((s.setLane n done).emit (.training n [0xC5, ask, x.reply])).trainEnd n)
    else
      let (s1, r, moved) := s.applyAsk n o1.toNat
      let s2 := if moved then s1.count Ctrs.TRAIN_REQS n else s1
      let y : LaneRun := { done with asked := some o1, reply := BitVec.ofNat 8 r }
      .next (((s2.setLane n y).emit (.training n [0xC5, ask, BitVec.ofNat 8 r])).trainEnd n)

/-- TRAINING_TIMEOUT (R538): 500 ms, 750,000,000 Ticks, have passed. -/
def execTrainingTimeout (n : LaneNo) (now : Word) (s : State) : Host.Outcome State Fault Refusal :=
  let s0 := s.timeTo now
  match (s0.lane n).training with
  | some t => if t + 750000000 ≤ s0.tick.toNat then .next ((s0.trainStop n).mark LN_STAT.TRAIN_FAIL n) else .next s0
  | none => .next s0

/-! ### Lane order (R542) -/

/-- A write to LN_MAPn (R542), for an instance that is a multiple of 4. -/
def State.lnMapWrite (s : State) (n : Nat) (v : Word) : State :=
  let m := LN_MAP.MAP.of v
  let p := (List.range 4).map (fun i => bits m (2 * i + 1) (2 * i))
  if !decide p.Nodup ∨ (List.range 4).any (fun i => s.claimed (n + i)) then s.mark LN_STAT.REJECT n
  else s.plainWrite .LN_MAP v n

/-- LN_MAP_WRITE (R542): the quad's register. -/
def execLnMapWrite (q : Fin 37) (v : Word) (s : State) : Host.Outcome State Fault Refusal :=
  guardRsvd .LN_MAP v (.next (s.lnMapWrite (4 * q.val) v))

/-! ### TSS links (R543 to R549, R571) -/

/-- The instance of a Tether link. -/
def State.linkLane (s : State) (l : Nat) : Nat := s.carrier (144 + l)

/-- The link runs: its lane is ACTIVE, or its DCC port is enabled. -/
def State.linkOn (s : State) (l : Nat) : Bool :=
  if l < 4 then decide (s.rd LN_STAT.PSTATE_NOW (s.linkLane l) = 2) else s.is FRM_DCCCTL.EN (l - 4)

/-- Status bits of a link: MARKER_LOCK, POL_SEEN, LANE_MIS. -/
def State.linkLocked (s : State) (l : Nat) : Bool :=
  if l < 4 then s.is LN_STAT.MARKER_LOCK (s.linkLane l) else s.is FRM_DCCSTAT.MARKER_LOCK (l - 4)
def State.setLinkLocked (s : State) (l v : Nat) : State :=
  if l < 4 then s.wr LN_STAT.MARKER_LOCK v (s.linkLane l) else s.wr FRM_DCCSTAT.MARKER_LOCK v (l - 4)
def State.linkAstray (s : State) (l : Nat) : State :=
  if l < 4 then s.mark LN_STAT.LANE_MIS (s.linkLane l) else s.mark FRM_DCCSTAT.LANE_MIS (l - 4)

/-- A link searches anew: alignment is lost, and the record in progress with it (R547). -/
def State.linkSearch (s : State) (l : Nat) : State := ((s.cutRecord l).setLinkLocked l 0).setLink l {}

/-- A write to FRM_DCCCTLp (R581): a port that is disabled holds no alignment, and its record in progress is cut off. -/
def State.dccctlWrite (s : State) (p : Nat) (v : Word) : State :=
  let s1 := s.plainWrite .FRM_DCCCTL v p
  if FRM_DCCCTL.EN.of v = 0 then s1.linkSearch (4 + p) else s1

/-- An inverted marker (R547): POL_SEEN, and RX_INV toggled under AUTO_POL, when the search starts again. -/
def State.linkInverted (s : State) (l : Nat) : State :=
  if l < 4 then
    let n := s.linkLane l
    let s1 := s.mark LN_STAT.POL_SEEN n
    if s.is LN_CTL.AUTO_POL n then
      (s1.wr LN_CTL.RX_INV (1 - s.rd LN_CTL.RX_INV n) n).linkSearch l else s1
  else
    let p := l - 4
    let s1 := s.mark FRM_DCCSTAT.POL_SEEN p
    if s.is FRM_DCCCTL.AUTO_POL p then
      (s1.wr FRM_DCCCTL.RX_INV (1 - s.rd FRM_DCCCTL.RX_INV p) p).linkSearch l else s1

/-- Bits in which two octet strings differ. -/
def bitDistance (a b : Octets) : Nat :=
  ((xorOctets a b).map (fun o => ((List.range 8).filter (fun i => o.toNat.testBit i)).length)).sum

/-- A good marker (R545). -/
def markerGood (o : Octets) : Bool :=
  let l := (slice o 4 1).headD 0
  decide (o.length = 8) &&
  decide (bitDistance (slice o 0 4) [0xC3, 0xA5, 0x96, 0xF0] + bitDistance (slice o 6 2) [0x69, 0x1E] ≤ 2) &&
  decide (slice o 5 1 = [~~~ l]) && decide (l.toNat / 4 = 0b101010)

/-- Destuffed bits from one marker to the next (R547). -/
def markerSpan (l : Nat) : Nat := if l < 4 then 139328 else 8768

/-! ### The bits of the line (R544 to R546) -/

/-- Bits of octets as they are sent, most significant first (R8, R543). -/
def sentBits (o : Octets) : List Bool := o.flatMap (fun b => (List.range 8).map (fun i => b.toNat.testBit (7 - i)))

/-- The number that bits spell, the first one most significant. -/
def bitsNat (l : List Bool) : Nat := l.foldl (fun a b => 2 * a + b.toNat) 0

/-- What the destuffer makes of line bits, after a run of `n` bits of value `b` (R546): the bits that stay, the run and its
value at the end, and how many removed bits had their run's value. -/
def destuff (n : Nat) (b : Bool) : List Bool → List Bool × Nat × Bool × Nat
  | [] => ([], n, b, 0)
  | x :: t =>
    if n = 31 then
      let (l, m, c, v) := destuff 1 x t
      (l, m, c, v + (if x = b then 1 else 0))
    else
      let (l, m, c, v) := destuff (if x = b then n + 1 else 1) x t
      (x :: l, m, c, v)

/-- The run at the end of bits that the stuffing left as they are, after a run of `n` bits of value `b`. -/
def runAfter (n : Nat) (b : Bool) (l : List Bool) : Nat × Bool :=
  l.foldl (fun (x : Nat × Bool) y => (if y = x.2 then x.1 % 31 + 1 else 1, y)) (n, b)

/-- The run of a link after the octets of a marker (R546). -/
def State.markerRun (s : State) (l : Nat) (o : Octets) : State :=
  let x := s.link l
  let r := runAfter x.run x.level (sentBits o)
  s.setLink l { x with run := r.1, level := r.2 }

/-- The descrambler (R544) on `n` block bits, first bit uppermost: the bits, and the last 31 bits received. -/
def descramble (n past rx : Nat) : Nat × Nat :=
  let x := past * 2 ^ n + rx
  ((x ^^^ x / 2 ^ 28 ^^^ x / 2 ^ 31) % 2 ^ n, x % 2 ^ 31)

/-- The scrambler (R544) on block bits, the state its last 31 bits sent, the oldest uppermost. -/
def scramble (past : Nat) : List Bool → List Bool
  | [] => []
  | d :: t =>
    let x := d ^^ past.testBit 27 ^^ past.testBit 30
    x :: scramble (past * 2 % 2 ^ 31 + x.toNat) t

/-- The blocks of a record before the scrambler (R543): a start block, and continuation blocks; the octets after the
record's end are 0. -/
def recordBlocks (o : Octets) : List Octets :=
  (List.range ((o.length + 15) / 16)).map (fun k => (if k = 0 then 0x36 else 0x5A) :: slice o (16 * k) 16)

/-- A record sent on a TSS link (R543, R544, R548, R571). The idle blocks before it, whose payload is open, leave the
scrambler in a free state. -/
def State.tssSend (s : State) (l : Nat) (o : Octets) : State :=
  let (w, s1) := s.draw
  let blocks := recordBlocks o
  let line := scramble (w.toNat % 2 ^ 31) (sentBits blocks.flatten)
  s1.emit (.tssBlocks l ((List.range blocks.length).map (fun k => beBytes 17 (bitsNat ((line.drop (136 * k)).take 136)))))

/-- A marker at a link that is locked (R547). -/
def State.markerLocked (s : State) (l : Nat) (o : Octets) : State :=
  let x := s.link l
  if markerGood o then
    let off := decide ((slice o 4 1).headD 0 ≠ BitVec.ofNat 8 (0xA8 + l % 4))
    let s1 := s.setLink l { x with missed := 0, astray := off }
    if off then s1.linkAstray l else s1
  else
    let s1 := if l < 4 then s.count Ctrs.MARKER_ERR (s.linkLane l) else s
    if x.missed + 1 = 4 then s1.linkSearch l
    else s1.setLink l { x with missed := x.missed + 1 }

/-- A marker found while the link searches (R547): a candidate, or its confirmation. What the descrambler holds at lock
is free: it is correct from the 32nd block bit on (R544). -/
def State.markerSearch (s : State) (l pos : Nat) (o : Octets) : State :=
  let x := s.link l
  if !markerGood o then s
  else if x.cands.any (fun c => decide (c + markerSpan l = pos)) then
    let (w, s1) := s.draw
    ((s1.setLinkLocked l 1).setLink l { past := w.toNat % 2 ^ 31 }).markerLocked l o
  else s.setLink l { x with cands := x.cands.filter (fun c => decide (pos < c + markerSpan l)) ++ [pos] }

/-- TSS_MARKER_POSITION (R547): the eight octets at a bit position of a link's destuffed stream; while the link is locked,
at the position where a marker is expected. -/
def execTssMarkerPosition (l : Fin 8) (pos : Nat) (o : Octets) (s : State) : Host.Outcome State Fault Refusal :=
  if !s.linkOn l then .next s
  else
    let s1 := if markerGood (o.map (fun b => ~~~ b)) then s.linkInverted l else s
    .next ((if s1.linkLocked l then s1.markerLocked l o else s1.markerSearch l pos o).markerRun l o)

/-! ### Records of a DCC port (R570 to R572, R581) -/

def State.stream (s : State) (p i : Nat) : GccStream := Tbl.get {} s.frm.streams (16 * p + i)
def State.setStream (s : State) (p i : Nat) (x : GccStream) : State :=
  { s with frm := { s.frm with streams := Tbl.set {} s.frm.streams (16 * p + i) x } }

/-- Length of a stream's GCC frame (R570). -/
def State.gccLen (s : State) (p i : Nat) : Nat :=
  if s.is FRM_DSTR.LO p i then 2 else 2 * s.otucs (s.rd FRM_DSTR.GROUP p i)

/-- A stream passes octets in a direction (R572): enabled, its source exists, and its group's framer is enabled. -/
def State.streamOn (s : State) (p i d : Nat) : Bool :=
  let g := s.rd FRM_DSTR.GROUP p i
  let c := g * 160 + s.rd FRM_DSTR.SLOT p i
  s.is FRM_DSTR.EN p i && (if d = 0 then s.is FRM_CTL.TX_EN g && s.is FRM_DSTR.INS p i else s.is FRM_CTL.RX_EN g) &&
  (!s.is FRM_DSTR.LO p i || (decide (s.rd FRM_DSTR.SLOT p i < 160) && s.anyChan c))

/-- A whole record arrives on a DCC port (R571, R572). -/
def State.dccRecord (s : State) (p : Nat) (o : Octets) : State :=
  let i := beNat (o.take 1)
  let n := beNat (slice o 1 1)
  if 16 ≤ i ∨ !s.is FRM_DCCCTL.EN p ∨ !s.streamOn p i 0 then s
  else if n ≠ s.gccLen p i ∨ o.length < 4 + n then s.count Ctrs.REC_BAD (16 * p + i)
  else
    let x := s.stream p i
    let full := decide (4 ≤ x.insert.length)
    let y : GccStream := { x with insert := (if full then x.insert.drop 1 else x.insert) ++ [slice o 4 n] }
    let s1 := s.setStream p i y
    if full then s1.count Ctrs.SLIP_DROP (16 * p + i) else s1

/-- DCC_RECORD_RX (R571). -/
def execDccRecordRx (p : Fin 4) (o : Octets) (s : State) : Host.Outcome State Fault Refusal := .next (s.dccRecord p o)

/-! ### TSS blocks (R543, R547, R548) -/

/-- Octets of the record whose first block is known, when its length is one that the link carries. -/
def recordLen (l : Nat) (o : Octets) : Option Nat :=
  if l < 4 then
    if o.length < 18 then some 18
    else if beNat (slice o 16 2) ≤ 160 then some (24 + 16 * beNat (slice o 16 2)) else none
  else some (4 + beNat (slice o 1 1))

/-- The octets of a record so far: it is whole, goes on, or cannot be (R548, R571). -/
def State.recordStep (s : State) (l : Nat) (o : Octets) : Host.Outcome State Fault Refusal :=
  let s1 := s.setLink l { s.link l with record := some o }
  match recordLen l o with
  | none => .next (s1.cutRecord l)
  | some n =>
    if o.length < n then .next s1
    else
      let s2 := s.setLink l { s.link l with record := none }
      if l < 4 then execMirrorRecordRx (o.take n) s2 else .next (s2.dccRecord (l - 4) (o.take n))

/-- A block counted. -/
def State.tssCount (s : State) (c : CtrId) (l n : Nat) : State := if l < 4 then s.count c (s.linkLane l) n else s

/-- A descrambled block of a link that is locked (R543, R547, R548): its header and 16 payload octets. -/
def State.tssBlock (s : State) (l header : Nat) (o : Octets) : Host.Outcome State Fault Refusal :=
  if (s.link l).astray then .next ((s.tssCount Ctrs.BLOCK_BAD l 1).cutRecord l)
  else match header with
    | 0x36 => ((s.tssCount Ctrs.BLOCKS_RX l 1).cutRecord l).recordStep l o
    | 0x5A =>
      let s1 := s.tssCount Ctrs.BLOCKS_RX l 1
      match (s.link l).record with
      | some r => s1.recordStep l (r ++ o)
      | none => .next s1
    | 0x0F => .next ((s.tssCount Ctrs.BLOCKS_RX l 1).cutRecord l)
    | _ => .next ((s.tssCount Ctrs.BLOCK_BAD l 1).cutRecord l)

/-- TSS_BLOCK_RX (R543, R544, R546): the bits of the line from the end of the block or marker before up to the end of a
block. A stuffed bit that follows the block's last bit comes with the next ones. -/
def execTssBlockRx (l : Fin 8) (line : List Bool) (s : State) : Host.Outcome State Fault Refusal :=
  let x := s.link l
  let (d, n, b, viol) := destuff x.run x.level line
  if !s.linkOn l ∨ !s.linkLocked l ∨ d.length ≠ 136 then .next s
  else
    let (plain, past) := descramble 136 x.past (bitsNat d)
    ((s.tssCount Ctrs.STUFF_VIOL l viol).setLink l { x with past := past, run := n, level := b }).tssBlock l (plain / 2 ^ 128)
      (beBytes 16 (plain % 2 ^ 128))

end Sys2Proof.Machine
end

