-- ==== Sys2Proof/Machine/Framers.lean ====
section
/-! DEFINITION. Framers: alignment and defects of a received OTUCn, configuration, the slot map, client ports, GCC streams
and path performance (chapter 16). -/

namespace Sys2Proof.Machine

open Sys2Proof

namespace Ctrs
def FEC_CORR : CtrId := ⟨0x11, 0⟩
def FEC_UNCORR : CtrId := ⟨0x11, 1⟩
def ES_CUR : CtrId := ⟨0x21, 0⟩
def SES_CUR : CtrId := ⟨0x21, 1⟩
def UAS_CUR : CtrId := ⟨0x21, 2⟩
def ES_PREV : CtrId := ⟨0x21, 3⟩
def SES_PREV : CtrId := ⟨0x21, 4⟩
def UAS_PREV : CtrId := ⟨0x21, 5⟩
end Ctrs

/-! ### Receive side: defects (R556, R559, R560, R563, R579) -/

/-- An OTUC of a group. -/
def State.otuc (s : State) (g i : Nat) : OtucRx := Tbl.get {} s.frm.otuc (8 * g + i)
def State.setOtuc (s : State) (g i : Nat) (x : OtucRx) : State :=
  { s with frm := { s.frm with otuc := Tbl.set {} s.frm.otuc (8 * g + i) x } }

/-- A defect bit of FRM_DEFg raised or cleared, with its latched bit (R579). -/
def State.defect (s : State) (g b : Nat) (on : Bool) : State :=
  let v := (s.reg .FRM_DEF g).toNat
  let w := setBits v b b (b2n on)
  s.setReg .FRM_DEF (BitVec.ofNat 64 (if on && !v.testBit b then setBits w (b + 16) (b + 16) 1 else w)) g

/-- Some OTUC of a group's OTUCn satisfies a test. -/
def State.anyOtuc (s : State) (g : Nat) (p : Nat → OtucRx → Bool) : Bool :=
  (List.range (s.otucs g)).any (fun i => p (8 * g + i) (s.otuc g i))

/-- The defects of a group that its OTUCs and instances give: FLEXO_LOF, GIDM, LOF, LOM. -/
def State.refreshDefects (s : State) (g : Nat) : State :=
  let on := s.is FRM_CTL.RX_EN g
  let s1 := s.defect g 0 (on && s.anyOtuc g (fun k _ => !Tbl.get false s.frm.locked k))
  let s2 := s1.defect g 1 (on && s.anyOtuc g (fun k _ => Tbl.get false s.frm.wrong k))
  let s3 := s2.defect g 3 (on && s.anyOtuc g (fun _ x => x.lof))
  s3.defect g 4 (on && s.anyOtuc g (fun _ x => x.lom))

/-- The receive framer leaves the in-frame state (R67, R560). -/
def State.leaveFrame (s : State) (g : Nat) : State := if s.is FRM_STAT.IF g then (s.unmark FRM_STAT.IF g).farLose g else s

/-- IF of a group after its OTUCs have moved on a frame (R560). -/
def State.refreshIf (s : State) (g : Nat) (whole : Bool) : State :=
  let all := !s.anyOtuc g (fun _ x => !x.align.inFrame || !x.align.inMf)
  let same := !s.anyOtuc g (fun _ x => decide (x.align.mfas ≠ (s.otuc g 0).align.mfas))
  let skew := (s.reg .FRM_DEF g).toNat.testBit 2
  if !all || skew then s.leaveFrame g
  else if !whole then s
  else if same then s.mark FRM_STAT.IF g
  else s.leaveFrame g

/-- Where an OTUC is aligned after 16,320 positions in which the FAS stood at the positions `found`, in that order
(R559 steps 2 to 4): in frame only the expected position counts; out of frame the candidate found first that the FAS
confirms; a candidate at the old position is among them. None where the FAS is errored. -/
def OtucRx.hit (x : OtucRx) (found : List (Fin 16320)) : Option Nat :=
  let l := found.map (·.val)
  if x.align.inFrame then (if l.contains x.pos then some x.pos else none) else x.cands.find? l.contains

/-- 16,320 positions of an OTUC searched, with the MFAS that follows the FAS (R559, R560). -/
def State.otucStep (s : State) (g i : Nat) (found : List (Fin 16320)) (mfas : Nat) : State :=
  let x := s.otuc g i
  let hit := x.hit found
  let ok := hit.isSome
  let a := if x.align.inFrame then x.align.step ok mfas else Align.step { x.align with streak := b2n ok } ok mfas
  let s1 := if x.align.inFrame && !ok then s.count Ctrs.FAS_ERR g else s
  let s2 := if x.align.inFrame && !a.inFrame then s1.count Ctrs.OOF_EVENTS g else s1
  let t := s.tick.toNat
  let y : OtucRx := { x with
    align := { a with away := 0, home := 0 }
    pos := hit.getD x.pos
    cands := if x.align.inFrame || a.inFrame then [] else found.map (·.val)
    since := if a.inFrame = x.align.inFrame then x.since else t
    sinceMf := if (a.inFrame && a.inMf) = (x.align.inFrame && x.align.inMf) then x.sinceMf else t }
  s2.setOtuc g i y

/-- The MSI of a multiframe compared slot by slot (R563): the slots listed disagree. -/
def State.msiStep (s : State) (g : Nat) (bad : List (Fin 160)) : State :=
  let s1 := (List.range 160).foldl (fun (a : State) t =>
    let n := if bad.any (fun b => decide (b.val = t)) then min 3 (Tbl.get 0 a.frm.msi (160 * g + t) + 1) else 0
    { a with frm := { a.frm with msi := Tbl.set 0 a.frm.msi (160 * g + t) n } }) s
  (List.range 160).foldl (fun (a : State) c =>
    if a.anyChan (g * 160 + c) then
      let mine := fun t => a.is FRM_TSLIVE.USED g t && decide (a.rd FRM_TSLIVE.OWNER g t = c)
      let hit := (List.range 160).any (fun t => mine t && decide (3 ≤ Tbl.get 0 a.frm.msi (160 * g + t)))
      let none_ := (List.range 160).all (fun t => !mine t || decide (Tbl.get 0 a.frm.msi (160 * g + t) = 0))
      if hit then a.chDefect (g * 160 + c) 5 true else if none_ then a.chDefect (g * 160 + c) 5 false else a
    else a) s1

/-- OTUC_FRAME_RX (R559, R560, R563): 16,320 positions of OTUC `i`, a frame in length, with the positions in them at which
the FAS stands without error, and the MFAS. With OTUC #1 come the defects that the frame's overhead shows (SM_BDI, ODU_AIS,
ODU_LCK, ODU_OCI, PM_BDI) and, in the frame that completes an MSI, the slots that disagree; with the last OTUC whether the
skew is beyond 8 µs. -/
def execOtucFrameRx (g : Group) (i : Fin 8) (found : List (Fin 16320)) (mfas : Byte) (overhead : BitVec 5) (msi : Option (List (Fin 160)))
    (skew : Bool) (now : Word) (s : State) : Host.Outcome State Fault Refusal :=
  let s0 := s.timeTo now
  let n := s0.otucs g
  let k := 8 * g.val + i.val
  if !s0.is FRM_CTL.RX_EN g ∨ n ≤ i.val then .next s0
  else
    let seen := if Tbl.get false s0.frm.locked k ∧ !Tbl.get false s0.frm.wrong k then found else []
    let s1 := s0.otucStep g i seen mfas.toNat
    let s2 := if i.val = 0 then
      (List.range 5).foldl (fun (a : State) b => a.defect g (5 + b) (overhead.toNat.testBit b)) s1 else s1
    let last := decide (i.val + 1 = n)
    let s3 := (if last then s2.defect g 2 skew else s2).refreshIf g last
    .next (match msi with
      | some bad => if i.val = 0 ∧ s3.is FRM_STAT.IF g then s3.msiStep g bad else s3
      | none => s3)

/-- 3 ms in Ticks. -/
def ms3 : Nat := 4500000

/-- LOF_TIMER (R559, step 5): an OTUC has been out of frame, or in frame, for 3 ms. -/
def execLofTimer (g : Group) (i : Fin 8) (now : Word) (s : State) : Host.Outcome State Fault Refusal :=
  let s0 := s.timeTo now
  let x := s0.otuc g i
  if s0.is FRM_CTL.RX_EN g ∧ i.val < s0.otucs g ∧ x.since + ms3 ≤ s0.tick.toNat then
    .next ((s0.setOtuc g i { x with lof := !x.align.inFrame }).refreshDefects g)
  else .next s0

/-- LOM_TIMER (R560): an OTUC has been out of multiframe, or in multiframe, for 3 ms. -/
def execLomTimer (g : Group) (i : Fin 8) (now : Word) (s : State) : Host.Outcome State Fault Refusal :=
  let s0 := s.timeTo now
  let x := s0.otuc g i
  if s0.is FRM_CTL.RX_EN g ∧ i.val < s0.otucs g ∧ x.sinceMf + ms3 ≤ s0.tick.toNat then
    .next ((s0.setOtuc g i { x with lom := !(x.align.inFrame && x.align.inMf) }).refreshDefects g)
  else .next s0

/-- FLEXO_FRAME_RX (R556, R559 step 1): a FlexO frame of an instance: whether frame lock is held after it, its GID and PID,
and what the FEC corrected and could not. -/
def execFlexoFrameRx (g : Group) (i : Fin 8) (lock : Bool) (gid : BitVec 20) (pid : Byte) (corr uncorr : Nat) (s : State) :
    Host.Outcome State Fault Refusal :=
  let k := 8 * g.val + i.val
  if !s.is FRM_CTL.RX_EN g ∨ s.otucs g ≤ i.val then .next s
  else
    let s1 := (s.count Ctrs.FEC_CORR k corr).count Ctrs.FEC_UNCORR k uncorr
    let wrong := lock && (decide (gid.toNat ≠ s.rd FRM_CTL.GID g) || decide (pid.toNat ≠ i.val + 1))
    let s2 : State := { s1 with frm := { s1.frm with
      locked := Tbl.set false s1.frm.locked k lock, wrong := Tbl.set false s1.frm.wrong k wrong } }
    let x := s2.otuc g i
    let y : OtucRx := { x with align := {}, cands := [], since := if x.align.inFrame then s.tick.toNat else x.since
                               sinceMf := if x.align.inMf then s.tick.toNat else x.sinceMf }
    let s3 := if lock then s2 else (if x.align.inFrame then s2.count Ctrs.OOF_EVENTS g else s2).setOtuc g i y
    .next ((s3.refreshDefects g).refreshIf g false)

/-! ### FRM_CTL, FRM_GPOS (R47, R49, R556, R577, R578) -/

/-- The line lanes of a group of `n` OTUCs are ACTIVE at their rate codes (R556). -/
def State.lineReady (s : State) (g : Nat) (lane200 : Bool) (n : Nat) : Bool :=
  let l := lineRates lane200 n
  (List.range l.length).all (fun j => s.laneAt (72 + 4 * g + j) (l.getD j 3))

/-- A write to FRM_CTLg is refused (R577, R578). -/
def State.frmCtlBad (s : State) (g : Nat) (v : Word) : Bool :=
  let n := FRM_CTL.NM1.of v + 1
  let l200 := decide (FRM_CTL.LANE200.of v = 1)
  let tx := decide (FRM_CTL.TX_EN.of v = 1)
  let rx := decide (FRM_CTL.RX_EN.of v = 1)
  let wasTx := s.is FRM_CTL.TX_EN g
  let wasRx := s.is FRM_CTL.RX_EN g
  ((wasTx || wasRx) && (decide (n ≠ s.otucs g) || decide (FRM_CTL.LANE200.of v ≠ s.rd FRM_CTL.LANE200 g) ||
    decide (FRM_CTL.GID.of v ≠ s.rd FRM_CTL.GID g))) ||
  (!l200 && decide (4 < n)) ||
  (((tx && !wasTx) || (rx && !wasRx)) && !s.lineReady g l200 n) ||
  (wasTx && !tx && !(s.l1Enabled g).isEmpty) ||
  (tx && !wasTx && decide (n ≤ s.rd FRM_GPOS.SLICE g))

/-- The transmit framer is disabled (R49): the epoch ends, the Gauge stops and holds its reading. -/
def State.gaugeStop (s : State) (g : Nat) : State :=
  let s1 : State := { s with line := { s.line with mfTick := Tbl.set none s.line.mfTick g none } }
  s1.unmark GAU_STAT.RUN g

/-- The receive framer starts or stops: nothing is aligned, and its defects and locks start anew (DEDUCED). -/
def State.rxRestart (s : State) (g : Nat) : State :=
  let t := s.tick.toNat
  let s1 := (List.range 8).foldl (fun (a : State) i =>
    let k := 8 * g + i
    let b : State := { a with frm := { a.frm with locked := Tbl.set false a.frm.locked k false, wrong := Tbl.set false a.frm.wrong k false } }
    b.setOtuc g i { since := t, sinceMf := t }) s
  let s2 := (List.range 10).foldl (fun (a : State) b => a.defect g b false) (s1.leaveFrame g)
  (s2.recObjects .l1 0).foldl (fun (a : State) c =>
    if chanGroup c = g then
      let b := if a.ris L1.CNT_LOCK c then a.unlock c else a
      b.setL1 c { b.l1run c with align := {} }
    else a) (s2.refreshDefects g)

/-- The staged slot map of a group. -/
def State.staged (s : State) (g : Nat) : List Word := (List.range 160).map (fun t => s.reg .FRM_TSMAP g t)

/-- Fields of a slot-map entry (R580): USED, KIND, PORT, OWNER. -/
def slotUsed (w : Word) : Bool := decide (FRM_TSMAP.USED.of w = 1)
def slotKind (w : Word) : Nat := FRM_TSMAP.KIND.of w
def slotPort (w : Word) : Nat := FRM_TSMAP.PORT.of w
def slotOwner (w : Word) : Nat := FRM_TSMAP.OWNER.of w

/-- Slots of a client port's rate at 5 Gb/s each (R562). -/
def rateSlots (rate : Nat) : Nat := [20, 40, 80, 160].getD rate 0

/-- An owner's entry of a staged map is wrong for an L1 ODUflex (R562, third case). -/
def State.l1SlotBad (s : State) (g : Nat) (m : List Word) (o : Nat) : Bool :=
  let w := m.getD o 0
  let k := (m.filter (fun x => slotUsed x && decide (slotOwner x = o))).length
  let p := slotPort w
  let j := p - 4 * g
  let others := (List.range 160).filter (fun t => decide (t ≠ o) && slotUsed (m.getD t 0) && decide (slotOwner (m.getD t 0) = t) &&
    decide (slotKind (m.getD t 0) = 0) && decide (slotPort (m.getD t 0) = p))
  decide (p < 4 * g) || decide (4 * g + 3 < p) || !s.is FRM_CPORT.EN g j || decide (4 ≤ s.rd FRM_CPORT.RATE g j) ||
  decide (k ≠ rateSlots (s.rd FRM_CPORT.RATE g j)) || !others.isEmpty

/-- A channel whose slots may not change (R562, last case). -/
def State.slotHeld (s : State) (c : Nat) : Bool :=
  s.ris L1.EN c || s.ris CH.EN c || s.ris NODE.EN (3 * 2 ^ 20 + c)

/-- Two entries of a slot mean the same. -/
def slotSame (a b : Word) (t : Nat) : Bool :=
  decide (slotUsed a = slotUsed b) && (!slotUsed a || (decide (slotKind a = slotKind b) && decide (slotOwner a = slotOwner b) &&
    (decide (slotOwner a ≠ t) || decide (slotKind a = 1) || decide (slotPort a = slotPort b))))

/-- A commit of a group's staged map is refused (R562). -/
def State.mapBad (s : State) (g : Nat) : Bool :=
  let m := s.staged g
  let n := 20 * s.otucs g
  s.is FRM_STAT.MAP_PEND g ||
  (List.range 160).any (fun t =>
    let w := m.getD t 0
    let o := slotOwner w
    let live := s.reg .FRM_TSLIVE g t
    (slotUsed w && (decide (n ≤ t) || decide (t < o) || !slotUsed (m.getD o 0) || decide (slotOwner (m.getD o 0) ≠ o) ||
      decide (slotKind (m.getD o 0) ≠ slotKind w) || (decide (o = t) && decide (slotKind w = 0) && s.l1SlotBad g m t))) ||
    (!slotSame live w t && ((slotUsed live && s.slotHeld (g * 160 + slotOwner live)) || (slotUsed w && s.slotHeld (g * 160 + o)))))

/-- MAP_COMMIT (R562): the staged map is checked and waits for the next multiframe start, or is refused. -/
def State.mapCommit (s : State) (g : Nat) : State :=
  if s.mapBad g then s.mark FRM_STAT.REJECT g
  else State.mark { s with frm := { s.frm with pendMap := Tbl.set [] s.frm.pendMap g (s.staged g) } } FRM_STAT.MAP_PEND g

/-- MAP_COMMIT (R562): a packet channel in a Twin group is a host error (R128). -/
def execMapCommit (g : Group) (s : State) : Host.Outcome State Fault Refusal :=
  if (s.mapCommit g).twinPacket g then .fault .hostError else .next (s.mapCommit g)

/-- A map that waits becomes live (R562); the credit of a channel that it creates is 0 (R565). -/
def State.mapTake (s : State) (g : Nat) : State :=
  let m := Tbl.get [] s.frm.pendMap g
  let s1 : State := { s with frm := { s.frm with pendMap := Tbl.set [] s.frm.pendMap g [] } }
  let s2 := (List.range 160).foldl (fun (a : State) t =>
    let w := m.getD t 0
    let b := if slotUsed w ∧ slotOwner w = t ∧ !s.anyChan (g * 160 + t) then
      { a with basin := { a.basin with mapper := Tbl.set 0 a.basin.mapper (g * 160 + t) 0 } } else a
    b.setReg .FRM_TSLIVE w g t) s1
  s2.unmark FRM_STAT.MAP_PEND g

/-- A write to FRM_CTLg (R47, R49, R577). -/
def State.frmCtlWrite (s : State) (g : Nat) (v : Word) : State :=
  if s.frmCtlBad g v then s.mark FRM_STAT.REJECT g
  else
    let wasTx := s.is FRM_CTL.TX_EN g
    let wasRx := s.is FRM_CTL.RX_EN g
    let s1 := s.plainWrite .FRM_CTL v g
    let s2 := if wasTx ∧ !s1.is FRM_CTL.TX_EN g then s1.gaugeStop g else s1
    let s3 := if wasRx ≠ s2.is FRM_CTL.RX_EN g then s2.rxRestart g else s2
    if FRM_CTL.MAP_COMMIT.of v = 1 then s3.mapCommit g else s3

/-- FRM_CTL_WRITE (R577). -/
def execFrmCtlWrite (g : Group) (v : Word) (s : State) : Host.Outcome State Fault Refusal :=
  guardRsvd .FRM_CTL v (if FRM_CTL.MAP_COMMIT.of v = 1 ∧ (s.frmCtlWrite g v).twinPacket g then .fault .hostError
    else .next (s.frmCtlWrite g v))

/-- A write to FRM_GPOSg (R578). -/
def State.gposWrite (s : State) (g : Nat) (v : Word) : State :=
  let p := FRM_GPOS.POS.of v
  if (p / 16 = 0 ∧ p % 16 < 7) ∨ s.is FRM_CTL.TX_EN g ∨ s.is FRM_CTL.RX_EN g then s.mark FRM_STAT.REJECT g
  else s.plainWrite .FRM_GPOS v g

/-- Positions in a row-by-row overhead of 16 columns that a GCC KIND takes (R570). -/
def gccPos (kind : Nat) : List Nat := if kind = 0 then [10, 11] else if kind = 1 then [48, 49] else [50, 51]

/-- An enabled stream takes its octets of a group from one of the positions `pos`; `lo` tells the ODUflex overhead of its
L1 channels from the OTUCn's (R570). -/
def State.gccAt (s : State) (g : Nat) (lo : Bool) (pos : List Nat) : Bool :=
  (List.range 64).any (fun k =>
    let (p, i) := (k / 16, k % 16)
    s.is FRM_DSTR.EN p i && decide (s.rd FRM_DSTR.GROUP p i = g) && (s.is FRM_DSTR.LO p i == lo) &&
    (!lo || s.l1Chan (g * 160 + s.rd FRM_DSTR.SLOT p i)) && (gccPos (s.rd FRM_DSTR.KIND p i)).any pos.contains)

/-- The Gauge octet of a group collides with a GCC in use: a host error (R569). -/
def State.gposClash (s : State) (g : Nat) : Bool := s.gccAt g false [s.rd FRM_GPOS.POS g]

/-- A COO of a group's L1 channels collides with a GCC in use: a host error (R152). -/
def State.cooClash (s : State) (g : Nat) : Bool :=
  s.gccAt g true ((List.range 8).map (cooPos (s.reg .FRM_COOPOS g).toNat))

/-- FRM_GPOS_WRITE (R569, R578). -/
def execFrmGposWrite (g : Group) (v : Word) (s : State) : Host.Outcome State Fault Refusal :=
  let t := s.gposWrite g v
  guardRsvd .FRM_GPOS v (if t.gposClash g then .fault .hostError else .next t)

/-- FRM_COOPOS_WRITE (R151, R152). -/
def execFrmCooposWrite (g : Group) (v : Word) (s : State) : Host.Outcome State Fault Refusal :=
  let t := s.cooposWrite g v
  guardRsvd .FRM_COOPOS v (if t.cooClash g then .fault .hostError else .next t)

/-! ### Client ports (R20, R749) -/

/-- R20 allows a RATE at port `j` of a group. -/
def cportRateOk (g j rate : Nat) : Bool :=
  match rate with
  | 0 => true
  | 1 => true
  | 2 => decide (j = 0) || decide (j = 2)
  | 3 => decide (j = 0)
  | 4 => decide (j = 0) && decide (g % 2 = 0)
  | _ => false

/-- A write to FRM_CPORTg_j is refused (R749). -/
def State.cportBad (s : State) (g j : Nat) (v : Word) : Bool :=
  let en := decide (FRM_CPORT.EN.of v = 1)
  let was := s.is FRM_CPORT.EN g j
  let rate := FRM_CPORT.RATE.of v
  let x := portLanes (4 * g + j) rate
  let code := if rate = 0 then 1 else 2
  (en && !cportRateOk g j rate) || (en && !was && !(List.range x.2).all (fun i => s.laneAt (x.1 + i) code)) ||
  (was && (decide (rate ≠ s.rd FRM_CPORT.RATE g j) || decide (FRM_CPORT.CLASS.of v ≠ s.rd FRM_CPORT.CLASS g j))) ||
  (was && !en && (List.range 160).any (fun t => s.l1Chan (g * 160 + t) && decide (s.rd FRM_TSLIVE.PORT g t = 4 * g + j)))

/-- A write to FRM_CPORTg_j (R749). -/
def State.cportWrite (s : State) (g j : Nat) (v : Word) : State :=
  if s.cportBad g j v then s.mark FRM_STAT.REJECT g else s.plainWrite .FRM_CPORT v g j

/-- Two enabled ports claim the same client lane: a host error (R20). -/
def State.portsOverlap (s : State) (g j : Nat) : Bool :=
  let x := portLanes (4 * g + j) (s.rd FRM_CPORT.RATE g j)
  s.is FRM_CPORT.EN g j && (List.range 72).any (fun p =>
    let y := portLanes p (s.rd FRM_CPORT.RATE (p / 4) (p % 4))
    decide (p ≠ 4 * g + j) && s.is FRM_CPORT.EN (p / 4) (p % 4) && decide (x.1 < y.1 + y.2) && decide (y.1 < x.1 + x.2))

/-- A 1.6 Tb/s port that an L1 ODUflex of the live map names: a host error (R22). -/
def State.l1TooFast (s : State) (g j : Nat) : Bool :=
  s.is FRM_CPORT.EN g j && decide (s.rd FRM_CPORT.RATE g j = 4) &&
  (List.range 160).any (fun t => s.l1Chan (g * 160 + t) && decide (s.rd FRM_TSLIVE.PORT g t = 4 * g + j))

/-- FRM_CPORT_WRITE (R749). -/
def execFrmCportWrite (g : Group) (j : Fin 4) (v : Word) (s : State) : Host.Outcome State Fault Refusal :=
  let t := s.cportWrite g j v
  guardRsvd .FRM_CPORT v (if t.portsOverlap g j ∨ t.l1TooFast g j then .fault .hostError else .next t)

/-! ### GCC streams (R570 to R572, R581) -/

/-- The source that a stream word names (R581). -/
def streamSource (v : Word) : Nat × Nat × Nat × Nat :=
  (FRM_DSTR.GROUP.of v, FRM_DSTR.KIND.of v, FRM_DSTR.LO.of v, if FRM_DSTR.LO.of v = 1 then FRM_DSTR.SLOT.of v else 0)

/-- A write to FRM_DSTRp_i is refused (R581). -/
def State.dstrBad (s : State) (p i : Nat) (v : Word) : Bool :=
  let old := s.reg .FRM_DSTR p i
  decide (FRM_DSTR.KIND.of v = 3) || decide (18 ≤ FRM_DSTR.GROUP.of v) ||
  (decide (FRM_DSTR.LO.of v = 1) && decide (FRM_DSTR.KIND.of v = 0)) ||
  (List.range 64).any (fun k => decide (k ≠ 16 * p + i) && s.is FRM_DSTR.EN (k / 16) (k % 16) &&
    decide (streamSource (s.reg .FRM_DSTR (k / 16) (k % 16)) = streamSource v)) ||
  (s.is FRM_DSTR.EN p i && decide (setBits v.toNat 31 31 0 ≠ setBits old.toNat 31 31 0))

/-- A write to FRM_DSTRp_i (R581): a stream enabled starts with empty buffers (DEDUCED). -/
def State.dstrWrite (s : State) (p i : Nat) (v : Word) : State :=
  if s.dstrBad p i v then s.mark FRM_DCCSTAT.REJECT p
  else
    let s1 := s.plainWrite .FRM_DSTR v p i
    if s1.is FRM_DSTR.EN p i ∧ !s.is FRM_DSTR.EN p i then s1.setStream p i {} else s1

/-- FRM_DSTR_WRITE (R581); a stream whose octets stand where the Gauge octet or a COO stands is a host error (R152,
R569). -/
def execFrmDstrWrite (p : Fin 4) (i : Fin 16) (v : Word) (s : State) : Host.Outcome State Fault Refusal :=
  let t := s.dstrWrite p i v
  let g := FRM_DSTR.GROUP.of v
  guardRsvd .FRM_DSTR v (if t.gposClash g ∨ t.cooClash g then .fault .hostError else .next t)

/-- GCC_EXTRACT (R572): a GCC frame of a stream's source has been received. -/
def execGccExtract (p : Fin 4) (i : Fin 16) (o : Octets) (s : State) : Host.Outcome State Fault Refusal :=
  if !s.streamOn p i 1 ∨ o.length ≠ s.gccLen p i then .next s
  else
    let x := s.stream p i
    let n := (x.seqNo + 1) % 2 ^ 16
    if 4 ≤ x.extract.length then .next ((s.setStream p i { x with seqNo := n }).count Ctrs.SLIP_DROP (16 * p.val + i.val))
    else .next (s.setStream p i { x with seqNo := n, extract := x.extract ++ [(x.seqNo, o)] })

/-- The blocks' payload of a GCC frame (R571): 16 octets, and a continuation of 16 when it has more than 12. -/
def dccBlocks (i sq : Nat) (o : Octets) : Octets :=
  let first := [BitVec.ofNat 8 i, BitVec.ofNat 8 o.length] ++ beBytes 2 sq ++ slice o 0 12
  if 12 < o.length then first ++ slice (o.drop 12) 0 16 else first

/-- DCC_RECORD_TX (R571, R572): the next stream of a port, in round robin, that has a frame waiting sends it. -/
def execDccRecordTx (p : Fin 4) (s : State) : Host.Outcome State Fault Refusal :=
  let start := Tbl.get 0 s.frm.turn p
  match ((List.range 16).map (fun k => (start + k) % 16)).find? (fun i => !(s.stream p i).extract.isEmpty) with
  | some i =>
    if !s.is FRM_DCCCTL.EN p then .next s
    else match (s.stream p i).extract with
      | (sq, o) :: t =>
        let s1 := s.setStream p i { s.stream p i with extract := t }
        let s2 : State := { s1 with frm := { s1.frm with turn := Tbl.set 0 s1.frm.turn p ((i + 1) % 16) } }
        let r := dccBlocks i sq o
        .next ((s2.emit (.dccRecord p r)).tssSend (4 + p) r)
      | [] => .next s
  | none => .next s

/-- GCC_INSERT (R572): a GCC position of a stream's source is sent. -/
def execGccInsert (p : Fin 4) (i : Fin 16) (s : State) : Host.Outcome State Fault Refusal :=
  let x := s.stream p i
  let g := s.rd FRM_DSTR.GROUP p i
  if !s.streamOn p i 0 then .next s
  else match x.insert, x.last with
    | o :: t, _ => .next ((s.setStream p i { x with insert := t, last := some o }).emit (.gccInsert g (16 * p.val + i.val) o))
    | [], some o => .next ((s.count Ctrs.SLIP_REP (16 * p.val + i.val)).emit (.gccInsert g (16 * p.val + i.val) o))
    | [], none => .next (s.emit (.gccInsert g (16 * p.val + i.val) (List.replicate (s.gccLen p i) 0)))

/-! ### Path performance (R573 to R575) -/

/-- A counter lowered by `n`, not below 0. -/
def State.uncount (s : State) (c : CtrId) (inst n : Nat) : State :=
  let x := s.ctr c inst
  { s with counters := Tbl.set {} s.counters (c.addr inst) { x with n := BitVec.ofNat 48 (x.n.toNat - n) } }

/-- A path end whose framer and source exist: its group receives, and its channel is in the live map (R573). -/
def State.pathOn (s : State) (p : Nat) : Bool :=
  if p < 2880 then s.is FRM_CTL.RX_EN (chanGroup p) && s.anyChan p
  else decide (p < 2916) && s.is FRM_CTL.RX_EN ((p - 2880) / 2)

/-- Defects raised now that make a second a defect second of a path end (R573). -/
def State.pathDefect (s : State) (p e : Nat) : Bool :=
  if p < 2880 then
    let v := (s.reg .FRM_CHSTAT (chanGroup p) (chanSlot p)).toNat
    if e = 0 then v &&& 0b1111 != 0 else v.testBit 4
  else
    let v := (s.reg .FRM_DEF ((p - 2880) / 2)).toNat
    if e = 0 then (if p % 2 = 0 then v &&& 0b11110 != 0 else v &&& 0b111011110 != 0)
    else v.testBit (if p % 2 = 0 then 5 else 9)

/-- The ten seconds of a run move to UAS, or back (R574): each in the bin that it belongs to. -/
def State.moveRun (s : State) (k : Nat) (run : List (Bool × Bool)) (toUas : Bool) : State :=
  run.foldl (fun (a : State) r =>
    let es := if r.2 then Ctrs.ES_PREV else Ctrs.ES_CUR
    let ses := if r.2 then Ctrs.SES_PREV else Ctrs.SES_CUR
    let uas := if r.2 then Ctrs.UAS_PREV else Ctrs.UAS_CUR
    if toUas then ((a.uncount es k 1).uncount ses k 1).count uas k
    else
      let b := a.uncount uas k 1
      if r.1 then b.count es k else b) s

/-- A second of a path end counted (R574). -/
def State.pathSecond (s : State) (k : Nat) (es ses : Bool) : State :=
  let x := Tbl.get {} s.frm.paths k
  let put := fun (a : State) (y : PathEnd) => ({ a with frm := { a.frm with paths := Tbl.set {} a.frm.paths k y } } : State)
  if x.unavailable then
    let s1 := s.count Ctrs.UAS_CUR k
    if ses then put s1 { x with run := [] }
    else
      let run := (es, false) :: x.run
      if run.length = 10 then put (s1.moveRun k run false) {} else put s1 { x with run := run }
  else
    let s1 := if es then s.count Ctrs.ES_CUR k else s
    let s2 := if ses then s1.count Ctrs.SES_CUR k else s1
    if !ses then put s2 {}
    else
      let run := (true, false) :: x.run
      if run.length = 10 then put (s2.moveRun k run true) { unavailable := true } else put s2 { x with run := run }

/-- Paths that count: numbers below 2,916 whose source exists (R654). -/
def State.livePaths (s : State) : List Nat := (List.range 2916).filter s.pathOn

/-- One second of every path (R574). -/
def State.secondEnds (s : State) (seen : List (Nat × Bool × Nat × Nat × Bool)) : State :=
  s.livePaths.foldl (fun (a : State) p => [0, 1].foldl (fun (b : State) e =>
    let r := (seen.find? (fun x => decide (x.1 = p) && decide (x.2.1 = decide (e = 1)))).map (fun x => x.2.2)
    let (n, err, d) := r.getD (0, 0, false)
    let bad := d || b.pathDefect p e
    b.pathSecond (2 * p + e) (bad || decide (0 < err)) (bad || (decide (0 < err) && decide (15 * n ≤ 100 * err)))) a) s

/-- PM_SECOND (R574): a second of network time ends; `seen` gives, for each path end that saw an error or a defect, the
path, whether it is the far end, its blocks, the errored ones, and whether a defect was raised. -/
def execPmSecond (seen : List (Nat × Bool × Nat × Nat × Bool)) (now : Word) (s : State) : Host.Outcome State Fault Refusal :=
  let s0 := s.timeTo now
  let sec := timeSec s0.timeNow
  if s0.frm.second < sec then
    .next (State.secondEnds { s0 with frm := { s0.frm with second := sec } } seen)
  else .next s0

/-- A path end at a bin boundary (R575). -/
def State.pathBin (s : State) (k : Nat) : State :=
  let x := Tbl.get {} s.frm.paths k
  let y : PathEnd := { x with run := x.run.map (fun r => (r.1, true)) }
  let s1 : State := { s with frm := { s.frm with paths := Tbl.set {} s.frm.paths k y } }
  [(Ctrs.ES_CUR, Ctrs.ES_PREV), (Ctrs.SES_CUR, Ctrs.SES_PREV), (Ctrs.UAS_CUR, Ctrs.UAS_PREV)].foldl (fun (a : State) c =>
    let v := a.ctr c.1 k
    let put := fun (b : State) (d : CtrId) (w : Ctr) => ({ b with counters := Tbl.set {} b.counters (d.addr k) w } : State)
    put (put a c.2 v) c.1 {}) s1

/-- PM_BIN_BOUNDARY (R575): a multiple of 900 s of network time, once the second before it has been counted; every current
bin becomes the previous one. -/
def execPmBinBoundary (now : Word) (s : State) : Host.Outcome State Fault Refusal :=
  let s0 := s.timeTo now
  let bin := timeSec s0.timeNow / 900
  if s0.frm.bin < bin ∧ 900 * bin ≤ s0.frm.second then
    let s1 : State := { s0 with frm := { s0.frm with bin := bin } }
    .next ((List.range 2916).foldl (fun (a : State) p =>
      if a.pathOn p then (a.pathBin (2 * p)).pathBin (2 * p + 1) else a) s1)
  else .next s0

end Sys2Proof.Machine
end

