-- ==== Sys2Proof/Machine/FrameStart.lean ====
section
/-! DEFINITION. The frame start of a group and the start of an epoch: the work of R55 in its order, checkpoints, renewal,
refills, and what happens at a multiframe start (chapters 02, 08, 12 and 16). -/

namespace Sys2Proof.Machine

open Sys2Proof

/-- Key-epoch switches and SC switches that are armed for a frame take effect (R55 step 1, R161, R197). -/
def State.armedSwitches (s : State) (g : Nat) : State :=
  let s1 := (s.recObjects .l1 3).foldl (fun (a : State) c => if chanGroup c = g then a.tryL1Switch c else a) s
  (s1.recObjects .sc 0).foldl (fun (a : State) sc => if chanGroup (a.rrd SC.CHAN sc) = g then a.tryFrameSwitch sc else a) s1

/-- Some armed switch of a group has its target strictly before a reading (R54). -/
def State.switchPast (s : State) (g : Nat) (r : Word) : Bool :=
  let past := fun (f : Nat) => atOrAfter r (reading f 0) && decide (r ≠ reading f 0)
  (s.recObjects .l1 3).any (fun c => decide (chanGroup c = g) && s.ris L1.SW_PEND c && past (s.rrd L1.SW_FRAME c)) ||
  (s.recObjects .sc 0).any (fun sc => decide (chanGroup (s.rrd SC.CHAN sc) = g) && s.ris SC.SW_PEND sc && !s.ris SC.SW_BY_PN sc &&
    past (s.rrd SC.SW_AT sc / 2 ^ 16))

/-- The L1 entries of a checkpoint (R290). -/
def State.ckptL1 (s : State) (g : Nat) : List CkptL1 :=
  (s.l1Enabled g).map (fun c =>
    { chan := c, count := s.rrd L1.TX_COUNT c, txEpoch := s.rrd L1.TX_EPOCH c, rxEpoch := s.rrd L1.RX_EPOCH c
      locked := s.ris L1.CNT_LOCK c, inFrame := (s.l1run c).align.inFrame })

/-- The checkpoint of a group at frame `f` (R289, R290), in place of the older copy; its first one after a grant closes
the recovery window (R89). The marks are those of the frame that ended; the rest is the state after step 1 of R55, each
step seeing the results of the one before it. -/
def State.checkpoint (s : State) (g f : Nat) : State :=
  let x := s.wgrp g
  if s.leaseHeld g then
    let c : Ckpt := {
      group := g, frame := f, sequence := x.sequence + 1, writer := s.rd WEI_LEASE.HOLDER_A g
      lepoch := s.rd WEI_LEASE.LEPOCH g, l1 := s.ckptL1 g, pn := x.marks }
    s.setWgrp g { x with
      copies := { c with crc := crc32First c.octets } :: x.copies.take 1, sequence := x.sequence + 1, marks := []
      phase := if x.phase = .granted then .none else x.phase }
  else s.setWgrp g { x with marks := [] }

/-- Checkpoint writes of Races that hold no lease any more (R287, R289): discarded and counted. -/
def State.staleWrites (s : State) (g : Nat) (l : List RaceNo) : State :=
  l.foldl (fun (a : State) (k : RaceNo) =>
    if (a.race k.val).gateOpen then (a.count Ctrs.STALE_WRITES g).mark WEI_STAT.STALE_WR else a) s

/-- The Weir renews a held lease without a dispute (R284), or grants one that is owed (R283). -/
def State.renew (s : State) (g f : Nat) : State :=
  if s.leaseHeld g then
    if s.disputed g then s
    else (s.setWgrp g { s.wgrp g with term := s.tick.toNat }).wr WEI_LEASE.RENEW (f % 2 ^ 16) g
  else s.grantAtFrame g

/-- Steps 1 to 4 of R55. -/
def State.frameWork (s : State) (g f : Nat) (stale : List RaceNo) : State :=
  let s1 := (((s.armedSwitches g).checkpoint g f).staleWrites g stale).renew g f
  ((s1.refillShapers g).refillPolicers g).refillMappers g

/-- WAITG waits that are due on time at a reading (R55 step 5, R335). -/
def State.waitsDue (s : State) (sel : Nat) (r : Word) : State :=
  (List.range 256).foldl (fun (a : State) t =>
    match (a.thread t).cmp with
    | some (c, target) => if c = sel ∧ atOrAfter r target then a.waitgDone t false else a
    | none => a) s

/-- The octet of the Gauge word that goes out in frame `f` (R64). -/
def gaugeOctet (f : Nat) : Byte :=
  let mf := beBytes 5 (f / 256)
  let j := f % 256
  if j < 5 then mf.getD j 0 else if j = 5 then mf.foldl (fun a b => a ^^^ b) 0x5A else 0

/-- What a slot of a group carries in the frame that starts (R567). -/
def State.slotSignal (s : State) (g t : Nat) : SlotSignal :=
  let c := g * 160 + s.rd FRM_TSLIVE.OWNER g t
  if !s.is FRM_TSLIVE.USED g t then .zero
  else if s.is FRM_TSLIVE.KIND g t ∧ !s.ris NODE.EN (nodeIx 3 c) then .oci
  else if s.is FRM_TSLIVE.KIND g t ∧ !s.sluiceOpen g then .idles
  else .frames c

/-- What frame `f` of a group's OTUCn carries beside its channels' frames: FRAME[7:0] as the MFAS and the octet of the
Gauge word at the place that FRM_GPOS gives (R46, R64, R569), what its slots carry (R567), and from a multiframe start on
the live map as its MSI (R563). -/
def State.gaugeSend (s : State) (g f : Nat) : State :=
  let s1 := s.emit (.gaugeOctet g (BitVec.ofNat 8 f) (s.rd FRM_GPOS.SLICE g) (s.rd FRM_GPOS.POS g) (gaugeOctet f))
  let l := List.range (20 * s.otucs g)
  let s2 := s1.emit (.slots g (l.map (s.slotSignal g)))
  if f % 256 = 0 then s2.emit (.msi g (l.map (fun t => s.reg .FRM_TSLIVE g t))) else s2

/-- GAU_FPERn at a multiframe start (R63): the last complete multiframe of the epoch, averaged. -/
def State.framePeriod (s : State) (g : Nat) : State :=
  let s1 := match Tbl.get none s.line.mfTick g with
    | some t => s.setReg .GAU_FPER (BitVec.ofNat 64 ((s.tick.toNat - t) * 256 % 2 ^ 32)) g
    | none => s
  { s1 with line := { s1.line with mfTick := Tbl.set none s1.line.mfTick g (some s.tick.toNat) } }

/-- The mirror record of a group sent at its multiframe start (R311, R548). -/
def State.mirrorSend (s : State) (g : Nat) : State :=
  if s.is WEI_TETHCTL.MIRROR_TX ∧ s.is WEI_CARD.ACTIVE then
    ((s.emit (.tether (s.mirrorRecord g))).tssSend (g % 4) (s.mirrorRecord g)).count Ctrs.MIRROR_TX
  else s

/-- What a multiframe start brings before the frame's own work: a slot map takes effect (R562). -/
def State.multiframeBefore (s : State) (g f : Nat) : State :=
  if f % 256 = 0 ∧ s.is FRM_STAT.MAP_PEND g then s.mapTake g else s

/-- What a multiframe start brings after it: the frame period, an automatic snapshot, the mirror record, and a multiframe
more for the Eddy-scan (R62, R63, R311, R412). -/
def State.multiframeAfter (s : State) (g f : Nat) : State :=
  if f % 256 = 0 then
    let s1 := (s.framePeriod g).mirrorSend g
    if g = s.recordGroup then
      let s2 := if s1.is GAU_SNAPCTL.AUTO then s1.snapshot else s1
      { s2 with delta := { s2.delta with sinceMf := s2.delta.sinceMf + 1 } }
    else s1
  else s

/-- The Gauge at the first octet of frame `f` (R45, R69). -/
def State.gaugeAt (s : State) (g f : Nat) : State :=
  (s.setReg .GAU_READ (reading f 0) g).setReg .GAU_FTICK s.tick g

/-- GAUGE_FRAME_START (R55): the first octet of the next frame of a running Gauge; `stale`: Races with an open power gate
that write a checkpoint all the same. -/
def execGaugeFrameStart (g : Group) (stale : List RaceNo) (now : Word) (s : State) : Host.Outcome State Fault Refusal :=
  let s0 := s.timeTo now
  if !s0.is GAU_STAT.RUN g then .next s0
  else
    let f := (frameOf (s0.gauge g) + 1) % 2 ^ 48
    let s1 := (((s0.gaugeAt g f).multiframeBefore g f).frameWork g f stale).multiframeAfter g f
    .next (((s1.gaugeSend g f).dispatchDue g (reading f 0) (fun _ => false)).waitsDue g (reading f 0))

/-- EPOCH_START (R47, R49): the first octet of the first frame after TX_EN; the Gauge reads P:0, the frame start's work is
done, and pending events are compared with the reading. -/
def execEpochStart (g : Group) (now : Word) (s : State) : Host.Outcome State Fault Refusal :=
  let s0 := s.timeTo now
  if !s0.is FRM_CTL.TX_EN g ∨ s0.is GAU_STAT.RUN g then .next s0
  else
    let f := s0.rd GAU_PRESET.FRAME g
    let s1 := (s0.mark GAU_STAT.RUN g).wr GAU_STAT.EPOCH ((s0.rd GAU_STAT.EPOCH g + 1) % 2 ^ 16) g
    let s2 : State := (s1.setReg .GAU_FPER 0 g).setWgrp g { s1.wgrp g with epochOnly := false }
    let s2' := if s2.switchPast g (reading f 0) then s2.mark GAU_STAT.PAST g else s2
    let s3 := (((s2'.gaugeAt g f).multiframeBefore g f).frameWork g f []).multiframeAfter g f
    .next ((s3.gaugeSend g f).compareFirst g (reading f 0))

end Sys2Proof.Machine
end

