-- ==== Sys2Proof/Machine/Pqc.lean ====
section
/-! DEFINITION. The public-key algorithms of the PKE: ML-KEM-1024 and the curve P-384. PRESUMED: their definitions are
FIPS 203 and SP 800-186 with SEC 1, the published standards that R237 and R265 name. -/

namespace Sys2Proof.Machine.Crypto

open Sys2Proof.Machine

/-! ### ML-KEM-1024 (FIPS 203) -/

/-- The modulus. A polynomial is its 256 coefficients below it, lowest power first. -/
def kyberQ : Nat := 3329

/-- Sum, difference and multiple of polynomials. -/
def polyAdd (f g : List Nat) : List Nat := List.zipWith (fun u v => (u + v) % kyberQ) f g
def polySub (f g : List Nat) : List Nat := List.zipWith (fun u v => (u + kyberQ - v) % kyberQ) f g
def polyMul (k : Nat) (f : List Nat) : List Nat := f.map (fun u => k * u % kyberQ)

/-- Seven bits in reverse. -/
def rev7 (i : Nat) : Nat := (List.range 7).foldl (fun v j => 2 * v + i / 2 ^ j % 2) 0

/-- Powers of 17, which has order 256. -/
def root17 (n : Nat) : Nat := 17 ^ (n % 256) % kyberQ

/-- The number-theoretic transform: block `i` of a level of the tree, and the blocks below it (algorithm 9). -/
def transform : Nat → Nat → List Nat → List Nat
  | 0, _, f => f
  | n + 1, i, f =>
    let lo := f.take (f.length / 2)
    let hi := polyMul (root17 (rev7 i)) (f.drop (f.length / 2))
    transform n (2 * i) (polyAdd lo hi) ++ transform n (2 * i + 1) (polySub lo hi)

/-- Its inverse (algorithm 10): each step halves, 1665 being the inverse of 2. -/
def untransform : Nat → Nat → List Nat → List Nat
  | 0, _, f => f
  | n + 1, i, f =>
    let a := untransform n (2 * i) (f.take (f.length / 2))
    let b := untransform n (2 * i + 1) (f.drop (f.length / 2))
    polyMul 1665 (polyAdd a b) ++ polyMul (1665 * root17 (256 - rev7 i)) (polySub a b)

def polyNtt (f : List Nat) : List Nat := transform 7 1 f
def polyBack (f : List Nat) : List Nat := untransform 7 1 f

/-- The product of two transformed polynomials, pair by pair (algorithms 11 and 12). -/
def polyDot (f g : List Nat) : List Nat :=
  (List.range 128).flatMap (fun i =>
    let a := f.getD (2 * i) 0
    let b := f.getD (2 * i + 1) 0
    let c := g.getD (2 * i) 0
    let d := g.getD (2 * i + 1) 0
    [(a * c + b * d % kyberQ * root17 (2 * rev7 i + 1)) % kyberQ, (a * d + b * c) % kyberQ])

/-- The sum of products of two vectors. -/
def vecDot (u v : List (List Nat)) : List Nat := (List.zipWith polyDot u v).foldl polyAdd (List.replicate 256 0)

/-- `d`-bit values packed least significant bit first (algorithm 5), and read back (algorithm 6). -/
def packBits (d : Nat) (f : List Nat) : List Nat := (unbe (32 * d) (f.foldr (fun v acc => acc * 2 ^ d + v % 2 ^ d) 0)).reverse
def unpackBits (d : Nat) (l : List Nat) : List Nat := let x := le l; (List.range 256).map (fun i => x / 2 ^ (d * i) % 2 ^ d)

/-- Rounding to `d` bits, and back (section 4.2.1). -/
def compress (d v : Nat) : Nat := (2 ^ (d + 1) * v + kyberQ) / (2 * kyberQ) % 2 ^ d
def decompress (d v : Nat) : Nat := (2 * kyberQ * v + 2 ^ d) / 2 ^ (d + 1)

/-- Values below the modulus among the 12-bit values of a stream (algorithm 7). -/
def takeBelow : List Nat → List Nat
  | a :: b :: c :: t =>
    let u := a + 256 * (b % 16)
    let v := b / 16 + 16 * c
    (if u < kyberQ then [u] else []) ++ (if v < kyberQ then [v] else []) ++ takeBelow t
  | _ => []

/-- An entry of the matrix from the seed ρ (algorithm 7). 840 octets of SHAKE128 give 256 values but for a chance of less
than 2^−128; a shorter yield is filled with 0. -/
def matrixEntry (rho : List Nat) (i j : Nat) : List Nat :=
  ((takeBelow (sponge 168 0x1F 840 (rho ++ [j, i]))) ++ List.replicate 256 0).take 256

/-- A small polynomial of the centred binomial distribution with η = 2, from a seed and a number (algorithm 8). -/
def smallPoly (seed : List Nat) (n : Nat) : List Nat :=
  let x := le (sponge 136 0x1F 128 (seed ++ [n]))
  let bit := fun (k : Nat) => x / 2 ^ k % 2
  (List.range 256).map (fun i => (bit (4 * i) + bit (4 * i + 1) + kyberQ - bit (4 * i + 2) - bit (4 * i + 3)) % kyberQ)

/-- G: SHA3-512, its two halves. -/
def hashG (m : List Nat) : List Nat × List Nat := let h := sponge 72 0x06 64 m; (h.take 32, h.drop 32)
/-- H: SHA3-256. -/
def hashH (m : List Nat) : List Nat := sponge 136 0x06 32 m

/-- Four polynomials of `d` bits each packed, and read back. -/
def packVec (d : Nat) (v : List (List Nat)) : List Nat := v.flatMap (packBits d)
def unpackVec (d : Nat) (l : List Nat) : List (List Nat) :=
  (List.range 4).map (fun i => unpackBits d ((l.drop (32 * d * i)).take (32 * d)))

/-- Key generation from the seed d ‖ z (algorithms 13 and 16): encapsulation key and decapsulation key. -/
def mlkemKeys (seed : Octets) : Octets × Octets :=
  let s := toN seed
  let (rho, sigma) := hashG (s.take 32 ++ [4])
  let secret := (List.range 4).map (fun i => polyNtt (smallPoly sigma i))
  let noise := (List.range 4).map (fun i => polyNtt (smallPoly sigma (4 + i)))
  let t := (List.range 4).map (fun i =>
    polyAdd (vecDot ((List.range 4).map (fun j => matrixEntry rho i j)) secret) (noise.getD i []))
  let ek := packVec 12 t ++ rho
  (ofN ek, ofN (packVec 12 secret ++ ek ++ hashH ek ++ s.drop 32))

/-- Encryption of 32 octets under an encapsulation key with randomness `r` (algorithm 14). -/
def kyberEncrypt (ek m r : List Nat) : List Nat :=
  let t := (unpackVec 12 ek).map (fun f => f.map (· % kyberQ))
  let rho := ek.drop 1536
  let y := (List.range 4).map (fun i => polyNtt (smallPoly r i))
  let u := (List.range 4).map (fun i =>
    polyAdd (polyBack (vecDot ((List.range 4).map (fun j => matrixEntry rho j i)) y)) (smallPoly r (4 + i)))
  let v := polyAdd (polyAdd (polyBack (vecDot t y)) (smallPoly r 8)) ((unpackBits 1 m).map (decompress 1))
  packVec 11 (u.map (fun f => f.map (compress 11))) ++ packBits 5 (v.map (compress 5))

/-- Encapsulation to a key with 32 random octets (algorithm 17): ciphertext and shared secret. -/
def mlkemEncaps (ek m : Octets) : Octets × Octets :=
  let (k, r) := hashG (toN m ++ hashH (toN ek))
  (ofN (kyberEncrypt (toN ek) (toN m) r), ofN k)

/-- Decryption under the first part of a decapsulation key (algorithm 15). -/
def kyberDecrypt (dk c : List Nat) : List Nat :=
  let u := (unpackVec 11 c).map (fun f => polyNtt (f.map (decompress 11)))
  let v := (unpackBits 5 (c.drop 1408)).map (decompress 5)
  packBits 1 ((polySub v (polyBack (vecDot (unpackVec 12 dk) u))).map (compress 1))

/-- Decapsulation (algorithm 18), with implicit rejection. -/
def mlkemDecaps (dk ct : Octets) : Octets :=
  let d := toN dk
  let c := toN ct
  let ek := (d.drop 1536).take 1568
  let m := kyberDecrypt d c
  let (k, r) := hashG (m ++ (d.drop 3104).take 32)
  ofN (if kyberEncrypt ek m r = c then k else sponge 136 0x1F 32 (d.drop 3136 ++ c))

/-- The input check of an encapsulation key (section 7.2): its length, and every coefficient below the modulus. -/
def mlkemKeyOk (ek : Octets) : Bool := decide (ek.length = 1568) && (unpackVec 12 (toN ek)).all (fun f => f.all (· < kyberQ))

/-! ### P-384 (SP 800-186, SEC 1) -/

def p384P : Nat := 2 ^ 384 - 2 ^ 128 - 2 ^ 96 + 2 ^ 32 - 1
def p384B : Nat := 0xB3312FA7E23EE7E4988E056BE3F82D19181D9C6EFE8141120314088F5013875AC656398D8A2ED19D2A85C8EDD3EC2AEF
/-- Order of the base point. -/
def p384N : Nat := 0xFFFFFFFFFFFFFFFFFFFFFFFFFFFFFFFFFFFFFFFFFFFFFFFFC7634D81F4372DDF581A0DB248B0A77AECEC196ACCC52973
def p384Base : Nat × Nat :=
  (0xAA87CA22BE8B05378EB1C71EF320AD746E1D3B628BA79B9859F741E082542A385502F25DBF55296C3A545E3872760AB7,
   0x3617DE4A96262C6F5D9E98BF9292DC29F8F41DBD289A147CE9DA3113B5F0B8C00A60B1CE1D7E819D7A431D7C90EA0E5F)

/-- x^e modulo the prime; `n` bounds the bits of e. -/
def p384Pow (x : Nat) : Nat → Nat → Nat
  | 0, _ => 1
  | n + 1, e =>
    let h := p384Pow x n (e / 2)
    if e % 2 = 1 then h * h % p384P * x % p384P else h * h % p384P

/-- The sum of two points; none is the point at infinity. -/
def p384Add (a b : Option (Nat × Nat)) : Option (Nat × Nat) :=
  match a, b with
  | none, _ => b
  | _, none => a
  | some (x, y), some (u, v) =>
    if x = u ∧ (y + v) % p384P = 0 then none
    else
      let num := if x = u then 3 * x * x + p384P - 3 else v + p384P - y
      let den := if x = u then 2 * y else u + p384P - x
      let s := num % p384P * p384Pow (den % p384P) 384 (p384P - 2) % p384P
      let w := (s * s + 2 * p384P - x - u) % p384P
      some (w, (s * (x + p384P - w) + p384P - y) % p384P)

/-- A multiple of a point; `n` bounds the bits of k. -/
def p384Mul (q : Option (Nat × Nat)) : Nat → Nat → Option (Nat × Nat)
  | 0, _ => none
  | n + 1, k =>
    let h := p384Mul q n (k / 2)
    if k % 2 = 1 then p384Add (p384Add h h) q else p384Add h h

/-- The scalar that 48 random octets give: 1 to N − 1. -/
def p384Scalar (o : Octets) : Nat := beNat o % (p384N - 1) + 1

/-- The public key of a scalar as an uncompressed point (R265). -/
def p384Public (o : Octets) : Octets :=
  match p384Mul (some p384Base) 384 (p384Scalar o) with
  | some (x, y) => 0x04#8 :: (beBytes 48 x ++ beBytes 48 y)
  | none => []

/-- X of the shared point of a scalar and a public key (R267). -/
def p384Shared (o q : Octets) : Octets :=
  match p384Mul (some (beNat (slice q 1 48), beNat (slice q 49 48))) 384 (p384Scalar o) with
  | some (x, _) => beBytes 48 x
  | none => []

/-- A valid point of P-384 other than the point at infinity, uncompressed (R265, R270). -/
def p384Valid (q : Octets) : Bool :=
  let x := beNat (slice q 1 48)
  let y := beNat (slice q 49 48)
  decide (q.length = 97) && decide (q.headD 0 = 0x04#8) && decide (x < p384P) && decide (y < p384P) &&
  decide (y * y % p384P = (x * x * x + (p384P - 3) * x + p384B) % p384P)

end Sys2Proof.Machine.Crypto
end

