-- ==== Sys2Proof/Machine/Spring.lean ====
section
/-! DEFINITION. Spring and the PKE: the operations that KDER issues, from acceptance to completion, with every status of
R272 (R214 to R216, R237 to R240, R248 to R271, R390, R391). -/

namespace Sys2Proof.Machine

open Sys2Proof

/-! ### The KDER descriptor (R390, R391) -/

def kderKey (d : Octets) : Nat := descField d 16 4
def kderArg (d : Octets) : Nat := descField d 20 4
def kderUse (d : Octets) : Nat := descField d 24 8
def kderIn (d : Octets) : Nat := descField d 32 8
def kderLen (d : Octets) : Nat := descField d 40 2
def kderIv (d : Octets) : Octets := slice d 48 16
def kderUseEn (d : Octets) : Bool := (descFlags d).testBit 0
def kderResetExp (d : Octets) : Bool := (descFlags d).testBit 1
def kderShort (d : Octets) : Bool := (descFlags d).testBit 2
/-- Mode of ENC and DEC: 0 ECB, 1 CBC, 2 CFB, 3 CTR. -/
def kderMode (d : Octets) : Nat := bits (descFlags d) 4 3

/-- OP values that R391 lists. -/
def kderDefined (op : Nat) : Bool :=
  (decide (1 ≤ op) && decide (op ≤ 0x0C)) || (decide (0x10 ≤ op) && decide (op ≤ 0x16)) ||
  (decide (0x18 ≤ op) && decide (op ≤ 0x1A))

/-- Operations that produce output data (R391). -/
def kderOutputs (op : Nat) : Bool := [0x02, 0x03, 0x04, 0x06, 0x07, 0x0A, 0x0B, 0x10, 0x11, 0x12, 0x15, 0x16].contains op

/-- Operations that write a key (R391). -/
def kderWrites (op : Nat) : Bool := [0x01, 0x08, 0x09, 0x0A, 0x12, 0x13, 0x18, 0x19].contains op

/-- FLAGS bits defined for an operation (R390). -/
def kderFlagMask (op : Nat) : Nat :=
  if op = 0x01 ∨ op = 0x0A ∨ op = 0x19 then 0x07
  else if kderWrites op then 0x03
  else if op = 0x02 ∨ op = 0x03 then 0x18
  else 0

/-- A field that an operation does not define holds 0 (R386). -/
def fieldUnused (used : Bool) (v : Nat) : Bool := used || decide (v = 0)

/-- Operations with input data (R391). -/
def kderInputs (op : Nat) : Bool :=
  (decide (1 ≤ op) && decide (op ≤ 7)) || [0x09, 0x0B, 0x0C, 0x11, 0x12, 0x13, 0x15, 0x18, 0x19].contains op

/-- Operations that use ARG. -/
def kderArgs (op : Nat) : Bool :=
  (decide (8 ≤ op) && decide (op ≤ 0x0C)) || [0x12, 0x13, 0x14, 0x19, 0x1A].contains op

/-- Operations that use IV. -/
def kderIvs (d : Octets) : Bool :=
  let op := descOp d
  decide (op = 5) || decide (op = 0x0C) || ((decide (op = 2) || decide (op = 3)) && decide (kderMode d ≠ 0))

/-- The checks of R388 on a KDER descriptor. -/
def kderForm (d : Octets) : Bool :=
  let op := descOp d
  kderDefined op && decide (descFlags d &&& (255 - kderFlagMask op) = 0) && descCommon d (kderOutputs op) &&
  fieldUnused (decide (1 ≤ op ∧ op ≤ 7)) (kderKey d) && fieldUnused (kderArgs op) (kderArg d) &&
  fieldUnused (kderWrites op) (kderUse d) && fieldUnused (kderInputs op) (kderIn d) &&
  fieldUnused (kderInputs op) (kderLen d) && descZero d 42 6 &&
  fieldUnused (kderIvs d) (leNat (kderIv d))

/-- The input lengths that R391 gives. -/
def kderLenOk (d : Octets) : Bool :=
  let n := kderLen d
  match descOp d with
  | 0x01 => decide (n = 48)
  | 0x02 => decide (1 ≤ n) && decide (n ≤ 2048) && (decide (2 ≤ kderMode d) || decide (n % 16 = 0))
  | 0x03 => decide (1 ≤ n) && decide (n ≤ 2048) && (decide (2 ≤ kderMode d) || decide (n % 16 = 0))
  | 0x04 => decide (n ≤ 2048)
  | 0x05 => decide (n ≤ 2048)
  | 0x06 => decide (16 ≤ n) && decide (n ≤ 2040) && decide (n % 8 = 0)
  | 0x07 => decide (24 ≤ n) && decide (n ≤ 2048) && decide (n % 8 = 0)
  | 0x09 => decide (n = 24) || decide (n = 40)
  | 0x0B => decide (1 ≤ n) && decide (n ≤ 2048)
  | 0x0C => decide (1 ≤ n) && decide (n ≤ 2048)
  | 0x11 => decide (n = 1741)
  | 0x12 => decide (n = 1741)
  | 0x13 => decide (n = 32)
  | 0x15 => decide (n = 16)
  | 0x18 => decide (n = 1616)
  | 0x19 => decide (n = if kderShort d then 1625 else 1641)
  | _ => decide (n = 0)

/-! ### Acceptance (R238, R261, R272, R607) -/

/-- The owner word of a page that is in force: the old one while a page's operation runs on (R262). -/
def State.pageOwner (s : State) (k : Nat) : Word :=
  match Tbl.get 0 s.keys.oldOwner k with
  | 0 => s.reg .SPR_PGOWN k
  | w => w

/-- The enabled page of a colour (R261). -/
def State.pageOf (s : State) (colour : Nat) : Option Nat :=
  (List.range 16).find? (fun k => decide (0 < k) && (SPR_PGOWN.EN.of (s.pageOwner k)) != 0 &&
    decide (SPR_PGOWN.OWNER.of (s.pageOwner k) = colour))

/-- The mode permits an operation (R238, R607). -/
def kderModeOk (m : Nat) (d : Octets) : Bool :=
  let op := descOp d
  if m ≤ 1 then false
  else if m = 10 ∨ m = 11 then decide (op = 0x16)
  else if op = 0x18 then decide (m = 3) || decide (m = 4)
  else if op = 0x19 ∨ op = 0x1A then decide (3 ≤ m) && decide (m ≤ 6)
  else if m = 8 ∧ (op = 0x01 ∨ op = 0x09 ∨ op = 0x0A) then decide (2 ≤ handleClass (descObject d))
  else true

/-- Derivations and imports counted by their status (R281). -/
def State.kderCounted (s : State) (op status : Nat) : State :=
  if op = 0x01 then s.count (if status = 0 then Ctrs.DERIVES else Ctrs.DERIVE_FAIL)
  else if op = 0x18 ∨ op = 0x19 then s.count (if status = 0 then Ctrs.IMPORTS else Ctrs.IMPORT_FAIL)
  else if op = 0x15 ∧ status = 0 then s.count Ctrs.ATTESTS
  else s

/-- What a KDER meets when it is accepted: R388 first, then 12, 7 and 8 in turn (R272); an operation that passes waits
on its page (R261). -/
def kderAccept (o : EngineOp) (s : State) : EngineOp × State :=
  let op := descOp o.desc
  let no := fun (st : Nat) => (o.fail st, s.kderCounted op st)
  if !kderForm o.desc then no 1
  else match s.pageOf o.colour with
    | none => no 12
    | some k =>
      if 0x18 ≤ op ∧ !s.present then no 7
      else if !kderModeOk s.mode o.desc then no 8
      else if !kderLenOk o.desc then no 1
      else ({ o with page := k }, s)

/-- A KDER of one operation issued by a thread (R390). -/
def State.kder (s : State) (op t tag rs : Nat) : Host.Outcome State Fault Refusal :=
  s.engineCall 0x50 t tag rs (fun d => decide (descOp d = op)) kderAccept

/-! ### Results and checks -/

/-- What an operation comes to: status, RESULT[55:24], output data. -/
structure KderRes where
  status : Nat
  result : Nat := 0
  out : Octets := []
  deriving DecidableEq, Repr

/-- The first code whose check fails; the list is in the order of R272. -/
def firstFail : List (Nat × Bool) → Option Nat
  | [] => none
  | (c, b) :: t => if b then some c else firstFail t

/-- An operation with its checks: the first that fails is its status and nothing is done. -/
def State.kderWith (s : State) (checks : List (Nat × Bool)) (act : KderRes × State) : KderRes × State :=
  match firstFail checks with
  | some c => ({ status := c }, s)
  | none => act

/-- A target slot is full, or both ways of its SC are (R243, R249). -/
def State.targetFull (s : State) (cls i : Nat) : Bool :=
  s.usable cls i || (decide (cls = 0) && decide (2 ≤ s.otherWays i))

/-- The checks of a key-store target, codes 14, 4, 3 in turn (R249, R256). -/
def State.targetChecks (s : State) (cls i : Nat) : List (Nat × Bool) :=
  [(14, s.sweepPends cls i), (4, s.slotInUse cls i), (3, s.targetFull cls i)]

/-- The attributes that a descriptor gives to a key it writes (R251). -/
def kderNew (d : Octets) (key : Octets) (parent epoch : Nat) (short : Bool) : NewKey :=
  { key := key, parent := parent, epoch := epoch, useEn := kderUseEn d, use := kderUse d, resetExp := kderResetExp d,
    short := short }

/-! ### DERIVE (R248 to R250) -/

/-- The table of R248 permits a purpose for a target and a parent; the handles' classes and indices. -/
def purposeOk (purpose tc ti pc pi : Nat) : Bool :=
  if purpose = 1 then decide (tc = 1) && decide (pc = 2)
  else if purpose = 2 then decide (tc = 0) && decide (pc = 2)
  else if purpose = 0x40 then decide (tc = 3) && decide (0x200000 ≤ ti) && (decide (pc = 2) || (decide (pc = 3) && decide (pi = 2)))
  else false

/-- A parent or key that an operation names is missing, orphaned or has fewer than `n` uses left (R252, R255). -/
def State.keyMissing (s : State) (h n : Nat) : Bool :=
  !s.handleNames h || !s.usable (handleClass h) (handleIndex h) || (s.kslot (handleClass h) (handleIndex h)).spent n

/-- DERIVE. -/
def State.actDerive (s : State) (d label : Octets) : KderRes × State :=
  let tc := handleClass (descObject d)
  let ti := handleIndex (descObject d)
  let p := kderKey d
  s.kderWith ([(1, !slotIndexValid tc ti || !slotIndexValid (handleClass p) (handleIndex p)),
      (5, !purposeOk (beNat (slice label 0 4)) tc ti (handleClass p) (handleIndex p))] ++ s.targetChecks tc ti ++
      [(2, s.keyMissing p 1)])
    (let x := s.kslot (handleClass p) (handleIndex p)
     let key := kdf x.key label (if kderShort d then 128 else 256)
     let s1 := s.writeKey tc ti (kderNew d key p (beNat (slice label 16 4)) (kderShort d))
     let s2 := s1.takeUse (handleClass p) (handleIndex p) 1
     ({ status := 0, result := s2.handle tc ti }, s2))

/-! ### Ciphers, CMAC and wraps with general-purpose keys (R252, R263) -/

/-- A handle of a general-purpose key. -/
def isGeneral (h : Nat) : Bool := decide (handleClass h = 3) && decide (0x200000 ≤ handleIndex h)

/-- AES blocks of an operation under its key (R252). -/
def kderBlocks (d : Octets) : Nat :=
  let n := kderLen d
  match descOp d with
  | 0x04 => 1 + max 1 ((n + 15) / 16)
  | 0x05 => 1 + max 1 ((n + 15) / 16)
  | 0x06 => 6 * (n / 8)
  | 0x07 => 6 * (n / 8 - 1)
  | _ => (n + 15) / 16

/-- ENC and DEC in the mode of the descriptor. -/
def cipherData (decrypt : Bool) (mode : Nat) (key iv data : Octets) : Octets :=
  let ks := Crypto.keySchedule (Crypto.toN key)
  let l := Crypto.blocks (Crypto.toN data)
  let v := Crypto.toN iv
  Crypto.ofN (match mode, decrypt with
    | 0, false => Crypto.ecb (Crypto.encBlockKs ks) l
    | 0, true => Crypto.ecb (Crypto.decBlockKs ks) l
    | 1, false => Crypto.cbcEnc ks v l
    | 1, true => Crypto.cbcDec ks v l
    | 2, false => Crypto.cfbEnc ks v l
    | 2, true => Crypto.cfbDec ks v l
    | _, _ => Crypto.ctr128 ks (Crypto.be v) l)

/-- The six operations with a general-purpose key: output, or none where a check on the data fails (code 6). -/
def generalData (d key data : Octets) : Option Octets :=
  match descOp d with
  | 0x02 => some (cipherData false (kderMode d) key (kderIv d) data)
  | 0x03 => some (cipherData true (kderMode d) key (kderIv d) data)
  | 0x04 => some (Crypto.cmac key data)
  | 0x05 => if Crypto.cmac key data = kderIv d then some [] else none
  | 0x06 => some (Crypto.keyWrap key data)
  | _ => Crypto.keyUnwrap key data

/-- An operation with a general-purpose key. -/
def State.actGeneral (s : State) (d data : Octets) : KderRes × State :=
  let h := kderKey d
  let n := kderBlocks d
  let r := generalData d (s.kslot 3 (handleIndex h)).octets data
  s.kderWith [(1, decide (descObject d ≠ 0) || !slotIndexValid (handleClass h) (handleIndex h)), (5, !isGeneral h),
      (2, s.keyMissing h n)]
    (let s1 := s.takeUse 3 (handleIndex h) n
     match r with
     | some o => ({ status := 0, out := o }, s1)
     | none => ({ status := 6 }, s1))

/-! ### MKA (R214 to R216) -/

/-- Key-store indices of a CAK and its KEK and ICK (R242). -/
def cakIndex (c : Nat) : Nat := 0x80000 + c
def kekIndex (c : Nat) : Nat := 0x100000 + 2 * c
def ickIndex (c : Nat) : Nat := 0x100000 + 2 * c + 1

/-- The CAK record of a slot. -/
def State.cakRec (s : State) (c : Nat) : Option CakRec := Tbl.get none s.cistern.caks c

/-- The CAK record of a slot is uncorrectable, and so unusable (R278). -/
def State.cakBad (s : State) (c : Nat) : Bool := (s.cakRec c).any (fun r => r.bad)

/-- MKA_DERIVE: KEK and ICK of the CAK's length; one derivation from the CAK. The CKN stands in the CAK record: with a
record that is unusable the CAK is as missing (DESIGN CHOICE: R278 names no status). -/
def State.actMkaDerive (s : State) (d : Octets) : KderRes × State :=
  let c := kderArg d
  let x := s.kslot 3 (cakIndex c)
  let ckn := match s.cakRec c with
    | some r => slice (r.ckn.take r.cknLen) 0 16
    | none => List.replicate 16 0
  let n := if x.short then 16 else 32
  s.kderWith ([(1, decide (descObject d ≠ 0) || decide (256 ≤ c))] ++
      [(14, s.sweepPends 3 (kekIndex c) || s.sweepPends 3 (ickIndex c)),
       (3, s.usable 3 (kekIndex c) || s.usable 3 (ickIndex c)),
       (2, !s.usable 3 (cakIndex c) || x.spent 1 || s.cakBad c)])
    (let h := s.handle 3 (cakIndex c)
     let s1 := s.writeKey 3 (kekIndex c) (kderNew d (mkaKdf x.octets labelKek ckn n) h 0 x.short)
     let s2 := s1.writeKey 3 (ickIndex c) (kderNew d (mkaKdf x.octets labelIck ckn n) h 0 x.short)
     let s3 := s2.takeUse 3 (cakIndex c) 1
     ({ status := 0, result := s3.handle 3 (kekIndex c) }, s3))

/-- The checks of SAK_UNWRAP and SAK_GEN but the last. -/
def State.sakChecks (s : State) (d : Octets) : List (Nat × Bool) :=
  let tc := handleClass (descObject d)
  let ti := handleIndex (descObject d)
  [(1, decide (256 ≤ kderArg d) || !slotIndexValid tc ti), (5, decide (tc ≠ 0))] ++ s.targetChecks tc ti ++
  [(2, !s.usable 3 (kekIndex (kderArg d)))]

/-- A SAK written into its SA slot: root-level, with the CAK slot it came under (R245, R257). -/
def State.writeSak (s : State) (d sak : Octets) (short : Bool) : KderRes × State :=
  let ti := handleIndex (descObject d)
  let k := kderNew d sak rootParent 0 short
  let s1 := s.writeKey 0 ti { k with cak := some (kderArg d) }
  ({ status := 0, result := s1.handle 0 ti }, s1)

/-- SAK_UNWRAP. -/
def State.actSakUnwrap (s : State) (d w : Octets) : KderRes × State :=
  s.kderWith (s.sakChecks d)
    (match Crypto.keyUnwrap (s.kslot 3 (kekIndex (kderArg d))).octets w with
     | some sak => s.writeSak d sak (decide (w.length = 24))
     | none => ({ status := 6 }, s))

/-- SAK_GEN: the SAK is free. -/
def State.actSakGen (s : State) (d : Octets) : KderRes × State :=
  s.kderWith (s.sakChecks d)
    (let (sak, s1) := s.drawOctets (if kderShort d then 16 else 32)
     let w := Crypto.keyWrap (s.kslot 3 (kekIndex (kderArg d))).octets sak
     let (r, s2) := s1.writeSak d sak (kderShort d)
     ({ r with out := w }, s2))

/-- ICV_GEN and ICV_CHK. -/
def State.actIcv (s : State) (d data : Octets) (chk : Bool) : KderRes × State :=
  let c := kderArg d
  let v := Crypto.cmac (s.kslot 3 (ickIndex c)).octets data
  s.kderWith [(1, decide (descObject d ≠ 0) || decide (256 ≤ c)), (2, !s.usable 3 (ickIndex c)),
      (6, chk && decide (v ≠ kderIv d))] ({ status := 0, out := if chk then [] else v }, s)

/-! ### The Unrex handshake (R265 to R270) -/

/-- Sessions open (R280). -/
def State.sessOpen (s : State) : Nat := s.keys.sessions.length

/-- A session. -/
def State.session (s : State) (n : Nat) : Option Session := Tbl.get none s.keys.sessions n

/-- A session set; SESS_OPEN follows. -/
def State.setSession (s : State) (n : Nat) (x : Option Session) : State :=
  let t := Tbl.set none s.keys.sessions n x
  ({ s with keys := { s.keys with sessions := t } }).wr PKE_STAT.SESS_OPEN t.length

/-- A session closed without a root (R281). -/
def State.closeSession (s : State) (n : Nat) : State :=
  match s.session n with
  | some _ => (s.setSession n none).count Ctrs.HS_FAIL
  | none => s

/-- A session has been open for more than 3.0 × 10^9 Ticks (R269). -/
def Session.timedOut (x : Session) (now : Word) : Bool := decide (3000000000 < (now - x.opened).toNat)

/-- Sessions past their time closed (R269). -/
def State.expireSessions (s : State) : State :=
  (List.range 64).foldl (fun a n => match a.session n with
    | some x => if x.timedOut a.tick then a.closeSession n else a
    | none => a) s

/-- The lowest free session number (DESIGN CHOICE of the numbering). -/
def State.freeSession (s : State) : Option Nat := (List.range 64).find? (fun n => decide (s.session n = none))

/-- DOMAIN_ID of the domain record. -/
def State.domainId (s : State) : Octets :=
  match s.cistern.domain with
  | some r => slice r.domainId 0 8
  | none => List.replicate 8 0

/-- A domain secret is installed and readable (R278). -/
def State.dsValid (s : State) : Bool := s.is KST_CISTAT.DS_VALID

/-- An Unrex header (R265). -/
def unrexHeader (typ len session : Nat) (domain : Octets) : Octets :=
  [1#8, BitVec.ofNat 8 typ] ++ beBytes 2 len ++ beBytes 4 session ++ domain

/-- A received INIT or RESP breaks R270. -/
def State.unrexBad (s : State) (typ : Nat) (m : Octets) : Bool :=
  decide (beNat (slice m 0 1) ≠ 1) || decide (beNat (slice m 1 1) ≠ typ) || decide (beNat (slice m 2 2) ≠ 1741) ||
  decide (slice m 8 8 ≠ s.domainId) || decide (beNat (slice m 56 2) ≠ 1) || !Crypto.p384Valid (slice m 1628 97) ||
  (decide (typ = 1) && !Crypto.mlkemKeyOk (slice m 60 1568)) || decide (beNat (slice m 16 8) = s.deviceId)

/-- Link root and confirmation key (R267). -/
def unrexRoot (ze zk : Octets) (iId session : Nat) (tagR : Octets) : Octets × Octets :=
  let ke := kdf (slice ze 0 32) (contextLabel 0x22 iId session 0 (slice ze 32 16)) 256
  let root := kdf (xorOctets (slice zk 0 32) ke) (contextLabel 0x23 iId session 0 tagR) 256
  (root, kdf root (contextLabel 0x24 iId session 0 []) 256)

/-- The Unrex authentication key. -/
def State.unrexAuth (s : State) : Octets := (s.kslot 3 4).octets

/-- Octets 16 to 1,724 of an INIT or RESP (R266). -/
def unrexBody (ident : Nat) (nonce kem q : Octets) : Octets :=
  beBytes 8 ident ++ nonce ++ [0#8, 1#8, 0#8, 0#8] ++ slice kem 0 1568 ++ slice q 0 97

/-- UNREX_INIT. -/
def State.actInit (s : State) (d : Octets) : KderRes × State :=
  let h := descObject d
  let l := handleIndex h
  s.kderWith ([(1, !slotIndexValid (handleClass h) l), (5, decide (handleClass h ≠ 2)), (9, !s.dsValid),
      (10, s.freeSession.isNone)] ++ s.targetChecks 2 l ++ [(2, !s.usable 3 4)])
    (let (nonce, s1) := s.drawOctets 32
     let (seed, s2) := s1.drawOctets 64
     let (scalar, s3) := s2.drawOctets 48
     let (sess, s4) := s3.drawOctets 4
     let (ek, dk) := Crypto.mlkemKeys seed
     let m := unrexHeader 1 1741 (beNat sess) s.domainId ++ unrexBody s.deviceId nonce ek (Crypto.p384Public scalar)
     let init := m ++ Crypto.cmac s.unrexAuth m
     let x : Session := { initiator := true, session := beNat sess, slot := l, iId := s.deviceId, dk := dk,
                          scalar := scalar, init := init, auth := s.handle 3 4, opened := s.tick }
     let n := s.freeSession.getD 0
     ({ status := 0, result := n, out := init }, s4.setSession n (some x)))

/-- UNREX_RESP. -/
def State.actResp (s : State) (d init : Octets) : KderRes × State :=
  let h := descObject d
  let l := handleIndex h
  let bad := s.unrexBad 1 init
  let tagBad := decide (Crypto.cmac s.unrexAuth (slice init 0 1725) ≠ slice init 1725 16)
  let (r, s1) := s.kderWith ([(1, !slotIndexValid (handleClass h) l), (5, decide (handleClass h ≠ 2)), (9, !s.dsValid),
      (10, s.freeSession.isNone), (11, bad)] ++ s.targetChecks 2 l ++ [(2, !s.usable 3 4), (6, tagBad)])
    (let (nonce, s1) := s.drawOctets 32
     let (seed, s2) := s1.drawOctets 32
     let (scalar, s3) := s2.drawOctets 48
     let sess := beNat (slice init 4 4)
     let iId := beNat (slice init 16 8)
     let (ct, zk) := Crypto.mlkemEncaps (slice init 60 1568) seed
     let ze := Crypto.p384Shared scalar (slice init 1628 97)
     let m := unrexHeader 2 1741 sess s.domainId ++ unrexBody s.deviceId nonce ct (Crypto.p384Public scalar)
     let tagR := Crypto.cmac s.unrexAuth (init ++ m)
     let (root, kconf) := unrexRoot ze zk iId sess tagR
     let x : Session := { initiator := false, session := sess, slot := l, peer := iId, iId := iId, init := init,
                          resp := m ++ tagR, root := root, kconf := kconf, auth := s.handle 3 4, opened := s.tick }
     let n := s.freeSession.getD 0
     ({ status := 0, result := n, out := m ++ tagR }, s3.setSession n (some x)))
  if r.status = 11 then (r, s1.mark PKE_STAT.MSG_BAD)
  else if r.status = 6 then (r, s1.mark PKE_STAT.AUTH_FAIL)
  else (r, s1)

/-- A link root written at the end of a handshake, and its session closed (R268). -/
def State.writeRoot (s : State) (d : Octets) (n : Nat) (x : Session) (root : Octets) (peer : Nat) (out : Octets) :
    KderRes × State :=
  let k := kderNew d root (s.handle 3 4) 0 false
  let s1 := s.writeKey 2 x.slot { k with peer := peer }
  let s2 := (s1.setSession n none).count Ctrs.HS_OK
  ({ status := 0, result := s2.handle 2 x.slot, out := out }, s2)

/-- What a failed step of a handshake does to its session: codes 11 and 6 close it (R268, R270). -/
def State.failSession (s : State) (n : Nat) (r : KderRes) : State :=
  if r.status = 11 then (s.closeSession n).mark PKE_STAT.MSG_BAD
  else if r.status = 6 then (s.closeSession n).mark PKE_STAT.AUTH_FAIL
  else s

/-- UNREX_FINISH. -/
def State.actFinish (s : State) (d resp : Octets) : KderRes × State :=
  let n := kderArg d
  match s.session n with
  | none => s.kderWith [(1, decide (descObject d ≠ 0)), (9, !s.dsValid)] ({ status := 10 }, s)
  | some x =>
    let bad := s.unrexBad 2 resp || decide (beNat (slice resp 4 4) ≠ x.session)
    let tagR := slice resp 1725 16
    let tagBad := decide (Crypto.cmac s.unrexAuth (x.init ++ slice resp 0 1725) ≠ tagR)
    let (r, s1) := s.kderWith ([(1, decide (descObject d ≠ 0)), (9, !s.dsValid), (10, !x.initiator), (11, bad)] ++
        s.targetChecks 2 x.slot ++ [(2, !s.usable 3 4 || decide (s.handle 3 4 ≠ x.auth)), (6, tagBad)])
      (let zk := Crypto.mlkemDecaps x.dk (slice resp 60 1568)
       let ze := Crypto.p384Shared x.scalar (slice resp 1628 97)
       let (root, kconf) := unrexRoot ze zk x.iId x.session tagR
       let m := unrexHeader 3 32 x.session s.domainId
       s.writeRoot d n x root (beNat (slice resp 16 8)) (m ++ Crypto.cmac kconf (x.init ++ resp ++ m)))
    (r, s1.failSession n r)

/-- UNREX_CONFIRM. -/
def State.actConfirm (s : State) (d conf : Octets) : KderRes × State :=
  let n := kderArg d
  match s.session n with
  | none => s.kderWith [(1, decide (descObject d ≠ 0)), (9, !s.dsValid)] ({ status := 10 }, s)
  | some x =>
    let tagBad := decide (Crypto.cmac x.kconf (x.init ++ x.resp ++ slice conf 0 16) ≠ slice conf 16 16)
    let (r, s1) := s.kderWith ([(1, decide (descObject d ≠ 0)), (9, !s.dsValid), (10, x.initiator)] ++
        s.targetChecks 2 x.slot ++ [(2, !s.usable 3 4 || decide (s.handle 3 4 ≠ x.auth)), (6, tagBad)])
      (s.writeRoot d n x x.root x.peer [])
    (r, s1.failSession n r)

/-- CANCEL. -/
def State.actCancel (s : State) (d : Octets) : KderRes × State :=
  s.kderWith [(1, decide (descObject d ≠ 0)), (10, (s.session (kderArg d)).isNone)]
    ({ status := 0 }, s.closeSession (kderArg d))

/-! ### Attestation and the commissioning key (R237, R271) -/

/-- A source has EN = 1 and RESP = 3 (R598). -/
def State.wipeArmed (s : State) : Bool :=
  (List.range 16).any (fun k => s.is LEV_SRCCFG.EN k && decide (s.rd LEV_SRCCFG.RESP k = 3))

/-- The 16,384 octets of tamper records 0 to 1,023. -/
def State.tamperOctets (s : State) : Octets :=
  ((List.range 1024).map (fun n => slice (Tbl.get [] s.cistern.tamper n) 0 16)).flatten

/-- GBL_IDENT with the fuse-held GRADE (R4). -/
def State.ident (s : State) : Nat := setBits (s.reg .GBL_IDENT).toNat 7 4 Config.grade.toNat

/-- Octets 0 to 79 of an attestation record (R271). -/
def State.attestBody (s : State) (nonce : Octets) : Octets :=
  let flags := b2n s.present + 2 * b2n (s.rd LEV_STICKY.FLAG != 0) + 4 * b2n s.wipeArmed
  [1#8, BitVec.ofNat 8 s.chip.lcs, BitVec.ofNat 8 s.mode, BitVec.ofNat 8 flags] ++ beBytes 8 s.deviceId ++ s.domainId ++
  nonce ++ leBytes 8 (s.reg .TID_SODIGLO).toNat ++ leBytes 8 (s.reg .TID_SODIGHI).toNat ++
  (Crypto.sha3 s.tamperOctets).take 16 ++ leBytes 4 (min s.cistern.tamperCount (2 ^ 32 - 1)) ++ leBytes 4 s.ident ++ leBytes 4 0

/-- ATTEST. -/
def State.actAttest (s : State) (d nonce : Octets) : KderRes × State :=
  s.kderWith [(1, decide (descObject d ≠ 0)), (9, !s.dsValid), (2, !s.usable 3 3)]
    (let b := s.attestBody nonce
     ({ status := 0, out := b ++ Crypto.cmac (s.kslot 3 3).octets b }, s))

/-- CEK_READ. -/
def State.actCekRead (s : State) (d : Octets) : KderRes × State :=
  s.kderWith [(1, decide (descObject d ≠ 0))]
    ({ status := 0, out := slice (Crypto.mlkemKeys s.keys.cekSeed).1 0 1568 }, s)

/-! ### Imports (R238 to R240, R257) -/

/-- K_t of R239. -/
def State.transportKey (s : State) (ct : Octets) (object : Nat) : Octets :=
  kdf (slice (Crypto.mlkemDecaps (Crypto.mlkemKeys s.keys.cekSeed).2 ct) 0 32)
    (contextLabel 0x31 s.deviceId object (s.monotonic 1 % 2 ^ 32) []) 256

/-- CAKs installed (R278). -/
def State.setCaks (s : State) (t : Tbl (Option CakRec)) : State :=
  ({ s with cistern := { s.cistern with caks := t } }).wr KST_CISTAT.CAKS t.length

/-- A Cistern record found uncorrectable (R278): 0 the domain record, 1 + c CAK record c. A domain secret that becomes
unreadable takes the device from M4 to M3 (R609). -/
def State.cisternBad (s : State) (n : Nat) : State :=
  let c := s.cistern
  let c1 : Cistern := if n = 0 then { c with domain := c.domain.map (fun (r : DomainRec) => { r with bad := true }) }
    else match Tbl.get none c.caks (n - 1) with
      | some r => { c with caks := Tbl.set none c.caks (n - 1) (some { r with bad := true }) }
      | none => c
  let s1 := (State.mark { s with cistern := c1 } KST_CISTAT.CIS_ERR).report 0x64 (if n = 0 then 0 else 0x400 + 128 * (n - 1))
  if n ≠ 0 then s1
  else
    let s2 := s1.unmark KST_CISTAT.DS_VALID
    if s.mode = 4 then s2.enterMode 3 else s2

/-- Attestation key and Unrex authentication key derived from the domain secret (R240), with RESET_EXP = 0. The label of
the first takes DEVICE_ID as its peer identity (R271); that of the second, which all parts of a domain share (R247), takes
0 (DESIGN CHOICE). -/
def State.deriveDomain (s : State) : State :=
  [(0x20, 3, s.deviceId), (0x21, 4, 0)].foldl (fun a pi =>
    let x := a.kslot 3 2
    if x.spent 1 then a
    else (a.writeKey 3 pi.2.1 { key := kdf x.octets (contextLabel pi.1 pi.2.2 0 0 []) 256, parent := a.handle 3 2 }).takeUse
      3 2 1) s

/-- DS_IMPORT. -/
def State.actDsImport (s : State) (d data : Octets) : KderRes × State :=
  let w := slice data 1576 40
  s.kderWith [(1, decide (descObject d ≠ 0)), (14, s.sweepPends 3 2 || s.sweepPends 3 3 || s.sweepPends 3 4),
      (2, !s.usable 3 0)]
    (match Crypto.keyUnwrap (s.transportKey (slice data 0 1568) 0) w with
     | none => ({ status := 6 }, s)
     | some secret =>
       let s1 := if s.usable 3 2 then (s.endKey 3 2 false).sweepAll.cancelSwitches else s
       let rec1 : DomainRec := { domainId := slice data 1568 8, wrapped := Crypto.keyWrap (s.kslot 3 0).octets secret }
       let s2 := ({ s1 with cistern := { s1.cistern with domain := some rec1 } }).mark KST_CISTAT.DS_VALID
       let s3 := ((s2.writeKey 3 2 (kderNew d secret rootParent 0 false)).deriveDomain).bumpMonotonic 1
       ({ status := 0, result := s3.handle 3 2 }, if s3.mode = 3 then s3.enterMode 4 else s3))

/-- CAK_IMPORT: ARG is the CAK slot; the input is CT, the CKN and W (R391). -/
def State.actCakImport (s : State) (d data : Octets) : KderRes × State :=
  let c := kderArg d
  let i := cakIndex c
  let n := beNat (slice data 1568 1)
  let w := slice data 1601 (if kderShort d then 24 else 40)
  s.kderWith [(1, decide (descObject d ≠ 0) || decide (256 ≤ c) || decide (n = 0) || decide (32 < n)),
      (14, s.sweepPends 3 i), (3, (match s.cakRec c with | some r => !r.bad | none => false) || s.usable 3 i),
      (2, !s.usable 3 0)]
    (match Crypto.keyUnwrap (s.transportKey (slice data 0 1568) (0x100 + c)) w with
     | none => ({ status := 6 }, s)
     | some cak =>
       let r : CakRec := { short := kderShort d, cknLen := n, ckn := slice data 1569 32,
                           wrapped := Crypto.keyWrap (s.kslot 3 0).octets cak }
       let s1 := s.setCaks (Tbl.set none s.cistern.caks c (some r))
       let s2 := (s1.writeKey 3 i (kderNew d cak rootParent 0 (kderShort d))).bumpMonotonic 1
       ({ status := 0, result := s2.handle 3 i }, s2))

/-- CAK_REMOVE (R257): an empty slot gives status 1 (DESIGN CHOICE: the rule names no status). -/
def State.actCakRemove (s : State) (d : Octets) : KderRes × State :=
  let c := kderArg d
  s.kderWith [(1, decide (descObject d ≠ 0) || decide (256 ≤ c) || (s.cakRec c).isNone)]
    (let s1 := s.setCaks (Tbl.set none s.cistern.caks c none)
     let saks := s1.keys.slots.filter (fun e => decide (e.1 / 2 ^ 24 = 0) && e.2.valid && decide (e.2.cak = some c))
     let s2 := saks.foldl (fun a e => a.endKey 0 (e.1 % 2 ^ 24) true) s1
     let s3 := [cakIndex c, kekIndex c, ickIndex c].foldl (fun a i =>
       if (a.kslot 3 i).valid then a.endKey 3 i true else a) s2
     ({ status := 0 }, s3.sweepAll.cancelSwitches))

/-! ### Dispatch and completion (R261 to R263) -/

/-- What an operation does, with the input it has read. -/
def State.kderAct (s : State) (d data : Octets) : KderRes × State :=
  match descOp d with
  | 0x01 => s.actDerive d data
  | 0x08 => s.actMkaDerive d
  | 0x09 => s.actSakUnwrap d data
  | 0x0A => s.actSakGen d
  | 0x0B => s.actIcv d data false
  | 0x0C => s.actIcv d data true
  | 0x10 => s.actInit d
  | 0x11 => s.actResp d data
  | 0x12 => s.actFinish d data
  | 0x13 => s.actConfirm d data
  | 0x14 => s.actCancel d
  | 0x15 => s.actAttest d data
  | 0x16 => s.actCekRead d
  | 0x18 => s.actDsImport d data
  | 0x19 => s.actCakImport d data
  | 0x1A => s.actCakRemove d
  | _ => s.actGeneral d data

/-- What a page holds once its operation has run (R261): the descriptor, input, output and status. -/
def State.pageKeeps (s : State) (o : EngineOp) (input : Octets) : State :=
  let p : SpringPage := { input := input.take 2048, output := o.out.take 2048, desc := o.desc, status := o.status }
  { s with keys := { s.keys with pages := Tbl.set {} s.keys.pages o.page p } }

/-- An operation carried out: its input is read (AREA 1 with STATUS 1 where it cannot be), then it acts (R388, R390). -/
def State.kderRun (s : State) (o : EngineOp) : EngineOp × State :=
  let op := descOp o.desc
  let (inp, s1) := if kderInputs op ∧ kderLen o.desc ≠ 0 then s.areaRead o.requester (kderIn o.desc) (kderLen o.desc)
    else (MemRes.data [], s)
  match inp with
  | .data i =>
    let (r, s2) := (if 0x10 ≤ op then s1.expireSessions else s1).kderAct o.desc i
    let o1 : EngineOp := { o with acted := true, status := r.status, result := r.result,
                                  out := if r.status = 0 then r.out else [] }
    (o1, (s2.kderCounted op r.status).pageKeeps o1 i)
  | _ =>
    let o1 : EngineOp := { o with acted := true, status := 1, area := 1 }
    (o1, (s1.kderCounted op 1).pageKeeps o1 [])

/-- An operation of Spring's own engine, not of the PKE. -/
def springOwn (d : Octets) : Bool := decide (descOp d < 0x10)

/-- Keys, CAKs, sessions and the domain secret that a KDER operation writes, and those it reads (R391): kind and number. -/
def springWrites (d : Octets) : List (Nat × Nat) :=
  let h := descObject d
  let op := descOp d
  (if op = 0x01 ∨ op = 0x09 ∨ op = 0x0A ∨ op = 0x10 ∨ op = 0x11 then [(handleClass h, handleIndex h)] else []) ++
  (if op = 0x08 ∨ op = 0x19 ∨ op = 0x1A then [(8, kderArg d)] else []) ++
  (if 0x12 ≤ op ∧ op ≤ 0x14 then [(9, kderArg d)] else []) ++ (if op = 0x18 then [(10, 0)] else [])
def springReads (d : Octets) : List (Nat × Nat) :=
  let h := kderKey d
  let op := descOp d
  (if 0x01 ≤ op ∧ op ≤ 0x07 then [(handleClass h, handleIndex h)] else []) ++
  (if 0x09 ≤ op ∧ op ≤ 0x0C then [(8, kderArg d)] else []) ++ (if op = 0x10 ∨ op = 0x11 then [(10, 0)] else [])

/-- Two KDER operations concern one object, which one of them writes (R24, R249). -/
def springConflict (a b : EngineOp) : Bool :=
  decide (a.engine = 1) && decide (b.engine = 1) &&
  ((springWrites a.desc).any (fun x => (springWrites b.desc ++ springReads b.desc).contains x) ||
   (springReads a.desc).any (fun x => (springWrites b.desc).contains x))

/-- The operations on a page, oldest first. -/
def State.pageOps (s : State) (k : Nat) : List EngineOp :=
  s.tide.ops.filter (fun o => decide (o.page = k) && decide (0 < k))

/-- The operation that runs on a page. -/
def State.pageRuns (s : State) (k : Nat) : Option EngineOp := (s.pageOps k).find? (·.running)

/-- Spring is at work. -/
def State.springBusy (s : State) : Bool := s.tide.ops.any (fun o => o.running && springOwn o.desc)

/-- The operation that a page can start: its oldest, while none of the page runs, its engine is free, and no operation on
its object that arrived before it is still to complete (R24). -/
def State.pageNext (s : State) (k : Nat) : Option EngineOp :=
  if (s.pageRuns k).isSome then none
  else match s.pageOps k with
    | o :: _ =>
      if (springOwn o.desc ∧ s.springBusy) ∨ (s.tide.ops.takeWhile (fun x => decide (x ≠ o))).any (springConflict o) then none
      else some o
    | [] => none

/-- SPRING_PAGE_DISPATCH (R263): the next page in turn that has an operation to start. -/
def execSpringPageDispatch (s : State) : Host.Outcome State Fault Refusal :=
  match ((List.range 16).map (fun j => (s.keys.lastPage + 1 + j) % 16)).find? (fun k => (s.pageNext k).isSome) with
  | none => .next s
  | some k =>
    match s.pageNext k with
    | none => .next s
    | some o =>
      let ops := s.tide.ops.map (fun x => if x = o then { x with running := true } else x)
      .next { s with tide := { s.tide with ops := ops }, keys := { s.keys with lastPage := k } }

/-! ### The commands of KDER (R391) -/

/-- KDER_DERIVE (R249). -/
def execKderDerive (t : ThreadNo) (tag : BitVec 8) (rs : GReg) (s : State) : Host.Outcome State Fault Refusal :=
  s.kder 0x01 t tag.toNat rs
/-- KDER_ENC (R263). -/
def execKderEnc (t : ThreadNo) (tag : BitVec 8) (rs : GReg) (s : State) : Host.Outcome State Fault Refusal :=
  s.kder 0x02 t tag.toNat rs
/-- KDER_DEC (R263). -/
def execKderDec (t : ThreadNo) (tag : BitVec 8) (rs : GReg) (s : State) : Host.Outcome State Fault Refusal :=
  s.kder 0x03 t tag.toNat rs
/-- CMAC_GEN (R263). -/
def execCmacGen (t : ThreadNo) (tag : BitVec 8) (rs : GReg) (s : State) : Host.Outcome State Fault Refusal :=
  s.kder 0x04 t tag.toNat rs
/-- CMAC_CHK (R263). -/
def execCmacChk (t : ThreadNo) (tag : BitVec 8) (rs : GReg) (s : State) : Host.Outcome State Fault Refusal :=
  s.kder 0x05 t tag.toNat rs
/-- KDER_WRAP (R263). -/
def execKderWrap (t : ThreadNo) (tag : BitVec 8) (rs : GReg) (s : State) : Host.Outcome State Fault Refusal :=
  s.kder 0x06 t tag.toNat rs
/-- KDER_UNWRAP (R263). -/
def execKderUnwrap (t : ThreadNo) (tag : BitVec 8) (rs : GReg) (s : State) : Host.Outcome State Fault Refusal :=
  s.kder 0x07 t tag.toNat rs
/-- MKA_DERIVE (R214). -/
def execMkaDerive (t : ThreadNo) (tag : BitVec 8) (rs : GReg) (s : State) : Host.Outcome State Fault Refusal :=
  s.kder 0x08 t tag.toNat rs
/-- SAK_UNWRAP (R216). -/
def execSakUnwrap (t : ThreadNo) (tag : BitVec 8) (rs : GReg) (s : State) : Host.Outcome State Fault Refusal :=
  s.kder 0x09 t tag.toNat rs
/-- SAK_GEN (R215). -/
def execSakGen (t : ThreadNo) (tag : BitVec 8) (rs : GReg) (s : State) : Host.Outcome State Fault Refusal :=
  s.kder 0x0A t tag.toNat rs
/-- ICV_GEN (R215). -/
def execIcvGen (t : ThreadNo) (tag : BitVec 8) (rs : GReg) (s : State) : Host.Outcome State Fault Refusal :=
  s.kder 0x0B t tag.toNat rs
/-- ICV_CHK (R216). -/
def execIcvChk (t : ThreadNo) (tag : BitVec 8) (rs : GReg) (s : State) : Host.Outcome State Fault Refusal :=
  s.kder 0x0C t tag.toNat rs
/-- UNREX_INIT (R268). -/
def execUnrexInit (t : ThreadNo) (tag : BitVec 8) (rs : GReg) (s : State) : Host.Outcome State Fault Refusal :=
  s.kder 0x10 t tag.toNat rs
/-- UNREX_RESP (R268). -/
def execUnrexResp (t : ThreadNo) (tag : BitVec 8) (rs : GReg) (s : State) : Host.Outcome State Fault Refusal :=
  s.kder 0x11 t tag.toNat rs
/-- UNREX_FINISH (R268). -/
def execUnrexFinish (t : ThreadNo) (tag : BitVec 8) (rs : GReg) (s : State) : Host.Outcome State Fault Refusal :=
  s.kder 0x12 t tag.toNat rs
/-- UNREX_CONFIRM (R268). -/
def execUnrexConfirm (t : ThreadNo) (tag : BitVec 8) (rs : GReg) (s : State) : Host.Outcome State Fault Refusal :=
  s.kder 0x13 t tag.toNat rs
/-- UNREX_CANCEL (R269). -/
def execUnrexCancel (t : ThreadNo) (tag : BitVec 8) (rs : GReg) (s : State) : Host.Outcome State Fault Refusal :=
  s.kder 0x14 t tag.toNat rs
/-- ATTEST (R271). -/
def execAttest (t : ThreadNo) (tag : BitVec 8) (rs : GReg) (s : State) : Host.Outcome State Fault Refusal :=
  s.kder 0x15 t tag.toNat rs
/-- CEK_READ (R237). -/
def execCekRead (t : ThreadNo) (tag : BitVec 8) (rs : GReg) (s : State) : Host.Outcome State Fault Refusal :=
  s.kder 0x16 t tag.toNat rs
/-- DS_IMPORT (R239). -/
def execDsImport (t : ThreadNo) (tag : BitVec 8) (rs : GReg) (s : State) : Host.Outcome State Fault Refusal :=
  s.kder 0x18 t tag.toNat rs
/-- CAK_IMPORT (R239). -/
def execCakImport (t : ThreadNo) (tag : BitVec 8) (rs : GReg) (s : State) : Host.Outcome State Fault Refusal :=
  s.kder 0x19 t tag.toNat rs
/-- CAK_REMOVE (R257). -/
def execCakRemove (t : ThreadNo) (tag : BitVec 8) (rs : GReg) (s : State) : Host.Outcome State Fault Refusal :=
  s.kder 0x1A t tag.toNat rs

/-- KDER_INVALID (R391): an undefined OP, or an input length outside its range. -/
def execKderInvalid (t : ThreadNo) (tag : BitVec 8) (rs : GReg) (s : State) : Host.Outcome State Fault Refusal :=
  s.engineCall 0x50 t tag.toNat rs (fun d => !kderDefined (descOp d) || !kderLenOk d) kderAccept

/-- UNREX_SESSION_EXPIRE (R269): the sessions open longer than 3.0 × 10^9 Ticks close. -/
def execUnrexSessionExpire (now : Word) (s : State) : Host.Outcome State Fault Refusal :=
  .next (s.timeTo now).expireSessions

end Sys2Proof.Machine
end

