-- ==== Sys2Proof/Machine/Keys.lean ====
section
/-! DEFINITION. The key store's host commands, its sweeps, and Spring's pages (R235, R256 to R262, R274 to R277). -/

namespace Sys2Proof.Machine

open Sys2Proof

/-! ### KST_CMD (R276) -/

/-- The handle in KST_DATA0, and its class and index. -/
def State.kstHandle (s : State) : Nat := (s.reg .KST_DATA 0).toNat % 2 ^ 32
def State.kstClass (s : State) : Nat := handleClass s.kstHandle
def State.kstIndex (s : State) : Nat := handleIndex s.kstHandle
/-- The counter number in KST_DATA0. -/
def State.kstCounter (s : State) : Nat := (s.reg .KST_DATA 0).toNat % 64

/-- A KST_CMD operation completes. -/
def State.kstDone (s : State) (status : Nat) : State := (s.wr KST_CMD.STATUS status).unmark KST_CMD.BUSY

/-- Attribute bits [63:0] of a slot (R245). -/
def KeySlot.attrLow (x : KeySlot) (cls i : Nat) : Nat :=
  x.parent * 2 ^ 32 + x.epoch * 2 ^ 16 + x.gen * 2 ^ 10 + (if cls = 0 then i % 4 else 0) * 2 ^ 8 + b2n x.valid * 2 ^ 7 +
  b2n x.resetExp * 2 ^ 6 + b2n x.useEn * 2 ^ 5 + b2n x.short * 2 ^ 4

/-- A mode in which only INFO and CTR_READ run (R607). -/
def State.kstReadOnly (s : State) : Bool := decide (s.mode = 10) || decide (s.mode = 11)

/-- A sweep starts; the KST_CMD operation ends with it (R256, R276). -/
def State.startSweep (s : State) : State :=
  ({ s with keys := { s.keys with kstWaits := true } }).mark KST_STAT.SWEEP

/-- INFO. -/
def State.kstInfo (s : State) : State :=
  let c := s.kstClass
  let i := s.kstIndex
  let x := s.kslot c i
  if !slotIndexValid c i then s.kstDone 1
  else (((s.setReg .KST_DATA (BitVec.ofNat 64 ((s.reg .KST_DATA 0).toNat / 2 ^ 32 * 2 ^ 32 + s.handle c i)) 0).setReg
    .KST_DATA (BitVec.ofNat 64 x.use) 1).setReg .KST_DATA (BitVec.ofNat 64 (x.attrLow c i)) 2).kstDone 0

/-- DESTROY (R257 to R259). -/
def State.kstDestroy (s : State) : State :=
  let c := s.kstClass
  let i := s.kstIndex
  match firstFail [(8, s.kstReadOnly || [1, 8, 9].contains s.mode), (1, !s.handleNames s.kstHandle),
      (14, s.sweepPends c i), (4, s.slotInUse c i)] with
  | some st => s.kstDone st
  | none => if c < 2 then (s.destroyKey c i).kstDone 0 else (s.destroyKey c i).startSweep

/-- ORPHAN (R256). -/
def State.kstOrphan (s : State) : State :=
  let c := s.kstClass
  let i := s.kstIndex
  match firstFail [(8, s.kstReadOnly), (1, !s.handleNames s.kstHandle), (5, decide (c < 2)), (14, s.sweepPends c i)] with
  | some st => s.kstDone st
  | none => (s.orphanKey c i).startSweep

/-- SETUSE. -/
def State.kstSetuse (s : State) : State :=
  let c := s.kstClass
  let i := s.kstIndex
  let x := s.kslot c i
  let v := (s.reg .KST_DATA 1).toNat
  match firstFail [(8, s.kstReadOnly), (1, !s.handleNames s.kstHandle || !x.valid), (14, s.sweepPends c i),
      (13, x.useEn && decide (x.use < v))] with
  | some st => s.kstDone st
  | none =>
    let s1 := s.setKslot c i { x with useEn := true, use := v }
    (if c = 0 then s1.exhaustCheck i else s1).kstDone 0

/-- CTR_READ. -/
def State.kstCtrRead (s : State) : State :=
  (s.setReg .KST_DATA (BitVec.ofNat 64 (s.monotonic s.kstCounter)) 1).kstDone 0

/-- CTR_INC (R235). -/
def State.kstCtrInc (s : State) : State :=
  match firstFail [(8, s.kstReadOnly), (5, decide (s.kstCounter < 8))] with
  | some st => s.kstDone st
  | none => (s.bumpMonotonic s.kstCounter).kstDone 0

/-- OP 6 and 7: status 8 where the mode permits none, else 1. -/
def State.kstInvalid (s : State) : State := s.kstDone (if s.kstReadOnly then 8 else 1)

/-- A write to KST_CMD with OP `op`: dropped while BUSY (R276); an operation that writes the key store or the Cistern
waits for the end of a supply dip (R260). -/
def State.kstWrite (s : State) (op : Nat) (held : Option HeldKst) (act : State → State) : State :=
  if s.is KST_CMD.BUSY then s.mark KST_STAT.CMD_DROP
  else
    let s1 := (s.wr KST_CMD.OP op).mark KST_CMD.BUSY
    if held.isSome ∧ s.is KST_STAT.DIP then { s1 with keys := { s1.keys with held := held } } else act s1

/-- The KST_CMD operation that a supply dip has held runs (R260). -/
def State.kstRelease (s : State) : State :=
  let s1 := { s with keys := { s.keys with held := none } }
  match s.keys.held with
  | none => s
  | some .destroy => s1.kstDestroy
  | some .orphan => s1.kstOrphan
  | some .setuse => s1.kstSetuse
  | some .ctrInc => s1.kstCtrInc

/-- KST_INFO. -/
def execKstInfo (s : State) : Host.Outcome State Fault Refusal := .next (s.kstWrite 0 none State.kstInfo)
/-- KST_DESTROY (R257). -/
def execKstDestroy (s : State) : Host.Outcome State Fault Refusal :=
  .next (s.kstWrite 1 (some .destroy) State.kstDestroy)
/-- KST_ORPHAN (R256). -/
def execKstOrphan (s : State) : Host.Outcome State Fault Refusal := .next (s.kstWrite 2 (some .orphan) State.kstOrphan)
/-- KST_SETUSE. -/
def execKstSetuse (s : State) : Host.Outcome State Fault Refusal := .next (s.kstWrite 3 (some .setuse) State.kstSetuse)
/-- KST_CTR_READ. -/
def execKstCtrRead (s : State) : Host.Outcome State Fault Refusal := .next (s.kstWrite 4 none State.kstCtrRead)
/-- KST_CTR_INC (R235). -/
def execKstCtrInc (s : State) : Host.Outcome State Fault Refusal := .next (s.kstWrite 5 (some .ctrInc) State.kstCtrInc)
/-- KST_CMD_INVALID: OP 6, or 7 where `seven`. -/
def execKstCmdInvalid (seven : Bool) (s : State) : Host.Outcome State Fault Refusal :=
  .next (s.kstWrite (if seven then 7 else 6) none State.kstInvalid)

/-- A write of a word to KST_CMD. -/
def State.kstCmdWrite (s : State) (v : Word) : State :=
  match KST_CMD.OP.of v with
  | 0 => s.kstWrite 0 none State.kstInfo
  | 1 => s.kstWrite 1 (some .destroy) State.kstDestroy
  | 2 => s.kstWrite 2 (some .orphan) State.kstOrphan
  | 3 => s.kstWrite 3 (some .setuse) State.kstSetuse
  | 4 => s.kstWrite 4 none State.kstCtrRead
  | 5 => s.kstWrite 5 (some .ctrInc) State.kstCtrInc
  | n => s.kstWrite n none State.kstInvalid

/-- ORPHAN_SWEEP_END (R256): every slot has been passed, SWEEP clears, and the KST_CMD operation completes. A supply dip
blocks the sweep's writes, and so its end (R260). -/
def execOrphanSweepEnd (s : State) : Host.Outcome State Fault Refusal :=
  if !s.is KST_STAT.SWEEP ∨ s.is KST_STAT.DIP then .next s
  else
    let s1 := s.sweepAll.cancelSwitches.unmark KST_STAT.SWEEP
    if s.keys.kstWaits then .next (State.kstDone { s1 with keys := { s1.keys with kstWaits := false } } 0)
    else .next s1

/-! ### Spring's pages (R261, R262, R274) -/

/-- A write to SPR_PGOWNk (R262, R274): page 0 is RO; a change waits for the operation that runs on the page. -/
def State.pgownWrite (s : State) (k : Nat) (v : Word) : State :=
  let owner := SPR_PGOWN.OWNER.of v
  let clash := SPR_PGOWN.EN.of v = 1 ∧ ((List.range 16).any (fun j => decide (0 < j) && decide (j ≠ k) &&
    s.is SPR_PGOWN.EN j && decide (s.rd SPR_PGOWN.OWNER j = owner))) = true
  if k = 0 then s
  else if clash ∨ (owner = 15 ∧ !s.factory) then s.mark SPR_STAT.REJECT
  else
    let s1 := if (s.pageRuns k).isSome ∧ Tbl.get 0 s.keys.oldOwner k = 0 then
      { s with keys := { s.keys with oldOwner := Tbl.set 0 s.keys.oldOwner k (s.reg .SPR_PGOWN k) } } else s
    s1.setReg .SPR_PGOWN v k

/-- SPR_PGOWN_WRITE (R274). -/
def execSprPgownWrite (k : PageNo) (v : Word) (s : State) : Host.Outcome State Fault Refusal :=
  guardRsvd .SPR_PGOWN v (.next (s.pgownWrite k v))

/-- SPR_PAGE_OWNER_TAKEOVER (R262): the page's operation has completed, and its new owner takes it. -/
def execSprPageOwnerTakeover (k : PageNo) (s : State) : Host.Outcome State Fault Refusal :=
  if (s.pageRuns k).isSome then .next s
  else .next { s with keys := { s.keys with oldOwner := Tbl.set 0 s.keys.oldOwner k 0 } }

/-- A part of a page: 0 the input buffer, 1 the output buffer, 2 the descriptor, 3 the status. -/
def SpringPage.part (p : SpringPage) (n : Nat) : Octets :=
  match n with
  | 0 => slice p.input 0 2048
  | 1 => slice p.output 0 2048
  | 2 => slice p.desc 0 64
  | _ => leBytes 8 p.status

/-- Eight octets of a part of a page written. -/
def SpringPage.put (p : SpringPage) (n o : Nat) (d : Octets) : SpringPage :=
  let new := fun (l : Octets) => l.take (8 * o) ++ slice d 0 8 ++ l.drop (8 * o + 8)
  match n with
  | 0 => { p with input := new (p.part 0) }
  | 1 => { p with output := new (p.part 1) }
  | 2 => { p with desc := new (p.part 2) }
  | _ => { p with status := leNat (slice d 0 8) }

/-- SPR_PAGE_FOREIGN_ACCESS (R262): a master touches eight octets of a page, number `o` of part `n` (0 input buffer, 1
output buffer, 2 descriptor, 3 status; the spec gives a page no addresses). A master of the owner colour reads or writes
them. One of another colour, and every master at page 0, reads zero or writes in vain; PAGE_VIOL is set, and source 14 of
the Levee has an event (R583). -/
def execSprPageForeignAccess (k : PageNo) (m : Master) (n : Fin 4) (o : Fin 256) (write : Option Word) (s : State) :
    Host.Outcome State Fault Refusal :=
  let c := (s.requester m).colour
  let p := Tbl.get {} s.keys.pages k.val
  if 0 < k.val ∧ SPR_PGOWN.OWNER.of (s.pageOwner k) = c then
    match write with
    | some v => .next { s with keys := { s.keys with
        pages := Tbl.set {} s.keys.pages k.val (if 8 * o.val < (p.part n.val).length then
          p.put n.val o.val (leBytes 8 v.toNat) else p) } }
    | none => .next (s.emit (.readReply m (some (slice (p.part n.val) (8 * o.val) 8))))
  else
    let s1 := (s.mark SPR_STAT.PAGE_VIOL).leveeEvent 14 (k.val + c * 16)
    .next (if write.isSome then s1 else s1.emit (.readReply m (some (List.replicate 8 0))))

end Sys2Proof.Machine
end

