-- ==== Sys2Proof/Machine/Levee.lean ====
section
/-! DEFINITION. The Levee: events, response points, Lockdown entry and wipes, the tamper log, the supply dip, and the
Levee's registers (chapter 17). -/

namespace Sys2Proof.Machine

open Sys2Proof

/-! ### The Watch -/

/-- Only the always-on domain is powered (R607, R595). -/
def State.backup (s : State) : Bool := decide (s.mode = 0)

/-- The Watch count and the Tick at its last edge, 0 for an edge without main power (R606). -/
def State.setWatch (s : State) (watch edge : Nat) : State :=
  (s.wr LEV_WATCH.COUNT watch).setReg .LEV_WTICK (if s.backup then 0 else BitVec.ofNat 64 edge)

/-- Sources that produce events with main power off (R595). -/
def backupSource (src : Nat) : Bool := decide (src ≤ 4) || decide (src = 6) || (decide (8 ≤ src) && decide (src ≤ 11)) || decide (src = 15)

/-- One step of an LFSR of R584: x^32 + x^22 + x^2 + x + 1. -/
def lfsrStep (x : BitVec 32) : BitVec 32 :=
  let b := x.getLsbD 31 ^^ x.getLsbD 21 ^^ x.getLsbD 1 ^^ x.getLsbD 0
  (x <<< 1) ||| (if b then 1#32 else 0#32)

/-- An LFSR after `n` steps. -/
def lfsrSteps : Nat → BitVec 32 → BitVec 32
  | 0, x => x
  | n + 1, x => lfsrSteps n (lfsrStep x)

/-- The pattern of a mesh advances 24 steps at the end of a pattern period (R584). -/
def State.meshStep (s : State) (k : Nat) : State :=
  { s with levee := { s.levee with lfsr := Tbl.set 0 s.levee.lfsr k (lfsrSteps 24 (Tbl.get 0 s.levee.lfsr k)) } }

/-! ### The record buffer and the log (R599, R600) -/

/-- A record enters the buffer of 32, or is lost and counted (R600). -/
def State.holdTamper (s : State) (r : TamperRec) : State :=
  if s.levee.buffer.length < 32 then { s with levee := { s.levee with buffer := s.levee.buffer ++ [r] } }
  else s.satAdd LEV_STAT.LOST 1

/-- FLAGS of a record: BACKUP, and DIP during a dip (R599). -/
def State.tamperFlags (s : State) : Nat := b2n s.backup + 32 * b2n (s.is LEV_STAT.DIP)

/-- A record of a type that is no alarm (R599). -/
def State.tamperNote (s : State) (typ detail : Nat) : State :=
  s.holdTamper { watch := s.watch, typ := typ, flags := s.tamperFlags, mode := s.mode, detail := detail }

/-- Octets 0 to 7 of a record (R599). -/
def TamperRec.head (r : TamperRec) : Octets := leBytes 6 r.watch ++ leBytes 1 r.typ ++ leBytes 1 r.flags

/-- The 16 octets of a record (R599): SEQ is the TLOG_COUNT before it. -/
def TamperRec.octets (r : TamperRec) (sq : Nat) : Octets :=
  let b := r.head ++ leBytes 1 r.mode ++ leBytes 3 r.detail ++ leBytes 2 sq
  b ++ leBytes 2 (Crypto.crc16 0x1021 0xFFFF b)

/-- A record takes the slot NEXT (R600). -/
def State.storeTamper (s : State) (r : TamperRec) : State :=
  let n := s.rd LEV_LOGRD.NEXT
  let c := s.rd LEV_LOGCNT.TLOG_COUNT
  let cis : Cistern := { s.cistern with
    tamper := Tbl.set [] s.cistern.tamper n (r.octets c), tamperCount := s.cistern.tamperCount + 1 }
  (State.satAdd { s with cistern := cis } LEV_LOGCNT.TLOG_COUNT 1).wr LEV_LOGRD.NEXT ((n + 1) % 1024)

/-- The oldest record of the buffer is written; a place is free, so lost records are reported (R600). -/
def State.writeTamper (s : State) : State :=
  match s.levee.buffer with
  | [] => s
  | r :: t =>
    let s1 := State.storeTamper { s with levee := { s.levee with buffer := t } } r
    let n := s1.rd LEV_STAT.LOST
    if n = 0 then s1 else (s1.wr LEV_STAT.LOST 0).tamperNote 0x83 n

/-- Held records written in order (R596 step 4); at most `fuel`. -/
def State.writeHeld (s : State) : Nat → State
  | 0 => s
  | n + 1 => s.writeTamper.writeHeld n

/-! ### Lockdown (R592) -/

/-- Discarded frames summed by object and SA: identity, SA, frames, octets. -/
def tally : List (Nat × Nat × Nat) → List (Nat × Nat × Nat × Nat)
  | [] => []
  | (o, sa, len) :: t =>
    let rest := tally t
    match rest.find? (fun e => decide (e.1 = o) && decide (e.2.1 = sa)) with
    | some e => (o, sa, e.2.2.1 + 1, e.2.2.2 + len) ::
        rest.filter (fun x => !(decide (x.1 = o) && decide (x.2.1 = sa)))
    | none => (o, sa, 1, len) :: rest

/-- A breach record of kind 0x24 (R94, R695); `chan` marks a channel index. -/
def State.breach24 (s : State) (chan : Bool) (e : Nat × Nat × Nat × Nat) : State :=
  let g := if chan then chanGroup e.1 else s.queueGroup e.1
  s.report 0x24 (e.1 + e.2.1 * 2 ^ 20 + (e.2.2.1 % 2 ^ 32) * 2 ^ 38 + (e.2.2.2 % 2 ^ 48) * 2 ^ 70 + b2n chan * 2 ^ 127) g

/-- The accepted frames of a queue discarded and their cells freed. -/
def State.emptyQueue (s : State) (q : Nat) : State :=
  let x := s.bq q
  let cells := (x.frames.filter QFrame.real).flatMap QFrame.cells
  let s1 := ((s.uncharge (s.queueGroup q) cells.length).setBq q { x with frames := [] }).rwr QUE.FRAMES q 0
  ((s1.subCells q cells.length).fixHead q).freeCellsOf ((x.frames.filter (fun f => !f.broken)).flatMap QFrame.cells)

/-- Queues that hold accepted frames. -/
def State.fullQueues (s : State) : List Nat :=
  (s.basin.queues.filter (fun e => !e.2.frames.isEmpty)).map (fun e => e.1)

/-- Accepted egress frames: queue, SA, client length. -/
def State.egressHeld (s : State) : List (Nat × Nat × Nat) :=
  (List.range 18).flatMap (fun g => (s.ringOf g).map (fun e => (e.queue, e.sa, e.len))) ++
  s.fullQueues.flatMap (fun q => ((s.bq q).frames.filter QFrame.real).map (fun f => (q, s.encSa f.sc, f.len)))

/-- Accepted ingress frames: channel, SA, length of the secured frame. -/
def State.ingressHeld (s : State) : List (Nat × Nat × Nat) :=
  (List.range 18).flatMap (fun g => (s.retainOf g).map (fun f => (f.chan, f.sa, f.octets.length))) ++
  s.weir.shelter.map (fun f => (f.chan, f.sa, f.octets.length))

/-- Accepted packet frames discarded (R592 steps 4 and 5). -/
def State.discardAccepted (s : State) : State :=
  let eg := tally s.egressHeld
  let ing := tally s.ingressHeld
  let s1 := (List.range 18).foldl (fun (a : State) g =>
    (((a.ringOf g).foldl (fun (b : State) e => b.releaseCells g e.cells) a).setRingOf g []).setRetain g []) s.holdReports
  let s2 : State := { s1 with weir := { s1.weir with shelter := [] } }
  let s3 := s2.fullQueues.foldl State.emptyQueue s2
  State.takeReports (ing.foldl (fun a e => a.breach24 true e) (eg.foldl (fun a e => a.breach24 false e) s3)) s.inCycle

/-- Lockdown entry (R592): keys zeroed, Sluices closed, M10, accepted frames discarded; `cuts` and `parts`: octets passed
of the L1 spans, and by group of the partial packet frames. -/
def State.lockdownEntry (s : State) (cuts : List (Channel × Nat)) (parts : List (Group × Nat × Nat)) : State :=
  (s.cutCard (s.zeroKeys.enterMode 10) cuts parts).discardAccepted

/-! ### Response points (R593 to R595) -/

/-- The record of an alarm at a response point with a combined response. -/
def State.alarmRecord (s : State) (a : Alarm) (resp : Nat) (coinc : Bool) : TamperRec :=
  let deferred := s.backup && decide (2 ≤ resp)
  { watch := a.watch, typ := a.src, mode := s.mode, detail := a.detail,
    flags := s.tamperFlags + 2 * b2n coinc + 4 * resp + 16 * b2n deferred }

/-- Class 0x09 for each handler-armed source (R589, R594). -/
def State.alarmEvents (s : State) (l : List Alarm) (coinc : Bool) : State :=
  l.foldl (fun (b : State) (a : Alarm) =>
    if a.resp = 1 then b.raiseEvent 0x09 a.src (BitVec.ofNat 64 (leNat (s.alarmRecord a 1 coinc).head)) else b) s

/-- A Lockdown or wipe applied (R589, R592, R594, R595): without main power the Lockdown waits; in M2 to M9 it is
entered; before the end of Power-On Check it waits with the key store zeroed (DESIGN CHOICE); in M10 and M11 nothing but
the wipe is left to do. -/
def State.applyLockdown (s : State) (wipe : Bool) (cuts : List (Channel × Nat)) (parts : List (Group × Nat × Nat)) : State :=
  let s1 := if wipe then s.wipeCistern else s
  match s.mode with
  | 0 => s1.mark LEV_STAT.LD_PEND
  | 1 => s1.zeroKeys.mark LEV_STAT.LD_PEND
  | 10 => s1
  | 11 => s1.zeroKeys
  | _ => s1.lockdownEntry cuts parts

/-- The alarms in ascending order of source. -/
def bySource (l : List Alarm) : List Alarm := (List.range 16).flatMap (fun k => l.filter (fun a => decide (a.src = k)))

/-- RESPONSE_POINT (R593). -/
def execResponsePoint (raw : BitVec 16) (watch : BitVec 48) (edge : Word) (cuts : List (Channel × Nat))
    (parts : List (Group × Nat × Nat)) (s : State) : Host.Outcome State Fault Refusal :=
  let s0 := (s.setWatch watch.toNat edge.toNat).wr LEV_RAW.RAW raw.toNat
  let l := bySource s0.levee.alarms
  let resp := (l.map Alarm.resp).foldl max 0
  let coinc := decide (1 < l.length)
  let s1 := l.foldl (fun (b : State) a => b.holdTamper (s0.alarmRecord a resp coinc))
    { s0 with levee := { s0.levee with alarms := [] } }
  if resp = 0 then .next s1
  else if resp = 1 then .next (if s0.backup ∨ s0.mode = 10 then s1 else s1.alarmEvents l coinc)
  else .next (s1.applyLockdown (decide (resp = 3)) cuts parts)

/-- LEVEE_EVENT (R583 to R586, R595): a failed integrity code also makes the record of kind 0xA1. -/
def execLeveeEvent (src : Fin 16) (detail : BitVec 24) (address : Word) (colour : Fin 16) (raw : BitVec 16)
    (watch : BitVec 48) (edge : Word) (s : State) : Host.Outcome State Fault Refusal :=
  if s.backup ∧ !backupSource src then .next s
  else
    let s0 := (s.setWatch watch.toNat edge.toNat).wr LEV_RAW.RAW raw.toNat
    let s1 := s0.leveeEvent src detail.toNat
    if src.val < 4 then .next (s1.meshStep src)
    else if src.val = 11 then .next (s1.meshStep 0)
    else if src.val = 12 then
      .next (s1.report 0xA1 (address.toNat + bits detail.toNat 23 20 * 2 ^ 64 + colour.val * 2 ^ 68))
    else .next s1

/-- TAMPER_RECORD_WRITE (R600): not while a supply dip holds the records. -/
def execTamperRecordWrite (s : State) : Host.Outcome State Fault Refusal :=
  if s.is LEV_STAT.DIP then .next s else .next s.writeTamper

/-! ### The supply dip (R596, R260, R296) -/

/-- Spring's running operation aborted; it starts again when the dip ends (R260). -/
def State.abortSpring (s : State) : State :=
  if s.springBusy then (s.mark SPR_STAT.DIP_ABORT).count Ctrs.DIP_ABORTS else s

/-- SUPPLY_DIP_START (R596 steps 1 and 2): the crossing is an event of VWARN. -/
def execSupplyDipStart (watch : BitVec 48) (edge : Word) (s : State) : Host.Outcome State Fault Refusal :=
  if s.backup ∨ s.is LEV_STAT.DIP then .next s
  else
    let s1 := ((s.setWatch watch.toNat edge.toNat).mark LEV_STAT.DIP).mark KST_STAT.DIP
    let s2 := (s1.mark WEI_SAMPLE.DIP_BOOST).abortSpring
    .next ((s2.wr LEV_RAW.RAW (s2.rd LEV_RAW.RAW ||| 16)).leveeEvent 4 0)

/-- SUPPLY_DIP_END (R596 step 4). -/
def execSupplyDipEnd (watch : BitVec 48) (edge : Word) (s : State) : Host.Outcome State Fault Refusal :=
  if !s.is LEV_STAT.DIP then .next s
  else
    let s1 := ((s.setWatch watch.toNat edge.toNat).unmark LEV_STAT.DIP).unmark KST_STAT.DIP
    let s2 := s1.unmark WEI_SAMPLE.DIP_BOOST
    let s3 := s2.wr LEV_RAW.RAW (s2.rd LEV_RAW.RAW &&& 0xFFEF)
    .next (s3.writeHeld s3.levee.buffer.length).kstRelease

/-! ### The registers (R590, R591, R597, R601, R606) -/

/-- The masters whose writes R512 and R590 accept: the host, warden threads, and in Factory the debug master. -/
def State.trusted (s : State) (m : Master) : Bool :=
  match m with
  | .host => true
  | .thread t => (s.thread t).warden
  | .debug => s.factory
  | _ => false

/-- A write that R512 refuses: dropped and reported. -/
def State.writeRefused (s : State) (m : Master) (a : Nat) : State :=
  let q := s.requester m
  let e := s.entryFor a
  ((s.mark CMP_STAT.WR_REFUSED).count Ctrs.CMP_WR_REFUSED).refuse q .write a e.isNone false (e.getD 0)

/-- A word written to LEV_SRCCFGs as it is stored: W of 0 is 1 (R605). -/
def srcCfgWord (v : Word) : Word := if LEV_SRCCFG.W.of v = 0 then v ||| 1 else v

/-- A write to LEV_SRCCFGs by a permitted master (R591, R605). -/
def State.srcCfgWrite (s : State) (src : Nat) (v : Word) : State :=
  let s1 := s.plainWrite .LEV_SRCCFG (srcCfgWord v) src
  if s1.reg .LEV_SRCCFG src = s.reg .LEV_SRCCFG src then s
  else if s.rd LEV_SRCCFG.RESP src = 3 ∧ !s.present then s.mark LEV_STAT.REJECT
  else if s.is LEV_SRCCFG.EN src = s1.is LEV_SRCCFG.EN src ∧ s.rd LEV_SRCCFG.RESP src = s1.rd LEV_SRCCFG.RESP src then s1
  else s1.tamperNote 0x82 (src + s.rd LEV_SRCCFG.RESP src * 2 ^ 4 + s1.rd LEV_SRCCFG.RESP src * 2 ^ 6 +
    s1.rd LEV_SRCCFG.EN src * 2 ^ 8)

/-- A write to LEV_STICKY by a permitted master (R597). -/
def State.stickyClear (s : State) (v : Word) : State :=
  let c := s.rd LEV_STICKY.FLAG &&& LEV_STICKY.FLAG.of v
  if c = 0 then s else (s.plainWrite .LEV_STICKY v).tamperNote 0x81 c

/-- A write to LEV_LOGRD by a permitted master (R601): the record is read at once. -/
def State.tamperRead (s : State) (v : Word) : State :=
  let s1 := s.plainWrite .LEV_LOGRD v
  let r := slice (Tbl.get [] s.cistern.tamper (s1.rd LEV_LOGRD.INDEX)) 0 16
  (s1.setReg .LEV_LOGDATA0 (BitVec.ofNat 64 (leNat (r.take 8)))).setReg .LEV_LOGDATA1 (BitVec.ofNat 64 (leNat (r.drop 8)))

/-- A write of a master to a Levee register: what a permitted master's write does, or the refusal (R590). -/
def State.leveeWrite (s : State) (m : Master) (r : Reg) (i : Nat) (v : Word) (k : State) : Host.Outcome State Fault Refusal :=
  if s.trusted m then guardRsvd r v (.next k) else .next (s.writeRefused m (r.off i 0))

/-- LEV_SRCCFG_WRITE (R591). -/
def execLevSrccfgWrite (m : Master) (src : Fin 16) (v : Word) (s : State) : Host.Outcome State Fault Refusal :=
  s.leveeWrite m .LEV_SRCCFG src v (s.srcCfgWrite src v)

/-- STICKY_CLEAR (R597). -/
def execStickyClear (m : Master) (v : Word) (s : State) : Host.Outcome State Fault Refusal :=
  s.leveeWrite m .LEV_STICKY 0 v (s.stickyClear v)

/-- TAMPER_LOG_READ (R601): a write of INDEX to LEV_LOGRD. -/
def execTamperLogRead (m : Master) (v : Word) (s : State) : Host.Outcome State Fault Refusal :=
  s.leveeWrite m .LEV_LOGRD 0 v (s.tamperRead v)

/-- A read of LEV_WATCH that includes its low word latches its high word and LEV_WTICK (R606, R712). -/
def State.latchWatch (s : State) (m : Master) : State :=
  (s.latch m (Reg.LEV_WATCH.off 0 0) (s.reg .LEV_WATCH)).latch m (Reg.LEV_WTICK.off 0 0) (s.reg .LEV_WTICK)

/-- LEV_WATCH_LATCH (R606). -/
def execLevWatchLatch (m : Master) (wide : Bool) (watch : BitVec 48) (edge : Word) (s : State) :
    Host.Outcome State Fault Refusal :=
  let s1 := s.setWatch watch.toNat edge.toNat
  .next ((s1.latchWatch m).emit (.readReply m (some (leBytes (if wide then 8 else 4) watch.toNat))))

/-- WATCH_CRYSTAL_STOP (R732): the internal oscillator takes over. -/
def execWatchCrystalStop (s : State) : Host.Outcome State Fault Refusal :=
  .next { s with levee := { s.levee with oscillator := true } }

/-- WATCH_CRYSTAL_RESTART (R732): the crystal resumes control. -/
def execWatchCrystalRestart (s : State) : Host.Outcome State Fault Refusal :=
  .next { s with levee := { s.levee with oscillator := false } }

/-- AO_SUPPLY_CHANGEOVER (R726): the always-on domain moves between VDD_IO and VBAT; nothing else changes. -/
def execAoSupplyChangeover (toCell : Bool) (s : State) : Host.Outcome State Fault Refusal :=
  .next { s with levee := { s.levee with cell := toCell } }

end Sys2Proof.Machine
end

