-- ==== Sys2Proof/Machine/Modes.lean ====
section
/-! DEFINITION. Modes, life cycle, presence, resets, Power-On Check, Recovery and debug (chapter 18; R14 to R17, R353,
R687, R688, R722). -/

namespace Sys2Proof.Machine

open Sys2Proof

/-! ### Resets (R620 to R622, R722) -/

/-- Register offsets of the Levee block, and of the error log (R707). -/
def levBlock (o : Nat) : Bool := decide (0x01500000 ≤ o) && decide (o < 0x01600000)
def elgBlock (o : Nat) : Bool := decide (0x01900000 ≤ o) && decide (o < 0x01A00000)

/-- What the pins, fuses and power keep through a reset of the datapath domain: the presence window closes and the Tick
starts again at 0 (R614, R621). -/
def ChipState.afterReset (c : ChipState) (tick : Nat) : ChipState :=
  { c with blowing := none, presSince := c.presSince - tick, presOpened := 0 }

/-- The error log after a reset that keeps its records (R621): reports are not merged across the reset. -/
def LogState.afterReset (l : LogState) : LogState := { l with newest := [], written := [] }

/-- Culvert after a reset: what it held never verifies again (R254, R492). -/
def CulvertState.afterReset (c : CulvertState) : CulvertState :=
  { ranges := (c.ranges.map (fun e => (e.1, ({ fill := e.2.fill } : RangeState)))).filter (fun e => decide (e.2 ≠ {})) }

/-- A reset that reaches the datapath, key and control domains; `warm` when main power has stayed on (R620, R621, R722).
The Levee, the Cistern and the fuses keep everything; a warm reset keeps the key store, DEVICE_ID, the commissioning key
pair (R231) and the error log too. -/
def State.mainReset (s : State) (warm : Bool) (mode : Nat) : State :=
  let (seed, s0) := s.draw
  let regs := s0.regs.filter (fun e =>
    levBlock e.1 || (warm && (elgBlock e.1 || decide (e.1 = Reg.KST_DEVID.off 0 0))))
  let keys : KeyState :=
    if warm then { slots := s0.keys.slots, turns := s0.keys.turns, cekSeed := s0.keys.cekSeed } else {}
  let t : State := { State.reset with
    pending := s0.pending, draws := s0.draws, out := s0.out, regs := regs, levee := s0.levee, cistern := s0.cistern,
    log := if warm then s0.log.afterReset else {}, keys := keys, culvert := s0.culvert.afterReset,
    chip := s0.chip.afterReset s.tick.toNat, delta := { seed := some (seed.setWidth 32) } }
  let t1 := ((t.wr GBL_MODE.MODE mode).wr GBL_MODE.STOP_CLEAN (s.rd GBL_MODE.STOP_CLEAN)).wr GBL_POC.AO_LOST
    (s.rd GBL_POC.AO_LOST)
  let t2 := if warm then (t1.wr GBL_MODE.TRANS ((s.rd GBL_MODE.TRANS + b2n (decide (s.mode ≠ mode))) % 2 ^ 16)).wr
    GBL_PRES.LEVEL (s.rd GBL_PRES.LEVEL) else t1
  t2.unmark LEV_STAT.DIP

/-- A device reset (R620). -/
def State.deviceReset (s : State) : State := if s.backup then s else s.mainReset true 1

/-- Every ring disabled with its indices at 0; what was fetched is discarded, and records of work in hand will be (R688). -/
def State.hifReset (s : State) : State :=
  let s1 := (List.range 67).foldl (fun (a : State) r =>
    ((((a.setRing r {}).unmark HIF_RCFG.EN r).setReg .HIF_RIDX (Reg.resetValue .HIF_RIDX r) r).wr HIF_RSTAT.OUTST 0 r).unmark
      HIF_RSTAT.HALTED r) s
  let s2 := (List.range 256).foldl (fun (a : State) t =>
    match (a.thread t).job with
    | .ring r slot tag =>
      let x := a.thread t
      a.setThread t { x with job := .ring r slot (staleTag tag) }
    | _ => a) s1
  let mka := s2.host.mka.map (fun e => (e.1, e.2.map (fun (f : MkaFrame) => { f with tag := staleTag f.tag })))
  { s2 with host := { s2.host with mka := mka } }

/-- Registers of a kind back at their reset values. -/
def State.clearReg (s : State) (r : Reg) (n : Nat) : State :=
  (List.range n).foldl (fun (a : State) i => a.setReg r (r.resetValue i) i) s

/-- FLR and PCIe conventional reset (R353, R354, R688, R689, R713): the host-interface reset, the HIF_ fields but the
BAR2 window and the rings, MSI-X, the configuration space, and every core. The read-only fields of HIF_STAT follow the
flash. -/
def State.pcieReset (s : State) : State :=
  let s1 := (s.hifReset.resetCores (2 ^ 32 - 1)).dropLatches .host
  let s2 := ((s1.unmark HIF_STAT.REJECT).unmark HIF_STAT.HOST_REF).clearReg .HIF_CTL 1
  let s3 := (((s2.clearReg .HIF_HERR 1).clearReg .HIF_CAUSE 1).clearReg .HIF_CAUSEMSK 1).clearReg .HIF_CAUSEVEC 1
  let s4 := ((s3.clearReg .HIF_MSIXA 128).clearReg .HIF_MSIXD 128).clearReg .HIF_PBA 2
  { s4 with host := { s4.host with busMaster := false, msixEnable := false, msixMask := false } }

/-- RESET_N_PULSE (R620, R738). -/
def execResetNPulse (s : State) : Host.Outcome State Fault Refusal := .next s.deviceReset

/-- GBL_RESET_DEVICE (R620). -/
def execGblResetDevice (s : State) : Host.Outcome State Fault Refusal := .next s.deviceReset

/-- GBL_RESET_HIF (R688). -/
def execGblResetHif (s : State) : Host.Outcome State Fault Refusal := .next s.hifReset

/-- PCIE_FLR (R688). -/
def execPcieFlr (s : State) : Host.Outcome State Fault Refusal := .next s.pcieReset

/-- PCIE_CONVENTIONAL_RESET (R688): as FLR; the link retrains. -/
def execPcieConventionalReset (s : State) : Host.Outcome State Fault Refusal := .next s.pcieReset

/-- BROWN_OUT (R596, R620): an event of VRESET, and the main domains reset. -/
def execBrownOut (watch : BitVec 48) (edge : Word) (s : State) : Host.Outcome State Fault Refusal :=
  if s.backup then .next s else .next (((s.setWatch watch.toNat edge.toNat).leveeEvent 5 0).mainReset true 1)

/-- MAIN_POWER_LOSS (R583, R609): an event of VRESET, and only the always-on domain stays powered. -/
def execMainPowerLoss (watch : BitVec 48) (edge : Word) (s : State) : Host.Outcome State Fault Refusal :=
  if s.backup then .next s else .next (((s.setWatch watch.toNat edge.toNat).leveeEvent 5 0).mainReset false 0)

/-- MAIN_POWER_ON (R620, R738): the pin PRES_N is timed from here. -/
def execMainPowerOn (s : State) : Host.Outcome State Fault Refusal :=
  if !s.backup then .next s
  else
    let s1 := s.mainReset false 1
    .next { s1 with chip := { s1.chip with presSince := 0, presArmed := false } }

/-- ALWAYS_ON_POWER_UP (R584, R602, R620, R621): a supply after none; the fuses are all that is kept. The device is in
M0 until main power is good. -/
def execAlwaysOnPowerUp (s : State) : Host.Outcome State Fault Refusal :=
  let s1 := (List.range 4).foldl (fun (a : State) k =>
    let (w, b) := a.draw
    { b with levee := { b.levee with lfsr := Tbl.set 0 b.levee.lfsr k (w.setWidth 32) } }) { s with levee := {}, cistern := {}, regs := [] }
  let fuses : ChipState := { lcs := s.chip.lcs, mFuses := s.chip.mFuses, cFuses := s.chip.cFuses, tFuses := s.chip.tFuses }
  .next (State.mainReset { s1 with chip := fuses } false 0)

/-! ### Power-On Check (R616 to R619, R687) -/

/-- A step of Power-On Check has failed (R619, R635): the later steps are not done, so DONE, which step 9 sets, stays 0. -/
def State.pocFail (s : State) (code unit : Nat) : State :=
  ((s.mark GBL_POC.FAIL).wr GBL_POC.CODE code).wr GBL_POC.UNIT unit

/-- CODE of a failed step (R635); 0 for the steps that do not fail. -/
def pocCode (step : Nat) : Nat :=
  match step with
  | 2 => 1 | 3 => 3 | 5 => 4 | 6 => 5 | 7 => 6 | 8 => 7 | _ => 0

/-- The third fuse of a bit found with two is blown (R612). -/
def thirdFuse (n : Fin 4) : Fin 4 := if n = 2 then 3 else n

/-- Life-cycle state from the blown fuses of M, C and T (R612). -/
def lcsOf (m c t : Fin 4) : Nat := if 2 ≤ t then 3 else if 2 ≤ c then 2 else if 2 ≤ m then 1 else 0

/-- The fuses sensed (R612, R616 step 2). -/
def ChipState.sense (c : ChipState) : ChipState :=
  let m := thirdFuse c.mFuses
  let k := thirdFuse c.cFuses
  let t := thirdFuse c.tFuses
  { c with mFuses := m, cFuses := k, tFuses := t, lcs := lcsOf m k t }

/-- The fields of a flash header are in range and its CHECK is right (R687). -/
def flashOk (h : Octets) : Bool :=
  let lg := leNat (slice h 6 1)
  decide (leNat (slice h 0 4) = 0x59464C48) && decide (leNat (slice h 4 2) = 1) && decide (30 ≤ lg) && decide (lg ≤ 36) &&
  decide (leNat (slice h 7 1) < 2) && decide (leNat (slice h 12 4) % 64 = 0) && decide (leNat (slice h 12 4) ≤ 4194304) &&
  decide (leNat (slice h 16 4) % 64 = 0) && decide (leNat (slice h 24 36) = 0) &&
  decide (leNat (slice h 60 4) = Crypto.crc32 (slice h 0 60))

/-- The flash header taken (R687). -/
def State.flashHeader (s : State) (h : Octets) : State :=
  if flashOk h then
    let pre := if (leNat (slice h 7 1)).testBit 0 then some (leNat (slice h 12 4), leNat (slice h 20 4)) else none
    let host := { s.host with subsysVid := leNat (slice h 8 2), subsysId := leNat (slice h 10 2), preload := pre }
    State.wr { s with host := host } HIF_STAT.BAR2_LOG2 (leNat (slice h 6 1) - 30)
  else
    State.mark (State.wr { s with host := { s.host with subsysVid := 0, subsysId := 0, preload := none } } HIF_STAT.BAR2_LOG2 6)
      HIF_STAT.FLASH_BAD

/-- Every lane calibrated and left in DEEP, those that fail in OFF (R535). -/
def State.calibrateAll (s : State) (fails : List LaneNo) : State :=
  (List.range 148).foldl (fun (a : State) n =>
    let b := a.wr LN_CTL.PSTATE 1 n
    if fails.any (fun k => decide (k.val = n)) then b.calFail n else b.wr LN_STAT.PSTATE_NOW 1 n) s

/-- A derivation from the device root (R232, R248), with peer identity 0. -/
def rootDerive (purpose object epoch l : Nat) : Octets := kdf Config.deviceRoot (contextLabel purpose 0 object epoch []) l

/-- Keys ended on the way out of a reset (R253), and after an unclean stop (R622), with all their descendants. -/
def State.resetExpiry (s : State) : State :=
  let unclean := !s.is GBL_MODE.STOP_CLEAN
  let s1 := s.keys.slots.foldl (fun (a : State) e =>
    if e.2.valid ∧ (e.2.resetExp ∨ (unclean ∧ e.1 / 2 ^ 24 < 2)) then a.endKey (e.1 / 2 ^ 24) (e.1 % 2 ^ 24) false else a) s
  s1.sweepAll.cancelSwitches

/-- The start-up derivations from the device root (R232, R233, R237, R254, R279). -/
def State.startKeys (s : State) : State :=
  let epoch := s.monotonic 0 % 2 ^ 32
  let s1 := s.writeKey 3 0 { key := rootDerive 0x11 0 0 256, parent := rootParent, resetExp := true }
  let s2 := s1.setReg .KST_DEVID (BitVec.ofNat 64 (beNat (rootDerive 0x12 0 0 64)))
  let s3 : State := { s2 with keys := { s2.keys with cekSeed := rootDerive 0x13 0 0 512 } }
  (List.range 8).foldl (fun (a : State) r =>
    a.writeKey 3 (0x10 + r) { key := rootDerive 0x10 r epoch 256, parent := rootParent, epoch := epoch, resetExp := true }) s3

/-- The domain secret unwrapped into its slot when that is empty, with the keys derived from it (R254). -/
def State.startDomain (s : State) : State :=
  match s.cistern.domain with
  | none => s
  | some r =>
    if r.bad then s
    else match Crypto.keyUnwrap (s.kslot 3 0).octets r.wrapped with
      | none => s
      | some secret =>
        let s1 := s.mark KST_CISTAT.DS_VALID
        if s1.usable 3 2 then s1 else (s1.writeKey 3 2 { key := secret, parent := rootParent }).deriveDomain

/-- A CAK unwrapped into its slot when that is empty (R254). -/
def State.startCak (s : State) (c : Nat) : State :=
  match s.cakRec c with
  | none => s
  | some r =>
    if r.bad ∨ s.usable 3 (cakIndex c) then s
    else match Crypto.keyUnwrap (s.kslot 3 0).octets r.wrapped with
      | none => s
      | some k => s.writeKey 3 (cakIndex c) { key := k, parent := rootParent, short := r.short }

/-- Step 8 (R616). -/
def State.pocKeys (s : State) (records : List (Fin 257)) : State :=
  let s1 := (s.bumpMonotonic 0).resetExpiry.startKeys
  let s2 := (records.foldl (fun (a : State) (n : Fin 257) => a.cisternBad n.val) s1).startDomain
  let s3 := (List.range 256).foldl (fun (a : State) c => a.startCak c) s2
  s3.wr KST_CISTAT.CAKS s3.cistern.caks.length

/-- Power-On Check ends (R619): DONE, and the mode. -/
def State.pocDone (s : State) : State :=
  let t := s.mark GBL_POC.DONE
  let lc := s.chip.lcs
  if lc = 0 ∨ (Config.grade ≠ 1 ∧ Config.grade ≠ 2) then t.pocFail 2 0
  else if s.is LEV_STAT.LD_PEND then t.enterMode 10
  else if lc = 1 then t.enterMode 2
  else if lc = 3 then t.enterMode 11
  else if !s.is KST_CISTAT.DS_VALID then t.enterMode 3
  else if !s.is GBL_MODE.STOP_CLEAN then (t.enterMode 9).mark GBL_MODE.REPLAY
  else t.enterMode 4

/-- What a step of Power-On Check does when it succeeds (R616). -/
def State.pocStep (s : State) (step : Nat) (header : Octets) (lanes : List LaneNo) (records : List (Fin 257)) : State :=
  match step with
  | 2 => State.flashHeader { s with chip := s.chip.sense } header
  | 4 => s.calibrateAll lanes
  | 8 => s.pocKeys records
  | 9 => if s.host.preload.isSome then s.tamperNote 0x80 0 else (s.tamperNote 0x80 0).pocDone
  | _ => s

/-- POC_STEP_END (R616 to R619): the next step ends, with the UNIT that fails if it does; `header`: the flash header read
at step 2; `lanes`: lanes that fail calibration; `records`: Cistern records found uncorrectable at step 8. Step 8 writes
keys, and does not end during a supply dip (R260). -/
def execPocStepEnd (bad : Option (BitVec 16)) (header : Octets) (lanes : List LaneNo) (records : List (Fin 257))
    (watch : BitVec 48) (edge : Word) (s : State) : Host.Outcome State Fault Refusal :=
  let n := s.rd GBL_POC.STAGE + 1
  if s.mode ≠ 1 ∨ s.is GBL_POC.DONE ∨ s.is GBL_POC.FAIL ∨ 9 < n ∨ (n = 8 ∧ s.is KST_STAT.DIP) then .next s
  else
    let s1 := (s.setWatch watch.toNat edge.toNat).wr GBL_POC.STAGE n
    match bad with
    | some u => if pocCode n = 0 then .next (s1.pocStep n header lanes records) else .next (s1.pocFail (pocCode n) u.toNat)
    | none => .next (s1.pocStep n header lanes records)

/-- FLASH_PRELOAD_END (R687): the preload, from its Pool test on, stands in Pool 0, or Pool 0 is zeroed. -/
def execFlashPreloadEnd (data : Octets) (s : State) : Host.Outcome State Fault Refusal :=
  match s.host.preload with
  | none => .next s
  | some (len, crc) =>
    if s.rd GBL_POC.STAGE < 4 ∨ s.is GBL_POC.DONE then .next s
    else
      let d := slice data 0 len
      let s1 := State.mark { s with host := { s.host with preload := none } } HIF_STAT.PRE_DONE
      let s2 : State := if Crypto.crc32 d = crc then s1.poolWrite 0x100000000 d
        else State.mark { s1 with pools := s1.pools.filter (fun e => decide (0x100400000 ≤ e.1)) } HIF_STAT.PRE_BAD
      .next (if s.rd GBL_POC.STAGE = 9 then s2.pocDone else s2)

/-! ### Mode commands (R609 to R611, R615, R625 to R630, R634) -/

/-- DRAINED (R628). -/
def State.drained (s : State) : Bool :=
  s.basin.queues.all (fun e => e.2.frames.all (fun f => !f.real)) &&
  (List.range 18).all (fun g => (s.ringOf g).isEmpty && (s.retainOf g).isEmpty) && s.weir.shelter.isEmpty &&
  (s.recObjects .l1 3).all (fun c => !s.ris L1.EN c)

/-- The transitions that a command can ask for (R609). -/
def modeAllowed (m target : Nat) : Bool :=
  [(4, 5), (5, 7), (6, 7), (7, 5), (7, 4), (4, 8), (8, 4), (9, 4), (10, 1)].contains (m, target)

/-- A source with EN = 1 and RESP 2 or 3 reports its condition (R630). -/
def State.leveeActive (s : State) : Bool :=
  (List.range 16).any (fun k => s.is LEV_SRCCFG.EN k && decide (2 ≤ s.rd LEV_SRCCFG.RESP k) && (s.rd LEV_RAW.RAW).testBit k)

/-- The condition of a transition is not met (R609, R625, R628, R630). -/
def State.modeBlocked (s : State) (target : Nat) : Bool :=
  match s.mode, target with
  | 4, 5 => !s.is TID_STAT.SO_VALID || s.is GBL_DEBUG.OPEN
  | 7, 5 => !s.is TID_STAT.SO_VALID
  | 7, 4 => !s.drained
  | 9, 4 => s.is KST_STAT.SWEEP || s.is GBL_MODE.REPLAY
  | 10, _ => s.leveeActive
  | _, _ => false

/-- An accepted transition (R609): M4 from M7 or M9 waits for the destruction of R629; exit from M10 resets the device. -/
def State.modeGo (s : State) (target : Nat) : State :=
  if s.mode = 10 then (s.unmark LEV_STAT.LD_PEND).deviceReset
  else if target = 4 ∧ s.mode ≠ 8 then s.mark GBL_MODECMD.BUSY
  else (s.enterMode target).wr GBL_MODECMD.STATUS 0

/-- A write of TARGET in GBL_MODECMD (R609, R615, R634). -/
def State.modeCmd (s : State) (target : Nat) : State :=
  if s.is GBL_MODECMD.BUSY then s.mark GBL_MODECMD.CMD_DROP
  else
    let s1 := s.wr GBL_MODECMD.TARGET target
    match firstFail [(2, (decide (target = 8) || decide (target = 1)) && !s.present), (1, !modeAllowed s.mode target),
        (3, s.modeBlocked target)] with
    | some st => s1.wr GBL_MODECMD.STATUS st
    | none => s1.modeGo target

/-- MODECMD_SERVICE (R609). -/
def execModecmdService (s : State) : Host.Outcome State Fault Refusal := .next (s.modeCmd 5)
/-- MODECMD_DRAIN (R626). -/
def execModecmdDrain (s : State) : Host.Outcome State Fault Refusal := .next (s.modeCmd 7)
/-- MODECMD_READY (R629). -/
def execModecmdReady (s : State) : Host.Outcome State Fault Refusal := .next (s.modeCmd 4)
/-- MODECMD_CLEAR_MAINTENANCE (R610). -/
def execModecmdClearMaintenance (s : State) : Host.Outcome State Fault Refusal := .next (s.modeCmd 8)
/-- MODECMD_LOCKDOWN_EXIT (R630). -/
def execModecmdLockdownExit (s : State) : Host.Outcome State Fault Refusal := .next (s.modeCmd 1)
/-- MODECMD_INVALID (R609, R634): a target that no command reaches. -/
def execModecmdInvalid (target : Fin 16) (s : State) : Host.Outcome State Fault Refusal :=
  if [1, 4, 5, 7, 8].contains target.val then .next s else .next (s.modeCmd target)

/-- READY_ENTRY_END (R629): the destruction ends and MODE changes; STATUS 4 when Lockdown has come first (R611). It does
not end during a supply dip, which blocks its writes (R260). -/
def execReadyEntryEnd (s : State) : Host.Outcome State Fault Refusal :=
  if !s.is GBL_MODECMD.BUSY ∨ s.is KST_STAT.DIP then .next s
  else
    let s1 := s.unmark GBL_MODECMD.BUSY
    if s.mode = 7 ∨ s.mode = 9 then
      let s2 := (((s1.destroyClass 0).destroyClass 1).destroyClass 2).sweepAll.cancelSwitches
      .next ((s2.enterMode 4).wr GBL_MODECMD.STATUS 0)
    else .next (s1.wr GBL_MODECMD.STATUS 4)

/-! ### Life cycle (R612, R613, R634) -/

/-- The modes from which a life-cycle change may be asked for. -/
def lcFrom (target m : Nat) : Bool :=
  if target = 2 then decide (m = 2) else decide (target = 3) && [3, 4, 9, 10].contains m

/-- A life-cycle change accepted: steps 1 and 2 of R613, and step 3 begins. -/
def State.lcGo (s : State) (target : Nat) : State :=
  let s1 := ((s.clearOrders.unmark GBL_DEBUG.OPEN).endLeases.wipeCistern.zeroKeys).mark GBL_LCCMD.BUSY
  { s1 with chip := { s1.chip with blowing := some target } }

/-- A write to GBL_LCCMD (R613, R615, R634): TARGET is checked first, then CONFIRM, presence and the mode (DEDUCED). -/
def State.lcCmd (s : State) (target confirm : Nat) : State :=
  if s.is GBL_LCCMD.BUSY then s.mark GBL_LCCMD.CMD_DROP
  else match firstFail [(1, decide (target < 2)), (5, decide (confirm ≠ 0x4C)), (2, !s.present), (1, !lcFrom target s.mode)] with
    | some st => s.wr GBL_LCCMD.STATUS st
    | none => s.lcGo target

/-- LC_CHANGE_CARRIER (R613). -/
def execLcChangeCarrier (s : State) : Host.Outcome State Fault Refusal := .next (s.lcCmd 2 0x4C)
/-- LC_CHANGE_RETIRED (R613). -/
def execLcChangeRetired (s : State) : Host.Outcome State Fault Refusal := .next (s.lcCmd 3 0x4C)
/-- LC_CMD_INVALID (R634). -/
def execLcCmdInvalid (target : Fin 4) (confirm : Byte) (s : State) : Host.Outcome State Fault Refusal :=
  if 2 ≤ target.val ∧ confirm = 0x4C then .next s else .next (s.lcCmd target confirm.toNat)

/-- FUSE_PROGRAM_END (R613 steps 3 and 4): not during a supply dip. -/
def execFuseProgramEnd (s : State) : Host.Outcome State Fault Refusal :=
  match s.chip.blowing with
  | none => .next s
  | some t =>
    if s.is LEV_STAT.DIP then .next s
    else
      let c : ChipState := if t = 2 then { s.chip with cFuses := 3 } else { s.chip with tFuses := 3 }
      .next (State.deviceReset { s with chip := c })

/-- PRODUCTION_TEST_FUSE_PROGRAM (R612): a Blank part becomes Manufactured. -/
def execProductionTestFuseProgram (s : State) : Host.Outcome State Fault Refusal :=
  if s.chip.lcs = 0 then .next { s with chip := { s.chip with mFuses := 3, lcs := 1 } } else .next s

/-! ### Presence (R614, R635) -/

/-- PRES_N_CHANGE (R614, R738): the pin moves at Tick `now`; a press is armed by at least 50 ms of high level. -/
def execPresNChange (low : Bool) (now : Word) (s : State) : Host.Outcome State Fault Refusal :=
  let s0 := s.timeTo now
  if s0.backup ∨ s0.is GBL_PRES.LEVEL = low then .next s0
  else
    let t : Int := s0.tick.toNat
    let armed := low && decide (75000000 ≤ t - s0.chip.presSince)
    .next (State.wr { s0 with chip := { s0.chip with presSince := t, presArmed := armed } } GBL_PRES.LEVEL (b2n low))

/-- Ticks for which PRES_N has been low; 0 while it is high. -/
def State.pressed (s : State) : Int := if s.is GBL_PRES.LEVEL then (s.tick.toNat : Int) - s.chip.presSince else 0

/-- PRESENCE_WINDOW_OPEN (R614). -/
def execPresenceWindowOpen (now : Word) (s : State) : Host.Outcome State Fault Refusal :=
  let s0 := s.timeTo now
  if s0.chip.presArmed ∧ 75000000 ≤ s0.pressed then
    .next (State.mark { s0 with chip := { s0.chip with presArmed := false, presOpened := s0.tick.toNat } } GBL_PRES.OPEN)
  else .next s0

/-- PRESENCE_WINDOW_CLOSE (R614): 15 × 10^9 Ticks after it opened. -/
def execPresenceWindowClose (now : Word) (s : State) : Host.Outcome State Fault Refusal :=
  let s0 := s.timeTo now
  if s0.present ∧ s0.chip.presOpened + 15000000000 ≤ s0.tick.toNat then .next (s0.unmark GBL_PRES.OPEN) else .next s0

/-- PRESENCE_STUCK (R614): PRES_N has been low for 60 s. -/
def execPresenceStuck (now : Word) (s : State) : Host.Outcome State Fault Refusal :=
  let s0 := s.timeTo now
  if 90000000000 ≤ s0.pressed then .next (s0.mark GBL_PRES.STUCK) else .next s0

/-! ### Debug and Recovery (R623, R631, R701) -/

/-- DEBUG_REQ (R615, R631). -/
def execDebugReq (s : State) : Host.Outcome State Fault Refusal :=
  if s.present ∧ [3, 4, 8, 9, 10].contains s.mode then .next (s.mark GBL_DEBUG.OPEN) else .next (s.mark GBL_DEBUG.REJECT)

/-- DEBUG_CLOSE (R631). -/
def execDebugClose (s : State) : Host.Outcome State Fault Refusal :=
  if s.mode = 2 then .next s else .next (s.unmark GBL_DEBUG.OPEN)

/-- The replay bit of a record (R692). -/
def State.replaySlot (s : State) (slot : Nat) : State :=
  s.setReg .ELG_LOG (BitVec.ofNat 64 (setBits (s.reg .ELG_LOG slot 0).toNat 8 8 1)) slot 0

/-- REPLAY_END (R623, R701): each record between RD and WR has its replay bit set, in slot order. -/
def execReplayEnd (s : State) : Host.Outcome State Fault Refusal :=
  if !s.is GBL_MODE.REPLAY then .next s
  else
    let s1 := (List.range (s.rd ELG_STAT.USED)).foldl (fun (a : State) k => a.replaySlot ((s.rd ELG_IDX.RD + k) % 1024)) s
    .next ((s1.unmark GBL_MODE.REPLAY).raiseCause 0)

end Sys2Proof.Machine
end

