-- ==== Sys2Proof/Machine/Sounding.lean ====
section
/-! DEFINITION. Reading counters with CTRD, Sounding dumps, PC samples and thresholds (R388, R395, R396, R652 to R671). -/

namespace Sys2Proof.Machine

open Sys2Proof

/-! ### Reading counters (R395, R396, R653 to R656) -/

/-- The counter at an address. -/
def State.ctrAt (s : State) (a : Nat) : Ctr := Tbl.get {} s.counters a

/-- A counter's doubleword (R395). -/
def Ctr.word (c : Ctr) : Word := BitVec.ofNat 64 (c.n.toNat + b2n c.wrapped * 2 ^ 48)

/-- A counter found uncorrectable reads all ones with WRAPPED 1, with a record of kind 0x68 (R655); only table counters
are held in memory. -/
def State.ctrLost (s : State) (a : Nat) : State :=
  let c : Ctr := { n := BitVec.allOnes 48, wrapped := true }
  State.report { s with counters := Tbl.set {} s.counters a c } 0x68 a

/-- A counter sampled, and cleared in the same cycle when asked (R396); `bad`: addresses found uncorrectable. -/
def State.sampleCtr (s : State) (bad : List (BitVec 32)) (clear : Bool) (a : Nat) : Word × State :=
  let s1 := if ctrIsTable (a / 2 ^ 26) && bad.any (fun b => decide (b.toNat = a)) then s.ctrLost a else s
  ((s1.ctrAt a).word, if clear then { s1 with counters := Tbl.set {} s1.counters a {} } else s1)

/-- Counters sampled in turn. -/
def State.sampleCtrs (s : State) (bad : List (BitVec 32)) (clear : Bool) : List Nat → List Word × State
  | [] => ([], s)
  | a :: t =>
    let (w, s1) := s.sampleCtr bad clear a
    let (ws, s2) := s1.sampleCtrs bad clear t
    (w :: ws, s2)

/-- `n` counters from an address are valid and lie in one scope (R395, R655). -/
def ctrRange (a n : Nat) : Bool :=
  ctrValid a && ctrValid (a + n - 1) && decide (a / 2 ^ 26 = (a + n - 1) / 2 ^ 26)

/-- A CTRD descriptor is well formed (R386, R388, R395). -/
def ctrdForm (d : Octets) : Bool :=
  let n := descField d 16 2
  decide (descOp d = 1) && decide (descFlags d < 2) && descCommon d true && descZero d 18 46 && decide (1 ≤ n) &&
  decide (n ≤ 64) && ctrRange (descObject d) n

/-- CTRD carried out (R395). -/
def ctrdAct (bad : List (BitVec 32)) (o : EngineOp) (s : State) : EngineOp × State :=
  let d := o.desc
  if !ctrdForm d then (o.fail 1, s)
  else
    let n := descField d 16 2
    let (ws, s1) := s.sampleCtrs bad (decide (descFlags d = 1)) ((List.range n).map (fun k => descObject d + k))
    ({ o with acted := true, result := n, out := (ws.map (fun w => leBytes 8 w.toNat)).flatten }, s1)

/-- CTRD (R395). -/
def execBalCtrd (t : ThreadNo) (tag : BitVec 8) (rs : GReg) (bad : List (BitVec 32)) (s : State) :
    Host.Outcome State Fault Refusal :=
  s.engineCall 0x55 t tag.toNat rs (fun d => decide (descFlags d % 2 = 0)) (ctrdAct bad)

/-- CTRD_CLEAR (R396). -/
def execBalCtrdClear (t : ThreadNo) (tag : BitVec 8) (rs : GReg) (bad : List (BitVec 32)) (s : State) :
    Host.Outcome State Fault Refusal :=
  s.engineCall 0x55 t tag.toNat rs (fun d => decide (descFlags d % 2 = 1)) (ctrdAct bad)

/-- A descriptor passes the checks of R388 for an engine, by opcode less 0x50. -/
def descForm (opc : Nat) (d : Octets) : Bool :=
  match opc with
  | 0 => kderForm d
  | 1 => tblForm d
  | 2 => bsnForm d
  | 3 => bsnForm d
  | 4 => movOk d
  | _ => ctrdForm d

/-- What an engine does with an operation, by opcode less 0x50. -/
def engineMake (opc : Nat) : EngineOp → State → EngineOp × State :=
  match opc with
  | 0 => kderAccept
  | 1 => tblAct
  | 2 => bsnEngine 0 none
  | 3 => bsnEngine 1 none
  | 4 => fun o s => (o.fail 1, s)
  | _ => ctrdAct []

/-- ENGINE_OP_INVALID (R388): an operation of the engine at opcode 0x50 + `opc` whose descriptor fails the checks. -/
def execEngineOpInvalid (opc : Fin 6) (t : ThreadNo) (tag : BitVec 8) (rs : GReg) (s : State) :
    Host.Outcome State Fault Refusal :=
  s.engineCall (0x50 + opc.val) t tag.toNat rs (fun d => !descForm opc d) (engineMake opc)

/-! ### Schedules (R657, R670) -/

/-- The fields of two words of a register agree, but for those named. -/
def sameBut (r : Reg) (skip : List Field) (a b : Word) : Bool :=
  r.fields.all (fun f => skip.any (fun x => decide (x.lo = f.lo)) || decide (f.of a = f.of b))

/-- The registers of a schedule: 0 CFG, 1 FIRST, 2 LIST, 3 RING, 4 RIDX. -/
def schedReg (which : Nat) : Reg :=
  match which with
  | 0 => .SND_SCFG | 1 => .SND_SFIRST | 2 => .SND_SLIST | 3 => .SND_RINGBASE | _ => .SND_RINGIDX

/-- The fields of a schedule register that may change while EN is 1, and the read-only one. -/
def schedFree (which : Nat) : List Field :=
  match which with
  | 0 => [SND_SCFG.EN] | 4 => [SND_RINGIDX.RD, SND_RINGIDX.WR] | _ => []

/-- A schedule takes its place in the event unit (R54, R57, R657). -/
def State.scheduleDump (s : State) (n : Nat) : State := s.scheduleAt n (s.reg .SND_SFIRST n)

/-- A schedule gives up its place, and its dump that waits (DESIGN CHOICE). -/
def State.dropSchedule (s : State) (n : Nat) : State :=
  { s with line := { s.line with events := s.line.events.filter (fun e => !decide (e.kind = .dump n)) },
           sound := { s.sound with queue := s.sound.queue.filter (fun q => !decide (q.sched = n)) } }

/-- EN may not be set with the word `v` in SND_SCFGn (R657, R670). -/
def State.schedBad (s : State) (n : Nat) (v : Word) : Bool :=
  !selValid (SND_SCFG.SEL.of v) || decide (SND_SCFG.PERIOD.of v = 0) || decide (SND_SCFG.ENTRIES.of v = 0) ||
  decide (s.rd SND_RINGIDX.SLOT_SZ n = 0) || decide (s.rd SND_RINGIDX.SLOTS n < 2) || decide (s.evFree = 0)

/-- A write to a register of a schedule (R670). -/
def State.scheduleWrite (s : State) (which n : Nat) (v : Word) : State :=
  let r := schedReg which
  let s1 := s.plainWrite r v n
  if s.is SND_SCFG.EN n then
    if !sameBut r (schedFree which) v (s.reg r n) then s.mark SND_STAT.REJECT
    else if which = 0 ∧ SND_SCFG.EN.of v = 0 then s1.dropSchedule n
    else s1
  else if which = 0 ∧ SND_SCFG.EN.of v = 1 then
    if s.schedBad n v then s.mark SND_STAT.REJECT
    else State.scheduleDump { s1 with sound := { s1.sound with published := Tbl.set 0 s1.sound.published n 0 } } n
  else s1

/-- SND_SCHEDULE_WRITE (R657, R670); a schedule enabled against an offset of 16,320 or more is a host error (R10). -/
def execSndScheduleWrite (which : Fin 5) (n : Fin 64) (v : Word) (s : State) : Host.Outcome State Fault Refusal :=
  if which.val = 0 ∧ SND_SCFG.EN.of v = 1 ∧ !s.is SND_SCFG.EN n ∧ !s.schedBad n v ∧ 16320 ≤ offsetOf (s.reg .SND_SFIRST n) then
    .fault .hostError
  else guardRsvd (schedReg which) v (.next (s.scheduleWrite which n v))

/-! ### Dumps (R658 to R663) -/

/-- An entry of a dump list: first address, count, reserved bits (R658). -/
def listAddr (w : Nat) : Nat := w % 2 ^ 32
def listCount (w : Nat) : Nat := bits w 47 32

/-- An entry at fault (R658). -/
def listBad (w : Nat) : Bool :=
  decide (listCount w = 0) || decide (2 ^ 48 ≤ w) || !ctrRange (listAddr w) (listCount w)

/-- The dump refused (R658, R662). -/
def State.dumpRefused (s : State) : State := (s.mark SND_STAT.REFUSED).count Ctrs.DUMP_REFUSED

/-- The block counters of a list sampled in the snapshot cycle; table counters are left for later (R660). -/
def State.snapItems (s : State) (clear : Bool) : List Nat → List (Nat × Option Word) × State
  | [] => ([], s)
  | a :: t =>
    if ctrIsTable (a / 2 ^ 26) then
      let (l, s1) := s.snapItems clear t
      ((a, none) :: l, s1)
    else
      let (w, s1) := s.sampleCtr [] clear a
      let (l, s2) := s1.snapItems clear t
      ((a, some w) :: l, s2)

/-- The table counters of a dump read, in list order (R660). -/
def State.fillItems (s : State) (bad : List (BitVec 32)) (clear : Bool) : List (Nat × Option Word) → List Word × State
  | [] => ([], s)
  | (a, v) :: t =>
    let (w, s1) := match v with
      | some w => (w, s)
      | none => s.sampleCtr bad clear a
    let (ws, s2) := s1.fillItems bad clear t
    (w :: ws, s2)

/-- The object whose table counter an address names. -/
def ctrObject (a : Nat) : Nat × Nat := (a / 2 ^ 26, a % 2 ^ 26 / ctrPer (a / 2 ^ 26))

/-- Table objects read one after another, R660's cycles after the snapshot. -/
def tableCycles (last : Option (Nat × Nat)) : List Nat → Nat
  | [] => 0
  | a :: t =>
    if !ctrIsTable (a / 2 ^ 26) then tableCycles last t
    else if last = some (ctrObject a) then tableCycles last t
    else 1 + tableCycles (some (ctrObject a)) t

/-- The head of the queue starts (R658, R660, R661). -/
def State.startDump (s : State) (d : DumpReq) : State :=
  let n := d.sched
  let wr := s.rd SND_RINGIDX.WR n
  let slots := s.rd SND_RINGIDX.SLOTS n
  if (wr + 1) % slots = s.rd SND_RINGIDX.RD n then s.dumpMissed n 1
  else match s.areaRead (s.requester .sounding) (s.reg .SND_SLIST n).toNat (8 * s.rd SND_SCFG.ENTRIES n) with
    | (.data o, s1) =>
      let list := (List.range (s.rd SND_SCFG.ENTRIES n)).map (fun k => leNat (slice o (8 * k) 8))
      let size := s.rd SND_RINGIDX.SLOT_SZ n
      let total := (list.map listCount).sum
      if list.any listBad ∨ 64 * size < 64 + 8 * total then s1.dumpRefused
      else
        let clear := s.is SND_SCFG.CLEAR n
        let addrs := list.flatMap (fun w => (List.range (listCount w)).map (fun k => listAddr w + k))
        let (items, s2) := s1.snapItems clear addrs
        let run : DumpRun := { req := d, snap := s.selReading d.sel, tick := s.tick, timeValid := s.is CLK_STAT.VALID,
                               time := s.timeNow, clear := clear, host := s.is SND_SCFG.DEST n,
                               slot := (s.reg .SND_RINGBASE n).toNat + wr * (64 * size), items := items }
        State.mark { s2 with sound := { s2.sound with running := some run } } SND_STAT.BUSY
    | (_, s1) => s1.dumpRefused

/-- DUMP_START (R659, R660), at Tick `now`. -/
def execDumpStart (now : Word) (s : State) : Host.Outcome State Fault Refusal :=
  let s0 := s.timeTo now
  match s0.sound.running, s0.sound.queue with
  | none, d :: t => .next (State.startDump { s0 with sound := { s0.sound with queue := t } } d)
  | _, _ => .next s0

/-- Octets of the dump's slot written (R661, R662): by the interconnect, or to host memory while Bus Master Enable is 1. -/
def State.dumpWrite (s : State) (r : DumpRun) (a : Nat) (o : Octets) : Bool × State :=
  if r.host then (if s.host.busMaster then (true, s.emit (.hostWrite a o)) else (false, s))
  else match s.areaWrite (s.requester .sounding) a o with
    | (.done, s1) => (true, s1)
    | (_, s1) => (false, s1)

/-- The header of a dump (R663). -/
def State.dumpHeader (s : State) (r : DumpRun) : Octets :=
  let n := r.req.sched
  let flags := b2n r.req.late + 2 * b2n r.clear + 4 * b2n r.timeValid + 8 * b2n r.req.waited +
    16 * b2n (Tbl.get false s.sound.abandoned n)
  let h := leBytes 4 0x534E4431 ++ [0x01#8, BitVec.ofNat 8 n] ++ leBytes 2 flags ++
    leBytes 4 (Tbl.get 0 s.sound.published n) ++ leBytes 4 r.items.length ++ leBytes 8 r.req.target.toNat ++
    leBytes 8 r.snap.toNat ++ leBytes 8 r.tick.toNat ++ leBytes 6 (timeSec r.time) ++ leBytes 2 0 ++
    leBytes 4 (timeNs r.time) ++ leBytes 4 (tableCycles none (r.items.map (fun e => e.1))) ++
    leBytes 2 (Tbl.get 0 s.sound.missed n) ++ leBytes 2 0
  h ++ leBytes 4 (Crypto.crc32 h)

/-- A dump abandoned (R662). -/
def State.dumpAbandoned (s : State) (r : DumpRun) : State :=
  let n := r.req.sched
  State.dumpRefused (if r.clear then { s with sound := { s.sound with abandoned := Tbl.set false s.sound.abandoned n true } }
    else s)

/-- A dump published (R661, R663). -/
def State.dumpPublished (s : State) (r : DumpRun) : State :=
  let n := r.req.sched
  let sq := Tbl.get 0 s.sound.published n
  let snd := { s.sound with published := Tbl.set 0 s.sound.published n (sq + 1), missed := Tbl.set 0 s.sound.missed n 0,
                            abandoned := Tbl.set false s.sound.abandoned n false }
  (((State.wr { s with sound := snd } SND_SSEQ.SEQ sq n).wr SND_RINGIDX.WR
    ((s.rd SND_RINGIDX.WR n + 1) % s.rd SND_RINGIDX.SLOTS n) n)).count Ctrs.DUMPS

/-- DUMP_PUBLISH (R660 to R663): `bad`: addresses of table counters found uncorrectable. -/
def execDumpPublish (bad : List (BitVec 32)) (now : Word) (s : State) : Host.Outcome State Fault Refusal :=
  let s0 := s.timeTo now
  match s0.sound.running with
  | none => .next s0
  | some r =>
    let s1 := State.unmark { s0 with sound := { s0.sound with running := none } } SND_STAT.BUSY
    let (ws, s2) := s1.fillItems bad r.clear r.items
    match s2.dumpWrite r (r.slot + 64) (ws.map (fun w => leBytes 8 w.toNat)).flatten with
    | (false, s3) => .next (s3.dumpAbandoned r)
    | (true, s3) =>
      match s3.dumpWrite r r.slot (s3.dumpHeader r) with
      | (true, s4) => .next (s4.dumpPublished r)
      | (false, s4) => .next (s4.dumpAbandoned r)

/-! ### PC samples (R666, R667) -/

/-- The record of a sample (R667). -/
def sampleOctets (tick pc word thread cat reading : Nat) : Octets :=
  leBytes 8 tick ++ leBytes 8 pc ++ leBytes 4 word ++ leBytes 1 thread ++ leBytes 1 cat ++ leBytes 2 0 ++ leBytes 8 reading

/-- SLOT_SAMPLE (R666, R667): the sample that a core has taken is written into the ring; `word`: the instruction at its
PC. -/
def execSlotSample (core : Fin 32) (word : BitVec 32) (s : State) : Host.Outcome State Fault Refusal :=
  match Tbl.get none s.sound.samples core with
  | none => .next s
  | some x =>
    let s0 : State := { s with sound := { s.sound with samples := Tbl.set none s.sound.samples core none } }
    let size := s.rd SND_SRING.SIZE
    let wr := s.rd SND_SRIDX.WR
    if size = 0 ∨ (wr + 1) % size = s.rd SND_SRIDX.RD then .next s0.sampleDropped
    else
      let o := sampleOctets x.tick.toNat x.pc.toNat (if x.cat = 1 ∨ x.cat = 7 then 0 else word.toNat) x.thread x.cat
        x.reading.toNat
      match s0.areaWrite (s0.requester .sounding) (s.rd SND_SRING.BASE * 2 ^ 16 + 32 * wr) o with
      | (.done, s1) => .next ((s1.wr SND_SRIDX.WR ((wr + 1) % size)).count Ctrs.SAMPLES)
      | (_, s1) => .next s1.sampleDropped

/-! ### Thresholds (R668 to R670) -/

/-- SRC and INDEX name an occupancy (R669). -/
def occValid (src ix : Nat) : Bool :=
  match src with
  | 2 => decide (ix < 18)
  | 6 => decide (ix < 18)
  | 3 => decide (ix < 2 ^ 20)
  | _ => decide (1 ≤ src) && decide (src ≤ 12) && decide (ix = 0)

/-- The occupancy that SRC and INDEX name (R669). -/
def State.occupancy (s : State) (src ix : Nat) : Nat :=
  match src with
  | 1 => s.sused
  | 2 => s.used ix
  | 3 => s.rrd QUE.CELLS ix
  | 4 => s.freeCells
  | 5 => s.shelterUsed
  | 6 => (s.ringOf ix).length
  | 7 => s.tide.queue.length
  | 8 => s.delta.learn.length
  | 9 => s.rd DLT_USED.ENTRIES
  | 10 => s.line.events.length
  | 11 => s.rd CUL_BW.LAST
  | 12 => s.rd CUL_STAT.POISONED
  | _ => 0

/-- THRESHOLD_SAMPLE (R668). -/
def execThresholdSample (n : Fin 64) (s : State) : Host.Outcome State Fault Refusal :=
  if !s.is SND_TCFG.EN n then .next s
  else
    let v := s.occupancy (s.rd SND_TCFG.SRC n) (s.rd SND_TCFG.INDEX n)
    let s1 := s.setReg .SND_TVAL (BitVec.ofNat 64 v) n
    let above := decide (s.rd SND_THIGH.HIGH n ≤ v)
    let below := decide (v ≤ s.rd SND_TLOW.LOW n)
    let down := s.is SND_TCFG.DOWN n
    if s.is SND_TCFG.ARMED n then
      if (if down then below else above) then
        .next ((((s1.unmark SND_TCFG.ARMED n).mark SND_TCFG.HIT n).raiseEvent 0x0A n (BitVec.ofNat 64 v)).count Ctrs.THR_EVENTS)
      else .next s1
    else if (if down then above else below) then .next (s1.mark SND_TCFG.ARMED n)
    else .next s1

/-- The registers of a threshold: 0 CFG, 1 HIGH, 2 LOW. -/
def thrReg (which : Nat) : Reg := match which with | 0 => .SND_TCFG | 1 => .SND_THIGH | _ => .SND_TLOW

/-- The fields of a threshold register that a write may change while EN is 1, and the read-only one. -/
def thrFree (which : Nat) : List Field :=
  match which with | 0 => [SND_TCFG.EN, SND_TCFG.HIT, SND_TCFG.ARMED] | _ => []

/-- A write to a register of a threshold (R668, R670). -/
def State.thresholdWrite (s : State) (which n : Nat) (v : Word) : State :=
  let r := thrReg which
  let s1 := s.plainWrite r v n
  if s.is SND_TCFG.EN n then
    if !sameBut r (thrFree which) v (s.reg r n) then s.mark SND_STAT.REJECT
    else if which = 0 ∧ SND_TCFG.EN.of v = 0 then s1.unmark SND_TCFG.ARMED n
    else s1
  else if which = 0 ∧ SND_TCFG.EN.of v = 1 then
    if !occValid (SND_TCFG.SRC.of v) (SND_TCFG.INDEX.of v) ∨ s.rd SND_THIGH.HIGH n ≤ s.rd SND_TLOW.LOW n then
      s.mark SND_STAT.REJECT
    else s1.mark SND_TCFG.ARMED n
  else s1

/-- SND_THRESHOLD_WRITE (R670). -/
def execSndThresholdWrite (which : Fin 3) (n : Fin 64) (v : Word) (s : State) : Host.Outcome State Fault Refusal :=
  guardRsvd (thrReg which) v (.next (s.thresholdWrite which n v))

end Sys2Proof.Machine
end

