-- ==== Sys2Proof/Machine/RegBus.lean ====
section
/-! DEFINITION. The register space as a master sees it: what each register reads, with the fields that show the state of
their hardware; what a write of each register does; widths, halves, latches, unlisted offsets and reserved fields
(R11 to R13, R707 to R722; the field tables of the chapters). -/

namespace Sys2Proof.Machine

open Sys2Proof

/-! ### Reads -/

/-- A word with a field replaced. -/
def Field.put (f : Field) (v : Nat) (w : Word) : Word := BitVec.ofNat 64 (setBits w.toNat f.hi f.lo v)

/-- Milliseconds left in the presence window (R635); a part of a millisecond counts as one (DESIGN CHOICE). -/
def State.remainMs (s : State) : Nat :=
  if s.present then (s.chip.presOpened + 15000000000 - s.tick.toNat + 1499999) / 1500000 else 0

/-- GBL_MODE as it reads (R633). -/
def State.modeWord (s : State) : Word :=
  let d := decide (5 ≤ s.mode) && decide (s.mode ≤ 7) && decide (s.standbyCount < 2)
  GBL_MODE.LCS.put s.chip.lcs (GBL_MODE.DRAINED.put (b2n s.drained) (GBL_MODE.DEGRADED.put (b2n d) (s.reg .GBL_MODE)))

/-- SPR_STAT as it reads (R275). -/
def State.sprStat (s : State) : Word :=
  SPR_STAT.BUSY.put ((List.range 16).foldl (fun a k => a + b2n (!(s.pageOps k).isEmpty) * 2 ^ k) 0) (s.reg .SPR_STAT)

/-- TID_TRAPSUMw (R361). -/
def State.trapSum (s : State) (w : Nat) : Word :=
  BitVec.ofNat 64 ((List.range 32).foldl (fun a j => a + b2n (decide (s.tstate (32 * w + j) = stTrapped)) * 2 ^ j) 0)

/-- A register as it reads at this moment, its reserved bits apart: most hold what was stored, some show the state of
their hardware (R4, R78, R30, R184, R275, R357, R360, R361, R403, R464, R603, R633, R635, R650, R706). CLK_TSBn without
a read that removes an entry reads 0 (DEDUCED). -/
def State.view (s : State) (r : Reg) (i j : Nat) : Word :=
  match r with
  | .GBL_IDENT => BitVec.ofNat 64 s.ident
  | .GBL_MODE => s.modeWord
  | .GBL_PRES => GBL_PRES.REMAIN_MS.put s.remainMs (s.reg r i j)
  | .GAU_EVFREE => GAU_EVFREE.FREE.put s.evFree (s.reg r i j)
  | .WEI_POOL_STAT => WEI_POOL_STAT.STANDBY.put s.standbyCount (s.reg r i j)
  | .SPR_STAT => s.sprStat
  | .DLT_HSEED => s.hseed.setWidth 64
  | .BSN_SHARED => BSN_SHARED.USED.put s.sused (s.reg r i j)
  | .BSN_FREE => BSN_FREE.FREE.put s.freeCells (s.reg r i j)
  | .TID_STAT => TID_STAT.SO_OLD_PEND.put (b2n s.oldHandlers) (s.reg r i j)
  | .TID_EVQ => TID_EVQ.USED.put s.tide.queue.length (s.reg r i j)
  | .TID_TRAPSUM => s.trapSum i
  | .TID_THRSTAT => TID_THRSTAT.OUTSTANDING.put (min (s.opsOf i) 127) (s.reg r i j)
  | .FRM_UNTRUST => BitVec.ofNat 64 (s.untrustWord i j)
  | .LEV_STAT => LEV_STAT.WIPE_ARMED.put (b2n s.wipeArmed) (LEV_STAT.PEND.put s.levee.buffer.length (s.reg r i j))
  | .CLK_TICK => s.tick
  | .CLK_TIME0 => time0 s.timeNow
  | .CLK_TIME1 => time1 s.timeNow
  | .CLK_TSB => 0
  | .SND_STAT => SND_STAT.QUEUED.put s.sound.queue.length (s.reg r i j)
  | .ELG_STAT => ELG_STAT.FULL.put (b2n (decide (1024 ≤ s.rd ELG_STAT.USED))) (s.reg r i j)
  | r => s.reg r i j

/-- Bits of the defect registers that no defect has, reserved inside their two fields (R579). -/
def spareBits (r : Reg) : Nat :=
  match r with
  | .FRM_DEF => 0xFC00FC00
  | .FRM_CHSTAT => 0xFFC0FFC0
  | _ => 0

/-- The registers whose read is latched with another's (R712), for a master that holds the latch. -/
def isCompanion (r : Reg) : Bool :=
  match r with
  | .GAU_READ | .GAU_FTICK | .GAU_FPER | .LEV_WATCH | .LEV_WTICK | .CLK_TIME0 | .CLK_TIME1 | .CLK_TICK | .CLK_TSB
  | .CLK_TSA => true
  | _ => false

/-- What a read of a register instance finds, before its reserved bits: a read that includes bits [31:0] of a latching
register latches; a read of another half or of a companion finds the latch that the master holds (R712). -/
def State.readWord (s : State) (m : Master) (r : Reg) (i j b : Nat) : Word × State :=
  match r, b with
  | .GAU_READ, 0 => (s.view r i j, s.latchGauge m i)
  | .LEV_WATCH, 0 => (s.view r i j, s.latchWatch m)
  | .CLK_TIME0, 0 => (s.view r i j, s.latchTime m)
  | .CLK_TSB, 0 => s.tsbRead m i
  | r, _ => (if isCompanion r then (s.latched m (r.off i j)).getD (s.view r i j) else s.view r i j, s)

/-- The reserved bits of a read are undefined (R11): free bits. SPR_PGOWN0 reads 0 (R274). -/
def State.withSpare (s : State) (r : Reg) (i : Nat) (w : Word) : Word × State :=
  let mask := if r = .SPR_PGOWN ∧ i = 0 then 0 else BitVec.ofNat 64 (r.rsvdMask ||| spareBits r)
  if mask = 0 then (w, s)
  else
    let (f, s1) := s.draw
    ((w &&& ~~~mask) ||| (f &&& mask), s1)

/-- A read of `n` octets at a BAR0 offset that the checks have passed (R708 to R712). -/
def State.regRead (s : State) (m : Master) (o n : Nat) : MemRes × State :=
  if 0x01A00000 ≤ o ∨ (n ≠ 4 ∧ n ≠ 8) ∨ o % n ≠ 0 then (.bus, s)
  else match Reg.locate o with
    | none => (.data (leBytes n 0), s)
    | some (r, i, j, b) =>
      if n = 8 ∧ r.place.octets = 4 then (.bus, s)
      else
        let (w, s1) := s.readWord m r i j b
        let (x, s2) := s1.withSpare r i w
        (.data (leBytes n (x.toNat / 2 ^ (8 * b))), s2)

/-! ### Writes -/

/-- A second effect after a first that went on. -/
def andThen (x : Host.Outcome State Fault Refusal) (f : State → Host.Outcome State Fault Refusal) :
    Host.Outcome State Fault Refusal :=
  match x with
  | .next s => f s
  | y => y

/-- The read-only windows: writes to them are dropped as at an unlisted offset (R720). -/
def isWindow (r : Reg) : Bool :=
  match r with
  | .WEI_MIRROR | .CMP_LSTART | .CMP_LEND | .CMP_LATTR | .FRM_TSLIVE | .ELG_LOG | .HIF_PBA => true
  | _ => false

/-- The block of a register accepts writes only from trusted masters (R512, R590). -/
def guardedBlock (o : Nat) : Bool := (decide (0x00E00000 ≤ o) && decide (o < 0x00F00000)) || levBlock o

/-- GBL_MODECMD written (R634, R717). -/
def State.modecmdWrite (s : State) (v : Word) : State :=
  if s.is GBL_MODECMD.BUSY then s.mark GBL_MODECMD.CMD_DROP
  else (if GBL_MODECMD.CMD_DROP.of v = 1 then s.unmark GBL_MODECMD.CMD_DROP else s).modeCmd (GBL_MODECMD.TARGET.of v)

/-- GBL_LCCMD written (R634, R717). -/
def State.lccmdWrite (s : State) (v : Word) : State :=
  if s.is GBL_LCCMD.BUSY then s.mark GBL_LCCMD.CMD_DROP
  else (if GBL_LCCMD.CMD_DROP.of v = 1 then s.unmark GBL_LCCMD.CMD_DROP else s).lcCmd (GBL_LCCMD.TARGET.of v)
    (GBL_LCCMD.CONFIRM.of v)

/-- GBL_RESET written (R635): a device reset reaches all that a host-interface reset does. -/
def State.gblResetWrite (s : State) (v : Word) : State :=
  if GBL_RESET.DEVICE.of v = 1 then s.deviceReset
  else if GBL_RESET.HIF.of v = 1 then s.hifReset else s

/-- GBL_DEBUG written (R631, R635): REQ, then CLOSE. -/
def gblDebugWrite (s : State) (v : Word) : Host.Outcome State Fault Refusal :=
  let s1 := s.plainWrite .GBL_DEBUG v
  andThen (if GBL_DEBUG.REQ.of v = 1 then execDebugReq s1 else .next s1)
    (fun a => if GBL_DEBUG.CLOSE.of v = 1 then execDebugClose a else .next a)

/-- An image register of a command family written: dropped while the family is BUSY (R717). -/
def State.imageWrite (s : State) (busy drop : Field) (r : Reg) (i j : Nat) (v : Word) (g : Nat := 0) : State :=
  if s.is busy g then s.mark drop g else s.plainWrite r v i j

/-- CMP_CTL written (R516, R527). -/
def State.cmpCtlWrite (s : State) (v : Word) : Host.Outcome State Fault Refusal :=
  if CMP_CTL.COMMIT.of v = 1 then execCommit false s else .next (s.unlessPend s)

/-- What a write of the word `v` to a register instance does, the checks of the register among it (R11, R711, R715 and
the rules of each register). -/
def regStore (s : State) (m : Master) (r : Reg) (i j : Nat) (v : Word) : Host.Outcome State Fault Refusal :=
  match r with
  | .GBL_MODECMD => .next (s.modecmdWrite v)
  | .GBL_LCCMD => .next (s.lccmdWrite v)
  | .GBL_RESET => .next (s.gblResetWrite v)
  | .GBL_DEBUG => gblDebugWrite s v
  | .GAU_RECORD => .next (gauRecordWrite s v)
  | .GAU_SNAPCTL => execGauSnapctlTrig v s
  | .RC_CTL => .next (s.rcCtlWrite i v)
  | .WEI_GRP_CFG => execWeiGrpCfgWrite (Fin.ofNat 18 i) v s
  | .WEI_FAILCLR => .next (s.failclrWrite v)
  | .WEI_CARD => .next (s.cardWrite v)
  | .WEI_CARDGRANT => .next (s.cardGrantWrite v)
  | .SPR_PGOWN => .next (s.pgownWrite i v)
  | .KST_CMD => .next (s.kstCmdWrite v)
  | .KST_DATA => .next (s.imageWrite KST_CMD.BUSY KST_STAT.CMD_DROP r i j v)
  | .DLT_CMD => .next (s.dltCmd (DLT_CMD.OP.of v))
  | .DLT_DATA0 => .next (s.imageWrite DLT_CMD.BUSY DLT_STAT.CMD_DROP r i j v)
  | .DLT_DATA1 => .next (s.imageWrite DLT_CMD.BUSY DLT_STAT.CMD_DROP r i j v)
  | .DLT_POS => .next (s.imageWrite DLT_CMD.BUSY DLT_STAT.CMD_DROP r i j v)
  | .DLT_HSEED => execDltHseedWrite (v.setWidth 32) s
  | .BSN_CMD => .next (s.bsnCmdWrite v)
  | .BSN_OBJ => .next (s.imageWrite BSN_CMD.BUSY BSN_STAT.CMD_DROP r i j v)
  | .BSN_DATA => .next (s.imageWrite BSN_CMD.BUSY BSN_STAT.CMD_DROP r i j v)
  | .BSN_POOL => execBsnPoolWrite v s
  | .BSN_FIFO => .next (s.bsnFifoWrite v)
  | .BSN_RES => .next (s.bsnResWrite i v)
  | .CUL_RNG => .next (s.rngWrite i v)
  | .CUL_CTL => .next (s.culCtlWrite v)
  | .CUL_BW => execPeakClr v s
  | .TID_ICINV => .next (s.dropCode (TID_ICINV.INV.of v))
  | .TID_RESET => .next (s.resetCores (TID_RESET.RST.of v))
  | .TID_THRCFG => .next (s.thrcfgWrite m i v)
  | .TID_THRCTL => .next (s.thrctlWrite m i v)
  | .TID_ENTRY => .next (s.entryWrite m i v)
  | .CMP_CTL => s.cmpCtlWrite v
  | .CMP_FENCE => .next (if CMP_FENCE.START.of v = 1 then s.fenceStart else s)
  | .CMP_STAT => .next (s.cmpStatWrite v)
  | .CMP_START => .next (s.unlessPend (s.plainWrite r v i j))
  | .CMP_END => .next (s.unlessPend (s.plainWrite r v i j))
  | .CMP_ATTR => .next (s.unlessPend (s.plainWrite r v i j))
  | .POOL_OWN => .next (s.poolOwnWrite i (POOL_OWN.OWNER.of v) false)
  | .LN_CTL => .next (s.lnCtlWrite i v)
  | .LN_TXEQ => .next (s.txeqWrite i v)
  | .LN_MAP => .next (s.lnMapWrite (4 * i) v)
  | .LN_EYECTL => .next (s.eyeWrite i v)
  | .FRM_CTL => execFrmCtlWrite (Fin.ofNat 18 i) v s
  | .FRM_GPOS => execFrmGposWrite (Fin.ofNat 18 i) v s
  | .FRM_CPORT => execFrmCportWrite (Fin.ofNat 18 i) (Fin.ofNat 4 j) v s
  | .FRM_COOPOS => execFrmCooposWrite (Fin.ofNat 18 i) v s
  | .FRM_L1CTL => .next (s.l1ctlWrite i v)
  | .FRM_L1HOLD => .next (s.l1holdWrite i v)
  | .FRM_L1CMD => s.l1CmdWrite (Fin.ofNat 18 i) v
  | .FRM_L1DATA => .next (s.imageWrite FRM_L1CMD.BUSY FRM_L1CTL.CMD_DROP r i j v i)
  | .FRM_UNTRUST => .next (s.untrustWrite i j v)
  | .FRM_DCCCTL => .next (s.dccctlWrite i v)
  | .FRM_DSTR => execFrmDstrWrite (Fin.ofNat 4 i) (Fin.ofNat 16 j) v s
  | .SCY_CMD => s.scyCmdWrite v
  | .SCY_DATA => .next (s.imageWrite SCY_CMD.BUSY SCY_STAT.CMD_DROP r i j v)
  | .LEV_SRCCFG => .next (s.srcCfgWrite i v)
  | .LEV_STICKY => .next (s.stickyClear v)
  | .LEV_LOGRD => .next (s.tamperRead v)
  | .CLK_CMD => s.clkCmdWrite v
  | .CLK_RATE => execClkRateWrite (v.setWidth 32) s
  | .CLK_PPS => .next (s.clkPpsWrite v)
  | .SND_SCFG => execSndScheduleWrite 0 (Fin.ofNat 64 i) v s
  | .SND_SFIRST => execSndScheduleWrite 1 (Fin.ofNat 64 i) v s
  | .SND_SLIST => execSndScheduleWrite 2 (Fin.ofNat 64 i) v s
  | .SND_RINGBASE => execSndScheduleWrite 3 (Fin.ofNat 64 i) v s
  | .SND_RINGIDX => execSndScheduleWrite 4 (Fin.ofNat 64 i) v s
  | .SND_TCFG => execSndThresholdWrite 0 (Fin.ofNat 64 i) v s
  | .SND_THIGH => execSndThresholdWrite 1 (Fin.ofNat 64 i) v s
  | .SND_TLOW => execSndThresholdWrite 2 (Fin.ofNat 64 i) v s
  | .HIF_CTL => .next (s.hcolourWrite v)
  | .HIF_BAR2WIN => .next (s.bar2Write v)
  | .HIF_RCFG => .next (s.rcfgWrite i v)
  | .HIF_DB => execHifDoorbell (Fin.ofNat 67 i) v s
  | .HIF_MSIXD => .next (s.plainWrite r v i j).flushVecs
  | .ELG_IDX => .next (s.logRelease (ELG_IDX.RD.of v))
  | .ELG_RETPAGE => execRetpageWrite (Fin.ofNat 256 i) v s
  | .ELG_RETPOOL => .next (s.retpoolWrite (ELG_RETPOOL.RET.of v))
  | r => .next (s.plainWrite r v i j)

/-- The word that a write of `n` octets at octet `b` of a register forms: a 4-octet write of a 64-bit register leaves
the stored fields of the other half as they are, and writes 0 to everything else there (R711). -/
def State.mergedWord (s : State) (r : Reg) (i j b n v : Nat) : Word :=
  if n = 8 ∨ r.place.octets = 4 then BitVec.ofNat 64 (v % 2 ^ (8 * n))
  else
    let old := (s.view r i j).toNat
    let keep := r.fields.foldl (fun a f => match f.acc with
      | .rw => a ||| (f.mask &&& old)
      | .rws => a ||| (f.mask &&& old)
      | _ => a) 0
    let half := (2 ^ 32 - 1) * 2 ^ (8 * b)
    BitVec.ofNat 64 ((keep &&& (2 ^ 64 - 1 - half)) ||| (v % 2 ^ 32 * 2 ^ (8 * b)))

/-- What a write on the bus comes to. -/
abbrev BusOutcome := Host.Outcome (MemRes × State) Fault Refusal

/-- An outcome of a write that was carried out. -/
def busDone (x : Host.Outcome State Fault Refusal) : BusOutcome :=
  match x with
  | .next s => .next (.done, s)
  | .fault f => .fault f
  | .refused r => .refused r

/-- A write of `n` octets at a BAR0 offset that the Colour Map has passed (R708 to R711, R512, R590, R13, R720). -/
def State.regWrite (s : State) (m : Master) (o n v : Nat) : BusOutcome :=
  if 0x01A00000 ≤ o ∨ (n ≠ 4 ∧ n ≠ 8) ∨ o % n ≠ 0 then .next (.bus, s)
  else match Reg.locate o with
    | none => .next (.done, s)
    | some (r, i, j, b) =>
      if n = 8 ∧ r.place.octets = 4 then .next (.bus, s)
      else if isWindow r then .next (.done, s)
      else if guardedBlock o ∧ !s.trusted m then .next (.refused, s.writeRefused m o)
      else
        let w := s.mergedWord r i j b n v
        if w.toNat &&& spareBits r ≠ 0 then .fault .hostError
        else busDone (guardRsvd r w (regStore s m r i j w))

end Sys2Proof.Machine
end

