-- ==== Sys2Proof/Machine/Bus.lean ====
section
/-! DEFINITION. Accesses of masters to the interconnect: LD, ST and the atomics of the Tide threads, the host's BAR0 and
BAR2, and the debug master (R326, R330, R377 to R381, R508 to R513, R518, R585, R616, R673 to R675, R708, R709). -/

namespace Sys2Proof.Machine

open Sys2Proof

/-! ### Integrity codes (R585) -/

/-- A transfer fails its integrity code (R585): an event of BUSIC, and a record of kind 0xA1. -/
def State.busIntegrity (s : State) (q : Requester) (a : Nat) : State :=
  (s.leveeEvent 12 (q.m.code * 2 ^ 20 + bits a 25 6)).report 0xA1 (a + q.m.code * 2 ^ 64 + q.colour * 2 ^ 68)

/-! ### One access of a master -/

/-- A read of `n` octets inside one 64-octet block by a requester: the Colour Map, then the target. -/
def State.busRead (s : State) (q : Requester) (a n : Nat) : MemRes × State :=
  match spaceOf a with
  | .regs =>
    match s.check q .read a with
    | (.pass _, s1) => s1.regRead q.m a n
    | (.refuse _ _ _, s1) => (.refused, s1)
    | (.bus, s1) => (.bus, s1)
    | (.lock, s1) => (.locked, s1)
  | _ => s.memRead q .read a n

/-- The input areas of the operations that are outstanding (R385): address and octets. -/
def State.inputAreas (s : State) : List (Nat × Nat) :=
  s.tide.ops.filterMap (fun o =>
    if o.engine = 1 ∧ kderForm o.desc ∧ kderInputs (descOp o.desc) then some (kderIn o.desc, kderLen o.desc)
    else if o.engine = 5 ∧ movOk o.desc ∧ descFlags o.desc % 2 = 0 then some (descField o.desc 16 8, descField o.desc 32 8)
    else none)

/-- A store of `n` octets at `a` reaches the input area of an operation that is outstanding: a host error (R385). -/
def State.storesInput (s : State) (a n : Nat) : Bool := s.inputAreas.any (fun x => decide (a < x.1 + x.2) && decide (x.1 < a + n))

/-- A thread that executes code has its instruction among `n` octets at `a`: to write them is a host error (R329). -/
def State.storesCode (s : State) (a n : Nat) : Bool :=
  s.tide.threads.any (fun e => decide (stRunning ≤ s.tstate e.1) && decide (s.tstate e.1 ≤ stStalled) &&
    decide (a < e.2.pc.toNat + 4) && decide (e.2.pc.toNat < a + n))

/-- A write inside one 64-octet block by a requester. -/
def State.busWrite (s : State) (q : Requester) (a : Nat) (d : Octets) : BusOutcome :=
  match spaceOf a with
  | .regs =>
    match s.check q .write a with
    | (.pass _, s1) => s1.regWrite q.m a d.length (leNat d)
    | (.refuse _ _ _, s1) => .next (.refused, s1)
    | (.bus, s1) => .next (.bus, s1)
    | (.lock, s1) => .next (.locked, s1)
  | _ =>
    match s.memWrite q a d with
    | (.done, s1) => if s.storesInput a d.length ∨ s.storesCode a d.length then .fault .hostError else .next (.done, s1)
    | r => .next r

/-! ### LD, ST, AMOADD, AMOSWAP (R378 to R381) -/

/-- Octets that SIZE names (R378). -/
def sizeOctets (size : Nat) : Nat := 2 ^ (size % 4)

/-- A loaded value extended as SIZE says (R378). -/
def loadExtend (size : Nat) (d : Octets) : Word :=
  let n := leNat d
  match size with
  | 4 => (BitVec.ofNat 8 n).signExtend 64
  | 5 => (BitVec.ofNat 16 n).signExtend 64
  | 6 => (BitVec.ofNat 32 n).signExtend 64
  | _ => BitVec.ofNat 64 n

/-- The address of a memory instruction (R378). -/
def State.memAddr (s : State) (t base : Nat) (offset : BitVec 12) : Nat := (s.g t base + offset.signExtend 64).toNat

/-- The trap of an access that did not go through (R348, R397). -/
def trapOf (r : MemRes) : Nat := match r with | .refused => 0x03 | _ => 0x04

/-- A memory instruction of opcode `opc` issued with the checks that come before the access: SIZE, alignment (R368,
R379, R398), and an integrity code that fails on the way (R585). -/
def State.memIssue (s : State) (opc t rd base : Nat) (offset : BitVec 12) (size : Nat) (legal bic : Bool)
    (access : State → Nat → (State → Nat → State) → Host.Outcome State Fault Refusal) (f : EccFind := .good) :
    Host.Outcome State Fault Refusal :=
  let w := encM opc rd base offset size
  s.issue t w (fun s1 =>
    let a := s1.memAddr t base offset
    if !legal then .next (s1.takeTrap t 0x01 0 w 0)
    else if a % sizeOctets size ≠ 0 then .next (s1.takeTrap t 0x05 0 w a)
    else if bic then .next ((s1.busIntegrity (s1.requester (.thread t)) a).takeTrap t 0x04 0 w a)
    else access s1 a (fun b cause => b.takeTrap t cause 0 w a)) f

/-- A memory instruction ends: the PC moves on, unless what was written has stopped the thread. -/
def State.endAccess (s : State) (t : Nat) : State := if s.issues t then s.step4 t else s

/-- A thread reads `n` octets inside one 64-octet block: memory through the data cache of its core (R328), a register on
the bus. -/
def State.threadRead (s : State) (t a n : Nat) (f : EccFind) : MemRes × State :=
  let q := s.requester (.thread t)
  match spaceOf a with
  | .regs => s.busRead q a n
  | _ => s.cachedRead q .read true (coreOf t) a n f

/-- LD (R378, R379, R330); `ecc`, `fe`: what the checkers meet on its access, and on its fetch. -/
def execBalLd (t : ThreadNo) (rd base : GReg) (offset : BitVec 12) (size : Fin 8) (ecc fe : EccFind) (bic : Bool)
    (s : State) : Host.Outcome State Fault Refusal :=
  s.memIssue 0x40 t rd base offset size (size.val ≠ 7) bic (fun s1 a trap =>
    match s1.threadRead t a (sizeOctets size) ecc with
    | (.data d, s2) => .next (s2.writeStep t rd (loadExtend size d))
    | (r, s2) => .next (trap s2 (trapOf r))) fe

/-- ST (R378, R379, R330, R512): a write that R512 or R590 refuses traps as any refused access of a thread (R513). -/
def execBalSt (t : ThreadNo) (rd base : GReg) (offset : BitVec 12) (size : Fin 8) (bic : Bool) (s : State) :
    Host.Outcome State Fault Refusal :=
  s.memIssue 0x41 t rd base offset size (size.val ≤ 3) bic (fun s1 a trap =>
    match s1.busWrite (s1.requester (.thread t)) a (leBytes (sizeOctets size) (s1.g t rd).toNat) with
    | .next (.done, s2) => .next (s2.endAccess t)
    | .next (r, s2) => .next (trap s2 (trapOf r))
    | .fault f => .fault f
    | .refused r => .refused r)

/-- An atomic (R380): only in Pools; the old doubleword goes to rd and `f` of x[rd] and the old value to memory. -/
def State.atomic (s : State) (opc t rd base : Nat) (offset : BitVec 12) (size : Nat) (ecc : EccFind) (bic : Bool)
    (f : Word → Word → Word) : Host.Outcome State Fault Refusal :=
  s.memIssue opc t rd base offset size (decide (size = 3)) bic (fun s1 a trap =>
    match s1.check (s1.requester (.thread t)) .atomic a with
    | (.pass _, s2) =>
      match (s2.localFind true (coreOf t) a ecc).eccRead a ecc with
      | (true, s3) =>
        let old := BitVec.ofNat 64 (leNat (s3.poolRead a 8))
        if s3.storesInput a 8 ∨ s3.storesCode a 8 then .fault .hostError
        else .next (((s3.poolWrite a (leBytes 8 (f (s3.g t rd) old).toNat)).dropLines a 8).writeStep t rd old)
      | (false, s3) => .next (trap s3 0x04)
    | (.refuse _ _ _, s2) => .next (trap s2 0x03)
    | (_, s2) => .next (trap s2 0x04))

/-- AMOADD (R380). -/
def execBalAmoadd (t : ThreadNo) (rd base : GReg) (offset : BitVec 12) (size : Fin 8) (ecc : EccFind) (bic : Bool)
    (s : State) : Host.Outcome State Fault Refusal :=
  s.atomic 0x42 t rd base offset size ecc bic (fun x old => x + old)

/-- AMOSWAP (R380). -/
def execBalAmoswap (t : ThreadNo) (rd base : GReg) (offset : BitVec 12) (size : Fin 8) (ecc : EccFind) (bic : Bool)
    (s : State) : Host.Outcome State Fault Refusal :=
  s.atomic 0x43 t rd base offset size ecc bic (fun x _ => x)

/-! ### The host (R616, R673 to R675) -/

/-- A host access, or a part of it, that fails at an address (R675). -/
def State.hostFail (s : State) (a : Nat) : State :=
  let s1 := if s.is HIF_STAT.HOST_REF then s else (s.setReg .HIF_HERR (BitVec.ofNat 64 a)).mark HIF_STAT.HOST_REF
  s1.raiseCause 3

/-- The host's reads in parts: the octets, or the address of the first part that fails. -/
def State.hostParts (s : State) (q : Requester) (bic : Option Nat) : Nat → List (Nat × Nat) → Except Nat Octets × State
  | _, [] => (.ok [], s)
  | k, (a, n) :: t =>
    if bic = some k then (.error a, s.busIntegrity q a)
    else match s.busRead q a n with
      | (.data d, s1) =>
        match s1.hostParts q bic (k + 1) t with
        | (.ok e, s2) => (.ok (d ++ e), s2)
        | r => r
      | (_, s1) => (.error a, s1)

/-- A host read of parts (R675): the data, or Completer Abort. -/
def State.hostRead (s : State) (bic : Option Nat) (l : List (Nat × Nat)) : State :=
  match s.hostParts (s.requester .host) bic 0 l with
  | (.ok d, s1) => s1.emit (.readReply .host (some d))
  | (.error a, s1) => (s1.hostFail a).emit (.readReply .host none)

/-- A host write of parts (R675): each part that passes is written, and each that fails is dropped. -/
def State.hostWrite (s : State) (bic : Option Nat) : Nat → List (Nat × Nat) → Octets → Host.Outcome State Fault Refusal
  | _, [], _ => .next s
  | k, (a, n) :: t, d =>
    if bic = some k then ((s.busIntegrity (s.requester .host) a).hostFail a).hostWrite bic (k + 1) t (d.drop n)
    else match s.busWrite (s.requester .host) a (d.take n) with
      | .next (.done, s1) => s1.hostWrite bic (k + 1) t (d.drop n)
      | .next (_, s1) => (s1.hostFail a).hostWrite bic (k + 1) t (d.drop n)
      | .fault f => .fault f
      | .refused r => .refused r

/-- The interconnect address of a host access (R673, R377). -/
def State.hostAddr (s : State) (bar2 : Bool) (o : Nat) : Nat :=
  if bar2 then 0x1000000000 + s.rd HIF_BAR2WIN.WIN * 2 ^ s.bar2Log + o else o

/-- The access lies inside the BAR (R673). -/
def State.inBar (s : State) (bar2 : Bool) (o n : Nat) : Bool :=
  decide (0 < n) && decide (o + n ≤ (if bar2 then 2 ^ s.bar2Log else 0x4000000))

/-- What Power-On Check lets the host do before DONE (R616, R675): reads of the GBL_ block from step 2 on; every other
access fails. -/
def State.hostBarred (s : State) (bar2 write : Bool) (o : Nat) : Bool :=
  !s.is GBL_POC.DONE && (bar2 || write || decide (0x100000 ≤ o))

/-- HOST_ACCESS (R675): a read, or a write of `data`, of `n` octets at a BAR0 or BAR2 offset; `bic`: the part whose
integrity code fails. -/
def execHostAccess (bar2 : Bool) (offset : BitVec 36) (n : Nat) (data : Option Octets) (bic : Option Nat) (s : State) :
    Host.Outcome State Fault Refusal :=
  let o := offset.toNat
  let a := s.hostAddr bar2 o
  if s.backup ∨ !s.inBar bar2 o n then .next s
  else if s.hostBarred bar2 data.isSome o ∨ (bar2 = false ∧ ((n ≠ 4 ∧ n ≠ 8) ∨ o % n ≠ 0)) then
    .next (if data.isSome then s.hostFail a else (s.hostFail a).emit (.readReply .host none))
  else if !s.is GBL_POC.DONE ∧ s.rd GBL_POC.STAGE < 2 then .next s
  else match data with
    | none => .next (s.hostRead bic (pieces (n + 1) a n))
    | some d => s.hostWrite bic 0 (pieces (n + 1) a n) (slice d 0 n)

/-! ### The debug master (R510, R518) -/

/-- What the debug port receives for a read (R518): zeros for one that is not granted. -/
def State.debugReply (s : State) (r : MemRes) (n : Nat) : State :=
  match r with
  | .data d => s.emit (.readReply .debug (some d))
  | .bus => s.emit (.readReply .debug none)
  | _ => s.emit (.readReply .debug (some (leBytes n 0)))

/-- DEBUG_ACCESS (R518): a read, or a write of `data`, of 1, 2, 4 or 8 octets, aligned. -/
def execDebugAccess (addr : Word) (n : Nat) (data : Option Word) (s : State) : Host.Outcome State Fault Refusal :=
  let a := addr.toNat
  if s.backup ∨ (n ≠ 1 ∧ n ≠ 2 ∧ n ≠ 4 ∧ n ≠ 8) ∨ a % n ≠ 0 then .next s
  else match data with
    | none =>
      let (r, s1) := s.busRead (s.requester .debug) a n
      .next (s1.debugReply r n)
    | some v =>
      match s.busWrite (s.requester .debug) a (leBytes n v.toNat) with
      | .next (_, s1) => .next s1
      | .fault f => .fault f
      | .refused r => .refused r

/-! ### The rows of the register map (R11, R708, R709) -/

/-- A read by a master, or nothing for a write, completes with zeros. -/
def State.zeroReply (s : State) (m : Master) (write : Bool) (n : Nat) : State :=
  if write then s else s.emit (.readReply m (some (leBytes n 0)))

/-- REGISTER_WRITE (R11 to R13): a write of a master to a register that it reaches. -/
def execRegisterWrite (m : Master) (offset : BitVec 26) (wide : Bool) (v : Word) (s : State) :
    Host.Outcome State Fault Refusal :=
  match s.regWrite m offset.toNat (if wide then 8 else 4) v.toNat with
  | .next (_, s1) => .next s1
  | .fault f => .fault f
  | .refused r => .refused r

/-- An offset at which an access reads 0 or is dropped: an unlisted one, or, for a write, a read-only window (R709,
R720). -/
def unlisted (o : Nat) (write : Bool) : Bool :=
  decide (o < 0x01A00000) && (match Reg.locate o with
    | none => true
    | some (r, _) => write && isWindow r)

/-- UNLISTED_OFFSET_ACCESS (R709): a read returns 0, and a write is dropped. -/
def execUnlistedOffsetAccess (m : Master) (offset : BitVec 26) (wide write : Bool) (s : State) :
    Host.Outcome State Fault Refusal :=
  if unlisted offset.toNat write then .next (s.zeroReply m write (if wide then 8 else 4)) else .next s

/-- A bus error as a master sees it (R708, R348, R675); the word of a thread's instruction is a free value here. -/
def State.busError (s : State) (m : Master) (a : Nat) (write : Bool) : State :=
  match m with
  | .host => if write then s.hostFail a else (s.hostFail a).emit (.readReply .host none)
  | .thread t =>
    if s.issues t then
      let (w, s1) := s.draw
      s1.takeTrap t 0x04 0 (w.toNat % 2 ^ 32) a
    else s
  | m => if write then s else s.emit (.readReply m none)

/-- UNMAPPED_BAR0_ACCESS (R708): offsets from 0x01A0_0000 to 0x03FF_FFFF return a bus error. -/
def execUnmappedBar0Access (m : Master) (offset : BitVec 26) (write : Bool) (s : State) :
    Host.Outcome State Fault Refusal :=
  if 0x01A00000 ≤ offset.toNat then .next (s.busError m offset.toNat write) else .next s

end Sys2Proof.Machine
end

