-- ==== Sys2Proof/Machine/Engines.lean ====
section
/-! DEFINITION. MOV.M, the completion of engine operations, and the order of two operations on one object (R24, R333,
R334, R385, R387, R392 to R394). -/

namespace Sys2Proof.Machine

open Sys2Proof

/-! ### Areas of engines (R377, R710) -/

/-- An engine reads one piece of an area: a register only by an access of 4 or 8 octets. -/
def State.pieceRead (s : State) (q : Requester) (a n : Nat) : MemRes × State :=
  if n ≤ 8 then s.busRead q a n else s.areaRead q a n

/-- An engine writes one piece of an area. Its own writes are no stores into an input area (R385). -/
def State.pieceWrite (s : State) (q : Requester) (a : Nat) (d : Octets) : BusOutcome :=
  match spaceOf a with
  | .regs => s.busWrite q a d
  | _ => .next (s.areaWrite q a d)

/-! ### MOV.M (R393, R394) -/

/-- MOV.M over destination pieces: octets written so far and the status it ends with. `src` maps a destination address
to its source. -/
def State.movePieces (s : State) (q : Requester) (fill : Option Octets) (src dst : Nat) :
    List (Nat × Nat) → Nat → Host.Outcome ((Nat × Nat) × State) Fault Refusal
  | [], done => .next ((done, 0), s)
  | (a, n) :: t, done =>
    let (r, s1) := match fill with
      | some p => (MemRes.data (fillOctets p n), s)
      | none => s.pieceRead q (src + (a - dst)) n
    match r with
    | .data d =>
      match s1.pieceWrite q a d with
      | .next (.done, s2) => s2.movePieces q fill src dst t (done + n)
      | .next (_, s2) => .next ((done, 3), s2)
      | .fault f => .fault f
      | .refused f => .refused f
    | _ => .next ((done, 2), s1)

/-- MOV.M carried out (R394): areas that overlap are a host error. -/
def movAct (o : EngineOp) (s : State) : Host.Outcome (EngineOp × State) Fault Refusal :=
  if !movOk o.desc then .next (o.fail 1, s)
  else if movOverlaps o.desc then .fault .hostError
  else
    let src := descField o.desc 16 8
    let dst := descField o.desc 24 8
    let n := descField o.desc 32 8
    let fill := if descFlags o.desc % 2 = 1 then some (slice o.desc 40 8) else none
    match s.movePieces o.requester fill src dst (pieces (n + 1) dst n) 0 with
    | .next ((w, st), s1) => .next ({ o with acted := true, result := w, status := st }, s1)
    | .fault f => .fault f
    | .refused f => .refused f

/-- MOV_M_COPY (R394). -/
def execBalMovMCopy (t : ThreadNo) (tag : BitVec 8) (rs : GReg) (s : State) : Host.Outcome State Fault Refusal :=
  s.engineTry 0x54 t tag.toNat rs (fun d => decide (descFlags d % 2 = 0)) movAct

/-- MOV_M_FILL (R394): the destination is filled with PATTERN. -/
def execBalMovMFill (t : ThreadNo) (tag : BitVec 8) (rs : GReg) (s : State) : Host.Outcome State Fault Refusal :=
  s.engineTry 0x54 t tag.toNat rs (fun d => decide (descFlags d % 2 = 1)) movAct

/-! ### Completion (R333, R387) -/

/-- A result area written: output data at RES_ADDR + 8, then the completion word at RES_ADDR (R387). -/
def State.writeResult (s : State) (o : EngineOp) : Host.Outcome (Bool × State) Fault Refusal :=
  let a := descRes o.desc
  if a = 0 ∨ a % 8 ≠ 0 then .next (true, s)
  else
    match (if o.out = [] then .next (.done, s) else s.pieceWrite o.requester (a + 8) o.out : BusOutcome) with
    | .next (.done, s1) =>
      match s1.pieceWrite o.requester a (leBytes 8 o.word.toNat) with
      | .next (.done, s2) => .next (true, s2)
      | .next (_, s2) => .next (false, s2)
      | .fault f => .fault f
      | .refused f => .refused f
    | .next (_, s1) => .next (false, s1)
    | .fault f => .fault f
    | .refused f => .refused f

/-- The tag of an operation done (R333); a discarded completion sets no tag. -/
def State.tagDone (s : State) (o : EngineOp) : State :=
  if o.discard then s
  else
    let x := s.thread o.thread
    (s.setThread o.thread { x with
      tags := Tbl.set .idle x.tags o.tag (.done o.word), doneOrder := x.doneOrder ++ [o.tag] }).wakeOnTag o.thread o.tag
      o.word

/-! ### The order of R24 -/

/-- Two operations concern one object. -/
def sameObject (a b : EngineOp) : Bool := a.objects.any (fun x => b.objects.contains x) || springConflict a b

/-- A command of the register path that waits arrived before an operation on its object (R24). -/
def HeldCmd.blocks (h : HeldCmd) (o : EngineOp) : Bool :=
  h.objects.any (fun x => o.objects.contains x) && !h.waits.contains (o.thread, o.tag)

/-- An operation waits for an earlier one on its object (R24). -/
def State.opBlocked (s : State) (o : EngineOp) : Bool :=
  (s.tide.ops.takeWhile (fun x => decide (x ≠ o))).any (sameObject o) ||
  s.basin.held.any (fun h => h.blocks o) || s.delta.held.any (fun h => h.blocks o)

/-- A command that waits for an operation no longer does. -/
def HeldCmd.released (h : HeldCmd) (t tag : Nat) : HeldCmd := { h with waits := h.waits.erase (t, tag) }

/-- What the register paths do once an operation has completed: a command that waited for it alone completes too. -/
def State.releaseHeld (s : State) (t tag : Nat) : State :=
  let s1 := match s.basin.held.map (fun h => h.released t tag) with
    | none => s
    | some h =>
      if h.waits = [] then State.bsnFinish { s with basin := { s.basin with held := none } } h
      else { s with basin := { s.basin with held := some h } }
  match s1.delta.held.map (fun h => h.released t tag) with
  | none => s1
  | some h =>
    if h.waits = [] then State.dltFinish { s1 with delta := { s1.delta with held := none } } h
    else { s1 with delta := { s1.delta with held := some h } }

/-- A slot of a core is free: the threads Stalled for one run, and issue their operation again (R332). -/
def State.releaseStalled (s : State) (c : Nat) : State :=
  (List.range 8).foldl (fun (a : State) h =>
    if a.tstate (8 * c + h) = stStalled then a.setTstate (8 * c + h) stRunning else a) s

/-- An operation completes (R333, R387, R388): its results are written, then its tag is done and its slot free, and a
command of a register path that waited for it goes on. A result area that cannot be written shows in AREA. -/
def State.completeOp (s : State) (o : EngineOp) : Host.Outcome State Fault Refusal :=
  match s.writeResult o with
  | .next (ok, s1) =>
    let s2 := State.releaseStalled { s1 with tide := { s1.tide with ops := s1.tide.ops.erase o } } (coreOf o.thread)
    .next ((s2.tagDone (if ok then o else { o with area := 2 })).releaseHeld o.thread o.tag)
  | .fault f => .fault f
  | .refused f => .refused f

/-- ENGINE_OP_COMPLETE (R333): the oldest operation of the thread and tag, once its engine has acted and no earlier
operation on its object is left. -/
def execEngineOpComplete (t : ThreadNo) (tag : BitVec 8) (s : State) : Host.Outcome State Fault Refusal :=
  match s.tide.ops.find? (fun o => decide (o.thread = t.val) && decide (o.tag = tag.toNat)) with
  | some o => if o.acted ∧ !s.opBlocked o then s.completeOp o else .next s
  | none => .next s

/-- The key that stands in the slot of a handle stands in another slot too, under the same parent: two keys have been
derived from one label, a host error (R100, R249). -/
def State.twinLabel (s : State) (h : Nat) : Bool :=
  let x := s.kslot (handleClass h) (handleIndex h)
  s.keys.slots.any (fun e => decide (e.1 ≠ Sys2Proof.Machine.slotKey (handleClass h) (handleIndex h)) && e.2.valid &&
    decide (e.2.parent = x.parent) && decide (e.2.short = x.short) && decide (e.2.key = x.key))

/-- SPRING_OP_COMPLETE (R260, R263): the operation that runs on a page ends; none does during a supply dip. `records`:
Cistern records that it finds uncorrectable (R278). -/
def execSpringOpComplete (k : PageNo) (records : List (Fin 257)) (s : State) : Host.Outcome State Fault Refusal :=
  match s.pageRuns k with
  | none => .next s
  | some o =>
    if s.is KST_STAT.DIP then .next s
    else
      let s0 := records.foldl (fun (a : State) (n : Fin 257) => a.cisternBad n.val) s
      let (o1, s1) := State.kderRun { s0 with tide := { s0.tide with ops := s0.tide.ops.erase o } } o
      if descOp o.desc = 1 ∧ o1.status = 0 ∧ s1.twinLabel (descObject o.desc) then .fault .hostError
      else s1.completeOp o1

end Sys2Proof.Machine
end

