-- ==== Sys2Proof/Machine/Dispatch.lean ====
section
/-! DEFINITION. One arm for each command: its meaning. -/

namespace Sys2Proof.Machine

open Sys2Proof

/-- The effect of a command on everything but the queue. -/
def exec (i : Instr) (s : State) : Host.Outcome State Fault Refusal :=
  match i with
  | .registerWrite m offset wide v => Sys2Proof.Machine.execRegisterWrite m offset wide v s
  | .unlistedOffsetAccess m offset wide write => Sys2Proof.Machine.execUnlistedOffsetAccess m offset wide write s
  | .unmappedBar0Access m offset write => Sys2Proof.Machine.execUnmappedBar0Access m offset write s
  | .weiGrpCfgWrite g v => Sys2Proof.Machine.execWeiGrpCfgWrite g v s
  | .groupDrainEnd g => Sys2Proof.Machine.execGroupDrainEnd g s
  | .clientFrameRx p f flips bad => Sys2Proof.Machine.execClientFrameRx p f flips bad s
  | .frameEnqueue q => Sys2Proof.Machine.execFrameEnqueue q s
  | .dequeue g sue bue => Sys2Proof.Machine.execDequeue g sue bue s
  | .egressFrameRead g flips bue late => Sys2Proof.Machine.execEgressFrameRead g flips bue late s
  | .egressFrameDelivered g => Sys2Proof.Machine.execEgressFrameDelivered g s
  | .ingressFrameRx c octets sue finds => Sys2Proof.Machine.execIngressFrameRx c octets sue finds s
  | .icvVerdict g => Sys2Proof.Machine.execIcvVerdict g s
  | .learnRequest flips => Sys2Proof.Machine.execLearnRequest flips s
  | .gaugeFrameStart g stale now => Sys2Proof.Machine.execGaugeFrameStart g stale now s
  | .gaugeEventDue sel r => Sys2Proof.Machine.execGaugeEventDue sel r s
  | .epochStart g now => Sys2Proof.Machine.execEpochStart g now s
  | .gaugeWordRx g word mfas offset => Sys2Proof.Machine.execGaugeWordRx g word mfas offset s
  | .gauSnapctlTrig v => Sys2Proof.Machine.execGauSnapctlTrig v s
  | .gauRecordWrite v => Sys2Proof.Machine.execGauRecordWrite v s
  | .gauReadLatch m g wide => Sys2Proof.Machine.execGauReadLatch m g wide s
  | .ivDescriptorAccept g d bad => Sys2Proof.Machine.execIvDescriptorAccept g d bad s
  | .keystreamReady g d c => Sys2Proof.Machine.execKeystreamReady g d c s
  | .raceBlock k d chan m flags block sq taken cuts now => Sys2Proof.Machine.execRaceBlock k d chan m flags block sq taken cuts now s
  | .rcCtlTest k => Sys2Proof.Machine.execRcCtlTest k s
  | .rcCtlFlagClr k => Sys2Proof.Machine.execRcCtlFlagClr k s
  | .raceTestDone k pass d unit => Sys2Proof.Machine.execRaceTestDone k pass d unit s
  | .raceWakeDone k pass d unit => Sys2Proof.Machine.execRaceWakeDone k pass d unit s
  | .raceGateClose k => Sys2Proof.Machine.execRaceGateClose k s
  | .weirDispute k => Sys2Proof.Machine.execWeirDispute k s
  | .raceJudged k data again eg ing cuts => Sys2Proof.Machine.execRaceJudged k data again eg ing cuts s
  | .failoverCkptLoaded g bad0 bad1 lost => Sys2Proof.Machine.execFailoverCkptLoaded g bad0 bad1 lost s
  | .leaseGrant g => Sys2Proof.Machine.execLeaseGrant g s
  | .leaseLapse g eg ing cuts now => Sys2Proof.Machine.execLeaseLapse g eg ing cuts now s
  | .sampleCheck k d good again eg ing cuts => Sys2Proof.Machine.execSampleCheck k d good again eg ing cuts s
  | .twinBlockSettle c d r passed again cuts => Sys2Proof.Machine.execTwinBlockSettle c d r passed again cuts s
  | .channelJoin c => Sys2Proof.Machine.execChannelJoin c s
  | .eddyShelterEmpty => Sys2Proof.Machine.execEddyShelterEmpty s
  | .weiFailclrWrite v => Sys2Proof.Machine.execWeiFailclrWrite v s
  | .cardGrant v now => Sys2Proof.Machine.execCardGrant v now s
  | .cardLeaseExpire cuts parts now => Sys2Proof.Machine.execCardLeaseExpire cuts parts now s
  | .mirrorRecordRx o => Sys2Proof.Machine.execMirrorRecordRx o s
  | .l1TxFrame c payload bad => Sys2Proof.Machine.execL1TxFrame c payload bad s
  | .l1RxFrame c r bad => Sys2Proof.Machine.execL1RxFrame c r bad s
  | .countWordRx c word check last => Sys2Proof.Machine.execCountWordRx c word check last s
  | .shortTagVerdict c rel l => Sys2Proof.Machine.execShortTagVerdict c rel l s
  | .longTagVerdict c rel l => Sys2Proof.Machine.execLongTagVerdict c rel l s
  | .quarantineEnd c resume => Sys2Proof.Machine.execQuarantineEnd c resume s
  | .retirementComplete c => Sys2Proof.Machine.execRetirementComplete c s
  | .l1ChannelCloseEnd c => Sys2Proof.Machine.execL1ChannelCloseEnd c s
  | .frmCooposWrite g v => Sys2Proof.Machine.execFrmCooposWrite g v s
  | .frmL1ctlWrite g v => Sys2Proof.Machine.execFrmL1ctlWrite g v s
  | .frmL1holdWrite g v => Sys2Proof.Machine.execFrmL1holdWrite g v s
  | .l1Read g slot => Sys2Proof.Machine.execL1Read g slot s
  | .l1Write g slot => Sys2Proof.Machine.execL1Write g slot s
  | .l1Switch g slot => Sys2Proof.Machine.execL1Switch g slot s
  | .l1Retire g slot => Sys2Proof.Machine.execL1Retire g slot s
  | .qclr g slot => Sys2Proof.Machine.execQclr g slot s
  | .l1CmdInvalid g op slot => Sys2Proof.Machine.execL1CmdInvalid g op slot s
  | .secyRd idx ue => Sys2Proof.Machine.execSecyRd idx ue s
  | .secyWr idx => Sys2Proof.Machine.execSecyWr idx s
  | .scRd idx ue => Sys2Proof.Machine.execScRd idx ue s
  | .scWr idx => Sys2Proof.Machine.execScWr idx s
  | .saRd idx ue => Sys2Proof.Machine.execSaRd idx ue s
  | .saWr idx => Sys2Proof.Machine.execSaWr idx s
  | .chRd idx ue => Sys2Proof.Machine.execChRd idx ue s
  | .chWr idx => Sys2Proof.Machine.execChWr idx s
  | .sciAdd idx => Sys2Proof.Machine.execSciAdd idx s
  | .sciDel idx => Sys2Proof.Machine.execSciDel idx s
  | .sciFind idx => Sys2Proof.Machine.execSciFind idx s
  | .scySwitch idx => Sys2Proof.Machine.execScySwitch idx s
  | .scyDisable idx => Sys2Proof.Machine.execScyDisable idx s
  | .scyCmdInvalid op idx => Sys2Proof.Machine.execScyCmdInvalid op idx s
  | .scDrainEnd sc => Sys2Proof.Machine.execScDrainEnd sc s
  | .saDrainEnd sa => Sys2Proof.Machine.execSaDrainEnd sa s
  | .kderDerive t tag rs => Sys2Proof.Machine.execKderDerive t tag rs s
  | .kderEnc t tag rs => Sys2Proof.Machine.execKderEnc t tag rs s
  | .kderDec t tag rs => Sys2Proof.Machine.execKderDec t tag rs s
  | .cmacGen t tag rs => Sys2Proof.Machine.execCmacGen t tag rs s
  | .cmacChk t tag rs => Sys2Proof.Machine.execCmacChk t tag rs s
  | .kderWrap t tag rs => Sys2Proof.Machine.execKderWrap t tag rs s
  | .kderUnwrap t tag rs => Sys2Proof.Machine.execKderUnwrap t tag rs s
  | .mkaDerive t tag rs => Sys2Proof.Machine.execMkaDerive t tag rs s
  | .sakUnwrap t tag rs => Sys2Proof.Machine.execSakUnwrap t tag rs s
  | .sakGen t tag rs => Sys2Proof.Machine.execSakGen t tag rs s
  | .icvGen t tag rs => Sys2Proof.Machine.execIcvGen t tag rs s
  | .icvChk t tag rs => Sys2Proof.Machine.execIcvChk t tag rs s
  | .unrexInit t tag rs => Sys2Proof.Machine.execUnrexInit t tag rs s
  | .unrexResp t tag rs => Sys2Proof.Machine.execUnrexResp t tag rs s
  | .unrexFinish t tag rs => Sys2Proof.Machine.execUnrexFinish t tag rs s
  | .unrexConfirm t tag rs => Sys2Proof.Machine.execUnrexConfirm t tag rs s
  | .unrexCancel t tag rs => Sys2Proof.Machine.execUnrexCancel t tag rs s
  | .unrexSessionExpire now => Sys2Proof.Machine.execUnrexSessionExpire now s
  | .attest t tag rs => Sys2Proof.Machine.execAttest t tag rs s
  | .cekRead t tag rs => Sys2Proof.Machine.execCekRead t tag rs s
  | .dsImport t tag rs => Sys2Proof.Machine.execDsImport t tag rs s
  | .cakImport t tag rs => Sys2Proof.Machine.execCakImport t tag rs s
  | .cakRemove t tag rs => Sys2Proof.Machine.execCakRemove t tag rs s
  | .kderInvalid t tag rs => Sys2Proof.Machine.execKderInvalid t tag rs s
  | .springOpComplete k records => Sys2Proof.Machine.execSpringOpComplete k records s
  | .springPageDispatch => Sys2Proof.Machine.execSpringPageDispatch s
  | .sprPgownWrite k v => Sys2Proof.Machine.execSprPgownWrite k v s
  | .sprPageOwnerTakeover k => Sys2Proof.Machine.execSprPageOwnerTakeover k s
  | .sprPageForeignAccess k m n o write => Sys2Proof.Machine.execSprPageForeignAccess k m n o write s
  | .kstInfo => Sys2Proof.Machine.execKstInfo s
  | .kstDestroy => Sys2Proof.Machine.execKstDestroy s
  | .kstOrphan => Sys2Proof.Machine.execKstOrphan s
  | .kstSetuse => Sys2Proof.Machine.execKstSetuse s
  | .kstCtrRead => Sys2Proof.Machine.execKstCtrRead s
  | .kstCtrInc => Sys2Proof.Machine.execKstCtrInc s
  | .kstCmdInvalid seven => Sys2Proof.Machine.execKstCmdInvalid seven s
  | .orphanSweepEnd => Sys2Proof.Machine.execOrphanSweepEnd s
  | .balAdd t rd rs1 rs2 => Sys2Proof.Machine.execBalAdd t rd rs1 rs2 s
  | .balSub t rd rs1 rs2 => Sys2Proof.Machine.execBalSub t rd rs1 rs2 s
  | .balAnd t rd rs1 rs2 => Sys2Proof.Machine.execBalAnd t rd rs1 rs2 s
  | .balOr t rd rs1 rs2 => Sys2Proof.Machine.execBalOr t rd rs1 rs2 s
  | .balXor t rd rs1 rs2 => Sys2Proof.Machine.execBalXor t rd rs1 rs2 s
  | .balSll t rd rs1 rs2 => Sys2Proof.Machine.execBalSll t rd rs1 rs2 s
  | .balSrl t rd rs1 rs2 => Sys2Proof.Machine.execBalSrl t rd rs1 rs2 s
  | .balSra t rd rs1 rs2 => Sys2Proof.Machine.execBalSra t rd rs1 rs2 s
  | .balMul t rd rs1 rs2 => Sys2Proof.Machine.execBalMul t rd rs1 rs2 s
  | .balMulhu t rd rs1 rs2 => Sys2Proof.Machine.execBalMulhu t rd rs1 rs2 s
  | .balSlt t rd rs1 rs2 => Sys2Proof.Machine.execBalSlt t rd rs1 rs2 s
  | .balSltu t rd rs1 rs2 => Sys2Proof.Machine.execBalSltu t rd rs1 rs2 s
  | .balSltw t rd rs1 rs2 => Sys2Proof.Machine.execBalSltw t rd rs1 rs2 s
  | .balClz t rd rs1 => Sys2Proof.Machine.execBalClz t rd rs1 s
  | .balPopc t rd rs1 => Sys2Proof.Machine.execBalPopc t rd rs1 s
  | .balAddi t rd rs1 imm => Sys2Proof.Machine.execBalAddi t rd rs1 imm s
  | .balAndi t rd rs1 imm => Sys2Proof.Machine.execBalAndi t rd rs1 imm s
  | .balOri t rd rs1 imm => Sys2Proof.Machine.execBalOri t rd rs1 imm s
  | .balXori t rd rs1 imm => Sys2Proof.Machine.execBalXori t rd rs1 imm s
  | .balShi t rd rs1 imm => Sys2Proof.Machine.execBalShi t rd rs1 imm s
  | .balSlli t rd rs1 imm => Sys2Proof.Machine.execBalSlli t rd rs1 imm s
  | .balSrli t rd rs1 imm => Sys2Proof.Machine.execBalSrli t rd rs1 imm s
  | .balSrai t rd rs1 imm => Sys2Proof.Machine.execBalSrai t rd rs1 imm s
  | .balBeq t rd rs1 imm => Sys2Proof.Machine.execBalBeq t rd rs1 imm s
  | .balBne t rd rs1 imm => Sys2Proof.Machine.execBalBne t rd rs1 imm s
  | .balBlt t rd rs1 imm => Sys2Proof.Machine.execBalBlt t rd rs1 imm s
  | .balBge t rd rs1 imm => Sys2Proof.Machine.execBalBge t rd rs1 imm s
  | .balBltu t rd rs1 imm => Sys2Proof.Machine.execBalBltu t rd rs1 imm s
  | .balBgeu t rd rs1 imm => Sys2Proof.Machine.execBalBgeu t rd rs1 imm s
  | .balJal t rd hi imm => Sys2Proof.Machine.execBalJal t rd hi imm s
  | .balJalr t rd rs1 imm => Sys2Proof.Machine.execBalJalr t rd rs1 imm s
  | .balTrap t imm => Sys2Proof.Machine.execBalTrap t imm s
  | .balLd t rd base offset size ecc fe bic => Sys2Proof.Machine.execBalLd t rd base offset size ecc fe bic s
  | .balSt t rd base offset size bic => Sys2Proof.Machine.execBalSt t rd base offset size bic s
  | .balAmoadd t rd base offset size ecc bic => Sys2Proof.Machine.execBalAmoadd t rd base offset size ecc bic s
  | .balAmoswap t rd base offset size ecc bic => Sys2Proof.Machine.execBalAmoswap t rd base offset size ecc bic s
  | .balEnd t rs1 => Sys2Proof.Machine.execBalEnd t rs1 s
  | .balEndDone t => Sys2Proof.Machine.execBalEndDone t s
  | .balFence t => Sys2Proof.Machine.execBalFence t s
  | .balFenceDone t => Sys2Proof.Machine.execBalFenceDone t s
  | .balFenceC t rd => Sys2Proof.Machine.execBalFenceC t rd s
  | .balFenceCDone t => Sys2Proof.Machine.execBalFenceCDone t s
  | .balOrderSet t rd rs1 => Sys2Proof.Machine.execBalOrderSet t rd rs1 s
  | .balReseal t rd rs1 => Sys2Proof.Machine.execBalReseal t rd rs1 s
  | .balResealDone t further => Sys2Proof.Machine.execBalResealDone t further s
  | .balRds t rd sel => Sys2Proof.Machine.execBalRds t rd sel s
  | .balIllegalInstruction t w => Sys2Proof.Machine.execBalIllegalInstruction t w s
  | .balGread t rd sel => Sys2Proof.Machine.execBalGread t rd sel s
  | .balWaitg t rd rs1 sel => Sys2Proof.Machine.execBalWaitg t rd rs1 sel s
  | .balWaitgDue t => Sys2Proof.Machine.execBalWaitgDue t s
  | .balAtg t rd rs1 rs2 sel => Sys2Proof.Machine.execBalAtg t rd rs1 rs2 sel s
  | .balGadv t rd rs1 rs2 => Sys2Proof.Machine.execBalGadv t rd rs1 rs2 s
  | .balGdist t rd rs1 rs2 => Sys2Proof.Machine.execBalGdist t rd rs1 rs2 s
  | .balWaitc t rd tag => Sys2Proof.Machine.execBalWaitc t rd tag s
  | .balWaitcAny t rd => Sys2Proof.Machine.execBalWaitcAny t rd s
  | .balMovMCopy t tag rs => Sys2Proof.Machine.execBalMovMCopy t tag rs s
  | .balMovMFill t tag rs => Sys2Proof.Machine.execBalMovMFill t tag rs s
  | .balCtrd t tag rs bad => Sys2Proof.Machine.execBalCtrd t tag rs bad s
  | .balCtrdClear t tag rs bad => Sys2Proof.Machine.execBalCtrdClear t tag rs bad s
  | .engineOpInvalid opc t tag rs => Sys2Proof.Machine.execEngineOpInvalid opc t tag rs s
  | .engineOpComplete t tag => Sys2Proof.Machine.execEngineOpComplete t tag s
  | .tidThrcfgWrite m t v => Sys2Proof.Machine.execTidThrcfgWrite m t v s
  | .threadStart t => Sys2Proof.Machine.execThreadStart t s
  | .threadStop t => Sys2Proof.Machine.execThreadStop t s
  | .threadStopped t => Sys2Proof.Machine.execThreadStopped t s
  | .clrtrap m t => Sys2Proof.Machine.execClrtrap m t s
  | .trapCleared t => Sys2Proof.Machine.execTrapCleared t s
  | .tideReset v => Sys2Proof.Machine.execTideReset v s
  | .icacheInvalidate v => Sys2Proof.Machine.execIcacheInvalidate v s
  | .eventOvfRecord => Sys2Proof.Machine.execEventOvfRecord s
  | .handlerDispatch n => Sys2Proof.Machine.execHandlerDispatch n s
  | .atgBlockDispatch core => Sys2Proof.Machine.execAtgBlockDispatch core s
  | .handlerLimitTrap t now => Sys2Proof.Machine.execHandlerLimitTrap t now s
  | .ringDescriptorDispatch r => Sys2Proof.Machine.execRingDescriptorDispatch r s
  | .deltaLookup p => Sys2Proof.Machine.execDeltaLookup p s
  | .deltaAdd p => Sys2Proof.Machine.execDeltaAdd p s
  | .deltaUpdate p => Sys2Proof.Machine.execDeltaUpdate p s
  | .deltaDelete p => Sys2Proof.Machine.execDeltaDelete p s
  | .deltaRead p flips => Sys2Proof.Machine.execDeltaRead p flips s
  | .deltaClear p => Sys2Proof.Machine.execDeltaClear p s
  | .deltaFlush p => Sys2Proof.Machine.execDeltaFlush p s
  | .flushEnd => Sys2Proof.Machine.execFlushEnd s
  | .deltaCmdInvalid p => Sys2Proof.Machine.execDeltaCmdInvalid p s
  | .dltHseedWrite v => Sys2Proof.Machine.execDltHseedWrite v s
  | .eddyScanPassStart => Sys2Proof.Machine.execEddyScanPassStart s
  | .eddyScanBucket flips => Sys2Proof.Machine.execEddyScanBucket flips s
  | .queueRead p ue => Sys2Proof.Machine.execQueueRead p ue s
  | .queueConfig p => Sys2Proof.Machine.execQueueConfig p s
  | .queueDisable p => Sys2Proof.Machine.execQueueDisable p s
  | .queueDrainEnd q => Sys2Proof.Machine.execQueueDrainEnd q s
  | .nodeRead p ue => Sys2Proof.Machine.execNodeRead p ue s
  | .nodeConfig p => Sys2Proof.Machine.execNodeConfig p s
  | .nodeDisable p => Sys2Proof.Machine.execNodeDisable p s
  | .policerRead p ue => Sys2Proof.Machine.execPolicerRead p ue s
  | .policerConfig p => Sys2Proof.Machine.execPolicerConfig p s
  | .policerDisable p => Sys2Proof.Machine.execPolicerDisable p s
  | .bsnCmdInvalid p shp op => Sys2Proof.Machine.execBsnCmdInvalid p shp op s
  | .bsnPoolWrite v => Sys2Proof.Machine.execBsnPoolWrite v s
  | .poolReady => Sys2Proof.Machine.execPoolReady s
  | .bsnResWrite g v => Sys2Proof.Machine.execBsnResWrite g v s
  | .culvertRead p sec lo n flips find => Sys2Proof.Machine.execCulvertRead p sec lo n flips find s
  | .culvertWrite p sec d find => Sys2Proof.Machine.execCulvertWrite p sec d find s
  | .culvertPartialWrite p sec lo d flips find => Sys2Proof.Machine.execCulvertPartialWrite p sec lo d flips find s
  | .scrubSector flips => Sys2Proof.Machine.execScrubSector flips s
  | .culRngWrite r v => Sys2Proof.Machine.execCulRngWrite r v s
  | .rangeReady r => Sys2Proof.Machine.execRangeReady r s
  | .rangeDisableEnd r => Sys2Proof.Machine.execRangeDisableEnd r s
  | .culCtlWrite v => Sys2Proof.Machine.execCulCtlWrite v s
  | .culBwWindow now => Sys2Proof.Machine.execCulBwWindow now s
  | .peakClr v => Sys2Proof.Machine.execPeakClr v s
  | .cmpStageWrite which n v => Sys2Proof.Machine.execCmpStageWrite which n v s
  | .commit busy => Sys2Proof.Machine.execCommit busy s
  | .heldChangeApply => Sys2Proof.Machine.execHeldChangeApply s
  | .cmpFenceStart => Sys2Proof.Machine.execCmpFenceStart s
  | .cmpFenceDone => Sys2Proof.Machine.execCmpFenceDone s
  | .poolHandover k v busy => Sys2Proof.Machine.execPoolHandover k v busy s
  | .violClear v => Sys2Proof.Machine.execViolClear v s
  | .debugAccess addr n data => Sys2Proof.Machine.execDebugAccess addr n data s
  | .lnCtlWrite n v => Sys2Proof.Machine.execLnCtlWrite n v s
  | .lanePstateReached n calibrated now => Sys2Proof.Machine.execLanePstateReached n calibrated now s
  | .cdrLockGain n now => Sys2Proof.Machine.execCdrLockGain n now s
  | .cdrLockLoss n => Sys2Proof.Machine.execCdrLockLoss n s
  | .lnTxeqWrite n v => Sys2Proof.Machine.execLnTxeqWrite n v s
  | .lnMapWrite q v => Sys2Proof.Machine.execLnMapWrite q v s
  | .trainingBlockRx n o0 o1 ask taps => Sys2Proof.Machine.execTrainingBlockRx n o0 o1 ask taps s
  | .trainingTimeout n now => Sys2Proof.Machine.execTrainingTimeout n now s
  | .eyeScanStart n v => Sys2Proof.Machine.execEyeScanStart n v s
  | .eyeScanEnd n mismatch => Sys2Proof.Machine.execEyeScanEnd n mismatch s
  | .tssMarkerPosition l pos o => Sys2Proof.Machine.execTssMarkerPosition l pos o s
  | .tssBlockRx l line => Sys2Proof.Machine.execTssBlockRx l line s
  | .otucFrameRx g idx found mfas overhead msi skew now => Sys2Proof.Machine.execOtucFrameRx g idx found mfas overhead msi skew now s
  | .lofTimer g idx now => Sys2Proof.Machine.execLofTimer g idx now s
  | .lomTimer g idx now => Sys2Proof.Machine.execLomTimer g idx now s
  | .frmCtlWrite g v => Sys2Proof.Machine.execFrmCtlWrite g v s
  | .mapCommit g => Sys2Proof.Machine.execMapCommit g s
  | .frmGposWrite g v => Sys2Proof.Machine.execFrmGposWrite g v s
  | .frmCportWrite g j v => Sys2Proof.Machine.execFrmCportWrite g j v s
  | .frmDstrWrite p idx v => Sys2Proof.Machine.execFrmDstrWrite p idx v s
  | .gccExtract p idx o => Sys2Proof.Machine.execGccExtract p idx o s
  | .dccRecordTx p => Sys2Proof.Machine.execDccRecordTx p s
  | .dccRecordRx p o => Sys2Proof.Machine.execDccRecordRx p o s
  | .gccInsert p idx => Sys2Proof.Machine.execGccInsert p idx s
  | .pmSecond seen now => Sys2Proof.Machine.execPmSecond seen now s
  | .pmBinBoundary now => Sys2Proof.Machine.execPmBinBoundary now s
  | .leveeEvent src detail address colour raw watch edge => Sys2Proof.Machine.execLeveeEvent src detail address colour raw watch edge s
  | .responsePoint raw watch edge cuts parts => Sys2Proof.Machine.execResponsePoint raw watch edge cuts parts s
  | .tamperRecordWrite => Sys2Proof.Machine.execTamperRecordWrite s
  | .supplyDipStart watch edge => Sys2Proof.Machine.execSupplyDipStart watch edge s
  | .supplyDipEnd watch edge => Sys2Proof.Machine.execSupplyDipEnd watch edge s
  | .levSrccfgWrite m src v => Sys2Proof.Machine.execLevSrccfgWrite m src v s
  | .stickyClear m v => Sys2Proof.Machine.execStickyClear m v s
  | .tamperLogRead m v => Sys2Proof.Machine.execTamperLogRead m v s
  | .levWatchLatch m wide watch edge => Sys2Proof.Machine.execLevWatchLatch m wide watch edge s
  | .watchCrystalStop => Sys2Proof.Machine.execWatchCrystalStop s
  | .aoSupplyChangeover toCell => Sys2Proof.Machine.execAoSupplyChangeover toCell s
  | .modecmdService => Sys2Proof.Machine.execModecmdService s
  | .modecmdDrain => Sys2Proof.Machine.execModecmdDrain s
  | .modecmdReady => Sys2Proof.Machine.execModecmdReady s
  | .readyEntryEnd => Sys2Proof.Machine.execReadyEntryEnd s
  | .modecmdClearMaintenance => Sys2Proof.Machine.execModecmdClearMaintenance s
  | .modecmdLockdownExit => Sys2Proof.Machine.execModecmdLockdownExit s
  | .modecmdInvalid target => Sys2Proof.Machine.execModecmdInvalid target s
  | .lcChangeCarrier => Sys2Proof.Machine.execLcChangeCarrier s
  | .lcChangeRetired => Sys2Proof.Machine.execLcChangeRetired s
  | .lcCmdInvalid target confirm => Sys2Proof.Machine.execLcCmdInvalid target confirm s
  | .fuseProgramEnd => Sys2Proof.Machine.execFuseProgramEnd s
  | .presNChange low now => Sys2Proof.Machine.execPresNChange low now s
  | .presenceWindowOpen now => Sys2Proof.Machine.execPresenceWindowOpen now s
  | .presenceWindowClose now => Sys2Proof.Machine.execPresenceWindowClose now s
  | .presenceStuck now => Sys2Proof.Machine.execPresenceStuck now s
  | .debugReq => Sys2Proof.Machine.execDebugReq s
  | .debugClose => Sys2Proof.Machine.execDebugClose s
  | .mainPowerLoss watch edge => Sys2Proof.Machine.execMainPowerLoss watch edge s
  | .mainPowerOn => Sys2Proof.Machine.execMainPowerOn s
  | .alwaysOnPowerUp => Sys2Proof.Machine.execAlwaysOnPowerUp s
  | .resetNPulse => Sys2Proof.Machine.execResetNPulse s
  | .gblResetDevice => Sys2Proof.Machine.execGblResetDevice s
  | .gblResetHif => Sys2Proof.Machine.execGblResetHif s
  | .brownOut watch edge => Sys2Proof.Machine.execBrownOut watch edge s
  | .pcieFlr => Sys2Proof.Machine.execPcieFlr s
  | .pcieConventionalReset => Sys2Proof.Machine.execPcieConventionalReset s
  | .pocStepEnd bad header lanes records watch edge => Sys2Proof.Machine.execPocStepEnd bad header lanes records watch edge s
  | .flashPreloadEnd data => Sys2Proof.Machine.execFlashPreloadEnd data s
  | .replayEnd => Sys2Proof.Machine.execReplayEnd s
  | .clkSet => Sys2Proof.Machine.execClkSet s
  | .clkAdj => Sys2Proof.Machine.execClkAdj s
  | .clkInval => Sys2Proof.Machine.execClkInval s
  | .clkRateWrite v => Sys2Proof.Machine.execClkRateWrite v s
  | .clkTimeLatch m wide => Sys2Proof.Machine.execClkTimeLatch m wide s
  | .clkTsbRead m n wide => Sys2Proof.Machine.execClkTsbRead m n wide s
  | .ppsInEdge now => Sys2Proof.Machine.execPpsInEdge now s
  | .ppsOutPulse now => Sys2Proof.Machine.execPpsOutPulse now s
  | .ppsOutFall now => Sys2Proof.Machine.execPpsOutFall now s
  | .sndScheduleWrite which n v => Sys2Proof.Machine.execSndScheduleWrite which n v s
  | .sndThresholdWrite which n v => Sys2Proof.Machine.execSndThresholdWrite which n v s
  | .dumpStart now => Sys2Proof.Machine.execDumpStart now s
  | .dumpPublish bad now => Sys2Proof.Machine.execDumpPublish bad now s
  | .slotSample core word => Sys2Proof.Machine.execSlotSample core word s
  | .thresholdSample n => Sys2Proof.Machine.execThresholdSample n s
  | .hifDoorbell r v => Sys2Proof.Machine.execHifDoorbell r v s
  | .ringFetch r data => Sys2Proof.Machine.execRingFetch r data s
  | .hifRcfgWrite r v => Sys2Proof.Machine.execHifRcfgWrite r v s
  | .ringDisableEnd r => Sys2Proof.Machine.execRingDisableEnd r s
  | .msixCoalTimer r now => Sys2Proof.Machine.execMsixCoalTimer r now s
  | .hifBar2winWrite v => Sys2Proof.Machine.execHifBar2winWrite v s
  | .hcolourWrite v => Sys2Proof.Machine.execHcolourWrite v s
  | .hostAccess bar2 offset n data bic => Sys2Proof.Machine.execHostAccess bar2 offset n data bic s
  | .mkaTxDescriptor data => Sys2Proof.Machine.execMkaTxDescriptor data s
  | .mkaTxSent c => Sys2Proof.Machine.execMkaTxSent c s
  | .ptpTxDescriptor data => Sys2Proof.Machine.execPtpTxDescriptor data s
  | .logWindow now => Sys2Proof.Machine.execLogWindow now s
  | .logRelease v => Sys2Proof.Machine.execLogRelease v s
  | .retpageWrite n v => Sys2Proof.Machine.execRetpageWrite n v s
  | .retpoolWrite v => Sys2Proof.Machine.execRetpoolWrite v s
  | .watchCrystalRestart => Sys2Proof.Machine.execWatchCrystalRestart s
  | .flexoFrameRx g idx lock gid pid corr uncorr => Sys2Proof.Machine.execFlexoFrameRx g idx lock gid pid corr uncorr s
  | .pcieConfigWrite busMaster msixEnable msixMask => Sys2Proof.Machine.execPcieConfigWrite busMaster msixEnable msixMask s
  | .productionTestFuseProgram => Sys2Proof.Machine.execProductionTestFuseProgram s

end Sys2Proof.Machine
end

