-- ==== Sys2Proof/WellFormed.lean ====
section
/-! DEFINITION. Well-formed commands: operands that their types alone do not bound lie in the ranges the spec gives. -/

namespace Sys2Proof

open Sys2Proof.Machine

/-- An octet offset within a frame (R10). -/
def offsetOk (o : Nat) : Bool := decide (o < 16320)

/-- A reading does not pass the largest valid offset (R10). -/
def readingOk (r : Word) : Bool := decide (r.toNat % 2 ^ 16 < 16320)

/-- A selector that names one group's Gauge or Far Gauge (R59). -/
def gaugeSel (n : Nat) : Bool := decide (n < 18) || (decide (32 ≤ n) && decide (n < 50))

/-- A run of `n` octets from `lo` lies inside one Culvert sector (R466). -/
def inSector (sec lo n : Nat) : Bool := decide (sec < 2 ^ 28) && decide (0 < n) && decide (lo + n ≤ 256)

/-- Bit errors name words of one sector (R467). -/
def flipsOk (l : List (Nat × BitVec 80)) : Bool := l.all (fun e => decide (e.1 < 32))

/-- Octets of a fetched ring slot, when host memory answers (R677). -/
def slotOk (d : Option Octets) : Bool := d.all (fun o => decide (o.length = 64))

/-- A size and an address of an access of 1, 2, 4 or 8 octets. -/
def sizeOk (n a : Nat) : Bool := (decide (n = 1) || decide (n = 2) || decide (n = 4) || decide (n = 8)) && decide (a % n = 0)

/-- What arrives in place of an ODU frame has the octets of one (R36, R148). -/
def oduOk : OduRx → Bool
  | .frame overhead payload _ => decide (overhead.length = 64) && decide (payload.length = 15232)
  | _ => true

/-- A UNIT of an on-chip memory (R702). -/
def memUnit (u : Nat) : Bool :=
  decide (0x100 ≤ u) && decide (u < 0xB00) &&
  decide (u % 256 < match u / 256 with | 1 => 16 | 2 => 2 | 6 => 32 | 8 => 18 | _ => 1)

/-- Corrections are in on-chip memories (R696). -/
def findOk : MemFind → Bool
  | .corrected u _ => memUnit u.toNat
  | _ => true

/-- The well-formed commands. -/
def Instr.wellFormed (i : Instr) : Bool :=
  match i with
  | .registerWrite .. => true
  | .unlistedOffsetAccess _ offset _ _ => decide (offset.toNat < 0x01A00000)
  | .unmappedBar0Access _ offset _ => decide (0x01A00000 ≤ offset.toNat)
  | .weiGrpCfgWrite .. => true
  | .groupDrainEnd .. => true
  | .clientFrameRx .. => true
  | .frameEnqueue .. => true
  | .dequeue .. => true
  | .egressFrameRead .. => true
  | .egressFrameDelivered .. => true
  | .ingressFrameRx _ _ _ finds => finds.all findOk
  | .icvVerdict .. => true
  | .learnRequest .. => true
  | .gaugeFrameStart .. => true
  | .gaugeEventDue sel r => gaugeSel sel && readingOk r
  | .epochStart .. => true
  | .gaugeWordRx _ word _ offset => decide (word.length = 6) && offsetOk offset
  | .gauSnapctlTrig .. => true
  | .gauRecordWrite .. => true
  | .gauReadLatch .. => true
  | .ivDescriptorAccept .. => true
  | .keystreamReady .. => true
  | .raceBlock .. => true
  | .rcCtlTest .. => true
  | .rcCtlFlagClr .. => true
  | .raceTestDone .. => true
  | .raceWakeDone .. => true
  | .raceGateClose .. => true
  | .weirDispute .. => true
  | .raceJudged .. => true
  | .failoverCkptLoaded .. => true
  | .leaseGrant .. => true
  | .leaseLapse .. => true
  | .sampleCheck .. => true
  | .twinBlockSettle .. => true
  | .channelJoin .. => true
  | .eddyShelterEmpty => true
  | .weiFailclrWrite .. => true
  | .cardGrant .. => true
  | .cardLeaseExpire .. => true
  | .mirrorRecordRx .. => true
  | .l1TxFrame _ payload _ => decide (payload.length = 15232)
  | .l1RxFrame _ r _ => oduOk r
  | .countWordRx .. => true
  | .shortTagVerdict .. => true
  | .longTagVerdict .. => true
  | .quarantineEnd .. => true
  | .retirementComplete .. => true
  | .l1ChannelCloseEnd .. => true
  | .frmCooposWrite .. => true
  | .frmL1ctlWrite .. => true
  | .frmL1holdWrite .. => true
  | .l1Read .. => true
  | .l1Write .. => true
  | .l1Switch .. => true
  | .l1Retire .. => true
  | .qclr .. => true
  | .l1CmdInvalid .. => true
  | .secyRd .. => true
  | .secyWr .. => true
  | .scRd .. => true
  | .scWr .. => true
  | .saRd .. => true
  | .saWr .. => true
  | .chRd .. => true
  | .chWr .. => true
  | .sciAdd .. => true
  | .sciDel .. => true
  | .sciFind .. => true
  | .scySwitch .. => true
  | .scyDisable .. => true
  | .scyCmdInvalid .. => true
  | .scDrainEnd .. => true
  | .saDrainEnd .. => true
  | .kderDerive .. => true
  | .kderEnc .. => true
  | .kderDec .. => true
  | .cmacGen .. => true
  | .cmacChk .. => true
  | .kderWrap .. => true
  | .kderUnwrap .. => true
  | .mkaDerive .. => true
  | .sakUnwrap .. => true
  | .sakGen .. => true
  | .icvGen .. => true
  | .icvChk .. => true
  | .unrexInit .. => true
  | .unrexResp .. => true
  | .unrexFinish .. => true
  | .unrexConfirm .. => true
  | .unrexCancel .. => true
  | .unrexSessionExpire .. => true
  | .attest .. => true
  | .cekRead .. => true
  | .dsImport .. => true
  | .cakImport .. => true
  | .cakRemove .. => true
  | .kderInvalid .. => true
  | .springOpComplete .. => true
  | .springPageDispatch => true
  | .sprPgownWrite .. => true
  | .sprPageOwnerTakeover .. => true
  | .sprPageForeignAccess .. => true
  | .kstInfo => true
  | .kstDestroy => true
  | .kstOrphan => true
  | .kstSetuse => true
  | .kstCtrRead => true
  | .kstCtrInc => true
  | .kstCmdInvalid .. => true
  | .orphanSweepEnd => true
  | .balAdd .. => true
  | .balSub .. => true
  | .balAnd .. => true
  | .balOr .. => true
  | .balXor .. => true
  | .balSll .. => true
  | .balSrl .. => true
  | .balSra .. => true
  | .balMul .. => true
  | .balMulhu .. => true
  | .balSlt .. => true
  | .balSltu .. => true
  | .balSltw .. => true
  | .balClz .. => true
  | .balPopc .. => true
  | .balAddi .. => true
  | .balAndi .. => true
  | .balOri .. => true
  | .balXori .. => true
  | .balShi .. => true
  | .balSlli .. => true
  | .balSrli .. => true
  | .balSrai .. => true
  | .balBeq .. => true
  | .balBne .. => true
  | .balBlt .. => true
  | .balBge .. => true
  | .balBltu .. => true
  | .balBgeu .. => true
  | .balJal .. => true
  | .balJalr .. => true
  | .balTrap .. => true
  | .balLd .. => true
  | .balSt .. => true
  | .balAmoadd .. => true
  | .balAmoswap .. => true
  | .balEnd .. => true
  | .balEndDone .. => true
  | .balFence .. => true
  | .balFenceDone .. => true
  | .balFenceC .. => true
  | .balFenceCDone .. => true
  | .balOrderSet .. => true
  | .balReseal .. => true
  | .balResealDone .. => true
  | .balRds .. => true
  | .balIllegalInstruction .. => true
  | .balGread .. => true
  | .balWaitg .. => true
  | .balWaitgDue .. => true
  | .balAtg .. => true
  | .balGadv .. => true
  | .balGdist .. => true
  | .balWaitc .. => true
  | .balWaitcAny .. => true
  | .balMovMCopy .. => true
  | .balMovMFill .. => true
  | .balCtrd .. => true
  | .balCtrdClear .. => true
  | .engineOpInvalid .. => true
  | .engineOpComplete .. => true
  | .tidThrcfgWrite .. => true
  | .threadStart .. => true
  | .threadStop .. => true
  | .threadStopped .. => true
  | .clrtrap .. => true
  | .trapCleared .. => true
  | .tideReset .. => true
  | .icacheInvalidate .. => true
  | .eventOvfRecord => true
  | .handlerDispatch .. => true
  | .atgBlockDispatch .. => true
  | .handlerLimitTrap .. => true
  | .ringDescriptorDispatch .. => true
  | .deltaLookup .. => true
  | .deltaAdd .. => true
  | .deltaUpdate .. => true
  | .deltaDelete .. => true
  | .deltaRead .. => true
  | .deltaClear .. => true
  | .deltaFlush .. => true
  | .flushEnd => true
  | .deltaCmdInvalid .. => true
  | .dltHseedWrite .. => true
  | .eddyScanPassStart => true
  | .eddyScanBucket .. => true
  | .queueRead .. => true
  | .queueConfig .. => true
  | .queueDisable .. => true
  | .queueDrainEnd .. => true
  | .nodeRead .. => true
  | .nodeConfig .. => true
  | .nodeDisable .. => true
  | .policerRead .. => true
  | .policerConfig .. => true
  | .policerDisable .. => true
  | .bsnCmdInvalid .. => true
  | .bsnPoolWrite .. => true
  | .poolReady => true
  | .bsnResWrite .. => true
  | .culvertRead _ sec lo n flips _ => inSector sec lo n && flipsOk flips
  | .culvertWrite _ sec d _ => inSector sec 0 d.length && decide (d.length = 256)
  | .culvertPartialWrite _ sec lo d flips _ => inSector sec lo d.length && decide (d.length < 256) && flipsOk flips
  | .scrubSector flips => flipsOk flips
  | .culRngWrite .. => true
  | .rangeReady .. => true
  | .rangeDisableEnd .. => true
  | .culCtlWrite .. => true
  | .culBwWindow .. => true
  | .peakClr .. => true
  | .cmpStageWrite .. => true
  | .commit .. => true
  | .heldChangeApply => true
  | .cmpFenceStart => true
  | .cmpFenceDone => true
  | .poolHandover .. => true
  | .violClear .. => true
  | .debugAccess addr n _ => sizeOk n addr.toNat
  | .lnCtlWrite .. => true
  | .lanePstateReached .. => true
  | .cdrLockGain .. => true
  | .cdrLockLoss .. => true
  | .lnTxeqWrite .. => true
  | .lnMapWrite .. => true
  | .trainingBlockRx .. => true
  | .trainingTimeout .. => true
  | .eyeScanStart .. => true
  | .eyeScanEnd .. => true
  | .tssMarkerPosition _ _ o => decide (o.length = 8)
  | .tssBlockRx _ line => decide (136 ≤ line.length)
  | .otucFrameRx .. => true
  | .lofTimer .. => true
  | .lomTimer .. => true
  | .frmCtlWrite .. => true
  | .mapCommit .. => true
  | .frmGposWrite .. => true
  | .frmCportWrite .. => true
  | .frmDstrWrite .. => true
  | .gccExtract .. => true
  | .dccRecordTx .. => true
  | .dccRecordRx .. => true
  | .gccInsert .. => true
  | .pmSecond .. => true
  | .pmBinBoundary .. => true
  | .leveeEvent .. => true
  | .responsePoint .. => true
  | .tamperRecordWrite => true
  | .supplyDipStart .. => true
  | .supplyDipEnd .. => true
  | .levSrccfgWrite .. => true
  | .stickyClear .. => true
  | .tamperLogRead .. => true
  | .levWatchLatch .. => true
  | .watchCrystalStop => true
  | .aoSupplyChangeover .. => true
  | .modecmdService => true
  | .modecmdDrain => true
  | .modecmdReady => true
  | .readyEntryEnd => true
  | .modecmdClearMaintenance => true
  | .modecmdLockdownExit => true
  | .modecmdInvalid target => !(decide (target.val = 1) || decide (target.val = 4) || decide (target.val = 5) || decide (target.val = 7) || decide (target.val = 8))
  | .lcChangeCarrier => true
  | .lcChangeRetired => true
  | .lcCmdInvalid target confirm => decide (target.val < 2) || decide (confirm ≠ 0x4C)
  | .fuseProgramEnd => true
  | .presNChange .. => true
  | .presenceWindowOpen .. => true
  | .presenceWindowClose .. => true
  | .presenceStuck .. => true
  | .debugReq => true
  | .debugClose => true
  | .mainPowerLoss .. => true
  | .mainPowerOn => true
  | .alwaysOnPowerUp => true
  | .resetNPulse => true
  | .gblResetDevice => true
  | .gblResetHif => true
  | .brownOut .. => true
  | .pcieFlr => true
  | .pcieConventionalReset => true
  | .pocStepEnd .. => true
  | .flashPreloadEnd data => decide (data.length ≤ 4194304)
  | .replayEnd => true
  | .clkSet => true
  | .clkAdj => true
  | .clkInval => true
  | .clkRateWrite .. => true
  | .clkTimeLatch .. => true
  | .clkTsbRead .. => true
  | .ppsInEdge .. => true
  | .ppsOutPulse .. => true
  | .ppsOutFall .. => true
  | .sndScheduleWrite .. => true
  | .sndThresholdWrite .. => true
  | .dumpStart .. => true
  | .dumpPublish .. => true
  | .slotSample .. => true
  | .thresholdSample .. => true
  | .hifDoorbell .. => true
  | .ringFetch _ data => slotOk data
  | .hifRcfgWrite .. => true
  | .ringDisableEnd .. => true
  | .msixCoalTimer .. => true
  | .hifBar2winWrite .. => true
  | .hcolourWrite .. => true
  | .hostAccess _ _ n data _ => decide (0 < n) && data.all (fun d => decide (d.length = n))
  | .mkaTxDescriptor .. => true
  | .mkaTxSent .. => true
  | .ptpTxDescriptor .. => true
  | .logWindow .. => true
  | .logRelease .. => true
  | .retpageWrite .. => true
  | .retpoolWrite .. => true
  | .watchCrystalRestart => true
  | .flexoFrameRx .. => true
  | .pcieConfigWrite .. => true
  | .productionTestFuseProgram => true

end Sys2Proof
end

