-- ==== Sys2Proof/Safety.lean ====
section
/-! DEFINITION. What counts as a safe run, in the terms that claims use: a command completes, the Pools keep their
canonical form, fuses are only ever blown, the queues of
fixed size never overflow, and the queue of commands moves by one a step. -/

namespace Sys2Proof

open Sys2Proof.Machine

/-- A command completes from a state: `exec` answers a next state. -/
def Completes (c : Instr) (s : State) : Prop := ∃ t, exec c s = .next t

/-- The octets of the Pools are held in their one canonical form. -/
def PoolsCanonical (s : State) : Prop := Memory.wf s.pools = true

/-- Keys of a sparse table rise strictly from a bound, so that a key has one entry. -/
def Tbl.rising {α : Type} (lo : Nat) : Tbl α → Prop
  | [] => True
  | (k, _) :: t => lo ≤ k ∧ Tbl.rising (k + 1) t

/-- The tables of registers, record words and counters have one entry for a key. -/
def TablesCanonical (s : State) : Prop := Tbl.rising 0 s.regs ∧ Tbl.rising 0 s.recs ∧ Tbl.rising 0 s.counters

/-- No fuse of `s` is unblown in `t` (R612: fuses are one-way). -/
def FusesKept (s t : State) : Prop :=
  s.chip.mFuses ≤ t.chip.mFuses ∧ s.chip.cFuses ≤ t.chip.cFuses ∧ s.chip.tFuses ≤ t.chip.tFuses

/-- The queues of fixed size hold no more than the spec gives them: the event queue 8,192 records (R344), the Levee's
buffer 32 records (R600), the learn queue 4,096 requests (R410), the poison table 65,536 sectors (R479). -/
structure QueuesBounded (s : State) : Prop where
  events : s.tide.queue.length ≤ 8192
  tamper : s.levee.buffer.length ≤ 32
  learn : s.delta.learn.length ≤ 4096
  poison : s.culvert.poison.length ≤ 65536

/-- A state is reached from another by steps that all answer a next state. -/
inductive Reaches : State → State → Prop where
  | refl (s : State) : Reaches s s
  | step {s t u : State} : Reaches s t → step t = .next u → Reaches s u

end Sys2Proof
end

