-- ==== Sys2Proof/Certificates/Slice0/Obligations.lean ====
section
/-! DEFINITION. The statements for the provers, with the few notions they are stated in. -/

namespace Sys2Proof.Claims

open Sys2Proof Sys2Proof.Machine

abbrev Outcome := Host.Outcome State Fault Refusal

/-- A command completes, and its next state meets `P`. -/
def Gives (o : Outcome) (P : State → Prop) : Prop := ∃ u, o = .next u ∧ P u

/-- Registers of the register map other than those at the offsets listed are as they were. -/
def RegsKept (s u : State) (except : List Nat) : Prop :=
  ∀ d k, k ∉ except → Tbl.get d u.regs k = Tbl.get d s.regs k

/-- Record words other than those at the keys listed are as they were. -/
def RecsKept (s u : State) (except : List Nat) : Prop :=
  ∀ d k, k ∉ except → Tbl.get d u.recs k = Tbl.get d s.recs k

/-- Nothing but registers of the map at the offsets listed differs. -/
def OnlyRegs (s u : State) (except : List Nat) : Prop := u = { s with regs := u.regs } ∧ RegsKept s u except

/-- Nothing but record words at the keys listed differs. -/
def OnlyRecs (s u : State) (except : List Nat) : Prop := u = { s with recs := u.recs } ∧ RecsKept s u except

end Sys2Proof.Claims

namespace Sys2Proof.Claims

open Sys2Proof Sys2Proof.Machine

/-! ### Balrid threads (chapter 10) -/

/-- A thread takes up the instruction of word `w`: it issues, and the word that it fetches at its PC is `w` (R367). -/
def Ready (s : State) (t w : Nat) : Prop := s.issues t = true ∧ (s.fetch t).1 = .word w

/-- What the fetch and the charge of the issue slot make of a state, before the instruction has its effect. -/
def begun (s : State) (t : Nat) : State := (s.fetch t).2.issued t

/-- The instruction completes with x[rd] = v and pc + 4: no other register of the thread, no other thread, and nothing
else of the state that follows the fetch and the charge of the issue slot differs. -/
def Puts (s : State) (t rd : Nat) (v : Word) (o : Outcome) : Prop :=
  Gives o fun u =>
    (∀ r, u.g t r = if r = 0 then 0 else if r = rd then v else s.g t r) ∧
    (∃ gs, u.thread t = { s.thread t with g := gs, pc := (s.thread t).pc + 4 }) ∧
    (∀ k, k ≠ t → u.thread k = s.thread k) ∧
    u = { begun s t with tide := { (begun s t).tide with threads := u.tide.threads } }

/-- The instruction completes with the PC at `target`, and x[link] = pc + 4 when it links; nothing else differs. -/
def Jumps (s : State) (t : Nat) (link : Option Nat) (target : Word) (o : Outcome) : Prop :=
  Gives o fun u =>
    (∀ r, u.g t r = if r ≠ 0 ∧ link = some r then (s.thread t).pc + 4 else s.g t r) ∧
    (∃ gs, u.thread t = { s.thread t with g := gs, pc := target }) ∧
    (∀ k, k ≠ t → u.thread k = s.thread k) ∧
    u = { begun s t with tide := { (begun s t).tide with threads := u.tide.threads } }

/-- `n` is the number of leading zero bits of a word. -/
def LeadingZeros (a : Word) (n : Nat) : Prop := n ≤ 64 ∧ a.toNat < 2 ^ (64 - n) ∧ (n < 64 → 2 ^ (63 - n) ≤ a.toNat)

/-- The number of one bits of a word. -/
def oneBits (a : Word) : Nat := ((List.range 64).filter a.toNat.testBit).length

end Sys2Proof.Claims

section

open Sys2Proof Sys2Proof.Machine Sys2Proof.Claims

/-- R372: the ALU and immediate instructions. -/
def Obligations.BalridAluResults : Prop :=
  ∀ (s : State) (t : ThreadNo) (rd rs1 rs2 : GReg) (imm : BitVec 16),
    let a := s.g t rs1
    let b := s.g t rs2
    let puts := fun (w : Nat) (v : Word) (c : Instr) => Ready s t w → Puts s t rd v (exec c s)
    let alu := fun (fn : Nat) => puts (encA 0x00 rd rs1 rs2 fn)
    let alu1 := fun (fn : Nat) => puts (encA 0x00 rd rs1 0 fn)
    let imm1 := fun (op : Nat) => puts (encI op rd rs1 imm)
    alu 0x000 (a + b) (.balAdd t rd rs1 rs2) ∧
    alu 0x001 (a - b) (.balSub t rd rs1 rs2) ∧
    alu 0x002 (a &&& b) (.balAnd t rd rs1 rs2) ∧
    alu 0x003 (a ||| b) (.balOr t rd rs1 rs2) ∧
    alu 0x004 (a ^^^ b) (.balXor t rd rs1 rs2) ∧
    alu 0x005 (BitVec.ofNat 64 (a.toNat * 2 ^ (b.toNat % 64))) (.balSll t rd rs1 rs2) ∧
    alu 0x006 (BitVec.ofNat 64 (a.toNat / 2 ^ (b.toNat % 64))) (.balSrl t rd rs1 rs2) ∧
    alu 0x007 (BitVec.ofInt 64 (a.toInt / (2 ^ (b.toNat % 64) : Nat))) (.balSra t rd rs1 rs2) ∧
    alu 0x008 (BitVec.ofNat 64 (a.toNat * b.toNat)) (.balMul t rd rs1 rs2) ∧
    alu 0x009 (BitVec.ofNat 64 (a.toNat * b.toNat / 2 ^ 64)) (.balMulhu t rd rs1 rs2) ∧
    alu 0x00A (if a.toInt < b.toInt then 1 else 0) (.balSlt t rd rs1 rs2) ∧
    alu 0x00B (if a.toNat < b.toNat then 1 else 0) (.balSltu t rd rs1 rs2) ∧
    alu 0x00C (if (a - b).toInt < 0 then 1 else 0) (.balSltw t rd rs1 rs2) ∧
    (∀ n, LeadingZeros a n → alu1 0x00D (BitVec.ofNat 64 n) (.balClz t rd rs1)) ∧
    alu1 0x00E (BitVec.ofNat 64 (oneBits a)) (.balPopc t rd rs1) ∧
    imm1 0x10 (BitVec.ofInt 64 (a.toInt + imm.toInt)) (.balAddi t rd rs1 imm) ∧
    imm1 0x12 (BitVec.ofNat 64 (a.toNat &&& imm.toNat)) (.balAndi t rd rs1 imm) ∧
    imm1 0x14 (BitVec.ofNat 64 (a.toNat ||| imm.toNat)) (.balOri t rd rs1 imm) ∧
    imm1 0x16 (BitVec.ofNat 64 (a.toNat ^^^ imm.toNat)) (.balXori t rd rs1 imm) ∧
    imm1 0x18 (BitVec.ofNat 64 (a.toNat * 2 ^ 16 + imm.toNat)) (.balShi t rd rs1 imm) ∧
    (imm.toNat < 64 →
      imm1 0x1A (BitVec.ofNat 64 (a.toNat * 2 ^ imm.toNat)) (.balSlli t rd rs1 imm) ∧
      imm1 0x1C (BitVec.ofNat 64 (a.toNat / 2 ^ imm.toNat)) (.balSrli t rd rs1 imm) ∧
      imm1 0x1E (BitVec.ofInt 64 (a.toInt / (2 ^ imm.toNat : Nat))) (.balSrai t rd rs1 imm)) ∧
    (64 ≤ imm.toNat →
      (Ready s t (encI 0x1A rd rs1 imm) → exec (.balSlli t rd rs1 imm) s = .next ((begun s t).takeTrap t 1 0 (encI 0x1A rd rs1 imm) 0)) ∧
      (Ready s t (encI 0x1C rd rs1 imm) → exec (.balSrli t rd rs1 imm) s = .next ((begun s t).takeTrap t 1 0 (encI 0x1C rd rs1 imm) 0)) ∧
      (Ready s t (encI 0x1E rd rs1 imm) → exec (.balSrai t rd rs1 imm) s = .next ((begun s t).takeTrap t 1 0 (encI 0x1E rd rs1 imm) 0)))

/-- R373: branches and jumps. Where the spec leaves a point open it is the model's: log entry 57. -/
def Obligations.BalridControl : Prop :=
  ∀ (s : State) (t : ThreadNo) (rd rs1 : GReg) (hi : Fin 32) (imm : BitVec 16),
    let pc := (s.thread t).pc
    let x := s.g t rd
    let y := s.g t rs1
    let there : Word := pc + BitVec.ofInt 64 (4 * imm.toInt)
    let word := fun (op : Nat) => encI op rd rs1 imm
    let goes := fun (op : Nat) (c : Prop) [Decidable c] (i : Instr) =>
      Ready s t (word op) → Jumps s t none (if c then there else pc + 4) (exec i s)
    goes 0x20 (x = y) (.balBeq t rd rs1 imm) ∧
    goes 0x22 (x ≠ y) (.balBne t rd rs1 imm) ∧
    goes 0x24 (x.toInt < y.toInt) (.balBlt t rd rs1 imm) ∧
    goes 0x26 (y.toInt ≤ x.toInt) (.balBge t rd rs1 imm) ∧
    goes 0x28 (x.toNat < y.toNat) (.balBltu t rd rs1 imm) ∧
    goes 0x2A (y.toNat ≤ x.toNat) (.balBgeu t rd rs1 imm) ∧
    (let n : Nat := hi.val * 2 ^ 16 + imm.toNat
     let off : Int := if n < 2 ^ 20 then (n : Int) else (n : Int) - (2 ^ 21 : Nat)
     Ready s t (encI 0x2C rd hi imm) →
       Jumps s t (some rd) (pc + BitVec.ofInt 64 (4 * off)) (exec (.balJal t rd hi imm) s)) ∧
    (let target : Word := BitVec.ofInt 64 (y.toInt + imm.toInt)
     (Ready s t (word 0x2E) → target.toNat % 4 = 0 → Jumps s t (some rd) target (exec (.balJalr t rd rs1 imm) s)) ∧
     (Ready s t (word 0x2E) → target.toNat % 4 ≠ 0 → Gives (exec (.balJalr t rd rs1 imm) s) fun u =>
       u = (begun s t).takeTrap t 5 0 (encI 0x2E rd rs1 imm) target.toNat))

end

namespace Sys2Proof.Claims

open Sys2Proof Sys2Proof.Machine

/-- An access of a kind by a thread, once its instruction has issued, is granted; `c` is the state the checks leave. -/
def Granted (s : State) (t : Nat) (k : AccKind) (a : Nat) (c : State) : Prop :=
  ∃ d, (begun s t).check ⟨.thread t, (s.thread t).colour, (s.thread t).warden⟩ k a = (.pass d, c)

/-- The value of octets loaded with a SIZE (R378). -/
def loaded (size : Nat) (d : Octets) : Word :=
  if size ≤ 3 then BitVec.ofNat 64 (leNat d) else BitVec.ofInt 64 (signed (8 * 2 ^ (size - 4)) (leNat d))

/-- The instruction is held: the thread has the hold, and nothing else of it, no other thread, and nothing else of the
state that follows the fetch and the charge of the issue slot differs. -/
def HeldBy (s : State) (t : Nat) (h : Hold) (o : Outcome) : Prop :=
  Gives o fun u => u.thread t = { s.thread t with hold := h } ∧ (∀ k, k ≠ t → u.thread k = s.thread k) ∧
    u = { begun s t with tide := { (begun s t).tide with threads := u.tide.threads } }

/-- A held thread goes on: x[rd] = v, pc + 4, nothing holds it, and it is Running. -/
def GoesOn (s u : State) (t rd : Nat) (v : Word) : Prop :=
  (∀ r, u.g t r = if r = 0 then 0 else if r = rd then v else s.g t r) ∧ (u.thread t).pc = (s.thread t).pc + 4 ∧
  (u.thread t).hold = .none ∧ u.tstate t = 2 ∧ ∀ k, k ≠ t → u.thread k = s.thread k

/-- The job of a thread has ended: its tags are idle, it holds no comparator, and it is Off (FREE) or Idle; registers
and PC stay. -/
def JobEnded (s u : State) (t : Nat) : Prop :=
  u.thread t = { s.thread t with tags := [], doneOrder := [], job := .none, hold := .none, cmp := none } ∧
  u.tstate t = (match (s.thread t).job with
    | .ring _ _ _ => 1
    | .free => 0
    | _ => if s.rd TID_THRCFG.ROLE t = 0 then 0 else 1) ∧
  ∀ k, k ≠ t → u.thread k = s.thread k

end Sys2Proof.Claims

section

open Sys2Proof Sys2Proof.Machine Sys2Proof.Claims

/-- R328 to R330, R378 to R380: LD, ST, AMOADD and AMOSWAP in the Pools, LD through the data cache of its core, and LD
and ST at any target that answers. R329 and R385: a store into code that a thread executes, or into the input area of an
operation that is outstanding, is a host error. -/
def Sys2Proof.Claims.BalridMemory : Prop :=
  ∀ (s : State) (t : ThreadNo) (rd base : GReg) (off : BitVec 12) (size : Fin 8),
    let ready := fun (op : Nat) => Ready s t (encM op rd base off size)
    let a := (s.g t base + BitVec.ofInt 64 off.toInt).toNat
    let n := 2 ^ (size.val % 4)
    let x := s.g t rd
    let core := t.val / 8
    let byte := fun (v : Word) (i : Nat) => BitVec.ofNat 8 (v.toNat / 2 ^ (8 * i))
    let octetsAt := fun (b n : Nat) => (List.range n).map fun i => poolGet s.pools (b + i)
    let load := exec (.balLd t rd base off size .good .good false) s
    (∀ c k, ready 0x40 → size.val ≠ 7 → a % n = 0 → spaceOf a = .pool k → Granted s t .read a c →
      (c.cached true core a = none → load = .next
        ((c.fillLine true core { line := a / 64, octets := octetsAt (a / 64 * 64) 64 }).writeStep t rd
          (loaded size (octetsAt a n)))) ∧
      (∀ l, c.cached true core a = some l → load = .next (c.writeStep t rd (loaded size (slice l.octets (a % 64) n))))) ∧
    (∀ d c, ready 0x40 → size.val ≠ 7 → a % n = 0 → (begun s t).threadRead t a n .good = (.data d, c) →
      load = .next (c.writeStep t rd (loaded size d))) ∧
    (∀ c k, PoolsCanonical s → ready 0x41 → (begun s t).issues t = true → size.val ≤ 3 → a % n = 0 →
      spaceOf a = .pool k → Granted s t .write a c →
      (c.storesInput a n = false → c.storesCode a n = false → Gives (exec (.balSt t rd base off size false) s) fun u =>
        (∀ y, poolGet u.pools y = if a ≤ y ∧ y < a + n then byte x (y - a) else poolGet s.pools y) ∧
        u = { ((c.dropLines a n).step4 t) with pools := u.pools }) ∧
      (c.storesInput a n = true ∨ c.storesCode a n = true →
        exec (.balSt t rd base off size false) s = .fault .hostError)) ∧
    (∀ c, ready 0x41 → size.val ≤ 3 → a % n = 0 →
      (begun s t).busWrite ((begun s t).requester (.thread t)) a (leBytes n x.toNat) = .next (.done, c) →
      exec (.balSt t rd base off size false) s = .next (if c.issues t then c.step4 t else c)) ∧
    (∀ c, PoolsCanonical s → size.val = 3 → a % 8 = 0 → Granted s t .atomic a c → c.storesInput a 8 = false →
      c.storesCode a 8 = false →
      let old : Word := BitVec.ofNat 64 (leNat (octetsAt a 8))
      (ready 0x42 → Gives (exec (.balAmoadd t rd base off size .good false) s) fun u =>
        (∀ y, poolGet u.pools y = if a ≤ y ∧ y < a + 8 then byte (x + old) (y - a) else poolGet s.pools y) ∧
        u = { ((c.dropLines a 8).writeStep t rd old) with pools := u.pools }) ∧
      (ready 0x43 → Gives (exec (.balAmoswap t rd base off size .good false) s) fun u =>
        (∀ y, poolGet u.pools y = if a ≤ y ∧ y < a + 8 then byte x (y - a) else poolGet s.pools y) ∧
        u = { ((c.dropLines a 8).writeStep t rd old) with pools := u.pools }))

/-- R368, R379: what makes a memory instruction trap before its access: a SIZE that is not defined, and an address that
is not a multiple of the size. -/
def Sys2Proof.Claims.BalridMemoryTraps : Prop :=
  ∀ (s : State) (t : ThreadNo) (rd base : GReg) (off : BitVec 12) (size : Fin 8) (ecc : EccFind) (bic : Bool),
    let a := (s.g t base + BitVec.ofInt 64 off.toInt).toNat
    let w := fun (op : Nat) => op * 2 ^ 25 + rd * 2 ^ 20 + base * 2 ^ 15 + off.toNat * 2 ^ 3 + size
    let traps := fun (o : Outcome) (cause op addr : Nat) =>
      Ready s t (w op) → o = .next ((begun s t).takeTrap t cause 0 (w op) addr)
    (size.val = 7 → traps (exec (.balLd t rd base off size ecc .good bic) s) 1 0x40 0) ∧
    (3 < size.val → traps (exec (.balSt t rd base off size bic) s) 1 0x41 0) ∧
    (size.val ≠ 3 → traps (exec (.balAmoadd t rd base off size ecc bic) s) 1 0x42 0) ∧
    (size.val ≠ 3 → traps (exec (.balAmoswap t rd base off size ecc bic) s) 1 0x43 0) ∧
    (size.val ≠ 7 → a % 2 ^ (size.val % 4) ≠ 0 → traps (exec (.balLd t rd base off size ecc .good bic) s) 5 0x40 a) ∧
    (size.val ≤ 3 → a % 2 ^ size.val ≠ 0 → traps (exec (.balSt t rd base off size bic) s) 5 0x41 a) ∧
    (size.val = 3 → a % 8 ≠ 0 → traps (exec (.balAmoadd t rd base off size ecc bic) s) 5 0x42 a) ∧
    (size.val = 3 → a % 8 ≠ 0 → traps (exec (.balAmoswap t rd base off size ecc bic) s) 5 0x43 a)

/-- R348, R361, R368, R373: TRAP takes its trap with CODE = imm[7:0], and a word that is not defined traps with cause
0x01. R330, R349: a fetch that does not go through traps with cause 0x03 or 0x04, and its INSTR is a free value. -/
def Sys2Proof.Claims.BalridTrapInstructions : Prop :=
  ∀ (s : State) (t : ThreadNo) (imm : BitVec 16) (w : BitVec 32),
    (let word := (if imm.toNat < 2 ^ 15 then 0x30 else 0x31) * 2 ^ 25 + imm.toNat % 2 ^ 15
     Ready s t word → exec (.balTrap t imm) s = .next ((begun s t).takeTrap t 8 (imm.toNat % 256) word 0)) ∧
    (Ready s t w.toNat →
      (wordLegal w.toNat = false → exec (.balIllegalInstruction t w) s = .next ((begun s t).takeTrap t 1 0 w.toNat 0)) ∧
      (w.toNat / 2 ^ 25 = 0 → 0x00E < w.toNat % 2 ^ 10 →
        exec (.balIllegalInstruction t w) s = .next ((begun s t).takeTrap t 1 0 w.toNat 0)) ∧
      (2 ≤ w.toNat / 2 ^ 25 → w.toNat / 2 ^ 25 < 0x10 →
        exec (.balIllegalInstruction t w) s = .next ((begun s t).takeTrap t 1 0 w.toNat 0))) ∧
    (∀ c b, s.issues t = true → s.fetch t = (.trap c, b) → (c = 3 ∨ c = 4) ∧
      Gives (exec (.balTrap t imm) s) fun u => ∃ instr, instr < 2 ^ 32 ∧
        u = State.takeTrap { b with draws := b.draws + 1 } t c 0 instr (s.thread t).pc.toNat)

/-- R349, R361: what taking a trap records and leaves, for every job but a ring descriptor; the thread's part holds for
every job. -/
def Sys2Proof.Claims.TakingATrap : Prop :=
  ∀ (s : State) (t : ThreadNo) (cause code instr addr : Nat), cause < 256 → code < 256 → instr < 2 ^ 32 →
    let u := s.takeTrap t cause code instr addr
    u.thread t = { s.thread t with tags := [], doneOrder := [], cmp := none, job := .none, hold := .none } ∧
    (∀ k, k ≠ t.val → u.thread k = s.thread k) ∧
    u.tide.ops = s.tide.ops.map (fun o => if o.thread = t.val then { o with discard := true } else o) ∧
    ((∀ r i n, (s.thread t).job ≠ .ring r i n) →
      u.reg .TID_TRAPPC t = (s.thread t).pc ∧ u.rd TID_TRAPINFO.CAUSE t = cause ∧ u.rd TID_TRAPINFO.CODE t = code ∧
      u.rd TID_TRAPINFO.INSTR t = instr ∧ u.reg .TID_TRAPADDR t = BitVec.ofNat 64 addr ∧ u.tstate t = 6 ∧
      u.pools = s.pools)

/-- R374, R382 to R384, R486, R514: the instructions that hold a thread, and their ends. -/
def Sys2Proof.Claims.BalridHolds : Prop :=
  ∀ (s : State) (t : ThreadNo) (rd rs1 : GReg),
    (Ready s t (encA 0x01 0 rs1 0 0) → s.opsOf t ≠ 0 → Gives (exec (.balEnd t rs1) s) fun u =>
      u.thread t = { s.thread t with hold := .ending ((s.g t rs1).toNat % 2 ^ 32) } ∧ u.tstate t = 3 ∧
      (∀ k, k ≠ t.val → u.thread k = s.thread k) ∧ u.tide.ops = s.tide.ops ∧ u.pools = s.pools) ∧
    (Ready s t (encA 0x01 0 rs1 0 0) → s.opsOf t = 0 → Gives (exec (.balEnd t rs1) s) (JobEnded (begun s t) · t)) ∧
    (∀ status, (s.thread t).hold = .ending status → s.opsOf t = 0 → Gives (exec (.balEndDone t) s) (JobEnded s · t)) ∧
    (Ready s t (encA 0x01 0 0 0 1) → HeldBy s t .fence (exec (.balFence t) s)) ∧
    ((s.thread t).hold = .fence → Gives (exec (.balFenceDone t) s) fun u =>
      u.thread t = { s.thread t with pc := (s.thread t).pc + 4, hold := .none } ∧
      (∀ k, k ≠ t.val → u.thread k = s.thread k) ∧ u = { s with tide := { s.tide with threads := u.tide.threads } }) ∧
    (Ready s t (encA 0x01 rd 0 0 2) → HeldBy s t (.fenceC rd ((begun s t).rd CMP_EPOCH.EPOCH)) (exec (.balFenceC t rd) s)) ∧
    (∀ d e, (s.thread t).hold = .fenceC d e → Gives (exec (.balFenceCDone t) s) fun u =>
      GoesOn s u t d (BitVec.ofNat 64 e) ∧ (s.access.held = none → ∀ x ∈ u.access.live, epochOlder x e = false) ∧
      u.pools = s.pools) ∧
    (Ready s t (encA 0x01 rd rs1 0 4) → (s.thread t).warden = true →
      HeldBy s t (.reseal rd (s.g t rs1)) (exec (.balReseal t rd rs1) s)) ∧
    (Ready s t (encA 0x01 rd rs1 0 4) → (s.thread t).warden = false →
      exec (.balReseal t rd rs1) s = .next ((begun s t).takeTrap t 2 0 (encA 0x01 rd rs1 0 4) 0)) ∧
    (∀ d a r further, (s.thread t).hold = .reseal d a → s.rangeAt a.toNat = r →
      let node := r.bind fun r => topDamaged (s.rangeSector r (a.toNat / 256)) (s.range r).damaged
      let status := match r with
        | none => 1
        | some r => if s.rangeType r ≠ 3 then 1 else if s.is CUL_RSTAT.DEAD r then 4
          else if node = none then 2 else if further then 3 else 0
      Gives (exec (.balResealDone t further) s) fun u =>
        GoesOn s u t d (BitVec.ofNat 64 status) ∧
        (status = 0 → ∀ r0 m, r = some r0 → node = some m → m ∉ (u.range r0).damaged) ∧
        (status ≠ 0 → u.culvert = s.culvert) ∧ u.pools = s.pools)

/-- R326, R339, R374: ORDER.SET of a Warden completes with the status of R339 in x[rd]; outside modes M3 to M7 the
status is 3, and an image that passes every check replaces the table. Of another thread it traps with cause 0x02. -/
def Sys2Proof.Claims.BalridOrderSet : Prop :=
  ∀ (s : State) (t : ThreadNo) (rd rs1 : GReg), Ready s t (encA 0x01 rd rs1 0 3) →
    let b := begun s t
    let a := (s.g t rs1).toNat
    ((s.thread t).warden = false →
      exec (.balOrderSet t rd rs1) s = .next (b.takeTrap t 2 0 (encA 0x01 rd rs1 0 3) 0)) ∧
    ((s.thread t).warden = true →
      (∀ v c, b.orderSet t a = (v, c) →
        exec (.balOrderSet t rd rs1) s = .next (c.writeStep t rd (BitVec.ofNat 64 v))) ∧
      (b.rd GBL_MODE.MODE < 3 ∨ 7 < b.rd GBL_MODE.MODE → Puts s t rd 3 (exec (.balOrderSet t rd rs1) s)) ∧
      (3 ≤ b.rd GBL_MODE.MODE → b.rd GBL_MODE.MODE ≤ 7 → a < 0x100000000 ∨ 0x104000000 - 64 < a →
        Puts s t rd 4 (exec (.balOrderSet t rd rs1) s)) ∧
      (∀ c, b.orderSet t a = (0, c) → b.oldHandlers = false ∧ ∃ h entries, soHeaderOk h = true ∧
        entries.length = leNat (slice h 6 2) ∧ c.tide.orders = entries ∧
        (∀ e ∈ entries, 1 ≤ e.cls ∧ e.cls ≤ 13 ∧ e.flags < 32 ∧ e.colour < 16 ∧ e.colour ≠ 2 ∧
          e.indexLo ≤ e.indexHi ∧ e.cores ≠ 0 ∧ e.pc.toNat % 4 = 0) ∧
        c.is TID_STAT.SO_VALID = true ∧ c.rd TID_SOINFO.COUNT = entries.length))

end

namespace Sys2Proof.Claims

open Sys2Proof Sys2Proof.Machine

/-- An engine instruction of an opcode gets as far as its engine: nothing holds the thread, which is Running or Stalled,
its word is fetched, the descriptor `d` is read at x[rs], the tag is idle and a slot is free; `b` is the state then. -/
def Calls (s : State) (opc t tag rs : Nat) (d : Octets) (b : State) : Prop :=
  (s.thread t).hold = .none ∧ (s.tstate t = 2 ∨ s.tstate t = 5) ∧ (s.fetch t).1 = .word (encE opc 0 rs 0 tag) ∧
  (s.fetch t).2.engineIssue t tag (s.g t rs).toNat = (.go d, b)

/-- The operation that an engine instruction of an opcode forms. -/
def opFor (s : State) (opc t tag : Nat) (d : Octets) : EngineOp :=
  { thread := t, tag := tag, engine := opc - 0x4F, desc := d, colour := (s.thread t).colour, warden := (s.thread t).warden }

/-- The instruction puts its operation in flight, as the engine's function has made it. -/
def Launches (s : State) (opc t tag : Nat) (d : Octets) (b : State) (make : EngineOp → State → EngineOp × State)
    (o : Outcome) : Prop :=
  o = .next ((make (opFor s opc t tag d) (b.issued t)).2.launch (make (opFor s opc t tag d) (b.issued t)).1)

/-- A reading as a number of octet positions from reading 0 (R44). -/
def positions (r : Word) : Int := (frameOf r : Int) * 16320 + offsetOf r

/-- A signed number of 48 bits from a difference of frame counts (R52). -/
def frameDiff (a b : Word) : Int := signed 48 ((frameOf a + (2 ^ 48 - frameOf b)) % 2 ^ 48)

end Sys2Proof.Claims

section

open Sys2Proof Sys2Proof.Machine Sys2Proof.Claims

/-- R375, R376, R52: RDS, GREAD, GADV and GDIST, with the selectors that are not defined, and readings with an offset of
16,320 or more, which are host errors (R10). -/
def Sys2Proof.Claims.BalridReadings : Prop :=
  ∀ (s : State) (t : ThreadNo) (rd rs1 rs2 : GReg) (sel : Fin 64),
    let b := begun s t
    let x := s.g t rs1
    let y := s.g t rs2
    let rds := fun (n : Fin 32) (v : Word) => Ready s t (encA 0x01 rd 0 n 5) → Puts s t rd v (exec (.balRds t rd n) s)
    let gread := encG rd 0 0 sel 0
    let gadv := encG rd rs1 rs2 0 3
    let gdist := encG rd rs1 rs2 0 4
    rds 0 (BitVec.ofNat 64 t) ∧
    rds 1 (BitVec.ofNat 64 (t.val / 8)) ∧
    rds 2 (BitVec.ofNat 64 (b.rd TID_THRCFG.ROLE t * 2 ^ 30 + b.rd TID_THRCFG.WARDEN t * 2 ^ 29 +
      b.rd TID_THRCFG.COLOUR t * 2 ^ 20)) ∧
    rds 3 s.tick ∧
    rds 4 (BitVec.ofNat 64 (b.rd CMP_EPOCH.EPOCH)) ∧
    rds 5 (BitVec.ofNat 64 (b.rd GBL_MODE.MODE)) ∧
    rds 6 (BitVec.ofNat 64 (s.thread t).tags.length) ∧
    (∀ n : Fin 32, 7 ≤ n.val → Ready s t (encA 0x01 rd 0 n 5) →
      exec (.balRds t rd n) s = .next (b.takeTrap t 1 0 (encA 0x01 rd 0 n 5) 0)) ∧
    (Ready s t gread → sel.val < 18 → Puts s t rd (b.reg .GAU_READ sel) (exec (.balGread t rd sel) s)) ∧
    (Ready s t gread → 32 ≤ sel.val → sel.val < 50 → Puts s t rd (b.reg .GAU_FAR (sel - 32)) (exec (.balGread t rd sel) s)) ∧
    (Ready s t (encG rd 0 0 63 0) → b.rd GAU_RECORD.GROUP < 18 →
      Puts s t rd (b.reg .GAU_READ (b.rd GAU_RECORD.GROUP)) (exec (.balGread t rd 63) s)) ∧
    (Ready s t gread → selValid sel = false → exec (.balGread t rd sel) s = .next (b.takeTrap t 1 0 gread 0)) ∧
    (Ready s t gadv → offsetOf x < 16320 →
      let p := (positions x + y.toInt) % (2 ^ 48 * 16320)
      Puts s t rd (reading (p / 16320).toNat (p % 16320).toNat) (exec (.balGadv t rd rs1 rs2) s)) ∧
    (Ready s t gadv → 16320 ≤ offsetOf x → exec (.balGadv t rd rs1 rs2) s = .fault .hostError) ∧
    (Ready s t gdist → 16320 ≤ offsetOf x ∨ 16320 ≤ offsetOf y → exec (.balGdist t rd rs1 rs2) s = .fault .hostError) ∧
    (Ready s t gdist → offsetOf x < 16320 → offsetOf y < 16320 →
      Puts s t rd (BitVec.ofInt 64 (frameDiff x y * 16320 + offsetOf x - offsetOf y)) (exec (.balGdist t rd rs1 rs2) s))

/-- R53, R54, R335, R336, R376: WAITG and ATG on a valid selector, on time, late, and with no place free; and WAITG's
completion when its target is reached. -/
def Sys2Proof.Claims.BalridGaugeEvents : Prop :=
  ∀ (s : State) (t : ThreadNo) (rd rs1 rs2 : GReg) (sel : Fin 64),
    let b := begun s t
    let c := b.resolveSel sel
    let x := s.g t rs1
    let passed := b.selRuns c = true ∧ atOrAfter (b.selReading c) x = true
    let waitg := encG rd rs1 0 sel 1
    let atg := encG rd rs1 rs2 sel 2
    (Ready s t waitg → selValid sel = true → offsetOf x < 16320 → ¬passed → Gives (exec (.balWaitg t rd rs1 sel) s) fun u =>
      u.thread t = { s.thread t with cmp := some (c, x), hold := .waitg rd } ∧ u.tstate t = 4 ∧
      (∀ k, k ≠ t.val → u.thread k = s.thread k) ∧ u.line = s.line ∧ u.pools = s.pools) ∧
    (Ready s t waitg → selValid sel = true → offsetOf x < 16320 → passed → Gives (exec (.balWaitg t rd rs1 sel) s) fun u =>
      u = (b.mark GAU_STAT.PAST (if c < 18 then c else c - 32)).writeStep t rd 1) ∧
    (∀ k target d, (s.thread t).cmp = some (k, target) → (s.thread t).hold = .waitg d → s.selRuns k = true →
      atOrAfter (s.selReading k) target = true → Gives (exec (.balWaitgDue t) s) fun u =>
        GoesOn s u t d 0 ∧ (u.thread t).cmp = none ∧ u.pools = s.pools ∧ u.line = s.line) ∧
    (Ready s t waitg → selValid sel = true → 16320 ≤ offsetOf x → exec (.balWaitg t rd rs1 sel) s = .fault .hostError) ∧
    (Ready s t atg → selValid sel = true → (s.g t rs2).toNat % 4 = 0 → 16320 ≤ offsetOf x →
      exec (.balAtg t rd rs1 rs2 sel) s = .fault .hostError) ∧
    (Ready s t atg → selValid sel = true → (s.g t rs2).toNat % 4 = 0 → offsetOf x < 16320 →
      let block : AtgBlock := { sel := c, core := t.val / 8, warden := (s.thread t).warden, colour := (s.thread t).colour,
                                pc := s.g t rs2, arg := s.g t rd, target := x }
      let e : PendEvent := { sel := c, target := x, kind := .atg block }
      (4096 ≤ b.line.events.length → Puts s t rd 2 (exec (.balAtg t rd rs1 rs2 sel) s)) ∧
      (b.line.events.length < 4096 → ¬passed → exec (.balAtg t rd rs1 rs2 sel) s =
        .next ((State.writeStep { b with line := { b.line with events := b.line.events ++ [e] } }) t rd 0)) ∧
      (b.line.events.length < 4096 → passed → exec (.balAtg t rd rs1 rs2 sel) s =
        .next ((b.dispatchEvent e true).writeStep t rd 1))) ∧
    (Ready s t atg → selValid sel = true → (s.g t rs2).toNat % 4 ≠ 0 →
      exec (.balAtg t rd rs1 rs2 sel) s = .next (b.takeTrap t 5 0 atg (s.g t rs2).toNat)) ∧
    (selValid sel = false →
      (Ready s t waitg → exec (.balWaitg t rd rs1 sel) s = .next (b.takeTrap t 1 0 waitg 0)) ∧
      (Ready s t atg → exec (.balAtg t rd rs1 rs2 sel) s = .next (b.takeTrap t 1 0 atg 0)))

/-- R334, R389: WAITC and WAITC.ANY take a completion word, wait for one, or answer all ones. -/
def Sys2Proof.Claims.BalridTags : Prop :=
  ∀ (s : State) (t : ThreadNo) (rd : GReg) (tag : BitVec 8),
    let one := encE 0x58 rd 0 0 tag.toNat
    let all := encE 0x58 rd 0 1 0
    let takes := fun (n : Nat) (w : Word) (u : State) =>
      (∀ r, u.g t r = if r = 0 then 0 else if r = rd then w else s.g t r) ∧
      (∀ k, u.tag t k = if k = n then .idle else s.tag t k) ∧
      (u.thread t).doneOrder = (s.thread t).doneOrder.filter (· ≠ n) ∧ (u.thread t).pc = (s.thread t).pc + 4 ∧
      (∀ k, k ≠ t.val → u.thread k = s.thread k) ∧
      u = { begun s t with tide := { (begun s t).tide with threads := u.tide.threads } }
    let waits := fun (h : Hold) (u : State) =>
      u.thread t = { s.thread t with hold := h } ∧ u.tstate t = 3 ∧ (∀ k, k ≠ t.val → u.thread k = s.thread k) ∧
      u.pools = s.pools ∧ u.tide.ops = s.tide.ops
    (∀ w, Ready s t one → s.tag t tag.toNat = .done w → Gives (exec (.balWaitc t rd tag) s) (takes tag.toNat w)) ∧
    (Ready s t one → s.tag t tag.toNat = .outstanding → Gives (exec (.balWaitc t rd tag) s) (waits (.waitc rd tag.toNat))) ∧
    (Ready s t one → s.tag t tag.toNat = .idle → Puts s t rd (BitVec.allOnes 64) (exec (.balWaitc t rd tag) s)) ∧
    (∀ n l w, Ready s t all → (s.thread t).doneOrder = n :: l → s.tag t n = .done w →
      Gives (exec (.balWaitcAny t rd) s) (takes n w)) ∧
    (Ready s t all → (s.thread t).doneOrder = [] → (s.thread t).tags ≠ [] →
      Gives (exec (.balWaitcAny t rd) s) (waits (.waitcAny rd))) ∧
    (Ready s t all → (s.thread t).tags = [] → (s.thread t).doneOrder = [] →
      Puts s t rd (BitVec.allOnes 64) (exec (.balWaitcAny t rd) s))

/-- R331, R332, R388, R393 to R398: MOV.M, CTRD, CTRD_CLEAR and an operation with a descriptor that fails its engine's
checks are put in flight as their engine has carried them out; a MOV.M copy whose areas overlap is a host error. A
descriptor that cannot be read traps with cause 0x0A, a tag that is not idle with cause 0x07, and without a free slot the
thread is Stalled. -/
def Sys2Proof.Claims.EngineCalls : Prop :=
  ∀ (s b : State) (t : ThreadNo) (tag : BitVec 8) (rs : GReg) (d : Octets) (bad : List (BitVec 32)),
    let mov := opFor s 0x54 t tag.toNat d
    let called := fun (opc : Nat) => Calls s opc t tag.toNat rs d b
    (called 0x54 → descFlags d % 2 = 0 → movOk d = true → movOverlaps d = true →
      exec (.balMovMCopy t tag rs) s = .fault .hostError) ∧
    (∀ o c, called 0x54 → movAct mov (b.issued t) = .next (o, c) →
      (descFlags d % 2 = 0 → exec (.balMovMCopy t tag rs) s = .next (c.launch o)) ∧
      (descFlags d % 2 = 1 → exec (.balMovMFill t tag rs) s = .next (c.launch o))) ∧
    (called 0x55 → descFlags d % 2 = 0 → Launches s 0x55 t tag.toNat d b (ctrdAct bad) (exec (.balCtrd t tag rs bad) s)) ∧
    (called 0x55 → descFlags d % 2 = 1 →
      Launches s 0x55 t tag.toNat d b (ctrdAct bad) (exec (.balCtrdClear t tag rs bad) s)) ∧
    (∀ opc : Fin 6, called (0x50 + opc) → descForm opc d = false →
      Launches s (0x50 + opc) t tag.toNat d b (engineMake opc) (exec (.engineOpInvalid opc t tag rs) s)) ∧
    (∀ opc w, (s.thread t).hold = .none → s.tstate t = 2 ∨ s.tstate t = 5 → w = encE opc 0 rs 0 tag.toNat →
      (s.fetch t).1 = .word w →
      let begins := fun (c : Instr) => (opc = 0x54 ∧ (c = .balMovMCopy t tag rs ∨ c = .balMovMFill t tag rs)) ∨
        (opc = 0x55 ∧ (c = .balCtrd t tag rs bad ∨ c = .balCtrdClear t tag rs bad))
      (∀ c cause addr, begins c → (s.fetch t).2.engineIssue t tag.toNat (s.g t rs).toNat = (.trap cause addr, b) →
        (cause = 0x0A ∨ cause = 7) ∧ exec c s = .next (b.takeTrap t cause 0 w addr)) ∧
      (∀ c, begins c → (s.fetch t).2.engineIssue t tag.toNat (s.g t rs).toNat = (.stall, b) →
        64 ≤ b.slotsUsed (t.val / 8) ∧ exec c s = .next (b.setTstate t 5))) ∧
    (∀ o : EngineOp, o.desc = d → movOk d = false → movAct o b = .next (o.fail 1, b)) ∧
    (∀ o : EngineOp, o.desc = d → ctrdForm d = false → ctrdAct bad o b = (o.fail 1, b))

/-- R24, R331 to R333, R387: an operation put in flight takes its tag and a slot; its completion, once no earlier
operation on its object is left, writes its results, gives back the slot, for which the threads of the core that are
Stalled run again, and makes the tag done with the completion word. -/
def Sys2Proof.Claims.EngineOperations : Prop :=
  (∀ (s : State) (o : EngineOp), o.thread < 256 →
    let u := s.launch o
    u.tide.ops = s.tide.ops ++ [o] ∧ u.tag o.thread o.tag = .outstanding ∧
    (∀ k, k ≠ o.tag → u.tag o.thread k = s.tag o.thread k) ∧ (∀ r, u.g o.thread r = s.g o.thread r) ∧
    (u.thread o.thread).pc = (s.thread o.thread).pc + 4 ∧ u.tstate o.thread = 2 ∧
    (∀ k, k ≠ o.thread → u.thread k = s.thread k) ∧
    u.ctr Ctrs.ENGINE_OPS (o.thread / 8) = (s.ctr Ctrs.ENGINE_OPS (o.thread / 8)).add 1 ∧
    u = { s with tide := u.tide, regs := u.regs, counters := u.counters }) ∧
  (∀ (s : State) (t : ThreadNo) (tag : BitVec 8) (o : EngineOp),
    s.tide.ops.find? (fun o => decide (o.thread = t.val) && decide (o.tag = tag.toNat)) = some o →
    let done := exec (.engineOpComplete t tag) s
    let held := s.basin.held = none ∧ s.delta.held = none
    (o.acted = false ∨ s.opBlocked o = true → done = .next s) ∧
    (o.acted = true → s.opBlocked o = false → done = s.completeOp o) ∧
    (o.acted = true → s.opBlocked o = false → o.discard = false → descRes o.desc = 0 → held →
      (s.thread t).hold = .none → Gives done fun u =>
        u.tide.ops = s.tide.ops.erase o ∧ u.tag t tag.toNat = .done o.word ∧
        (u.thread t).doneOrder = (s.thread t).doneOrder ++ [tag.toNat] ∧
        (∀ k, k ≠ t.val → u.thread k = s.thread k) ∧
        (∀ k : ThreadNo, u.tstate k = if k.val / 8 = t.val / 8 ∧ s.tstate k = 5 then 2 else s.tstate k) ∧
        u = { s with tide := u.tide, regs := u.regs }) ∧
    (∀ d, o.acted = true → s.opBlocked o = false → o.discard = false → descRes o.desc = 0 → held →
      (s.thread t).hold = .waitc d tag.toNat → Gives done fun u =>
        GoesOn s u t d o.word ∧ u.tag t tag.toNat = .idle ∧ u.tide.ops = s.tide.ops.erase o) ∧
    (o.acted = true → s.opBlocked o = false → o.discard = true → descRes o.desc = 0 → held → Gives done fun u =>
      u.tide.threads = s.tide.threads ∧ u.tide.ops = s.tide.ops.erase o))

end

namespace Sys2Proof.Claims

open Sys2Proof Sys2Proof.Machine

/-- What a field holds after a write of a word to its register, by its access code (R11). -/
def fieldAfter (f : Field) (old new : Nat) : Nat :=
  match f.acc with
  | .rw => new
  | .rws => new
  | .rw1c => old &&& (2 ^ (f.hi + 1 - f.lo) - 1 - new)
  | _ => old

/-- A whole register lies at an offset, and an access of `n` octets reaches it with no half left out. -/
def WholeAt (off n : Nat) (r : Reg) (i j : Nat) : Prop :=
  off < 0x01A00000 ∧ off % n = 0 ∧ n = r.place.octets ∧ (n = 4 ∨ n = 8) ∧ Reg.locate off = some (r, i, j, 0)

/-- A failed host access is recorded (R675): HOST_REF, and the address of the first that failed. -/
def HostFailed (s u : State) (a : Nat) : Prop :=
  u.rd HIF_STAT.HOST_REF = 1 ∧ (s.rd HIF_STAT.HOST_REF = 0 → u.reg .HIF_HERR = BitVec.ofNat 64 a) ∧
  (s.rd HIF_STAT.HOST_REF = 1 → u.reg .HIF_HERR = s.reg .HIF_HERR) ∧ (u.rd HIF_CAUSE.CAUSE).testBit 3 = true

end Sys2Proof.Claims

section

open Sys2Proof Sys2Proof.Machine Sys2Proof.Claims

/-- R11: what a write stores in each field of a register that has no rule of its own for writes. -/
def Sys2Proof.Claims.AccessCodes : Prop :=
  ∀ (s : State) (r : Reg) (i j : Nat) (v : Word) (f : Field), f ∈ r.fields →
    (s.plainWrite r v i j).rd f i j = fieldAfter f (s.rd f i j) (f.of v) ∧ f.reg = r ∧
    (∀ q k l, q.off k l ≠ r.off i j → (s.plainWrite r v i j).reg q k l = s.reg q k l) ∧
    (s.plainWrite r v i j) = { s with regs := (s.plainWrite r v i j).regs }

/-- R11, R13, R512, R708 to R711, R720: a master's write to the register space, for every kind of offset. -/
def Sys2Proof.Claims.RegisterWrites : Prop :=
  ∀ (s : State) (m : Master) (off : BitVec 26) (wide : Bool) (v : Word) (r : Reg) (i j : Nat),
    let n := if wide then 8 else 4
    let w : Word := BitVec.ofNat 64 (v.toNat % 2 ^ (8 * n))
    WholeAt off.toNat n r i j → isWindow r = false →
    (guardedBlock off.toNat = false ∨ s.trusted m = true → spareBits r = 0 → rsvdOk r w = true →
      (∀ u, regStore s m r i j w = .next u → exec (.registerWrite m off wide v) s = .next u) ∧
      ((∀ a b c d, regStore a m r b c d = .next (a.plainWrite r d b c)) →
        Gives (exec (.registerWrite m off wide v) s) fun u =>
          (∀ f ∈ r.fields, u.rd f i j = fieldAfter f (s.rd f i j) (f.of w)) ∧ OnlyRegs s u [r.off i j])) ∧
    (guardedBlock off.toNat = false ∨ s.trusted m = true → rsvdOk r w = false →
      exec (.registerWrite m off wide v) s = .fault .hostError) ∧
    (guardedBlock off.toNat = true → s.trusted m = false →
      exec (.registerWrite m off wide v) s = .next (s.writeRefused m off.toNat))

/-- R708, R709, R348, R675: accesses to unlisted offsets and to offsets that no block has. -/
def Sys2Proof.Claims.OtherOffsets : Prop :=
  ∀ (s : State) (m : Master) (off : BitVec 26) (wide : Bool),
    (unlisted off.toNat true = true → exec (.unlistedOffsetAccess m off wide true) s = .next s) ∧
    (unlisted off.toNat false = true → Gives (exec (.unlistedOffsetAccess m off wide false) s) fun u =>
      u = { s with out := .readReply m (some (List.replicate (if wide then 8 else 4) 0)) :: s.out }) ∧
    (0x01A00000 ≤ off.toNat →
      (Gives (exec (.unmappedBar0Access .host off true) s) fun u => HostFailed s u off.toNat) ∧
      (Gives (exec (.unmappedBar0Access .host off false) s) fun u => HostFailed s u off.toNat ∧
        u.out.head? = some (.readReply .host none)) ∧
      (∀ t : ThreadNo, s.issues t = true → Gives (exec (.unmappedBar0Access (.thread t) off false) s) fun u => ∃ w,
        u = State.takeTrap { s with draws := s.draws + 1 } t 4 0 w off.toNat) ∧
      exec (.unmappedBar0Access .debug off false) s = .next { s with out := .readReply .debug none :: s.out })

/-- R616, R673 to R675: the host's reads and writes. -/
def Sys2Proof.Claims.HostAccesses : Prop :=
  ∀ (s : State) (off : BitVec 36) (n : Nat), s.rd GBL_MODE.MODE ≠ 0 →
    let a := off.toNat
    let q := s.requester .host
    (s.rd GBL_POC.DONE = 1 → (n = 4 ∨ n = 8) → a % n = 0 → a + n ≤ 0x4000000 →
      (∀ d u, s.busRead q a n = (.data d, u) → exec (.hostAccess false off n none none) s =
        .next { u with out := .readReply .host (some d) :: u.out }) ∧
      (∀ r u, s.busRead q a n = (r, u) → (∀ d, r ≠ .data d) → Gives (exec (.hostAccess false off n none none) s) fun t =>
        HostFailed u t a ∧ t.out.head? = some (.readReply .host none)) ∧
      (∀ d u, d.length = n → s.busWrite q a d = .next (.done, u) →
        exec (.hostAccess false off n (some d) none) s = .next u) ∧
      (∀ d r u, d.length = n → s.busWrite q a d = .next (r, u) → r ≠ .done →
        Gives (exec (.hostAccess false off n (some d) none) s) (HostFailed u · a))) ∧
    (s.rd GBL_POC.DONE = 1 → (n ≠ 4 ∧ n ≠ 8) ∨ a % n ≠ 0 → 0 < n → a + n ≤ 0x4000000 →
      Gives (exec (.hostAccess false off n none none) s) fun u => HostFailed s u a ∧
        u.out.head? = some (.readReply .host none)) ∧
    (s.rd GBL_POC.DONE = 0 → 0 < n → a + n ≤ 0x4000000 → ∀ d, Gives (exec (.hostAccess false off n (some d) none) s)
      (HostFailed s · a)) ∧
    (s.rd GBL_POC.DONE = 1 → 0 < n → a + n ≤ 2 ^ s.bar2Log → ∀ bic,
      let b := 0x1000000000 + s.rd HIF_BAR2WIN.WIN * 2 ^ s.bar2Log + a
      exec (.hostAccess true off n none bic) s = .next (s.hostRead bic (pieces (n + 1) b n)) ∧
      ∀ d, d.length = n → exec (.hostAccess true off n (some d) bic) s = s.hostWrite bic 0 (pieces (n + 1) b n) d)

/-- R518: the debug master's reads and writes: an access that is not granted reads zeros, or is dropped. -/
def Sys2Proof.Claims.DebugAccesses : Prop :=
  ∀ (s : State) (addr v : Word) (n : Nat), s.rd GBL_MODE.MODE ≠ 0 → (n = 1 ∨ n = 2 ∨ n = 4 ∨ n = 8) → addr.toNat % n = 0 →
    let a := addr.toNat
    let q := s.requester .debug
    (∀ d u, s.busRead q a n = (.data d, u) →
      exec (.debugAccess addr n none) s = .next { u with out := .readReply .debug (some d) :: u.out }) ∧
    (∀ u, s.busRead q a n = (.locked, u) → exec (.debugAccess addr n none) s =
      .next { u with out := .readReply .debug (some (List.replicate n 0)) :: u.out }) ∧
    (∀ u, s.busRead q a n = (.bus, u) →
      exec (.debugAccess addr n none) s = .next { u with out := .readReply .debug none :: u.out }) ∧
    (∀ r u, s.busWrite q a (leBytes n v.toNat) = .next (r, u) → exec (.debugAccess addr n (some v)) s = .next u) ∧
    (s.rd GBL_MODE.MODE ≠ 2 → s.rd GBL_DEBUG.OPEN = 0 →
      Gives (exec (.debugAccess addr n none) s) fun u =>
        u.out.head? = some (.readReply .debug (some (List.replicate n 0))) ∧ u.rd CMP_STAT.DBG_LOCK = 1 ∧
        u.ctr Ctrs.CMP_DBG_LOCKED = (s.ctr Ctrs.CMP_DBG_LOCKED).add 1 ∧ u.pools = s.pools)

end

section

open Sys2Proof Sys2Proof.Machine Sys2Proof.Claims

/-- R638 to R645, R650: network time set, adjusted, invalidated and steered, its latched read, 1PPS in and out, and
the read that removes a time stamp. Where the spec leaves a point open it is the model's: log entries 28, 35, 84. -/
def Obligations.NetworkTime : Prop :=
  ∀ (s : State),
    (s.rd CLK_STAT.VALID = 1 → Gives (exec .clkSet s) fun u =>
      u.rd CLK_STAT.REFUSED = 1 ∧ u.rd CLK_STAT.VALID = 1 ∧ OnlyRegs s u [Reg.off .CLK_STAT 0 0]) ∧
    (s.rd CLK_STAT.VALID = 0 → Gives (exec .clkSet s) fun u => u.rd CLK_STAT.VALID = 1 ∧
      u.timeNow = timeWrap (s.rd CLK_SET1.SEC * second + s.rd CLK_SET0.NS * 2 ^ 16 + s.rd CLK_SET0.FRAC) ∧
      u = { s with regs := u.regs, clock := { s.clock with base := u.clock.base, baseTick := s.tick } }) ∧
    (let step := signed 64 (s.reg .CLK_ADJ).toNat
     (step.natAbs ≤ s.rd CLK_JUMP.JUMP * 2 ^ 16 → s.rd CLK_STAT.VALID = 1 → Gives (exec .clkAdj s) fun u =>
       (u.timeNow : Int) = (s.timeNow + step) % ((2 ^ 48 * second : Nat) : Int) ∧
       u = { s with clock := { s.clock with base := u.clock.base, baseTick := s.tick } }) ∧
     (s.rd CLK_JUMP.JUMP * 2 ^ 16 < step.natAbs → Gives (exec .clkAdj s) fun u => u.rd CLK_STAT.REFUSED = 1 ∧
       u.clock = s.clock ∧ u.ctr Ctrs.ADJ_REFUSED = (s.ctr Ctrs.ADJ_REFUSED).add 1)) ∧
    (Gives (exec .clkInval s) fun u => u.rd CLK_STAT.VALID = 0 ∧ u.clock = s.clock ∧ u.timeNow = timeWrap (elapsed s.tick.toNat 0)) ∧
    (∀ v : BitVec 32, Gives (exec (.clkRateWrite v) s) fun u => u.rd CLK_RATE.RATE = v.toNat ∧ u.timeNow = s.timeNow ∧
      RegsKept s u [Reg.off .CLK_RATE 0 0] ∧ u = { s with regs := u.regs, clock := u.clock }) ∧
    (∀ m wide, Gives (exec (.clkTimeLatch m wide) s) fun u =>
      u.out.head? = some (.readReply m (some (leBytes (if wide then 8 else 4) (time0 s.timeNow).toNat))) ∧
      u.latched m (Reg.off .CLK_TIME0 0 0) = some (time0 s.timeNow) ∧
      u.latched m (Reg.off .CLK_TIME1 0 0) = some (time1 s.timeNow) ∧
      u.latched m (Reg.off .CLK_TICK 0 0) = some s.tick ∧ u = { s with latches := u.latches, out := u.out }) ∧
    (∀ now, atOrAfter now s.tick = true →
      let s0 : State := { s with tick := now }
      ((∀ e, s.clock.edge = some e → 150000000 ≤ (now - e).toNat) → Gives (exec (.ppsInEdge now) s) fun u =>
        u.reg .CLK_PPSIN0 = time0 s0.timeNow ∧ u.reg .CLK_PPSIN1 = time1 s0.timeNow ∧ u.reg .CLK_PPSTICK = now ∧
        u.rd CLK_STAT.PPS_SEEN = 1 ∧ u.clock.edge = some now) ∧
      (∀ e, s.clock.edge = some e → (now - e).toNat < 150000000 → Gives (exec (.ppsInEdge now) s) fun u =>
        u.ctr Ctrs.PPS_GLITCH = (s.ctr Ctrs.PPS_GLITCH).add 1 ∧ u = { s0 with counters := u.counters }) ∧
      (let d := secondsAhead s.clock.pulsed (timeSec s0.timeNow)
       s.rd CLK_PPS.PPS_OUT_EN = 1 → 0 < d → Gives (exec (.ppsOutPulse now) s) fun u =>
         u.out = .ppsOut true :: s.out ∧ u.clock.pulsed = timeSec s0.timeNow ∧ u.clock.high = some now ∧
         (d = 1 → u.counters = s.counters) ∧
         (1 < d → u.ctr Ctrs.PPS_SKIP = (s.ctr Ctrs.PPS_SKIP).add (d - 1)) ∧ u.regs = s.regs) ∧
      (∀ t, s.clock.high = some t → max 1 (s.rd CLK_PPS.WIDTH) * 1500000 ≤ (now - t).toNat →
        Gives (exec (.ppsOutFall now) s) fun u => u.out = .ppsOut false :: s.out ∧ u.clock.high = none ∧
          u.regs = s.regs)) ∧
    (∀ (m : Master) (n : Port) (wide : Bool) x rest, s.stamps n = x :: rest → rest.length < 128 →
      Gives (exec (.clkTsbRead m n wide) s) fun u => u.stamps n = rest ∧ u.rd CLK_PTP.USED n = rest.length ∧
        u.reg .CLK_TSA n = stampA x ∧ u.latched m (Reg.off .CLK_TSA n 0) = some (stampA x) ∧
        u.out.head? = some (.readReply m (some (leBytes (if wide then 8 else 4) (stampB x).toNat)))) ∧
    (∀ (m : Master) (n : Port) (wide : Bool), s.stamps n = [] → Gives (exec (.clkTsbRead m n wide) s) fun u =>
      u.out.head? = some (.readReply m (some (List.replicate (if wide then 8 else 4) 0))) ∧
      u = { s with latches := u.latches, out := u.out })

/-- R692, R693, R698, R701: what a report writes into the log when no record of its kind is there to merge with; and
while the reports of one cycle are gathered, its place among them, by ascending KIND and DETAIL. -/
def Sys2Proof.Claims.ErrorRecord : Prop :=
  (∀ (s : State) (kind detail : Nat) (g : Group) (l : List Report), s.log.held = some l →
    ∃ r a b, l = a ++ b ∧ r.kind = kind ∧ r.detail = detail ∧
      s.report kind detail g = { s with log := { s.log with held := some (a ++ r :: b) } } ∧
      (∀ x ∈ a, x.kind < kind ∨ x.kind = kind ∧ x.detail ≤ detail) ∧
      (∀ x, b.head? = some x → kind < x.kind ∨ kind = x.kind ∧ detail < x.detail)) ∧
  ∀ (s : State) (kind detail : Nat) (g : Group), s.log.held = none → kind < 256 → s.rd ELG_STAT.USED < 1024 →
    Tbl.get (1024, 0) s.log.newest kind = (1024, 0) → kindExempt kind = true ∨ s.rd ELG_CTL.LIMIT = 0 →
    let w := s.rd ELG_IDX.WR
    let u := s.report kind detail g
    bits (u.reg .ELG_LOG w 0).toNat 7 0 = kind ∧ bits (u.reg .ELG_LOG w 0).toNat 31 16 = 1 ∧
    bits (u.reg .ELG_LOG w 0).toNat 63 32 = s.rd ELG_SEQ.SEQ ∧
    u.reg .ELG_LOG w 1 = (if kindNamesGroup kind then s.reg .GAU_READ g else s.reg .GAU_READ (s.rd GAU_RECORD.GROUP)) ∧
    u.reg .ELG_LOG w 2 = BitVec.ofNat 64 detail ∧ u.reg .ELG_LOG w 3 = BitVec.ofNat 64 (detail / 2 ^ 64) ∧
    u.rd ELG_IDX.WR = (w + 1) % 1024 ∧ u.rd ELG_STAT.USED = s.rd ELG_STAT.USED + 1 ∧
    u.rd ELG_SEQ.SEQ = (s.rd ELG_SEQ.SEQ + 1) % 2 ^ 32 ∧
    u.rd ELG_KCNT.COUNT kind = (s.rd ELG_KCNT.COUNT kind + 1) % 2 ^ 48 ∧
    u.pools = s.pools ∧ u.recs = s.recs ∧ u.culvert = s.culvert ∧ u.tide.threads = s.tide.threads

/-- R699, R700, R703, R704, R706: windows of suppression, released slots, retired pages and Pools. -/
def Sys2Proof.Claims.ErrorLogCommands : Prop :=
  ∀ (s : State),
    (∀ now k n, atOrAfter now s.tick = true → now.toNat / 1500000 ≠ s.tick.toNat / 1500000 →
      s.log.suppressed = [(k, n)] → 0 < n → s.rd ELG_STAT.USED < 1024 →
      exec (.logWindow now) s = .next (State.report
        { s with tick := now, log := { s.log with suppressed := [], due := [] } } 0xF1 (k + n * 2 ^ 8))) ∧
    (∀ now, atOrAfter now s.tick = true → now.toNat / 1500000 = s.tick.toNat / 1500000 →
      exec (.logWindow now) s = .next { s with tick := now }) ∧
    (∀ v, rsvdOk .ELG_IDX v = true →
      let rd := ELG_IDX.RD.of v
      let gone := if rd = s.rd ELG_IDX.RD ∧ s.rd ELG_STAT.USED = 1024 then 1024
        else (rd + 1024 - s.rd ELG_IDX.RD) % 1024
      (gone ≤ s.rd ELG_STAT.USED → s.log.fullCount = 0 → s.log.due = [] → Gives (exec (.logRelease v) s) fun u =>
        u.rd ELG_IDX.RD = rd ∧ u.rd ELG_IDX.WR = s.rd ELG_IDX.WR ∧ u.rd ELG_STAT.USED = s.rd ELG_STAT.USED - gone ∧
        OnlyRegs s u [Reg.off .ELG_IDX 0 0, Reg.off .ELG_STAT 0 0]) ∧
      (s.rd ELG_STAT.USED < gone → Gives (exec (.logRelease v) s) fun u => u.rd ELG_STAT.IDX_ERR = 1 ∧
        OnlyRegs s u [Reg.off .ELG_STAT 0 0]) ∧
      (gone ≤ s.rd ELG_STAT.USED → 0 < gone → s.rd ELG_STAT.USED ≤ 1024 → 0 < s.log.fullCount → s.log.due = [] →
        Gives (exec (.logRelease v) s) fun u => u.log.fullCount = 0 ∧ ∃ b : State, u = b.report 0xF2
          (s.log.fullCount % 2 ^ 32) ∧ b.rd ELG_IDX.RD = rd ∧ b.rd ELG_STAT.USED = s.rd ELG_STAT.USED - gone)) ∧
    (∀ (n : Fin 256) v, rsvdOk .ELG_RETPAGE v = true →
      (s.rd ELG_RETPAGE.V n = 1 → exec (.retpageWrite n v) s = .next s) ∧
      (s.rd ELG_RETPAGE.V n = 0 → Gives (exec (.retpageWrite n v) s) fun u =>
        u.rd ELG_RETPAGE.V n = ELG_RETPAGE.V.of v ∧ u.rd ELG_RETPAGE.PAGE n = ELG_RETPAGE.PAGE.of v ∧
        OnlyRegs s u [Reg.off .ELG_RETPAGE n 0])) ∧
    (∀ v, rsvdOk .ELG_RETPOOL v = true →
      let m := ELG_RETPOOL.RET.of v
      ((∀ k, m.testBit k = true → (s.rd ELG_RETPOOL.RET).testBit k = false → s.treePool k = false) →
        Gives (exec (.retpoolWrite v) s) fun u => u.rd ELG_RETPOOL.RET = s.rd ELG_RETPOOL.RET ||| m ∧
          OnlyRegs s u [Reg.off .ELG_RETPOOL 0 0]) ∧
      (∀ k, k < 16 → m.testBit k = true → (s.rd ELG_RETPOOL.RET).testBit k = false → s.treePool k = true →
        Gives (exec (.retpoolWrite v) s) fun u => u.rd ELG_STAT.REJECT = 1 ∧ u.rd ELG_RETPOOL.RET = s.rd ELG_RETPOOL.RET))

end

section

open Sys2Proof Sys2Proof.Machine Sys2Proof.Claims

/-- R507, R514 to R517, R521, R526 to R528: the staged table, COMMIT, the hand-over of a Pool, held changes, the host
fence and the violation record; valid entries of different colours that overlap are a host error. -/
def Sys2Proof.Claims.ColourMapCommands : Prop :=
  ∀ (s : State),
    let epoch := s.rd CMP_EPOCH.EPOCH
    let liveNow := fun (busy : Bool) => if busy then s.access.live ++ [epoch] else s.access.live
    let stat := Reg.off .CMP_STAT 0 0
    let clash := ∃ n k, n < 512 ∧ k < 512 ∧ s.rd CMP_ATTR.V n = 1 ∧ s.rd CMP_ATTR.V k = 1 ∧
      s.rd CMP_START.START n ≤ s.rd CMP_END.END k ∧ s.rd CMP_START.START k ≤ s.rd CMP_END.END n ∧
      s.rd CMP_ATTR.COLOUR n ≠ s.rd CMP_ATTR.COLOUR k
    (∀ (which : Fin 3) (n : Fin 512) (v : Word), rsvdOk (stagedReg which) v = true →
      (s.rd CMP_CTL.PEND = 1 → Gives (exec (.cmpStageWrite which n v) s) fun u =>
        u.rd CMP_STAT.REJECT = 1 ∧ OnlyRegs s u [stat]) ∧
      (s.rd CMP_CTL.PEND = 0 → Gives (exec (.cmpStageWrite which n v) s) fun u =>
        OnlyRegs s u [(stagedReg which).off n 0] ∧ (which = 0 → u.rd CMP_START.START n = CMP_START.START.of v) ∧
        (which = 1 → u.rd CMP_END.END n = CMP_END.END.of v) ∧
        (which = 2 → u.rd CMP_ATTR.V n = CMP_ATTR.V.of v ∧ u.rd CMP_ATTR.X n = CMP_ATTR.X.of v ∧
          u.rd CMP_ATTR.W n = CMP_ATTR.W.of v ∧ u.rd CMP_ATTR.R n = CMP_ATTR.R.of v ∧
          u.rd CMP_ATTR.COLOUR n = CMP_ATTR.COLOUR.of v))) ∧
    (∀ busy, s.rd CMP_CTL.PEND = 0 → (∀ n, n < 512 → s.entryFaulty n = false) → ¬clash →
      ¬(busy = true ∧ 3 ≤ s.access.live.length) →
      Gives (exec (.commit busy) s) fun u =>
        (∀ n, n < 512 → u.reg .CMP_LSTART n = s.reg .CMP_START n ∧ u.reg .CMP_LEND n = s.reg .CMP_END n ∧
          u.reg .CMP_LATTR n = s.reg .CMP_ATTR n) ∧
        u.rd CMP_EPOCH.EPOCH = (epoch + 1) % 2 ^ 32 ∧ u.access.live = liveNow busy ∧
        u.ctr Ctrs.CMP_COMMITS = (s.ctr Ctrs.CMP_COMMITS).add 1 ∧
        u = { s with regs := u.regs, access := u.access, counters := u.counters }) ∧
    (∀ busy n, s.rd CMP_CTL.PEND = 0 → n < 512 → s.entryFaulty n = true → (∀ k, k < n → s.entryFaulty k = false) →
      Gives (exec (.commit busy) s) fun u => u.rd CMP_STAT.REJECT = 1 ∧ u.rd CMP_STAT.REJ_ENTRY = n ∧
        OnlyRegs s u [stat]) ∧
    (∀ busy, s.rd CMP_CTL.PEND = 0 → (∀ n, n < 512 → s.entryFaulty n = false) → clash →
      exec (.commit busy) s = .fault .hostError) ∧
    (s.rd CMP_CTL.PEND = 0 → (∀ n, n < 512 → s.entryFaulty n = false) → ¬clash → 3 ≤ s.access.live.length →
      Gives (exec (.commit true) s) fun u => u.access.held = some .commit ∧ u.access.live = s.access.live ∧
        u.rd CMP_CTL.PEND = 1 ∧ u.rd CMP_EPOCH.EPOCH = epoch ∧ u.ctr Ctrs.CMP_HELD = (s.ctr Ctrs.CMP_HELD).add 1 ∧
        ∀ n, n < 512 → u.reg .CMP_LATTR n = s.reg .CMP_LATTR n) ∧
    (∀ (k : PoolNo) (v : Word) busy, rsvdOk .POOL_OWN v = true → s.rd CMP_CTL.PEND = 0 →
      let c := POOL_OWN.OWNER.of v
      let barred := (c = 15 ∧ s.rd GBL_MODE.MODE ≠ 2) ∨ s.treePool k = true
      (barred → Gives (exec (.poolHandover k v busy) s) fun u => u.rd CMP_STAT.REJECT = 1 ∧ OnlyRegs s u [stat]) ∧
      (¬barred → s.rd POOL_OWN.OWNER k ≠ c → ¬(busy = true ∧ 3 ≤ s.access.live.length) →
        Gives (exec (.poolHandover k v busy) s) fun u => u.rd POOL_OWN.OWNER k = c ∧
          (∀ j, j < 16 → j ≠ k.val → u.rd POOL_OWN.OWNER j = s.rd POOL_OWN.OWNER j) ∧
          u.rd CMP_EPOCH.EPOCH = (epoch + 1) % 2 ^ 32 ∧ u.access.live = liveNow busy ∧
          u.ctr Ctrs.CMP_HANDOVERS = (s.ctr Ctrs.CMP_HANDOVERS).add 1 ∧ u.pools = s.pools)) ∧
    (∀ e rest c, s.access.live = e :: rest → s.access.held = some c → Gives (exec .heldChangeApply s) fun u =>
      u.access.held = none ∧ u.access.live = rest.filter (· ≠ e) ++ [epoch] ∧ u.rd CMP_CTL.PEND = 0 ∧
      u.rd CMP_EPOCH.EPOCH = (epoch + 1) % 2 ^ 32 ∧
      (∀ k o, c = .handover k o → k < 16 → o < 16 → u.rd POOL_OWN.OWNER k = o) ∧
      (c = .commit → ∀ n, n < 512 → u.reg .CMP_LATTR n = s.reg .CMP_ATTR n)) ∧
    (s.rd CMP_FENCE.BUSY = 0 → Gives (exec .cmpFenceStart s) fun u => u.access.fence = some epoch ∧
      u.rd CMP_FENCE.BUSY = 1 ∧ u.access.live = s.access.live ∧ RegsKept s u [Reg.off .CMP_FENCE 0 0]) ∧
    (∀ f, s.access.fence = some f → s.access.held = none → Gives (exec .cmpFenceDone s) fun u => u.access.fence = none ∧
      u.rd CMP_FENCE.BUSY = 0 ∧ u.access.live = s.access.live.filter (fun e => !epochOlder e f)) ∧
    (∀ v, rsvdOk .CMP_STAT v = true → Gives (exec (.violClear v) s) fun u =>
      u.rd CMP_STAT.VIOL = (if CMP_STAT.VIOL.of v = 1 then 0 else s.rd CMP_STAT.VIOL) ∧
      u.rd CMP_STAT.REJECT = (if CMP_STAT.REJECT.of v = 1 then 0 else s.rd CMP_STAT.REJECT) ∧
      u.rd CMP_STAT.REJ_ENTRY = s.rd CMP_STAT.REJ_ENTRY ∧
      (CMP_STAT.VIOL.of v = 1 → u.reg .CMP_VIOL = 0 ∧ u.reg .CMP_VINFO = 0) ∧
      OnlyRegs s u [stat, Reg.off .CMP_VIOL 0 0, Reg.off .CMP_VINFO 0 0])

/-- R508, R513: the judgment of the Colour Map: the lowest-numbered entry that covers the address decides, by colour and
rights, and the first refusal is captured. -/
def Sys2Proof.Claims.ColourJudgment : Prop :=
  ∀ (s : State) (q : Requester) (k : AccKind) (a n : Nat), q.m ≠ .debug →
    let named := s.rd CMP_LATTR.COLOUR n = q.colour
    let grants := rightsGrant k (s.is CMP_LATTR.R n) (s.is CMP_LATTR.W n) (s.is CMP_LATTR.X n) = true
    (n < 512 → s.covers n a = true → (∀ j, j < n → s.covers j a = false) →
      (named → grants → s.mapCheck q k a = .pass false) ∧
      (¬(named ∧ grants) → s.mapCheck q k a = .refuse false false n)) ∧
    ((∀ j, j < 512 → s.covers j a = false) →
      (q.dflt = false → s.mapCheck q k a = .refuse true false 0) ∧
      (q.dflt = true → 0x1000000000 ≤ a → a < 0x2000000000 → s.mapCheck q k a = .refuse true false 0) ∧
      (q.dflt = true → a < 0x4000000 → k ≠ .fetch → s.mapCheck q k a = .pass true)) ∧
    (s.rd CMP_STAT.VIOL = 0 → a < 2 ^ 64 → ∀ o d, d < 512 → q.colour < 16 →
      let u := s.refuse q k a false o d
      u.rd CMP_STAT.VIOL = 1 ∧ u.reg .CMP_VIOL = BitVec.ofNat 64 a ∧ u.rd CMP_VINFO.COLOUR = q.colour ∧
      u.ctr Ctrs.CMP_REFUSED q.colour = (s.ctr Ctrs.CMP_REFUSED q.colour).add 1) ∧
    (s.rd CMP_STAT.VIOL = 1 → ∀ dd o d, (s.refuse q k a dd o d).reg .CMP_VIOL = s.reg .CMP_VIOL)

end

section

open Sys2Proof Sys2Proof.Machine Sys2Proof.Claims

/-- R45 to R47, R49, R54, R55, R63, R64, R563, R567: a frame start and an epoch start carry out their steps in the order
of R55, with what the steps of the Gauge itself do and what the frame carries out. -/
def Sys2Proof.Claims.GaugeFrames : Prop :=
  (∀ (s : State) (g : Group) (stale : List RaceNo) (now : Word), atOrAfter now s.tick = true →
    let s0 : State := { s with tick := now }
    (s.rd GAU_STAT.RUN g = 0 → exec (.gaugeFrameStart g stale now) s = .next s0) ∧
    (s.rd GAU_STAT.RUN g = 1 →
      let f := (frameOf (s.reg .GAU_READ g) + 1) % 2 ^ 48
      let work := (((s0.gaugeAt g f).multiframeBefore g f).frameWork g f stale).multiframeAfter g f
      exec (.gaugeFrameStart g stale now) s =
        .next (((work.gaugeSend g f).dispatchDue g (reading f 0) (fun _ => false)).waitsDue g
          (reading f 0))) ∧
    (s.rd FRM_CTL.TX_EN g = 1 → s.rd GAU_STAT.RUN g = 0 →
      let f := s.rd GAU_PRESET.FRAME g
      ∃ begin : State, begin.rd GAU_STAT.RUN g = 1 ∧ begin.rd GAU_STAT.EPOCH g = (s.rd GAU_STAT.EPOCH g + 1) % 2 ^ 16 ∧
        begin.reg .GAU_FPER g = 0 ∧ begin.pools = s.pools ∧ begin.recs = s.recs ∧ begin.tide = s.tide ∧
        (s.switchPast g (reading f 0) = true → begin.rd GAU_STAT.PAST g = 1) ∧
        let work := (((begin.gaugeAt g f).multiframeBefore g f).frameWork g f []).multiframeAfter g f
        exec (.epochStart g now) s =
          .next ((work.gaugeSend g f).compareFirst g (reading f 0)))) ∧
  (∀ (s : State) (g : Group) (f : Nat),
    (s.gaugeAt g f).reg .GAU_READ g = reading f 0 ∧ (s.gaugeAt g f).reg .GAU_FTICK g = s.tick ∧
    OnlyRegs s (s.gaugeAt g f) [Reg.off .GAU_READ g 0, Reg.off .GAU_FTICK g 0] ∧
    (s.gaugeSend g f).out = (if f % 256 = 0 then
        [.msi g ((List.range (20 * s.otucs g)).map fun n => s.reg .FRM_TSLIVE g n)] else []) ++
      [.slots g ((List.range (20 * s.otucs g)).map (s.slotSignal g)),
       .gaugeOctet g (BitVec.ofNat 8 f) (s.rd FRM_GPOS.SLICE g) (s.rd FRM_GPOS.POS g) (gaugeOctet f)] ++ s.out ∧
    s.gaugeSend g f = { s with out := (s.gaugeSend g f).out } ∧
    (s.leaseHeld g = true → s.disputed g = false → (s.renew g f).rd WEI_LEASE.RENEW g = f % 2 ^ 16 ∧
      ((s.renew g f).wgrp g).term = s.tick.toNat)) ∧
  (∀ f : Nat, f < 2 ^ 48 →
    (∀ j, j < 5 → f % 256 = j → (gaugeOctet f).toNat = f / 256 / 2 ^ (8 * (4 - j)) % 256) ∧
    (f % 256 = 5 → gaugeOctet f = (beBytes 5 (f / 256)).foldl (· ^^^ ·) 0x5A) ∧
    (5 < f % 256 → gaugeOctet f = 0))

/-- R53, R54, R56, R60 to R62, R64 to R68, R70: events that come due, the Far Gauge's word, snapshots, the Gauge of record
and latched reads. -/
def Sys2Proof.Claims.GaugeCommands : Prop :=
  (∀ (s : State) (sel : Nat) (r : Word), s.selRuns sel = true → atOrAfter r (s.selReading sel) = true → offsetOf r < 16320 →
    (sel < 18 → frameOf r = frameOf (s.selReading sel) → exec (.gaugeEventDue sel r) s =
      .next ((s.setReg .GAU_READ r sel).dispatchDue sel r (fun _ => false))) ∧
    (32 ≤ sel → sel < 50 → exec (.gaugeEventDue sel r) s =
      .next ((s.setReg .GAU_FAR r (sel - 32)).dispatchDue sel r (fun _ => false)))) ∧
  (∀ (s : State) (sel : Nat) (r : Word) (block : PendEvent → AtgBlock),
    let isDue := fun e : PendEvent => decide (e.sel = sel) && atOrAfter r e.target
    (∀ e ∈ s.line.events, isDue e = true → e.kind = .atg (block e) ∧ (block e).sel = sel) →
    (∀ b ∈ s.tide.due, b.dueAt = s.tick.toNat → b.sel ≤ sel) →
    let u := s.dispatchDue sel r (fun _ => false)
    u.tide.due = s.tide.due ++ (s.line.events.filter isDue).map (fun e => { block e with dueAt := s.tick.toNat }) ∧
    u.line.events = s.line.events.filter (fun e => !isDue e) ∧
    u = { s with tide := { s.tide with due := u.tide.due }, line := { s.line with events := u.line.events } }) ∧
  (∀ (s : State) (e : PendEvent) (b : AtgBlock) (late : Bool) (before after : List AtgBlock), e.kind = .atg b →
    s.tide.due = before ++ after → (∀ x ∈ after, x.dueAt = s.tick.toNat ∧ e.sel < x.sel) →
    (∀ x, before.getLast? = some x → ¬(x.dueAt = s.tick.toNat ∧ e.sel < x.sel)) →
    (s.dispatchEvent e late).tide.due = before ++ [{ b with dueAt := s.tick.toNat }] ++ after) ∧
  (∀ (s : State) (g : Group) (word : Octets) (mfas : Byte) (offset : Nat),
    s.rd FRM_CTL.RX_EN g = 0 ∨ s.rd FRM_STAT.IF g = 0 → exec (.gaugeWordRx g word mfas offset) s = .next s) ∧
  (∀ (s : State) (g : Group) (word : Octets) (mfas : Byte) (offset m : Nat), s.rd FRM_CTL.RX_EN g = 1 →
    s.rd FRM_STAT.IF g = 1 →
    let rx := Tbl.get {} s.line.far g
    let r := farNext (s.reg .GAU_FAR g) rx.wordAt mfas.toNat offset
    let heard := if s.is GAU_STAT.FAR_LOCK g then some r else none
    let s0 := if s.is GAU_STAT.FAR_LOCK g then s.setReg .GAU_FAR r g else s
    (gaugeWord word = none → Gives (exec (.gaugeWordRx g word mfas offset) s) fun u =>
      Tbl.get {} u.line.far g = { rx with lastValid := none, wordAt := heard } ∧ u.ctr Ctrs.GW_BAD g = (s.ctr Ctrs.GW_BAD g).add 1 ∧
      u = { s0 with line := u.line, counters := u.counters }) ∧
    (gaugeWord word = some m → s.is GAU_STAT.FAR_LOCK g = true → frameOf r / 256 = m →
      Gives (exec (.gaugeWordRx g word mfas offset) s) fun u =>
        Tbl.get {} u.line.far g = { lastValid := some m, disagree := 0, wordAt := some r } ∧ u = { s0 with line := u.line }) ∧
    (gaugeWord word = some m → s.is GAU_STAT.FAR_LOCK g = true → frameOf r / 256 ≠ m → rx.disagree = 0 →
      Gives (exec (.gaugeWordRx g word mfas offset) s) fun u =>
        Tbl.get {} u.line.far g = { lastValid := some m, disagree := 1, wordAt := some r } ∧
        u.ctr Ctrs.GW_DISAGREE g = (s.ctr Ctrs.GW_DISAGREE g).add 1 ∧
        u = { s0 with line := u.line, counters := u.counters }) ∧
    (gaugeWord word = some m → s.is GAU_STAT.FAR_LOCK g = true → frameOf r / 256 ≠ m → 1 ≤ rx.disagree →
      exec (.gaugeWordRx g word mfas offset) s = .next ((s0.count Ctrs.GW_DISAGREE g).farLose g)) ∧
    (gaugeWord word = some m → s.is GAU_STAT.FAR_LOCK g = false → rx.lastValid ≠ some ((m + 2 ^ 40 - 1) % 2 ^ 40) →
      Gives (exec (.gaugeWordRx g word mfas offset) s) fun u =>
        Tbl.get {} u.line.far g = { lastValid := some m, disagree := 0 } ∧ u = { s with line := u.line }) ∧
    (gaugeWord word = some m → s.is GAU_STAT.FAR_LOCK g = false → rx.lastValid = some ((m + 2 ^ 40 - 1) % 2 ^ 40) →
      Gives (exec (.gaugeWordRx g word mfas offset) s) fun u => ∃ b : State, u = b.compareFirst (32 + g)
          (reading (m * 256 + mfas.toNat) offset) ∧
        Tbl.get {} b.line.far g = { lastValid := some m, wordAt := some (reading (m * 256 + mfas.toNat) offset) } ∧
        b.reg .GAU_FAR g = reading (m * 256 + mfas.toNat) offset ∧
        b.rd GAU_STAT.FAR_LOCK g = 1 ∧ b = { s with line := b.line, regs := b.regs })) ∧
  (∀ a b c d e : Byte, gaugeWord [a, b, c, d, e, a ^^^ b ^^^ c ^^^ d ^^^ e ^^^ 0x5A#8] =
    some ((((a.toNat * 256 + b.toNat) * 256 + c.toNat) * 256 + d.toNat) * 256 + e.toNat)) ∧
  (∀ (s : State) (v : Word), rsvdOk .GAU_SNAPCTL v = true → Gives (exec (.gauSnapctlTrig v) s) fun u =>
    u.rd GAU_SNAPCTL.AUTO = v.toNat / 2 ^ GAU_SNAPCTL.AUTO.lo % 2 ∧ u = { s with regs := u.regs } ∧
    (GAU_SNAPCTL.TRIG.of v = 1 → ∀ g : Group, u.reg .GAU_SNAP g = s.reg .GAU_READ g ∧
      u.reg .GAU_SNAPFAR g = s.reg .GAU_FAR g ∧
      (u.rd GAU_SNAPCTL.SRUN).testBit g = decide (s.rd GAU_STAT.RUN g = 1)) ∧
    (GAU_SNAPCTL.TRIG.of v = 0 → RegsKept s u [Reg.off .GAU_SNAPCTL 0 0])) ∧
  (∀ (s : State) (v : Word), rsvdOk .GAU_RECORD v = true → Gives (exec (.gauRecordWrite v) s) fun u =>
    OnlyRegs s u [Reg.off .GAU_RECORD 0 0] ∧
    (GAU_RECORD.GROUP.of v < 18 → u.rd GAU_RECORD.GROUP = GAU_RECORD.GROUP.of v) ∧
    (18 ≤ GAU_RECORD.GROUP.of v → u.rd GAU_RECORD.GROUP = s.rd GAU_RECORD.GROUP ∧ u.rd GAU_RECORD.REJECT = 1)) ∧
  (∀ (s : State) (m : Master) (g : Group) (wide : Bool), Gives (exec (.gauReadLatch m g wide) s) fun u =>
    u.out = .readReply m (some (leBytes (if wide then 8 else 4) (s.reg .GAU_READ g).toNat)) :: s.out ∧
    u.latched m (Reg.off .GAU_READ g 0) = some (s.reg .GAU_READ g) ∧
    u.latched m (Reg.off .GAU_FTICK g 0) = some (s.reg .GAU_FTICK g) ∧
    u.latched m (Reg.off .GAU_FPER g 0) = some (s.reg .GAU_FPER g) ∧
    (∀ k, k ≠ m → ∀ o, u.latched k o = s.latched k o) ∧ u = { s with latches := u.latches, out := u.out })

end

namespace Sys2Proof.Claims

open Sys2Proof Sys2Proof.Machine

/-- A message of a vector has been sent, or its pending bit is set while a mask holds it (R685). -/
def VectorRaised (s u : State) (v : Nat) : Prop :=
  (s.vecOpen v = true → u.out = .msix v :: s.out) ∧
  (s.vecOpen v = false → u.out = s.out ∧ (u.rd HIF_PBA.PENDING (v / 64)).testBit (v % 64) = true)

/-- A descriptor of a frame ring is in form (R683), with the reserved bits its ring has. -/
def FrameDesc (d : Desc) (mask0 : Nat) : Prop :=
  d.rsvdOk mask0 0x3FFF = true ∧ 60 ≤ d.word 2 ∧ d.word 2 ≤ 1514

end Sys2Proof.Claims

section

open Sys2Proof Sys2Proof.Machine Sys2Proof.Claims

/-- R677 to R682, R685, R691: command rings; a doorbell that posts descriptors into slots not yet fetched is a host
error (R680). Where the spec leaves a point open it is the model's: log entries 33, 34, 35. -/
def Obligations.CommandRings : Prop :=
  ∀ (s : State) (r : RingNo) (v : Word),
    let x := s.ring r
    let size := 2 ^ s.rd HIF_RCFG.LOG2SZ r
    let head := s.rd HIF_RIDX.SQ_HEAD r
    let outst := s.rd HIF_RSTAT.OUTST r
    let fetches := s.rd HIF_RCFG.EN r = 1 ∧ x.disabling = false ∧ s.rd HIF_RSTAT.HALTED r = 0 ∧ s.host.busMaster = true ∧
      head ≠ x.sqTail ∧ outst + 1 < size ∧ s.rd HIF_RCFG.LOG2SZ r ≤ 12
    let takes := fun (b u : State) (o : Octets) =>
      (u.ring r).fetched = x.fetched ++ [{ slot := head, tag := leNat (o.take 2), words := descWords o }] ∧
      (u.ring r).owed = x.owed + 1 ∧ u.rd HIF_RIDX.SQ_HEAD r = (head + 1) % size ∧ u.rd HIF_RSTAT.OUTST r = outst + 1 ∧
      u = { b with regs := u.regs, host := u.host }
    let halts := fun (b u : State) => u.rd HIF_RSTAT.HALTED r = 1 ∧ u.rd HIF_RSTAT.FETCH_ERR r = 1 ∧
      (u.rd HIF_CAUSE.CAUSE).testBit 4 = true ∧ u.host = b.host
    (rsvdOk .HIF_DB v = true →
      let h := HIF_DB.CQ_HEAD.of v
      let done := ringGap size x.cqHead h
      let posted := ringGap size head x.sqTail + ringGap size x.sqTail (HIF_DB.SQ_TAIL.of v % size)
      let within := h < size ∧ done ≤ ringGap size x.cqHead (s.rd HIF_RIDX.CQ_TAIL r)
      (s.rd HIF_RCFG.EN r = 0 → exec (.hifDoorbell r v) s = .next s) ∧
      (s.rd HIF_RCFG.EN r = 1 → HIF_DB.SQ_V.of v = 1 → size < posted → exec (.hifDoorbell r v) s = .fault .hostError) ∧
      (s.rd HIF_RCFG.EN r = 1 → HIF_DB.SQ_V.of v = 1 → posted ≤ size → HIF_DB.CQ_V.of v = 0 →
       Gives (exec (.hifDoorbell r v) s) fun u =>
        u.ring r = { x with sqTail := HIF_DB.SQ_TAIL.of v % size } ∧ u = { s with host := u.host }) ∧
      (s.rd HIF_RCFG.EN r = 1 → HIF_DB.SQ_V.of v = 0 → HIF_DB.CQ_V.of v = 1 → within → Gives (exec (.hifDoorbell r v) s) fun u =>
        u.ring r = { x with cqHead := h } ∧ u.rd HIF_RSTAT.OUTST r = outst - done ∧
        u = { s with host := u.host, regs := u.regs } ∧ RegsKept s u [Reg.off .HIF_RSTAT r 0]) ∧
      (s.rd HIF_RCFG.EN r = 1 → HIF_DB.SQ_V.of v = 0 → HIF_DB.CQ_V.of v = 1 → ¬within → Gives (exec (.hifDoorbell r v) s) fun u =>
        u.host = s.host ∧ u.rd HIF_RSTAT.DB_ERR r = 1 ∧ (u.rd HIF_CAUSE.CAUSE).testBit 4 = true)) ∧
    (∀ data, ¬(s.canFetch r = true) → exec (.ringFetch r data) s = .next s) ∧
    (∀ o, fetches → s.rd HIF_RCFG.LOC r = 0 → o.length = 64 →
      Gives (exec (.ringFetch r (some o)) s) (takes s · o)) ∧
    (fetches → s.rd HIF_RCFG.LOC r = 0 → Gives (exec (.ringFetch r none) s) (halts s)) ∧
    (∀ o b data, fetches → s.rd HIF_RCFG.LOC r = 1 → o.length = 64 →
      s.areaRead (s.requester (.dma r)) (s.rd HIF_RBASE.BASE r + 64 * head) 64 = (.data o, b) →
      exec (.ringFetch r data) s = .next (b.fetchedDesc r o)) ∧
    (rsvdOk .HIF_RCFG v = true → HIF_RCFG.LOG2SZ.of v = 0 ∨ 12 < HIF_RCFG.LOG2SZ.of v → Gives (exec (.hifRcfgWrite r v) s) fun u =>
      u.rd HIF_STAT.REJECT = 1 ∧ OnlyRegs s u [Reg.off .HIF_STAT 0 0]) ∧
    (rsvdOk .HIF_RCFG v = true → 1 ≤ HIF_RCFG.LOG2SZ.of v → HIF_RCFG.LOG2SZ.of v ≤ 12 → s.rd HIF_RCFG.EN r = 0 →
      HIF_RCFG.EN.of v = 1 → Gives (exec (.hifRcfgWrite r v) s) fun u =>
        (∀ f ∈ [HIF_RCFG.EN, HIF_RCFG.LOC, HIF_RCFG.COLOUR, HIF_RCFG.VEC, HIF_RCFG.LOG2SZ], u.rd f r = f.of v) ∧
        u.ring r = {} ∧ u.rd HIF_RIDX.SQ_HEAD r = 0 ∧ u.rd HIF_RIDX.CQ_TAIL r = 0 ∧ u.rd HIF_RIDX.PHASE r = 1 ∧
        u.rd HIF_RSTAT.OUTST r = 0 ∧ u.rd HIF_RSTAT.HALTED r = 0 ∧ (∀ k, k ≠ r.val → u.ring k = s.ring k)) ∧
    (rsvdOk .HIF_RCFG v = true → s.rd HIF_RCFG.EN r = 1 → HIF_RCFG.EN.of v = 0 → 1 ≤ HIF_RCFG.LOG2SZ.of v →
      HIF_RCFG.LOG2SZ.of v ≤ 12 →
      (∀ f ∈ [HIF_RCFG.LOC, HIF_RCFG.COLOUR, HIF_RCFG.VEC, HIF_RCFG.LOG2SZ], f.of v = s.rd f r) →
      Gives (exec (.hifRcfgWrite r v) s) fun u => u.ring r = { x with disabling := true } ∧ u = { s with host := u.host }) ∧
    (x.disabling = true → x.owed = 0 → Gives (exec (.ringDisableEnd r) s) fun u =>
      u.ring r = { x with disabling := false } ∧ u.rd HIF_RCFG.EN r = 0 ∧ RegsKept s u [Reg.off .HIF_RCFG r 0]) ∧
    (x.disabling = true → 0 < x.owed → exec (.ringDisableEnd r) s = .next s) ∧
    (∀ now t, atOrAfter now s.tick = true → x.first = some t → 0 < x.since → s.rd HIF_RCOAL.COAL_US r ≠ 0 →
      t + s.rd HIF_RCOAL.COAL_US r * 1500 ≤ now.toNat → Gives (exec (.msixCoalTimer r now) s) fun u =>
        u.ring r = { x with since := 0, first := none } ∧ VectorRaised s u (s.rd HIF_RCFG.VEC r) ∧ u.tick = now)

/-- R648, R673, R676, R677, R683 to R685: BAR2, the host's colour, the configuration space, and the frame rings. Where
the spec leaves a point open it is the model's: log entries 32, 35. -/
def Obligations.HostInterface : Prop :=
  ∀ (s : State) (v : Word),
    (rsvdOk .HIF_BAR2WIN v = true →
      let w := HIF_BAR2WIN.WIN.of v
      ((w + 1) * 2 ^ (s.rd HIF_STAT.BAR2_LOG2 + 30) ≤ 2 ^ 36 → Gives (exec (.hifBar2winWrite v) s) fun u =>
        u.rd HIF_BAR2WIN.WIN = w ∧ OnlyRegs s u [Reg.off .HIF_BAR2WIN 0 0]) ∧
      (2 ^ 36 < (w + 1) * 2 ^ (s.rd HIF_STAT.BAR2_LOG2 + 30) → Gives (exec (.hifBar2winWrite v) s) fun u =>
        u.rd HIF_STAT.REJECT = 1 ∧ OnlyRegs s u [Reg.off .HIF_STAT 0 0])) ∧
    (rsvdOk .HIF_CTL v = true →
      let c := HIF_CTL.HCOLOUR.of v
      let barred := c = 2 ∨ (c = 15 ∧ s.rd GBL_MODE.MODE ≠ 2)
      (¬barred → Gives (exec (.hcolourWrite v) s) fun u => u.rd HIF_CTL.HCOLOUR = c ∧
        OnlyRegs s u [Reg.off .HIF_CTL 0 0]) ∧
      (barred → Gives (exec (.hcolourWrite v) s) fun u => u.rd HIF_STAT.REJECT = 1 ∧
        OnlyRegs s u [Reg.off .HIF_STAT 0 0])) ∧
    (∀ bm en mask, Gives (exec (.pcieConfigWrite bm en mask) s) fun u =>
      u.host = { s.host with busMaster := bm, msixEnable := en, msixMask := mask } ∧
      (¬(bm = true ∧ en = true ∧ mask = false) → u.regs = s.regs ∧ u.out = s.out) ∧
      (bm = true → en = true → mask = false → ∀ k, k < 128 → (s.rd HIF_PBA.PENDING (k / 64)).testBit (k % 64) = true →
        (s.rd HIF_MSIXD.MASK k = 0 → .msix k ∈ u.out ∧ (u.rd HIF_PBA.PENDING (k / 64)).testBit (k % 64) = false) ∧
        (s.rd HIF_MSIXD.MASK k = 1 → (u.rd HIF_PBA.PENDING (k / 64)).testBit (k % 64) = true)) ∧
      u = { s with host := u.host, regs := u.regs, out := u.out }) ∧
    (∀ d rest f, (s.ring 64).fetched = d :: rest → FrameDesc d 0x0FFFFFFF → s.rd HIF_RCFG.LOC 64 = 0 → f.length = d.word 2 →
      let c := d.word 0 / 2 ^ 16 % 2 ^ 12
      s.chanEnabled c = true → be16 f 12 = 0x888E → (s.mkaQueue c).length < 8 →
      Gives (exec (.mkaTxDescriptor (some f)) s) fun u => (u.ring 64).fetched = rest ∧
        u.mkaQueue c = s.mkaQueue c ++ [{ slot := d.slot, tag := d.tag, octets := f }] ∧
        (∀ k, k ≠ c → u.mkaQueue k = s.mkaQueue k) ∧ u = { s with host := u.host }) ∧
    (∀ d rest data, (s.ring 64).fetched = d :: rest → ¬FrameDesc d 0x0FFFFFFF →
      exec (.mkaTxDescriptor data) s =
        .next ((s.setRing 64 { s.ring 64 with fetched := rest }).writeRecord 64 d.slot d.tag 2 1)) ∧
    ((s.ring 64).fetched = [] → ∀ data, exec (.mkaTxDescriptor data) s = .next s) ∧
    (∀ d rest f, (s.ring 66).fetched = d :: rest → FrameDesc d 0x107FFFFF → s.rd HIF_RCFG.LOC 66 = 0 → f.length = d.word 2 →
      let p := d.word 0 / 2 ^ 16 % 2 ^ 7
      p < 72 → s.rd FRM_CPORT.EN (p / 4) (p % 4) = 1 →
      let taken := s.setRing 66 { s.ring 66 with fetched := rest }
      (ptpEvent f = none ∨ s.rd CLK_PTP.TS_EN p = 0 → exec (.ptpTxDescriptor (some f)) s =
        .next ((taken.emit (.clientFrame p (f ++ fcs f) true)).writeRecord 66 d.slot d.tag 0 0)) ∧
      (∀ a, ptpEvent f = some a → s.rd CLK_PTP.TS_EN p = 1 → (d.word 0).testBit 28 = false →
        exec (.ptpTxDescriptor (some f)) s =
          .next (((taken.pushStamp p (taken.stampOf p true false f a)).emit (.clientFrame p (f ++ fcs f) true)).writeRecord
            66 d.slot d.tag 0 0)) ∧
      (∀ a, ptpEvent f = some a → s.rd CLK_PTP.TS_EN p = 1 → (d.word 0).testBit 28 = true →
        beNat (slice f a.msg 1) % 16 = 0 → a.v6 = false → a.msg + 44 ≤ f.length →
        let x := taken.stampOf p true true f a
        let g := oneStepFrame f a x.time
        exec (.ptpTxDescriptor (some f)) s =
          .next (((taken.pushStamp p x).emit (.clientFrame p (g ++ fcs g) true)).writeRecord 66 d.slot d.tag 0 0))) ∧
    (∀ d rest data, (s.ring 66).fetched = d :: rest → ¬FrameDesc d 0x107FFFFF →
      exec (.ptpTxDescriptor data) s =
        .next ((s.setRing 66 { s.ring 66 with fetched := rest }).writeRecord 66 d.slot d.tag 2 1))

end

namespace Sys2Proof.Claims

open Sys2Proof Sys2Proof.Machine

/-- The event of an enabled source raises an alarm (R587), from K, W, the Watch count and the counts of the events since
the last alarm, newest first. -/
def RaisesAlarm (k w now : Nat) (old : List Nat) : Prop :=
  k = 1 ∨ 2 ≤ k ∧ ∃ t, old[k - 2]? = some t ∧ (now + 2 ^ 48 - t) % 2 ^ 48 ≤ w

/-- The Watch at the moment of a Levee command, and the raw lines it brings. -/
def watched (s : State) (watch : BitVec 48) (edge : Word) (raw : BitVec 16) : State :=
  (s.setWatch watch.toNat edge.toNat).wr LEV_RAW.RAW raw.toNat

/-- A write that R512 or R590 refuses: recorded and counted, and no register of the Levee differs. -/
def WriteRefused (s u : State) : Prop :=
  u.rd CMP_STAT.WR_REFUSED = 1 ∧ u.ctr Ctrs.CMP_WR_REFUSED = (s.ctr Ctrs.CMP_WR_REFUSED).add 1 ∧ u.levee = s.levee ∧
  ∀ d k, 0x1500000 ≤ k → k < 0x1600000 → Tbl.get d u.regs k = Tbl.get d s.regs k

end Sys2Proof.Claims

section

open Sys2Proof Sys2Proof.Machine Sys2Proof.Claims

/-- R586, R587, R590, R597: from an event to an alarm. -/
def Obligations.LeveeAlarms : Prop :=
  ∀ (s : State) (src detail : Nat), src < 16 → s.watch < 2 ^ 48 →
    let k := s.rd LEV_SRCCFG.KM1 src + 1
    let w := s.rd LEV_SRCCFG.W src
    let old := Tbl.get [] s.levee.recent src
    let u := s.leveeEvent src detail
    u.rd LEV_EVCNT.EVENTS src = min (s.rd LEV_EVCNT.EVENTS src + 1) (2 ^ (LEV_EVCNT.EVENTS.hi + 1 - LEV_EVCNT.EVENTS.lo) - 1) ∧
    (s.rd LEV_SRCCFG.EN src = 0 → u.levee = s.levee ∧ u.rd LEV_STICKY.FLAG = s.rd LEV_STICKY.FLAG) ∧
    (s.rd LEV_SRCCFG.EN src = 1 → RaisesAlarm k w s.watch old →
      u.levee.alarms = s.levee.alarms ++ [{ src := src, resp := s.rd LEV_SRCCFG.RESP src, detail := detail, watch := s.watch }] ∧
      Tbl.get [] u.levee.recent src = [] ∧ (u.rd LEV_STICKY.FLAG).testBit src = true ∧
      (u.rd HIF_CAUSE.CAUSE).testBit 1 = true) ∧
    (s.rd LEV_SRCCFG.EN src = 1 → ¬RaisesAlarm k w s.watch old →
      u.levee.alarms = s.levee.alarms ∧ Tbl.get [] u.levee.recent src = (s.watch :: old).take 15 ∧
      u.rd LEV_STICKY.FLAG = s.rd LEV_STICKY.FLAG) ∧
    (∀ j, j ≠ src → Tbl.get [] u.levee.recent j = Tbl.get [] s.levee.recent j) ∧ u.pools = s.pools ∧ u.recs = s.recs

/-- R583 to R585, R589, R592 to R595, R600: Levee events and response points. -/
def Sys2Proof.Claims.LeveeEventsAndResponses : Prop :=
  (∀ (s : State) (src : Fin 16) (detail : BitVec 24) (address : Word) (colour : Fin 16) (raw : BitVec 16)
      (watch : BitVec 48) (edge : Word),
    let b := (watched s watch edge raw).leveeEvent src detail.toNat
    let o := exec (.leveeEvent src detail address colour raw watch edge) s
    (s.rd GBL_MODE.MODE = 0 → backupSource src = false → o = .next s) ∧
    (s.rd GBL_MODE.MODE ≠ 0 ∨ backupSource src = true →
      (src.val < 4 → o = .next (b.meshStep src)) ∧ (src.val = 11 → o = .next (b.meshStep 0)) ∧
      (src.val = 12 → o = .next (b.report 0xA1 (address.toNat + detail.toNat / 2 ^ 20 * 2 ^ 64 + colour.val * 2 ^ 68))) ∧
      (4 ≤ src.val → src.val ≠ 11 → src.val ≠ 12 → o = .next b))) ∧
  (∀ (s : State) (k : Nat), Tbl.get 0 (s.meshStep k).levee.lfsr k = lfsrSteps 24 (Tbl.get 0 s.levee.lfsr k)) ∧
  (∀ (s : State) (raw : BitVec 16) (watch : BitVec 48) (edge : Word) (cuts : List (Channel × Nat))
      (parts : List (Group × Nat × Nat)), s.levee.buffer.length ≤ 32 →
    let s0 := watched s watch edge raw
    let l := bySource s.levee.alarms
    let resp := (l.map Alarm.resp).foldl max 0
    let coinc := decide (1 < l.length)
    Gives (exec (.responsePoint raw watch edge cuts parts) s) fun u => ∃ b : State,
      b.levee.alarms = [] ∧
      b.levee.buffer = (s.levee.buffer ++ l.map (fun a => s0.alarmRecord a resp coinc)).take 32 ∧
      b.rd GBL_MODE.MODE = s.rd GBL_MODE.MODE ∧ b.pools = s.pools ∧ b.keys = s.keys ∧
      (resp = 0 → u = b) ∧
      (resp = 1 → s.rd GBL_MODE.MODE = 0 ∨ s.rd GBL_MODE.MODE = 10 → u = b) ∧
      (resp = 1 → s.rd GBL_MODE.MODE ≠ 0 → s.rd GBL_MODE.MODE ≠ 10 → u = b.alarmEvents l coinc) ∧
      (2 ≤ resp → s.rd GBL_MODE.MODE = 0 → u.rd LEV_STAT.LD_PEND = 1) ∧
      (2 ≤ resp → 2 ≤ s.rd GBL_MODE.MODE → s.rd GBL_MODE.MODE ≤ 9 →
        u = (if resp = 3 then b.wipeCistern else b).lockdownEntry cuts parts) ∧
      (2 ≤ resp → u = b.applyLockdown (decide (resp = 3)) cuts parts))

/-- R590, R591, R596, R597, R599 to R601, R606, R726, R732: the tamper log, supply dips, and the Levee's registers.
Where the spec leaves a point open it is the model's: log entry 24. -/
def Obligations.LeveeCommands : Prop :=
  ∀ (s : State) (m : Master),
    (s.rd LEV_STAT.DIP = 1 → exec .tamperRecordWrite s = .next s) ∧
    (∀ r rest, s.rd LEV_STAT.DIP = 0 → s.levee.buffer = r :: rest → s.rd LEV_STAT.LOST = 0 →
      let n := s.rd LEV_LOGRD.NEXT
      Gives (exec .tamperRecordWrite s) fun u => u.levee = { s.levee with buffer := rest } ∧
        Tbl.get [] u.cistern.tamper n = r.octets (s.rd LEV_LOGCNT.TLOG_COUNT) ∧
        (∀ k, k ≠ n → Tbl.get [] u.cistern.tamper k = Tbl.get [] s.cistern.tamper k) ∧
        u.rd LEV_LOGRD.NEXT = (n + 1) % 1024 ∧ u.cistern.tamperCount = s.cistern.tamperCount + 1 ∧
        u.cistern.caks = s.cistern.caks ∧ u.cistern.counters = s.cistern.counters) ∧
    (∀ watch edge, s.rd GBL_MODE.MODE ≠ 0 → s.rd LEV_STAT.DIP = 0 → Gives (exec (.supplyDipStart watch edge) s) fun u =>
      u.rd LEV_STAT.DIP = 1 ∧ u.rd KST_STAT.DIP = 1 ∧ u.rd WEI_SAMPLE.DIP_BOOST = 1 ∧
      (u.rd LEV_RAW.RAW).testBit 4 = true ∧ u.keys = s.keys ∧ u.cistern = s.cistern) ∧
    (∀ watch edge, s.rd LEV_STAT.DIP = 1 → s.levee.buffer = [] → s.keys.held = none →
      Gives (exec (.supplyDipEnd watch edge) s) fun u => u.rd LEV_STAT.DIP = 0 ∧ u.rd KST_STAT.DIP = 0 ∧
        u.rd WEI_SAMPLE.DIP_BOOST = 0 ∧ (u.rd LEV_RAW.RAW).testBit 4 = false ∧ u = { s with regs := u.regs }) ∧
    (∀ (src : Fin 16) v, s.trusted m = true → rsvdOk .LEV_SRCCFG v = true → LEV_SRCCFG.W.of v ≠ 0 →
      let old := s.rd LEV_SRCCFG.RESP src
      let same := ∀ f ∈ [LEV_SRCCFG.EN, LEV_SRCCFG.RESP, LEV_SRCCFG.KM1, LEV_SRCCFG.W], f.of v = s.rd f src
      (old = 3 → s.present = false → ¬same → Gives (exec (.levSrccfgWrite m src v) s) fun u =>
        u.rd LEV_STAT.REJECT = 1 ∧ u.reg .LEV_SRCCFG src = s.reg .LEV_SRCCFG src ∧ u.levee = s.levee) ∧
      (¬(old = 3 ∧ s.present = false) → s.levee.buffer.length < 32 →
        ¬(LEV_SRCCFG.EN.of v = s.rd LEV_SRCCFG.EN src ∧ LEV_SRCCFG.RESP.of v = old) →
        Gives (exec (.levSrccfgWrite m src v) s) fun u =>
          (∀ f ∈ [LEV_SRCCFG.EN, LEV_SRCCFG.RESP, LEV_SRCCFG.KM1, LEV_SRCCFG.W], u.rd f src = f.of v) ∧
          ∃ r, u.levee = { s.levee with buffer := s.levee.buffer ++ [r] } ∧ r.typ = 0x82 ∧ r.watch = s.watch ∧
            r.detail = src + old * 2 ^ 4 + LEV_SRCCFG.RESP.of v * 2 ^ 6 + LEV_SRCCFG.EN.of v * 2 ^ 8)) ∧
    (∀ v, s.trusted m = true → rsvdOk .LEV_STICKY v = true → s.levee.buffer.length < 32 →
      s.rd LEV_STICKY.FLAG &&& LEV_STICKY.FLAG.of v ≠ 0 → Gives (exec (.stickyClear m v) s) fun u =>
        (∀ k, (u.rd LEV_STICKY.FLAG).testBit k = ((s.rd LEV_STICKY.FLAG).testBit k && !(LEV_STICKY.FLAG.of v).testBit k)) ∧
        ∃ r, u.levee = { s.levee with buffer := s.levee.buffer ++ [r] } ∧ r.typ = 0x81 ∧
          r.detail = s.rd LEV_STICKY.FLAG &&& LEV_STICKY.FLAG.of v) ∧
    (∀ v, s.trusted m = true → rsvdOk .LEV_LOGRD v = true →
      let o := slice (Tbl.get [] s.cistern.tamper (LEV_LOGRD.INDEX.of v)) 0 16
      Gives (exec (.tamperLogRead m v) s) fun u => u.rd LEV_LOGRD.INDEX = LEV_LOGRD.INDEX.of v ∧
        u.reg .LEV_LOGDATA0 = BitVec.ofNat 64 (leNat (o.take 8)) ∧
        u.reg .LEV_LOGDATA1 = BitVec.ofNat 64 (leNat (o.drop 8)) ∧
        OnlyRegs s u [Reg.off .LEV_LOGRD 0 0, Reg.off .LEV_LOGDATA0 0 0, Reg.off .LEV_LOGDATA1 0 0]) ∧
    (s.trusted m = false → (s.requester m).colour < 16 → ∀ (src : Fin 16) v, Gives (exec (.levSrccfgWrite m src v) s) (WriteRefused s) ∧
      Gives (exec (.stickyClear m v) s) (WriteRefused s) ∧ Gives (exec (.tamperLogRead m v) s) (WriteRefused s)) ∧
    (∀ wide watch edge, s.rd GBL_MODE.MODE ≠ 0 → Gives (exec (.levWatchLatch m wide watch edge) s) fun u =>
      u.rd LEV_WATCH.COUNT = watch.toNat ∧ u.reg .LEV_WTICK = edge ∧
      u.latched m (Reg.off .LEV_WTICK 0 0) = some edge ∧
      u.out = .readReply m (some (leBytes (if wide then 8 else 4) watch.toNat)) :: s.out ∧
      RegsKept s u [Reg.off .LEV_WATCH 0 0, Reg.off .LEV_WTICK 0 0]) ∧
    exec .watchCrystalStop s = .next { s with levee := { s.levee with oscillator := true } } ∧
    exec .watchCrystalRestart s = .next { s with levee := { s.levee with oscillator := false } } ∧
    ∀ b, exec (.aoSupplyChangeover b) s = .next { s with levee := { s.levee with cell := b } }

/-- R599: the sixteen octets of a tamper record, its CRC apart. -/
def Sys2Proof.Claims.TamperRecordOctets : Prop :=
  ∀ (r : TamperRec) (n : Nat), r.watch < 2 ^ 48 → r.typ < 256 → r.flags < 256 → r.mode < 256 → r.detail < 2 ^ 24 → n < 2 ^ 16 →
    (r.octets n).length = 16 ∧ leNat ((r.octets n).take 6) = r.watch ∧ leNat (((r.octets n).drop 6).take 1) = r.typ ∧
    leNat (((r.octets n).drop 7).take 1) = r.flags ∧ leNat (((r.octets n).drop 8).take 1) = r.mode ∧
    leNat (((r.octets n).drop 9).take 3) = r.detail ∧ leNat (((r.octets n).drop 12).take 2) = n

end

namespace Sys2Proof.Claims

open Sys2Proof Sys2Proof.Machine

/-- A thread has started a job (R365): g1 and up hold the arguments, every other register 0, all tags are idle, nothing
holds it, it is Running, and no other thread differs. -/
def Starts (s u : State) (t : Nat) (job : Job) (pc : Word) (warden : Bool) (colour : Nat) (args : List Word) : Prop :=
  (∀ r, u.g t r = if 1 ≤ r ∧ r ≤ args.length then args.getD (r - 1) 0 else 0) ∧
  (∃ gs, u.thread t = { g := gs, pc := pc, job := job, warden := warden, colour := colour }) ∧
  u.tstate t = 2 ∧ (∀ k, k ≠ t → u.thread k = s.thread k) ∧ u.pools = s.pools ∧ u.tide.ops = s.tide.ops

/-- A thread is Off and holds nothing. -/
def IsOff (s u : State) (t : Nat) : Prop :=
  u.thread t = {} ∧ u.tstate t = 0 ∧ u.rd TID_THRSTAT.STOPPING t = 0 ∧ (∀ k, k ≠ t → u.thread k = s.thread k)

end Sys2Proof.Claims

section

open Sys2Proof Sys2Proof.Machine Sys2Proof.Claims

/-- R325, R327, R350, R358 to R360: configuration and control of threads. -/
def Sys2Proof.Claims.ThreadControl : Prop :=
  ∀ (s : State) (m : Master) (t : ThreadNo) (v : Word),
    let role := s.rd TID_THRCFG.ROLE t
    let may := ∀ k, m = .thread k → (s.thread k).warden = true
    let cfg := s.tstate t = 0 ∧ may ∧ TID_THRCFG.ROLE.of v ≠ 3 ∧ TID_THRCFG.COLOUR.of v ≠ 2 ∧
      (TID_THRCFG.COLOUR.of v = 15 → s.rd GBL_MODE.MODE = 2)
    let rejects := fun (o : Outcome) => Gives o fun u => u.rd TID_STAT.REJECT = 1 ∧ OnlyRegs s u [Reg.off .TID_STAT 0 0]
    (rsvdOk .TID_THRCFG v = true → cfg → Gives (exec (.tidThrcfgWrite m t v) s) fun u =>
      u.reg .TID_THRCFG t = v ∧ OnlyRegs s u [Reg.off .TID_THRCFG t 0]) ∧
    (rsvdOk .TID_THRCFG v = true → ¬cfg → rejects (exec (.tidThrcfgWrite m t v) s)) ∧
    (s.tstate t = 0 → role = 0 → Gives (exec (.threadStart t) s) (Starts s · t .free (s.reg .TID_ENTRY t)
      (s.is TID_THRCFG.WARDEN t) (s.rd TID_THRCFG.COLOUR t) [])) ∧
    (s.tstate t = 0 → role ≠ 0 → Gives (exec (.threadStart t) s) fun u => u.tstate t = 1 ∧
      u.thread t = { warden := s.is TID_THRCFG.WARDEN t, colour := s.rd TID_THRCFG.COLOUR t } ∧
      ∀ k, k ≠ t.val → u.thread k = s.thread k) ∧
    (s.tstate t ≠ 0 → rejects (exec (.threadStart t) s)) ∧
    (s.tstate t = 0 ∨ s.tstate t = 6 → rejects (exec (.threadStop t) s)) ∧
    (s.tstate t ≠ 0 → s.tstate t ≠ 6 → s.rd TID_THRSTAT.STOPPING t = 0 → s.opsOf t = 0 →
      Gives (exec (.threadStop t) s) (IsOff s · t)) ∧
    (s.tstate t ≠ 0 → s.tstate t ≠ 6 → s.rd TID_THRSTAT.STOPPING t = 0 → s.opsOf t ≠ 0 →
      Gives (exec (.threadStop t) s) fun u => u.tstate t = 3 ∧ u.rd TID_THRSTAT.STOPPING t = 1 ∧
        u.thread t = { s.thread t with tags := [], doneOrder := [], cmp := none, job := .none, hold := .stopping } ∧
        (∀ k, k ≠ t.val → u.thread k = s.thread k) ∧ ∀ o ∈ u.tide.ops, o.thread = t.val → o.discard = true) ∧
    (s.rd TID_THRSTAT.STOPPING t = 1 → s.opsOf t = 0 → s.tstate t ≠ 6 →
      Gives (exec (.threadStopped t) s) (IsOff s · t)) ∧
    (s.tstate t = 6 → may → s.opsOf t = 0 → Gives (exec (.clrtrap m t) s) (IsOff s · t)) ∧
    (s.tstate t = 6 → may → s.opsOf t ≠ 0 → Gives (exec (.clrtrap m t) s) fun u =>
      u.tstate t = 6 ∧ u.rd TID_THRSTAT.STOPPING t = 1 ∧ u.thread t = { s.thread t with hold := .stopping } ∧
      ∀ k, k ≠ t.val → u.thread k = s.thread k) ∧
    (s.rd TID_THRSTAT.STOPPING t = 1 → s.opsOf t = 0 → s.tstate t = 6 →
      Gives (exec (.trapCleared t) s) (IsOff s · t))

/-- R329, R344 to R346, R351, R354, R16, R336: what dispatch loads into a thread and takes from its queue, the trap of a
handler over its limit, the record of overflowed events, a reset of cores with their caches, and the invalidation of
instruction caches. -/
def Sys2Proof.Claims.ThreadDispatch : Prop :=
  ∀ (s : State),
    (∀ n r t, s.tide.queue[n]? = some r → (∀ q ∈ s.tide.queue.take n, ¬(q.entry = r.entry ∧ q.gen = r.gen)) →
      (List.range 256).find? (s.eligible r.entry) = some t →
      Gives (exec (.handlerDispatch n) s) fun u => u.tide.queue = s.tide.queue.eraseIdx n ∧
        Starts s u t (.handler r.cls r.idx r.gen r.entry.limit s.tick.toNat) r.entry.pc (r.entry.flags.testBit 4)
          r.entry.colour [BitVec.ofNat 64 r.idx, BitVec.ofNat 64 (r.cls + r.count * 2 ^ 16), r.reading, r.entry.arg, r.g5]) ∧
    (∀ (core : Fin 32) b (h : Nat), s.tide.due.find? (fun b => decide (b.core = core.val)) = some b → h < 8 →
      s.role (8 * core.val + h) = 1 → s.tstate (8 * core.val + h) = 1 →
      (∀ k, k < h → ¬(s.role (8 * core.val + k) = 1 ∧ s.tstate (8 * core.val + k) = 1)) →
      Gives (exec (.atgBlockDispatch core) s) fun u => u.tide.due = s.tide.due.erase b ∧
        Starts s u (8 * core.val + h) .atg b.pc b.warden b.colour [b.arg, b.target, s.selReading b.sel]) ∧
    (∀ (r : Fin 64) d rest (t : Nat), (s.ring r).fetched = d :: rest → t < 256 → s.role t = 2 → s.rd TID_THRCFG.RING t = r.val →
      s.tstate t = 1 → (∀ k, k < t → ¬(s.role k = 2 ∧ s.rd TID_THRCFG.RING k = r.val ∧ s.tstate k = 1)) →
      Gives (exec (.ringDescriptorDispatch r) s) fun u => (u.ring r).fetched = rest ∧
        Starts s u t (.ring r d.slot d.tag) (s.reg .TID_ENTRY t) (s.is TID_THRCFG.WARDEN t) (s.rd TID_THRCFG.COLOUR t)
          (d.words ++ [BitVec.ofNat 64 (r.val * 2 ^ 16 + d.slot)])) ∧
    (∀ (t : ThreadNo) now c i g limit start, (s.thread t).job = .handler c i g limit start → limit ≠ 0 →
      atOrAfter now s.tick = true → start + limit * 1024 ≤ now.toNat → s.tstate t ≠ 6 →
      Gives (exec (.handlerLimitTrap t now) s) fun u => ∃ w, w < 2 ^ 32 ∧
        u = State.takeTrap { s with tick := now, draws := s.draws + 1 } t 9 0 w 0) ∧
    (∀ c o, 1 ≤ c → c ≤ 13 → s.rd TID_EVQ.OVF = 2 ^ (c - 1) → s.tide.queue.length < 8192 →
      (∀ k, Tbl.get none s.tide.ovf k = if k = c then some o else none) →
      let r : EventRec := { cls := c, idx := 0xFFFFFFFF, count := min o.count 65535, reading := s.recordReading, g5 := 0,
                            entry := o.entry, gen := o.gen }
      Gives (exec .eventOvfRecord s) fun u => u.rd TID_EVQ.OVF = 0 ∧ (∀ k, Tbl.get none u.tide.ovf k = none) ∧
        u.tide.queue = s.tide.queue ++ [r] ∧ u = { s with tide := u.tide, regs := u.regs }) ∧
    (∀ v : BitVec 32, Gives (exec (.tideReset v) s) fun u => ∀ t : ThreadNo,
      (∀ data, u.cache data (t.val / 8) = if v.toNat.testBit (t.val / 8) = true then [] else s.cache data (t.val / 8)) ∧
      (v.toNat.testBit (t.val / 8) = false → u.thread t = s.thread t) ∧
      (v.toNat.testBit (t.val / 8) = true → (∀ r, u.g t r = 0) ∧ (u.thread t).pc = 0 ∧ (u.thread t).tags = [] ∧
        (u.thread t).job = .none ∧ (u.thread t).hold = .none ∧ (u.thread t).cmp = none)) ∧
    (∀ v : BitVec 32, Gives (exec (.icacheInvalidate v) s) fun u =>
      (∀ c, c < 32 → u.cache false c = if v.toNat.testBit c = true then [] else s.cache false c) ∧
      u = { s with tide := { s.tide with icache := u.tide.icache } })

end

namespace Sys2Proof.Claims

open Sys2Proof Sys2Proof.Machine

/-- A reset that reaches the datapath, key and control domains (R14, R620 to R622): everything outside the always-on
domain is as after power-on, the mode is `mode`, STOP_CLEAN and AO_LOST keep their values; a `warm` one also keeps the
key store, DEVICE_ID and the commissioning pair (R231) and the records of the error log, and counts the transition. -/
def IsReset (s u : State) (warm : Bool) (mode : Nat) : Prop :=
  u = { State.reset with
    pending := s.pending, draws := u.draws, out := s.out, regs := u.regs, levee := s.levee, cistern := s.cistern,
    log := u.log, keys := u.keys, culvert := u.culvert, chip := u.chip, delta := u.delta } ∧
  u.culvert.sectors = [] ∧ u.culvert.poison = [] ∧ u.delta = { seed := u.delta.seed } ∧
  u.keys = (if warm then { slots := s.keys.slots, turns := s.keys.turns, cekSeed := s.keys.cekSeed } else {}) ∧
  (warm = true → u.log.fullCount = s.log.fullCount ∧ u.log.suppressed = s.log.suppressed) ∧ (warm = false → u.log = {}) ∧
  u.chip.lcs = s.chip.lcs ∧ u.chip.mFuses = s.chip.mFuses ∧ u.chip.cFuses = s.chip.cFuses ∧
  u.chip.tFuses = s.chip.tFuses ∧ u.chip.blowing = none ∧
  u.rd GBL_MODE.MODE = mode ∧ u.rd GBL_MODE.STOP_CLEAN = s.rd GBL_MODE.STOP_CLEAN ∧
  u.rd GBL_POC.AO_LOST = s.rd GBL_POC.AO_LOST ∧ u.rd GBL_POC.DONE = 0 ∧ u.rd GBL_POC.STAGE = 0 ∧
  (warm = true → u.rd GBL_MODE.TRANS = (s.rd GBL_MODE.TRANS + if s.rd GBL_MODE.MODE = mode then 0 else 1) % 2 ^ 16) ∧
  u.rd GBL_PRES.OPEN = 0 ∧ u.rd LEV_STAT.DIP = 0 ∧
  (∀ d k, levBlock k = true → k ≠ Reg.off .LEV_STAT 0 0 → Tbl.get d u.regs k = Tbl.get d s.regs k) ∧
  (∀ d k, warm = true → elgBlock k = true ∨ k = Reg.off .KST_DEVID 0 0 → Tbl.get d u.regs k = Tbl.get d s.regs k) ∧
  (∀ d k, levBlock k = false → (warm = false ∨ (elgBlock k = false ∧ k ≠ Reg.off .KST_DEVID 0 0)) →
    k ∉ [Reg.off .GBL_MODE 0 0, Reg.off .GBL_POC 0 0, Reg.off .GBL_PRES 0 0] → Tbl.get d u.regs k = d)

/-- Entry into a mode (R608, R609, R611, R622): MODE, TRANS, STOP_CLEAN, no lease left outside M5 to M7; keys, Pools,
Colour Map and Culvert are untouched. -/
def Enters (s u : State) (m : Nat) : Prop :=
  u.rd GBL_MODE.MODE = m ∧ u.rd GBL_MODE.TRANS = (s.rd GBL_MODE.TRANS + 1) % 2 ^ 16 ∧
  u.rd GBL_MODE.STOP_CLEAN = (if m ∈ [2, 3, 4, 11] then 1 else if m ∈ [5, 8, 10] then 0 else s.rd GBL_MODE.STOP_CLEAN) ∧
  (s.rd GBL_MODE.MODE ∈ [5, 6, 7] → m ∉ [5, 6, 7] → ∀ g, g < 18 → u.rd WEI_LEASE.STATE g = 0 ∧
    u.rd WEI_LEASE.LEPOCH g = s.rd WEI_LEASE.LEPOCH g) ∧
  u.pools = s.pools ∧ u.culvert = s.culvert ∧ u.access = s.access ∧ u.cistern = s.cistern

/-- The transitions that a command asks for (R609). -/
def Commanded : List (Nat × Nat) :=
  [(4, 5), (5, 7), (6, 7), (7, 5), (7, 4), (4, 8), (8, 4), (9, 4), (10, 1)]

/-- A key slot is empty of key material and not VALID. -/
def Zeroed (s : State) (cls i : Nat) : Prop := (s.kslot cls i).key = [] ∧ (s.kslot cls i).valid = false

/-- What the host-interface reset does to rings and to the jobs that came from them (R688). -/
def RingsReset (s u : State) : Prop :=
  ∀ r, r < 67 → u.ring r = {} ∧ u.rd HIF_RCFG.EN r = 0 ∧ u.rd HIF_RIDX.SQ_HEAD r = 0 ∧ u.rd HIF_RIDX.CQ_TAIL r = 0 ∧
    u.rd HIF_RSTAT.OUTST r = 0 ∧ u.rd HIF_RSTAT.HALTED r = 0 ∧
    ∀ f ∈ [HIF_RCFG.LOC, HIF_RCFG.COLOUR, HIF_RCFG.VEC, HIF_RCFG.LOG2SZ], u.rd f r = s.rd f r

end Sys2Proof.Claims

section

open Sys2Proof Sys2Proof.Machine Sys2Proof.Claims

/-- R14, R602, R609, R620 to R622: device reset, brown-out, and the loss and return of power. In M0 the main domains are
off and a reset does nothing (the model's reading: assumption log). -/
def Sys2Proof.Claims.ResetsOfTheDatapath : Prop :=
  ∀ (s : State),
    (s.rd GBL_MODE.MODE ≠ 0 → Gives (exec .resetNPulse s) (IsReset s · true 1) ∧
      Gives (exec .gblResetDevice s) (IsReset s · true 1)) ∧
    (s.rd GBL_MODE.MODE = 0 → exec .resetNPulse s = .next s ∧ exec .gblResetDevice s = .next s ∧
      Gives (exec .mainPowerOn s) fun u => IsReset s u false 1 ∧ u.chip.presSince = 0 ∧ u.chip.presArmed = false) ∧
    (∀ watch edge,
      let dipped := (s.setWatch watch.toNat edge.toNat).leveeEvent 5 0
      (s.rd GBL_MODE.MODE ≠ 0 → Gives (exec (.brownOut watch edge) s) (IsReset dipped · true 1) ∧
        Gives (exec (.mainPowerLoss watch edge) s) (IsReset dipped · false 0)) ∧
      (s.rd GBL_MODE.MODE = 0 → exec (.brownOut watch edge) s = .next s ∧ exec (.mainPowerLoss watch edge) s = .next s)) ∧
    (s.rd GBL_MODE.MODE ≠ 0 → exec .mainPowerOn s = .next s) ∧
    (Gives (exec .alwaysOnPowerUp s) fun u => u.cistern = {} ∧ u.keys = {} ∧ u.pools = [] ∧ u.rd GBL_MODE.MODE = 0 ∧
      u.rd GBL_MODE.STOP_CLEAN = 0 ∧ u.rd GBL_POC.AO_LOST = 1 ∧ u.levee = { lfsr := u.levee.lfsr } ∧
      u.chip.lcs = s.chip.lcs ∧ u.chip.mFuses = s.chip.mFuses ∧ u.chip.cFuses = s.chip.cFuses ∧
      u.chip.tFuses = s.chip.tFuses ∧ u.pending = s.pending ∧
      ∀ d k, levBlock k = true → k ≠ Reg.off .LEV_STAT 0 0 → Tbl.get d u.regs k = d)

/-- R15, R353, R354, R688: the host-interface reset keeps the datapath running and leaves threads their descriptors, whose
records will be discarded; FLR and the conventional reset also reach the control domain. -/
def Sys2Proof.Claims.ResetsOfTheHostInterface : Prop :=
  ∀ (s : State),
    (Gives (exec .gblResetHif s) fun u => RingsReset s u ∧
      (∀ t, t < 256 → u.thread t = (match (s.thread t).job with
        | .ring r slot tag => { s.thread t with job := .ring r slot (if tag < 2 ^ 16 then tag + 2 ^ 16 else tag) }
        | _ => s.thread t)) ∧
      u.host.busMaster = s.host.busMaster ∧ u.host.msixEnable = s.host.msixEnable ∧
      (∀ c, (u.mkaQueue c).length = (s.mkaQueue c).length) ∧
      u = { s with regs := u.regs, tide := { s.tide with threads := u.tide.threads }, host := u.host } ∧
      RegsKept s u ((List.range 67).flatMap fun r => [Reg.off .HIF_RCFG r 0, Reg.off .HIF_RIDX r 0, Reg.off .HIF_RSTAT r 0])) ∧
    (∀ c ∈ [Instr.pcieFlr, Instr.pcieConventionalReset], Gives (exec c s) fun u => RingsReset s u ∧
      (∀ t, t < 256 → u.thread t = { warden := s.is TID_THRCFG.WARDEN t, colour := s.rd TID_THRCFG.COLOUR t } ∧
        u.tstate t = (if s.rd TID_THRCFG.ROLE t = 0 then 0 else 1)) ∧
      (∀ o ∈ u.tide.ops, o.discard = true ∨ 256 ≤ o.thread) ∧
      u.host.busMaster = false ∧ u.host.msixEnable = false ∧ u.host.msixMask = false ∧
      u.reg .HIF_CTL = Reg.resetValue .HIF_CTL 0 ∧ u.rd HIF_CAUSE.CAUSE = 0 ∧
      (∀ v, v < 128 → u.reg .HIF_MSIXA v = Reg.resetValue .HIF_MSIXA v ∧ u.reg .HIF_MSIXD v = Reg.resetValue .HIF_MSIXD v) ∧
      u.rd HIF_BAR2WIN.WIN = s.rd HIF_BAR2WIN.WIN ∧ u.rd GBL_MODE.MODE = s.rd GBL_MODE.MODE ∧
      u.pools = s.pools ∧ u.keys = s.keys ∧ u.culvert = s.culvert ∧ u.weir = s.weir ∧ u.races = s.races ∧
      u.access = s.access ∧ u.tide.orders = s.tide.orders ∧ u.recs = s.recs)

/-- R612, R616, R619, R635, R687: a step of Power-On Check that fails, after which no other step runs and DONE stays 0, the
fuses sensed and the flash header taken, the keys of step 8, which waits for the end of a supply dip (R260), and the mode
that step 9 enters. -/
def Sys2Proof.Claims.PowerOnCheck : Prop :=
  ∀ (s : State) (bad : Option (BitVec 16)) (h : Octets) (lanes : List LaneNo) (records : List (Fin 257)) (watch : BitVec 48)
    (edge : Word),
    let n := s.rd GBL_POC.STAGE + 1
    let runs := s.rd GBL_MODE.MODE = 1 ∧ s.rd GBL_POC.DONE = 0 ∧ s.rd GBL_POC.FAIL = 0 ∧ n ≤ 9 ∧
      ¬(n = 8 ∧ s.rd KST_STAT.DIP = 1)
    let o := exec (.pocStepEnd bad h lanes records watch edge) s
    let lost := fun (m : Fin 4) => if m = 2 then 3 else m
    let gone := fun (u : State) (cls i : Nat) => (s.kslot cls i).valid = true → (u.kslot cls i).valid = false
    (¬runs → o = .next s) ∧
    (∀ unit, runs → bad = some unit → n ∈ [2, 3, 5, 6, 7, 8] → Gives o fun u => u.rd GBL_POC.FAIL = 1 ∧
      u.rd GBL_POC.DONE = 0 ∧ u.rd GBL_POC.UNIT = unit.toNat ∧ u.rd GBL_POC.STAGE = n ∧ u.rd GBL_MODE.MODE = 1 ∧
      u.rd GBL_POC.CODE = (if n = 2 then 1 else if n = 3 then 3 else n - 1) ∧
      OnlyRegs s u [Reg.off .GBL_POC 0 0, Reg.off .LEV_WATCH 0 0, Reg.off .LEV_WTICK 0 0]) ∧
    (runs → n ∈ [1, 3, 5, 6, 7] → (bad = none ∨ n = 1) → Gives o fun u => u.rd GBL_POC.STAGE = n ∧
      OnlyRegs s u [Reg.off .GBL_POC 0 0, Reg.off .LEV_WATCH 0 0, Reg.off .LEV_WTICK 0 0]) ∧
    (runs → n = 2 → bad = none → Gives o fun u => u.rd GBL_POC.STAGE = 2 ∧
      u.chip.mFuses = lost s.chip.mFuses ∧ u.chip.cFuses = lost s.chip.cFuses ∧ u.chip.tFuses = lost s.chip.tFuses ∧
      u.chip.lcs = (if 2 ≤ s.chip.tFuses then 3 else if 2 ≤ s.chip.cFuses then 2 else if 2 ≤ s.chip.mFuses then 1 else 0) ∧
      (flashOk h = false → u.rd HIF_STAT.FLASH_BAD = 1 ∧ u.rd HIF_STAT.BAR2_LOG2 = 6 ∧ u.host.subsysVid = 0 ∧
        u.host.subsysId = 0 ∧ u.host.preload = none) ∧
      (flashOk h = true → u.rd HIF_STAT.BAR2_LOG2 = leNat (slice h 6 1) - 30 ∧ u.host.subsysVid = leNat (slice h 8 2) ∧
        u.host.subsysId = leNat (slice h 10 2) ∧
        u.host.preload = if leNat (slice h 7 1) % 2 = 1 then some (leNat (slice h 12 4), leNat (slice h 20 4)) else none) ∧
      u = { s with regs := u.regs, chip := u.chip, host := u.host }) ∧
    (runs → n = 4 → Gives o fun u => u.rd GBL_POC.STAGE = 4 ∧
      (∀ k : LaneNo, u.rd LN_CTL.PSTATE k = 1 ∧ (k ∉ lanes → u.rd LN_STAT.PSTATE_NOW k = 1) ∧
        (k ∈ lanes → u.rd LN_STAT.CAL_FAIL k = 1 ∧ u.rd LN_STAT.PSTATE_NOW k = s.rd LN_STAT.PSTATE_NOW k)) ∧
      (lanes = [] → u = { s with regs := u.regs }) ∧ u.keys = s.keys ∧ u.pools = s.pools ∧ u.chip = s.chip) ∧
    (runs → n = 8 → bad = none → Gives o fun u => u.rd GBL_POC.STAGE = 8 ∧
      u.monotonic 0 = min (s.monotonic 0 + 1) (2 ^ 64 - 1) ∧
      (u.kslot 3 0).valid = true ∧ (u.kslot 3 0).key = rootDerive 0x11 0 0 256 ∧
      u.reg .KST_DEVID = BitVec.ofNat 64 (beNat (rootDerive 0x12 0 0 64)) ∧ u.keys.cekSeed = rootDerive 0x13 0 0 512 ∧
      (∀ r, r < 8 → (u.kslot 3 (0x10 + r)).valid = true ∧
        (u.kslot 3 (0x10 + r)).key = rootDerive 0x10 r (u.monotonic 0 % 2 ^ 32) 256) ∧
      (∀ cls i, cls < 3 → i < 2 ^ 24 → (s.kslot cls i).resetExp = true → gone u cls i) ∧
      (s.rd GBL_MODE.STOP_CLEAN = 0 → ∀ cls i, cls < 2 → i < 2 ^ 24 → gone u cls i)) ∧
    (runs → n = 9 → (s.host.preload ≠ none → Gives o fun u => u.rd GBL_POC.STAGE = 9 ∧ u.rd GBL_POC.DONE = 0 ∧
        u.rd GBL_MODE.MODE = 1) ∧
      (s.host.preload = none → Gives o fun u => u.rd GBL_POC.STAGE = 9 ∧ u.rd GBL_POC.DONE = 1 ∧
        if s.chip.lcs = 0 ∨ (Config.grade ≠ 1 ∧ Config.grade ≠ 2) then
          u.rd GBL_MODE.MODE = 1 ∧ u.rd GBL_POC.FAIL = 1 ∧ u.rd GBL_POC.CODE = 2
        else u.rd GBL_MODE.MODE = (if s.rd LEV_STAT.LD_PEND = 1 then 10 else if s.chip.lcs = 1 then 2
          else if s.chip.lcs = 3 then 11 else if s.rd KST_CISTAT.DS_VALID = 0 then 3
          else if s.rd GBL_MODE.STOP_CLEAN = 0 then 9 else 4)))

/-- R616, R623, R687, R701: the end of the flash preload, and of the replay. -/
def Sys2Proof.Claims.PreloadAndReplay : Prop :=
  ∀ (s : State),
    (∀ (data : Octets) len crc, PoolsCanonical s → s.host.preload = some (len, crc) → 4 ≤ s.rd GBL_POC.STAGE →
      s.rd GBL_POC.STAGE ≠ 9 → s.rd GBL_POC.DONE = 0 → len ≤ data.length →
      Gives (exec (.flashPreloadEnd data) s) fun u => u.rd HIF_STAT.PRE_DONE = 1 ∧ u.host = { s.host with preload := none } ∧
        (Crypto.crc32 (data.take len) = crc → u.rd HIF_STAT.PRE_BAD = s.rd HIF_STAT.PRE_BAD ∧
          ∀ a, poolGet u.pools a = if 0x100000000 ≤ a ∧ a < 0x100000000 + len then data.getD (a - 0x100000000) 0
            else poolGet s.pools a) ∧
        (Crypto.crc32 (data.take len) ≠ crc → u.rd HIF_STAT.PRE_BAD = 1 ∧
          ∀ a, poolGet u.pools a = if a < 0x100400000 then 0 else poolGet s.pools a) ∧
        u = { s with regs := u.regs, host := u.host, pools := u.pools } ∧ RegsKept s u [Reg.off .HIF_STAT 0 0]) ∧
    (∀ data, s.host.preload = none → exec (.flashPreloadEnd data) s = .next s) ∧
    (s.rd GBL_MODE.REPLAY = 1 → Gives (exec .replayEnd s) fun u => u.rd GBL_MODE.REPLAY = 0 ∧
      (u.rd HIF_CAUSE.CAUSE).testBit 0 = true ∧
      (∀ k, k < s.rd ELG_STAT.USED → bits (u.reg .ELG_LOG ((s.rd ELG_IDX.RD + k) % 1024) 0).toNat 8 8 = 1) ∧
      (∀ n j, n < 1024 → 1 ≤ j → j < 4 → u.reg .ELG_LOG n j = s.reg .ELG_LOG n j) ∧ u.log = s.log ∧ u.keys = s.keys) ∧
    (s.rd GBL_MODE.REPLAY = 0 → exec .replayEnd s = .next s)

/-- R609, R615, R625, R628, R630, R634: the commands of GBL_MODECMD. -/
def Sys2Proof.Claims.ModeCommands : Prop :=
  ∀ (s : State) (c : Instr) (target : Nat),
    (c, target) ∈ [(Instr.modecmdService, 5), (.modecmdDrain, 7), (.modecmdReady, 4), (.modecmdClearMaintenance, 8),
      (.modecmdLockdownExit, 1)] ∨ (∃ f : Fin 16, f.val = target ∧ target ∉ [1, 4, 5, 7, 8] ∧ c = .modecmdInvalid f) →
    let m := s.rd GBL_MODE.MODE
    let o := exec c s
    let refused := fun (st : Nat) => Gives o fun u => u.rd GBL_MODECMD.STATUS = st ∧ u.rd GBL_MODECMD.TARGET = target ∧
      OnlyRegs s u [Reg.off .GBL_MODECMD 0 0]
    let idle := s.rd GBL_MODECMD.BUSY = 0
    let absent := target ∈ [1, 8] ∧ s.rd GBL_PRES.OPEN = 0
    let met := if m = 4 ∧ target = 5 then s.rd TID_STAT.SO_VALID = 1 ∧ s.rd GBL_DEBUG.OPEN = 0
      else if m = 7 ∧ target = 5 then s.rd TID_STAT.SO_VALID = 1
      else if m = 7 ∧ target = 4 then s.drained = true
      else if m = 9 ∧ target = 4 then s.rd KST_STAT.SWEEP = 0 ∧ s.rd GBL_MODE.REPLAY = 0
      else if m = 10 then ∀ k, k < 16 → s.rd LEV_SRCCFG.EN k = 1 → 2 ≤ s.rd LEV_SRCCFG.RESP k →
        (s.rd LEV_RAW.RAW).testBit k = false
      else True
    let ok := idle ∧ ¬absent ∧ (m, target) ∈ Commanded ∧ met
    (¬idle → Gives o fun u => u.rd GBL_MODECMD.CMD_DROP = 1 ∧ u.rd GBL_MODECMD.STATUS = s.rd GBL_MODECMD.STATUS ∧
      u.rd GBL_MODECMD.TARGET = s.rd GBL_MODECMD.TARGET ∧ OnlyRegs s u [Reg.off .GBL_MODECMD 0 0]) ∧
    (idle → absent → refused 2) ∧
    (idle → ¬absent → (m, target) ∉ Commanded → refused 1) ∧
    (idle → ¬absent → (m, target) ∈ Commanded → ¬met → refused 3) ∧
    (ok → m = 7 ∨ m = 9 → target = 4 → Gives o fun u => u.rd GBL_MODECMD.BUSY = 1 ∧ u.rd GBL_MODECMD.TARGET = 4 ∧
      u.rd GBL_MODE.MODE = m ∧ OnlyRegs s u [Reg.off .GBL_MODECMD 0 0]) ∧
    (ok → m = 10 → Gives o fun u => u.rd GBL_MODE.MODE = 1 ∧ u.rd LEV_STAT.LD_PEND = 0 ∧ u.rd GBL_POC.DONE = 0 ∧
      u.keys.slots = s.keys.slots ∧ u.cistern = s.cistern ∧ u.pools = []) ∧
    (ok → m ≠ 10 → ¬((m = 7 ∨ m = 9) ∧ target = 4) → Gives o fun u => Enters s u target ∧ u.keys = s.keys ∧
      u.rd GBL_MODECMD.STATUS = 0 ∧ u.rd GBL_MODECMD.TARGET = target)

/-- R260, R611, R629: the entry into M4 from M7 or M9 ends, but not during a supply dip. -/
def Sys2Proof.Claims.ReadyEntry : Prop :=
  ∀ (s : State),
    let m := s.rd GBL_MODE.MODE
    (s.rd GBL_MODECMD.BUSY = 0 ∨ s.rd KST_STAT.DIP = 1 → exec .readyEntryEnd s = .next s) ∧
    (s.rd GBL_MODECMD.BUSY = 1 → s.rd KST_STAT.DIP = 0 → m = 7 ∨ m = 9 → Tbl.rising 0 s.keys.slots → Gives (exec .readyEntryEnd s) fun u =>
      Enters s u 4 ∧ u.rd GBL_MODECMD.BUSY = 0 ∧ u.rd GBL_MODECMD.STATUS = 0 ∧
      (∀ cls i, cls < 3 → i < 2 ^ 24 → Zeroed u cls i ∧ (u.kslot cls i).gen = ((s.kslot cls i).gen + 1) % 64) ∧
      (∀ i, i < 2 ^ 24 → (s.kslot 3 i).parent = 0xFFFFFFFF → u.kslot 3 i = s.kslot 3 i)) ∧
    (s.rd GBL_MODECMD.BUSY = 1 → s.rd KST_STAT.DIP = 0 → m ≠ 7 → m ≠ 9 → Gives (exec .readyEntryEnd s) fun u =>
      u.rd GBL_MODECMD.BUSY = 0 ∧ u.rd GBL_MODECMD.STATUS = 4 ∧ OnlyRegs s u [Reg.off .GBL_MODECMD 0 0])

/-- R612, R613, R634: life-cycle changes. The order of the checks is the model's (assumption log). -/
def Sys2Proof.Claims.LifeCycleCommands : Prop :=
  ∀ (s : State) (c : Instr) (target : Nat) (confirm : Byte),
    (c = .lcChangeCarrier ∧ target = 2 ∧ confirm = 0x4C) ∨ (c = .lcChangeRetired ∧ target = 3 ∧ confirm = 0x4C) ∨
      (∃ f : Fin 4, f.val = target ∧ ¬(2 ≤ target ∧ confirm = 0x4C) ∧ c = .lcCmdInvalid f confirm) →
    let o := exec c s
    let m := s.rd GBL_MODE.MODE
    let from' := (target = 2 ∧ m = 2) ∨ (target = 3 ∧ m ∈ [3, 4, 9, 10])
    let refused := fun (st : Nat) => Gives o fun u => u.rd GBL_LCCMD.STATUS = st ∧ OnlyRegs s u [Reg.off .GBL_LCCMD 0 0]
    let idle := s.rd GBL_LCCMD.BUSY = 0
    (¬idle → Gives o fun u => u.rd GBL_LCCMD.CMD_DROP = 1 ∧ OnlyRegs s u [Reg.off .GBL_LCCMD 0 0]) ∧
    (idle → target < 2 → refused 1) ∧ (idle → 2 ≤ target → confirm ≠ 0x4C → refused 5) ∧
    (idle → 2 ≤ target → confirm = 0x4C → s.rd GBL_PRES.OPEN = 0 → refused 2) ∧
    (idle → 2 ≤ target → confirm = 0x4C → s.rd GBL_PRES.OPEN = 1 → ¬from' → refused 1) ∧
    (idle → confirm = 0x4C → s.rd GBL_PRES.OPEN = 1 → from' → Gives o fun u =>
      u.rd GBL_LCCMD.BUSY = 1 ∧ u.chip = { s.chip with blowing := some target } ∧ u.tide.orders = [] ∧
      u.rd TID_STAT.SO_VALID = 0 ∧ u.rd GBL_DEBUG.OPEN = 0 ∧ (∀ g, g < 18 → u.rd WEI_LEASE.STATE g = 0) ∧
      u.cistern = { s.cistern with domain := none, caks := [] } ∧ u.rd KST_CISTAT.DS_VALID = 0 ∧ u.rd KST_CISTAT.CAKS = 0 ∧
      (∀ cls i, i < 2 ^ 24 → u.kslot cls i = { gen := (u.kslot cls i).gen }) ∧ u.keys.pages = [] ∧ u.levee = s.levee ∧ u.rd GBL_MODE.MODE = m)

/-- R612, R613: the fuses are blown, a device reset follows, and no fuse is ever unblown; the production test makes a
Blank part Manufactured. -/
def Sys2Proof.Claims.FusePrograms : Prop :=
  ∀ (s : State),
    (∀ t, s.chip.blowing = some t → t = 2 ∨ t = 3 → s.rd LEV_STAT.DIP = 0 → s.rd GBL_MODE.MODE ≠ 0 →
      Gives (exec .fuseProgramEnd s) fun u => FusesKept s u ∧ u.rd GBL_MODE.MODE = 1 ∧ u.rd GBL_POC.DONE = 0 ∧
        u.chip.blowing = none ∧ (if t = 2 then u.chip.cFuses = 3 ∧ u.chip.tFuses = s.chip.tFuses
          else u.chip.tFuses = 3 ∧ u.chip.cFuses = s.chip.cFuses) ∧ u.pools = [] ∧ u.cistern = s.cistern ∧ u.levee = s.levee) ∧
    (s.chip.blowing = none ∨ s.rd LEV_STAT.DIP = 1 → exec .fuseProgramEnd s = .next s) ∧
    (s.chip.lcs = 0 → exec .productionTestFuseProgram s = .next { s with chip := { s.chip with mFuses := 3, lcs := 1 } }) ∧
    (s.chip.lcs ≠ 0 → exec .productionTestFuseProgram s = .next s)

/-- R614, R615, R631: the pin PRES_N, the presence window, and debug. -/
def Sys2Proof.Claims.PresenceAndDebug : Prop :=
  ∀ (s : State) (now : Word),
    let ms50 : Int := 75000000
    let t : Int := now.toNat
    let low := s.rd GBL_PRES.LEVEL = 1
    let pres := [Reg.off .GBL_PRES 0 0]
    (atOrAfter now s.tick = true →
      (∀ l, s.rd GBL_MODE.MODE ≠ 0 → (l = true ↔ ¬low) → Gives (exec (.presNChange l now) s) fun u =>
        u.rd GBL_PRES.LEVEL = (if l then 1 else 0) ∧ u.chip.presSince = t ∧
        (u.chip.presArmed = true ↔ l = true ∧ ms50 ≤ t - s.chip.presSince) ∧
        u = { s with tick := now, regs := u.regs, chip := u.chip } ∧ RegsKept s u pres) ∧
      (low → s.chip.presArmed = true → ms50 ≤ t - s.chip.presSince → Gives (exec (.presenceWindowOpen now) s) fun u =>
        u.rd GBL_PRES.OPEN = 1 ∧ u.chip = { s.chip with presArmed := false, presOpened := now.toNat } ∧
        u = { s with tick := now, regs := u.regs, chip := u.chip } ∧ RegsKept s u pres) ∧
      (¬low ∨ s.chip.presArmed = false ∨ t - s.chip.presSince < ms50 →
        exec (.presenceWindowOpen now) s = .next { s with tick := now }) ∧
      (s.rd GBL_PRES.OPEN = 1 → s.chip.presOpened + 15 * 10 ^ 9 ≤ now.toNat →
        Gives (exec (.presenceWindowClose now) s) fun u => u.rd GBL_PRES.OPEN = 0 ∧
          OnlyRegs { s with tick := now } u pres) ∧
      (s.rd GBL_PRES.OPEN = 0 ∨ now.toNat < s.chip.presOpened + 15 * 10 ^ 9 → exec (.presenceWindowClose now) s = .next { s with tick := now }) ∧
      (low → 90 * 10 ^ 9 ≤ t - s.chip.presSince → Gives (exec (.presenceStuck now) s) fun u => u.rd GBL_PRES.STUCK = 1 ∧
        OnlyRegs { s with tick := now } u pres) ∧
      (¬low ∨ t - s.chip.presSince < 90 * 10 ^ 9 → exec (.presenceStuck now) s = .next { s with tick := now })) ∧
    (let may := s.rd GBL_PRES.OPEN = 1 ∧ s.rd GBL_MODE.MODE ∈ [3, 4, 8, 9, 10]
     (may → Gives (exec .debugReq s) fun u => u.rd GBL_DEBUG.OPEN = 1 ∧ OnlyRegs s u [Reg.off .GBL_DEBUG 0 0]) ∧
     (¬may → Gives (exec .debugReq s) fun u => u.rd GBL_DEBUG.REJECT = 1 ∧ u.rd GBL_DEBUG.OPEN = s.rd GBL_DEBUG.OPEN ∧
       OnlyRegs s u [Reg.off .GBL_DEBUG 0 0]) ∧
     (s.rd GBL_MODE.MODE ≠ 2 → Gives (exec .debugClose s) fun u => u.rd GBL_DEBUG.OPEN = 0 ∧
       OnlyRegs s u [Reg.off .GBL_DEBUG 0 0]) ∧
     (s.rd GBL_MODE.MODE = 2 → exec .debugClose s = .next s))

end

namespace Sys2Proof.Claims

open Sys2Proof Sys2Proof.Machine

/-- A Race is marked failed (R31, R130): its bit of FAILED is set and STATE reads 4. -/
def MarkedFailed (u : State) (k : Nat) : Prop := (u.rd WEI_POOL_STAT.FAILED).testBit k = true ∧ u.rd RC_STAT.STATE k = 4

/-- A flag as RC_FLAGk holds it (R138). -/
def FlagIs (u : State) (k d checker unit chan block sq : Nat) : Prop :=
  u.rd RC_FLAG.VALID k = 1 ∧ u.rd RC_FLAG.DIR k = d ∧ u.rd RC_FLAG.CHECKER k = checker ∧ u.rd RC_FLAG.UNIT k = unit ∧
  u.rd RC_FLAG.CHAN k = chan ∧ u.rd RC_FLAG.BLOCK k = block ∧ u.rd RC_FLAG.SEQ k = sq

/-- A lease is held by `a`, and by `b` when it is given, under the next LEPOCH (R282, R283). -/
def GrantedTo (s u : State) (g a b : Nat) : Prop :=
  u.rd WEI_LEASE.STATE g = 1 ∧ u.rd WEI_LEASE.HOLDER_A g = a ∧ u.rd WEI_LEASE.HOLDER_B g = b ∧
  u.rd WEI_LEASE.LEPOCH g = (s.rd WEI_LEASE.LEPOCH g + 1) % 2 ^ 16

/-- Packet traffic is configured on a channel of a group: its timeslots, live or staged, its CH record, or an SC bound to
it (R128). -/
def PacketsOf (s : State) (g : Nat) : Prop :=
  (∃ t, t < 160 ∧ s.packetChan (160 * g + t) = true) ∨
  (∃ w ∈ Tbl.get [] s.frm.pendMap g, FRM_TSMAP.USED.of w = 1 ∧ FRM_TSMAP.KIND.of w = 1) ∨
  (∃ c ∈ s.recObjects .ch 0, chanGroup c = g ∧ s.rrd CH.EN c = 1) ∨
  (∃ c ∈ s.recObjects .sc 0, chanGroup (s.rrd SC.CHAN c) = g ∧ s.rrd SC.EN c = 1)

/-- A block of Race `k` is withheld (R120, R138): FLAGGED, the flags counted, the flag captured unless one is held already
(an egress flag takes the place of an ingress flag of the same cycle, R124), and, where the Race holds the lease and has
withheld nothing in the direction, the direction closed and a dispute sent. -/
def Withheld (s u : State) (k d checker unit chan block sq n : Nat) (now : Word) : Prop :=
  let g := s.rd RC_STAT.GROUP k
  let x := s.race k
  let held := s.rd RC_FLAG.VALID k = 1 ∧ (d = 1 ∨ s.rd RC_FLAG.DIR k = 0 ∨ s.rd RC_FLAG.CHECKER k = 6 ∨ x.flagTick ≠ now.toNat)
  u.rd RC_STAT.FLAGGED k = 1 ∧ u.ctr Ctrs.RC_FLAGS (raceDir k d) = (s.ctr Ctrs.RC_FLAGS (raceDir k d)).add n ∧
  (held → u.reg .RC_FLAG k = s.reg .RC_FLAG k ∧ u.reg .RC_FLAGG k = s.reg .RC_FLAGG k) ∧
  (¬held → FlagIs u k d checker unit chan block sq ∧ (g < 18 → u.reg .RC_FLAGG k = s.reg .GAU_READ g)) ∧
  (g < 18 → s.judgeable g k = true → s.withheld k d = false → u.withheld k d = true ∧
    u.withheld k (1 - d) = s.withheld k (1 - d) ∧ ((u.race k).dispute.getD {}).sent = (x.dispute.getD {}).sent + 1 ∧
    (x.dispute = none → ((u.race k).dispute.getD {}).flag = u.reg .RC_FLAG k)) ∧
  (18 ≤ g ∨ s.judgeable g k = false ∨ s.withheld k d = true → (u.race k).dispute = x.dispute)

/-- No lease of a group other than `g` has changed. -/
def OtherLeases (s u : State) (g : Nat) : Prop := ∀ h, h < 18 → h ≠ g → u.reg .WEI_LEASE h = s.reg .WEI_LEASE h

end Sys2Proof.Claims

section

open Sys2Proof Sys2Proof.Machine Sys2Proof.Claims

/-- R26, R29, R128, R129: writes of WEI_GRP_CFGg, the host errors of too few standby Races and of packet channels in a
Twin group, and the end of a closing drain. That a write repeats EN = 1 of an enabled group is no second taking of its
Races is the model's choice (assumption log). -/
def Sys2Proof.Claims.GroupConfiguration : Prop :=
  ∀ (s : State) (g : Group) (v : Word),
    let o := exec (.weiGrpCfgWrite g v) s
    let on := WEI_GRP_CFG.EN.of v = 1
    let prot := WEI_GRP_CFG.PROT.of v
    let a := WEI_GRP_CFG.RACE_A.of v
    let b := WEI_GRP_CFG.RACE_B.of v
    let was := s.rd WEI_GRP_CFG.EN g = 1
    let free := fun (k : Nat) => k < 24 ∧ s.rd RC_STAT.STATE k = 0 ∧ s.failed k = false ∧ ∀ h, h < 18 → s.names h k = false
    let ok := s.rd WEI_GRP_CFG.CLOSING g = 0 ∧ (on → prot = 1 ∨ prot = 2) ∧
      (was → prot = s.rd WEI_GRP_CFG.PROT g ∧ a = s.rd WEI_GRP_CFG.RACE_A g ∧ b = s.rd WEI_GRP_CFG.RACE_B g) ∧
      (on → ¬was → free a ∧ (prot = 2 → free b ∧ a ≠ b))
    let noTwin := ∀ h, h < 18 → s.rd WEI_GRP_CFG.EN h = 1 → s.twin h = false
    let enough := 4 ≤ s.standbyCount ∨ (prot = 1 ∧ (3 ≤ s.standbyCount ∨ noTwin))
    let clash := on ∧ prot = 2 ∧ PacketsOf s g
    let written := fun (u : State) => u.rd WEI_GRP_CFG.EN g = WEI_GRP_CFG.EN.of v ∧ u.rd WEI_GRP_CFG.PROT g = prot ∧
      u.rd WEI_GRP_CFG.RACE_A g = a ∧ u.rd WEI_GRP_CFG.RACE_B g = b ∧
      (∀ h, h < 18 → h ≠ g.val → u.reg .WEI_GRP_CFG h = s.reg .WEI_GRP_CFG h ∧ u.reg .WEI_LEASE h = s.reg .WEI_LEASE h) ∧
      u = { s with regs := u.regs, races := u.races }
    let wakes := fun (u : State) (k : Nat) =>
      if s.rd GBL_MODE.MODE = 2 ∨ s.rd GBL_MODE.MODE = 8 then u.rd RC_STAT.STATE k = 0
      else u.rd RC_STAT.STATE k = 1 ∧ (u.race k).wake = .start g
    (rsvdOk .WEI_GRP_CFG v = true → ¬ok → on → was → s.rd WEI_GRP_CFG.PROT g = 2 → PacketsOf s g → o = .fault .hostError) ∧
    (rsvdOk .WEI_GRP_CFG v = true → ¬ok → ¬(on ∧ was ∧ s.rd WEI_GRP_CFG.PROT g = 2 ∧ PacketsOf s g) → Gives o fun u => u.rd WEI_POOL_STAT.CFG_REJECT = 1 ∧
      OnlyRegs s u [Reg.off .WEI_POOL_STAT 0 0]) ∧
    (rsvdOk .WEI_GRP_CFG v = true → ok → was → ¬on → Gives o fun u => u.rd WEI_GRP_CFG.CLOSING g = 1 ∧
      u.rd WEI_GRP_CFG.EN g = 1 ∧ OnlyRegs s u [Reg.off .WEI_GRP_CFG g 0]) ∧
    (rsvdOk .WEI_GRP_CFG v = true → ok → (was ↔ on) → ¬clash → Gives o written) ∧
    (rsvdOk .WEI_GRP_CFG v = true → ok → on → ¬was → enough → ¬clash → Gives o fun u =>
      written u ∧ wakes u a ∧ (prot = 2 → wakes u b)) ∧
    (rsvdOk .WEI_GRP_CFG v = true → ok → on → clash ∨ (¬was ∧ ¬enough) → o = .fault .hostError) ∧
    (was → s.rd WEI_GRP_CFG.CLOSING g = 1 → s.started g = false → s.rd GBL_MODE.MODE ≠ 6 →
      Gives (exec (.groupDrainEnd g) s) fun u => u.rd WEI_GRP_CFG.EN g = 0 ∧ u.rd WEI_GRP_CFG.CLOSING g = 0 ∧
        u.rd WEI_LEASE.STATE g = 0 ∧ u.rd WEI_LEASE.LEPOCH g = s.rd WEI_LEASE.LEPOCH g ∧ OtherLeases s u g ∧
        (∀ k, k < 24 → s.names g k = true → s.rd RC_STAT.STATE k ≠ 4 → s.rd RC_STAT.STATE k ≠ 5 →
          u.rd RC_STAT.STATE k = 0 ∧ u.rd RC_STAT.GROUP k = 0x1F)) ∧
    (s.rd WEI_GRP_CFG.CLOSING g = 0 ∨ s.started g = true → exec (.groupDrainEnd g) s = .next s)

/-- R103, R114, R118, R120, R123, R124, R131 to R134, R138, R286, R309, R747: words of a Race and their flags, known-
answer tests, the power gate, and the clearing of FAILED. Where the spec leaves a point open it is the model's: log
entry 97. -/
def Obligations.RaceEvents : Prop :=
  ∀ (s : State) (k : RaceNo),
    let st := s.rd RC_STAT.STATE k
    let x := s.race k
    (st = 0 ∨ st = 4 → Gives (exec (.rcCtlTest k) s) fun u => u.rd RC_STAT.STATE k = 5 ∧ u.race k = { x with back := st } ∧
      u = { s with regs := u.regs, races := u.races } ∧ RegsKept s u [Reg.off .RC_STAT k 0]) ∧
    (st ≠ 0 → st ≠ 4 → exec (.rcCtlTest k) s = .next s) ∧
    (Gives (exec (.rcCtlFlagClr k) s) fun u => u.reg .RC_FLAG k = 0 ∧ u.reg .RC_FLAGG k = 0 ∧
      OnlyRegs s u [Reg.off .RC_FLAG k 0, Reg.off .RC_FLAGG k 0]) ∧
    (∀ pass d unit, (st ≠ 5 → exec (.raceTestDone k pass d unit) s = .next s) ∧
      (st = 5 → x.back = 0 ∨ x.back = 4 → Gives (exec (.raceTestDone k pass d unit) s) fun u =>
        u.rd RC_STAT.KAT_DONE k = 1 ∧ (pass = true → u.rd RC_STAT.KAT_FAIL k = s.rd RC_STAT.KAT_FAIL k) ∧
        (pass = false → u.rd RC_STAT.KAT_FAIL k = 1 ∧ (s.rd RC_FLAG.VALID k = 0 → FlagIs u k d.code 6 unit 0 0 0) ∧
          u.rd RC_STAT.FLAGGED k = s.rd RC_STAT.FLAGGED k) ∧
        (x.back = 4 → u.rd RC_STAT.STATE k = 4 ∧ u.race k = { x with back := 0, tested := pass }) ∧
        (x.back = 0 → s.named k = false → u.rd RC_STAT.STATE k = 0) ∧
        u.rd WEI_POOL_STAT.FAILED = s.rd WEI_POOL_STAT.FAILED)) ∧
    (∀ pass d unit, (st ≠ 1 → exec (.raceWakeDone k pass d unit) s = .next s) ∧
      (st = 1 → pass = true → Gives (exec (.raceWakeDone k pass d unit) s) fun u => u.rd RC_STAT.STATE k = 2 ∧
        OnlyRegs s u [Reg.off .RC_STAT k 0]) ∧
      (st = 1 → pass = false → Gives (exec (.raceWakeDone k pass d unit) s) fun u => MarkedFailed u k ∧
        u.rd RC_STAT.KAT_FAIL k = 1 ∧ (s.rd RC_FLAG.VALID k = 0 → FlagIs u k d.code 6 unit 0 0 0))) ∧
    (Gives (exec (.raceGateClose k) s) fun u => u.race k = { x with gateOpen := false } ∧
      (∀ j, j ≠ k.val → u.race j = s.race j) ∧ u = { s with races := u.races }) ∧
    (∀ (d : Dir) chan m flags block sq taken cuts now, atOrAfter now s.tick = true →
      let s0 : State := { s with tick := now }
      let o := exec (.raceBlock k d chan m flags block sq taken cuts now) s
      let rd := raceDir k d.code
      let g := s.rd RC_STAT.GROUP k
      let l := if st = 3 ∧ k.val ∈ s0.computing g chan then wordOf (s0.flowsOf g k d chan) (m + 1) else []
      let good := l.takeWhile (fun y => (y.flag d flags).isNone)
      let period := if s.rd WEI_SAMPLE.DIP_BOOST = 1 then 1 else 2 ^ s.rd WEI_SAMPLE.SHIFT
      let hits := (min (if d.code = 0 then x.since0 else x.since1) (period - 1) + l.length) / period
      let word : SluiceWord := { chan := chan, lepoch := x.lepoch
                                 lanes := List.replicate (((good.head?).map FlowLane.lane).getD 0) {} ++ good.map (fun y => y.toLane true) }
      (st ≠ 3 → x.gateOpen = false → o = .next s0) ∧
      (l = [] → flags = [] → o = .next s0) ∧
      (∀ pre f post, st = 3 ∨ x.gateOpen = true → l = [] → flags = pre ++ f :: post → (∀ e ∈ pre, f.1 < e.1) →
        (∀ e ∈ post, f.1 ≤ e.1) → Gives o fun u =>
          Withheld s u k d.code f.2.1 f.2.2 chan block.toNat sq.toNat flags.length now) ∧
      (l ≠ [] → Gives o fun u =>
        u.ctr Ctrs.RC_BLOCKS rd =
          (if s.withheld k d.code = true ∨ good = [] then s.ctr Ctrs.RC_BLOCKS rd else (s.ctr Ctrs.RC_BLOCKS rd).add good.length) ∧
        u.ctr Ctrs.RC_SAMPLES rd = (if hits = 0 then s.ctr Ctrs.RC_SAMPLES rd else (s.ctr Ctrs.RC_SAMPLES rd).add hits) ∧
        u.weir.samples.length = s.weir.samples.length + (if taken then 0 else min hits (refPlaces - s.weir.samples.length)) ∧
        (good = l → s.withheld k d.code = false → s.sluiceOpen g = true → s.holds g k = true →
          x.lepoch = s.rd WEI_LEASE.LEPOCH g → s.computing g chan = [k.val] → u.out = .sluice g d word :: s.out) ∧
        (s.withheld k d.code = true ∨ s.sluiceOpen g = false ∨ s.holds g k = false ∨ x.lepoch ≠ s.rd WEI_LEASE.LEPOCH g →
          u.out = s.out) ∧
        (good = l → u = { s with tick := now, counters := u.counters, races := u.races, weir := u.weir, l1 := u.l1, out := u.out } ∧
          (u.race k).dispute = x.dispute) ∧
        (∀ y post c unit, l = good ++ y :: post → y.flag d flags = some (c, unit) → unit < 8 →
          Withheld s u k d.code c unit chan (y.block % 2 ^ 12) (y.flow.seqNo % 2 ^ 32)
            (l.filter (fun z => (z.flag d flags).isSome)).length now))) ∧
    (∀ v, rsvdOk .WEI_FAILCLR v = true → Gives (exec (.weiFailclrWrite v) s) fun u =>
      let may := st = 4 ∧ x.tested = true ∧ s.named k = false
      (v.getLsbD k = true → may → (u.rd WEI_POOL_STAT.FAILED).testBit k = false ∧ u.rd RC_STAT.STATE k = 0) ∧
      (v.getLsbD k = true → ¬may → u.rd WEI_STAT.CLR_REJECT = 1) ∧
      (v.getLsbD k = false ∨ ¬may → (u.rd WEI_POOL_STAT.FAILED).testBit k = (s.rd WEI_POOL_STAT.FAILED).testBit k))

/-- R283 to R285, R292, R293, R295, R298, R299, R304 to R307: disputes, judgments, samples, Twin blocks, the
checkpoint that a replacement loads with the delivery-ring entries that it cannot read, and grants and lapses of
leases. Where the spec leaves a point open it is the model's: log entries 61, 62, 63, 64. -/
def Obligations.LeasesAndFailover : Prop :=
  ∀ (s : State) (k : RaceNo) (eg ing again : Nat) (cuts : List (Channel × Nat)),
    let g := s.rd RC_STAT.GROUP k
    let y := (s.race k).dispute
    let lost := fun (u : State) (g k : Nat) => MarkedFailed u k ∧ (u.race k).gateOpen = true ∧
      u.rd WEI_LEASE.LEPOCH g = s.rd WEI_LEASE.LEPOCH g ∧
      match s.partner g k with
      | none => u.rd WEI_LEASE.STATE g = 2 ∧ u.rd WEI_LEASE.HOLDER_A g = 0x1F ∧ u.rd WEI_LEASE.HOLDER_B g = 0x1F
      | some j => u.rd WEI_LEASE.STATE g = s.rd WEI_LEASE.STATE g ∧ u.rd WEI_LEASE.HOLDER_A g = j ∧
        u.rd WEI_LEASE.HOLDER_B g = 0x1F ∧ u.rd WEI_GRP_CFG.RACE_A g = j ∧ u.rd WEI_GRP_CFG.RACE_B g = k
    (∀ d, y = some d → d.sent ≠ 0 → s.rd RC_STAT.STATE k = 3 → Gives (exec (.weirDispute k) s) fun u =>
      (u.race k).dispute = some { d with sent := d.sent - 1, received := true } ∧
      u.ctr Ctrs.DISPUTES = (s.ctr Ctrs.DISPUTES).add 1 ∧ (g < 18 → u.reg .WEI_LEASE g = s.reg .WEI_LEASE g) ∧
      (∀ e j, g < 18 → s.orderFor 1 g = some e → e.flags.testBit 1 = true → (s.holders g).length ≤ 1 →
        (∀ i, i < 24 → s.abroad g i = false) → s.chooseRace = some j →
        u.rd RC_STAT.STATE j = 1 ∧ (u.race j).wake = .replace g ∧ (u.wgrp g).phase = .waking)) ∧
    (y = none → exec (.weirDispute k) s = .next s) ∧
    (∀ data d, y = some d → d.received = true → g < 18 → s.judgeable g k = true →
      Gives (exec (.raceJudged k data again eg ing cuts) s) fun u => lost u g k ∧ OtherLeases s u g ∧
        u.ctr Ctrs.JUDGED = (s.ctr Ctrs.JUDGED).add 1 ∧ u.ctr Ctrs.REF_FLAGS = (s.ctr Ctrs.REF_FLAGS).add again) ∧
    (∀ data, y = none ∨ s.judgeable g k = false → exec (.raceJudged k data again eg ing cuts) s = .next s) ∧
    (∀ (d : Dir) good, (∀ e ∈ s.weir.samples, ¬(e.race = k.val ∧ e.dir = d.code)) →
      exec (.sampleCheck k d good again eg ing cuts) s = .next s) ∧
    (∀ (d : Dir) pre e post, s.weir.samples = pre ++ e :: post → e.race = k.val → e.dir = d.code →
      (∀ e' ∈ pre, ¬(e'.race = k.val ∧ e'.dir = d.code)) →
      (Gives (exec (.sampleCheck k d true again eg ing cuts) s) fun u => u.weir = { s.weir with samples := pre ++ post } ∧
        u.ctr Ctrs.SAMPLES_CHECKED = (s.ctr Ctrs.SAMPLES_CHECKED).add 1 ∧
        u.ctr Ctrs.REF_FLAGS = (s.ctr Ctrs.REF_FLAGS).add again ∧
        (g < 18 → (if d.code = 0 then (u.race k).match0 else (u.race k).match1) = some (s.reg .GAU_READ g)) ∧
        u = { s with counters := u.counters, races := u.races, weir := u.weir }) ∧
      (g < 18 → s.judgeable g k = true → Gives (exec (.sampleCheck k d false again eg ing cuts) s) fun u =>
        u.rd WEI_STAT.SAMPLE_FAIL = 1 ∧ lost u g k ∧ u.ctr Ctrs.JUDGED = (s.ctr Ctrs.JUDGED).add 1)) ∧
    (∀ (c : Channel) (d : Dir) r passed,
      let h := chanGroup c
      let a := s.rd WEI_LEASE.HOLDER_A h
      let b := s.rd WEI_LEASE.HOLDER_B h
      let o := exec (.twinBlockSettle c d r passed again cuts) s
      let both := s.rd WEI_LEASE.STATE h = 1 ∧ a < 24 ∧ b < 24 ∧ a ≠ b ∧ c.val ∉ (s.wgrp h).unjoined
      let none' := fun (u : State) => MarkedFailed u a ∧ MarkedFailed u b ∧ u.rd WEI_LEASE.STATE h = 2
      (s.rd WEI_LEASE.STATE h ≠ 1 ∨ ¬(a < 24 ∧ b < 24) ∨ c.val ∈ (s.wgrp h).unjoined → o = .next s) ∧
      (both → r = .equal ∨ r = .oneFlagged → o = .next s) ∧
      (∀ second, both → r = .differ (some second) → Gives o fun u =>
        lost u h (if second then a else b) ∧ u.ctr Ctrs.TWIN_VOTES h = (s.ctr Ctrs.TWIN_VOTES h).add 1) ∧
      (∀ second, both → r = .missing second true → Gives o fun u =>
        lost u h (if second then b else a) ∧ u.ctr Ctrs.TWIN_VOTES h = (s.ctr Ctrs.TWIN_VOTES h).add 1) ∧
      (both → r = .differ none ∨ (∃ p, r = .missing p false) → Gives o fun u => none' u ∧
        u.ctr Ctrs.TWIN_VOTES h = (s.ctr Ctrs.TWIN_VOTES h).add 1) ∧
      (both → (∃ p q, r = .bothFlagged p q) → Gives o fun u => none' u ∧ u.ctr Ctrs.TWIN_VOTES h = s.ctr Ctrs.TWIN_VOTES h) ∧
      (both → r = .unresolved → Gives o fun u => u.rd WEI_STAT.UNRESOLVED = 1 ∧ u.reg .WEI_LEASE h = s.reg .WEI_LEASE h ∧
        u.rd WEI_POOL_STAT.FAILED = s.rd WEI_POOL_STAT.FAILED ∧
        (d = .egress → ∀ f, (s.l1run c).cur = some f →
          (u.l1run c).cur = some { f with cut := some (f.cut.getD (min passed spanLen)) }) ∧
        (d = .ingress → (u.l1run c).pend = none)) ∧
      (∀ long, both → r = .tags long → Gives o fun u => u.rd WEI_STAT.TAG_DISAGREE = 1 ∧
        u.ctr Ctrs.TAG_DISAGREES h = (s.ctr Ctrs.TAG_DISAGREES h).add 1 ∧ u.reg .WEI_LEASE h = s.reg .WEI_LEASE h ∧
        u.rd WEI_POOL_STAT.FAILED = s.rd WEI_POOL_STAT.FAILED)) ∧
    (∀ (h : Group) bad0 bad1 bad,
      let o := exec (.failoverCkptLoaded h bad0 bad1 bad) s
      let ready := ∃ j, s.replacement h = some j ∧ (s.wgrp h).phase = .revoked ∧ s.rd RC_STAT.STATE j = 2
      let ring := (s.wgrp h).ring
      let kept := ((List.range ring.length).filter (fun i => decide (∀ e ∈ bad, e.1 ≠ i))).filterMap (fun i => ring[i]?)
      (¬ready → o = .next s) ∧
      (ready → Gives o fun u =>
        u.wgrp h = { s.wgrp h with phase := .loaded, ring := kept } ∧ u.reg .WEI_LEASE h = s.reg .WEI_LEASE h ∧
        ((s.wgrp h).copies = [] ∨ bad0 ≠ none → u.rd WEI_STAT.CKPT_ERR = 1) ∧
        (∀ c rest, (s.wgrp h).copies = c :: rest → c.good = false → u.rd WEI_STAT.CKPT_ERR = 1) ∧
        (∀ c rest, (s.wgrp h).copies = c :: rest → c.good = true → bad0 = none → c.pn = [] →
          (∀ e ∈ ring, e.sa < 2 ^ 20 ∧ e.pn < 2 ^ 64 - 1) →
          (∀ e ∈ kept, e.pn < u.rrd SA.NEXT_PN e.sa) ∧ (∀ i, u.rrd L1.TX_COUNT i = s.rrd L1.TX_COUNT i) ∧
          u.rd WEI_STAT.CKPT_ERR =
            if ∃ e ∈ c.l1, s.rrd L1.TX_COUNT e.chan ≠ e.count then 1 else s.rd WEI_STAT.CKPT_ERR) ∧
        (∀ c rest sa m, (s.wgrp h).copies = c :: rest → c.good = true → bad0 = none → c.pn = [(false, sa, m)] →
          ring = [] → sa < 2 ^ 20 → s.xpn (s.saSecy sa) = false → m < 2 ^ 32 →
          u.rrd SA.NEXT_PN sa = max (s.rrd SA.NEXT_PN sa) (m + 1)))) ∧
    (∀ (h : Group), s.rd GBL_MODE.MODE ∉ [5, 6, 7] → exec (.leaseGrant h) s = .next s) ∧
    (∀ (h : Group) j, s.rd GBL_MODE.MODE ∈ [5, 6, 7] →
      (s.replacement h = some j → (s.wgrp h).phase = .loaded → Gives (exec (.leaseGrant h) s) fun u =>
        GrantedTo s u h j 0x1F ∧ u.rd WEI_GRP_CFG.RACE_A h = j ∧ u.rd RC_STAT.STATE j = 3 ∧ (u.wgrp h).phase = .granted) ∧
      (s.replacement h = none → s.joiner h = some j → s.leaseHeld h = true → s.rd RC_STAT.STATE j = 2 →
        s.disputed h = false → s.rd WEI_LEASE.HOLDER_A h < 24 → Gives (exec (.leaseGrant h) s) fun u =>
          GrantedTo s u h (s.rd WEI_LEASE.HOLDER_A h) j ∧ u.rd WEI_GRP_CFG.RACE_B h = j ∧ u.rd RC_STAT.STATE j = 3 ∧
          (u.wgrp h).unjoined = s.l1Enabled h) ∧
      (∀ a rest, s.replacement h = none → s.joiner h = none → s.rd GAU_STAT.RUN h = 1 →
        offsetOf (s.reg .GAU_READ h) = 0 → s.rd WEI_GRP_CFG.EN h = 1 → s.rd WEI_GRP_CFG.CLOSING h = 0 →
        s.rd WEI_LEASE.STATE h = 0 → s.liveNamed h = a :: rest → (∀ i ∈ a :: rest, i < 24 ∧ s.rd RC_STAT.STATE i = 2) →
        Gives (exec (.leaseGrant h) s) fun u => GrantedTo s u h a (rest.head?.getD 0x1F) ∧
          (∀ i ∈ a :: rest, u.rd RC_STAT.STATE i = 3 ∧ u.rd RC_STAT.GROUP i = h) ∧ (u.wgrp h).term = s.tick.toNat)) ∧
    (∀ (h : Group) now, atOrAfter now s.tick = true →
      (s.leaseHeld h = true → (s.wgrp h).term + 6000 ≤ now.toNat → Gives (exec (.leaseLapse h eg ing cuts now) s) fun u =>
        u.rd WEI_LEASE.STATE h = 3 ∧ u.rd WEI_LEASE.LEPOCH h = s.rd WEI_LEASE.LEPOCH h ∧ OtherLeases s u h ∧
        u.rd WEI_LEASE.HOLDER_A h = s.rd WEI_LEASE.HOLDER_A h ∧ u.rd WEI_STAT.LAPSE = 1 ∧
        u.ctr Ctrs.LAPSES h = (s.ctr Ctrs.LAPSES h).add 1 ∧ (u.wgrp h).epochOnly = true) ∧
      (s.leaseHeld h = false ∨ now.toNat < (s.wgrp h).term + 6000 →
        exec (.leaseLapse h eg ing cuts now) s = .next { s with tick := now })) ∧
    (∀ c : Channel, ((∀ e ∈ (s.wgrp (chanGroup c)).join, e.1 ≠ c.val) → (s.l1run c).txAcc ≠ none →
      exec (.channelJoin c) s = .next s) ∧
     ((∃ e ∈ (s.wgrp (chanGroup c)).join, e.1 = c.val) ∨ (s.l1run c).txAcc = none →
      Gives (exec (.channelJoin c) s) fun u => (∀ i, i ∈ (u.wgrp (chanGroup c)).unjoined ↔
      i ∈ (s.wgrp (chanGroup c)).unjoined ∧ i ≠ c.val) ∧ u = { s with weir := { s.weir with groups := u.weir.groups } }))

/-- R303, R310, R312: Eddy set free, the card lease, and mirror records. -/
def Sys2Proof.Claims.CardAndMirror : Prop :=
  ∀ (s : State) (now : Word),
    (s.weir.eddy = none → exec .eddyShelterEmpty s = .next s) ∧
    (∀ g, s.weir.eddy = some g → s.eddyBusy = false → Gives (exec .eddyShelterEmpty s) fun u => u.weir.eddy = none ∧
      u.wgrp g = { s.wgrp g with drops := [] } ∧ (∀ h, h ≠ g → u.wgrp h = s.wgrp h) ∧ u.weir.shelter = s.weir.shelter ∧
      (s.log.held = none → (s.wgrp g).drops = [] → u.log = s.log)) ∧
    (s.eddyBusy = true → exec .eddyShelterEmpty s = .next s) ∧
    (∀ v, rsvdOk .WEI_CARDGRANT v = true → atOrAfter now s.tick = true →
      let e := WEI_CARDGRANT.CARD_EPOCH.of v
      ((∀ h, s.weir.cardEpoch = some h → h ≤ e) → Gives (exec (.cardGrant v now) s) fun u =>
        u.rd WEI_CARD.ACTIVE = 1 ∧ u.weir = { s.weir with cardEpoch := some e, cardTick := now.toNat } ∧
        u = { s with tick := now, regs := u.regs, weir := u.weir } ∧ RegsKept s u [Reg.off .WEI_CARD 0 0]) ∧
      (∀ h, s.weir.cardEpoch = some h → e < h → Gives (exec (.cardGrant v now) s) fun u =>
        u.rd WEI_TETHSTAT.CARD_REJECT = 1 ∧ OnlyRegs { s with tick := now } u [Reg.off .WEI_TETHSTAT 0 0])) ∧
    (∀ cuts parts, atOrAfter now s.tick = true →
      let due := s.rd WEI_CARD.ACTIVE = 1 ∧ s.weir.cardTick + max 1 (s.rd WEI_CARD.LEN) * 1500 ≤ now.toNat
      (due → Gives (exec (.cardLeaseExpire cuts parts now) s) fun u => u.rd WEI_CARD.ACTIVE = 0 ∧
        (∀ g, g < 18 → u.reg .WEI_LEASE g = s.reg .WEI_LEASE g) ∧ (s.rd WEI_CARD.CARD_EN = 1 → ∀ g, g < 18 →
          u.sluiceOpen g = false) ∧ (s.rd WEI_CARD.CARD_EN = 0 → u = { s with tick := now, regs := u.regs })) ∧
      (¬due → exec (.cardLeaseExpire cuts parts now) s = .next { s with tick := now })) ∧
    (∀ (o : Octets),
      let g := beNat (slice o 1 1)
      let e := beNat (slice o 4 4)
      let r : Word := BitVec.ofNat 64 (beNat (slice o 8 8))
      let newer := ∀ e' r', Tbl.get none s.weir.mirrorGauge g = some (e', r') → e' = e → r ≠ r' ∧ atOrAfter r r' = true
      (s.rd WEI_TETHCTL.MIRROR_RX = 0 → exec (.mirrorRecordRx o) s = .next s) ∧
      (s.rd WEI_TETHCTL.MIRROR_RX = 1 → mirrorGood o = false → Gives (exec (.mirrorRecordRx o) s) fun u =>
        u.rd WEI_TETHSTAT.CRC_ERR = 1 ∧ u.ctr Ctrs.MIRROR_BAD = (s.ctr Ctrs.MIRROR_BAD).add 1 ∧
        u = { s with regs := u.regs, counters := u.counters } ∧ RegsKept s u [Reg.off .WEI_TETHSTAT 0 0]) ∧
      (s.rd WEI_TETHCTL.MIRROR_RX = 1 → mirrorGood o = true → s.weir.mirrorEpoch ≤ e → newer →
        Gives (exec (.mirrorRecordRx o) s) fun u => u.weir.mirrorEpoch = e ∧
          Tbl.get none u.weir.mirrorGauge g = some (e, r) ∧ u.ctr Ctrs.MIRROR_RX = (s.ctr Ctrs.MIRROR_RX).add 1 ∧
          (∀ w, 8 * w < o.length → u.reg .WEI_MIRROR g w = BitVec.ofNat 64 (leNat (slice o (8 * w) 8))) ∧
          u = { s with regs := u.regs, weir := u.weir, counters := u.counters }) ∧
      (s.rd WEI_TETHCTL.MIRROR_RX = 1 → mirrorGood o = true → e < s.weir.mirrorEpoch ∨ ¬newer →
        Gives (exec (.mirrorRecordRx o) s) fun u => u.rd WEI_TETHSTAT.STALE = 1 ∧
          u.ctr Ctrs.MIRROR_BAD = (s.ctr Ctrs.MIRROR_BAD).add 1 ∧ u = { s with regs := u.regs, counters := u.counters }))

end

namespace Sys2Proof.Claims

open Sys2Proof Sys2Proof.Machine

/-- The command of a Basin operation: kind 0 queue, 1 node, 2 policer; OP 0 READ, 1 CONFIG, 2 DISABLE. -/
def basinCmd (kind op : Fin 3) (p : Path) (ue : Option Nat) : Instr :=
  match kind.val, op.val with
  | 0, 0 => .queueRead p ue
  | 0, 1 => .queueConfig p
  | 0, _ => .queueDisable p
  | 1, 0 => .nodeRead p ue
  | 1, 1 => .nodeConfig p
  | 1, _ => .nodeDisable p
  | _, 0 => .policerRead p ue
  | _, 1 => .policerConfig p
  | _, _ => .policerDisable p

/-- An object of a kind. -/
def ofKind (o : BsnObj) (kind : Nat) : Prop :=
  match o with
  | .queue _ => kind = 0
  | .node _ _ => kind = 1
  | .policer _ => kind = 2
  | .bad => False

/-- Keys of a record's words. -/
def recKeys (k : RecKind) (i : Nat) : List Nat := (List.range k.words).map (k.key i)

/-- The RW fields of a record hold what the image gives them, but for those listed. -/
def Stored (u : State) (k : RecKind) (i : Nat) (im : List Word) (but : List RField) : Prop :=
  ∀ f ∈ k.fields, f.acc = .rw → f ∉ but → u.rrd f i = f.of im

end Sys2Proof.Claims

section

open Sys2Proof Sys2Proof.Machine Sys2Proof.Claims

/-- R450, R451, R455, R456: what READ, CONFIG and DISABLE do to queues, nodes and policers. Where the spec leaves a
point open it is the model's: log entries 74, 75. -/
def Obligations.BasinObjects : Prop :=
  ∀ (s : State) (im : List Word),
    let status := fun (r : BsnRes × State) (st : Nat) => r.1.status = st ∧ r.2 = s
    (∀ o k i, o.place = some (k, i) → s.bsnAct 0 o im none = ({ status := 0, image := some (s.recWords k i) }, s)) ∧
    (∀ o k i w, o.place = some (k, i) → w < 6 → ∃ x u, s.bsnAct 0 o im (some w) =
      ({ status := 0, image := some (setAt (u.recWords k i) w x) }, u) ∧ u.rd BSN_STAT.STATE_ERR = 1 ∧
      u.rrd { QUE.EN with kind := k } i = 0) ∧
    (∀ op ue, status (s.bsnAct op .bad im ue) 1) ∧
    (∀ q, q < 2 ^ 20 →
      let r := s.bsnAct 1 (.queue q) im none
      let en := s.rrd QUE.EN q = 1
      let on := QUE.EN.of im = 1
      let form := RecKind.queue.imageOk im = true
      let free := s.rrd QUE.DRAIN q = 0
      let legal := QUE.WEIGHT.of im ≠ 0 ∧ (en → on ∧ QUE.FG.of im = s.rrd QUE.FG q)
      let rooted := on → ¬en → s.rrd NODE.EN (nodeIx 1 (QUE.FG.of im)) = 1
      let room := s.rd BSN_POOL.READY = 1 ∧ s.sharedFree ≠ 0
      (¬form → status r 1) ∧ (form → ¬free → status r 3) ∧ (form → free → ¬legal → status r 2) ∧
      (form → free → legal → ¬rooted → status r 5) ∧ (form → free → legal → rooted → on → ¬en → ¬room → status r 7) ∧
      (form → free → legal → (en ↔ on) → r.1.status = 0 ∧ Stored r.2 .queue q im [] ∧
        OnlyRecs s r.2 (recKeys .queue q)) ∧
      (∀ c u, form → free → legal → rooted → on → ¬en → room → s.allocCell 4200 = (some c, u) → c.1 < 2 ^ 28 → c.2 < 2 ^ 36 →
        r.1.status = 0 ∧ Stored r.2 .queue q im [] ∧ r.2.rrd QUE.CREDIT q = 0 ∧ r.2.tailCell q = c ∧
        r.2.rrd QUE.HEAD q = c.1 ∧ r.2.bq q = {} ∧
        r.2.rd BSN_FREE.SPARE = (u.rd BSN_FREE.SPARE + 1) % 2 ^ 28)) ∧
    (∀ l n, 1 ≤ l → l ≤ 3 → n < 65536 →
      let x := nodeIx l n
      let r := s.bsnAct 1 (.node l n) im none
      let en := s.rrd NODE.EN x = 1
      let on := NODE.EN.of im = 1
      let p := NODE.PARENT.of im
      let form := RecKind.node.imageOk im = true
      let legal := NODE.WEIGHT.of im ≠ 0 ∧ (en → on) ∧ (l < 3 → en → p = s.rrd NODE.PARENT x) ∧
        (l = 3 → on → ¬en → s.packetChan n = true)
      let rooted := l < 3 → on → ¬en → s.rrd NODE.EN (nodeIx (l + 1) p) = 1 ∧ (l = 2 → p < 2880)
      (¬form → status r 1) ∧ (form → ¬legal → status r 2) ∧ (form → legal → ¬rooted → status r 5) ∧
      (form → legal → rooted → r.1.status = 0 ∧ Stored r.2 .node x im [] ∧ OnlyRecs s r.2 (recKeys .node x) ∧
        ((on ∧ ¬en) ∨ (NODE.SHP_EN.of im = 1 ∧ s.rrd NODE.SHP_EN x = 0) → r.2.rrd NODE.CREDIT x = 0))) ∧
    (∀ p, p < 2 ^ 18 →
      let r := s.bsnAct 1 (.policer p) im none
      let form := RecKind.policer.imageOk im = true
      let legal := POL.CIR_INC.of im ≤ POL.PIR_INC.of im ∧ POL.CBS.of im ≤ POL.PBS.of im ∧ POL.GRP.of im < 18 ∧
        (s.rrd POL.EN p = 1 → POL.EN.of im = 1)
      (¬form → status r 1) ∧ (form → ¬legal → status r 2) ∧
      (form → legal → r.1.status = 0 ∧ Stored r.2 .policer p im [] ∧ OnlyRecs s r.2 (recKeys .policer p))) ∧
    (∀ q, q < 2 ^ 20 →
      let r := s.bsnAct 2 (.queue q) im none
      (s.rrd QUE.EN q = 0 → status r 6) ∧ (s.rrd QUE.EN q = 1 → s.rrd QUE.DRAIN q = 1 → status r 3) ∧
      (s.rrd QUE.EN q = 1 → s.rrd QUE.DRAIN q = 0 → r.1 = { status := 0, result := s.rrd QUE.FRAMES q } ∧
        r.2.rrd QUE.DRAIN q = 1 ∧ r.2.rrd QUE.EN q = 1 ∧ OnlyRecs s r.2 (recKeys .queue q))) ∧
    (∀ l n, 1 ≤ l → l ≤ 3 → n < 65536 →
      let x := nodeIx l n
      let r := s.bsnAct 2 (.node l n) im none
      (s.rrd NODE.EN x = 0 → status r 6) ∧ (s.rrd NODE.EN x = 1 → s.childrenOf l n ≠ [] → status r 4) ∧
      (s.rrd NODE.EN x = 1 → s.childrenOf l n = [] → r.1.status = 0 ∧ r.2.rrd NODE.EN x = 0 ∧ r.2.rrd NODE.CREDIT x = 0 ∧
        OnlyRecs s r.2 (recKeys .node x))) ∧
    (∀ p, p < 2 ^ 18 →
      let r := s.bsnAct 2 (.policer p) im none
      (s.rrd POL.EN p = 0 → status r 6) ∧
      (s.rrd POL.EN p = 1 → r.1.status = 0 ∧ r.2.rrd POL.EN p = 0 ∧ OnlyRecs s r.2 (recKeys .policer p)))

/-- R24, R432, R441, R450, R453 to R455, R461, R463, R464: Basin's commands by both paths (a write while BUSY is 1 is
dropped, and an operation waits for those of threads on its object), its pool, with the placements that are host
errors, and reservations, a frame whose cells are written, and the end of a queue's drain. Where the spec leaves a
point open it is the model's: log entries 74, 75, 76, 77. -/
def Obligations.BasinCommands : Prop :=
  ∀ (s : State),
    (∀ (kind op : Fin 3) ue,
      let unit := if kind.val = 0 then 0 else 1
      let o := bsnObject unit (s.reg .BSN_OBJ).toNat
      let b := ((s.wr BSN_CMD.UNIT unit).wr BSN_CMD.OP op).mark BSN_CMD.BUSY
      let r := b.bsnAct op o s.bsnImage (if op.val = 0 then ue else none)
      let idle := s.rd BSN_CMD.BUSY = 0
      (ofKind o kind → ¬idle → Gives (exec (basinCmd kind op .register ue) s) fun u => u.rd BSN_STAT.CMD_DROP = 1 ∧
        OnlyRegs s u [Reg.off .BSN_STAT 0 0]) ∧
      (ofKind o kind → idle → r.2.opsOn o.objects ≠ [] → exec (basinCmd kind op .register ue) s = .next { r.2 with
        basin := { r.2.basin with held := some { objects := o.objects, waits := r.2.opsOn o.objects
                                                 status := r.1.status, image := r.1.image } } }) ∧
      (ofKind o kind → idle → r.2.opsOn o.objects = [] → r.1.status < 16 → Gives (exec (basinCmd kind op .register ue) s) fun u =>
        u.rd BSN_CMD.STATUS = r.1.status ∧ u.rd BSN_CMD.UNIT = unit ∧ u.rd BSN_CMD.OP = op ∧ u.rd BSN_CMD.BUSY = 0 ∧
        (∀ ws, r.1.image = some ws → ∀ w, w < 6 → u.reg .BSN_DATA w = ws.getD w 0) ∧
        (r.1.image = none → ∀ w, w < 6 → u.reg .BSN_DATA w = s.reg .BSN_DATA w) ∧ u = { r.2 with regs := u.regs }) ∧
      (¬ofKind o kind → exec (basinCmd kind op .register ue) s = .next s) ∧
      (∀ (t : ThreadNo) (tag : BitVec 8) (rs : GReg) d c, Calls s (0x52 + unit) t tag.toNat rs d c → descOp d = op →
        ofKind (bsnObject unit (descObject d)) kind →
        Launches s (0x52 + unit) t tag.toNat d c (bsnEngine unit (if op.val = 0 then ue else none))
          (exec (basinCmd kind op (.thread t tag rs) ue) s))) ∧
    (∀ (shp : Bool) (op : Fin 4),
      let unit := if shp then 1 else 0
      let obj := bsnObject unit (s.reg .BSN_OBJ).toNat
      let wrong := op.val = 3 ∨ obj = .bad
      let idle := s.rd BSN_CMD.BUSY = 0
      (wrong → ¬idle → Gives (exec (.bsnCmdInvalid .register shp op) s) fun u => u.rd BSN_STAT.CMD_DROP = 1 ∧
        OnlyRegs s u [Reg.off .BSN_STAT 0 0]) ∧
      (wrong → idle → s.opsOn obj.objects ≠ [] → Gives (exec (.bsnCmdInvalid .register shp op) s) fun u =>
        u.rd BSN_CMD.BUSY = 1 ∧ u.rd BSN_CMD.STATUS = s.rd BSN_CMD.STATUS ∧ RegsKept s u [Reg.off .BSN_CMD 0 0] ∧
        u = { s with regs := u.regs, basin := { s.basin with held := some { objects := obj.objects
                                                                            waits := s.opsOn obj.objects, status := 1 } } }) ∧
      (wrong → idle → s.opsOn obj.objects = [] → Gives (exec (.bsnCmdInvalid .register shp op) s) fun u => u.rd BSN_CMD.STATUS = 1 ∧
        u.rd BSN_CMD.UNIT = unit ∧ u.rd BSN_CMD.OP = op ∧ u.rd BSN_CMD.BUSY = 0 ∧ OnlyRegs s u [Reg.off .BSN_CMD 0 0]) ∧
      (¬wrong → exec (.bsnCmdInvalid .register shp op) s = .next s) ∧
      (∀ (t : ThreadNo) (tag : BitVec 8) (rs : GReg) d c, Calls s (0x52 + unit) t tag.toNat rs d c →
        2 < descOp d ∨ bsnObject unit (descObject d) = .bad →
        Launches s (0x52 + unit) t tag.toNat d c (bsnEngine unit none)
          (exec (.bsnCmdInvalid (.thread t tag rs) shp op) s))) ∧
    (∀ (unit : Nat) ue (o : EngineOp),
      let r := s.bsnAct (descOp o.desc) (bsnObject unit (descObject o.desc)) (descImage o.desc) ue
      (bsnForm o.desc = false → bsnEngine unit ue o s = (o.fail 1, s)) ∧
      (bsnForm o.desc = true → bsnEngine unit ue o s = ({ o with
        acted := true, status := r.1.status, result := r.1.result
        out := match r.1.image with | some ws => (ws.map fun w => leBytes 8 w.toNat).flatten | none => []
        objects := (bsnObject unit (descObject o.desc)).objects }, r.2))) ∧
    (∀ v, rsvdOk .BSN_POOL v = true →
      let base := BSN_POOL.BASE.of v
      let n := BSN_POOL.COUNT.of v
      let ok := s.anyQueue = false ∧ base + n ≤ 2 ^ 28 ∧ (BSN_POOL.EN.of v = 1 → s.resSum ≤ n ∧
        s.rd BSN_FIFO.BASE_MB * 2 ^ 20 + 8 * n ≤ 2 ^ 36)
      let range := (s.plainWrite .BSN_POOL v).poolHeld
      let misplaced := BSN_POOL.EN.of v = 1 ∧ n ≠ 0 ∧ (s.inRangeOf 2 (base * 256) (256 * n) = false ∨
        s.inRangeOf 3 (s.rd BSN_FIFO.BASE_MB * 2 ^ 20) (8 * n) = false ∨ ∃ e ∈ range, e ∈ s.basin.poolRanges)
      (ok → misplaced → exec (.bsnPoolWrite v) s = .fault .hostError) ∧
      (ok → ¬misplaced → Gives (exec (.bsnPoolWrite v) s) fun u => u.rd BSN_POOL.EN = BSN_POOL.EN.of v ∧ u.rd BSN_POOL.BASE = base ∧
        u.rd BSN_POOL.COUNT = n ∧ u.rd BSN_POOL.READY = 0 ∧ u.freeCells = 0 ∧
        u.basin.poolRanges = (if BSN_POOL.EN.of v = 1 then range else s.basin.poolRanges) ∧
        u = { s with regs := u.regs, basin := u.basin } ∧ RegsKept s u [Reg.off .BSN_POOL 0 0]) ∧
      (¬ok → Gives (exec (.bsnPoolWrite v) s) fun u => u.rd BSN_STAT.REJECT = 1 ∧ OnlyRegs s u [Reg.off .BSN_STAT 0 0])) ∧
    (s.rd BSN_POOL.EN = 1 → s.rd BSN_POOL.READY = 0 → Gives (exec .poolReady s) fun u => u.rd BSN_POOL.READY = 1 ∧
      u.freeCells = s.rd BSN_POOL.COUNT - (s.basin.gone.filter fun c =>
        decide (s.rd BSN_POOL.BASE ≤ c) && decide (c < s.rd BSN_POOL.BASE + s.rd BSN_POOL.COUNT)).length ∧
      u.rd BSN_LOST.LOST = s.rd BSN_LOST.LOST ∧
      (0 < s.rd BSN_POOL.COUNT → s.rd BSN_POOL.BASE ∉ s.basin.gone → u.popFree.1 = some (s.rd BSN_POOL.BASE, 0)) ∧
      u = { s with regs := u.regs, basin := u.basin } ∧ RegsKept s u [Reg.off .BSN_POOL 0 0]) ∧
    (s.rd BSN_POOL.EN = 0 ∨ s.rd BSN_POOL.READY = 1 → exec .poolReady s = .next s) ∧
    (∀ (g : Group) v, rsvdOk .BSN_RES v = true →
      let t := s.plainWrite .BSN_RES v g
      (t.resSum + t.sused ≤ s.rd BSN_POOL.COUNT → Gives (exec (.bsnResWrite g v) s) fun u =>
        u.rd BSN_RES.RES g = BSN_RES.RES.of v ∧ u.rd BSN_RES.USED g = s.rd BSN_RES.USED g ∧
        OnlyRegs s u [Reg.off .BSN_RES g 0]) ∧
      (s.rd BSN_POOL.COUNT < t.resSum + t.sused → Gives (exec (.bsnResWrite g v) s) fun u =>
        u.rd BSN_STAT.REJECT = 1 ∧ OnlyRegs s u [Reg.off .BSN_STAT 0 0])) ∧
    (∀ (q : BitVec 20) f rest,
      (s.bq q.toNat).decided = f :: rest →
      let b := s.setBq q.toNat { s.bq q.toNat with decided := rest }
      let cells := List.range f.cells.length
      (∀ t, b.writeCells q.toNat f cells = (none, t) → f.next.1 < 2 ^ 28 → f.next.2 < 2 ^ 36 →
        Gives (exec (.frameEnqueue q) s) fun u =>
          (u.bq q.toNat).frames = (s.bq q.toNat).frames ++ [{ f with data := [] }] ∧ (u.bq q.toNat).decided = rest ∧
          u.tailCell q.toNat = f.next ∧ u.rrd QUE.FRAMES q.toNat = (s.rrd QUE.FRAMES q.toNat + 1) % 2 ^ 28 ∧
          u.ctr Ctrs.ACC_FRAMES q.toNat = (t.ctr Ctrs.ACC_FRAMES q.toNat).add 1 ∧
          u.ctr Ctrs.ACC_OCTETS q.toNat = (t.ctr Ctrs.ACC_OCTETS q.toNat).add f.charged) ∧
      (∀ k t, b.writeCells q.toNat f cells = (some k, t) → Gives (exec (.frameEnqueue q) s) fun u =>
        u.ctr Ctrs.REF_MEMERR q.toNat = (t.ctr Ctrs.REF_MEMERR q.toNat).add 1 ∧
        u.rrd QUE.FRAMES q.toNat = s.rrd QUE.FRAMES q.toNat ∧ (u.bq q.toNat).decided = rest ∧
        (f.cells.getD k (0, 0)).1 ∈ u.basin.gone)) ∧
    (∀ q : BitVec 20, (s.bq q.toNat).decided = [] → exec (.frameEnqueue q) s = .next s) ∧
    (∀ q : BitVec 20,
      let i := q.toNat
      let ringed := ∃ e ∈ s.weir.groups, ∃ r ∈ e.2.ring, r.queue = i
      let ends := s.rrd QUE.DRAIN i = 1 ∧ s.rrd QUE.FRAMES i = 0 ∧ (s.bq i).decided = [] ∧ ¬ringed
      (ends → (s.tailCell i).2 < 2 ^ 36 - 1 → (s.bq i).frames = [] → Gives (exec (.queueDrainEnd q) s) fun u =>
        u.rrd QUE.EN i = 0 ∧ u.rrd QUE.DRAIN i = 0 ∧ u.basin.freed = s.basin.freed ++ [s.tailCell i] ∧
        u.rd BSN_FREE.SPARE = s.rd BSN_FREE.SPARE - 1 ∧ u = { s with regs := u.regs, recs := u.recs, basin := u.basin } ∧
        RecsKept s u (recKeys .queue i)) ∧
      (¬ends → exec (.queueDrainEnd q) s = .next s))

end

namespace Sys2Proof.Claims

open Sys2Proof Sys2Proof.Machine

/-- The command of a Delta operation. -/
def deltaCmd (op : Fin 8) (p : Path) : Instr :=
  match op.val with
  | 0 => .deltaLookup p
  | 1 => .deltaAdd p
  | 2 => .deltaUpdate p
  | 3 => .deltaDelete p
  | 4 => .deltaRead p []
  | 5 => .deltaClear p
  | 6 => .deltaFlush p
  | _ => .deltaCmdInvalid p

/-- Every way of a key's two buckets is sound, so that a lookup detects nothing (R404, R419). -/
def SoundWays (s : State) (w : Nat) : Prop := ∀ p ∈ s.dways w, (s.dget p).sound = true

/-- One entry has been written; nothing else but the count of entries has changed. -/
def PutEntry (s u : State) (p : Nat) (e : Entry) : Prop :=
  (∀ q, q < 2 ^ 32 → u.dget q = if q = p then e else s.dget q) ∧ OnlyRegs { s with delta := u.delta } u [Reg.off .DLT_USED 0 0] ∧
  u.delta = { s.delta with main := u.delta.main, overflow := u.delta.overflow }

/-- Both tables have one entry for a position. -/
def TablesRise (s : State) : Prop :=
  Tbl.rising 0 s.delta.main ∧ Tbl.rising 0 s.delta.overflow ∧ (∀ e ∈ s.delta.main, e.1 < 2 ^ 31) ∧
  (∀ e ∈ s.delta.overflow, e.1 < 2 ^ 31)

end Sys2Proof.Claims

section

open Sys2Proof Sys2Proof.Machine Sys2Proof.Claims

/-- R404, R414, R415, R418, R419: what LOOKUP, ADD, UPDATE, DELETE, READ and CLEAR do, in buckets without parity
errors. Where the spec leaves a point open it is the model's: log entries 80, 82. -/
def Obligations.DeltaOperations : Prop :=
  ∀ (s : State) (e : Entry) (pos : Nat),
    let w := e.search
    let act := fun (op : Nat) => s.deltaAct op e pos
    (∀ op, 7 ≤ op → act op = ({ status := 1 }, s)) ∧
    (∀ op, op < 4 → e.imageOk = false → act op = ({ status := 1 }, s)) ∧
    (posOk pos = false → act 4 = ({ status := 1 }, s) ∧ act 5 = ({ status := 1 }, s)) ∧
    (posOk pos = true → (s.dget pos).sound = true →
      act 4 = ({ status := 0, pos := some pos, image := some (s.dget pos) }, s)) ∧
    (posOk pos = true → (s.dget pos).sound = false → (act 4).1 = { status := 5, pos := some pos, image := some (s.dget pos) } ∧
      (act 4).2.rd DLT_STAT.PAR_ERR = 1 ∧ (act 4).2.ctr Ctrs.PAR_ERR = (s.ctr Ctrs.PAR_ERR).add 1 ∧
      (act 4).2.delta = s.delta) ∧
    (posOk pos = true → (act 5).1 = { status := 0, pos := some pos } ∧ PutEntry s (act 5).2 pos 0) ∧
    (e.imageOk = true → SoundWays s w →
      (s.dfind w = none → ∀ op ∈ [0, 2, 3], act op = ({ status := 2 }, s)) ∧
      (∀ p, s.dfind w = some p → act 0 = ({ status := 0, pos := some p, image := some (s.dget p) }, s) ∧
        act 1 = ({ status := 3, pos := some p }, s) ∧
        ((act 2).1 = { status := 0, pos := some p } ∧ PutEntry s (act 2).2 p (e.written (s.dget p).hit false)) ∧
        ((act 3).1 = { status := 0, pos := some p } ∧ PutEntry s (act 3).2 p 0)) ∧
      (∀ p, s.dfind w = none → s.freeMain w = some p ∨ (s.freeMain w = none ∧ s.freeOver w = some p) →
        (act 1).1 = { status := 0, pos := some p } ∧ PutEntry s (act 1).2 p (e.written true false)) ∧
      (s.dfind w = none → s.freeMain w = none → s.freeOver w = none →
        (∀ p ∈ s.dways w, 2 ^ 31 ≤ p → s.freeMain (s.dget p).search = none) →
        (act 1).1 = { status := 4 } ∧ (act 1).2.rd DLT_STAT.FULL = 1 ∧ (act 1).2.delta = s.delta ∧
        (act 1).2.ctr Ctrs.FULL = (s.ctr Ctrs.FULL).add 1)) ∧
    (∀ hit learned, (e.written hit learned).sound = true ∧ (e.written hit learned).valid = true ∧
      (e.written hit learned).hit = hit ∧ (e.written hit learned).learned = learned ∧
      (e.written hit learned).static = e.static ∧ (e.written hit learned).search = e.search ∧
      (e.written hit learned).action = e.action)

/-- R24, R392, R403, R409, R410, R412 to R414, R417: Delta's commands by both paths (one by register waits for those
of threads on its objects), FLUSH, which may keep what was learned while it ran, the seed, learning and Eddy-scan.
That a pass waits while EN is 0 is the model's choice (assumption log). Where the spec leaves a point open it is the
model's: log entries 80, 82. -/
def Obligations.DeltaCommands : Prop :=
  ∀ (s : State),
    (∀ op : Fin 8, s.rd DLT_CMD.BUSY = 1 → Gives (exec (deltaCmd op .register) s) fun u =>
      u.rd DLT_STAT.CMD_DROP = 1 ∧ OnlyRegs s u [Reg.off .DLT_STAT 0 0]) ∧
    (∀ op : Fin 8, op.val ≠ 6 → s.rd DLT_CMD.BUSY = 0 →
      let r := State.deltaAct ((s.wr DLT_CMD.OP op).mark DLT_CMD.BUSY) op s.dltImage (s.reg .DLT_POS).toNat
      let objs := deltaObjects op s.dltImage r.1
      (r.2.opsOn objs ≠ [] → exec (deltaCmd op .register) s = .next { r.2 with delta := { r.2.delta with
        held := some { objects := objs, waits := r.2.opsOn objs, status := r.1.status, pos := r.1.pos
                       image := r.1.image.map fun (x : Entry) => [x.setWidth 64, (x >>> 64).setWidth 64] } } }) ∧
      (r.2.opsOn objs = [] → Gives (exec (deltaCmd op .register) s) fun u =>
        u.rd DLT_CMD.STATUS = r.1.status ∧ u.rd DLT_CMD.OP = op ∧ u.rd DLT_CMD.BUSY = 0 ∧
        u.reg .DLT_POS = (match r.1.pos with | some p => BitVec.ofNat 64 p | none => s.reg .DLT_POS) ∧
        u.dltImage = r.1.image.getD s.dltImage ∧ u = { r.2 with regs := u.regs })) ∧
    (s.rd DLT_CMD.BUSY = 0 →
      let e := s.dltImage
      let o := exec (.deltaFlush .register) s
      (e.imageOk = false → Gives o fun u => u.rd DLT_CMD.STATUS = 1 ∧ u.rd DLT_CMD.BUSY = 0 ∧
        OnlyRegs s u [Reg.off .DLT_CMD 0 0]) ∧
      (e.imageOk = true → s.rd DLT_STAT.FLUSH = 1 → Gives o fun u => u.rd DLT_CMD.STATUS = 6 ∧ u.rd DLT_CMD.BUSY = 0 ∧
        OnlyRegs s u [Reg.off .DLT_CMD 0 0]) ∧
      (e.imageOk = true → s.rd DLT_STAT.FLUSH = 0 → Gives o fun u => u.rd DLT_CMD.BUSY = 1 ∧ u.rd DLT_STAT.FLUSH = 1 ∧
        u = { s with regs := u.regs, delta := { s.delta with flush := some (e.fld 119 108, true), fresh := [] } } ∧
        RegsKept s u [Reg.off .DLT_CMD 0 0, Reg.off .DLT_STAT 0 0])) ∧
    (∀ (op : Fin 8) (t : ThreadNo) (tag : BitVec 8) (rs : GReg) d c, Calls s 0x51 t tag.toNat rs d c →
      descOp d = op ∨ (op.val = 7 ∧ 7 ≤ descOp d) →
      Launches s 0x51 t tag.toNat d c tblAct (exec (deltaCmd op (.thread t tag rs)) s)) ∧
    (∀ o : EngineOp,
      let op := descOp o.desc
      let r := s.deltaAct op (BitVec.ofNat 128 (descField o.desc 16 16)) (descObject o.desc)
      (tblForm o.desc = false → tblAct o s = (o.fail 1, s)) ∧
      (tblForm o.desc = true → op ≠ 6 → op = 4 ∨ op = 5 ∨ descObject o.desc = 0 → tblAct o s = ({ o with
        acted := true, status := r.1.status, result := (r.1.pos.map tblResult).getD 0
        out := match r.1.image with | some x => leBytes 16 x.toNat | none => []
        objects := deltaObjects op (BitVec.ofNat 128 (descField o.desc 16 16)) r.1 }, r.2))) ∧
    (∀ dom reg, s.delta.flush = some (dom, reg) → TablesRise s → Gives (exec .flushEnd s) fun u =>
      let goes := fun (e : Entry) => e.valid && e.sound && decide (e.type = 0) && decide (e.fld 119 108 = dom) && e.learned &&
        !e.static
      (∃ kept : List Nat, (∀ w ∈ kept, w ∈ s.delta.fresh) ∧
        ∀ p, u.dget p = if goes (s.dget p) && !kept.contains (s.dget p).search then 0 else s.dget p) ∧
      u.draws = s.draws + s.delta.fresh.length ∧ u.delta.fresh = [] ∧ u.rd DLT_STAT.FLUSH = 0 ∧ u.delta.flush = none ∧
      (reg = true → u.rd DLT_CMD.BUSY = 0 ∧ u.rd DLT_CMD.STATUS = 0 ∧ u.tide = s.tide) ∧
      (reg = false → ∀ o ∈ u.tide.ops, o.engine = 2 → descOp o.desc = 6 → o.acted = true)) ∧
    (s.delta.flush = none → exec .flushEnd s = .next s) ∧
    (∀ v, (s.delta.main = [] ∧ s.delta.overflow = [] → Gives (exec (.dltHseedWrite v) s) fun u => u.hseed = v ∧
        u = { s with delta := { s.delta with seed := some v } }) ∧
      (¬(s.delta.main = [] ∧ s.delta.overflow = []) → Gives (exec (.dltHseedWrite v) s) fun u => u.rd DLT_STAT.REJECT = 1 ∧
        OnlyRegs s u [Reg.off .DLT_STAT 0 0])) ∧
    (s.delta.learn = [] → exec (.learnRequest []) s = .next s) ∧
    (∀ q rest, s.delta.learn = q :: rest →
      let b : State := { s with delta := { s.delta with learn := rest } }
      let w := daSearch q.domain q.mac
      let o := exec (.learnRequest []) s
      SoundWays s (anchorSearch q.sc) → SoundWays s w →
      (s.dfind (anchorSearch q.sc) = none → Gives o fun u => u.ctr Ctrs.LEARN_NOANCHOR = (s.ctr Ctrs.LEARN_NOANCHOR).add 1 ∧
        u = { b with counters := u.counters }) ∧
      (∀ a, s.dfind (anchorSearch q.sc) = some a →
        let new := learnedEntry q (s.dget a)
        (∀ p, s.dfind w = none → s.freeMain w = some p ∨ (s.freeMain w = none ∧ s.freeOver w = some p) → Gives o fun u =>
          (∀ k, k < 2 ^ 32 → u.dget k = if k = p then new else s.dget k) ∧ u.ctr Ctrs.LEARNED = (s.ctr Ctrs.LEARNED).add 1 ∧
          u.delta.learn = rest ∧ (s.delta.flush ≠ none → w ∈ u.delta.fresh)) ∧
        (∀ p, s.dfind w = some p → (s.dget p).static = true → Gives o fun u => u.delta = b.delta ∧
          u.ctr Ctrs.MOVE_STATIC = (if (s.dget p).action = (s.dget a).action then s.ctr Ctrs.MOVE_STATIC
            else (s.ctr Ctrs.MOVE_STATIC).add 1)) ∧
        (∀ p, s.dfind w = some p → (s.dget p).static = false → Gives o fun u =>
          (∀ k, k < 2 ^ 32 → u.dget k = if k ≠ p then s.dget k
            else if (s.dget p).action = (s.dget a).action then (s.dget p).withHit true else new) ∧
          u.ctr Ctrs.MOVES = (if (s.dget p).action = (s.dget a).action then s.ctr Ctrs.MOVES else (s.ctr Ctrs.MOVES).add 1) ∧
          u.delta.learn = rest))) ∧
    (let due := s.rd DLT_AGE.EN = 1 ∧ s.rd DLT_STAT.SCAN = 0 ∧ s.rd GAU_STAT.RUN (s.rd GAU_RECORD.GROUP) = 1 ∧
       max 2 (s.rd DLT_AGE.PERIOD) ≤ s.delta.sinceMf
     (due → Gives (exec .eddyScanPassStart s) fun u => u.rd DLT_STAT.SCAN = 1 ∧
       u = { s with regs := u.regs, delta := { s.delta with scan := 0, sinceMf := 0 } }) ∧
     (¬due → exec .eddyScanPassStart s = .next s)) ∧
    (s.rd DLT_STAT.SCAN = 0 ∨ s.rd DLT_AGE.EN = 0 → exec (.eddyScanBucket []) s = .next s) ∧
    (s.rd DLT_STAT.SCAN = 1 → s.rd DLT_AGE.EN = 1 → s.delta.scan < 540672 →
      let b := s.delta.scan
      let base := if b < 524288 then b * 4 else 2 ^ 31 + (b - 524288) * 4
      (∀ k, k < 4 → (s.dget (base + k)).sound = true) → Gives (exec (.eddyScanBucket []) s) fun u =>
        (∀ p, p < 2 ^ 32 → u.dget p = if base ≤ p ∧ p < base + 4 ∧ (s.dget p).valid = true ∧ (s.dget p).type = 0 ∧
            (s.dget p).static = false then (if (s.dget p).hit then (s.dget p).withHit false else 0) else s.dget p) ∧
        u.delta.scan = b + 1 ∧ u.rd DLT_STAT.SCAN = (if b = 540671 then 0 else 1) ∧ u.delta.learn = s.delta.learn)

end

namespace Sys2Proof.Claims

open Sys2Proof Sys2Proof.Machine

/-- SCY_CMD shows the operation, its index and its status (R222). -/
def ScyAnswers (u : State) (op : Nat) (i : BitVec 18) (st : Nat) : Prop :=
  u.rd SCY_CMD.OP = op ∧ u.rd SCY_CMD.INDEX = i.toNat ∧ u.rd SCY_CMD.STATUS = st ∧ u.rd SCY_CMD.BUSY = 0

/-- A write to SCY_CMD while BUSY is 1: dropped (R222). -/
def ScyDrops (s : State) (o : Outcome) : Prop :=
  Gives o fun u => u.rd SCY_STAT.CMD_DROP = 1 ∧ OnlyRegs s u [Reg.off .SCY_STAT 0 0]

/-- An SCY_CMD operation that ends with a status and changes nothing else. -/
def ScyRefuses (s : State) (o : Outcome) (op : Nat) (i : BitVec 18) (st : Nat) : Prop :=
  Gives o fun u => ScyAnswers u op i st ∧ OnlyRegs s u [Reg.off .SCY_CMD 0 0]

/-- A record has been written from the image, and nothing but it and SCY_CMD has changed. -/
def ScyStores (s : State) (o : Outcome) (op : Nat) (i : BitVec 18) (k : RecKind) : Prop :=
  Gives o fun u => ScyAnswers u op i 0 ∧ Stored u k i.toNat s.scyImage [] ∧ RecsKept s u (recKeys k i.toNat) ∧
    RegsKept s u [Reg.off .SCY_CMD 0 0]

/-- The commands that read and write a kind of record, with their OP of R222. -/
def scyRead (k : RecKind) (i : BitVec 18) (ue : Option Nat) : Nat × Instr :=
  match k with
  | .secy => (0, .secyRd i ue)
  | .sc => (2, .scRd i ue)
  | .sa => (4, .saRd i ue)
  | _ => (6, .chRd i ue)

def scyWrite (k : RecKind) (i : BitVec 18) : Nat × Instr :=
  match k with
  | .secy => (1, .secyWr i)
  | .sc => (3, .scWr i)
  | .sa => (5, .saWr i)
  | _ => (7, .chWr i)

end Sys2Proof.Claims

section

open Sys2Proof Sys2Proof.Machine Sys2Proof.Claims

/-- R128, R190, R202, R203, R217, R219, R220, R222, R224 to R227, R229: records read and written through SCY_CMD, with the
host errors of packet channels in a Twin group and of two SAs with one SSCI. That a NEXT_PN equal to the one it has is no
write of a lower or equal number, and that SA_WR past the last PN exhausts the SA, are the model's choices (assumption
log). -/
def Sys2Proof.Claims.SecyRecords : Prop :=
  ∀ (s : State) (k : RecKind) (i : BitVec 18), k ∈ [RecKind.secy, .sc, .sa, .ch] →
    let n := i.toNat
    let im := s.scyImage
    let inRange := n < (match k with | .secy => 4096 | .sc => 65536 | .sa => 262144 | _ => 2880)
    (s.rd SCY_CMD.BUSY = 1 → (∀ ue, ScyDrops s (exec (scyRead k i ue).2 s)) ∧ ScyDrops s (exec (scyWrite k i).2 s)) ∧
    (s.rd SCY_CMD.BUSY = 0 →
    (∀ ue, let (op, c) := scyRead k i ue
      (¬inRange → ScyRefuses s (exec c s) op i 1) ∧
      (inRange → ue = none ∨ (∃ w, ue = some w ∧ k.words ≤ w) → Gives (exec c s) fun u => ScyAnswers u op i 0 ∧
        (∀ w, w < k.words → u.reg .SCY_DATA w = if k = .sa ∧ w = 0 then
          BitVec.ofNat 64 (setBits (s.rword k n 0).toNat 62 62 (if s.usable 0 n then 1 else 0)) else s.rword k n w) ∧
        OnlyRegs s u (Reg.off .SCY_CMD 0 0 :: (List.range k.words).map fun w => Reg.off .SCY_DATA w 0)) ∧
      (∀ w, inRange → ue = some w → w < k.words → Gives (exec c s) fun u => ScyAnswers u op i 0 ∧
        (k = .sa → w = 1 → u.rrd SA.PN_LOST n = 1 ∧ u.rrd SA.EN n = s.rrd SA.EN n) ∧
        (k = .sa → w ≠ 1 → s.rrd SC.DIR (n / 4) = 0 → u.rrd SA.EN n = 0) ∧
        (k = .sa → w ≠ 1 → s.rrd SC.DIR (n / 4) = 1 → s.rrd SA.EN n = 1 → n ∈ u.secy.draining) ∧
        (k = .secy → u.rrd SECY.EN n = 0 ∧
          ∀ c, c < 65536 → s.rrd SC.EN c = 1 → s.rrd SC.SECY c = n → u.rrd SC.DRAIN c = 1) ∧ (k = .ch → u.rrd CH.EN n = 0) ∧
        (k = .sc → s.rrd SC.EN n = 1 → u.rrd SC.DRAIN n = 1) ∧
        (∀ j, j < k.words → j ≠ w → k ≠ .sa → u.reg .SCY_DATA j = u.rword k n j))) ∧
    (let (op, c) := scyWrite k i
     (¬inRange → ScyRefuses s (exec c s) op i 1) ∧
     (inRange → k.imageOk im = false → exec c s = .fault .hostError) ∧
     (inRange → k.imageOk im = true →
      let same := fun (f : RField) => f.of im = s.rrd f n
      (k = .secy →
        let en := s.rrd SECY.EN n = 1
        let legal := SECY.SUITE.of im < 4 ∧ SECY.OFFSET.of im ≠ 3 ∧ 64 ≤ SECY.MAX_FRAME.of im ∧
          SECY.MAX_FRAME.of im ≤ 10240 ∧ (2 ≤ SECY.SUITE.of im → SECY.WINDOW.of im < 2 ^ 30) ∧
          (en → ∀ f ∈ [SECY.SUITE, SECY.OFFSET, SECY.TX_SCI, SECY.ES, SECY.SCB, SECY.MAX_FRAME, SECY.SCI], same f) ∧
          (en → SECY.EN.of im = 0 → s.secyUsed n = false)
        (legal → ScyStores s (exec c s) op i .secy) ∧ (¬legal → ScyRefuses s (exec c s) op i 2)) ∧
      (k = .sc →
        let en := s.rrd SC.EN n = 1
        let sets := SC.EN.of im = 1 ∧ ¬en
        let legal := (sets → s.rrd SECY.EN (SC.SECY.of im) = 1 ∧ s.packetChan (SC.CHAN.of im) = true ∧
          (SC.DIR.of im = 0 → s.saReady (n * 4 + SC.ENC_AN.of im) = true)) ∧ (en → SC.EN.of im = 1) ∧
          (en → ∀ f ∈ [SC.DIR, SC.CHAN, SC.SECY, SC.ENC_AN], same f)
        (s.rrd SC.DRAIN n = 1 → ScyRefuses s (exec c s) op i 5) ∧
        (s.rrd SC.DRAIN n = 0 → ¬legal → ScyRefuses s (exec c s) op i 2) ∧
        let twin := (s.recStore .sc n im fun _ => true).twinPacket (chanGroup (SC.CHAN.of im)) = true
        (s.rrd SC.DRAIN n = 0 → legal → s.rrd SC.SW_PEND n = 0 → twin → exec c s = .fault .hostError) ∧
        (s.rrd SC.DRAIN n = 0 → legal → s.rrd SC.SW_PEND n = 0 → ¬twin → ScyStores s (exec c s) op i .sc)) ∧
      (k = .sa →
        let en := s.rrd SA.EN n = 1
        let v := SA.NEXT_PN.of im
        let rx := s.rrd SC.DIR (n / 4) = 1
        let legal := v ≠ 0 ∧ (s.rrd SECY.SUITE (s.rrd SC.SECY (n / 4)) < 2 → v < 2 ^ 32) ∧
          (s.usable 0 n = true → s.nextPn n ≤ v) ∧
          (en → s.usable 0 n = true → ∀ f ∈ [SA.SSCI, SA.SALT_LO, SA.SALT_HI], same f) ∧
          (en → SA.EN.of im = 0 → s.rrd SC.EN (n / 4) = 1 → ¬rx → s.rrd SC.ENC_AN (n / 4) ≠ n % 4)
        let drains := en ∧ SA.EN.of im = 0 ∧ rx
        let t := s.recStore .sa n im fun _ => true
        let clash := (if drains then t.rwr SA.EN n 1 else t).ssciClash n = true
        let spent := s.usable 0 n = true ∧ ¬rx ∧ s.rrd SA.EXHAUST n = 0 ∧ s.lastPn n < v
        let done := n ∉ s.secy.draining ∧ legal ∧ s.rrd SC.SW_PEND (n / 4) = 0
        (n ∈ s.secy.draining → ScyRefuses s (exec c s) op i 5) ∧
        (n ∉ s.secy.draining → ¬legal → ScyRefuses s (exec c s) op i 2) ∧
        (done → clash → exec c s = .fault .hostError) ∧
        (done → ¬clash → ¬drains → ¬spent → ScyStores s (exec c s) op i .sa) ∧
        (done → ¬clash → ¬drains → spent → Gives (exec c s) fun u => ScyAnswers u op i 0 ∧ Stored u .sa n im [] ∧
          u.rrd SA.EXHAUST n = 1 ∧ u.rd SCY_STAT.PN_EVENT = 1 ∧ RecsKept s u (recKeys .sa n)) ∧
        (done → ¬clash → drains → Gives (exec c s) fun u =>
          ScyAnswers u op i 0 ∧ u.rrd SA.EN n = 1 ∧ u.secy.draining = s.secy.draining ++ [n] ∧
          Stored u .sa n im [SA.EN])) ∧
      (k = .ch →
        let legal := (s.rrd CH.EN n = 1 → same CH.POLICY) ∧ (CH.DEF_V.of im = 1 →
          s.rrd SC.DIR (CH.DEF_SC.of im) = 1 ∧ s.rrd SC.CHAN (CH.DEF_SC.of im) = n)
        let twin := (s.recStore .ch n im fun _ => true).twinPacket (chanGroup n) = true
        (legal → twin → exec c s = .fault .hostError) ∧ (legal → ¬twin → ScyStores s (exec c s) op i .ch) ∧
        (¬legal → ScyRefuses s (exec c s) op i 2)))))

/-- R197, R198, R218, R222, R223: a write to SCY_CMD while BUSY is 1, receive SCI entries, armed switches, DISABLE and operations that do not exist. -/
def Sys2Proof.Claims.SecyCommands : Prop :=
  ∀ (s : State) (i : BitVec 18),
    let n := i.toNat
    let sci := (s.reg .SCY_DATA 0).toNat
    let chan := bits (s.reg .SCY_DATA 1).toNat 43 32
    let sc := bits (s.reg .SCY_DATA 1).toNat 15 0
    let entry := s.sciFind chan sci
    let others := fun (u : State) => ∀ c x, x < 2 ^ 64 → (c ≠ chan ∨ x ≠ sci) → u.sciFind c x = s.sciFind c x
    (s.rd SCY_CMD.BUSY = 1 → ∀ c ∈ [Instr.sciAdd i, .sciDel i, .sciFind i, .scySwitch i, .scyDisable i, .scyCmdInvalid 0 i,
      .scyCmdInvalid 1 i, .scyCmdInvalid 2 i], ScyDrops s (exec c s)) ∧
    (s.rd SCY_CMD.BUSY = 0 →
    (2880 ≤ chan → ScyRefuses s (exec (.sciAdd i) s) 8 i 1 ∧
      (entry = none → ScyRefuses s (exec (.sciDel i) s) 9 i 1 ∧ ScyRefuses s (exec (.sciFind i) s) 10 i 1)) ∧
    (chan < 2880 →
      (entry ≠ none ∨ 65536 ≤ s.secy.sci.length → ScyRefuses s (exec (.sciAdd i) s) 8 i 3) ∧
      (entry = none → s.secy.sci.length < 65536 → Gives (exec (.sciAdd i) s) fun u => ScyAnswers u 8 i 0 ∧
        u.sciFind chan sci = some sc ∧ others u ∧ u.rd SCY_STAT.SCI_USED = u.secy.sci.length % 2 ^ 17 ∧
        u = { s with regs := u.regs, secy := { s.secy with sci := u.secy.sci } }) ∧
      (entry = none → ScyRefuses s (exec (.sciDel i) s) 9 i 4 ∧ ScyRefuses s (exec (.sciFind i) s) 10 i 4)) ∧
    (entry ≠ none → Gives (exec (.sciDel i) s) fun u => ScyAnswers u 9 i 0 ∧ u.sciFind chan sci = none ∧ others u ∧
      u = { s with regs := u.regs, secy := { s.secy with sci := u.secy.sci } }) ∧
    (∀ c, entry = some c → c < 65536 → Gives (exec (.sciFind i) s) fun u => ScyAnswers u 10 i 0 ∧
      bits (u.reg .SCY_DATA 1).toNat 15 0 = c ∧ bits (u.reg .SCY_DATA 1).toNat 63 16 = bits (s.reg .SCY_DATA 1).toNat 63 16 ∧
      OnlyRegs s u [Reg.off .SCY_CMD 0 0, Reg.off .SCY_DATA 1 0]) ∧
    (let im := s.scyImage
     let an := SC.SW_AN.of im
     let o := exec (.scySwitch i) s
     let tx := n < 65536 ∧ s.rrd SC.DIR n = 0
     let ok := s.saReady (n * 4 + an) = true ∧ an ≠ s.rrd SC.ENC_AN n ∧ s.rrd SC.SW_PEND n = 0
     let g := s.rrd SC.CHAN n / 160
     let byPn := SC.SW_BY_PN.of im = 1
     let t := SC.SW_AT.of im
     let old := n * 4 + s.rrd SC.ENC_AN n
     let pnHolds := if t = 0 then s.rrd SA.EXHAUST old = 1 ∨ s.lastPn old < s.nextPn old else t ≤ s.nextPn old
     let frameHolds := g < 18 ∧ s.rd GAU_STAT.RUN g = 1 ∧ atOrAfter (s.reg .GAU_READ g) (reading (t / 2 ^ 16) 0) = true
     let armed := fun (u : State) => u.rrd SC.SW_PEND n = 1 ∧ u.rrd SC.SW_AN n = an ∧ u.rrd SC.SW_AT n = t ∧
       u.rrd SC.SW_BY_PN n = SC.SW_BY_PN.of im ∧ u.rrd SC.ENC_AN n = s.rrd SC.ENC_AN n
     let switched := fun (u : State) => u.rrd SC.SW_PEND n = 0 ∧ u.rrd SC.ENC_AN n = an
     let kept := fun (u : State) => RecsKept s u (recKeys .sc n) ∧ u = { s with regs := u.regs, recs := u.recs }
     (¬tx → ScyRefuses s o 11 i 1) ∧ (tx → ¬ok → ScyRefuses s o 11 i 6) ∧
     (tx → ok → Gives o fun u => ScyAnswers u 11 i 0 ∧ kept u ∧
       (byPn → pnHolds → switched u) ∧ (byPn → ¬pnHolds → armed u) ∧
       (¬byPn → frameHolds → switched u ∧ u.rd GAU_STAT.PAST g = 1) ∧ (¬byPn → ¬frameHolds → armed u))) ∧
    (let o := exec (.scyDisable i) s
     (65536 ≤ n → ScyRefuses s o 12 i 1) ∧ (n < 65536 → s.rrd SC.EN n = 0 → ScyRefuses s o 12 i 7) ∧
     (n < 65536 → s.rrd SC.EN n = 1 → s.rrd SC.DRAIN n = 1 → ScyRefuses s o 12 i 5) ∧
     (n < 65536 → s.rrd SC.EN n = 1 → s.rrd SC.DRAIN n = 0 → Gives o fun u => ScyAnswers u 12 i 0 ∧
       u.rrd SC.DRAIN n = 1 ∧ u.rrd SC.EN n = 1 ∧ RecsKept s u (recKeys .sc n) ∧
       u = { s with regs := u.regs, recs := u.recs } ∧ RegsKept s u [Reg.off .SCY_CMD 0 0])) ∧
    (∀ op : Fin 3, ScyRefuses s (exec (.scyCmdInvalid op i) s) (13 + op.val) i 1))

end

namespace Sys2Proof.Claims

open Sys2Proof Sys2Proof.Machine

/-- Only counters differ, and one of them is one higher. -/
def Counted (s u : State) (c : CtrId) (i : Nat) : Prop :=
  u.ctr c i = (s.ctr c i).add 1 ∧ u = { s with counters := u.counters }

end Sys2Proof.Claims

section

open Sys2Proof Sys2Proof.Machine Sys2Proof.Claims

/-- R193, R405 to R407, R434, R435, R437 to R439: a client frame classified, policed and admitted, or a host error
where a queue comes to carry SCs of different channels. Where the spec leaves a point open it is the model's: log
entries 74, 76, 80, 91. -/
def Obligations.PacketAdmission : Prop :=
  (∀ (r : State) (p : Port) (f : Octets) (bad : Fin 65),
    let s : State := { r with basin := { r.basin with badFree := max r.basin.badFree bad.val } }
    let o := exec (.clientFrameRx p f [] bad) r
    let goesOn := fun (t : State) => (t.mixedQueue = true → o = .fault .hostError) ∧ (t.mixedQueue = false → o = .next t)
    let frame := f.take (f.length - 4)
    let plain := s.rd CLK_PTP.TS_EN p = 0 ∨ ptpEvent frame = none
    let w := s.egressSearch p f
    let pd := s.reg .DLT_PDEF p
    (∀ flips, fcsGood f = false ∨ s.packetPort p = false → exec (.clientFrameRx p f flips bad) r = .next r) ∧
    (fcsGood f = true → s.packetPort p = true → plain →
      (s.rd DLT_PORT.EN p = 0 → s.mixedQueue = false → Gives o (Counted s · Ctrs.EG_DROP p)) ∧
      (s.rd DLT_PORT.EN p = 1 → SoundWays s w →
        (s.dfind w = none → s.rd DLT_PORT.DEF_ACT p = 0 → s.mixedQueue = false → Gives o (Counted s · Ctrs.EG_MISS_DROP p)) ∧
        (s.dfind w = none → s.rd DLT_PORT.DEF_ACT p = 1 → goesOn ((s.count Ctrs.EG_MISS_DEF p).policedAdmit
          (DLT_PDEF.DEF_QUEUE.of pd) (DLT_PDEF.DEF_SC.of pd)
          (if s.rd DLT_PORT.DEF_POL_EN p = 1 then some (DLT_PDEF.DEF_POLICER.of pd) else none) f)) ∧
        (∀ x, s.dfind w = some x →
          let e := s.dget x
          let hit := (s.dset x (e.withHit true)).count Ctrs.EG_HIT p
          (e.fld 59 58 = 1 → s.mixedQueue = false → Gives o fun u => u.ctr Ctrs.EG_DROP p = (s.ctr Ctrs.EG_DROP p).add 1 ∧
            u.ctr Ctrs.EG_HIT p = (s.ctr Ctrs.EG_HIT p).add 1 ∧ u.dget x = e.withHit true ∧ u.basin = s.basin) ∧
          (e.fld 59 58 ≠ 1 → goesOn (hit.policedAdmit (e.fld 39 20) (e.fld 55 40)
            (if e.fld 57 57 = 1 then some (e.fld 17 0) else none) f)))) ∧
      (s.mixedQueue = true ↔ ∃ e ∈ s.basin.queues, ∃ a ∈ e.2.frames ++ e.2.decided, ∃ b ∈ e.2.frames ++ e.2.decided,
        s.rrd SC.CHAN a.sc ≠ s.rrd SC.CHAN b.sc))) ∧
  (∀ (s : State) (q sc colour : Nat) (pol : Option Nat) (f : Octets), q < 2 ^ 20 → sc < 2 ^ 16 → f ≠ [] →
    let c := (f.length + 239) / 240
    let charged := f.length + 16 + (if s.rrd SECY.TX_SCI (s.rrd SC.SECY sc) = 1 then 16 else 8)
    let refused := fun (k : CtrId) (i : Nat) => s.admitFrame q sc colour f = s.count k i
    let serving := s.rd GBL_MODE.MODE = 5 ∨ s.rd GBL_MODE.MODE = 6
    let queueOk := serving ∧ s.rrd QUE.EN q = 1 ∧ s.rrd QUE.DRAIN q = 0
    let scOk := s.rrd SC.EN sc = 1 ∧ s.rrd SC.DIR sc = 0 ∧ s.rrd SC.DRAIN sc = 0
    let short := charged ≤ s.rrd SECY.MAX_FRAME (s.rrd SC.SECY sc)
    let capOk := s.rrd QUE.CELLS q + c ≤ s.rrd QUE.CAP q
    let yellowOk := colour = 1 → s.sused + c ≤ s.rd BSN_SHARED.YLIMIT
    let poolOk := s.sharedDemand (s.queueGroup q) c ≤ s.sharedFree
    (¬queueOk → refused Ctrs.REF_QDIS q) ∧ (queueOk → ¬scOk → refused Ctrs.REF_SC q) ∧
    (queueOk → scOk → ¬short → refused Ctrs.OUT_TOO_LONG (s.rrd SC.SECY sc)) ∧
    (queueOk → scOk → short → ¬capOk → refused Ctrs.REF_CAP q) ∧
    (queueOk → scOk → short → capOk → ¬yellowOk → refused Ctrs.REF_YELLOW q) ∧
    (queueOk → scOk → short → capOk → yellowOk → ¬poolOk → refused Ctrs.REF_POOL q) ∧
    (∀ l b, queueOk → scOk → short → capOk → yellowOk → poolOk → s.allocCells c = (some l, b) → s.queueGroup q < 18 →
      s.used (s.queueGroup q) + c < 2 ^ 28 → s.rrd QUE.CELLS q + c < 2 ^ 28 →
      let u := s.admitFrame q sc colour f
      (u.bq q).decided = (s.bq q).decided ++ [{ cells := s.writeCell q :: l.dropLast, next := l.getLastD (0, 0)
                                                len := f.length, charged := charged, sc := sc, colour := colour, data := f }] ∧
      (u.bq q).frames = (s.bq q).frames ∧ u.used (s.queueGroup q) = s.used (s.queueGroup q) + c ∧
      u.rrd QUE.CELLS q = s.rrd QUE.CELLS q + c ∧ u.rrd QUE.FRAMES q = s.rrd QUE.FRAMES q) ∧
    (pol = none → s.policeWith pol q charged = (some 0, s)) ∧
    (∀ p, pol = some p → p < 2 ^ 18 →
      let r := s.policeWith pol q charged
      let cost := charged * 256
      (s.rrd POL.EN p = 0 → r = (some 0, s.count Ctrs.POL_OFF q)) ∧
      (s.rrd POL.EN p = 1 → s.rrd POL.TP p < cost → r.1 = none ∧ r.2.recs = s.recs ∧
        r.2.ctr Ctrs.RED_F p = (s.ctr Ctrs.RED_F p).add 1 ∧ r.2.ctr Ctrs.RED_O p = (s.ctr Ctrs.RED_O p).add charged) ∧
      (s.rrd POL.EN p = 1 → cost ≤ s.rrd POL.TP p → s.rrd POL.TC p < cost →
        r.1 = (if s.rrd POL.YDROP p = 1 then none else some 1) ∧ r.2.rrd POL.TP p = s.rrd POL.TP p - cost ∧
        r.2.rrd POL.TC p = s.rrd POL.TC p ∧ r.2.ctr Ctrs.YELLOW_F p = (s.ctr Ctrs.YELLOW_F p).add 1) ∧
      (s.rrd POL.EN p = 1 → cost ≤ s.rrd POL.TP p → cost ≤ s.rrd POL.TC p → r.1 = some 0 ∧
        r.2.rrd POL.TP p = s.rrd POL.TP p - cost ∧ r.2.rrd POL.TC p = s.rrd POL.TC p - cost ∧
        r.2.ctr Ctrs.GREEN_F p = (s.ctr Ctrs.GREEN_F p).add 1)))

/-- R84 to R86, R100, R107, R108, R114, R118, R129, R196, R202, R205, R258, R442, R445, R453, R454, R566, R684: frames
dequeued with the tag and IV that they keep, keyed, read and delivered, or withheld; a frame larger than a burst of
its path is a host error; MKA frames sent. That LOST cells are those behind the break is the model's choice
(assumption log). Where the spec leaves a point open it is the model's: log entries 70, 78, 91. -/
def Obligations.PacketEgress : Prop :=
  ∀ (s : State) (g : Group),
    let ring := s.ringOf g
    let o := exec (.dequeue g none none) s
    let may := s.sluiceOpen g = true ∧ ring.length < 256
    (∀ sue bue, ¬may → exec (.dequeue g sue bue) s = .next s) ∧
    (may → s.chooseFrame g (s.waitingChans g) = none → o = .next s) ∧
    (∀ chan q sched b, may → s.twin g = false → s.chooseFrame g (s.waitingChans g) = some (chan, q, sched) →
      State.takeHead { s with basin := sched } q = (none, b) → o = .next b) ∧
    (∀ q f t, q < 2 ^ 20 → (s.bq q).frames = f :: t → f.void = false → f.broken = true → ∃ u, s.takeHead q = (none, u) ∧
      (u.bq q).frames = [] ∧ u.rrd QUE.FRAMES q = 0 ∧ u.rd BSN_STAT.CHAIN_BREAK = 1 ∧
      ∀ e ∈ t, e.broken = false → ∀ c ∈ e.cells, c.1 ∈ u.basin.gone) ∧
    (∀ chan q sched f b, may → s.twin g = false → s.chooseFrame g (s.waitingChans g) = some (chan, q, sched) →
      State.takeHead { s with basin := sched } q = (some f, b) → f.sc < 2 ^ 16 → q < 2 ^ 20 → s.rrd SC.SW_PEND f.sc = 0 →
      let sa := f.sc * 4 + s.rrd SC.ENC_AN f.sc
      let pn := s.rrd SA.NEXT_PN sa
      let y := s.saSecy sa
      let tag := s.secTag sa pn (f.len - 16)
      let clear := min (f.len - 16) (s.confOffset y)
      (b.burstSmall q f.charged = true → o = .fault .hostError) ∧
      (b.burstSmall q f.charged = false → s.noPn sa = false → Gives o fun u =>
        u.ringOf g = ring ++ [{ queue := q, sa := sa, pn := pn, chan := chan, cells := f.cells, len := f.len
                                charged := f.charged, tag := tag, offset := s.confOffset y
                                ks := { iv := s.frameIv sa (s.rrd SECY.SCI y) pn, clear := 12 + tag.length + clear
                                        total := streamBlocks (f.len - 16 - clear) } }] ∧
        u.rrd SA.NEXT_PN sa = (pn + 1) % 2 ^ 64 ∧ (pn = s.lastPn sa → u.rrd SA.EXHAUST sa = 1)) ∧
      (b.burstSmall q f.charged = false → s.noPn sa = true → Gives o fun u => u.ringOf g = ring ∧ u.rrd SA.NEXT_PN sa = pn ∧
        u.ctr Ctrs.PN_EXHAUST sa = (b.ctr Ctrs.PN_EXHAUST sa).add 1)) ∧
    (∀ r, may → s.twin g = true → s.chooseFrame g (s.waitingChans g) = some r → o = .fault .hostError) ∧
    (∀ k e, s.holder g = some k → s.rd WEI_GRP_CFG.CLOSING g = 0 → s.nextEgress g = some e → e.resent = false →
      let first := fun (x : RingEntry) => x.key.isNone && decide (x.sa = e.sa) && decide (x.pn = e.pn)
      let before := ((ring.filter fun x => x.key.isSome && decide (x.chan = e.chan)).getLast?).map fun x => (x.ks.lane, x.lanes)
      (s.usable 0 e.sa = true → Gives (exec (.ivDescriptorAccept g .egress false) s) fun u =>
        u.ringOf g = updFirst first (fun x => some { x with key := some (s.saKeyOctets e.sa)
                                                            ks := { x.ks with lane := startLane before } }) ring ∧
        u = { s with weir := u.weir }) ∧
      (∀ bad, s.usable 0 e.sa = false ∨ bad = true → Gives (exec (.ivDescriptorAccept g .egress bad) s) fun u =>
        u.ringOf g = updFirst first (fun _ => none) ring ∧
        u.ctr Ctrs.KEY_MISS (2 * k) = (s.ctr Ctrs.KEY_MISS (2 * k)).add 1)) ∧
    (∀ d bad, s.holder g = none ∨ s.rd WEI_GRP_CFG.CLOSING g = 1 → exec (.ivDescriptorAccept g d bad) s = .next s) ∧
    (Gives (exec (.keystreamReady g .egress none) s) fun u => u = { s with weir := u.weir } ∧
      u.ringOf g = updFirst (fun e => e.key.isSome && decide (e.ks.ready = 0))
        (fun e => some { e with ks := s.makeReady g .egress e.ks }) ring ∧ u.retainOf g = s.retainOf g) ∧
    (Gives (exec (.keystreamReady g .ingress none) s) fun u => u = { s with weir := u.weir } ∧ u.ringOf g = ring ∧
      u.retainOf g = updFirst (fun f => f.key.isSome && decide (f.ks.ready = 0))
        (fun f => some { f with ks := s.makeReady g .ingress f.ks }) (s.retainOf g)) ∧
    (∀ (c : Channel) d, (s.l1Chan c = false ∨ chanGroup c ≠ g.val → exec (.keystreamReady g d (some c)) s = .next s) ∧
      (s.l1Chan c = true → chanGroup c = g.val → Gives (exec (.keystreamReady g d (some c)) s) fun u =>
        let made := fun (y : L1Desc) => if y.ks.ready = 0 then { y with ks := s.makeReady g d y.ks } else y
        let x := s.l1run c
        u.l1run c = (if d.code = 0 then { x with txDesc := x.txDesc.map made } else { x with rxDesc := x.rxDesc.map made }) ∧
        u = { s with l1 := u.l1 })) ∧
    (∀ k d x, s.holder g = some k → (s.makeReady g d x).ready ≤ max x.ready x.total ∧ x.ready ≤ (s.makeReady g d x).ready ∧
      s.makeReady g d x = { x with ready := (s.makeReady g d x).ready }) ∧
    (let next := fun (e : RingEntry) => decide (0 < e.ks.ready) && e.data.isNone
     (ring.find? next = none → exec (.egressFrameRead g [] none none) s = .next s) ∧
     (∀ e data b, ring.find? next = some e →
       s.holdReports.readChain e.queue e.len e.cells.length e.cells.length 0 (e.cells.headD (0, 0)) [] = (.whole data, b) →
       (Gives (exec (.egressFrameRead g [] none none) s) fun u => u.recs = s.recs ∧ u.out = s.out ∧
         u.ringOf g = updFirst next (fun x => some { x with data := some data }) ring) ∧
       (∀ n, s.flows g 0 = true → Gives (exec (.egressFrameRead g [] none (some n)) s) fun u =>
         u.out = .lineError e.chan ((e.secure (e.key.getD []) data).take n) :: s.out ∧
         u.ctr Ctrs.MAP_UNDER e.chan = (s.ctr Ctrs.MAP_UNDER e.chan).add 1 ∧
         u.ringOf g = updFirst (fun x => decide (x.sa = e.sa) && decide (x.pn = e.pn)) (fun _ => none) ring))) ∧
    (∀ e k key data, ring.find? (fun e => e.data.isSome) = some e → s.holder g = some k → e.key = some key → e.data = some data →
      let x := e.secure key data
      (s.flows g 0 = true → e.ghash = none → Gives (exec (.egressFrameDelivered g) s) fun u =>
        u.out = .lineFrame e.chan (x ++ fcs x) true :: s.out ∧
        u.ringOf g = updFirst (fun x => x.data.isSome) (fun _ => none) ring ∧
        (e.passed < e.lanes → u.ctr Ctrs.RC_BLOCKS (2 * k) = (s.ctr Ctrs.RC_BLOCKS (2 * k)).add (e.lanes - e.passed)) ∧
        u.ctr Ctrs.OUT_PKTS_ENCRYPTED e.sa = (s.ctr Ctrs.OUT_PKTS_ENCRYPTED e.sa).add 1 ∧ u.recs = s.recs ∧ u.keys = s.keys) ∧
      (s.flows g 0 = true → e.ghash ≠ none → Gives (exec (.egressFrameDelivered g) s) fun u => u.out = s.out ∧
        u.ringOf g = ring ∧ u.rd RC_STAT.FLAGGED k = 1 ∧
        u.ctr Ctrs.RC_FLAGS (2 * k) = (s.ctr Ctrs.RC_FLAGS (2 * k)).add 1) ∧
      (s.flows g 0 = false → exec (.egressFrameDelivered g) s = .next s)) ∧
    (ring.find? (fun e => e.data.isSome) = none → exec (.egressFrameDelivered g) s = .next s) ∧
    (∀ (e : RingEntry) key frame, 12 + e.offset ≤ (body frame).length →
      let x := e.secure key frame
      x.take 12 = (body frame).take 12 ∧ (x.drop 12).take e.tag.length = e.tag ∧
      (x.drop (12 + e.tag.length)).take e.offset = ((body frame).drop 12).take e.offset) ∧
    (∀ sa pn n,
      let x := s.secTag sa pn n
      let y := s.saSecy sa
      let sci := s.rrd SECY.TX_SCI y = 1
      x.length = (if sci then 16 else 8) ∧ x.take 2 = [0x88, 0xE5] ∧ beNat (slice x 2 1) % 4 = sa % 4 ∧
      beNat (slice x 3 1) = (if n < 48 then n else 0) ∧ beNat (slice x 4 4) = pn % 2 ^ 32 ∧
      (sci → beNat (slice x 8 8) = s.rrd SECY.SCI y)) ∧
    (∀ (c : Channel) f rest, s.mkaQueue c = f :: rest → s.rd FRM_CTL.TX_EN (chanGroup c) = 1 →
      s.sluiceOpen (chanGroup c) = true → s.packetChan c = true →
      exec (.mkaTxSent c) s = .next (((s.setMkaQueue c rest).emit (.lineFrame c (f.octets ++ fcs f.octets) true)).writeRecord
        64 f.slot f.tag 0 0)) ∧
    (∀ c : Channel, s.mkaQueue c = [] → exec (.mkaTxSent c) s = .next s)

/-- R34, R35, R82, R83, R90, R118, R207 to R212, R218, R219, R302, R303, R310, R626: the receive checks, the verdict
and release toward the client, and the ends of drains. Where the spec leaves a point open it is the model's: log
entries 79, 91. -/
def Obligations.PacketIngress : Prop :=
  ∀ (s : State),
    (∀ (c : Channel) (x : Octets),
      let g := chanGroup c
      let o := exec (.ingressFrameRx c x none []) s
      let f := body x
      let line := s.packetChan c = true ∧ s.rd FRM_CTL.RX_EN g = 1 ∧ s.rd FRM_STAT.IF g = 1 ∧
        (s.reg .FRM_DEF g).toNat &&& 0b11110 = 0
      let good := line ∧ fcsGood x = true
      let taken := good ∧ s.rrd CH.EN c = 1 ∧ s.twin g = false
      let served := taken ∧ s.rd GBL_MODE.MODE ≠ 7 ∧ s.inFailover g = false ∧ s.sluiceOpen g = true ∧
        ¬(s.weir.eddy = some g ∧ s.weir.shelter ≠ [])
      let type := be16 f 12
      let full := s.inFailover g = true ∧ (s.weir.eddy ≠ some g ∨ 108032 < s.shelterUsed + (x.length + 63) / 64)
      (∀ sue finds, ¬line → exec (.ingressFrameRx c x sue finds) s = .next s) ∧
      (good → s.rrd CH.EN c = 0 → ∀ n w y,
        ((s.retainOf g)[n]? = some y → Gives (exec (.ingressFrameRx c x none [.retainBad n w]) s) fun u =>
          u.retainOf g = (s.retainOf g).eraseIdx n) ∧
        (s.weir.shelter[n]? = some y → Gives (exec (.ingressFrameRx c x none [.shelterBad n w]) s) fun u =>
          u.weir.shelter = s.weir.shelter.eraseIdx n)) ∧
      (line → fcsGood x = false → Gives o (Counted s · Ctrs.IN_BAD_FCS c)) ∧
      (good → s.rrd CH.EN c = 0 → Gives o (Counted s · Ctrs.IN_CH_OFF c)) ∧
      (good → s.rrd CH.EN c = 1 → s.twin g = true → o = .fault .hostError) ∧
      (taken → s.rd GBL_MODE.MODE = 7 → Gives o (Counted s · Ctrs.DRAIN_DROPS g)) ∧
      (taken → s.rd GBL_MODE.MODE ≠ 7 → s.inFailover g = true → s.weir.eddy = some g →
        s.shelterUsed + (x.length + 63) / 64 ≤ 108032 → Gives o fun u => u.ctr Ctrs.SHELTERED g = (s.ctr Ctrs.SHELTERED g).add 1 ∧
          u.weir = { s.weir with shelter := s.weir.shelter ++ [{ chan := c, octets := x }] }) ∧
      (taken → s.rd GBL_MODE.MODE ≠ 7 → full → Gives o fun u => u.weir.shelter = s.weir.shelter ∧
        u.ctr Ctrs.SHELTER_DROPS g = (s.ctr Ctrs.SHELTER_DROPS g).add 1 ∧
        (u.wgrp g).drops.length ≤ (s.wgrp g).drops.length + 1 ∧ (u.wgrp g).drops ≠ []) ∧
      (taken → s.rd GBL_MODE.MODE ≠ 7 → s.inFailover g = false → s.rd WEI_LEASE.STATE g = 3 →
        Gives o (Counted s · Ctrs.LAPSE_DROPS g)) ∧
      (served → type = 0x888E → o = .next ((s.count Ctrs.EAPOL_RX c).mkaReceive c f)) ∧
      (served → type ≠ 0x888E → type ≠ 0x88E5 → Gives o (Counted s · Ctrs.IN_NO_TAG c)) ∧
      (served → type = 0x88E5 → rxTag f = none → Gives o (Counted s · Ctrs.IN_BAD_TAG c)) ∧
      (∀ t, served → type = 0x88E5 → rxTag f = some t → t.ok = false → Gives o (Counted s · Ctrs.IN_BAD_TAG c)) ∧
      (∀ t, served → type = 0x88E5 → rxTag f = some t → t.ok = true →
        let withSci := t.tci.testBit 5 = true
        let found := if withSci then s.sciFind c t.sci else if s.rrd CH.DEF_V c = 1 then some (s.rrd CH.DEF_SC c) else none
        (found = none → Gives o (Counted s · (if withSci then Ctrs.IN_UNKNOWN_SCI else Ctrs.IN_NO_SCI) c)) ∧
        (∀ sc, found = some sc →
          let sa := sc * 4 + t.tci % 4
          let pn := s.recoverPn sa t.pn
          let opened := s.rrd SC.EN sc = 1 ∧ s.rrd SC.DIR sc = 1 ∧ s.rrd SC.DRAIN sc = 0
          let ready := s.saReady sa = true ∧ sa ∉ s.secy.draining
          let late := pn < s.lowestPn sa
          (¬opened → Gives o (Counted s · (if withSci then Ctrs.SECY_UNKNOWN_SCI else Ctrs.SECY_NO_SCI) (s.rrd SC.SECY sc))) ∧
          (opened → ¬ready → Gives o (Counted s · Ctrs.IN_NOT_USING_SA sc)) ∧
          (opened → ready → late → s.rrd SECY.REPLAY (s.saSecy sa) = 1 → Gives o (Counted s · Ctrs.IN_LATE sa)) ∧
          (opened → ready → ¬(late ∧ s.rrd SECY.REPLAY (s.saSecy sa) = 1) →
            let hold := s.rrd CH.POLICY c = 0 ∧ 65536 < s.holdUsed g + x.length
            let off := s.confOffset (s.saSecy sa)
            (hold → Gives o fun u => u.retainOf g = s.retainOf g ∧ u = { s with weir := u.weir } ∧
              Tbl.get 0 u.weir.holdDrops c = Tbl.get 0 s.weir.holdDrops c + 1) ∧
            (¬hold → Gives o fun u =>
              u.retainOf g = s.retainOf g ++ [{ chan := c, octets := x, sa := sa, pn := pn, delayed := decide late, offset := off
                                                ks := { iv := s.frameIv sa (s.rrd SC.SCI (sa / 4)) pn
                                                        clear := 12 + t.len + min t.n off
                                                        total := streamBlocks (t.n - min t.n off) } }] ∧
              u = { s with weir := u.weir }))))) ∧
    (∀ sa lo, lo < 2 ^ 32 →
      let low := s.lowestPn sa
      let w := s.rrd SECY.WINDOW (s.saSecy sa)
      let next := s.rrd SA.NEXT_PN sa
      low = (if w < next then next - w else 1) ∧ (s.xpn (s.saSecy sa) = false → s.recoverPn sa lo = lo) ∧
      (s.xpn (s.saSecy sa) = true → s.recoverPn sa lo % 2 ^ 32 = lo ∧
        (low < 2 ^ 64 - 2 ^ 32 → low ≤ s.recoverPn sa lo ∧ s.recoverPn sa lo < low + 2 ^ 32))) ∧
    (∀ (g : Group) k f rest key, s.retainOf g = f :: rest → s.holder g = some k → f.key = some key → 0 < f.ks.ready →
      s.flows g 1 = true → f.sa < 2 ^ 18 → s.weir.shelter = [] →
      let r := f.opened key
      let o := exec (.icvVerdict g) s
      let p := s.rd FRM_TSLIVE.PORT (chanGroup f.chan) (chanSlot f.chan)
      let whole := f.ghash = none
      (¬whole → Gives o fun u => u.retainOf g = s.retainOf g ∧ u.out = s.out ∧ u.rd RC_STAT.FLAGGED k = 1) ∧
      (whole → r.2 = true → f.pn < 2 ^ 64 - 1 → Gives o fun u => u.retainOf g = rest ∧
        u.ctr Ctrs.IN_OK f.sa = (s.ctr Ctrs.IN_OK f.sa).add 1 ∧
        u.rrd SA.NEXT_PN f.sa = max (s.rrd SA.NEXT_PN f.sa) (f.pn + 1) ∧
        u.ctr Ctrs.IN_DELAYED f.sa = (if f.delayed then (s.ctr Ctrs.IN_DELAYED f.sa).add 1 else s.ctr Ctrs.IN_DELAYED f.sa) ∧
        (f.passed < f.lanes → u.ctr Ctrs.RC_BLOCKS (2 * k + 1) = (s.ctr Ctrs.RC_BLOCKS (2 * k + 1)).add (f.lanes - f.passed)) ∧
        u.out = (if p < 72 ∧ s.rd FRM_CPORT.EN (p / 4) (p % 4) = 1 then .clientFrame p (r.1 ++ fcs r.1) true :: s.out
          else s.out)) ∧
      (whole → r.2 = false → s.rrd CH.POLICY f.chan = 0 → Gives o fun u => u.retainOf g = rest ∧ u.out = s.out ∧
        u.ctr Ctrs.IN_NOT_VALID f.sa = (s.ctr Ctrs.IN_NOT_VALID f.sa).add 1 ∧ u.recs = s.recs) ∧
      (whole → r.2 = false → s.rrd CH.POLICY f.chan = 1 → Gives o fun u => u.retainOf g = rest ∧
        u.out = (if p < 72 ∧ s.rd FRM_CPORT.EN (p / 4) (p % 4) = 1 then .clientFrame p (r.1 ++ stomp r.1) false :: s.out
          else s.out) ∧ u.ctr Ctrs.RX_STOMPED f.chan = (s.ctr Ctrs.RX_STOMPED f.chan).add 1 ∧
        u.ctr Ctrs.IN_NOT_VALID f.sa = (s.ctr Ctrs.IN_NOT_VALID f.sa).add 1 ∧ u.recs = s.recs)) ∧
    (∀ (g : Group) f rest, s.retainOf g = f :: rest → f.key = none ∨ f.ks.ready = 0 ∨ s.flows g 1 = false →
      exec (.icvVerdict g) s = .next s) ∧
    (∀ sc : BitVec 16,
      let c := sc.toNat
      let ends := s.rrd SC.DRAIN c = 1 ∧ s.scTxWork c = false ∧ s.saRxWork (fun a => decide (a / 4 = c)) = false
      (ends → Gives (exec (.scDrainEnd sc) s) fun u => u.rrd SC.DRAIN c = 0 ∧ u.rrd SC.EN c = 0 ∧
        OnlyRecs s u [RecKind.key .sc c 0]) ∧
      (¬ends → exec (.scDrainEnd sc) s = .next s)) ∧
    (∀ sa : BitVec 18,
      let i := sa.toNat
      let ends := i ∈ s.secy.draining ∧ s.saRxWork (fun a => decide (a = i)) = false
      (ends → Gives (exec (.saDrainEnd sa) s) fun u => u.rrd SA.EN i = 0 ∧ i ∉ u.secy.draining ∧
        u = { s with secy := u.secy, recs := u.recs } ∧ RecsKept s u [RecKind.key .sa i 0]) ∧
      (¬ends → exec (.saDrainEnd sa) s = .next s))

end

namespace Sys2Proof.Claims

open Sys2Proof Sys2Proof.Machine

/-- An L1 channel is beside its record as before, but for the parts a clause names. -/
def OtherChannels (s u : State) (c : Nat) : Prop := ∀ k, k ≠ c → u.l1run k = s.l1run k

/-- FRM_L1CMD shows the operation, its slot and its status (R182). -/
def L1Answers (u : State) (g op slot st : Nat) : Prop :=
  u.rd FRM_L1CMD.OP g = op ∧ u.rd FRM_L1CMD.SLOT g = slot ∧ u.rd FRM_L1CMD.STATUS g = st ∧ u.rd FRM_L1CMD.BUSY g = 0

/-- An FRM_L1CMD command that ends with a status and changes nothing else. -/
def L1Refuses (s : State) (o : Outcome) (g op slot st : Nat) : Prop :=
  Gives o fun u => L1Answers u g op slot st ∧ OnlyRegs s u [Reg.off .FRM_L1CMD g 0]

/-- FRM_COOPOS holds eight different positions, none of them in the first seven columns of row 1, the octets of the count
word's pair in rows 1 and 2 and COO 2 to 5 in row 1, by R152. -/
def CooPlaces (v : Nat) : Prop :=
  let p := fun k => bits v (6 * k + 5) (6 * k)
  (∀ i j, i < 8 → j < 8 → p i = p j → i = j) ∧ (∀ i, i < 8 → 7 ≤ p i) ∧ p 0 / 16 ≤ 1 ∧
  ∀ i, 2 ≤ i → i < 6 → p i / 16 = 0

end Sys2Proof.Claims

section

open Sys2Proof Sys2Proof.Machine Sys2Proof.Claims

/-- R109, R140, R143 to R145, R147 to R149, R151, R153, R155, R174, R175, R177, R252: the IV descriptor of a frame,
frames toward the line, and the end of a channel's closing. That a pending retirement and Quarantine outlive the
closing is the model's choice (assumption log). Where the spec leaves a point open it is the model's: log entry 67. -/
def Obligations.L1Transmit : Prop :=
  ∀ (s : State) (c : Channel) (payload : Octets) (bad : Bool),
    let g := chanGroup c
    let o := exec (.l1TxFrame c payload bad) s
    let runs := s.l1Chan c = true ∧ s.rd FRM_CTL.TX_EN g = 1 ∧ s.rd GBL_MODE.MODE ≠ 2 ∧ s.rd GBL_MODE.MODE ≠ 8
    let b := s.finishTx c
    let n := s.rrd L1.TX_COUNT c
    let iv := fun (epoch k : Nat) =>
      beBytes 2 (s.rd FRM_L1CTL.ROLE g * 2 ^ 15 + c.val % 2 ^ 12) ++ beBytes 2 epoch ++ beBytes 8 k
    let slotFor := fun (t : State) (k : Nat) => if k % 256 = 0 then t.rrd L1.TX_SLOT c else (t.l1run c).txUse
    let starts := fun (f : TxFrame) (u : State) => (u.l1run c).cur = some f ∧ f.count = n ∧
      u.rrd L1.TX_COUNT c = (n + 1) % 2 ^ 64 ∧ OtherChannels b u c
    let open' := runs ∧ s.rrd L1.EN c = 1 ∧ s.rrd L1.CLOSING c = 0 ∧ b.flows g 0 = true ∧ b.rd WEI_GRP_CFG.CLOSING g = 0
    (∀ k, let x := s.kslot 1 (2 * c.val + slotFor s k)
      let u := s.issueTx c k bad
      OtherChannels s u c ∧ u.out = s.out ∧ u.recs = s.recs ∧
      (slotFor s k < 2 → s.usable 1 (2 * c.val + slotFor s k) = true → bad = false → (x.useEn = true → 0 < x.use) →
        (∃ lane, (u.l1run c).txDesc = some { count := k, keys := [{ slot := slotFor s k, epoch := x.epoch, gen := x.gen
                                                                    key := some (slice x.key 0 32) }]
                                             ks := { iv := iv x.epoch k, lane := lane, total := 953 } }) ∧
        (x.useEn = true → (u.kslot 1 (2 * c.val + slotFor s k)).use = x.use - 1)) ∧
      (s.usable 1 (2 * c.val + slotFor s k) = false ∨ bad = true ∨ (x.useEn = true ∧ x.use = 0) →
        (∃ d, (u.l1run c).txDesc = some d ∧ d.count = k ∧ ∀ y ∈ d.keys, y.key = none) ∧ u.keys = s.keys)) ∧
    (¬runs → s.rd FRM_CTL.TX_EN g ≤ 1 → o = .next s) ∧
    (runs → s.rrd L1.EN c = 0 → o = .next (s.emit (.oduOci c))) ∧
    (∀ d k rest key, open' → (b.l1run c).txDesc = some d → d.count = n → d.keys = k :: rest → k.key = some key →
      Gives o fun u => ∃ f, starts f u ∧
        f.kind = .enc ∧ f.key = key ∧ f.ks.iv = d.ks.iv ∧ f.slot = k.slot ∧ f.gen = k.gen ∧ f.plain = slice payload 0 15232 ∧
        (f.coo.headD 0).toNat % 32 = k.epoch % 16 ∧ f.coo.getD 1 0 = BitVec.ofNat 8 n ∧
        (∃ t, Crypto.gcm false key d.ks.iv (f.coo.take 2) f.plain = (f.payload, t) ∧ f.tag = some (t.take 4)) ∧
        (u.l1run c).gap = false ∧ (u.l1run c).txUse = k.slot ∧
        ∃ e, (u.l1run c).txDesc = some e ∧ e.count = (n + 1) % 2 ^ 64) ∧
    (let slot := slotFor b n
     let key := b.kslot 1 (2 * c.val + slot)
     open' → (b.l1run c).txDesc = none →
      (b.usable 1 (2 * c.val + slot) = true → bad = false → slot < 2 → (key.useEn = true → 0 < key.use) → Gives o fun u =>
        ∃ f, starts f u ∧ f.kind = .enc ∧ f.key = slice key.key 0 32 ∧ f.ks.iv = iv key.epoch n) ∧
      (b.usable 1 (2 * c.val + slot) = false ∨ bad = true ∨ (key.useEn = true ∧ key.use = 0) → Gives o fun u => ∃ f, starts f u ∧ f.kind = .ais ∧
        f.gap = false ∧ u.ctr Ctrs.KEY_MISS_TX c = (b.ctr Ctrs.KEY_MISS_TX c).add 1)) ∧
    (runs → s.rrd L1.EN c = 1 → s.rrd L1.CLOSING c = 0 → b.flows g 0 = false ∨ b.rd WEI_GRP_CFG.CLOSING g = 1 →
      Gives o fun u => ∃ f, starts f u ∧ f.kind = .ais ∧ f.gap = (b.l1run c).gap ∧ u.keys = b.keys) ∧
    (runs → s.rrd L1.EN c = 1 → s.rrd L1.CLOSING c = 1 → ((b.l1run c).filled = true → o = .next b) ∧
      ((b.l1run c).filled = false → Gives o fun u => ∃ f, starts f u ∧
        f.kind = .fill ∧ f.payload = List.replicate 15232 0 ∧ (f.coo.headD 0).toNat.testBit 4 = true ∧
        (u.l1run c).filled = true)) ∧
    (∀ (k : Nat) coo, CooPlaces (s.reg .FRM_COOPOS g).toNat →
      let h := s.oduOverhead g k coo
      h.length = 64 ∧ h.getD 6 0 = BitVec.ofNat 8 k ∧
      ∀ i, i < 8 → h.getD (bits (s.reg .FRM_COOPOS g).toNat (6 * i + 5) (6 * i)) 0 = coo.getD i 0) ∧
    (∀ f : TxFrame, (s.l1run c).cur = some f → f.cut = none → f.ghash = [] →
      (b.l1run c).cur = none ∧ OtherChannels s b c ∧
      (f.kind = .enc → b.out = .oduFrame c (s.oduOverhead g f.count f.coo) f.payload :: s.out ∧ (b.l1run c).txTag = f.tag ∧
        b.ctr Ctrs.FRAMES_TX c = (s.ctr Ctrs.FRAMES_TX c).add 1 ∧ b.recs = s.recs ∧
        (f.count % 256 = 255 → (b.l1run c).txAcc = none ∧ ((s.l1run c).txVeto = true → (b.l1run c).txLong = none))) ∧
      (f.kind = .ais → b.out = .oduAis c :: s.out ∧ (b.l1run c).txTag = none) ∧
      (f.kind = .fill → b.out = .oduFrame c (s.oduOverhead g f.count f.coo) f.payload :: s.out ∧ (b.l1run c).txTag = none)) ∧
    (∀ (f : TxFrame) p, (s.l1run c).cur = some f → f.kind = .enc → f.cut = some p →
      b.out = .oduFrame c (s.oduOverhead g f.count f.coo) (f.payload.take p ++ List.replicate (15232 - p) 0xFF) :: s.out ∧
      (b.l1run c).txTag = none ∧ (15232 ≤ p → b.ctr Ctrs.FRAMES_TX c = (s.ctr Ctrs.FRAMES_TX c).add 1 ∧ b.recs = s.recs) ∧
      (p < 15232 → (b.l1run c).gapOpen = true ∧ b.rrd L1.GAP_LAST c = f.count % 2 ^ 64 ∧
        b.rrd L1.GAP_FIRST c = (if (s.l1run c).gapOpen then s.rrd L1.GAP_FIRST c else f.count % 2 ^ 64) ∧
        b.ctr Ctrs.GAP_FRAMES c = (s.ctr Ctrs.GAP_FRAMES c).add 1)) ∧
    (∀ role count, let j := count % 256
      (j < 8 → cooWord role count none = [0, 0] ∧
        ∀ l : Octets, 16 ≤ l.length → cooWord role count (some l) = (l.drop (2 * j)).take 2) ∧
      (∀ long, (8 ≤ j → j < 12 → cooWord role count long = ((beBytes 8 (count - j)).drop (2 * (j - 8))).take 2) ∧
        (j = 12 → ∃ check, cooWord role count long = [check, BitVec.ofNat 8 role]) ∧
        (12 < j → cooWord role count long = [0, 0]))) ∧
    (s.rrd L1.CLOSING c = 1 → (s.l1run c).filled = true → Gives (exec (.l1ChannelCloseEnd c) s) fun u =>
      u.rrd L1.EN c = 0 ∧ u.rrd L1.CLOSING c = 0 ∧ u.rrd L1.CNT_LOCK c = 0 ∧ (u.l1run c).cur = none ∧
      (u.l1run c).filled = false ∧ (u.l1run c).txDesc = none ∧ (u.l1run c).rxDesc = none ∧ OtherChannels b u c ∧
      u.keys = s.keys ∧ u.rrd L1.TX_COUNT c = s.rrd L1.TX_COUNT c ∧ u.rrd L1.RET_PEND c = s.rrd L1.RET_PEND c ∧
      (u.l1run c).retire = (s.l1run c).retire ∧ u.rrd L1.QUAR c = s.rrd L1.QUAR c) ∧
    (s.rrd L1.CLOSING c = 0 ∨ (s.l1run c).filled = false → exec (.l1ChannelCloseEnd c) s = .next s)

/-- R109, R112, R114, R118, R121, R146, R151, R153, R154, R156, R157, R159, R165 to R173, R343, R561, R568: the IV
descriptor of a frame, frames from the line, count words, verdicts on tags and the end of Quarantine. That a second
disagreeing word is the first of the new acquisition, and that the frame before it then has no tag, are the model's
choices (assumption log). Where the spec leaves a point open it is the model's: log entries 66, 67, 68. -/
def Obligations.L1Receive : Prop :=
  ∀ (s : State) (c : Channel),
    let g := chanGroup c
    let x := s.l1run c
    let runs := s.l1Chan c = true ∧ s.rd FRM_CTL.RX_EN g = 1
    let quiet := x.judge = none ∧ x.longReady = false
    let lf := fun (t : State) => t.emit (.localFault c)
    let s0 := s.finishLeaving c
    (∀ r bad, ¬(runs ∧ quiet) → s.rd FRM_CTL.RX_EN g ≤ 1 → exec (.l1RxFrame c r bad) s = .next s) ∧
    (x.leaving = none → s0 = s) ∧
    (∀ f, x.leaving = some f → f.skip = 0 → f.plain ≠ [] → (s0.l1run c).leaving = none ∧
      s0.out = (match f.cut with
        | none => .clientOdu c f.count f.trust f.plain :: s.out
        | some 0 => .localFault c :: s.out
        | some (p + 1) => .localFault c :: .clientOdu c f.count f.trust (f.plain.take (p + 1)) :: s.out)) ∧
    (∀ overhead payload bdi bad, runs → quiet → s.otuGood g = true → s.chHas c 5 = false →
      let r : OduRx := .frame overhead payload bdi
      let mfas := (overhead.getD 6 0).toNat
      let fas := decide (slice overhead 1 4 = [0xF6, 0xF6, 0x28, 0x28])
      let a := x.align.step fas mfas
      let b := ((((s0.alignOdu c fas (some mfas)).chDefect c 1 false).chDefect c 2 false).chDefect c 3 false).chDefect c 4 bdi
      Gives (exec (.l1RxFrame c r bad) s) fun u => OtherChannels s u c ∧
        (a.inFrame = false → u = lf (b.askVerdict c none)) ∧
        (a.inFrame = true → s.rrd L1.EN c = 0 → u = lf (b.askVerdict c none)) ∧
        (a.inFrame = true → s.rrd L1.EN c = 1 → s.rrd L1.CNT_LOCK c = 0 → u.out = .localFault c :: s0.out ∧
          u.ctr Ctrs.FILL_RX c = (if ((b.cooFrom g overhead).headD 0).toNat.testBit 4 then (s.ctr Ctrs.FILL_RX c).add 1
            else s.ctr Ctrs.FILL_RX c)) ∧
        (a.inFrame = true → s.rrd L1.EN c = 1 → s.rrd L1.CNT_LOCK c = 1 →
          u.rrd L1.RX_COUNT c % 256 = mfas ∧ (u.l1run c).align = a)) ∧
    (∀ bad, runs → quiet → Gives (exec (.l1RxFrame c .lost bad) s) fun u => OtherChannels s u c ∧
      (u.l1run c).align.inFrame = (x.align.step false ((match x.align.mfas with | some e => (e + 1) % 256 | none => 0))).inFrame ∧
      (s.rrd L1.EN c = 1 → s.rrd L1.CNT_LOCK c = 1 → (u.l1run c).align.inFrame = true →
        u.rrd L1.RX_COUNT c = (s.rrd L1.RX_COUNT c + 1) % 2 ^ 64)) ∧
    (∀ n slot, n % 256 ≠ 0 → x.sel = slot + 2 → s.flows g 1 = true → s.rd WEI_GRP_CFG.CLOSING g = 0 →
      s.usable 1 (2 * c.val + slot) = true →
      let y := s.kslot 1 (2 * c.val + slot)
      ∃ lane, ((s.issueRx c n false).l1run c).rxDesc = some { count := n, keys := [{ slot := slot, epoch := y.epoch, gen := y.gen
                                                                                     key := some (slice y.key 0 32) }]
                                                              ks := { iv := beBytes 2 ((1 - s.rd FRM_L1CTL.ROLE g) * 2 ^ 15 +
                                                                        s.rrd L1.PEER_CHAN c % 2 ^ 12) ++ beBytes 2 y.epoch ++ beBytes 8 n
                                                                      lane := lane, total := 953 } }) ∧
    (∀ d k nib, x.rxDesc = some d → d.keys.filter (fun y => decide (y.epoch % 16 = nib)) = [k] → k.epoch < 2 ^ 16 →
      let u := s.chooseSlot c nib
      (u.l1run c).sel = 2 + k.slot ∧ u.rrd L1.RX_EPOCH c = k.epoch ∧
      (d.keys.length = 1 → u.counters = s.counters)) ∧
    (∀ n ks k key coo payload tag,
      let span := slice payload 0 15232
      let r := Crypto.gcm true key ks.iv (coo.take 2) span
      let f : RxFrame := { count := n, plain := r.1, tag := r.2.take 4, cipher := span, slot := k.slot, ks := ks }
      let u := s.decryptRx c n ks k key coo payload tag
      u.ctr Ctrs.FRAMES_RX c = (s.ctr Ctrs.FRAMES_RX c).add 1 ∧
      (x.judge = none → ∀ f', x.pend = some f' → (u.l1run c).judge = some (f', tag) ∧ (u.l1run c).next = some f ∧
        u.out = s.out) ∧
      (x.judge = none → x.pend = none → x.leaving = none → s.rrd L1.POLICY c = 0 → (u.l1run c).pend = some f ∧
        u.out = s.out ∧ (u.l1run c).leaving = some { count := n, plain := r.1, trust := .unverified
                                                     cut := if s.rrd L1.QUAR c = 1 then some 0 else none })) ∧
    (∀ (word : Word) check last,
      let w := word.toNat
      let o := exec (.countWordRx c word check last) s
      let ok := check = (beBytes 8 w).foldl (fun a b => a ^^^ b) 0x5A
      let up := runs ∧ s.rrd L1.EN c = 1 ∧ x.align.inFrame = true
      (s.rrd L1.EN c = 0 → o = .next s) ∧
      (up → ¬ok → Gives o fun u => (u.l1run c).word = none ∧ OtherChannels s u c ∧ u.recs = s.recs ∧ u.regs = s.regs ∧
        u.ctr Ctrs.CW_BAD c = (s.ctr Ctrs.CW_BAD c).add 1) ∧
      (up → ok → s.rrd L1.CNT_LOCK c = 0 → Gives o fun u => OtherChannels s u c ∧
        (last.toNat % 2 = s.rd FRM_L1CTL.ROLE g → u.rrd L1.ROLE_CONF c = 1) ∧
        (x.word = some ((w + 2 ^ 64 - 256) % 2 ^ 64) → u.rrd L1.CNT_LOCK c = 1 ∧ u.rrd L1.RX_COUNT c = (w + 12) % 2 ^ 64) ∧
        (x.word ≠ some ((w + 2 ^ 64 - 256) % 2 ^ 64) → u.rrd L1.CNT_LOCK c = 0 ∧ (u.l1run c).word = some w)) ∧
      (up → ok → s.rrd L1.CNT_LOCK c = 1 → Gives o fun u => OtherChannels s u c ∧
        (w = s.rrd L1.RX_COUNT c / 256 * 256 → u.rrd L1.CNT_LOCK c = 1 ∧ (u.l1run c).disagree = false) ∧
        (w ≠ s.rrd L1.RX_COUNT c / 256 * 256 → x.disagree = false → u.rrd L1.CNT_LOCK c = 1 ∧
          (u.l1run c).disagree = true ∧ u.ctr Ctrs.CW_DISAGREE c = (s.ctr Ctrs.CW_DISAGREE c).add 1) ∧
        (w ≠ s.rrd L1.RX_COUNT c / 256 * 256 → x.disagree = true → u.rrd L1.CNT_LOCK c = 0 ∧ (u.l1run c).word = some w))) ∧
    (∀ rel l, x.judge = none → exec (.shortTagVerdict c rel l) s = .next s) ∧
    (∀ rel l f tag, x.judge = some (f, tag) → x.next = none → f.ghash = [] →
      let pass := tag = some f.tag ∧ x.vetoShort = false
      Gives (exec (.shortTagVerdict c rel l) s) fun u => (u.l1run c).judge = none ∧ OtherChannels s u c ∧
        (pass → s.rrd L1.POLICY c = 0 → u.recs = s.recs ∧ u.out = .oduTrust c f.count .verified :: s.out ∧
          u.counters = s.counters) ∧
        (pass → s.rrd L1.POLICY c = 1 → f.held = false → u.out.head? = some (.localFault c) ∧
          u.ctr Ctrs.HOLD_ERR c = (s.ctr Ctrs.HOLD_ERR c).add 1) ∧
        (¬pass → u.ctr Ctrs.SHORT_FAIL c = (s.ctr Ctrs.SHORT_FAIL c).add 1 ∧ (u.l1run c).passes = 0 ∧
          (s.rrd L1.POLICY c = 0 → u.rrd L1.UNTRUSTED c = 1 ∧
            u.ctr Ctrs.REL_UNTRUSTED c = (s.ctr Ctrs.REL_UNTRUSTED c).add rel) ∧
          (s.rrd L1.POLICY c = 1 → u.rrd L1.UNTRUSTED c = s.rrd L1.UNTRUSTED c ∧ u.out.head? = some (.localFault c) ∧
            u.ctr Ctrs.STOMPED c = (s.ctr Ctrs.STOMPED c).add l.length))) ∧
    (∀ rel l f tag k unit, x.judge = some (f, tag) → x.next = none → s.computing g c = [k] → Tbl.get none f.ghash k = some unit →
      Gives (exec (.shortTagVerdict c rel l) s) fun u => (u.l1run c).judge = none ∧ u.rd RC_STAT.FLAGGED k = 1 ∧
        u.ctr Ctrs.SHORT_FAIL c = s.ctr Ctrs.SHORT_FAIL c ∧ (s.rrd L1.POLICY c = 0 → u.out = s.out) ∧
        (s.rrd L1.POLICY c = 1 → u.out = .localFault c :: s.out)) ∧
    (∀ rel l, x.longReady = false ∨ x.judge ≠ none → exec (.longTagVerdict c rel l) s = .next s) ∧
    (∀ rel l, x.longReady = true → x.judge = none →
      Gives (exec (.longTagVerdict c rel l) s) fun u => OtherChannels s u c ∧ (u.l1run c).longReady = false ∧
        (x.longTag = none ∨ x.fragOk = false → u.ctr Ctrs.LONG_SKIP c = (s.ctr Ctrs.LONG_SKIP c).add 1 ∧
          u.recs = s.recs ∧ u.out = s.out) ∧
        (∀ t, x.longTag = some t → x.fragOk = true →
          (t = x.frags ∧ x.vetoLong = false → u.recs = s.recs ∧ u.out = .oduTrust c x.longFrom .confirmed :: s.out ∧
            u.counters = s.counters ∧
            ((u.l1run c).quarDone = true ↔ x.quarDone = true ∨
              s.rrd L1.QUAR c = 1 ∧ x.whole = some x.longFrom ∧ x.quarFirst < x.longFrom)) ∧
          (¬(t = x.frags ∧ x.vetoLong = false) → u.rrd L1.UNTRUSTED c = 1 ∧
            u.ctr Ctrs.LONG_FAIL c = (s.ctr Ctrs.LONG_FAIL c).add 1))) ∧
    (∀ k p, let u := s.untrusted c k p
      u.rrd L1.UNTRUSTED c = 1 ∧ OtherChannels s u c ∧
      (∀ e, s.orderFor 0x02 c = some e → e.flags.testBit 3 = true → u.rrd L1.QUAR c = 1 ∧
        (s.rrd L1.QUAR c = 0 → (u.l1run c).quarFirst =
          match x.leaving with | some f => f.count | none => s.rrd L1.RX_COUNT c)) ∧
      ((∀ e, s.orderFor 0x02 c = some e → e.flags.testBit 3 = false) → u.rrd L1.QUAR c = s.rrd L1.QUAR c)) ∧
    (∀ resume,
      let now := match x.leaving with | some f => f.count | none => s.rrd L1.RX_COUNT c
      let ends := s.rrd L1.QUAR c = 1 ∧ x.quarDone = true ∧ x.quarFrom ≤ now
      (¬ends → exec (.quarantineEnd c resume) s = .next s) ∧
      (ends → Gives (exec (.quarantineEnd c resume) s) fun u => u.rrd L1.QUAR c = 0 ∧ (u.l1run c).quarDone = false ∧
        (u.l1run c).leaving = (match resume with
          | some p => x.leaving.map fun (f : Leaving) => { f with cut := none, skip := p }
          | none => x.leaving) ∧
        OtherChannels s u c ∧ u.keys = s.keys ∧ u.ctr Ctrs.QUAR_FRAMES c = s.ctr Ctrs.QUAR_FRAMES c ∧
        (s.twin g = false → u.regs = s.regs ∧ u.out = s.out)))

/-- R144, R152, R161, R162, R166, R172, R180 to R183, R579: the registers and commands of L1 channels, with the host
errors of a COO at the place of an octet in use and of a hold area outside Sealed memory. That the commands but
WRITE's EN take any slot below 160 is the model's choice (assumption log). Where the spec leaves a point open it is
the model's: log entry 67. -/
def Obligations.L1Commands : Prop :=
  ∀ (s : State) (g : Group) (slot : Byte),
    let c := g.val * 160 + slot.toNat
    let k := slot.toNat
    let im := s.l1Image g
    let t := s.rrd L1.TX_SLOT c
    let idle := s.rd FRM_L1CMD.BUSY g = 0
    let done := fun (u : State) op => L1Answers u g op k 0 ∧ RegsKept s u [Reg.off .FRM_L1CMD g 0]
    (∀ v, rsvdOk .FRM_COOPOS v = false → exec (.frmCooposWrite g v) s = .fault .hostError) ∧
    (∀ v, rsvdOk .FRM_COOPOS v = true →
      let may := CooPlaces v.toNat ∧ (s.l1Enabled g = [] ∨ v = s.reg .FRM_COOPOS g)
      let places := fun (w : Nat) => (List.range 8).map fun i => bits w (6 * i + 5) (6 * i)
      let clash := (may → s.gccAt g true (places v.toNat) = true) ∧
        (¬may → s.gccAt g true (places (s.reg .FRM_COOPOS g).toNat) = true)
      (clash → exec (.frmCooposWrite g v) s = .fault .hostError) ∧
      (may → ¬clash → Gives (exec (.frmCooposWrite g v) s) fun u =>
        (∀ i, i < 8 → bits (u.reg .FRM_COOPOS g).toNat (6 * i + 5) (6 * i) = bits v.toNat (6 * i + 5) (6 * i)) ∧ OnlyRegs s u [Reg.off .FRM_COOPOS g 0]) ∧
      (¬may → ¬clash → Gives (exec (.frmCooposWrite g v) s) fun u => u.rd FRM_L1CTL.REJECT g = 1 ∧ OnlyRegs s u [Reg.off .FRM_L1CTL g 0])) ∧
    (∀ v, rsvdOk .FRM_L1CTL v = true →
      let role := FRM_L1CTL.ROLE.of v
      (role = s.rd FRM_L1CTL.ROLE g ∨ s.l1Enabled g = [] → Gives (exec (.frmL1ctlWrite g v) s) fun u =>
        u.rd FRM_L1CTL.ROLE g = role ∧ (FRM_L1CTL.REJECT.of v = 1 → u.rd FRM_L1CTL.REJECT g = 0) ∧
        (FRM_L1CTL.REJECT.of v = 0 → u.rd FRM_L1CTL.REJECT g = s.rd FRM_L1CTL.REJECT g) ∧
        OnlyRegs s u [Reg.off .FRM_L1CTL g 0]) ∧
      (role ≠ s.rd FRM_L1CTL.ROLE g → s.l1Enabled g ≠ [] → Gives (exec (.frmL1ctlWrite g v) s) fun u =>
        u.rd FRM_L1CTL.REJECT g = 1 ∧ u.rd FRM_L1CTL.ROLE g = s.rd FRM_L1CTL.ROLE g ∧ OnlyRegs s u [Reg.off .FRM_L1CTL g 0])) ∧
    (∀ v, rsvdOk .FRM_L1HOLD v = true →
      let bad := FRM_L1HOLD.EN.of v = 1 ∧ 65531 < FRM_L1HOLD.BASE_MB.of v
      (bad → Gives (exec (.frmL1holdWrite g v) s) fun u => u.rd FRM_L1CTL.REJECT g = 1 ∧ OnlyRegs s u [Reg.off .FRM_L1CTL g 0]) ∧
      (¬bad → Gives (exec (.frmL1holdWrite g v) s) fun u => u.rd FRM_L1HOLD.EN g = FRM_L1HOLD.EN.of v ∧
        u.rd FRM_L1HOLD.BASE_MB g = FRM_L1HOLD.BASE_MB.of v ∧ OnlyRegs s u [Reg.off .FRM_L1HOLD g 0])) ∧
    (∀ i ∈ [Instr.l1Read g slot, .l1Write g slot, .l1Switch g slot, .l1Retire g slot, .qclr g slot, .l1CmdInvalid g 0 slot,
      .l1CmdInvalid g 1 slot, .l1CmdInvalid g 2 slot], ¬idle → Gives (exec i s) fun u => u.rd FRM_L1CTL.CMD_DROP g = 1 ∧
        OnlyRegs s u [Reg.off .FRM_L1CTL g 0]) ∧
    (idle → 160 ≤ k → L1Refuses s (exec (.l1Read g slot) s) g 0 k 1 ∧ L1Refuses s (exec (.l1Write g slot) s) g 1 k 1 ∧
      L1Refuses s (exec (.l1Switch g slot) s) g 2 k 1 ∧ L1Refuses s (exec (.l1Retire g slot) s) g 3 k 1 ∧
      L1Refuses s (exec (.qclr g slot) s) g 4 k 1) ∧
    (∀ op : Fin 3, idle → L1Refuses s (exec (.l1CmdInvalid g op slot) s) g (5 + op.val) k 1) ∧
    (idle → k < 160 →
      (Gives (exec (.l1Read g slot) s) fun u => L1Answers u g 0 k 0 ∧
        (∀ w, w < 6 → w ≠ 3 → u.reg .FRM_L1DATA g w = s.rword .l1 c w) ∧
        (∀ b, b < 64 → b ≠ 8 → b ≠ 9 → (u.reg .FRM_L1DATA g 3).toNat.testBit b = (s.rword .l1 c 3).toNat.testBit b) ∧
        (u.reg .FRM_L1DATA g 3).toNat.testBit 8 = s.usable 1 (2 * c) ∧
        (u.reg .FRM_L1DATA g 3).toNat.testBit 9 = s.usable 1 (2 * c + 1) ∧
        OnlyRegs s u (Reg.off .FRM_L1CMD g 0 :: (List.range 6).map fun w => Reg.off .FRM_L1DATA g w)) ∧
      (RecKind.l1.imageOk im = false → exec (.l1Write g slot) s = .fault .hostError) ∧
      (RecKind.l1.imageOk im = true →
        let en := s.rrd L1.EN c = 1
        let open' := s.rrd L1.EN c = 0 ∧ s.usable 1 (2 * c) = false ∧ s.usable 1 (2 * c + 1) = false
        let misplaced := L1.EN.of im = 1 ∧ ¬en ∧ L1.POLICY.of im = 1 ∧
          s.inSealed (s.rd FRM_L1HOLD.BASE_MB g * 2 ^ 20) (5 * 2 ^ 20) = false
        let legal := (L1.EN.of im = 1 → ¬en → s.l1Chan c = true ∧ (L1.POLICY.of im = 1 → s.rd FRM_L1HOLD.EN g = 1)) ∧
          (en → L1.POLICY.of im = s.rrd L1.POLICY c ∧ L1.PEER_CHAN.of im = s.rrd L1.PEER_CHAN c) ∧
          L1.PEER_CHAN.of im < 2880 ∧ (¬open' → L1.TX_COUNT.of im = s.rrd L1.TX_COUNT c) ∧ s.rrd L1.CLOSING c = 0
        (¬legal → L1Refuses s (exec (.l1Write g slot) s) g 1 k 5) ∧
        (legal → misplaced → exec (.l1Write g slot) s = .fault .hostError) ∧
        (legal → ¬misplaced → Gives (exec (.l1Write g slot) s) fun u => done u 1 ∧ u.rrd L1.POLICY c = L1.POLICY.of im ∧
          u.rrd L1.PEER_CHAN c = L1.PEER_CHAN.of im ∧ u.rrd L1.TX_COUNT c = L1.TX_COUNT.of im ∧
          u.rrd L1.UNTRUSTED c = (if L1.UNTRUSTED.of im = 1 then 0 else s.rrd L1.UNTRUSTED c) ∧
          u.rrd L1.ROLE_CONF c = (if L1.ROLE_CONF.of im = 1 then 0 else s.rrd L1.ROLE_CONF c) ∧
          (L1.EN.of im = 1 → u.rrd L1.EN c = 1 ∧ u.rrd L1.CLOSING c = 0) ∧
          (L1.EN.of im = 0 → en → u.rrd L1.EN c = 1 ∧ u.rrd L1.CLOSING c = 1) ∧
          (L1.EN.of im = 0 → ¬en → u.rrd L1.EN c = 0 ∧ u.rrd L1.CLOSING c = 0) ∧
          (∀ f ∈ [L1.TX_EPOCH, L1.RX_EPOCH, L1.RX_COUNT, L1.SW_FRAME, L1.QUAR, L1.CNT_LOCK, L1.SW_PEND, L1.RET_PEND,
            L1.TX_SLOT, L1.GAP_FIRST, L1.GAP_LAST], u.rrd f c = s.rrd f c) ∧
          OtherChannels s u c ∧ u.keys = s.keys ∧ RecsKept s u ((List.range 6).map (RecKind.key .l1 c)))) ∧
      (let ready := s.usable 1 (2 * c + (1 - t)) = true ∧ s.l1Epoch c (1 - t) = (s.rrd L1.TX_EPOCH c + 1) % 2 ^ 16
       let f := L1.SW_FRAME.of im
       let past := s.rd GAU_STAT.RUN g = 1 ∧ atOrAfter (s.gauge g) (reading f 0) = true
       (¬ready → L1Refuses s (exec (.l1Switch g slot) s) g 2 k 2) ∧
       (ready → s.rrd L1.SW_PEND c = 1 → L1Refuses s (exec (.l1Switch g slot) s) g 2 k 3) ∧
       (ready → s.rrd L1.SW_PEND c = 0 → s.rd GAU_STAT.RUN g ≤ 1 → Gives (exec (.l1Switch g slot) s) fun u =>
         L1Answers u g 2 k 0 ∧ u.rrd L1.SW_FRAME c = f ∧ u.keys = s.keys ∧ u.l1 = s.l1 ∧
         (past → u.rrd L1.SW_PEND c = 0 ∧ u.rrd L1.TX_SLOT c = 1 - t ∧ u.rrd L1.TX_EPOCH c = s.l1Epoch c (1 - t) % 2 ^ 16 ∧
           u.rd GAU_STAT.PAST g = 1) ∧
         (¬past → u.rrd L1.SW_PEND c = 1 ∧ u.rrd L1.TX_SLOT c = t ∧ u.rrd L1.TX_EPOCH c = s.rrd L1.TX_EPOCH c))) ∧
      (s.rrd L1.RET_PEND c = 1 → L1Refuses s (exec (.l1Retire g slot) s) g 3 k 6) ∧
      (s.rrd L1.RET_PEND c = 0 → s.retiring c = none → L1Refuses s (exec (.l1Retire g slot) s) g 3 k 4) ∧
      (∀ r, s.rrd L1.RET_PEND c = 0 → s.retiring c = some r → Gives (exec (.l1Retire g slot) s) fun u => done u 3 ∧
        u.rrd L1.RET_PEND c = 1 ∧ (u.l1run c).retire = r ∧ u.keys = s.keys ∧ OtherChannels s u c) ∧
      (Gives (exec (.qclr g slot) s) fun u => done u 4 ∧ u.recs = s.recs ∧ OtherChannels s u c ∧
        (s.rrd L1.QUAR c = 1 → (u.l1run c).quarDone = true) ∧ (s.rrd L1.QUAR c = 0 → u.l1 = s.l1))) ∧
    (∀ ch : Channel,
      let x := s.l1run ch
      let other := 1 - x.retire
      let passed := x.txSeven = some (other, (s.kslot 1 (2 * ch.val + other)).gen) ∧
        x.rxSeven = some (other, (s.kslot 1 (2 * ch.val + other)).gen)
      let old := s.kslot 1 (2 * ch.val + x.retire)
      (¬(s.rrd L1.RET_PEND ch = 1 ∧ passed) → exec (.retirementComplete ch) s = .next s) ∧
      (s.rrd L1.RET_PEND ch = 1 → passed → Gives (exec (.retirementComplete ch) s) fun u => u.rrd L1.RET_PEND ch = 0 ∧
        (u.kslot 1 (2 * ch.val + x.retire)).valid = false ∧ (u.kslot 1 (2 * ch.val + x.retire)).key = [] ∧
        (u.kslot 1 (2 * ch.val + x.retire)).gen = (old.gen + 1) % 64 ∧ u.regs = s.regs ∧ u.l1 = s.l1))

end

namespace Sys2Proof.Claims

open Sys2Proof Sys2Proof.Machine

/-- What follows from a list of checks in their order: the first that fails decides, and none of them leaves `ok`. -/
def FirstCode (fails : Nat → Prop) (ok : Prop) : List (Nat × Prop) → Prop
  | [] => ok
  | (c, p) :: t => (p → fails c) ∧ (¬p → FirstCode fails ok t)

/-- The KDER instructions with the OP of each (R391). -/
def kderTable (t : ThreadNo) (tag : BitVec 8) (rs : GReg) : List (Nat × Instr) :=
  [(0x01, .kderDerive t tag rs), (0x02, .kderEnc t tag rs), (0x03, .kderDec t tag rs), (0x04, .cmacGen t tag rs),
   (0x05, .cmacChk t tag rs), (0x06, .kderWrap t tag rs), (0x07, .kderUnwrap t tag rs), (0x08, .mkaDerive t tag rs),
   (0x09, .sakUnwrap t tag rs), (0x0A, .sakGen t tag rs), (0x0B, .icvGen t tag rs), (0x0C, .icvChk t tag rs),
   (0x10, .unrexInit t tag rs), (0x11, .unrexResp t tag rs), (0x12, .unrexFinish t tag rs), (0x13, .unrexConfirm t tag rs),
   (0x14, .unrexCancel t tag rs), (0x15, .attest t tag rs), (0x16, .cekRead t tag rs), (0x18, .dsImport t tag rs),
   (0x19, .cakImport t tag rs), (0x1A, .cakRemove t tag rs)]

/-- A slot holds the key that a descriptor has written (R244, R245, R250, R251). -/
def KeyWritten (s u : State) (cls i : Nat) (d key : Octets) (parent epoch : Nat) (short : Bool) : Prop :=
  let x := u.kslot cls i
  x.valid = true ∧ x.key = key ∧ x.parent = parent ∧ x.epoch = epoch % 2 ^ 16 ∧
  x.gen = ((s.kslot cls i).gen + 1) % 64 ∧ x.useEn = (descFlags d).testBit 0 ∧ x.use = descField d 24 8 ∧
  x.resetExp = ((descFlags d).testBit 1 || decide (cls = 2)) ∧ x.short = short

/-- Every slot but those named is as before. -/
def SlotsKept (s u : State) (except : List (Nat × Nat)) : Prop :=
  ∀ c i, c < 4 → i < 2 ^ 24 → (c, i) ∉ except → u.kslot c i = s.kslot c i

/-- Every slot but those named is as before; but another SA of the SC, without a usable key, may have given up its way of
the two, its GEN alone kept (R243, R244). -/
def WaysKept (s u : State) (sa : Nat) (except : List (Nat × Nat)) : Prop :=
  ∀ c i, c < 4 → i < 2 ^ 24 → (c, i) ∉ except → u.kslot c i = s.kslot c i ∨
    c = 0 ∧ i / 4 = sa / 4 ∧ s.usable 0 i = false ∧
      u.kslot 0 i = { gen := ((s.kslot 0 i).gen + b2n (s.kslot 0 i).valid) % 64 }

/-- `n` uses have been taken from a key that counts them (R252). -/
def UsesTaken (s u : State) (cls i n : Nat) : Prop :=
  u.kslot cls i = if (s.kslot cls i).useEn then { s.kslot cls i with use := (s.kslot cls i).use - n } else s.kslot cls i

/-- The checks of a slot that is to be written: swept, in use, full (R243, R249, R256). -/
def targetCodes (s : State) (cls i : Nat) : List (Nat × Prop) :=
  [(14, s.rd KST_STAT.SWEEP = 1 ∧ (s.kslot cls i).valid = true ∧ s.usable cls i = false), (4, s.slotInUse cls i = true),
   (3, s.usable cls i = true ∨ cls = 0 ∧ 2 ≤ s.otherWays i)]

/-- A session closes without a root (R269, R281). -/
def SessionFails (s u : State) (n : Nat) : Prop :=
  u.session n = none ∧ (∀ k, k ≠ n → u.session k = s.session k) ∧ u.ctr Ctrs.HS_FAIL = (s.ctr Ctrs.HS_FAIL).add 1 ∧
  u.keys.slots = s.keys.slots

end Sys2Proof.Claims

section

open Sys2Proof Sys2Proof.Machine Sys2Proof.Claims

/-- R238, R261, R272, R281, R388, R390, R391, R607: the KDER instructions, and what each meets when it is accepted. -/
def Sys2Proof.Claims.KderAcceptance : Prop :=
  (∀ (s b : State) (t : ThreadNo) (tag : BitVec 8) (rs : GReg) (d : Octets), Calls s 0x50 t tag.toNat rs d b →
    (∀ e ∈ kderTable t tag rs, descOp d = e.1 → Launches s 0x50 t tag.toNat d b kderAccept (exec e.2 s)) ∧
    (descOp d ∉ (kderTable t tag rs).map Prod.fst ∨ kderLenOk d = false →
      Launches s 0x50 t tag.toNat d b kderAccept (exec (.kderInvalid t tag rs) s))) ∧
  ∀ (s : State) (o : EngineOp),
    let d := o.desc
    let op := descOp d
    let m := s.rd GBL_MODE.MODE
    let r := kderAccept o s
    let permitted := 2 ≤ m ∧ (m = 10 ∨ m = 11 → op = 0x16) ∧ (op = 0x18 → m = 3 ∨ m = 4) ∧
      (op = 0x19 ∨ op = 0x1A → 3 ≤ m ∧ m ≤ 6) ∧
      (m = 8 → op = 0x01 ∨ op = 0x09 ∨ op = 0x0A → 2 ≤ handleClass (descObject d))
    FirstCode (fun st => r.1 = { o with acted := true, status := st } ∧ r.2 = { s with counters := r.2.counters } ∧
        (op = 0x01 → r.2.ctr Ctrs.DERIVE_FAIL = (s.ctr Ctrs.DERIVE_FAIL).add 1) ∧
        (op = 0x18 ∨ op = 0x19 → r.2.ctr Ctrs.IMPORT_FAIL = (s.ctr Ctrs.IMPORT_FAIL).add 1) ∧
        (op ∉ [0x01, 0x18, 0x19] → r.2 = s))
      (∃ k, 0 < k ∧ k < 16 ∧ SPR_PGOWN.OWNER.of (s.pageOwner k) = o.colour ∧ SPR_PGOWN.EN.of (s.pageOwner k) = 1 ∧
        r = ({ o with page := k }, s))
      [(1, kderForm d = false), (12, s.pageOf o.colour = none), (7, 0x18 ≤ op ∧ s.present = false), (8, ¬permitted),
       (1, kderLenOk d = false)]

/-- R243 to R252, R263: DERIVE, and the ciphers, CMACs and wraps with a general-purpose key. -/
def Sys2Proof.Claims.KeyDerivation : Prop :=
  ∀ (s : State) (d data : Octets),
    let r := s.kderAct d data
    let tc := handleClass (descObject d)
    let ti := handleIndex (descObject d)
    let p := descField d 16 4
    let pc := handleClass p
    let pi := handleIndex p
    let op := descOp d
    let refused := fun st => r = ({ status := st }, s)
    (op = 0x01 →
      let purpose := beNat (slice data 0 4)
      FirstCode refused
        (r.1.status = 0 ∧ r.1.out = [] ∧ r.1.result = tc * 2 ^ 30 + ((s.kslot tc ti).gen + 1) % 64 * 2 ^ 24 + ti ∧
          KeyWritten s r.2 tc ti d (kdf (s.kslot pc pi).key data (if (descFlags d).testBit 2 then 128 else 256)) p
            (beNat (slice data 16 4)) ((descFlags d).testBit 2) ∧
          UsesTaken s r.2 pc pi 1 ∧ (tc ≠ 0 → SlotsKept s r.2 [(tc, ti), (pc, pi)]) ∧ r.2.regs = s.regs ∧
          (tc = 0 → WaysKept s r.2 ti [(tc, ti), (pc, pi)]) ∧
          (tc = 0 → r.2.rrd SA.EXHAUST ti = 0 ∧ r.2.rrd SA.PN_LOST ti = 0) ∧
          (tc = 1 → ti % 2 = s.rrd L1.TX_SLOT (ti / 2) → r.2.rrd L1.TX_EPOCH (ti / 2) = beNat (slice data 16 4) % 2 ^ 16))
        ([(1, slotIndexValid tc ti = false ∨ slotIndexValid pc pi = false),
          (5, ¬(purpose = 1 ∧ tc = 1 ∧ pc = 2 ∨ purpose = 2 ∧ tc = 0 ∧ pc = 2 ∨
                purpose = 0x40 ∧ tc = 3 ∧ 0x200000 ≤ ti ∧ (pc = 2 ∨ pc = 3 ∧ pi = 2)))] ++ targetCodes s tc ti ++
         [(2, s.keyMissing p 1 = true)])) ∧
    (2 ≤ op → op ≤ 7 →
      let key := (s.kslot 3 pi).octets
      let n := kderBlocks d
      let v := generalData d key data
      FirstCode refused
        ((∀ o, v = some o → r.1.status = 0 ∧ r.1.out = o) ∧ (v = none → r.1.status = 6 ∧ r.1.out = []) ∧
          (s.kslot 3 pi).gen = handleGen p ∧ s.usable 3 pi = true ∧ UsesTaken s r.2 3 pi n ∧ SlotsKept s r.2 [(3, pi)] ∧
          r.2 = { s with keys := r.2.keys } ∧
          (op = 4 → v = some (Crypto.cmac key data)) ∧
          (op = 5 → v = if Crypto.cmac key data = slice d 48 16 then some [] else none) ∧
          (op = 6 → v = some (Crypto.keyWrap key data)) ∧ (op = 7 → v = Crypto.keyUnwrap key data))
        [(1, descObject d ≠ 0 ∨ slotIndexValid pc pi = false), (5, ¬(pc = 3 ∧ 0x200000 ≤ pi)),
         (2, s.keyMissing p n = true)])

/-- R214 to R216, R243 to R245, R257, R278: the MKA operations. -/
def Sys2Proof.Claims.MkaOperations : Prop :=
  ∀ (s : State) (d data : Octets),
    let r := s.kderAct d data
    let c := descField d 20 4
    let cak := s.kslot 3 (0x80000 + c)
    let kek := s.kslot 3 (0x100000 + 2 * c)
    let ick := s.kslot 3 (0x100000 + 2 * c + 1)
    let kekOk := s.usable 3 (0x100000 + 2 * c) = true
    let tc := handleClass (descObject d)
    let ti := handleIndex (descObject d)
    let op := descOp d
    let refused := fun st => r = ({ status := st }, s)
    let swept := fun i => s.rd KST_STAT.SWEEP = 1 ∧ (s.kslot 3 i).valid = true ∧ s.usable 3 i = false
    let sak := [(1, 256 ≤ c ∨ slotIndexValid tc ti = false), (5, tc ≠ 0)] ++ targetCodes s tc ti ++ [(2, ¬kekOk)]
    let written := fun key short => r.1.status = 0 ∧ KeyWritten s r.2 0 ti d key 0xFFFFFFFF 0 short ∧
      (r.2.kslot 0 ti).cak = some c ∧ r.1.result = ((s.kslot 0 ti).gen + 1) % 64 * 2 ^ 24 + ti ∧
      WaysKept s r.2 ti [(0, ti)] ∧ r.2.rrd SA.EXHAUST ti = 0 ∧ r.2.rrd SA.PN_LOST ti = 0
    (op = 0x08 → FirstCode refused
      (r.1.status = 0 ∧ SlotsKept s r.2 [(3, 0x80000 + c), (3, 0x100000 + 2 * c), (3, 0x100000 + 2 * c + 1)] ∧
        UsesTaken s r.2 3 (0x80000 + c) 1 ∧ ∃ ckn : Octets, ckn.length = 16 ∧
        (∀ x, Tbl.get none s.cistern.caks c = some x → ckn = slice (x.ckn.take x.cknLen) 0 16) ∧
        ∀ e ∈ [(0x100000 + 2 * c, labelKek), (0x100000 + 2 * c + 1, labelIck)],
          KeyWritten s r.2 3 e.1 d (mkaKdf cak.octets e.2 ckn (if cak.short then 16 else 32)) (s.handle 3 (0x80000 + c)) 0
            cak.short)
      [(1, descObject d ≠ 0 ∨ 256 ≤ c), (14, swept (0x100000 + 2 * c) ∨ swept (0x100000 + 2 * c + 1)),
       (3, s.usable 3 (0x100000 + 2 * c) = true ∨ s.usable 3 (0x100000 + 2 * c + 1) = true),
       (2, s.usable 3 (0x80000 + c) = false ∨ cak.useEn = true ∧ cak.use = 0 ∨
         ∃ x, Tbl.get none s.cistern.caks c = some x ∧ x.bad = true)]) ∧
    (op = 0x09 → FirstCode refused
      (r.1.out = [] ∧ ∃ key, Crypto.keyUnwrap kek.octets data = some key ∧ written key (decide (data.length = 24)))
      (sak ++ [(6, Crypto.keyUnwrap kek.octets data = none)])) ∧
    (op = 0x0A → FirstCode refused
      (∃ key : Octets, key.length = (if (descFlags d).testBit 2 then 16 else 32) ∧ r.1.out = Crypto.keyWrap kek.octets key ∧
        written key ((descFlags d).testBit 2)) sak) ∧
    (op = 0x0B → FirstCode refused (r = ({ status := 0, out := Crypto.cmac ick.octets data }, s))
      [(1, descObject d ≠ 0 ∨ 256 ≤ c), (2, s.usable 3 (0x100000 + 2 * c + 1) = false)]) ∧
    (op = 0x0C → FirstCode refused (r = ({ status := 0 }, s))
      [(1, descObject d ≠ 0 ∨ 256 ≤ c), (2, s.usable 3 (0x100000 + 2 * c + 1) = false),
       (6, Crypto.cmac ick.octets data ≠ slice d 48 16)])

/-- R265 to R270, R281: the Unrex handshake, and sessions that run out of time. -/
def Sys2Proof.Claims.UnrexHandshake : Prop :=
  (∀ (s : State) (d data : Octets),
    let r := s.kderAct d data
    let op := descOp d
    let l := handleIndex (descObject d)
    let n := descField d 20 4
    let auth := (s.kslot 3 4).octets
    let refused := fun st => r = ({ status := st }, s)
    let start := [(1, slotIndexValid (handleClass (descObject d)) l = false), (5, handleClass (descObject d) ≠ 2),
      (9, s.rd KST_CISTAT.DS_VALID = 0), (10, s.freeSession = none)]
    let head := fun (m : Octets) typ => m.length = 1725 ∧ m.take 2 = [1, BitVec.ofNat 8 typ] ∧ beNat (slice m 2 2) = 1741 ∧
      slice m 8 8 = s.domainId ∧ beNat (slice m 16 8) = s.deviceId ∧ slice m 56 2 = [0, 1]
    let opened := fun (x : Session) => (∃ k, s.freeSession = some k ∧ r.1.result = k ∧ r.2.session k = some x ∧
      ∀ j, j ≠ k → r.2.session j = s.session j) ∧ x.slot = l ∧ x.opened = s.tick ∧ r.2.keys.slots = s.keys.slots
    let rooted := fun (x : Session) root peer => r.1.status = 0 ∧ r.2.session n = none ∧
      KeyWritten s r.2 2 x.slot d root (s.handle 3 4) 0 false ∧ (r.2.kslot 2 x.slot).peer = peer ∧
      r.1.result = 2 * 2 ^ 30 + ((s.kslot 2 x.slot).gen + 1) % 64 * 2 ^ 24 + x.slot ∧ SlotsKept s r.2 [(2, x.slot)] ∧
      r.2.ctr Ctrs.HS_OK = (s.ctr Ctrs.HS_OK).add 1
    let step := fun (st : Nat) => r.1.status = st ∧ (st ≠ 11 → st ≠ 6 → r.2 = s) ∧
      (st = 11 → SessionFails s r.2 n ∧ r.2.rd PKE_STAT.MSG_BAD = 1) ∧
      (st = 6 → SessionFails s r.2 n ∧ r.2.rd PKE_STAT.AUTH_FAIL = 1)
    let authGone := fun (x : Session) => s.usable 3 4 = false ∨ s.handle 3 4 ≠ x.auth
    (op = 0x10 → FirstCode refused
      (r.1.status = 0 ∧ ∃ x m, opened x ∧ x.initiator = true ∧ r.1.out = m ++ Crypto.cmac auth m ∧ x.init = r.1.out ∧
        head m 1 ∧ beNat (slice m 4 4) = x.session) (start ++ targetCodes s 2 l ++ [(2, s.usable 3 4 = false)])) ∧
    (op = 0x11 → data.length = 1741 → FirstCode
      (fun st => r.1 = { status := st } ∧ (st ≠ 11 → st ≠ 6 → r.2 = s) ∧ r.2 = { s with regs := r.2.regs } ∧
        (st = 11 → r.2.rd PKE_STAT.MSG_BAD = 1) ∧ (st = 6 → r.2.rd PKE_STAT.AUTH_FAIL = 1))
      (r.1.status = 0 ∧ ∃ x m, opened x ∧ x.initiator = false ∧ x.init = data ∧ x.resp = r.1.out ∧
        r.1.out = m ++ Crypto.cmac auth (data ++ m) ∧ head m 2 ∧ x.session = beNat (slice data 4 4) ∧
        x.peer = beNat (slice data 16 8) ∧ slice m 4 4 = slice data 4 4)
      (start ++ [(11, s.unrexBad 1 data = true)] ++ targetCodes s 2 l ++
        [(2, s.usable 3 4 = false), (6, Crypto.cmac auth (data.take 1725) ≠ data.drop 1725)])) ∧
    (op = 0x12 ∨ op = 0x13 → s.session n = none →
      FirstCode refused (refused 10) [(1, descObject d ≠ 0), (9, s.rd KST_CISTAT.DS_VALID = 0)]) ∧
    (∀ x, op = 0x12 → s.session n = some x → x.slot < 1024 → data.length = 1741 → FirstCode step
      (∃ root kconf m, unrexRoot (Crypto.p384Shared x.scalar (slice data 1628 97)) (Crypto.mlkemDecaps x.dk (slice data 60 1568))
          x.iId x.session (data.drop 1725) = (root, kconf) ∧ rooted x root (beNat (slice data 16 8)) ∧
        m.length = 16 ∧ m.take 4 = [1, 3, 0, 32] ∧ r.1.out = m ++ Crypto.cmac kconf (x.init ++ data ++ m))
      ([(1, descObject d ≠ 0), (9, s.rd KST_CISTAT.DS_VALID = 0), (10, x.initiator = false),
        (11, s.unrexBad 2 data = true ∨ beNat (slice data 4 4) ≠ x.session)] ++ targetCodes s 2 x.slot ++
       [(2, authGone x), (6, Crypto.cmac auth (x.init ++ data.take 1725) ≠ data.drop 1725)])) ∧
    (∀ x, op = 0x13 → s.session n = some x → x.slot < 1024 → data.length = 32 → FirstCode step
      (rooted x x.root x.peer ∧ r.1.out = [])
      ([(1, descObject d ≠ 0), (9, s.rd KST_CISTAT.DS_VALID = 0), (10, x.initiator = true)] ++ targetCodes s 2 x.slot ++
       [(2, authGone x), (6, Crypto.cmac x.kconf (x.init ++ x.resp ++ data.take 16) ≠ data.drop 16)])) ∧
    (op = 0x14 → FirstCode refused (r.1 = { status := 0 } ∧ SessionFails s r.2 n)
      [(1, descObject d ≠ 0), (10, s.session n = none)])) ∧
  ∀ (s : State) (now : Word),
    let b := s.timeTo now
    Gives (exec (.unrexSessionExpire now) s) fun u =>
      (∀ n x, n < 64 → s.session n = some x → (3000000000 < (b.tick - x.opened).toNat → u.session n = none) ∧
        ((b.tick - x.opened).toNat ≤ 3000000000 → u.session n = some x)) ∧
      (∀ n, s.session n = none → u.session n = none) ∧ u.keys.slots = s.keys.slots ∧
      u = { b with keys := u.keys, regs := u.regs, counters := u.counters }

/-- R237 to R240, R257, R271: attestation, the commissioning key, imports and removals. -/
def Sys2Proof.Claims.KeyImports : Prop :=
  ∀ (s : State) (d data : Octets),
    let r := s.kderAct d data
    let op := descOp d
    let c := descField d 20 4
    let refused := fun st => r = ({ status := st }, s)
    let kwk := (s.kslot 3 0).octets
    let swept := fun i => s.rd KST_STAT.SWEEP = 1 ∧ (s.kslot 3 i).valid = true ∧ s.usable 3 i = false
    let ct := slice data 0 1568
    (op = 0x15 → data.length = 16 → FirstCode refused
      (∃ b : Octets, r = ({ status := 0, out := b ++ Crypto.cmac (s.kslot 3 3).octets b }, s) ∧ b.length = 80 ∧
        b.take 3 = [1, BitVec.ofNat 8 s.chip.lcs, BitVec.ofNat 8 (s.rd GBL_MODE.MODE)] ∧
        beNat (slice b 4 8) = s.deviceId ∧ slice b 12 8 = s.domainId ∧
        leNat (slice b 68 4) = min s.cistern.tamperCount (2 ^ 32 - 1))
      [(1, descObject d ≠ 0), (9, s.rd KST_CISTAT.DS_VALID = 0), (2, s.usable 3 3 = false)]) ∧
    (op = 0x16 → FirstCode refused
      (r = ({ status := 0, out := slice (Crypto.mlkemKeys s.keys.cekSeed).1 0 1568 }, s)) [(1, descObject d ≠ 0)]) ∧
    (op = 0x18 → s.usable 3 2 = false → FirstCode refused
      (∃ secret, Crypto.keyUnwrap (s.transportKey ct 0) (slice data 1576 40) = some secret ∧ r.1.status = 0 ∧
        r.2.cistern.domain = some { domainId := slice data 1568 8, wrapped := Crypto.keyWrap kwk secret } ∧
        r.2.rd KST_CISTAT.DS_VALID = 1 ∧ (r.2.kslot 3 2).valid = true ∧ (r.2.kslot 3 2).key = secret ∧
        r.2.monotonic 1 = min (s.monotonic 1 + 1) (2 ^ 64 - 1) ∧ SlotsKept s r.2 [(3, 2), (3, 3), (3, 4)] ∧
        r.2.rd GBL_MODE.MODE = if s.rd GBL_MODE.MODE = 3 then 4 else s.rd GBL_MODE.MODE)
      [(1, descObject d ≠ 0), (14, swept 2 ∨ swept 3 ∨ swept 4), (2, s.usable 3 0 = false),
       (6, Crypto.keyUnwrap (s.transportKey ct 0) (slice data 1576 40) = none)]) ∧
    (op = 0x19 →
      let n := beNat (slice data 1568 1)
      let short := (descFlags d).testBit 2
      let i := 0x80000 + c
      let w := slice data 1601 (if short then 24 else 40)
      let cak := Crypto.keyUnwrap (s.transportKey ct (0x100 + c)) w
      let record := fun key => some { short := short, cknLen := n, ckn := slice data 1569 32, wrapped := Crypto.keyWrap kwk key }
      FirstCode refused
        (∃ key, cak = some key ∧ r.1.status = 0 ∧ KeyWritten s r.2 3 i d key 0xFFFFFFFF 0 short ∧ SlotsKept s r.2 [(3, i)] ∧
          Tbl.get none r.2.cistern.caks c = record key ∧
          (∀ k, k ≠ c → Tbl.get none r.2.cistern.caks k = Tbl.get none s.cistern.caks k) ∧
          r.2.monotonic 1 = min (s.monotonic 1 + 1) (2 ^ 64 - 1) ∧ r.2.cistern.domain = s.cistern.domain)
        [(1, descObject d ≠ 0 ∨ 256 ≤ c ∨ n = 0 ∨ 32 < n),
         (14, s.rd KST_STAT.SWEEP = 1 ∧ (s.kslot 3 i).valid = true ∧ s.usable 3 i = false),
         (3, (∃ x, Tbl.get none s.cistern.caks c = some x ∧ x.bad = false) ∨ s.usable 3 i = true),
         (2, s.usable 3 0 = false), (6, cak = none)]) ∧
    (op = 0x1A → Tbl.rising 0 s.keys.slots → FirstCode refused
      (r.1 = { status := 0 } ∧ Tbl.get none r.2.cistern.caks c = none ∧
        (∀ k, k ≠ c → Tbl.get none r.2.cistern.caks k = Tbl.get none s.cistern.caks k) ∧
        (∀ i ∈ [0x80000 + c, 0x100000 + 2 * c, 0x100000 + 2 * c + 1], (r.2.kslot 3 i).valid = false) ∧
        (∀ i, i < 262144 → (s.kslot 0 i).cak = some c → (r.2.kslot 0 i).valid = false))
      [(1, descObject d ≠ 0 ∨ 256 ≤ c ∨ Tbl.get none s.cistern.caks c = none)])

/-- R24, R260 to R263, R274, R278: Spring's turns over its pages, the end of an operation with what it leaves in its page,
Cistern records found uncorrectable, and the owners of pages. Two keys derived from one label are a host error (R249). -/
def Sys2Proof.Claims.SpringPages : Prop :=
  ∀ (s : State) (k : PageNo) (records : List (Fin 257)),
    let mine := s.tide.ops.filter (fun o => decide (o.page = k.val) && decide (0 < k.val))
    let runs := mine.find? (·.running)
    (∀ o, runs = some o → s.rd KST_STAT.DIP = 0 →
      let a := records.foldl (fun (x : State) (n : Fin 257) => x.cisternBad n.val) s
      let r := State.kderRun { a with tide := { a.tide with ops := a.tide.ops.erase o } } o
      let twin := descOp o.desc = 1 ∧ r.1.status = 0 ∧ r.2.twinLabel (descObject o.desc) = true
      (twin → exec (.springOpComplete k records) s = .fault .hostError) ∧
      (¬twin → exec (.springOpComplete k records) s = r.2.completeOp r.1) ∧
      (¬twin → descRes o.desc = 0 ∨ spaceOf (descRes o.desc) ≠ .regs ∧ spaceOf (descRes o.desc + 8) ≠ .regs →
        ∃ u, exec (.springOpComplete k records) s = .next u)) ∧
    (runs = none ∨ s.rd KST_STAT.DIP = 1 → exec (.springOpComplete k records) s = .next s) ∧
    (∀ n : Fin 257, let b := s.cisternBad n.val
      b.rd KST_CISTAT.CIS_ERR = 1 ∧ b.keys = s.keys ∧
      (n.val = 0 → b.rd KST_CISTAT.DS_VALID = 0 ∧ (s.rd GBL_MODE.MODE = 4 → b.rd GBL_MODE.MODE = 3)) ∧
      (n.val ≠ 0 → b.rd KST_CISTAT.DS_VALID = s.rd KST_CISTAT.DS_VALID ∧
        Tbl.get none b.cistern.caks (n.val - 1) =
          (Tbl.get none s.cistern.caks (n.val - 1)).map fun x => { x with bad := true })) ∧
    (∀ o : EngineOp, kderInputs (descOp o.desc) = false ∨ kderLen o.desc = 0 → descOp o.desc < 0x10 →
      let a := s.kderAct o.desc []
      let r := s.kderRun o
      r.1.acted = true ∧ r.1.status = a.1.status ∧ r.1.result = a.1.result ∧
      r.1.out = (if a.1.status = 0 then a.1.out else []) ∧
      r.2 = { a.2 with counters := r.2.counters, keys := { a.2.keys with pages := r.2.keys.pages } } ∧
      (∀ j, j ≠ o.page → Tbl.get {} r.2.keys.pages j = Tbl.get {} a.2.keys.pages j) ∧
      Tbl.get {} r.2.keys.pages o.page =
        { input := [], output := r.1.out.take 2048, desc := o.desc, status := a.1.status }) ∧
    (∀ o : EngineOp, kderInputs (descOp o.desc) = true → kderLen o.desc ≠ 0 → descOp o.desc < 0x10 →
      let i := s.areaRead o.requester (kderIn o.desc) (kderLen o.desc)
      let r := s.kderRun o
      (∀ x, i.1 = .data x → r.1.status = (i.2.kderAct o.desc x).1.status ∧ r.1.area = o.area ∧
        (Tbl.get {} r.2.keys.pages o.page).input = x.take 2048) ∧
      (i.1 = .refused ∨ i.1 = .bus → r.1.status = 1 ∧ r.1.area = 1 ∧
        r.2 = { i.2 with counters := r.2.counters, keys := { i.2.keys with pages := r.2.keys.pages } })) ∧
    ((∀ i, i < 16 → s.pageNext i = none) → exec .springPageDispatch s = .next s) ∧
    (∀ o, s.pageNext k = some o →
      (∀ i, i < 16 → s.pageNext i ≠ none →
        (k.val + 15 - s.keys.lastPage % 16) % 16 ≤ (i + 15 - s.keys.lastPage % 16) % 16) →
      Gives (exec .springPageDispatch s) fun u => u = { s with tide := u.tide, keys := { s.keys with lastPage := k.val } } ∧
        u.tide = { s.tide with ops := s.tide.ops.map fun x => if x = o then { x with running := true } else x }) ∧
    (∀ o, s.pageNext k = some o → s.pageRuns k = none ∧ mine.head? = some o ∧
      (∀ x ∈ s.tide.ops.takeWhile (fun x => decide (x ≠ o)), springConflict o x = false) ∧
      (descOp o.desc < 0x10 → ∀ x ∈ s.tide.ops, x.running = true → ¬descOp x.desc < 0x10)) ∧
    (∀ v, rsvdOk .SPR_PGOWN v = true → k = 0 → exec (.sprPgownWrite k v) s = .next s) ∧
    (∀ v, rsvdOk .SPR_PGOWN v = true → k ≠ 0 →
      let owner := SPR_PGOWN.OWNER.of v
      let clash := SPR_PGOWN.EN.of v = 1 ∧ ∃ j, 0 < j ∧ j < 16 ∧ j ≠ k.val ∧ s.rd SPR_PGOWN.EN j = 1 ∧ s.rd SPR_PGOWN.OWNER j = owner
      let bad := clash ∨ owner = 15 ∧ s.factory = false
      (bad → Gives (exec (.sprPgownWrite k v) s) fun u => u.rd SPR_STAT.REJECT = 1 ∧ OnlyRegs s u [Reg.off .SPR_STAT 0 0]) ∧
      (¬bad → Gives (exec (.sprPgownWrite k v) s) fun u => u.reg .SPR_PGOWN k = v ∧ u = { s with regs := u.regs, keys := u.keys } ∧
        RegsKept s u [Reg.off .SPR_PGOWN k 0] ∧
        (s.pageRuns k = none → u.keys = s.keys) ∧
        (s.pageRuns k ≠ none → Tbl.get 0 s.keys.oldOwner k = 0 → s.reg .SPR_PGOWN k ≠ 0 → u.pageOwner k = s.reg .SPR_PGOWN k))) ∧
    (s.pageRuns k ≠ none → exec (.sprPageOwnerTakeover k) s = .next s) ∧
    (s.pageRuns k = none → Gives (exec (.sprPageOwnerTakeover k) s) fun u => u.pageOwner k = s.reg .SPR_PGOWN k ∧
      (∀ j, j ≠ k.val → u.pageOwner j = s.pageOwner j) ∧ u = { s with keys := u.keys }) ∧
    (∀ a b : EngineOp, a.engine = 1 → b.engine = 1 → descOp a.desc = 0x01 → descOp b.desc = 0x01 →
      descObject a.desc = descObject b.desc → springConflict a b = true) ∧
    (∀ (m : Master) (n : Fin 4) (o : Fin 256) (write : Option Word),
      let c := (s.requester m).colour
      let out := exec (.sprPageForeignAccess k m n o write) s
      let p := Tbl.get {} s.keys.pages k.val
      let b := (s.wr SPR_STAT.PAGE_VIOL 1).leveeEvent 14 (k.val + c * 16)
      let mine := 0 < k.val ∧ SPR_PGOWN.OWNER.of (s.pageOwner k) = c
      (mine → write = none → out = .next (s.emit (.readReply m (some (slice (p.part n.val) (8 * o.val) 8))))) ∧
      (∀ v, mine → write = some v → Gives out fun u =>
        u = { s with keys := { s.keys with pages := u.keys.pages } } ∧
        (∀ j, j ≠ k.val → Tbl.get {} u.keys.pages j = Tbl.get {} s.keys.pages j) ∧
        ∀ i : Fin 4, let q := Tbl.get {} u.keys.pages k.val
          (i ≠ n → q.part i.val = p.part i.val) ∧
          (8 * o.val < (p.part n.val).length → slice (q.part n.val) (8 * o.val) 8 = leBytes 8 v.toNat)) ∧
      (¬mine → b.rd SPR_STAT.PAGE_VIOL = 1 ∧ (write ≠ none → out = .next b) ∧
        (write = none → out = .next (b.emit (.readReply m (some (List.replicate 8 0)))))))

end

namespace Sys2Proof.Claims

open Sys2Proof Sys2Proof.Machine

/-- A KST_CMD operation that ends with a status and changes nothing else (R276). -/
def KstEnds (s : State) (o : Outcome) (op st : Nat) : Prop :=
  Gives o fun u => u.rd KST_CMD.OP = op ∧ u.rd KST_CMD.STATUS = st ∧ u.rd KST_CMD.BUSY = 0 ∧ OnlyRegs s u [Reg.off .KST_CMD 0 0]

/-- The KST_CMD operations with the OP of each, and what a supply dip holds of them (R260, R276). -/
def kstTable : List (Nat × Instr × Option HeldKst) :=
  [(0, .kstInfo, none), (1, .kstDestroy, some .destroy), (2, .kstOrphan, some .orphan), (3, .kstSetuse, some .setuse),
   (4, .kstCtrRead, none), (5, .kstCtrInc, some .ctrInc), (6, .kstCmdInvalid false, none), (7, .kstCmdInvalid true, none)]

/-- A key has ended: VALID reads 0 and GEN has advanced (R256, R257). -/
def KeyEnded (s u : State) (cls i : Nat) (key : Octets) : Prop :=
  u.kslot cls i = { s.kslot cls i with valid := false, gen := ((s.kslot cls i).gen + 1) % 64, key := key }

end Sys2Proof.Claims

section

open Sys2Proof Sys2Proof.Machine Sys2Proof.Claims

/-- R202, R235, R245, R255 to R260, R276, R277, R607: the host's key-store commands, and the end of a sweep. Where the
spec leaves a point open it is the model's: log entry 73. -/
def Obligations.KeyStoreCommands : Prop :=
  (∀ (s : State), ∀ e ∈ kstTable,
    (s.rd KST_CMD.BUSY = 1 → Gives (exec e.2.1 s) fun u => u.rd KST_STAT.CMD_DROP = 1 ∧ OnlyRegs s u [Reg.off .KST_STAT 0 0]) ∧
    (s.rd KST_CMD.BUSY = 0 → s.rd KST_STAT.DIP = 1 → ∀ h, e.2.2 = some h → Gives (exec e.2.1 s) fun u =>
      u.rd KST_CMD.OP = e.1 ∧ u.rd KST_CMD.BUSY = 1 ∧ u.keys = { s.keys with held := some h } ∧
      u = { s with regs := u.regs, keys := u.keys } ∧ RegsKept s u [Reg.off .KST_CMD 0 0])) ∧
  (∀ (s : State), s.rd KST_CMD.BUSY = 0 →
    let h := (s.reg .KST_DATA 0).toNat % 2 ^ 32
    let c := handleClass h
    let i := handleIndex h
    let x := s.kslot c i
    let m := s.rd GBL_MODE.MODE
    let names := slotIndexValid c i = true ∧ x.gen = handleGen h
    let swept := s.rd KST_STAT.SWEEP = 1 ∧ x.valid = true ∧ s.usable c i = false
    let n := (s.reg .KST_DATA 0).toNat % 64
    let still := m = 10 ∨ m = 11
    let sweeps := fun (u : State) op => u.rd KST_CMD.OP = op ∧ u.rd KST_CMD.BUSY = 1 ∧ u.rd KST_STAT.SWEEP = 1 ∧
      u.keys.kstWaits = true
    (slotIndexValid c i = false → KstEnds s (exec .kstInfo s) 0 1) ∧
    (slotIndexValid c i = true → Gives (exec .kstInfo s) fun u => u.rd KST_CMD.OP = 0 ∧ u.rd KST_CMD.STATUS = 0 ∧
      u.rd KST_CMD.BUSY = 0 ∧ (u.reg .KST_DATA 0).toNat % 2 ^ 32 = c * 2 ^ 30 + x.gen * 2 ^ 24 + i ∧
      (u.reg .KST_DATA 1).toNat = x.use % 2 ^ 64 ∧
      (x.epoch < 2 ^ 16 → x.parent < 2 ^ 32 →
        let a := (u.reg .KST_DATA 2).toNat
        bits a 63 32 = x.parent ∧ bits a 31 16 = x.epoch ∧ bits a 15 10 = x.gen ∧
        bits a 9 8 = (if c = 0 then i % 4 else 0) ∧ a.testBit 7 = x.valid ∧ a.testBit 6 = x.resetExp ∧
        a.testBit 5 = x.useEn ∧ a.testBit 4 = x.short) ∧
      OnlyRegs s u [Reg.off .KST_CMD 0 0, Reg.off .KST_DATA 0 0, Reg.off .KST_DATA 1 0, Reg.off .KST_DATA 2 0]) ∧
    (s.rd KST_STAT.DIP = 0 →
      FirstCode (KstEnds s (exec .kstDestroy s) 1)
        (Gives (exec .kstDestroy s) fun u => KeyEnded s u c i [] ∧ SlotsKept s u [(c, i)] ∧
          (c < 2 → u.rd KST_CMD.OP = 1 ∧ u.rd KST_CMD.BUSY = 0 ∧ u.rd KST_CMD.STATUS = 0) ∧ (2 ≤ c → sweeps u 1))
        [(8, still ∨ m = 1 ∨ m = 8 ∨ m = 9), (1, ¬names), (14, swept), (4, s.slotInUse c i = true)] ∧
      FirstCode (KstEnds s (exec .kstOrphan s) 2)
        (Gives (exec .kstOrphan s) fun u => KeyEnded s u c i x.key ∧ SlotsKept s u [(c, i)] ∧ sweeps u 2)
        [(8, still), (1, ¬names), (5, c < 2), (14, swept)] ∧
      (let v := (s.reg .KST_DATA 1).toNat
       FirstCode (KstEnds s (exec .kstSetuse s) 3)
        (Gives (exec .kstSetuse s) fun u => u.kslot c i = { x with useEn := true, use := v } ∧ SlotsKept s u [(c, i)] ∧
          u.rd KST_CMD.OP = 3 ∧ u.rd KST_CMD.BUSY = 0 ∧ u.rd KST_CMD.STATUS = 0 ∧
          (c ≠ 0 → u = { s with regs := u.regs, keys := u.keys } ∧ RegsKept s u [Reg.off .KST_CMD 0 0]) ∧
          (c = 0 → s.usable 0 i = true → s.rxSc (i / 4) = false → u.lastPn i < u.nextPn i → u.rrd SA.EXHAUST i = 1 ∧
            (s.rrd SA.EXHAUST i = 0 → u.rd SCY_STAT.PN_EVENT = 1)))
        [(8, still), (1, ¬names ∨ x.valid = false), (14, swept), (13, x.useEn = true ∧ x.use < v)]) ∧
      FirstCode (KstEnds s (exec .kstCtrInc s) 5)
        (Gives (exec .kstCtrInc s) fun u => u.monotonic n = min (s.monotonic n + 1) (2 ^ 64 - 1) ∧
          (∀ k, k ≠ n → u.monotonic k = s.monotonic k) ∧ u.rd KST_CMD.OP = 5 ∧ u.rd KST_CMD.BUSY = 0 ∧
          u.rd KST_CMD.STATUS = 0 ∧ u = { s with regs := u.regs, cistern := { s.cistern with counters := u.cistern.counters } } ∧
          RegsKept s u [Reg.off .KST_CMD 0 0])
        [(8, still), (5, n < 8)]) ∧
    (Gives (exec .kstCtrRead s) fun u => u.rd KST_CMD.OP = 4 ∧ u.rd KST_CMD.BUSY = 0 ∧ u.rd KST_CMD.STATUS = 0 ∧
      (u.reg .KST_DATA 1).toNat = s.monotonic n % 2 ^ 64 ∧
      OnlyRegs s u [Reg.off .KST_CMD 0 0, Reg.off .KST_DATA 1 0]) ∧
    (∀ seven, (still → KstEnds s (exec (.kstCmdInvalid seven) s) (if seven then 7 else 6) 8) ∧
      (¬still → KstEnds s (exec (.kstCmdInvalid seven) s) (if seven then 7 else 6) 1))) ∧
  ∀ (s : State),
    (s.rd KST_STAT.SWEEP = 0 ∨ s.rd KST_STAT.DIP = 1 → exec .orphanSweepEnd s = .next s) ∧
    (s.rd KST_STAT.SWEEP = 1 → s.rd KST_STAT.DIP = 0 → Tbl.rising 0 s.keys.slots → (∀ e ∈ s.keys.slots, e.1 < 2 ^ 26) →
      Gives (exec .orphanSweepEnd s) fun u =>
        u.rd KST_STAT.SWEEP = 0 ∧ u.keys.kstWaits = false ∧ u.keys.sessions = s.keys.sessions ∧
        (s.keys.kstWaits = true → u.rd KST_CMD.BUSY = 0 ∧ u.rd KST_CMD.STATUS = 0) ∧
        (∀ c i, c < 4 → i < 2 ^ 24 →
          let x := s.kslot c i
          (s.usable c i = true → u.kslot c i = x ∧ u.usable c i = true) ∧
          (x.valid = false → u.kslot c i = x) ∧
          (x.valid = true → x.parent ≠ 0xFFFFFFFF →
            (s.kslot (handleClass x.parent) (handleIndex x.parent)).gen ≠ handleGen x.parent → KeyEnded s u c i x.key)))

end

namespace Sys2Proof.Claims

open Sys2Proof Sys2Proof.Machine

/-- A sector's raw words as stored: none while it has not been written since its range was enabled. -/
abbrev storedSector (s : State) (sec : Nat) : List (BitVec 80) := Tbl.get [] s.culvert.sectors sec

/-- Every sector but one is stored as before. -/
def SectorsKept (s u : State) (sec : Nat) : Prop := ∀ k, k ≠ sec → storedSector u k = storedSector s k

/-- A range serves accesses to a sector (R470, R487). -/
def Serves (s : State) (sec r : Nat) : Prop :=
  s.rangeAt (sec * 256) = some r ∧ s.rd CUL_RNG.READY r = 1 ∧ s.rd CUL_RSTAT.DEAD r = 0

/-- The write counter of a sector of a Sealed-fresh range and those of the off-chip nodes of its path have advanced by
one, and no other (R476, R478). -/
def CountersAdvance (s u : State) (r sec : Nat) : Prop :=
  let rs := s.rangeSector r sec
  let d := treeOff (s.rangeSize r / 256)
  (u.range r).sectorCtr rs = (s.range r).sectorCtr rs + 1 ∧
  (∀ k, 1 ≤ k → k ≤ d → (u.range r).nodeCtr k (rs / 8 ^ k) = (s.range r).nodeCtr k (rs / 8 ^ k) + 1) ∧
  ∀ q, q ≠ rs → (u.range r).sectorCtr q = (s.range r).sectorCtr q

end Sys2Proof.Claims

section

open Sys2Proof Sys2Proof.Machine Sys2Proof.Claims

/-- R467, R470 to R475, R478, R480 to R485, R495: accesses to sectors. Where the spec leaves a point open it is the
model's: log entries 11, 18, 89. -/
def Obligations.CulvertAccesses : Prop :=
  (∀ (s : State) (p : CulvertPort) (sec lo n : Nat) (d : Octets) flips find,
    (2 ^ 28 ≤ sec ∨ 256 < lo + n → exec (.culvertRead p sec lo n flips find) s = .next s) ∧
    (2 ^ 28 ≤ sec ∨ d.length ≠ 256 → exec (.culvertWrite p sec d find) s = .next s) ∧
    (sec < 2 ^ 28 → lo + n ≤ 256 → ∃ r b, (s.culMishaps sec flips find).portRead p sec lo n = (r, b) ∧
      exec (.culvertRead p sec lo n flips find) s = .next (b.emit (.culvert (portOf p).req r))) ∧
    (sec < 2 ^ 28 → d.length = 256 → ∃ ok b, (s.culMishaps sec [] find).portWrite p sec 0 d = (ok, b) ∧
      exec (.culvertWrite p sec d find) s = .next (b.emit (.culvert (portOf p).req (if ok then some [] else none)))) ∧
    (sec < 2 ^ 28 → lo + d.length ≤ 256 → d.length ≠ 256 →
      ∃ ok b, (s.culMishaps sec flips find).portWrite p sec lo d = (ok, b) ∧
      exec (.culvertPartialWrite p sec lo d flips find) s =
        .next (b.emit (.culvert (portOf p).req (if ok then some [] else none)))) ∧
    (s.culMishaps sec [] .good = s)) ∧
  (∀ (s : State) (p : CulPort) (sec lo n : Nat) (d : Octets),
    (s.rangeAt (sec * 256) = none → s.culRead p sec lo n = (none, s) ∧ s.culWrite p sec lo d = (false, s)) ∧
    (∀ r, s.rangeAt (sec * 256) = some r → s.rd CUL_RNG.READY r = 0 ∨ s.rd CUL_RSTAT.DEAD r = 1 →
      s.culRead p sec lo n = (none, s) ∧ s.culWrite p sec lo d = (false, s)) ∧
    (∀ r, Serves s sec r →
      let ty := s.rd CUL_RNG.TYPE r
      let x := s.range r
      let rs := s.rangeSector r sec
      let dd := treeOff (s.rangeSize r / 256)
      let stops := ty = 3 ∧ s.culDamaged r sec = true ∨ s.culPoisoned r sec = true
      let cost := if ty = 1 then 64 * burstsOf lo n else if ty = 2 then 256 else 256 + 64 * dd
      let b := s.culCharge r true cost
      let w := s.culCharge r false (s.culWriteCost r lo d.length +
        if lo = 0 ∧ d.length = 256 ∧ s.rd CUL_STAT.POISON_OVF = 1 ∧ ty ≠ 1 then 64 else 0)
      b.culvert.windowSum = s.culvert.windowSum + cost ∧
      b.ctr Ctrs.CUL_RD_OCTETS r = (s.ctr Ctrs.CUL_RD_OCTETS r).add cost ∧
      (stops → s.culRead p sec lo n = (none, b) ∧ s.culWrite p sec lo d = (false, w)) ∧
      (¬stops → (s.culRead p sec lo n).1 = ((b.culOpen r sec p (blockWords lo n) true).1.map fun o => slice o lo n) ∧
        (s.culRead p sec lo n).2 = (b.culOpen r sec p (blockWords lo n) true).2) ∧
      (¬stops → lo = 0 → d.length = 256 → ty ≠ 3 →
        let v := s.culWrite p sec lo d
        v.1 = true ∧ SectorsKept s v.2 sec ∧ v.2 = { w with culvert := v.2.culvert } ∧
        storedSector v.2 sec = s.culSeal r sec (if ty = 2 then p.gen.getD 0 else 0) d) ∧
      (¬stops → lo = 0 → d.length = 256 → ty = 3 → rs < 2 ^ 28 →
        let top := 2 ^ 56 - 1
        let full := x.sectorCtr rs = top ∨ ∃ k, 1 ≤ k ∧ k ≤ dd ∧ x.nodeCtr k (rs / 8 ^ k) = top
        let v := s.culWrite p sec lo d
        (full → v.1 = false ∧ v.2.culvert = w.culvert ∧
          v.2.ctr Ctrs.CUL_CTR_SAT = (s.ctr Ctrs.CUL_CTR_SAT).add 1) ∧
        (¬full → v.1 = true ∧ CountersAdvance s v.2 r sec ∧ SectorsKept s v.2 sec ∧
          storedSector v.2 sec = s.culSeal r sec (x.sectorCtr rs + 1) d)) ∧
      (¬stops → d.length < 256 → ty = 2 ∨ ty = 3 →
        let a := (w.count Ctrs.CUL_RMW r).culOpen r sec p [] false
        (a.1 = none → s.culWrite p sec lo d = (false, a.2.culPoison r sec p.req)) ∧
        (∀ o, a.1 = some o → s.culWrite p sec lo d = a.2.culStore r sec p (splice o lo d))))) ∧
  ∀ (s : State) (r sec w req : Nat) (p : CulPort),
    let x := s.range r
    let word := (s.culRaw r sec).getD w 0
    let f := s.culFixWord r sec w req
    (Crypto.bchDecode word = none → f.1 = none ∧ f.2.rd CUL_STAT.UE = 1 ∧
      f.2.ctr Ctrs.CUL_UE = (s.ctr Ctrs.CUL_UE).add 1 ∧ f.2.culvert = s.culvert) ∧
    (∀ v, Crypto.bchDecode word = some (v, false) → f = (some v, s)) ∧
    (∀ v, Crypto.bchDecode word = some (v, true) → f.1 = some v ∧ f.2.rd CUL_STAT.CE = 1 ∧ SectorsKept s f.2 sec ∧
      (setAt (s.culRaw r sec) w v ≠ [] → storedSector f.2 sec = setAt (s.culRaw r sec) w v) ∧
      sec * 32 + w ∈ f.2.culvert.corrected ∧
      (sec * 32 + w ∉ s.culvert.corrected → f.2.ctr Ctrs.CUL_CE = (s.ctr Ctrs.CUL_CE).add 1)) ∧
    (∀ ws b, s.rd CUL_RNG.TYPE r ≠ 1 → s.culFix r sec p.req (List.range 32) = (some ws, b) →
      let t := s.culT r sec (s.culF r sec p)
      let c := wordData ws
      (wordTag ws = culTag x.k3 c t → s.culOpen r sec p [] true = (some (Crypto.xts true x.k1 x.k2 t c), b)) ∧
      (wordTag ws ≠ culTag x.k3 c t → ∀ kind, (s.culOpen r sec p [] kind).1 = none ∧
        (s.culOpen r sec p [] kind).2.rd CUL_STAT.TAG_FAIL = 1 ∧
        (s.culOpen r sec p [] kind).2.ctr Ctrs.CUL_TAG_FAILS = (b.ctr Ctrs.CUL_TAG_FAILS).add 1)) ∧
    (let u := s.culPoison r sec req
     u.rd CUL_STAT.POISON = 1 ∧ u.ctr Ctrs.CUL_POISONED = (s.ctr Ctrs.CUL_POISONED).add 1 ∧ SectorsKept s u sec ∧
     (s.culvert.poison.length < 65536 → u.culvert.poison = s.culvert.poison ++ [sec] ∧
       u.rd CUL_STAT.POISONED = s.culvert.poison.length + 1) ∧
     (65536 ≤ s.culvert.poison.length → u.culvert.poison = s.culvert.poison ∧ u.rd CUL_STAT.POISON_OVF = 1))

/-- R471, R483, R485, R488, R492, R493, R498, R500, R501: the scrubber, ranges, the control register and bandwidth
windows. Where the spec leaves a point open it is the model's: log entries 18, 89. -/
def Obligations.CulvertCommands : Prop :=
  ∀ (s : State) (r : RangeNo) (v : Word),
    let x := s.range r
    let en := s.rd CUL_RNG.EN r = 1
    let set := CUL_RNG.EN.of v = 1
    let named := [CUL_RNG.TYPE, CUL_RNG.COLOURS, CUL_RNG.SIZE_MB, CUL_RNG.BASE_MB]
    let same := ∀ f ∈ named, f.of v = s.rd f r
    let stored := fun (u : State) => ∀ f ∈ CUL_RNG.EN :: named, u.rd f r = f.of v
    let o := exec (.culRngWrite r v) s
    let rejected := fun (o : Outcome) => Gives o fun u => u.rd CUL_STAT.REJECT = 1 ∧ OnlyRegs s u [Reg.off .CUL_STAT 0 0]
    (∀ flips, s.rd CUL_CTL.SCRUB_EN = 0 → exec (.scrubSector flips) s = .next s) ∧
    (∀ flips, s.rd CUL_CTL.SCRUB_EN = 1 → nextScrub s.scrubAreas s.culvert.scrub = none →
      exec (.scrubSector flips) s = .next s) ∧
    (∀ flips sec, s.rd CUL_CTL.SCRUB_EN = 1 → nextScrub s.scrubAreas s.culvert.scrub = some sec →
      Gives (exec (.scrubSector flips) s) fun u => u.culvert.scrub = sec + 1 ∧
        u.ctr Ctrs.CUL_SCRUBBED = (s.ctr Ctrs.CUL_SCRUBBED).add 1 ∧ SectorsKept s u sec ∧
        u.culvert.poison = s.culvert.poison ∧
        (s.rangeAt (sec * 256) ≠ none ∨ flips = [] → u.culvert.ranges = s.culvert.ranges) ∧
        (s.rangeAt (sec * 256) = none → u.culvert.sectors = s.culvert.sectors ∧
          ∀ q, u.range q = { s.range q with damaged := (u.range q).damaged } ∧
            ∀ e ∈ (s.range q).damaged, e ∈ (u.range q).damaged)) ∧
    (rsvdOk .CUL_RNG v = false → o = .fault .hostError) ∧
    (rsvdOk .CUL_RNG v = true →
      (en → ¬same → rejected o) ∧ (en → same → set → o = .next s) ∧
      (en → same → ¬set → Gives o fun u => stored u ∧ u.range r = { x with closing := true } ∧
        (∀ q, q ≠ r.val → u.range q = s.range q) ∧ u = { s with regs := u.regs, culvert := u.culvert } ∧
        RegsKept s u [Reg.off .CUL_RNG r 0]) ∧
      (¬en → ¬set → Gives o fun u => stored u ∧ OnlyRegs s u [Reg.off .CUL_RNG r 0]) ∧
      (¬en → set →
        let ty := CUL_RNG.TYPE.of v
        let base := CUL_RNG.BASE_MB.of v
        let size := CUL_RNG.SIZE_MB.of v + 1
        let tree := s.rd CUL_RTREE.TREE_BASE_MB r
        let treeEnd := tree + treeAreaMb (size * 4096)
        let mine := if ty = 3 then [(base, base + size), (tree, treeEnd)] else [(base, base + size)]
        let clash := ∃ a ∈ mine, ∃ q, q < 8 ∧ q ≠ r.val ∧ s.rd CUL_RNG.EN q = 1 ∧ ∃ b ∈ s.rangeMb q, a.1 < b.2 ∧ b.1 < a.2
        let bad := ty = 0 ∨ 65536 < base + size ∨ clash ∨ ty = 3 ∧ (s.rd CUL_CTL.TREE_EN = 0 ∨
            base < treeEnd ∧ tree < base + size ∨ 65536 < treeEnd) ∨ s.rd CUL_RSTAT.ENABLES r = 65535 ∨
          s.usable 3 (0x10 + r.val) = false
        (bad → rejected o) ∧
        (¬bad → Gives o fun u => stored u ∧ u.rd CUL_RNG.READY r = 0 ∧
          u.rd CUL_RSTAT.ENABLES r = s.rd CUL_RSTAT.ENABLES r + 1 ∧ u.rd CUL_RSTAT.DAMAGED r = 0 ∧ u.rd CUL_RSTAT.DEAD r = 0 ∧
          ((u.range r).k1, (u.range r).k2, (u.range r).k3) = subkeys (s.kslot 3 (0x10 + r.val)).octets ∧
          (u.range r).damaged = [] ∧ (u.range r).closing = false ∧
          (ty = 3 → ∀ rs, rs < size * 4096 → (u.range r).sectorCtr rs = x.hwm + 1) ∧
          (∀ k, (base * 4096 ≤ k ∧ k < (base + size) * 4096 → storedSector u k = [] ∧ k ∉ u.culvert.poison) ∧
            (¬(base * 4096 ≤ k ∧ k < (base + size) * 4096) → storedSector u k = storedSector s k ∧
              (k ∈ u.culvert.poison ↔ k ∈ s.culvert.poison))) ∧
          (∀ q, q ≠ r.val → u.range q = s.range q) ∧ u.keys = s.keys))) ∧
    (Gives (exec (.rangeReady r) s) fun u => OnlyRegs s u [Reg.off .CUL_RNG r 0] ∧ (¬en → u = s) ∧
      (en → u.rd CUL_RNG.READY r = 1)) ∧
    (x.closing = false → exec (.rangeDisableEnd r) s = .next s) ∧
    (x.closing = true → Gives (exec (.rangeDisableEnd r) s) fun u => u.rd CUL_RNG.READY r = 0 ∧
      u.range r = { x with closing := false, k1 := [], k2 := [], k3 := [] } ∧ (∀ q, q ≠ r.val → u.range q = s.range q) ∧
      u.culvert.sectors = s.culvert.sectors ∧ u = { s with regs := u.regs, culvert := u.culvert }) ∧
    (rsvdOk .CUL_CTL v = true →
      let moved := CUL_CTL.TREE_EN.of v ≠ s.rd CUL_CTL.TREE_EN ∨ CUL_CTL.TREE_POOL.of v ≠ s.rd CUL_CTL.TREE_POOL
      let pinned := ∃ q, q < 8 ∧ s.rd CUL_RNG.EN q = 1 ∧ s.rd CUL_RNG.TYPE q = 3
      (moved → pinned → rejected (exec (.culCtlWrite v) s)) ∧
      (¬(moved ∧ pinned) → Gives (exec (.culCtlWrite v) s) fun u =>
        (∀ f ∈ [CUL_CTL.TREE_EN, CUL_CTL.SCRUB_EN, CUL_CTL.TREE_POOL], u.rd f = f.of v) ∧ OnlyRegs s u [Reg.off .CUL_CTL 0 0])) ∧
    (∀ now,
      let gb := min 8191 (s.culvert.windowSum / 100000)
      Gives (exec (.culBwWindow now) s) fun u => u.rd CUL_BW.LAST = gb ∧ u.rd CUL_BW.PEAK = max gb (s.rd CUL_BW.PEAK) ∧
        u.culvert = { s.culvert with windowSum := 0 } ∧ RegsKept s u [Reg.off .CUL_BW 0 0]) ∧
    (rsvdOk .CUL_BW v = true → Gives (exec (.peakClr v) s) fun u => OnlyRegs s u [Reg.off .CUL_BW 0 0] ∧
      u.rd CUL_BW.LAST = s.rd CUL_BW.LAST ∧
      u.rd CUL_BW.PEAK = if CUL_BW.PEAK_CLR.of v = 1 then 0 else s.rd CUL_BW.PEAK)

end

namespace Sys2Proof.Claims

open Sys2Proof Sys2Proof.Machine

/-- The fields of a register that a word changes, but for those named. -/
def ChangesField (s : State) (r : Reg) (n : Nat) (v : Word) (free : List Field) : Prop :=
  ∃ f ∈ r.fields, (∀ x ∈ free, x.lo ≠ f.lo) ∧ f.of v ≠ f.of (s.reg r n)

/-- Every RW field of a register holds what was written. -/
def FieldsStored (u : State) (r : Reg) (n : Nat) (v : Word) : Prop := ∀ f ∈ r.fields, f.acc = .rw → u.rd f n = f.of v

/-- A write that Sounding refuses (R670). -/
def SndRefuses (s : State) (o : Outcome) : Prop :=
  Gives o fun u => u.rd SND_STAT.REJECT = 1 ∧ OnlyRegs s u [Reg.off .SND_STAT 0 0]

end Sys2Proof.Claims

section

open Sys2Proof Sys2Proof.Machine Sys2Proof.Claims

/-- R54, R657, R668 to R670: writes to the registers of schedules and thresholds, and thresholds sampled. -/
def Sys2Proof.Claims.SoundingRegisters : Prop :=
  (∀ (s : State) (which : Fin 5) (n : Fin 64) (v : Word),
    let r := schedReg which
    let en := s.rd SND_SCFG.EN n = 1
    let sets := which = 0 ∧ SND_SCFG.EN.of v = 1
    let bad := selValid (SND_SCFG.SEL.of v) = false ∨ SND_SCFG.PERIOD.of v = 0 ∨ SND_SCFG.ENTRIES.of v = 0 ∨
      s.rd SND_RINGIDX.SLOT_SZ n = 0 ∨ s.rd SND_RINGIDX.SLOTS n < 2 ∨ 4096 ≤ s.line.events.length
    let o := exec (.sndScheduleWrite which n v) s
    rsvdOk r v = true →
      (en → ChangesField s r n v (schedFree which) → SndRefuses s o) ∧
      (en → ¬ChangesField s r n v (schedFree which) → which ≠ 0 ∨ SND_SCFG.EN.of v = 1 → Gives o fun u =>
        FieldsStored u r n v ∧ OnlyRegs s u [Reg.off r n 0]) ∧
      (en → ¬ChangesField s r n v (schedFree which) → which = 0 → SND_SCFG.EN.of v = 0 → Gives o fun u =>
        u.rd SND_SCFG.EN n = 0 ∧ RegsKept s u [Reg.off r n 0] ∧
        u.line.events = s.line.events.filter (fun e => decide (e.kind ≠ .dump n)) ∧
        u.sound.queue = s.sound.queue.filter (fun q => decide (q.sched ≠ n.val)) ∧ u.sound.running = s.sound.running) ∧
      (¬en → ¬sets → Gives o fun u => FieldsStored u r n v ∧ OnlyRegs s u [Reg.off r n 0]) ∧
      (¬en → sets → bad → SndRefuses s o) ∧
      (¬en → sets → ¬bad → 16320 ≤ offsetOf (s.reg .SND_SFIRST n) → o = .fault .hostError) ∧
      (¬en → sets → ¬bad → offsetOf (s.reg .SND_SFIRST n) < 16320 →
        let b := (s.plainWrite .SND_SCFG v n)
        let sel := b.resolveSel (SND_SCFG.SEL.of v)
        let first := s.reg .SND_SFIRST n
        let e : PendEvent := { sel := sel, target := first, kind := .dump n }
        let due := s.selRuns sel = true ∧ atOrAfter (s.selReading sel) first = true
        Gives o fun u => FieldsStored u .SND_SCFG n v ∧ Tbl.get 0 u.sound.published n = 0 ∧
          (¬due → u.line.events = s.line.events ++ [e] ∧
            u.sound.queue = s.sound.queue) ∧
          (due →
            let per := SND_SCFG.PERIOD.of v * 2 ^ 16
            let more := (s.selReading sel - first).toNat / per
            u.rd GAU_STAT.PAST (selGroup sel) = 1 ∧
            u.line.events = s.line.events ++ [{ e with target := first + BitVec.ofNat 64 ((more + 1) * per) }] ∧
            (∃ q ∈ u.sound.queue, q.sched = n.val) ∧
            ((∀ q ∈ s.sound.queue, q.sched ≠ n.val) → more ≠ 0 → u.rd SND_STAT.MISSED = 1 ∧
              u.ctr Ctrs.DUMP_MISSED = (s.ctr Ctrs.DUMP_MISSED).add more)))) ∧
  (∀ (s : State) (which : Fin 3) (n : Fin 64) (v : Word),
    let r := thrReg which
    let en := s.rd SND_TCFG.EN n = 1
    let sets := which = 0 ∧ SND_TCFG.EN.of v = 1
    let src := SND_TCFG.SRC.of v
    let ix := SND_TCFG.INDEX.of v
    let named := src = 2 ∧ ix < 18 ∨ src = 6 ∧ ix < 18 ∨ src = 3 ∧ ix < 2 ^ 20 ∨
      1 ≤ src ∧ src ≤ 12 ∧ src ≠ 2 ∧ src ≠ 3 ∧ src ≠ 6 ∧ ix = 0
    let bad := ¬named ∨ s.rd SND_THIGH.HIGH n ≤ s.rd SND_TLOW.LOW n
    let o := exec (.sndThresholdWrite which n v) s
    (rsvdOk r v = true →
      (en → ChangesField s r n v (thrFree which) → SndRefuses s o) ∧ (¬en → sets → bad → SndRefuses s o) ∧
      (¬en → sets → ¬bad → Gives o fun u => FieldsStored u r n v ∧ u.rd SND_TCFG.ARMED n = 1 ∧ OnlyRegs s u [Reg.off r n 0]) ∧
      (en → ¬ChangesField s r n v (thrFree which) → Gives o fun u => FieldsStored u r n v ∧ OnlyRegs s u [Reg.off r n 0] ∧
        (which = 0 → SND_TCFG.EN.of v = 0 → u.rd SND_TCFG.ARMED n = 0) ∧
        (which = 0 → u.rd SND_TCFG.HIT n = if SND_TCFG.HIT.of v = 1 then 0 else s.rd SND_TCFG.HIT n)) ∧
      (¬en → ¬sets → Gives o fun u => FieldsStored u r n v ∧ OnlyRegs s u [Reg.off r n 0]))) ∧
  ∀ (s : State) (n : Fin 64),
    let v := s.occupancy (s.rd SND_TCFG.SRC n) (s.rd SND_TCFG.INDEX n)
    let above := s.rd SND_THIGH.HIGH n ≤ v
    let below := v ≤ s.rd SND_TLOW.LOW n
    let armed := s.rd SND_TCFG.ARMED n = 1
    let hits := s.rd SND_TCFG.DOWN n = 0 ∧ above ∨ s.rd SND_TCFG.DOWN n = 1 ∧ below
    let rearms := s.rd SND_TCFG.DOWN n = 0 ∧ below ∨ s.rd SND_TCFG.DOWN n = 1 ∧ above
    (s.rd SND_TCFG.EN n = 0 → exec (.thresholdSample n) s = .next s) ∧
    (s.rd SND_TCFG.EN n = 1 → Gives (exec (.thresholdSample n) s) fun u => (u.reg .SND_TVAL n).toNat = v % 2 ^ 64 ∧
      (armed → hits → u.rd SND_TCFG.ARMED n = 0 ∧ u.rd SND_TCFG.HIT n = 1 ∧
        u.ctr Ctrs.THR_EVENTS = (s.ctr Ctrs.THR_EVENTS).add 1 ∧
        u.tide = ((s.raiseEvent 0x0A n (BitVec.ofNat 64 v))).tide) ∧
      (armed → ¬hits → OnlyRegs s u [Reg.off .SND_TVAL n 0]) ∧
      (¬armed → rearms → u.rd SND_TCFG.ARMED n = 1 ∧ OnlyRegs s u [Reg.off .SND_TVAL n 0, Reg.off .SND_TCFG n 0]) ∧
      (¬armed → ¬rearms → OnlyRegs s u [Reg.off .SND_TVAL n 0]))

/-- R658 to R663, R666, R667: dumps started and published, and PC samples. -/
def Sys2Proof.Claims.SoundingCommands : Prop :=
  (∀ (s : State) (now : Word),
    let b := s.timeTo now
    let o := exec (.dumpStart now) s
    (s.sound.running ≠ none ∨ s.sound.queue = [] → o = .next b) ∧
    (∀ d rest, s.sound.running = none → s.sound.queue = d :: rest →
      let n := d.sched
      let wr := s.rd SND_RINGIDX.WR n
      let slots := s.rd SND_RINGIDX.SLOTS n
      let full := (wr + 1) % slots = s.rd SND_RINGIDX.RD n
      let b1 : State := { b with sound := { b.sound with queue := rest } }
      let count := s.rd SND_SCFG.ENTRIES n
      let read := b1.areaRead (b1.requester .sounding) (s.reg .SND_SLIST n).toNat (8 * count)
      let words := fun (oct : Octets) => (List.range count).map fun k => leNat (slice oct (8 * k) 8)
      let wrong := fun (l : List Nat) => (∃ w ∈ l, bits w 47 32 = 0 ∨ 2 ^ 48 ≤ w ∨ ctrRange (w % 2 ^ 32) (bits w 47 32) = false) ∨
        64 * s.rd SND_RINGIDX.SLOT_SZ n < 64 + 8 * (l.map fun w => bits w 47 32).sum
      (full → Gives o fun u => u.sound.running = none ∧ u.sound.queue = rest ∧ u.rd SND_STAT.MISSED = 1 ∧
        Tbl.get 0 u.sound.missed n = min 65535 (Tbl.get 0 s.sound.missed n + 1) ∧
        u.ctr Ctrs.DUMP_MISSED = (s.ctr Ctrs.DUMP_MISSED).add 1) ∧
      (¬full → (∀ oct, read.1 ≠ .data oct) → Gives o fun u => u.sound = b1.sound ∧ u.rd SND_STAT.REFUSED = 1) ∧
      (∀ oct, ¬full → read.1 = .data oct → wrong (words oct) → Gives o fun u =>
        u.sound = b1.sound ∧ u.rd SND_STAT.REFUSED = 1) ∧
      (∀ oct, ¬full → read.1 = .data oct → ¬wrong (words oct) → Gives o fun u => u.rd SND_STAT.BUSY = 1 ∧
        u.sound.queue = rest ∧ ∃ run, u.sound.running = some run ∧ run.req = d ∧ run.tick = b.tick ∧
        run.clear = decide (s.rd SND_SCFG.CLEAR n = 1) ∧ run.host = decide (s.rd SND_SCFG.DEST n = 1) ∧
        run.slot = (s.reg .SND_RINGBASE n).toNat + wr * (64 * s.rd SND_RINGIDX.SLOT_SZ n) ∧
        run.items.map Prod.fst = (words oct).flatMap (fun w => (List.range (bits w 47 32)).map fun k => w % 2 ^ 32 + k) ∧
        ∀ e ∈ run.items, (e.2 = none ↔ 0x20 ≤ e.1 / 2 ^ 26)))) ∧
  (∀ (s : State) (bad : List (BitVec 32)) (now : Word),
    let b := s.timeTo now
    let o := exec (.dumpPublish bad now) s
    (s.sound.running = none → o = .next b) ∧
    (∀ r, s.sound.running = some r → r.req.sched < 64 → r.host = true → s.host.busMaster = false → Gives o fun u =>
      u.sound.running = none ∧ u.rd SND_STAT.BUSY = 0 ∧ u.rd SND_STAT.REFUSED = 1 ∧
      (r.clear = true → Tbl.get false u.sound.abandoned r.req.sched = true) ∧
      u.rd SND_RINGIDX.WR r.req.sched = s.rd SND_RINGIDX.WR r.req.sched) ∧
    (∀ r, s.sound.running = some r → r.req.sched < 64 → r.host = true → s.host.busMaster = true → Gives o fun u =>
      let n := r.req.sched
      u.sound.running = none ∧ u.rd SND_STAT.BUSY = 0 ∧
      u.rd SND_SSEQ.SEQ n = Tbl.get 0 s.sound.published n % 2 ^ 32 ∧
      Tbl.get 0 u.sound.published n = Tbl.get 0 s.sound.published n + 1 ∧ Tbl.get 0 u.sound.missed n = 0 ∧
      Tbl.get false u.sound.abandoned n = false ∧
      (s.rd SND_RINGIDX.SLOTS n ≠ 0 →
        u.rd SND_RINGIDX.WR n = (s.rd SND_RINGIDX.WR n + 1) % s.rd SND_RINGIDX.SLOTS n) ∧
      u.ctr Ctrs.DUMPS = ((State.fillItems { b with sound := { b.sound with running := none } } bad r.clear r.items).2.ctr
        Ctrs.DUMPS).add 1 ∧
      ∃ head body more, u.out = .hostWrite r.slot head :: .hostWrite (r.slot + 64) body :: more ∧ head.length = 64 ∧
        leNat (slice head 0 4) = 0x534E4431 ∧ leNat (slice head 5 1) = n ∧
        (slice head 60 4) = leBytes 4 (Crypto.crc32 (head.take 60)) ∧ body.length = 8 * r.items.length)) ∧
  (∀ (s : State) (core t cat : Nat),
    let u := s.sampleSlot core t cat
    let takes := s.rd SND_SAMPCTL.EN = 1 ∧ (s.rd SND_SAMPCORE.CORES).testBit core = true ∧ s.rd SND_SAMPCTL.CAT = cat
    let n := Tbl.get 0 s.sound.slots core + 1
    let due := 2 ^ s.rd SND_SAMPCTL.PSHIFT ≤ n
    let waits := Tbl.get none s.sound.samples core ≠ none
    (¬takes → u = s) ∧
    (takes → u = { s with sound := u.sound, regs := u.regs, counters := u.counters } ∧
      Tbl.get 0 u.sound.slots core = if due then 0 else n) ∧
    (takes → ¬due → u = { s with sound := u.sound } ∧ u.sound.samples = s.sound.samples) ∧
    (takes → due → waits → u.sound.samples = s.sound.samples ∧ u.rd SND_STAT.SAMP_DROP = 1 ∧
      u.ctr Ctrs.SAMP_DROP = (s.ctr Ctrs.SAMP_DROP).add 1) ∧
    (takes → due → ¬waits → Tbl.get none u.sound.samples core = some {
        tick := s.tick, thread := t, cat := cat, reading := s.recordReading
        pc := (if cat = 7 then 0 else (s.thread t).pc) } ∧ u = { s with sound := u.sound })) ∧
  ∀ (s : State) (core : Fin 32) (word : BitVec 32),
    let o := exec (.slotSample core word) s
    let size := s.rd SND_SRING.SIZE
    let wr := s.rd SND_SRIDX.WR
    let room := size ≠ 0 ∧ (wr + 1) % size ≠ s.rd SND_SRIDX.RD
    let b : State := { s with sound := { s.sound with samples := Tbl.set none s.sound.samples core none } }
    (Tbl.get none s.sound.samples core = none → o = .next s) ∧
    ∀ x, Tbl.get none s.sound.samples core = some x →
      let rec0 := leBytes 8 x.tick.toNat ++ leBytes 8 x.pc.toNat ++ leBytes 4 (if x.cat = 1 ∨ x.cat = 7 then 0 else word.toNat) ++
        leBytes 1 x.thread ++ leBytes 1 x.cat ++ leBytes 2 0 ++ leBytes 8 x.reading.toNat
      let w := b.areaWrite (b.requester .sounding) (s.rd SND_SRING.BASE * 2 ^ 16 + 32 * wr) rec0
      (¬room → Gives o fun u => u.rd SND_STAT.SAMP_DROP = 1 ∧ RegsKept s u [Reg.off .SND_STAT 0 0] ∧
        u.ctr Ctrs.SAMP_DROP = (s.ctr Ctrs.SAMP_DROP).add 1 ∧ u.pools = s.pools ∧ u.sound = b.sound) ∧
      (room → w.1 = .done → Gives o fun u => u = (w.2.wr SND_SRIDX.WR ((wr + 1) % size)).count Ctrs.SAMPLES) ∧
      (room → w.1 ≠ .done → Gives o fun u => u = (w.2.wr SND_STAT.SAMP_DROP 1).count Ctrs.SAMP_DROP)

end

namespace Sys2Proof.Claims

open Sys2Proof Sys2Proof.Machine

/-- A write to a register of a lane that is refused (R532). -/
def LaneRefuses (s : State) (o : Outcome) (n : Nat) : Prop :=
  Gives o fun u => u.rd LN_STAT.REJECT n = 1 ∧ OnlyRegs s u [Reg.off .LN_STAT n 0]

/-- An eye scan that ran has ended early, with its result free (R541). -/
def ScanAborted (s u : State) (n : Nat) : Prop :=
  s.rd LN_EYECTL.BUSY n = 1 → u.rd LN_EYECTL.BUSY n = 0 ∧ u.rd LN_EYECTL.ABORT n = 1 ∧
    u.reg .LN_EYERES n = Config.freeWord s.draws

/-- A lane trains from a Tick on, and TRAIN_DONE reads 0 (R538). -/
def Trains (u : State) (n tick : Nat) : Prop := (u.lane n).training = some tick ∧ u.rd LN_STAT.TRAIN_DONE n = 0

/-- One step of a tap under a request of R539. -/
def TapMoves (ask x sum x' reply : Nat) : Prop :=
  (ask = 1 → x < 31 → sum < 32 → x' = x + 1 ∧ reply = 1) ∧ (ask = 1 → 31 ≤ x ∨ 32 ≤ sum → x' = x ∧ reply = 3) ∧
  (ask = 2 → 0 < x → x' = x - 1 ∧ reply = 1) ∧ (ask = 2 → x = 0 → x' = x ∧ reply = 2) ∧
  (ask ≠ 1 → ask ≠ 2 → x' = x ∧ reply = 0)

/-- The marker lock of a link: LN_STAT of its lane, or FRM_DCCSTAT of its port. -/
def lockBit (u : State) (l : Nat) : Nat :=
  if l < 4 then u.rd LN_STAT.MARKER_LOCK (u.carrier (144 + l)) else u.rd FRM_DCCSTAT.MARKER_LOCK (l - 4)

end Sys2Proof.Claims

section

open Sys2Proof Sys2Proof.Machine Sys2Proof.Claims

/-- R530, R532, R533, R537, R538, R540 to R542: writes to the registers of lanes. -/
def Sys2Proof.Claims.LaneRegisters : Prop :=
  ∀ (s : State) (n : LaneNo) (v : Word),
    let state := LN_CTL.PSTATE.of v
    let rate := LN_CTL.RATE.of v
    let was := s.rd LN_CTL.PSTATE n = 2
    let rateBad := rate ≠ 0 ∧ ¬(n.val < 72 ∧ (rate = 1 ∨ rate = 2) ∨ 72 ≤ n.val ∧ n.val < 144 ∧ (rate = 3 ∨ rate = 4) ∨
      144 ≤ n.val ∧ rate = 5)
    let bad := rateBad ∨ state = 3 ∨ state = 2 ∧ rate = 0 ∨
      was ∧ (∃ f ∈ [LN_CTL.RATE, LN_CTL.TX_INV, LN_CTL.RX_INV], f.of v ≠ s.rd f n) ∨ was ∧ state ≠ 2 ∧ s.claimed n = true
    let starts := s.rd LN_CTL.TRAIN_EN n = 0 ∧ s.rd LN_STAT.PSTATE_NOW n = 2 ∧ s.canTrain n = true
    (rsvdOk .LN_CTL v = false → exec (.lnCtlWrite n v) s = .fault .hostError) ∧
    (rsvdOk .LN_CTL v = true → bad → LaneRefuses s (exec (.lnCtlWrite n v) s) n) ∧
    (rsvdOk .LN_CTL v = true → ¬bad → Gives (exec (.lnCtlWrite n v) s) fun u => FieldsStored u .LN_CTL n v ∧
      (∀ k, k ≠ n.val → u.lane k = s.lane k) ∧ u = { s with regs := u.regs, serdes := u.serdes } ∧
      RegsKept s u [Reg.off .LN_CTL n 0, Reg.off .LN_STAT n 0] ∧
      (LN_CTL.TRAIN_EN.of v = 0 → (u.lane n).training = none) ∧
      (LN_CTL.TRAIN_EN.of v = 1 → starts → Trains u n s.tick.toNat) ∧
      (LN_CTL.TRAIN_EN.of v = 1 → ¬starts → u.lane n = s.lane n)) ∧
    (rsvdOk .LN_TXEQ v = true →
      let bad := 32 < LN_TXEQ.PRE2.of v + LN_TXEQ.PRE1.of v + LN_TXEQ.POST1.of v ∨ 144 ≤ n.val ∧ LN_TXEQ.PRE2.of v ≠ 0 ∨
        (s.lane n).training ≠ none
      (bad → LaneRefuses s (exec (.lnTxeqWrite n v) s) n) ∧
      (¬bad → Gives (exec (.lnTxeqWrite n v) s) fun u => FieldsStored u .LN_TXEQ n v ∧ OnlyRegs s u [Reg.off .LN_TXEQ n 0])) ∧
    (rsvdOk .LN_EYECTL v = true →
      let start := LN_EYECTL.START.of v = 1 ∧ s.rd LN_EYECTL.BUSY n = 0
      Gives (exec (.eyeScanStart n v) s) fun u => FieldsStored u .LN_EYECTL n v ∧
        (¬start → u.rd LN_EYECTL.BUSY n = s.rd LN_EYECTL.BUSY n ∧ OnlyRegs s u [Reg.off .LN_EYECTL n 0]) ∧
        (start → s.rd LN_STAT.CDR_LOCK n = 0 → u.rd LN_STAT.REJECT n = 1 ∧ u.rd LN_EYECTL.BUSY n = 0 ∧
          OnlyRegs s u [Reg.off .LN_EYECTL n 0, Reg.off .LN_STAT n 0]) ∧
        (start → s.rd LN_STAT.CDR_LOCK n = 1 → u.rd LN_EYECTL.BUSY n = 1 ∧
          u.lane n = { s.lane n with dwell := LN_EYECTL.DWELL.of v } ∧ RegsKept s u [Reg.off .LN_EYECTL n 0])) ∧
    (∀ q : Fin 37, rsvdOk .LN_MAP v = true →
      let place := fun i => bits (LN_MAP.MAP.of v) (2 * i + 1) (2 * i)
      let bad := (∃ i j, i < 4 ∧ j < 4 ∧ i ≠ j ∧ place i = place j) ∨ ∃ i, i < 4 ∧ s.claimed (4 * q.val + i) = true
      (bad → LaneRefuses s (exec (.lnMapWrite q v) s) (4 * q.val)) ∧
      (¬bad → Gives (exec (.lnMapWrite q v) s) fun u => FieldsStored u .LN_MAP (4 * q.val) v ∧
        OnlyRegs s u [Reg.off .LN_MAP (4 * q.val) 0] ∧ ∀ i, i < 4 → u.carrier (4 * q.val + i) = 4 * q.val + place i))

/-- R534 to R536, R538 to R541: lanes move between power states, lock, train and end their scans. -/
def Sys2Proof.Claims.LaneCommands : Prop :=
  ∀ (s : State) (n : LaneNo) (now : Word),
    let b := s.timeTo now
    let p := s.rd LN_CTL.PSTATE n
    let at0 := s.rd LN_STAT.PSTATE_NOW n
    let x := s.lane n
    (∀ cal, p = at0 → exec (.lanePstateReached n cal now) s = .next b) ∧
    (p ≠ at0 → at0 = 0 → Gives (exec (.lanePstateReached n false now) s) fun u => u.rd LN_STAT.CAL_FAIL n = 1 ∧
      u.rd LN_STAT.PSTATE_NOW n = 0 ∧ u.ctr Ctrs.CAL_FAILS n = (s.ctr Ctrs.CAL_FAILS n).add 1 ∧
      (s.log.held = none → u.rd ELG_KCNT.COUNT 0x81 = (s.rd ELG_KCNT.COUNT 0x81 + 1) % 2 ^ 48) ∧ u.serdes = s.serdes) ∧
    (∀ cal, p ≠ at0 → at0 ≠ 0 ∨ cal = true → Gives (exec (.lanePstateReached n cal now) s) fun u =>
      u.rd LN_STAT.PSTATE_NOW n = p ∧ u.log = s.log ∧ (∀ k, k ≠ n.val → u.lane k = s.lane k) ∧
      (at0 = 2 → u.rd LN_STAT.CDR_LOCK n = 0 ∧ u.rd LN_STAT.MARKER_LOCK n = 0 ∧ (u.lane n).training = none ∧
        ScanAborted s u n ∧ (144 ≤ n.val → u.link (s.carried n - 144) = {})) ∧
      (p = 2 → s.rd LN_CTL.TRAIN_EN n = 1 → s.canTrain n = true → Trains u n b.tick.toNat)) ∧
    (p ≠ 2 → exec (.cdrLockGain n now) s = .next s) ∧
    (p = 2 → Gives (exec (.cdrLockGain n now) s) fun u => u.rd LN_STAT.CDR_LOCK n = 1 ∧ u.rd LN_STAT.PSTATE_NOW n = 2 ∧
      u.log = s.log ∧ u.counters = s.counters) ∧
    (s.rd LN_STAT.CDR_LOCK n = 0 → exec (.cdrLockLoss n) s = .next s) ∧
    (s.rd LN_STAT.CDR_LOCK n = 1 → Gives (exec (.cdrLockLoss n) s) fun u => u.rd LN_STAT.CDR_LOCK n = 0 ∧
      u.rd LN_STAT.LOCK_LOSS n = 1 ∧ u.ctr Ctrs.CDR_LOSS n = (s.ctr Ctrs.CDR_LOSS n).add 1 ∧ ScanAborted s u n ∧
      u.rd LN_STAT.PSTATE_NOW n = at0 ∧
      (s.log.held = none → u.rd ELG_KCNT.COUNT 0x82 =
        (if s.claimed n then (s.rd ELG_KCNT.COUNT 0x82 + 1) % 2 ^ 48 else s.rd ELG_KCNT.COUNT 0x82))) ∧
    (∀ mis, s.rd LN_EYECTL.BUSY n = 0 → exec (.eyeScanEnd n mis) s = .next s) ∧
    (∀ mis, s.rd LN_EYECTL.BUSY n = 1 → x.dwell < 32 → Gives (exec (.eyeScanEnd n mis) s) fun u =>
      u.rd LN_EYECTL.BUSY n = 0 ∧ u.rd LN_EYERES.COMPARED n = 2 ^ x.dwell ∧ u.rd LN_EYERES.MISMATCH n = min mis (2 ^ 32 - 1) ∧
      OnlyRegs s u [Reg.off .LN_EYECTL n 0, Reg.off .LN_EYERES n 0]) ∧
    (∀ t, x.training = some t → t + 750000000 ≤ b.tick.toNat → Gives (exec (.trainingTimeout n now) s) fun u =>
      (u.lane n).training = none ∧ u.rd LN_STAT.TRAIN_FAIL n = 1 ∧ (∀ k, k ≠ n.val → u.lane k = s.lane k) ∧
      RegsKept s u [Reg.off .LN_STAT n 0]) ∧
    ((∀ t, x.training = some t → b.tick.toNat < t + 750000000) → exec (.trainingTimeout n now) s = .next b) ∧
    (∀ o0 o1 ask taps,
      let o := exec (.trainingBlockRx n o0 o1 ask taps) s
      let sent := (x.sentDone || ask.toNat.testBit 1) = true
      let got := (x.gotDone || o1.toNat.testBit 1) = true
      let ends := fun (u : State) => (sent ∧ got → (u.lane n).training = none ∧ u.rd LN_STAT.TRAIN_DONE n = 1) ∧
        (¬(sent ∧ got) → (u.lane n).training = x.training ∧ u.rd LN_STAT.TRAIN_DONE n = s.rd LN_STAT.TRAIN_DONE n)
      (x.training = none ∨ o0 ≠ 0xC5 → o = .next s) ∧
      (x.training ≠ none → o0 = 0xC5 → n.val < 144 → Gives o fun u => ends u ∧ u.out = s.out ∧
        (taps = none → u.reg .LN_TXEQ n = s.reg .LN_TXEQ n) ∧
        (∀ v, taps = some v → LN_TXEQ.PRE2.of v + LN_TXEQ.PRE1.of v + LN_TXEQ.POST1.of v ≤ 32 →
          FieldsStored u .LN_TXEQ n v)) ∧
      (x.training ≠ none → o0 = 0xC5 → 144 ≤ n.val → x.asked = some o1 → Gives o fun u => ends u ∧
        u.out = .training n [0xC5, ask, x.reply] :: s.out ∧ u.reg .LN_TXEQ n = s.reg .LN_TXEQ n ∧ u.counters = s.counters) ∧
      (x.training ≠ none → o0 = 0xC5 → 144 ≤ n.val → x.asked ≠ some o1 → Gives o fun u => ends u ∧
        ∃ reply, u.out = .training n [0xC5, ask, reply] :: s.out ∧ (u.lane n).asked = some o1 ∧ (u.lane n).reply = reply ∧
        (o1.toNat.testBit 0 = true → u.reg .LN_TXEQ n = Reg.LN_TXEQ.resetValue n ∧ reply = 0b01010100 ∧
          u.ctr Ctrs.TRAIN_REQS n = (s.ctr Ctrs.TRAIN_REQS n).add 1) ∧
        (o1.toNat.testBit 0 = false →
          let pre2 := s.rd LN_TXEQ.PRE2 n
          let pre1 := s.rd LN_TXEQ.PRE1 n
          let post1 := s.rd LN_TXEQ.POST1 n
          TapMoves (bits o1.toNat 7 6) pre1 (pre2 + pre1 + post1) (u.rd LN_TXEQ.PRE1 n) (bits reply.toNat 7 6) ∧
          TapMoves (bits o1.toNat 3 2) post1 (pre2 + u.rd LN_TXEQ.PRE1 n + post1) (u.rd LN_TXEQ.POST1 n) (bits reply.toNat 3 2) ∧
          u.rd LN_TXEQ.PRE2 n = pre2)))

/-- R543 to R549, R570 to R572: markers and blocks of the TSS links, and records of the DCC ports. Where the spec
leaves a point open it is the model's: log entry 93. -/
def Obligations.TssLinks : Prop :=
  ∀ (s : State) (l : Fin 8),
    let x := s.link l
    let lane := s.carrier (144 + l.val)
    let on := if l.val < 4 then s.rd LN_STAT.PSTATE_NOW lane = 2 else s.rd FRM_DCCCTL.EN (l.val - 4) = 1
    let locked := lockBit s l = 1
    let others := fun (u : State) => ∀ k, k ≠ l.val → u.link k = s.link k
    let after := fun (y : TssLink) (o : Octets) =>
      let r := runAfter y.run y.level (sentBits o)
      ({ y with run := r.1, level := r.2 } : TssLink)
    (∀ pos o,
      let e := exec (.tssMarkerPosition l pos o) s
      let good := markerGood o = true
      let off := (slice o 4 1).headD 0 ≠ BitVec.ofNat 8 (0xA8 + l.val % 4)
      let upright := markerGood (o.map fun b => ~~~b) = false
      (¬on → e = .next s) ∧
      (on → locked → good → upright → Gives e fun u => u.link l = after { x with missed := 0, astray := decide off } o ∧ others u ∧
        lockBit u l = 1 ∧ (off → l.val < 4 → u.rd LN_STAT.LANE_MIS lane = 1) ∧
        (off → 4 ≤ l.val → u.rd FRM_DCCSTAT.LANE_MIS (l.val - 4) = 1)) ∧
      (on → locked → ¬good → upright → x.missed + 1 ≠ 4 → Gives e fun u => u.link l = after { x with missed := x.missed + 1 } o ∧
        others u ∧ u.regs = s.regs ∧ (l.val < 4 → u.ctr Ctrs.MARKER_ERR lane = (s.ctr Ctrs.MARKER_ERR lane).add 1)) ∧
      (on → locked → ¬good → upright → x.missed + 1 = 4 → Gives e fun u => u.link l = after {} o ∧ others u ∧ lockBit u l = 0) ∧
      (on → ¬locked → ¬good → upright → e = .next (s.setLink l (after x o))) ∧
      (on → ¬locked → good → upright → (∃ c ∈ x.cands, c + markerSpan l = pos) → Gives e fun u => lockBit u l = 1 ∧ others u ∧
        u.draws = s.draws + 1 ∧
        u.link l = after { past := (Config.freeWord s.draws).toNat % 2 ^ 31, astray := decide off } o) ∧
      (on → ¬locked → good → upright → (∀ c ∈ x.cands, c + markerSpan l ≠ pos) → Gives e fun u => u.regs = s.regs ∧ others u ∧
        u.link l = after { x with cands := x.cands.filter (fun c => decide (pos < c + markerSpan l)) ++ [pos] } o) ∧
      (on → ¬upright → o.length = 8 → l.val < 4 → Gives e fun u => u.rd LN_STAT.POL_SEEN lane = 1 ∧
        (s.rd LN_CTL.AUTO_POL lane = 1 → u.rd LN_CTL.RX_INV lane = 1 - s.rd LN_CTL.RX_INV lane ∧ lockBit u l = 0 ∧
          u.link l = after {} o)) ∧
      (on → ¬upright → o.length = 8 → 4 ≤ l.val → Gives e fun u => u.rd FRM_DCCSTAT.POL_SEEN (l.val - 4) = 1 ∧
        (s.rd FRM_DCCCTL.AUTO_POL (l.val - 4) = 1 →
          u.rd FRM_DCCCTL.RX_INV (l.val - 4) = 1 - s.rd FRM_DCCCTL.RX_INV (l.val - 4) ∧ lockBit u l = 0 ∧ u.link l = after {} o))) ∧
    (∀ line : List Bool,
      let e := exec (.tssBlockRx l line) s
      let r := destuff x.run x.level line
      let p := descramble 136 x.past (bitsNat r.1)
      let y : TssLink := { x with past := p.2, run := r.2.1, level := r.2.2.1 }
      let b := (if l.val < 4 then s.count Ctrs.STUFF_VIOL lane r.2.2.2 else s).setLink l y
      let ok := if l.val < 4 then b.count Ctrs.BLOCKS_RX lane else b
      let bad := if l.val < 4 then b.count Ctrs.BLOCK_BAD lane else b
      let header := p.1 / 2 ^ 128
      let o := beBytes 16 (p.1 % 2 ^ 128)
      (¬on ∨ ¬locked ∨ r.1.length ≠ 136 → e = .next s) ∧
      (on → locked → r.1.length = 136 →
        (x.astray = true → e = .next (bad.cutRecord l)) ∧
        (x.astray = false → header = 0x0F → e = .next (ok.cutRecord l)) ∧
        (x.astray = false → header = 0x36 → e = (ok.cutRecord l).recordStep l o) ∧
        (x.astray = false → header = 0x5A → x.record = none → e = .next ok) ∧
        (∀ q, x.astray = false → header = 0x5A → x.record = some q → e = ok.recordStep l (q ++ o)) ∧
        (x.astray = false → header ∉ [0x0F, 0x36, 0x5A] → e = .next (bad.cutRecord l)))) ∧
    (∀ (past : Nat) (d : List Bool), past < 2 ^ 31 →
      (descramble d.length past (bitsNat (scramble past d))).1 = bitsNat d) ∧
    (∀ o : Octets, ∃ bs, (s.tssSend l o).out = .tssBlocks l bs :: s.out ∧ bs.length = (o.length + 15) / 16 ∧
      ∀ b ∈ bs, b.length = 17) ∧
    (∀ o : Octets,
      let n := if l.val < 4 then 24 + 16 * beNat (slice o 16 2) else 4 + beNat (slice o 1 1)
      let whole := if l.val < 4 then 18 ≤ o.length ∧ beNat (slice o 16 2) ≤ 160 ∧ n ≤ o.length else n ≤ o.length
      let broken := l.val < 4 ∧ 18 ≤ o.length ∧ 160 < beNat (slice o 16 2)
      let b := s.setLink l { x with record := some o }
      let c := s.setLink l { x with record := none }
      (broken → s.recordStep l o = .next (b.cutRecord l)) ∧ (¬whole → ¬broken → s.recordStep l o = .next b) ∧
      (whole → l.val < 4 → s.recordStep l o = execMirrorRecordRx (o.take n) c) ∧
      (whole → 4 ≤ l.val → s.recordStep l o = .next (c.dccRecord (l.val - 4) (o.take n)))) ∧
    (x.record = none → s.cutRecord l = s) ∧
    (∀ o, x.record = some o → (s.cutRecord l).link l = { x with record := none } ∧ others (s.cutRecord l) ∧
      (l.val < 4 → s.rd WEI_TETHCTL.MIRROR_RX = 1 → (s.cutRecord l).rd WEI_TETHSTAT.CRC_ERR = 1 ∧
        (s.cutRecord l).ctr Ctrs.MIRROR_BAD = (s.ctr Ctrs.MIRROR_BAD).add 1)) ∧
    (∀ (p : Fin 4) (o : Octets),
      let i := beNat (o.take 1)
      let n := beNat (slice o 1 1)
      let g := s.rd FRM_DSTR.GROUP p i
      let len := if s.rd FRM_DSTR.LO p i = 1 then 2 else 2 * (s.rd FRM_CTL.NM1 g + 1)
      let runs := i < 16 ∧ s.rd FRM_DCCCTL.EN p = 1 ∧ s.streamOn p i 0 = true
      let y := s.stream p i
      let e := exec (.dccRecordRx p o) s
      (¬runs → e = .next s) ∧
      (runs → n ≠ len ∨ o.length < 4 + n → e = .next (s.count Ctrs.REC_BAD (16 * p.val + i))) ∧
      (runs → n = len → 4 + n ≤ o.length → Gives e fun u => u.regs = s.regs ∧
        (∀ k, k < 16 → k ≠ i → u.stream p k = s.stream p k) ∧
        (y.insert.length < 4 → u.stream p i = { y with insert := y.insert ++ [slice o 4 n] } ∧ u.counters = s.counters) ∧
        (4 ≤ y.insert.length → u.stream p i = { y with insert := y.insert.drop 1 ++ [slice o 4 n] } ∧
          u.ctr Ctrs.SLIP_DROP (16 * p.val + i) = (s.ctr Ctrs.SLIP_DROP (16 * p.val + i)).add 1)))

end

namespace Sys2Proof.Claims

open Sys2Proof Sys2Proof.Machine

/-- A defect of FRM_DEF is raised (R579). -/
def raised (u : State) (g b : Nat) : Bool := (u.reg .FRM_DEF g).toNat.testBit b

/-- A write to a framer register that is refused (R577). -/
def FramerRefuses (s : State) (o : Outcome) (g : Nat) : Prop :=
  Gives o fun u => u.rd FRM_STAT.REJECT g = 1 ∧ OnlyRegs s u [Reg.off .FRM_STAT g 0]

/-- Entry `t` of a group's staged map breaks R562. -/
def SlotWrong (s : State) (g t : Nat) : Prop :=
  let m := fun k => s.reg .FRM_TSMAP g k
  let used := FRM_TSMAP.USED.of (m t) = 1
  let o := FRM_TSMAP.OWNER.of (m t)
  let live := s.reg .FRM_TSLIVE g t
  used ∧ (20 * (s.rd FRM_CTL.NM1 g + 1) ≤ t ∨ t < o ∨ FRM_TSMAP.USED.of (m o) = 0 ∨ FRM_TSMAP.OWNER.of (m o) ≠ o ∨
    FRM_TSMAP.KIND.of (m o) ≠ FRM_TSMAP.KIND.of (m t) ∨
    o = t ∧ FRM_TSMAP.KIND.of (m t) = 0 ∧ s.l1SlotBad g (s.staged g) t = true) ∨
  slotSame live (m t) t = false ∧ (FRM_TSMAP.USED.of live = 1 ∧ s.slotHeld (g * 160 + FRM_TSMAP.OWNER.of live) = true ∨
    used ∧ s.slotHeld (g * 160 + o) = true)

/-- The six counts of a path end (R573, R654). -/
def pathCounters : List CtrId := [Ctrs.ES_CUR, Ctrs.SES_CUR, Ctrs.UAS_CUR, Ctrs.ES_PREV, Ctrs.SES_PREV, Ctrs.UAS_PREV]

/-- Availability of a path end. -/
abbrev pathEnd (s : State) (k : Nat) : PathEnd := Tbl.get {} s.frm.paths k

end Sys2Proof.Claims

section

open Sys2Proof Sys2Proof.Machine Sys2Proof.Claims

/-- R67, R556, R559, R560, R563, R579: frames of OTUCs and FlexO instances received, and the 3 ms of LOF and LOM.
Where the spec leaves a point open it is the model's: log entry 88. -/
def Obligations.FramerReceive : Prop :=
  ∀ (s : State) (g : Group) (i : Fin 8),
    let n := s.rd FRM_CTL.NM1 g + 1
    let runs := s.rd FRM_CTL.RX_EN g = 1 ∧ i.val < n
    let x := s.otuc g i
    let k := 8 * g.val + i.val
    let others := fun (u : State) => ∀ j, j < 144 → j ≠ k → Tbl.get {} u.frm.otuc j = Tbl.get {} s.frm.otuc j
    let allIn := fun (u : State) => ∀ j, j < n → (u.otuc g j).align.inFrame = true ∧ (u.otuc g j).align.inMf = true
    let same := fun (u : State) => ∀ j, j < n → (u.otuc g j).align.mfas = (u.otuc g 0).align.mfas
    (∀ found mfas overhead msi skew now, ¬runs →
      exec (.otucFrameRx g i found mfas overhead msi skew now) s = .next (s.timeTo now)) ∧
    (∀ (found : List (Fin 16320)) (mfas : Byte) (overhead : BitVec 5) skew now, runs →
      let t := (s.timeTo now).tick.toNat
      let seen := if Tbl.get false s.frm.locked k && !Tbl.get false s.frm.wrong k then found.map (·.val) else []
      let was := x.align.inFrame
      let ok := if was then seen.contains x.pos else x.cands.any seen.contains
      let a := Align.step (if was then x.align else { x.align with streak := if ok then 1 else 0 }) ok mfas.toNat
      let last := i.val + 1 = n
      Gives (exec (.otucFrameRx g i found mfas overhead none skew now) s) fun u =>
        (u.otuc g i).align = { a with away := 0, home := 0 } ∧
        (was = true ∨ ok = false → (u.otuc g i).pos = x.pos) ∧
        (was = false → ∀ before c after, x.cands = before ++ c :: after → c ∈ seen → (∀ d ∈ before, d ∉ seen) →
          (u.otuc g i).pos = c) ∧
        (u.otuc g i).cands = (if was || a.inFrame then [] else seen) ∧ (u.otuc g i).lof = x.lof ∧ (u.otuc g i).lom = x.lom ∧
        (u.otuc g i).since = (if a.inFrame = x.align.inFrame then x.since else t) ∧ others u ∧
        (i.val = 0 → ∀ b, b < 5 → raised u g (5 + b) = overhead.toNat.testBit b) ∧
        (i.val ≠ 0 → ∀ b, 5 ≤ b → b < 10 → raised u g b = raised s g b) ∧
        (last → raised u g 2 = skew) ∧ (¬last → raised u g 2 = raised s g 2) ∧
        (¬allIn u ∨ raised u g 2 = true → u.rd FRM_STAT.IF g = 0) ∧
        (allIn u → raised u g 2 = false → last → same u → u.rd FRM_STAT.IF g = 1) ∧
        (allIn u → raised u g 2 = false → last → ¬same u → u.rd FRM_STAT.IF g = 0) ∧
        (allIn u → raised u g 2 = false → ¬last → u.rd FRM_STAT.IF g = s.rd FRM_STAT.IF g) ∧
        (x.align.inFrame = true → ok = false → u.ctr Ctrs.FAS_ERR g = (s.ctr Ctrs.FAS_ERR g).add 1) ∧
        (x.align.inFrame = true → a.inFrame = false → u.ctr Ctrs.OOF_EVENTS g = (s.ctr Ctrs.OOF_EVENTS g).add 1)) ∧
    (∀ now,
      let b := s.timeTo now
      let o := exec (.lofTimer g i now) s
      let due := runs ∧ x.since + 4500000 ≤ b.tick.toNat
      (¬due → o = .next b) ∧
      (due → Gives o fun u => u.otuc g i = { x with lof := !x.align.inFrame } ∧ others u ∧
        (raised u g 3 = true ↔ ∃ j, j < n ∧ (u.otuc g j).lof = true) ∧ RegsKept s u [Reg.off .FRM_DEF g 0])) ∧
    (∀ now,
      let b := s.timeTo now
      let o := exec (.lomTimer g i now) s
      let due := runs ∧ x.sinceMf + 4500000 ≤ b.tick.toNat
      (¬due → o = .next b) ∧
      (due → Gives o fun u => u.otuc g i = { x with lom := !(x.align.inFrame && x.align.inMf) } ∧ others u ∧
        (raised u g 4 = true ↔ ∃ j, j < n ∧ (u.otuc g j).lom = true) ∧ RegsKept s u [Reg.off .FRM_DEF g 0])) ∧
    (∀ lock gid pid corr uncorr, ¬runs → exec (.flexoFrameRx g i lock gid pid corr uncorr) s = .next s) ∧
    (∀ lock (gid : BitVec 20) (pid : Byte) corr uncorr, runs → Gives (exec (.flexoFrameRx g i lock gid pid corr uncorr) s) fun u =>
      Tbl.get false u.frm.locked k = lock ∧
      (Tbl.get false u.frm.wrong k = true ↔ lock = true ∧ (gid.toNat ≠ s.rd FRM_CTL.GID g ∨ pid.toNat ≠ i.val + 1)) ∧
      (raised u g 0 = true ↔ ∃ j, j < n ∧ Tbl.get false u.frm.locked (8 * g.val + j) = false) ∧
      (raised u g 1 = true ↔ ∃ j, j < n ∧ Tbl.get false u.frm.wrong (8 * g.val + j) = true) ∧
      u.ctr Ctrs.FEC_CORR k = (s.ctr Ctrs.FEC_CORR k).add corr ∧
      u.ctr Ctrs.FEC_UNCORR k = (s.ctr Ctrs.FEC_UNCORR k).add uncorr ∧ others u ∧
      (lock = true → u.otuc g i = x) ∧ (lock = false → (u.otuc g i).align = {} ∧ (u.otuc g i).cands = [] ∧ u.rd FRM_STAT.IF g = 0))

/-- R20, R22, R47, R49, R128, R152, R562, R569, R570, R577, R578, R580, R581, R749: writes to the framers' registers,
and a slot map taken into use. Where the spec leaves a point open it is the model's: log entry 81. -/
def Obligations.FramerRegisters : Prop :=
  ∀ (s : State) (g : Group) (v : Word),
    let n := FRM_CTL.NM1.of v + 1
    let tx := FRM_CTL.TX_EN.of v = 1
    let rx := FRM_CTL.RX_EN.of v = 1
    let wasTx := s.rd FRM_CTL.TX_EN g = 1
    let wasRx := s.rd FRM_CTL.RX_EN g = 1
    let l200 := FRM_CTL.LANE200.of v = 1
    let b := s.plainWrite .FRM_CTL v g
    let o := exec (.frmCtlWrite g v) s
    let bad := (wasTx ∨ wasRx) ∧ (∃ f ∈ [FRM_CTL.NM1, FRM_CTL.LANE200, FRM_CTL.GID], f.of v ≠ s.rd f g) ∨ ¬l200 ∧ 4 < n ∨
      (tx ∧ ¬wasTx ∨ rx ∧ ¬wasRx) ∧ s.lineReady g (decide l200) n = false ∨ wasTx ∧ ¬tx ∧ s.l1Enabled g ≠ [] ∨
      tx ∧ ¬wasTx ∧ n ≤ s.rd FRM_GPOS.SLICE g
    let commits := FRM_CTL.MAP_COMMIT.of v = 1
    let twin := s.rd WEI_GRP_CFG.EN g = 1 ∧ s.rd WEI_GRP_CFG.PROT g = 2
    let packet := ∃ t, t < 160 ∧ FRM_TSMAP.USED.of (s.reg .FRM_TSMAP g t) = 1 ∧ FRM_TSMAP.KIND.of (s.reg .FRM_TSMAP g t) = 1
    (rsvdOk .FRM_CTL v = true → bad → (commits → s.twinPacket g = false) → FramerRefuses s o g) ∧
    (rsvdOk .FRM_CTL v = true → ¬bad → commits → (s.frmCtlWrite g v).twinPacket g = true → o = .fault .hostError) ∧
    (rsvdOk .FRM_CTL v = true → ¬bad → (commits → (s.frmCtlWrite g v).twinPacket g = false) → Gives o fun u => FieldsStored u .FRM_CTL g v ∧
      (wasTx → ¬tx → u.rd GAU_STAT.RUN g = 0 ∧ u.reg .GAU_READ g = s.reg .GAU_READ g) ∧
      ((wasTx → tx) → u.rd GAU_STAT.RUN g = s.rd GAU_STAT.RUN g) ∧
      ((wasRx ↔ rx) → (wasTx → tx) → u = if FRM_CTL.MAP_COMMIT.of v = 1 then b.mapCommit g else b) ∧
      (¬(wasRx ↔ rx) → u.rd FRM_STAT.IF g = 0 ∧ ∀ i, i < 8 → (u.otuc g i).align = {} ∧ (u.otuc g i).lof = false ∧
        (u.otuc g i).lom = false)) ∧
    (s.mapBad g = true ↔ s.rd FRM_STAT.MAP_PEND g = 1 ∨ ∃ t, t < 160 ∧ SlotWrong s g t) ∧
    (s.mapBad g = true → s.twinPacket g = false → FramerRefuses s (exec (.mapCommit g) s) g) ∧
    (s.mapBad g = false → twin → packet → exec (.mapCommit g) s = .fault .hostError) ∧
    (s.mapBad g = false → ¬(twin ∧ packet) → s.twinPacket g = false → Gives (exec (.mapCommit g) s) fun u => u.rd FRM_STAT.MAP_PEND g = 1 ∧
      Tbl.get [] u.frm.pendMap g = (List.range 160).map (fun t => s.reg .FRM_TSMAP g t) ∧
      u = { s with regs := u.regs, frm := u.frm } ∧ RegsKept s u [Reg.off .FRM_STAT g 0]) ∧
    (let u := s.mapTake g
     u.rd FRM_STAT.MAP_PEND g = 0 ∧ Tbl.get [] u.frm.pendMap g = [] ∧ u.recs = s.recs ∧
     ∀ t, t < 160 → u.reg .FRM_TSLIVE g t = (Tbl.get [] s.frm.pendMap g).getD t 0) ∧
    (rsvdOk .FRM_GPOS v = true →
      let p := FRM_GPOS.POS.of v
      let clash := ∃ q i, q < 4 ∧ i < 16 ∧ s.rd FRM_DSTR.EN q i = 1 ∧ s.rd FRM_DSTR.GROUP q i = g.val ∧
        s.rd FRM_DSTR.LO q i = 0 ∧ p ∈ gccPos (s.rd FRM_DSTR.KIND q i)
      (p < 7 ∨ wasTx ∨ wasRx → s.gposClash g = false → FramerRefuses s (exec (.frmGposWrite g v) s) g) ∧
      (7 ≤ p → ¬wasTx → ¬wasRx → clash → exec (.frmGposWrite g v) s = .fault .hostError) ∧
      (7 ≤ p → ¬wasTx → ¬wasRx → ¬clash → Gives (exec (.frmGposWrite g v) s) fun u => FieldsStored u .FRM_GPOS g v ∧
        OnlyRegs s u [Reg.off .FRM_GPOS g 0])) ∧
    (∀ j : Fin 4, rsvdOk .FRM_CPORT v = true →
      let en := FRM_CPORT.EN.of v = 1
      let was := s.rd FRM_CPORT.EN g j = 1
      let rate := FRM_CPORT.RATE.of v
      let port := 4 * g.val + j.val
      let lanes := fun r => [1, 1, 2, 4, 8].getD r 0
      let allowed := rate ≤ 1 ∨ rate = 2 ∧ j.val % 2 = 0 ∨ rate = 3 ∧ j.val = 0 ∨ rate = 4 ∧ j.val = 0 ∧ g.val % 2 = 0
      let bad := en ∧ ¬allowed ∨ en ∧ ¬was ∧ (∃ i, i < lanes rate ∧ s.laneAt (port + i) (if rate = 0 then 1 else 2) = false) ∨
        was ∧ (rate ≠ s.rd FRM_CPORT.RATE g j ∨ FRM_CPORT.CLASS.of v ≠ s.rd FRM_CPORT.CLASS g j) ∨
        was ∧ ¬en ∧ ∃ t, t < 160 ∧ s.l1Chan (g.val * 160 + t) = true ∧ s.rd FRM_TSLIVE.PORT g t = port
      let overlap := ∃ p, p < 72 ∧ p ≠ port ∧ s.rd FRM_CPORT.EN (p / 4) (p % 4) = 1 ∧
        port < p + lanes (s.rd FRM_CPORT.RATE (p / 4) (p % 4)) ∧ p < port + lanes rate
      let tooFast := rate = 4 ∧ ∃ t, t < 160 ∧ s.l1Chan (g.val * 160 + t) = true ∧ s.rd FRM_TSLIVE.PORT g t = port
      (bad → s.portsOverlap g j = false → s.l1TooFast g j = false → FramerRefuses s (exec (.frmCportWrite g j v) s) g) ∧
      (¬bad → en → overlap ∨ tooFast → exec (.frmCportWrite g j v) s = .fault .hostError) ∧
      (¬bad → en → ¬overlap → ¬tooFast → Gives (exec (.frmCportWrite g j v) s) fun u => u.rd FRM_CPORT.EN g j = 1 ∧
        u.rd FRM_CPORT.RATE g j = rate ∧ u.rd FRM_CPORT.CLASS g j = FRM_CPORT.CLASS.of v ∧
        OnlyRegs s u [Reg.off .FRM_CPORT g j]) ∧
      (¬bad → ¬en → Gives (exec (.frmCportWrite g j v) s) fun u => u.rd FRM_CPORT.EN g j = 0 ∧
        OnlyRegs s u [Reg.off .FRM_CPORT g j])) ∧
    (∀ (p : Fin 4) (i : Fin 16), rsvdOk .FRM_DSTR v = true →
      let src := fun (w : Word) => (FRM_DSTR.GROUP.of w, FRM_DSTR.KIND.of w, FRM_DSTR.LO.of w,
        if FRM_DSTR.LO.of w = 1 then FRM_DSTR.SLOT.of w else 0)
      let was := s.rd FRM_DSTR.EN p i = 1
      let fields := [FRM_DSTR.INS, FRM_DSTR.KIND, FRM_DSTR.GROUP, FRM_DSTR.LO, FRM_DSTR.SLOT]
      let bad := FRM_DSTR.KIND.of v = 3 ∨ 18 ≤ FRM_DSTR.GROUP.of v ∨ FRM_DSTR.LO.of v = 1 ∧ FRM_DSTR.KIND.of v = 0 ∨
        (∃ q k, q < 4 ∧ k < 16 ∧ (q, k) ≠ (p.val, i.val) ∧ s.rd FRM_DSTR.EN q k = 1 ∧ src (s.reg .FRM_DSTR q k) = src v) ∨
        was ∧ setBits v.toNat 31 31 0 ≠ setBits (s.reg .FRM_DSTR p i).toNat 31 31 0
      let h := FRM_DSTR.GROUP.of v
      let octets := gccPos (FRM_DSTR.KIND.of v)
      let own := FRM_DSTR.EN.of v = 1 ∧ (FRM_DSTR.LO.of v = 0 ∧ s.rd FRM_GPOS.POS h ∈ octets ∨
        FRM_DSTR.LO.of v = 1 ∧ s.l1Chan (h * 160 + FRM_DSTR.SLOT.of v) = true ∧
          ∃ k, k < 8 ∧ cooPos (s.reg .FRM_COOPOS h).toNat k ∈ octets)
      let clean := s.gposClash h = false ∧ s.cooClash h = false
      (¬bad → own → exec (.frmDstrWrite p i v) s = .fault .hostError) ∧
      (bad → clean → Gives (exec (.frmDstrWrite p i v) s) fun u => u.rd FRM_DCCSTAT.REJECT p = 1 ∧
        OnlyRegs s u [Reg.off .FRM_DCCSTAT p 0]) ∧
      (¬bad → ¬own → clean → Gives (exec (.frmDstrWrite p i v) s) fun u => (∀ f ∈ FRM_DSTR.EN :: fields, u.rd f p i = f.of v) ∧
        RegsKept s u [Reg.off .FRM_DSTR p i] ∧ (FRM_DSTR.EN.of v = 1 → ¬was → u.stream p i = {}) ∧
        (FRM_DSTR.EN.of v = 0 ∨ was → u.frm = s.frm) ∧ u = { s with regs := u.regs, frm := u.frm }))

/-- R570 to R575: GCC streams, and the performance of paths. Where the spec leaves a point open it is the model's: log
entry 88. -/
def Obligations.FramerCommands : Prop :=
  (∀ (s : State) (p : Fin 4) (i : Fin 16) (o : Octets),
    let x := s.stream p i
    let k := 16 * p.val + i.val
    let others := fun (u : State) => ∀ q j, q < 4 → j < 16 → (q, j) ≠ (p.val, i.val) → u.stream q j = s.stream q j
    let g := s.rd FRM_DSTR.GROUP p i
    let len := if s.rd FRM_DSTR.LO p i = 1 then 2 else 2 * (s.rd FRM_CTL.NM1 g + 1)
    let takes := s.streamOn p i 1 = true ∧ o.length = len
    (¬takes → exec (.gccExtract p i o) s = .next s) ∧
    (takes → Gives (exec (.gccExtract p i o) s) fun u => others u ∧ u.regs = s.regs ∧
      (u.stream p i).seqNo = (x.seqNo + 1) % 2 ^ 16 ∧ (u.stream p i).insert = x.insert ∧
      (x.extract.length < 4 → (u.stream p i).extract = x.extract ++ [(x.seqNo, o)] ∧ u.counters = s.counters) ∧
      (4 ≤ x.extract.length → (u.stream p i).extract = x.extract ∧
        u.ctr Ctrs.SLIP_DROP k = (s.ctr Ctrs.SLIP_DROP k).add 1)) ∧
    (s.streamOn p i 0 = false → exec (.gccInsert p i) s = .next s) ∧
    (s.streamOn p i 0 = true → Gives (exec (.gccInsert p i) s) fun u => others u ∧ u.regs = s.regs ∧
      (∀ f rest, x.insert = f :: rest → u.out = .gccInsert g k f :: s.out ∧ u.counters = s.counters ∧
        u.stream p i = { x with insert := rest, last := some f }) ∧
      (∀ f, x.insert = [] → x.last = some f → u.out = .gccInsert g k f :: s.out ∧ u.frm = s.frm ∧
        u.ctr Ctrs.SLIP_REP k = (s.ctr Ctrs.SLIP_REP k).add 1) ∧
      (x.insert = [] → x.last = none → u = s.emit (.gccInsert g k (List.replicate len 0)))) ∧
    (let start := Tbl.get 0 s.frm.turn p
     let turn := fun (j : Nat) => (j + 16 - start % 16) % 16
     let first := x.extract ≠ [] ∧ ∀ j, j < 16 → (s.stream p j).extract ≠ [] → turn i ≤ turn j
     ((∀ j, j < 16 → (s.stream p j).extract = []) ∨ s.rd FRM_DCCCTL.EN p = 0 → exec (.dccRecordTx p) s = .next s) ∧
     (∀ sq f rest, first → x.extract = (sq, f) :: rest → s.rd FRM_DCCCTL.EN p = 1 →
      Gives (exec (.dccRecordTx p) s) fun u => others u ∧ u.stream p i = { x with extract := rest } ∧
        Tbl.get 0 u.frm.turn p = (i.val + 1) % 16 ∧
        ∃ rec0 bs, u.out = .tssBlocks (4 + p.val) bs :: .dccRecord p rec0 :: s.out ∧ 16 * bs.length = rec0.length ∧ beNat (rec0.take 1) = i.val ∧
          rec0.length = (if f.length ≤ 12 then 16 else 32) ∧
          (f.length ≤ 28 → beNat (slice rec0 1 1) = f.length ∧ beNat (slice rec0 2 2) = sq % 2 ^ 16 ∧
            (rec0.drop 4).take f.length = f)))) ∧
  (∀ (s : State) (k : Nat) (es ses : Bool), k < 5832 →
    let x := pathEnd s k
    let u := s.pathSecond k es ses
    let kept := fun (l : List CtrId) => ∀ c ∈ pathCounters, c ∉ l → u.ctr c k = s.ctr c k
    (∀ j, j ≠ k → pathEnd u j = pathEnd s j) ∧ u.regs = s.regs ∧
    (x.unavailable = false → ses = false → pathEnd u k = {} ∧ kept [Ctrs.ES_CUR] ∧
      u.ctr Ctrs.ES_CUR k = if es then (s.ctr Ctrs.ES_CUR k).add 1 else s.ctr Ctrs.ES_CUR k) ∧
    (x.unavailable = false → ses = true → es = true → x.run.length < 9 →
      pathEnd u k = { x with run := (true, false) :: x.run } ∧ kept [Ctrs.ES_CUR, Ctrs.SES_CUR] ∧
      u.ctr Ctrs.ES_CUR k = (s.ctr Ctrs.ES_CUR k).add 1 ∧ u.ctr Ctrs.SES_CUR k = (s.ctr Ctrs.SES_CUR k).add 1) ∧
    (x.unavailable = false → ses = true → es = true → x.run.length = 9 → (∀ r ∈ x.run, r.2 = false) →
      9 ≤ (s.ctr Ctrs.ES_CUR k).n.toNat → 9 ≤ (s.ctr Ctrs.SES_CUR k).n.toNat → pathEnd u k = { unavailable := true } ∧
      kept [Ctrs.ES_CUR, Ctrs.SES_CUR, Ctrs.UAS_CUR] ∧
      ((s.ctr Ctrs.ES_CUR k).n.toNat + 1 < 2 ^ 48 → (u.ctr Ctrs.ES_CUR k).n.toNat = (s.ctr Ctrs.ES_CUR k).n.toNat - 9) ∧
      ((s.ctr Ctrs.SES_CUR k).n.toNat + 1 < 2 ^ 48 → (u.ctr Ctrs.SES_CUR k).n.toNat = (s.ctr Ctrs.SES_CUR k).n.toNat - 9) ∧
      (u.ctr Ctrs.UAS_CUR k).n = (s.ctr Ctrs.UAS_CUR k).n + 10) ∧
    (x.unavailable = true → ses = true → pathEnd u k = { x with run := [] } ∧ kept [Ctrs.UAS_CUR] ∧
      u.ctr Ctrs.UAS_CUR k = (s.ctr Ctrs.UAS_CUR k).add 1) ∧
    (x.unavailable = true → ses = false → x.run.length < 9 → pathEnd u k = { x with run := (es, false) :: x.run } ∧
      kept [Ctrs.UAS_CUR] ∧ u.ctr Ctrs.UAS_CUR k = (s.ctr Ctrs.UAS_CUR k).add 1) ∧
    (x.unavailable = true → ses = false → x.run.length = 9 → (∀ r ∈ x.run, r = (false, false)) → es = false →
      9 ≤ (s.ctr Ctrs.UAS_CUR k).n.toNat → (s.ctr Ctrs.UAS_CUR k).n.toNat + 1 < 2 ^ 48 →
      pathEnd u k = {} ∧ kept [Ctrs.UAS_CUR] ∧
      (u.ctr Ctrs.UAS_CUR k).n.toNat = (s.ctr Ctrs.UAS_CUR k).n.toNat - 9)) ∧
  ∀ (s : State) (now : Word),
    let b := s.timeTo now
    let sec := timeSec b.timeNow
    let bin := sec / 900
    let on := fun p => p < 2916 ∧ s.pathOn p = true
    (∀ seen, sec ≤ s.frm.second → exec (.pmSecond seen now) s = .next b) ∧
    (∀ seen, s.frm.second < sec → Gives (exec (.pmSecond seen now) s) fun u => u.frm.second = sec ∧ u.regs = s.regs ∧
      ∀ p e, e < 2 → (¬on p → pathEnd u (2 * p + e) = pathEnd s (2 * p + e)) ∧
        (on p →
          let r := ((seen.find? fun x => decide (x.1 = p) && decide (x.2.1 = decide (e = 1))).map fun x => x.2.2).getD (0, 0, false)
          let bad := r.2.2 || s.pathDefect p e
          let v := b.pathSecond (2 * p + e) (bad || decide (0 < r.2.1)) (bad || (decide (0 < r.2.1) && decide (15 * r.1 ≤ 100 * r.2.1)))
          pathEnd u (2 * p + e) = pathEnd v (2 * p + e) ∧ ∀ c ∈ pathCounters, u.ctr c (2 * p + e) = v.ctr c (2 * p + e))) ∧
    (bin ≤ s.frm.bin ∨ s.frm.second < 900 * bin → exec (.pmBinBoundary now) s = .next b) ∧
    (s.frm.bin < bin → 900 * bin ≤ s.frm.second → Gives (exec (.pmBinBoundary now) s) fun u => u.frm.bin = bin ∧ u.regs = s.regs ∧
      ∀ p e, e < 2 → (¬on p → p < 2916 → ∀ c ∈ pathCounters, u.ctr c (2 * p + e) = s.ctr c (2 * p + e)) ∧
        (on p →
          let k := 2 * p + e
          u.ctr Ctrs.ES_PREV k = s.ctr Ctrs.ES_CUR k ∧ u.ctr Ctrs.SES_PREV k = s.ctr Ctrs.SES_CUR k ∧
          u.ctr Ctrs.UAS_PREV k = s.ctr Ctrs.UAS_CUR k ∧
          (∀ c ∈ [Ctrs.ES_CUR, Ctrs.SES_CUR, Ctrs.UAS_CUR], u.ctr c k = {}) ∧
          (pathEnd u k).unavailable = (pathEnd s k).unavailable ∧
          (pathEnd u k).run = (pathEnd s k).run.map fun r => (r.1, true)))

end

section

open Sys2Proof Sys2Proof.Machine Sys2Proof.Claims

/-- R6, R29, R34, R53, R83, R118, R293: commands of the groups, frames, Gauges, Races and leases complete from every
state, but for a write that sets a reserved bit or meets another host error. -/
def Sys2Proof.Claims.DatapathCommandsComplete : Prop :=
  ∀ s : State,
  (∀ m offset wide write, Completes (.unlistedOffsetAccess m offset wide write) s) ∧
  (∀ m offset write, Completes (.unmappedBar0Access m offset write) s) ∧
  (∀ (g : Group) (v : Word), rsvdOk .WEI_GRP_CFG v = true → s.tooFewStandby (s.grpCfgWrite g v) g = false →
      (WEI_GRP_CFG.EN.of v = 1 → (s.grpCfgWrite g v).twinPacket g = false) → Completes (.weiGrpCfgWrite g v) s) ∧
  (∀ g, Completes (.groupDrainEnd g) s) ∧
  (∀ (p : Port) (f : Octets) (flips : List (Nat × BitVec 128)) (bad : Fin 65), (((State.ptpStamp { s with basin := { s.basin with badFree := max s.basin.badFree bad.val } } p false
        (body f)).dflip flips).classify p f).mixedQueue = false → Completes (.clientFrameRx p f flips bad) s) ∧
  (∀ q, Completes (.frameEnqueue q) s) ∧ (∀ g flips bue late, Completes (.egressFrameRead g flips bue late) s) ∧
  (∀ g, Completes (.egressFrameDelivered g) s) ∧
  (∀ (c : Channel) (octets : Octets) (sue : Option (Fin 4 × Nat × Fin 5)) (finds : List MemFind), s.twin (chanGroup c) = false → Completes (.ingressFrameRx c octets sue finds) s) ∧
  (∀ g, Completes (.icvVerdict g) s) ∧ (∀ flips, Completes (.learnRequest flips) s) ∧
  (∀ g stale now, Completes (.gaugeFrameStart g stale now) s) ∧
  (∀ (sel : Nat) (r : Word), offsetOf r < 16320 → Completes (.gaugeEventDue sel r) s) ∧
  (∀ g now, Completes (.epochStart g now) s) ∧ (∀ g word mfas offset, Completes (.gaugeWordRx g word mfas offset) s) ∧
  (∀ (v : Word), rsvdOk .GAU_SNAPCTL v = true → Completes (.gauSnapctlTrig v) s) ∧
  (∀ (v : Word), rsvdOk .GAU_RECORD v = true → Completes (.gauRecordWrite v) s) ∧
  (∀ m g wide, Completes (.gauReadLatch m g wide) s) ∧ (∀ g d bad, Completes (.ivDescriptorAccept g d bad) s) ∧
  (∀ g d c, Completes (.keystreamReady g d c) s) ∧
  (∀ k d chan m flags block sq taken cuts now, Completes (.raceBlock k d chan m flags block sq taken cuts now) s) ∧
  (∀ k, Completes (.rcCtlTest k) s) ∧ (∀ k, Completes (.rcCtlFlagClr k) s) ∧
  (∀ k pass d unit, Completes (.raceTestDone k pass d unit) s) ∧
  (∀ k pass d unit, Completes (.raceWakeDone k pass d unit) s) ∧ (∀ k, Completes (.raceGateClose k) s) ∧
  (∀ k, Completes (.weirDispute k) s) ∧ (∀ k data again eg ing cuts, Completes (.raceJudged k data again eg ing cuts) s) ∧
  (∀ g bad0 bad1 lost, Completes (.failoverCkptLoaded g bad0 bad1 lost) s) ∧ (∀ g, Completes (.leaseGrant g) s) ∧
  (∀ g eg ing cuts now, Completes (.leaseLapse g eg ing cuts now) s) ∧
  (∀ k d good again eg ing cuts, Completes (.sampleCheck k d good again eg ing cuts) s) ∧
  (∀ c d r passed again cuts, Completes (.twinBlockSettle c d r passed again cuts) s) ∧
  (∀ c, Completes (.channelJoin c) s) ∧ Completes .eddyShelterEmpty s ∧
  (∀ (v : Word), rsvdOk .WEI_FAILCLR v = true → Completes (.weiFailclrWrite v) s) ∧
  (∀ (v : Word) (now : Word), rsvdOk .WEI_CARDGRANT v = true → Completes (.cardGrant v now) s) ∧
  (∀ cuts parts now, Completes (.cardLeaseExpire cuts parts now) s) ∧ (∀ o, Completes (.mirrorRecordRx o) s) ∧
  (∀ c payload bad, Completes (.l1TxFrame c payload bad) s) ∧ (∀ c r bad, Completes (.l1RxFrame c r bad) s)

/-- R6, R168, R182, R222: commands of the L1 channels and the MACsec records complete from every state, but for a
write that sets a reserved bit or meets another host error. -/
def Sys2Proof.Claims.SecurityCommandsComplete : Prop :=
  ∀ s : State,
  (∀ c word check last, Completes (.countWordRx c word check last) s) ∧
  (∀ c rel l, Completes (.shortTagVerdict c rel l) s) ∧ (∀ c rel l, Completes (.longTagVerdict c rel l) s) ∧
  (∀ c resume, Completes (.quarantineEnd c resume) s) ∧ (∀ c, Completes (.retirementComplete c) s) ∧
  (∀ c, Completes (.l1ChannelCloseEnd c) s) ∧
  (∀ (g : Group) (v : Word), rsvdOk .FRM_COOPOS v = true → (s.cooposWrite g v).cooClash g = false → Completes (.frmCooposWrite g v) s) ∧
  (∀ (g : Group) (v : Word), rsvdOk .FRM_L1CTL v = true → Completes (.frmL1ctlWrite g v) s) ∧
  (∀ (g : Group) (v : Word), rsvdOk .FRM_L1HOLD v = true → Completes (.frmL1holdWrite g v) s) ∧
  (∀ g slot, Completes (.l1Read g slot) s) ∧
  (∀ (g : Group) (slot : Byte), RecKind.l1.imageOk (s.l1Image g) = true → L1.POLICY.of (s.l1Image g) ≠ 1 → Completes (.l1Write g slot) s) ∧
  (∀ g slot, Completes (.l1Switch g slot) s) ∧ (∀ g slot, Completes (.l1Retire g slot) s) ∧
  (∀ g slot, Completes (.qclr g slot) s) ∧ (∀ g op slot, Completes (.l1CmdInvalid g op slot) s) ∧
  (∀ idx ue, Completes (.secyRd idx ue) s) ∧
  (∀ (idx : BitVec 18), RecKind.secy.imageOk s.scyImage = true → Completes (.secyWr idx) s) ∧
  (∀ idx ue, Completes (.scRd idx ue) s) ∧
  (∀ (idx : BitVec 18), RecKind.sc.imageOk s.scyImage = true → (∀ g, s.rd WEI_GRP_CFG.PROT g ≠ 2) → Completes (.scWr idx) s) ∧
  (∀ idx ue, Completes (.saRd idx ue) s) ∧
  (∀ (idx : BitVec 18), RecKind.sa.imageOk s.scyImage = true → (∀ y, s.xpn y = false) → Completes (.saWr idx) s) ∧
  (∀ idx ue, Completes (.chRd idx ue) s) ∧
  (∀ (idx : BitVec 18), RecKind.ch.imageOk s.scyImage = true → (∀ g, s.rd WEI_GRP_CFG.PROT g ≠ 2) → Completes (.chWr idx) s) ∧
  (∀ idx, Completes (.sciAdd idx) s) ∧ (∀ idx, Completes (.sciDel idx) s) ∧ (∀ idx, Completes (.sciFind idx) s) ∧
  (∀ idx, Completes (.scySwitch idx) s) ∧ (∀ idx, Completes (.scyDisable idx) s) ∧
  (∀ op idx, Completes (.scyCmdInvalid op idx) s) ∧ (∀ sc, Completes (.scDrainEnd sc) s) ∧
  (∀ sa, Completes (.saDrainEnd sa) s)

/-- R6, R263, R276: commands of KDER and the key store complete from every state, but for a write that sets a reserved
bit or meets another host error. -/
def Sys2Proof.Claims.KeyCommandsComplete : Prop :=
  ∀ s : State,
  (∀ t tag rs, Completes (.kderDerive t tag rs) s) ∧ (∀ t tag rs, Completes (.kderEnc t tag rs) s) ∧
  (∀ t tag rs, Completes (.kderDec t tag rs) s) ∧ (∀ t tag rs, Completes (.cmacGen t tag rs) s) ∧
  (∀ t tag rs, Completes (.cmacChk t tag rs) s) ∧ (∀ t tag rs, Completes (.kderWrap t tag rs) s) ∧
  (∀ t tag rs, Completes (.kderUnwrap t tag rs) s) ∧ (∀ t tag rs, Completes (.mkaDerive t tag rs) s) ∧
  (∀ t tag rs, Completes (.sakUnwrap t tag rs) s) ∧ (∀ t tag rs, Completes (.sakGen t tag rs) s) ∧
  (∀ t tag rs, Completes (.icvGen t tag rs) s) ∧ (∀ t tag rs, Completes (.icvChk t tag rs) s) ∧
  (∀ t tag rs, Completes (.unrexInit t tag rs) s) ∧ (∀ t tag rs, Completes (.unrexResp t tag rs) s) ∧
  (∀ t tag rs, Completes (.unrexFinish t tag rs) s) ∧ (∀ t tag rs, Completes (.unrexConfirm t tag rs) s) ∧
  (∀ t tag rs, Completes (.unrexCancel t tag rs) s) ∧ (∀ now, Completes (.unrexSessionExpire now) s) ∧
  (∀ t tag rs, Completes (.attest t tag rs) s) ∧ (∀ t tag rs, Completes (.cekRead t tag rs) s) ∧
  (∀ t tag rs, Completes (.dsImport t tag rs) s) ∧ (∀ t tag rs, Completes (.cakImport t tag rs) s) ∧
  (∀ t tag rs, Completes (.cakRemove t tag rs) s) ∧ (∀ t tag rs, Completes (.kderInvalid t tag rs) s) ∧
  (∀ (k : PageNo) (records : List (Fin 257)), (∀ o ∈ s.tide.ops, descOp o.desc ≠ 1 ∧ descRes o.desc = 0) → Completes (.springOpComplete k records) s) ∧
  Completes .springPageDispatch s ∧
  (∀ (k : PageNo) (v : Word), rsvdOk .SPR_PGOWN v = true → Completes (.sprPgownWrite k v) s) ∧
  (∀ k, Completes (.sprPageOwnerTakeover k) s) ∧ (∀ k m n o write, Completes (.sprPageForeignAccess k m n o write) s) ∧
  Completes .kstInfo s ∧ Completes .kstDestroy s ∧ Completes .kstOrphan s ∧ Completes .kstSetuse s ∧
  Completes .kstCtrRead s ∧ Completes .kstCtrInc s ∧ (∀ seven, Completes (.kstCmdInvalid seven) s) ∧
  Completes .orphanSweepEnd s

/-- R6, R323, R387: commands of Balrid and the Tides complete from every state, but for a write that sets a
reserved bit or meets another host error. -/
def Sys2Proof.Claims.ThreadCommandsComplete : Prop :=
  ∀ s : State,
  (∀ t rd rs1 rs2, Completes (.balAdd t rd rs1 rs2) s) ∧ (∀ t rd rs1 rs2, Completes (.balSub t rd rs1 rs2) s) ∧
  (∀ t rd rs1 rs2, Completes (.balAnd t rd rs1 rs2) s) ∧ (∀ t rd rs1 rs2, Completes (.balOr t rd rs1 rs2) s) ∧
  (∀ t rd rs1 rs2, Completes (.balXor t rd rs1 rs2) s) ∧ (∀ t rd rs1 rs2, Completes (.balSll t rd rs1 rs2) s) ∧
  (∀ t rd rs1 rs2, Completes (.balSrl t rd rs1 rs2) s) ∧ (∀ t rd rs1 rs2, Completes (.balSra t rd rs1 rs2) s) ∧
  (∀ t rd rs1 rs2, Completes (.balMul t rd rs1 rs2) s) ∧ (∀ t rd rs1 rs2, Completes (.balMulhu t rd rs1 rs2) s) ∧
  (∀ t rd rs1 rs2, Completes (.balSlt t rd rs1 rs2) s) ∧ (∀ t rd rs1 rs2, Completes (.balSltu t rd rs1 rs2) s) ∧
  (∀ t rd rs1 rs2, Completes (.balSltw t rd rs1 rs2) s) ∧ (∀ t rd rs1, Completes (.balClz t rd rs1) s) ∧
  (∀ t rd rs1, Completes (.balPopc t rd rs1) s) ∧ (∀ t rd rs1 imm, Completes (.balAddi t rd rs1 imm) s) ∧
  (∀ t rd rs1 imm, Completes (.balAndi t rd rs1 imm) s) ∧ (∀ t rd rs1 imm, Completes (.balOri t rd rs1 imm) s) ∧
  (∀ t rd rs1 imm, Completes (.balXori t rd rs1 imm) s) ∧ (∀ t rd rs1 imm, Completes (.balShi t rd rs1 imm) s) ∧
  (∀ t rd rs1 imm, Completes (.balSlli t rd rs1 imm) s) ∧ (∀ t rd rs1 imm, Completes (.balSrli t rd rs1 imm) s) ∧
  (∀ t rd rs1 imm, Completes (.balSrai t rd rs1 imm) s) ∧ (∀ t rd rs1 imm, Completes (.balBeq t rd rs1 imm) s) ∧
  (∀ t rd rs1 imm, Completes (.balBne t rd rs1 imm) s) ∧ (∀ t rd rs1 imm, Completes (.balBlt t rd rs1 imm) s) ∧
  (∀ t rd rs1 imm, Completes (.balBge t rd rs1 imm) s) ∧ (∀ t rd rs1 imm, Completes (.balBltu t rd rs1 imm) s) ∧
  (∀ t rd rs1 imm, Completes (.balBgeu t rd rs1 imm) s) ∧ (∀ t rd hi imm, Completes (.balJal t rd hi imm) s) ∧
  (∀ t rd rs1 imm, Completes (.balJalr t rd rs1 imm) s) ∧ (∀ t imm, Completes (.balTrap t imm) s) ∧
  (∀ t rd base offset size ecc fe bic, Completes (.balLd t rd base offset size ecc fe bic) s) ∧
  (∀ t rs1, Completes (.balEnd t rs1) s) ∧ (∀ t, Completes (.balEndDone t) s) ∧ (∀ t, Completes (.balFence t) s) ∧
  (∀ t, Completes (.balFenceDone t) s) ∧ (∀ t rd, Completes (.balFenceC t rd) s) ∧ (∀ t, Completes (.balFenceCDone t) s) ∧
  (∀ t rd rs1, Completes (.balOrderSet t rd rs1) s) ∧ (∀ t rd rs1, Completes (.balReseal t rd rs1) s) ∧
  (∀ t further, Completes (.balResealDone t further) s) ∧ (∀ t rd sel, Completes (.balRds t rd sel) s) ∧
  (∀ t w, Completes (.balIllegalInstruction t w) s) ∧ (∀ t rd sel, Completes (.balGread t rd sel) s) ∧
  (∀ (t : ThreadNo) (rd : GReg) (rs1 : GReg) (sel : Fin 64), offsetOf (s.g t rs1) < 16320 → Completes (.balWaitg t rd rs1 sel) s) ∧
  (∀ t, Completes (.balWaitgDue t) s) ∧
  (∀ (t : ThreadNo) (rd : GReg) (rs1 : GReg) (rs2 : GReg) (sel : Fin 64), offsetOf (s.g t rs1) < 16320 → Completes (.balAtg t rd rs1 rs2 sel) s) ∧
  (∀ (t : ThreadNo) (rd : GReg) (rs1 : GReg) (rs2 : GReg), offsetOf (s.g t rs1) < 16320 → Completes (.balGadv t rd rs1 rs2) s) ∧
  (∀ (t : ThreadNo) (rd : GReg) (rs1 : GReg) (rs2 : GReg), offsetOf (s.g t rs1) < 16320 → offsetOf (s.g t rs2) < 16320 → Completes (.balGdist t rd rs1 rs2) s) ∧
  (∀ t rd tag, Completes (.balWaitc t rd tag) s) ∧ (∀ t rd, Completes (.balWaitcAny t rd) s) ∧
  (∀ t tag rs bad, Completes (.balCtrd t tag rs bad) s) ∧ (∀ t tag rs bad, Completes (.balCtrdClear t tag rs bad) s) ∧
  (∀ opc t tag rs, Completes (.engineOpInvalid opc t tag rs) s) ∧
  (∀ (t : ThreadNo) (tag : BitVec 8), (∀ o ∈ s.tide.ops, descRes o.desc = 0) → Completes (.engineOpComplete t tag) s) ∧
  (∀ (m : Master) (t : ThreadNo) (v : Word), rsvdOk .TID_THRCFG v = true → Completes (.tidThrcfgWrite m t v) s) ∧
  (∀ t, Completes (.threadStart t) s) ∧ (∀ t, Completes (.threadStop t) s) ∧ (∀ t, Completes (.threadStopped t) s) ∧
  (∀ m t, Completes (.clrtrap m t) s) ∧ (∀ t, Completes (.trapCleared t) s) ∧ (∀ v, Completes (.tideReset v) s) ∧
  (∀ v, Completes (.icacheInvalidate v) s) ∧ Completes .eventOvfRecord s ∧ (∀ n, Completes (.handlerDispatch n) s) ∧
  (∀ core, Completes (.atgBlockDispatch core) s) ∧ (∀ t now, Completes (.handlerLimitTrap t now) s) ∧
  (∀ r, Completes (.ringDescriptorDispatch r) s)

/-- R6, R414, R450, R507: commands of Delta, the Basin, Culvert and the colours complete from every state, but
for a write that sets a reserved bit or meets another host error. -/
def Sys2Proof.Claims.TableCommandsComplete : Prop :=
  ∀ s : State,
  (∀ p, Completes (.deltaLookup p) s) ∧ (∀ p, Completes (.deltaAdd p) s) ∧ (∀ p, Completes (.deltaUpdate p) s) ∧
  (∀ p, Completes (.deltaDelete p) s) ∧ (∀ p flips, Completes (.deltaRead p flips) s) ∧
  (∀ p, Completes (.deltaClear p) s) ∧ (∀ p, Completes (.deltaFlush p) s) ∧ Completes .flushEnd s ∧
  (∀ p, Completes (.deltaCmdInvalid p) s) ∧ (∀ v, Completes (.dltHseedWrite v) s) ∧ Completes .eddyScanPassStart s ∧
  (∀ flips, Completes (.eddyScanBucket flips) s) ∧ (∀ p ue, Completes (.queueRead p ue) s) ∧
  (∀ p, Completes (.queueConfig p) s) ∧ (∀ p, Completes (.queueDisable p) s) ∧ (∀ q, Completes (.queueDrainEnd q) s) ∧
  (∀ p ue, Completes (.nodeRead p ue) s) ∧ (∀ p, Completes (.nodeConfig p) s) ∧ (∀ p, Completes (.nodeDisable p) s) ∧
  (∀ p ue, Completes (.policerRead p ue) s) ∧ (∀ p, Completes (.policerConfig p) s) ∧
  (∀ p, Completes (.policerDisable p) s) ∧ (∀ p shp op, Completes (.bsnCmdInvalid p shp op) s) ∧
  (∀ (v : Word), rsvdOk .BSN_POOL v = true → s.poolMisplaced v = false → Completes (.bsnPoolWrite v) s) ∧
  Completes .poolReady s ∧ (∀ (g : Group) (v : Word), rsvdOk .BSN_RES v = true → Completes (.bsnResWrite g v) s) ∧
  (∀ p sec lo n flips find, Completes (.culvertRead p sec lo n flips find) s) ∧
  (∀ p sec d find, Completes (.culvertWrite p sec d find) s) ∧
  (∀ p sec lo d flips find, Completes (.culvertPartialWrite p sec lo d flips find) s) ∧
  (∀ flips, Completes (.scrubSector flips) s) ∧
  (∀ (r : RangeNo) (v : Word), rsvdOk .CUL_RNG v = true → Completes (.culRngWrite r v) s) ∧
  (∀ r, Completes (.rangeReady r) s) ∧ (∀ r, Completes (.rangeDisableEnd r) s) ∧
  (∀ (v : Word), rsvdOk .CUL_CTL v = true → Completes (.culCtlWrite v) s) ∧ (∀ now, Completes (.culBwWindow now) s) ∧
  (∀ (v : Word), rsvdOk .CUL_BW v = true → Completes (.peakClr v) s) ∧
  (∀ (which : Fin 3) (n : Fin 512) (v : Word), rsvdOk (stagedReg which) v = true → Completes (.cmpStageWrite which n v) s) ∧
  (∀ (busy : Bool), s.overlapClash = false → Completes (.commit busy) s) ∧ Completes .heldChangeApply s ∧
  Completes .cmpFenceStart s ∧ Completes .cmpFenceDone s ∧
  (∀ (k : PoolNo) (v : Word) (busy : Bool), rsvdOk .POOL_OWN v = true → Completes (.poolHandover k v busy) s) ∧
  (∀ (v : Word), rsvdOk .CMP_STAT v = true → Completes (.violClear v) s) ∧
  (∀ addr n, Completes (.debugAccess addr n none) s)

/-- R6, R532, R562, R590: commands of the lanes, framers and the Levee complete from every state, but for a write that
sets a reserved bit or meets another host error. -/
def Sys2Proof.Claims.LineCommandsComplete : Prop :=
  ∀ s : State,
  (∀ (n : LaneNo) (v : Word), rsvdOk .LN_CTL v = true → Completes (.lnCtlWrite n v) s) ∧
  (∀ n calibrated now, Completes (.lanePstateReached n calibrated now) s) ∧ (∀ n now, Completes (.cdrLockGain n now) s) ∧
  (∀ n, Completes (.cdrLockLoss n) s) ∧
  (∀ (n : LaneNo) (v : Word), rsvdOk .LN_TXEQ v = true → Completes (.lnTxeqWrite n v) s) ∧
  (∀ (q : Fin 37) (v : Word), rsvdOk .LN_MAP v = true → Completes (.lnMapWrite q v) s) ∧
  (∀ n o0 o1 ask taps, Completes (.trainingBlockRx n o0 o1 ask taps) s) ∧
  (∀ n now, Completes (.trainingTimeout n now) s) ∧
  (∀ (n : LaneNo) (v : Word), rsvdOk .LN_EYECTL v = true → Completes (.eyeScanStart n v) s) ∧
  (∀ n mismatch, Completes (.eyeScanEnd n mismatch) s) ∧ (∀ l pos o, Completes (.tssMarkerPosition l pos o) s) ∧
  (∀ l line, Completes (.tssBlockRx l line) s) ∧
  (∀ g idx found mfas overhead msi skew now, Completes (.otucFrameRx g idx found mfas overhead msi skew now) s) ∧
  (∀ g idx now, Completes (.lofTimer g idx now) s) ∧ (∀ g idx now, Completes (.lomTimer g idx now) s) ∧
  (∀ (g : Group) (v : Word), rsvdOk .FRM_CTL v = true → (FRM_CTL.MAP_COMMIT.of v = 1 → (s.frmCtlWrite g v).twinPacket g = false) → Completes (.frmCtlWrite g v) s) ∧
  (∀ (g : Group), (s.mapCommit g).twinPacket g = false → Completes (.mapCommit g) s) ∧
  (∀ (g : Group) (v : Word), rsvdOk .FRM_GPOS v = true → (s.gposWrite g v).gposClash g = false → Completes (.frmGposWrite g v) s) ∧
  (∀ (g : Group) (j : Fin 4) (v : Word), rsvdOk .FRM_CPORT v = true → (s.cportWrite g j v).portsOverlap g j = false →
      (s.cportWrite g j v).l1TooFast g j = false → Completes (.frmCportWrite g j v) s) ∧
  (∀ (p : Fin 4) (idx : Fin 16) (v : Word), rsvdOk .FRM_DSTR v = true → (s.dstrWrite p idx v).gposClash (FRM_DSTR.GROUP.of v) = false →
      (s.dstrWrite p idx v).cooClash (FRM_DSTR.GROUP.of v) = false → Completes (.frmDstrWrite p idx v) s) ∧
  (∀ p idx o, Completes (.gccExtract p idx o) s) ∧ (∀ p, Completes (.dccRecordTx p) s) ∧
  (∀ p o, Completes (.dccRecordRx p o) s) ∧ (∀ p idx, Completes (.gccInsert p idx) s) ∧
  (∀ seen now, Completes (.pmSecond seen now) s) ∧ (∀ now, Completes (.pmBinBoundary now) s) ∧
  (∀ src detail address colour raw watch edge, Completes (.leveeEvent src detail address colour raw watch edge) s) ∧
  (∀ raw watch edge cuts parts, Completes (.responsePoint raw watch edge cuts parts) s) ∧ Completes .tamperRecordWrite s ∧
  (∀ watch edge, Completes (.supplyDipStart watch edge) s) ∧ (∀ watch edge, Completes (.supplyDipEnd watch edge) s) ∧
  (∀ (m : Master) (src : Fin 16) (v : Word), rsvdOk .LEV_SRCCFG v = true → Completes (.levSrccfgWrite m src v) s) ∧
  (∀ (m : Master) (v : Word), rsvdOk .LEV_STICKY v = true → Completes (.stickyClear m v) s) ∧
  (∀ (m : Master) (v : Word), rsvdOk .LEV_LOGRD v = true → Completes (.tamperLogRead m v) s) ∧
  (∀ m wide watch edge, Completes (.levWatchLatch m wide watch edge) s) ∧ Completes .watchCrystalStop s ∧
  (∀ toCell, Completes (.aoSupplyChangeover toCell) s) ∧ Completes .modecmdService s ∧ Completes .modecmdDrain s ∧
  Completes .modecmdReady s

/-- R6, R609, R644, R680: commands of modes, power, time, Sounding and the host complete from every state, but
for a write that sets a reserved bit or meets another host error. -/
def Sys2Proof.Claims.DeviceCommandsComplete : Prop :=
  ∀ s : State,
  Completes .readyEntryEnd s ∧ Completes .modecmdClearMaintenance s ∧ Completes .modecmdLockdownExit s ∧
  (∀ target, Completes (.modecmdInvalid target) s) ∧ Completes .lcChangeCarrier s ∧ Completes .lcChangeRetired s ∧
  (∀ target confirm, Completes (.lcCmdInvalid target confirm) s) ∧ Completes .fuseProgramEnd s ∧
  (∀ low now, Completes (.presNChange low now) s) ∧ (∀ now, Completes (.presenceWindowOpen now) s) ∧
  (∀ now, Completes (.presenceWindowClose now) s) ∧ (∀ now, Completes (.presenceStuck now) s) ∧ Completes .debugReq s ∧
  Completes .debugClose s ∧ (∀ watch edge, Completes (.mainPowerLoss watch edge) s) ∧ Completes .mainPowerOn s ∧
  Completes .alwaysOnPowerUp s ∧ Completes .resetNPulse s ∧ Completes .gblResetDevice s ∧ Completes .gblResetHif s ∧
  (∀ watch edge, Completes (.brownOut watch edge) s) ∧ Completes .pcieFlr s ∧ Completes .pcieConventionalReset s ∧
  (∀ bad header lanes records watch edge, Completes (.pocStepEnd bad header lanes records watch edge) s) ∧
  (∀ data, Completes (.flashPreloadEnd data) s) ∧ Completes .replayEnd s ∧ Completes .clkSet s ∧ Completes .clkAdj s ∧
  Completes .clkInval s ∧ (∀ v, Completes (.clkRateWrite v) s) ∧ (∀ m wide, Completes (.clkTimeLatch m wide) s) ∧
  (∀ m n wide, Completes (.clkTsbRead m n wide) s) ∧ (∀ now, Completes (.ppsInEdge now) s) ∧
  (∀ now, Completes (.ppsOutPulse now) s) ∧ (∀ now, Completes (.ppsOutFall now) s) ∧
  (∀ (which : Fin 5) (n : Fin 64) (v : Word), rsvdOk (schedReg which) v = true → offsetOf (s.reg .SND_SFIRST n) < 16320 → Completes (.sndScheduleWrite which n v) s) ∧
  (∀ (which : Fin 3) (n : Fin 64) (v : Word), rsvdOk (thrReg which) v = true → Completes (.sndThresholdWrite which n v) s) ∧
  (∀ now, Completes (.dumpStart now) s) ∧ (∀ bad now, Completes (.dumpPublish bad now) s) ∧
  (∀ core word, Completes (.slotSample core word) s) ∧ (∀ n, Completes (.thresholdSample n) s) ∧
  (∀ (r : RingNo) (v : Word), rsvdOk .HIF_DB v = true → s.postsUnfetched r v = false → Completes (.hifDoorbell r v) s) ∧
  (∀ r data, Completes (.ringFetch r data) s) ∧
  (∀ (r : RingNo) (v : Word), rsvdOk .HIF_RCFG v = true → Completes (.hifRcfgWrite r v) s) ∧
  (∀ r, Completes (.ringDisableEnd r) s) ∧ (∀ r now, Completes (.msixCoalTimer r now) s) ∧
  (∀ (v : Word), rsvdOk .HIF_BAR2WIN v = true → Completes (.hifBar2winWrite v) s) ∧
  (∀ (v : Word), rsvdOk .HIF_CTL v = true → Completes (.hcolourWrite v) s) ∧
  (∀ bar2 offset n bic, Completes (.hostAccess bar2 offset n none bic) s) ∧
  (∀ data, Completes (.mkaTxDescriptor data) s) ∧ (∀ c, Completes (.mkaTxSent c) s) ∧
  (∀ data, Completes (.ptpTxDescriptor data) s) ∧ (∀ now, Completes (.logWindow now) s) ∧
  (∀ (v : Word), rsvdOk .ELG_IDX v = true → Completes (.logRelease v) s) ∧
  (∀ (n : Fin 256) (v : Word), rsvdOk .ELG_RETPAGE v = true → Completes (.retpageWrite n v) s) ∧
  (∀ (v : Word), rsvdOk .ELG_RETPOOL v = true → Completes (.retpoolWrite v) s) ∧ Completes .watchCrystalRestart s ∧
  (∀ g idx lock gid pid corr uncorr, Completes (.flexoFrameRx g idx lock gid pid corr uncorr) s) ∧
  (∀ busMaster msixEnable msixMask, Completes (.pcieConfigWrite busMaster msixEnable msixMask) s) ∧
  Completes .productionTestFuseProgram s

end

section

open Sys2Proof Sys2Proof.Machine Sys2Proof.Claims

/-- A step carries out the command at the front of the queue, with the queue's rest. Where the spec leaves a point
open it is the model's: log entry 1. -/
def Obligations.StepRunsFront : Prop :=
  ∀ (s : State) (c : Instr) (rest : List Instr), s.pending = c :: rest → step s = exec c { s with pending := rest }

/-- On an empty queue a step is one cycle of the core clock (R636, R664; the model's choice, log entry 2): the Tick
advances, one slot of each core is charged to exactly one category, and, but for the slots that SND_SAMPCTL samples (R666),
neither a register, a record, a Pool nor an output changes. In M0 there is no core clock. -/
def Sys2Proof.Claims.StepIdles : Prop :=
  ∀ s : State, s.pending = [] →
    (s.rd GBL_MODE.MODE = 0 → step s = .next s) ∧
    (s.rd GBL_MODE.MODE ≠ 0 → Gives (step s) fun u => u.tick = s.tick + 1 ∧
      u = { s with tick := u.tick, counters := u.counters, tide := { s.tide with turn := u.tide.turn }, draws := u.draws,
                   regs := u.regs, sound := { s.sound with slots := u.sound.slots, samples := u.sound.samples } } ∧
      RegsKept s u [Reg.off .SND_STAT 0 0] ∧ (s.rd SND_SAMPCTL.EN = 0 → u.regs = s.regs ∧ u.sound = s.sound) ∧
      (∀ c, c < 32 → ∃ k, k < 8 ∧ ∀ j, j < 8 →
        u.ctr (Ctrs.coreSlot j) c = if j = k then (s.ctr (Ctrs.coreSlot j) c).add 1 else s.ctr (Ctrs.coreSlot j) c) ∧
      ∀ c, c < 32 → (∀ h, h < 8 → s.tstate (8 * c + h) < 2 ∨ 5 < s.tstate (8 * c + h)) →
        u.ctr (Ctrs.coreSlot 7) c = (s.ctr (Ctrs.coreSlot 7) c).add 1)

/-- R607, R620: right after power-on the device is in M1 with nothing waiting, the tables and Pools are in their
canonical form, the queues of fixed size are empty, and every register reads the reset value of its fields. Where the
spec leaves a point open it is the model's: log entries 13, 16, 98. -/
def Obligations.ResetState : Prop :=
  let s := State.reset
  s.rd GBL_MODE.MODE = 1 ∧ s.pending = [] ∧ s.out = [] ∧ s.log.held = none ∧ PoolsCanonical s ∧ TablesCanonical s ∧ QueuesBounded s ∧
  (∀ f ∈ [FRM_COOPOS.POS0, FRM_COOPOS.POS7, LN_TXEQ.PRE1, LN_TXEQ.POST1, LN_TXEQ.AMP, LN_MAP.MAP, FRM_GPOS.POS,
    CUL_CTL.SCRUB_EN, CUL_SCRUB.INTERVAL, SND_SAMPCTL.PSHIFT, CLK_STAT.VALID, KST_STAT.SWEEP, FRM_CTL.TX_EN],
    s.rd f 0 = f.rst) ∧
  s.reg .SPR_PGOWN 1 = 0x80000009 ∧ s.reg .SPR_PGOWN 2 = 0 ∧ s.usable 3 0 = false

/-- A step takes exactly the command at the front of the queue: the rest waits as it did. -/
def Sys2Proof.Claims.StepTakesOneCommand : Prop :=
  ∀ (s t : State) (c : Instr) (rest : List Instr), s.pending = c :: rest → step s = .next t → t.pending = rest

/-- Every step keeps the one canonical form of the Pools and of the tables of registers, records and counters, and the
queues of fixed size within their sizes (R344, R410, R479, R600); and no report of a command is left unlogged after it
(R698). Where the spec leaves a point open it is the model's: log entries 16, 17. -/
def Obligations.StepKeepsForm : Prop :=
  ∀ s t : State, step s = .next t →
    (PoolsCanonical s → PoolsCanonical t) ∧ (TablesCanonical s → TablesCanonical t) ∧ (QueuesBounded s → QueuesBounded t) ∧
    (s.log.held = none → t.log.held = none)

/-- R612: no run unblows a fuse, so that the life-cycle state that the fuses record never goes back. -/
def Obligations.FusesOneWay : Prop :=
  ∀ s t : State, Reaches s t → FusesKept s t ∧
    lcsOf s.chip.mFuses s.chip.cFuses s.chip.tFuses ≤ lcsOf t.chip.mFuses t.chip.cFuses t.chip.tFuses

/-- R340, R342, R344: the event queue. An event merges into a waiting record of its class and index under the same
image, takes a record of its own, or overflows; overflowed events get one record for each class once there is room.
Where the spec leaves a point open it is the model's: log entry 52. -/
def Obligations.EventQueue : Prop :=
  (∀ (s : State) (cls idx : Nat) (g5 : Word) (e : SoEntry), 1 ≤ cls → cls ≤ 13 → s.orderFor cls idx = some e →
    e.flags.testBit 0 = true →
    let q := s.tide.queue
    let gen := s.rd TID_SOINFO.GEN
    let mine := fun (x : EventRec) => x.cls = cls ∧ x.idx = idx ∧ x.gen = gen
    let u := s.raiseEvent cls idx g5
    (∀ a r b, q = a ++ r :: b → mine r → (∀ x ∈ a, ¬mine x) →
      u.tide.queue = a ++ { r with count := min (r.count + 1) 65535 } :: b ∧ u.tide.ovf = s.tide.ovf ∧ u.regs = s.regs) ∧
    ((∀ x ∈ q, ¬mine x) → q.length < 8192 → ∃ r : EventRec, u.tide.queue = q ++ [r] ∧
      mine r ∧ r.count = 1 ∧ r.entry = e ∧ r.g5 = g5 ∧ u.tide.ovf = s.tide.ovf ∧ u.regs = s.regs) ∧
    ((∀ x ∈ q, ¬mine x) → 8192 ≤ q.length → u.tide.queue = q ∧
      (u.rd TID_EVQ.OVF).testBit (cls - 1) = true ∧ u.ctr Ctrs.EVENT_OVF = (s.ctr Ctrs.EVENT_OVF).add 1 ∧
      ∃ o, Tbl.get none u.tide.ovf cls = some o ∧ o.gen = gen ∧
        o.count = ((Tbl.get none s.tide.ovf cls).map fun x => x.count).getD 0 + 1 ∧
        (∀ x, s.orderFor cls 0xFFFFFFFF = some x → x.flags.testBit 0 = true → o.entry = x) ∧
        (s.orderFor cls 0xFFFFFFFF = none → o.entry = e))) ∧
  ∀ s : State, s.tide.queue.length + 13 ≤ 8192 →
    let full := fun k => (s.rd TID_EVQ.OVF).testBit (k - 1)
    (∀ k, 1 ≤ k → k ≤ 13 → (full k = true ↔ Tbl.get none s.tide.ovf k ≠ none)) →
    Gives (exec .eventOvfRecord s) fun u => u.rd TID_EVQ.OVF = 0 ∧ ∃ l : List EventRec, u.tide.queue = s.tide.queue ++ l ∧
      l.map (fun r => r.cls) = ((List.range 13).map fun k => k + 1).filter full ∧
      ∀ r ∈ l, r.idx = 0xFFFFFFFF ∧ ∃ o, Tbl.get none s.tide.ovf r.cls = some o ∧ r.count = min o.count 65535 ∧
        r.entry = o.entry ∧ r.gen = o.gen

/-- R638: network time at a Tick, in units of 2^−16 ns: the product is exact and rounded down, nanoseconds carry into
seconds at 10^9, and seconds wrap modulo 2^48. -/
def Obligations.NetworkTimeFormula : Prop :=
  (∀ (s : State) (k : Word), s.rd CLK_STAT.VALID = 1 →
    let rate := signed 32 (s.rd CLK_RATE.RATE)
    let n : Int := ((k - s.clock.baseTick).toNat : Int)
    let unit : Int := 2 ^ 16 * 10 ^ 9
    ∃ passed : Int, 3 * 2 ^ 40 * passed ≤ n * 2 * 2 ^ 16 * (2 ^ 40 + rate) ∧
      n * 2 * 2 ^ 16 * (2 ^ 40 + rate) < 3 * 2 ^ 40 * (passed + 1) ∧
      (s.timeAt k : Int) = (s.clock.base + passed) % (2 ^ 48 * unit) ∧
      timeSec (s.timeAt k) < 2 ^ 48 ∧ timeNs (s.timeAt k) < 10 ^ 9 ∧ timeFrac (s.timeAt k) < 2 ^ 16 ∧
      (s.timeAt k : Int) = timeSec (s.timeAt k) * unit + timeNs (s.timeAt k) * 2 ^ 16 + timeFrac (s.timeAt k)) ∧
  ∀ n : Nat, elapsed (n * 1500000000) 0 = n * second ∧ elapsed (3 * n) 0 = n * 2 * 2 ^ 16

/-- R145: the IV of an ODU frame, which its IV descriptor holds, and under which the frame is encrypted. -/
def Obligations.OduFrameIv : Prop :=
  (∀ (s : State) (c : Channel) (n : Nat) (bad : Bool), n < 2 ^ 64 → s.l1Epoch c (s.txSlotFor c n) < 2 ^ 16 →
    let u := s.issueTx c n bad
    ∃ d, (u.l1run c).txDesc = some d ∧ d.count = n ∧ d.ks.iv.length = 12 ∧
      beNat (d.ks.iv.take 2) = s.rd FRM_L1CTL.ROLE (c.val / 160) * 2 ^ 15 + c.val ∧
      beNat ((d.ks.iv.drop 2).take 2) = s.l1Epoch c (s.txSlotFor c n) ∧ beNat (d.ks.iv.drop 4) = n ∧
      ∀ k, d.keys = [k] → k.slot = s.txSlotFor c n ∧ k.epoch = s.l1Epoch c (s.txSlotFor c n)) ∧
  ∀ (s : State) (c : Channel) (n : Nat) (d : L1Desc) (k : SlotKey) (key payload : Octets),
    let u := s.encryptTx c n d k key payload
    ∃ f, (u.l1run c).cur = some f ∧ f.count = n ∧ f.kind = .enc ∧ f.ks = d.ks ∧ f.slot = k.slot ∧ f.key = key ∧
      f.payload = (Crypto.gcm false key d.ks.iv (f.coo.take 2) (slice payload 0 spanLen)).1

/-- R149: COO 6 and 7 of a frame, by its position in the multiframe. -/
def Obligations.CountWordOctets : Prop :=
  (∀ (role n : Nat) (long : Option Octets), (∀ l, long = some l → l.length = 16) → n < 2 ^ 64 → role < 2 →
    let j := n % 256
    let w := cooWord role n long
    (j < 8 → (∀ l, long = some l → w = (l.drop (2 * j)).take 2) ∧ (long = none → w = [0, 0])) ∧
    (8 ≤ j → j < 12 → w = ((beBytes 8 (n - j)).drop (2 * (j - 8))).take 2) ∧
    (j = 12 → w = [(beBytes 8 (n - j)).foldl (fun a b => a ^^^ b) 0x5A, BitVec.ofNat 8 role]) ∧
    (13 ≤ j → w = [0, 0])) ∧
  ∀ (s : State) (c : Channel) (n slot e : Nat) (fill : Bool) (t : Octets), (s.l1run c).txTag = some t → t.length = 4 →
    let coo := (s.cooOf c n slot e fill).1
    coo.drop 6 = cooWord (s.rd FRM_L1CTL.ROLE (c.val / 160)) n (if n % 256 < 8 then (s.l1run c).txLong else none) ∧
    (coo.drop 2).take 4 = t

end

section

open Sys2Proof.Claims

/-- A step that answers a next state takes exactly one command from the queue. On an empty queue it is one cycle of
the core clock: the Tick advances by 1, each core charges its slot to exactly one category, and only counters, the
turn of the cores, the counter of free values and what PC sampling fills in for the sampled slots differ; in M0
nothing differs. Where the spec leaves a point open it is the model's: log entries 1, 2, 58, 86. -/
def Obligations.StepOnTheQueue : Prop := StepTakesOneCommand ∧ StepIdles

/-- In the Pools, LD, ST, AMOADD and AMOSWAP that are granted read and write exactly their octets, LD through the data
cache of its core; at any target LD and ST do what the bus answers; a store into code that a thread executes or into
the input of an outstanding operation is a host error; an undefined SIZE or a misaligned address traps before the
access. Where the spec leaves a point open it is the model's: log entries 16, 56, 57, 59. -/
def Obligations.BalridMemoryAccesses : Prop := BalridMemory ∧ BalridMemoryTraps

/-- TRAP takes its trap with CODE from its immediate, an undefined word traps with cause 0x01, and taking a trap
records PC, cause, code, word and address, ends the work of the thread and stops it. Where the spec leaves a point
open it is the model's: log entry 57. -/
def Obligations.BalridTraps : Prop := BalridTrapInstructions ∧ TakingATrap

/-- END, FENCE, FENCE.C, RESEAL, WAITC and WAITC.ANY complete or hold their thread, and the row that ends a hold gives
the thread its result and lets it go on. ORDER.SET of a Warden puts the status that the checks of the image give in
x[rd]; outside M3 to M7 it is 3; an image of status 0 replaces the table by entries that meet every check; of another
thread it traps. Where the spec leaves a point open it is the model's: log entries 53, 59, 60, 89. -/
def Obligations.BalridWaits : Prop := BalridHolds ∧ BalridTags ∧ BalridOrderSet

/-- The readings and their arithmetic modulo 2^48 frames, the waits for a reading, and blocks queued for a reading, on
defined selectors; undefined selectors trap with cause 0x01, and an offset outside the frame is a host error. INSTR of
these traps is a free value. Where the spec leaves a point open it is the model's: log entries 51, 95. -/
def Obligations.BalridGauge : Prop := BalridReadings ∧ BalridGaugeEvents

/-- An engine instruction that reaches its engine puts its operation in flight as the engine has made it; the
operation takes its tag and a slot, and its completion, once no earlier operation on its object is left, writes its
results, gives back the slot and makes the tag done with the completion word, or wakes the thread that waits for it.
Where the spec leaves a point open it is the model's: log entries 4, 19. -/
def Obligations.Engines : Prop := EngineCalls ∧ EngineOperations

/-- A write stores in each field of a plain register what its access code says and leaves every other register; a
write with a nonzero reserved field is a host error, one that is not trusted is recorded; unlisted and unmapped
offsets answer as the spec says. Where the spec leaves a point open it is the model's: log entries 25, 31, 51. -/
def Obligations.RegisterAccesses : Prop := AccessCodes ∧ RegisterWrites ∧ OtherOffsets

/-- A host access is carried out by the bus and answered, or recorded as failed in HIF_HERR; a debug access that is
locked reads zeros and is counted. Where the spec leaves a point open it is the model's: log entries 26, 27, 35. -/
def Obligations.MasterAccesses : Prop := HostAccesses ∧ DebugAccesses

/-- A report without a record to merge with writes one record at WR, or takes its place among the reports of its
cycle; windows of suppression, the release of slots, and retired pages and Pools do what chapter 22 says. Where the
spec leaves a point open it is the model's: log entries 20, 38, 99. -/
def Obligations.ErrorLog : Prop := ErrorRecord ∧ ErrorLogCommands

/-- The lowest-numbered entry that covers an address decides by colour and rights, and the first refusal is captured;
staged writes change nothing until a COMMIT that passes its checks makes the whole table live, overlapping entries of
different colours being a host error; Pools change owner, held changes apply, and the host fence ends as chapter 14
says. Where the spec leaves a point open it is the model's: log entry 60. -/
def Obligations.ColourMap : Prop := ColourMapCommands ∧ ColourJudgment

/-- A frame start and an epoch start carry out their steps in order; the Gauge word, events that come due, snapshots,
the Gauge of record and latched reads do what chapter 02 says. Where the spec leaves a point open it is the model's:
log entries 5, 35. -/
def Obligations.Gauge : Prop := GaugeFrames ∧ GaugeCommands

/-- What an event of each source does, what the response point makes of the alarms that wait, and the octets of a
tamper record. Where the spec leaves a point open it is the model's: log entries 21, 22. -/
def Obligations.LeveeEvents : Prop := LeveeEventsAndResponses ∧ TamperRecordOctets

/-- What writes of TID_THRCFG and TID_ENTRY and the commands of thread control do, what dispatch loads into a thread,
and the record of overflowed events and resets of cores. Where the spec leaves a point open it is the model's: log
entries 49, 50, 52, 54, 55. -/
def Obligations.ThreadCommands : Prop := ThreadControl ∧ ThreadDispatch

/-- What device resets, brown-outs, the loss and return of power and the resets of the host interface leave, and what
they keep. Where the spec leaves a point open it is the model's: log entries 34, 36, 37, 39, 48, 49. -/
def Obligations.DeviceResets : Prop := ResetsOfTheDatapath ∧ ResetsOfTheHostInterface

/-- A step of Power-On Check that passes or fails, the keys and the mode it leads to, and the ends of the preload and
of the replay. Where the spec leaves a point open it is the model's: log entries 40, 41, 42, 47. -/
def Obligations.StartUp : Prop := PowerOnCheck ∧ PreloadAndReplay

/-- Each mode command is refused or enters its mode as the tables of chapter 18 say, and the entry into M4 ends. Where
the spec leaves a point open it is the model's: log entries 30, 44, 45. -/
def Obligations.Modes : Prop := ModeCommands ∧ ReadyEntry

/-- The checks of GBL_LCCMD, the fuses blown, the production test, the presence window and the opening of debug. The
order of the checks is the choice of log entry 43. Where the spec leaves a point open it is the model's: log entries
29, 43, 46. -/
def Obligations.LifeCycle : Prop := LifeCycleCommands ∧ FusePrograms ∧ PresenceAndDebug

/-- Writes of WEI_GRP_CFG with their refusals and host errors, closing drains, the card lease, Eddy set free and
mirror records. Where the spec leaves a point open it is the model's: log entries 62, 65. -/
def Obligations.GroupsAndMirror : Prop := GroupConfiguration ∧ CardAndMirror

/-- Records read and written through SCY_CMD, a write while BUSY is 1, receive SCI entries, armed switches, DISABLE
and operations that do not exist. Where the spec leaves a point open it is the model's: log entries 69, 70. -/
def Obligations.SecurityRecords : Prop := SecyRecords ∧ SecyCommands

/-- What a KDER instruction meets when it is accepted, the turns of Spring over its pages, the end of an operation
with what it leaves in its page, Cistern records found bad, and the owners of pages. Where the spec leaves a point
open it is the model's: log entries 72, 90, 94. -/
def Obligations.KderInstructions : Prop := KderAcceptance ∧ SpringPages

/-- DERIVE, the ciphers, CMACs and wraps with a general-purpose key, and the MKA operations. Where the spec leaves a
point open it is the model's: log entries 11, 71, 72, 94. -/
def Obligations.KeysDerived : Prop := KeyDerivation ∧ MkaOperations

/-- The steps of the handshake, sessions that run out of time, attestation, the commissioning key, imports and
removals, with P-384 and ML-KEM-1024 as their standards define them. Where the spec leaves a point open it is the
model's: log entries 11, 12, 71, 72, 94. -/
def Obligations.KeysExchanged : Prop := UnrexHandshake ∧ KeyImports

/-- Writes to the registers of schedules and thresholds, thresholds sampled, dumps started and published, and PC
samples. Where the spec leaves a point open it is the model's: log entries 85, 86. -/
def Obligations.Soundings : Prop := SoundingRegisters ∧ SoundingCommands

/-- Writes to the registers of lanes; lanes move between power states, lock, train and end their scans. Where the spec
leaves a point open it is the model's: log entry 87. -/
def Obligations.Lanes : Prop := LaneRegisters ∧ LaneCommands

/-- From every state, each command named answers a next state for all operands, but for a write that sets a reserved
bit or meets another host error, whose condition is said. Where the spec leaves a point open it is the model's: log
entries 5, 6. -/
def Obligations.DatapathSideCompletes : Prop := DatapathCommandsComplete ∧ SecurityCommandsComplete ∧ KeyCommandsComplete

/-- From every state, each command named answers a next state for all operands, but for a write that sets a reserved
bit or meets another host error, whose condition is said. Where the spec leaves a point open it is the model's: log
entries 5, 6. -/
def Obligations.ControlSideCompletes : Prop := ThreadCommandsComplete ∧ TableCommandsComplete ∧ LineCommandsComplete ∧ DeviceCommandsComplete

end
end

