-- ==== Sys2Proof/Laws/State.lean ====
section
/-! SUPPORT. What the basic updates leave alone: one lemma for each field and update, true by unfolding, and the read of
what each update writes. -/

namespace Sys2Proof.Machine

open Sys2Proof

/-! ### setReg: a register set -/

section
variable (s : State) (r : Reg) (v : Word) (i j : Nat)

@[simp] theorem State.setReg_pending : (s.setReg r v i j).pending = s.pending := rfl
@[simp] theorem State.setReg_tick : (s.setReg r v i j).tick = s.tick := rfl
@[simp] theorem State.setReg_draws : (s.setReg r v i j).draws = s.draws := rfl
@[simp] theorem State.setReg_recs : (s.setReg r v i j).recs = s.recs := rfl
@[simp] theorem State.setReg_latches : (s.setReg r v i j).latches = s.latches := rfl
@[simp] theorem State.setReg_counters : (s.setReg r v i j).counters = s.counters := rfl
@[simp] theorem State.setReg_log : (s.setReg r v i j).log = s.log := rfl
@[simp] theorem State.setReg_line : (s.setReg r v i j).line = s.line := rfl
@[simp] theorem State.setReg_tide : (s.setReg r v i j).tide = s.tide := rfl
@[simp] theorem State.setReg_culvert : (s.setReg r v i j).culvert = s.culvert := rfl
@[simp] theorem State.setReg_pools : (s.setReg r v i j).pools = s.pools := rfl
@[simp] theorem State.setReg_access : (s.setReg r v i j).access = s.access := rfl
@[simp] theorem State.setReg_levee : (s.setReg r v i j).levee = s.levee := rfl
@[simp] theorem State.setReg_sound : (s.setReg r v i j).sound = s.sound := rfl
@[simp] theorem State.setReg_host : (s.setReg r v i j).host = s.host := rfl
@[simp] theorem State.setReg_races : (s.setReg r v i j).races = s.races := rfl
@[simp] theorem State.setReg_l1 : (s.setReg r v i j).l1 = s.l1 := rfl
@[simp] theorem State.setReg_weir : (s.setReg r v i j).weir = s.weir := rfl
@[simp] theorem State.setReg_keys : (s.setReg r v i j).keys = s.keys := rfl
@[simp] theorem State.setReg_cistern : (s.setReg r v i j).cistern = s.cistern := rfl
@[simp] theorem State.setReg_delta : (s.setReg r v i j).delta = s.delta := rfl
@[simp] theorem State.setReg_basin : (s.setReg r v i j).basin = s.basin := rfl
@[simp] theorem State.setReg_secy : (s.setReg r v i j).secy = s.secy := rfl
@[simp] theorem State.setReg_clock : (s.setReg r v i j).clock = s.clock := rfl
@[simp] theorem State.setReg_serdes : (s.setReg r v i j).serdes = s.serdes := rfl
@[simp] theorem State.setReg_frm : (s.setReg r v i j).frm = s.frm := rfl
@[simp] theorem State.setReg_chip : (s.setReg r v i j).chip = s.chip := rfl
@[simp] theorem State.setReg_out : (s.setReg r v i j).out = s.out := rfl

end

/-! ### wr: a field of a register set -/

section
variable (s : State) (f : Field) (v i j : Nat)

@[simp] theorem State.wr_pending : (s.wr f v i j).pending = s.pending := rfl
@[simp] theorem State.wr_tick : (s.wr f v i j).tick = s.tick := rfl
@[simp] theorem State.wr_draws : (s.wr f v i j).draws = s.draws := rfl
@[simp] theorem State.wr_recs : (s.wr f v i j).recs = s.recs := rfl
@[simp] theorem State.wr_latches : (s.wr f v i j).latches = s.latches := rfl
@[simp] theorem State.wr_counters : (s.wr f v i j).counters = s.counters := rfl
@[simp] theorem State.wr_log : (s.wr f v i j).log = s.log := rfl
@[simp] theorem State.wr_line : (s.wr f v i j).line = s.line := rfl
@[simp] theorem State.wr_tide : (s.wr f v i j).tide = s.tide := rfl
@[simp] theorem State.wr_culvert : (s.wr f v i j).culvert = s.culvert := rfl
@[simp] theorem State.wr_pools : (s.wr f v i j).pools = s.pools := rfl
@[simp] theorem State.wr_access : (s.wr f v i j).access = s.access := rfl
@[simp] theorem State.wr_levee : (s.wr f v i j).levee = s.levee := rfl
@[simp] theorem State.wr_sound : (s.wr f v i j).sound = s.sound := rfl
@[simp] theorem State.wr_host : (s.wr f v i j).host = s.host := rfl
@[simp] theorem State.wr_races : (s.wr f v i j).races = s.races := rfl
@[simp] theorem State.wr_l1 : (s.wr f v i j).l1 = s.l1 := rfl
@[simp] theorem State.wr_weir : (s.wr f v i j).weir = s.weir := rfl
@[simp] theorem State.wr_keys : (s.wr f v i j).keys = s.keys := rfl
@[simp] theorem State.wr_cistern : (s.wr f v i j).cistern = s.cistern := rfl
@[simp] theorem State.wr_delta : (s.wr f v i j).delta = s.delta := rfl
@[simp] theorem State.wr_basin : (s.wr f v i j).basin = s.basin := rfl
@[simp] theorem State.wr_secy : (s.wr f v i j).secy = s.secy := rfl
@[simp] theorem State.wr_clock : (s.wr f v i j).clock = s.clock := rfl
@[simp] theorem State.wr_serdes : (s.wr f v i j).serdes = s.serdes := rfl
@[simp] theorem State.wr_frm : (s.wr f v i j).frm = s.frm := rfl
@[simp] theorem State.wr_chip : (s.wr f v i j).chip = s.chip := rfl
@[simp] theorem State.wr_out : (s.wr f v i j).out = s.out := rfl

end

/-! ### mark: a flag set -/

section
variable (s : State) (f : Field) (i j : Nat)

@[simp] theorem State.mark_pending : (s.mark f i j).pending = s.pending := rfl
@[simp] theorem State.mark_tick : (s.mark f i j).tick = s.tick := rfl
@[simp] theorem State.mark_draws : (s.mark f i j).draws = s.draws := rfl
@[simp] theorem State.mark_recs : (s.mark f i j).recs = s.recs := rfl
@[simp] theorem State.mark_latches : (s.mark f i j).latches = s.latches := rfl
@[simp] theorem State.mark_counters : (s.mark f i j).counters = s.counters := rfl
@[simp] theorem State.mark_log : (s.mark f i j).log = s.log := rfl
@[simp] theorem State.mark_line : (s.mark f i j).line = s.line := rfl
@[simp] theorem State.mark_tide : (s.mark f i j).tide = s.tide := rfl
@[simp] theorem State.mark_culvert : (s.mark f i j).culvert = s.culvert := rfl
@[simp] theorem State.mark_pools : (s.mark f i j).pools = s.pools := rfl
@[simp] theorem State.mark_access : (s.mark f i j).access = s.access := rfl
@[simp] theorem State.mark_levee : (s.mark f i j).levee = s.levee := rfl
@[simp] theorem State.mark_sound : (s.mark f i j).sound = s.sound := rfl
@[simp] theorem State.mark_host : (s.mark f i j).host = s.host := rfl
@[simp] theorem State.mark_races : (s.mark f i j).races = s.races := rfl
@[simp] theorem State.mark_l1 : (s.mark f i j).l1 = s.l1 := rfl
@[simp] theorem State.mark_weir : (s.mark f i j).weir = s.weir := rfl
@[simp] theorem State.mark_keys : (s.mark f i j).keys = s.keys := rfl
@[simp] theorem State.mark_cistern : (s.mark f i j).cistern = s.cistern := rfl
@[simp] theorem State.mark_delta : (s.mark f i j).delta = s.delta := rfl
@[simp] theorem State.mark_basin : (s.mark f i j).basin = s.basin := rfl
@[simp] theorem State.mark_secy : (s.mark f i j).secy = s.secy := rfl
@[simp] theorem State.mark_clock : (s.mark f i j).clock = s.clock := rfl
@[simp] theorem State.mark_serdes : (s.mark f i j).serdes = s.serdes := rfl
@[simp] theorem State.mark_frm : (s.mark f i j).frm = s.frm := rfl
@[simp] theorem State.mark_chip : (s.mark f i j).chip = s.chip := rfl
@[simp] theorem State.mark_out : (s.mark f i j).out = s.out := rfl

end

/-! ### unmark: a flag cleared -/

section
variable (s : State) (f : Field) (i j : Nat)

@[simp] theorem State.unmark_pending : (s.unmark f i j).pending = s.pending := rfl
@[simp] theorem State.unmark_tick : (s.unmark f i j).tick = s.tick := rfl
@[simp] theorem State.unmark_draws : (s.unmark f i j).draws = s.draws := rfl
@[simp] theorem State.unmark_recs : (s.unmark f i j).recs = s.recs := rfl
@[simp] theorem State.unmark_latches : (s.unmark f i j).latches = s.latches := rfl
@[simp] theorem State.unmark_counters : (s.unmark f i j).counters = s.counters := rfl
@[simp] theorem State.unmark_log : (s.unmark f i j).log = s.log := rfl
@[simp] theorem State.unmark_line : (s.unmark f i j).line = s.line := rfl
@[simp] theorem State.unmark_tide : (s.unmark f i j).tide = s.tide := rfl
@[simp] theorem State.unmark_culvert : (s.unmark f i j).culvert = s.culvert := rfl
@[simp] theorem State.unmark_pools : (s.unmark f i j).pools = s.pools := rfl
@[simp] theorem State.unmark_access : (s.unmark f i j).access = s.access := rfl
@[simp] theorem State.unmark_levee : (s.unmark f i j).levee = s.levee := rfl
@[simp] theorem State.unmark_sound : (s.unmark f i j).sound = s.sound := rfl
@[simp] theorem State.unmark_host : (s.unmark f i j).host = s.host := rfl
@[simp] theorem State.unmark_races : (s.unmark f i j).races = s.races := rfl
@[simp] theorem State.unmark_l1 : (s.unmark f i j).l1 = s.l1 := rfl
@[simp] theorem State.unmark_weir : (s.unmark f i j).weir = s.weir := rfl
@[simp] theorem State.unmark_keys : (s.unmark f i j).keys = s.keys := rfl
@[simp] theorem State.unmark_cistern : (s.unmark f i j).cistern = s.cistern := rfl
@[simp] theorem State.unmark_delta : (s.unmark f i j).delta = s.delta := rfl
@[simp] theorem State.unmark_basin : (s.unmark f i j).basin = s.basin := rfl
@[simp] theorem State.unmark_secy : (s.unmark f i j).secy = s.secy := rfl
@[simp] theorem State.unmark_clock : (s.unmark f i j).clock = s.clock := rfl
@[simp] theorem State.unmark_serdes : (s.unmark f i j).serdes = s.serdes := rfl
@[simp] theorem State.unmark_frm : (s.unmark f i j).frm = s.frm := rfl
@[simp] theorem State.unmark_chip : (s.unmark f i j).chip = s.chip := rfl
@[simp] theorem State.unmark_out : (s.unmark f i j).out = s.out := rfl

end

/-! ### satAdd: a saturating count -/

section
variable (s : State) (f : Field) (n i j : Nat)

@[simp] theorem State.satAdd_pending : (s.satAdd f n i j).pending = s.pending := rfl
@[simp] theorem State.satAdd_tick : (s.satAdd f n i j).tick = s.tick := rfl
@[simp] theorem State.satAdd_draws : (s.satAdd f n i j).draws = s.draws := rfl
@[simp] theorem State.satAdd_recs : (s.satAdd f n i j).recs = s.recs := rfl
@[simp] theorem State.satAdd_latches : (s.satAdd f n i j).latches = s.latches := rfl
@[simp] theorem State.satAdd_counters : (s.satAdd f n i j).counters = s.counters := rfl
@[simp] theorem State.satAdd_log : (s.satAdd f n i j).log = s.log := rfl
@[simp] theorem State.satAdd_line : (s.satAdd f n i j).line = s.line := rfl
@[simp] theorem State.satAdd_tide : (s.satAdd f n i j).tide = s.tide := rfl
@[simp] theorem State.satAdd_culvert : (s.satAdd f n i j).culvert = s.culvert := rfl
@[simp] theorem State.satAdd_pools : (s.satAdd f n i j).pools = s.pools := rfl
@[simp] theorem State.satAdd_access : (s.satAdd f n i j).access = s.access := rfl
@[simp] theorem State.satAdd_levee : (s.satAdd f n i j).levee = s.levee := rfl
@[simp] theorem State.satAdd_sound : (s.satAdd f n i j).sound = s.sound := rfl
@[simp] theorem State.satAdd_host : (s.satAdd f n i j).host = s.host := rfl
@[simp] theorem State.satAdd_races : (s.satAdd f n i j).races = s.races := rfl
@[simp] theorem State.satAdd_l1 : (s.satAdd f n i j).l1 = s.l1 := rfl
@[simp] theorem State.satAdd_weir : (s.satAdd f n i j).weir = s.weir := rfl
@[simp] theorem State.satAdd_keys : (s.satAdd f n i j).keys = s.keys := rfl
@[simp] theorem State.satAdd_cistern : (s.satAdd f n i j).cistern = s.cistern := rfl
@[simp] theorem State.satAdd_delta : (s.satAdd f n i j).delta = s.delta := rfl
@[simp] theorem State.satAdd_basin : (s.satAdd f n i j).basin = s.basin := rfl
@[simp] theorem State.satAdd_secy : (s.satAdd f n i j).secy = s.secy := rfl
@[simp] theorem State.satAdd_clock : (s.satAdd f n i j).clock = s.clock := rfl
@[simp] theorem State.satAdd_serdes : (s.satAdd f n i j).serdes = s.serdes := rfl
@[simp] theorem State.satAdd_frm : (s.satAdd f n i j).frm = s.frm := rfl
@[simp] theorem State.satAdd_chip : (s.satAdd f n i j).chip = s.chip := rfl
@[simp] theorem State.satAdd_out : (s.satAdd f n i j).out = s.out := rfl

end

/-! ### plainWrite: a plain register write -/

section
variable (s : State) (r : Reg) (v : Word) (i j : Nat)

@[simp] theorem State.plainWrite_pending : (s.plainWrite r v i j).pending = s.pending := rfl
@[simp] theorem State.plainWrite_tick : (s.plainWrite r v i j).tick = s.tick := rfl
@[simp] theorem State.plainWrite_draws : (s.plainWrite r v i j).draws = s.draws := rfl
@[simp] theorem State.plainWrite_recs : (s.plainWrite r v i j).recs = s.recs := rfl
@[simp] theorem State.plainWrite_latches : (s.plainWrite r v i j).latches = s.latches := rfl
@[simp] theorem State.plainWrite_counters : (s.plainWrite r v i j).counters = s.counters := rfl
@[simp] theorem State.plainWrite_log : (s.plainWrite r v i j).log = s.log := rfl
@[simp] theorem State.plainWrite_line : (s.plainWrite r v i j).line = s.line := rfl
@[simp] theorem State.plainWrite_tide : (s.plainWrite r v i j).tide = s.tide := rfl
@[simp] theorem State.plainWrite_culvert : (s.plainWrite r v i j).culvert = s.culvert := rfl
@[simp] theorem State.plainWrite_pools : (s.plainWrite r v i j).pools = s.pools := rfl
@[simp] theorem State.plainWrite_access : (s.plainWrite r v i j).access = s.access := rfl
@[simp] theorem State.plainWrite_levee : (s.plainWrite r v i j).levee = s.levee := rfl
@[simp] theorem State.plainWrite_sound : (s.plainWrite r v i j).sound = s.sound := rfl
@[simp] theorem State.plainWrite_host : (s.plainWrite r v i j).host = s.host := rfl
@[simp] theorem State.plainWrite_races : (s.plainWrite r v i j).races = s.races := rfl
@[simp] theorem State.plainWrite_l1 : (s.plainWrite r v i j).l1 = s.l1 := rfl
@[simp] theorem State.plainWrite_weir : (s.plainWrite r v i j).weir = s.weir := rfl
@[simp] theorem State.plainWrite_keys : (s.plainWrite r v i j).keys = s.keys := rfl
@[simp] theorem State.plainWrite_cistern : (s.plainWrite r v i j).cistern = s.cistern := rfl
@[simp] theorem State.plainWrite_delta : (s.plainWrite r v i j).delta = s.delta := rfl
@[simp] theorem State.plainWrite_basin : (s.plainWrite r v i j).basin = s.basin := rfl
@[simp] theorem State.plainWrite_secy : (s.plainWrite r v i j).secy = s.secy := rfl
@[simp] theorem State.plainWrite_clock : (s.plainWrite r v i j).clock = s.clock := rfl
@[simp] theorem State.plainWrite_serdes : (s.plainWrite r v i j).serdes = s.serdes := rfl
@[simp] theorem State.plainWrite_frm : (s.plainWrite r v i j).frm = s.frm := rfl
@[simp] theorem State.plainWrite_chip : (s.plainWrite r v i j).chip = s.chip := rfl
@[simp] theorem State.plainWrite_out : (s.plainWrite r v i j).out = s.out := rfl

end

/-! ### count: a counter advanced -/

section
variable (s : State) (c : CtrId) (i n : Nat)

@[simp] theorem State.count_pending : (s.count c i n).pending = s.pending := rfl
@[simp] theorem State.count_tick : (s.count c i n).tick = s.tick := rfl
@[simp] theorem State.count_draws : (s.count c i n).draws = s.draws := rfl
@[simp] theorem State.count_regs : (s.count c i n).regs = s.regs := rfl
@[simp] theorem State.count_recs : (s.count c i n).recs = s.recs := rfl
@[simp] theorem State.count_latches : (s.count c i n).latches = s.latches := rfl
@[simp] theorem State.count_log : (s.count c i n).log = s.log := rfl
@[simp] theorem State.count_line : (s.count c i n).line = s.line := rfl
@[simp] theorem State.count_tide : (s.count c i n).tide = s.tide := rfl
@[simp] theorem State.count_culvert : (s.count c i n).culvert = s.culvert := rfl
@[simp] theorem State.count_pools : (s.count c i n).pools = s.pools := rfl
@[simp] theorem State.count_access : (s.count c i n).access = s.access := rfl
@[simp] theorem State.count_levee : (s.count c i n).levee = s.levee := rfl
@[simp] theorem State.count_sound : (s.count c i n).sound = s.sound := rfl
@[simp] theorem State.count_host : (s.count c i n).host = s.host := rfl
@[simp] theorem State.count_races : (s.count c i n).races = s.races := rfl
@[simp] theorem State.count_l1 : (s.count c i n).l1 = s.l1 := rfl
@[simp] theorem State.count_weir : (s.count c i n).weir = s.weir := rfl
@[simp] theorem State.count_keys : (s.count c i n).keys = s.keys := rfl
@[simp] theorem State.count_cistern : (s.count c i n).cistern = s.cistern := rfl
@[simp] theorem State.count_delta : (s.count c i n).delta = s.delta := rfl
@[simp] theorem State.count_basin : (s.count c i n).basin = s.basin := rfl
@[simp] theorem State.count_secy : (s.count c i n).secy = s.secy := rfl
@[simp] theorem State.count_clock : (s.count c i n).clock = s.clock := rfl
@[simp] theorem State.count_serdes : (s.count c i n).serdes = s.serdes := rfl
@[simp] theorem State.count_frm : (s.count c i n).frm = s.frm := rfl
@[simp] theorem State.count_chip : (s.count c i n).chip = s.chip := rfl
@[simp] theorem State.count_out : (s.count c i n).out = s.out := rfl

end

/-! ### emit: an output -/

section
variable (s : State) (o : Output)

@[simp] theorem State.emit_pending : (s.emit o).pending = s.pending := rfl
@[simp] theorem State.emit_tick : (s.emit o).tick = s.tick := rfl
@[simp] theorem State.emit_draws : (s.emit o).draws = s.draws := rfl
@[simp] theorem State.emit_regs : (s.emit o).regs = s.regs := rfl
@[simp] theorem State.emit_recs : (s.emit o).recs = s.recs := rfl
@[simp] theorem State.emit_latches : (s.emit o).latches = s.latches := rfl
@[simp] theorem State.emit_counters : (s.emit o).counters = s.counters := rfl
@[simp] theorem State.emit_log : (s.emit o).log = s.log := rfl
@[simp] theorem State.emit_line : (s.emit o).line = s.line := rfl
@[simp] theorem State.emit_tide : (s.emit o).tide = s.tide := rfl
@[simp] theorem State.emit_culvert : (s.emit o).culvert = s.culvert := rfl
@[simp] theorem State.emit_pools : (s.emit o).pools = s.pools := rfl
@[simp] theorem State.emit_access : (s.emit o).access = s.access := rfl
@[simp] theorem State.emit_levee : (s.emit o).levee = s.levee := rfl
@[simp] theorem State.emit_sound : (s.emit o).sound = s.sound := rfl
@[simp] theorem State.emit_host : (s.emit o).host = s.host := rfl
@[simp] theorem State.emit_races : (s.emit o).races = s.races := rfl
@[simp] theorem State.emit_l1 : (s.emit o).l1 = s.l1 := rfl
@[simp] theorem State.emit_weir : (s.emit o).weir = s.weir := rfl
@[simp] theorem State.emit_keys : (s.emit o).keys = s.keys := rfl
@[simp] theorem State.emit_cistern : (s.emit o).cistern = s.cistern := rfl
@[simp] theorem State.emit_delta : (s.emit o).delta = s.delta := rfl
@[simp] theorem State.emit_basin : (s.emit o).basin = s.basin := rfl
@[simp] theorem State.emit_secy : (s.emit o).secy = s.secy := rfl
@[simp] theorem State.emit_clock : (s.emit o).clock = s.clock := rfl
@[simp] theorem State.emit_serdes : (s.emit o).serdes = s.serdes := rfl
@[simp] theorem State.emit_frm : (s.emit o).frm = s.frm := rfl
@[simp] theorem State.emit_chip : (s.emit o).chip = s.chip := rfl

end

/-! ### setRword: a record word set -/

section
variable (s : State) (k : RecKind) (i w : Nat) (v : Word)

@[simp] theorem State.setRword_pending : (s.setRword k i w v).pending = s.pending := rfl
@[simp] theorem State.setRword_tick : (s.setRword k i w v).tick = s.tick := rfl
@[simp] theorem State.setRword_draws : (s.setRword k i w v).draws = s.draws := rfl
@[simp] theorem State.setRword_regs : (s.setRword k i w v).regs = s.regs := rfl
@[simp] theorem State.setRword_latches : (s.setRword k i w v).latches = s.latches := rfl
@[simp] theorem State.setRword_counters : (s.setRword k i w v).counters = s.counters := rfl
@[simp] theorem State.setRword_log : (s.setRword k i w v).log = s.log := rfl
@[simp] theorem State.setRword_line : (s.setRword k i w v).line = s.line := rfl
@[simp] theorem State.setRword_tide : (s.setRword k i w v).tide = s.tide := rfl
@[simp] theorem State.setRword_culvert : (s.setRword k i w v).culvert = s.culvert := rfl
@[simp] theorem State.setRword_pools : (s.setRword k i w v).pools = s.pools := rfl
@[simp] theorem State.setRword_access : (s.setRword k i w v).access = s.access := rfl
@[simp] theorem State.setRword_levee : (s.setRword k i w v).levee = s.levee := rfl
@[simp] theorem State.setRword_sound : (s.setRword k i w v).sound = s.sound := rfl
@[simp] theorem State.setRword_host : (s.setRword k i w v).host = s.host := rfl
@[simp] theorem State.setRword_races : (s.setRword k i w v).races = s.races := rfl
@[simp] theorem State.setRword_l1 : (s.setRword k i w v).l1 = s.l1 := rfl
@[simp] theorem State.setRword_weir : (s.setRword k i w v).weir = s.weir := rfl
@[simp] theorem State.setRword_keys : (s.setRword k i w v).keys = s.keys := rfl
@[simp] theorem State.setRword_cistern : (s.setRword k i w v).cistern = s.cistern := rfl
@[simp] theorem State.setRword_delta : (s.setRword k i w v).delta = s.delta := rfl
@[simp] theorem State.setRword_basin : (s.setRword k i w v).basin = s.basin := rfl
@[simp] theorem State.setRword_secy : (s.setRword k i w v).secy = s.secy := rfl
@[simp] theorem State.setRword_clock : (s.setRword k i w v).clock = s.clock := rfl
@[simp] theorem State.setRword_serdes : (s.setRword k i w v).serdes = s.serdes := rfl
@[simp] theorem State.setRword_frm : (s.setRword k i w v).frm = s.frm := rfl
@[simp] theorem State.setRword_chip : (s.setRword k i w v).chip = s.chip := rfl
@[simp] theorem State.setRword_out : (s.setRword k i w v).out = s.out := rfl

end

/-! ### rwr: a record field set -/

section
variable (s : State) (f : RField) (i v : Nat)

@[simp] theorem State.rwr_pending : (s.rwr f i v).pending = s.pending := rfl
@[simp] theorem State.rwr_tick : (s.rwr f i v).tick = s.tick := rfl
@[simp] theorem State.rwr_draws : (s.rwr f i v).draws = s.draws := rfl
@[simp] theorem State.rwr_regs : (s.rwr f i v).regs = s.regs := rfl
@[simp] theorem State.rwr_latches : (s.rwr f i v).latches = s.latches := rfl
@[simp] theorem State.rwr_counters : (s.rwr f i v).counters = s.counters := rfl
@[simp] theorem State.rwr_log : (s.rwr f i v).log = s.log := rfl
@[simp] theorem State.rwr_line : (s.rwr f i v).line = s.line := rfl
@[simp] theorem State.rwr_tide : (s.rwr f i v).tide = s.tide := rfl
@[simp] theorem State.rwr_culvert : (s.rwr f i v).culvert = s.culvert := rfl
@[simp] theorem State.rwr_pools : (s.rwr f i v).pools = s.pools := rfl
@[simp] theorem State.rwr_access : (s.rwr f i v).access = s.access := rfl
@[simp] theorem State.rwr_levee : (s.rwr f i v).levee = s.levee := rfl
@[simp] theorem State.rwr_sound : (s.rwr f i v).sound = s.sound := rfl
@[simp] theorem State.rwr_host : (s.rwr f i v).host = s.host := rfl
@[simp] theorem State.rwr_races : (s.rwr f i v).races = s.races := rfl
@[simp] theorem State.rwr_l1 : (s.rwr f i v).l1 = s.l1 := rfl
@[simp] theorem State.rwr_weir : (s.rwr f i v).weir = s.weir := rfl
@[simp] theorem State.rwr_keys : (s.rwr f i v).keys = s.keys := rfl
@[simp] theorem State.rwr_cistern : (s.rwr f i v).cistern = s.cistern := rfl
@[simp] theorem State.rwr_delta : (s.rwr f i v).delta = s.delta := rfl
@[simp] theorem State.rwr_basin : (s.rwr f i v).basin = s.basin := rfl
@[simp] theorem State.rwr_secy : (s.rwr f i v).secy = s.secy := rfl
@[simp] theorem State.rwr_clock : (s.rwr f i v).clock = s.clock := rfl
@[simp] theorem State.rwr_serdes : (s.rwr f i v).serdes = s.serdes := rfl
@[simp] theorem State.rwr_frm : (s.rwr f i v).frm = s.frm := rfl
@[simp] theorem State.rwr_chip : (s.rwr f i v).chip = s.chip := rfl
@[simp] theorem State.rwr_out : (s.rwr f i v).out = s.out := rfl

end

/-! ### latch: a latch -/

section
variable (s : State) (m : Master) (o : Nat) (v : Word)

@[simp] theorem State.latch_pending : (s.latch m o v).pending = s.pending := rfl
@[simp] theorem State.latch_tick : (s.latch m o v).tick = s.tick := rfl
@[simp] theorem State.latch_draws : (s.latch m o v).draws = s.draws := rfl
@[simp] theorem State.latch_regs : (s.latch m o v).regs = s.regs := rfl
@[simp] theorem State.latch_recs : (s.latch m o v).recs = s.recs := rfl
@[simp] theorem State.latch_counters : (s.latch m o v).counters = s.counters := rfl
@[simp] theorem State.latch_log : (s.latch m o v).log = s.log := rfl
@[simp] theorem State.latch_line : (s.latch m o v).line = s.line := rfl
@[simp] theorem State.latch_tide : (s.latch m o v).tide = s.tide := rfl
@[simp] theorem State.latch_culvert : (s.latch m o v).culvert = s.culvert := rfl
@[simp] theorem State.latch_pools : (s.latch m o v).pools = s.pools := rfl
@[simp] theorem State.latch_access : (s.latch m o v).access = s.access := rfl
@[simp] theorem State.latch_levee : (s.latch m o v).levee = s.levee := rfl
@[simp] theorem State.latch_sound : (s.latch m o v).sound = s.sound := rfl
@[simp] theorem State.latch_host : (s.latch m o v).host = s.host := rfl
@[simp] theorem State.latch_races : (s.latch m o v).races = s.races := rfl
@[simp] theorem State.latch_l1 : (s.latch m o v).l1 = s.l1 := rfl
@[simp] theorem State.latch_weir : (s.latch m o v).weir = s.weir := rfl
@[simp] theorem State.latch_keys : (s.latch m o v).keys = s.keys := rfl
@[simp] theorem State.latch_cistern : (s.latch m o v).cistern = s.cistern := rfl
@[simp] theorem State.latch_delta : (s.latch m o v).delta = s.delta := rfl
@[simp] theorem State.latch_basin : (s.latch m o v).basin = s.basin := rfl
@[simp] theorem State.latch_secy : (s.latch m o v).secy = s.secy := rfl
@[simp] theorem State.latch_clock : (s.latch m o v).clock = s.clock := rfl
@[simp] theorem State.latch_serdes : (s.latch m o v).serdes = s.serdes := rfl
@[simp] theorem State.latch_frm : (s.latch m o v).frm = s.frm := rfl
@[simp] theorem State.latch_chip : (s.latch m o v).chip = s.chip := rfl
@[simp] theorem State.latch_out : (s.latch m o v).out = s.out := rfl

end

/-! ### setThread: a thread set -/

section
variable (s : State) (t : Nat) (x : Thread)

@[simp] theorem State.setThread_pending : (s.setThread t x).pending = s.pending := rfl
@[simp] theorem State.setThread_tick : (s.setThread t x).tick = s.tick := rfl
@[simp] theorem State.setThread_draws : (s.setThread t x).draws = s.draws := rfl
@[simp] theorem State.setThread_regs : (s.setThread t x).regs = s.regs := rfl
@[simp] theorem State.setThread_recs : (s.setThread t x).recs = s.recs := rfl
@[simp] theorem State.setThread_latches : (s.setThread t x).latches = s.latches := rfl
@[simp] theorem State.setThread_counters : (s.setThread t x).counters = s.counters := rfl
@[simp] theorem State.setThread_log : (s.setThread t x).log = s.log := rfl
@[simp] theorem State.setThread_line : (s.setThread t x).line = s.line := rfl
@[simp] theorem State.setThread_culvert : (s.setThread t x).culvert = s.culvert := rfl
@[simp] theorem State.setThread_pools : (s.setThread t x).pools = s.pools := rfl
@[simp] theorem State.setThread_access : (s.setThread t x).access = s.access := rfl
@[simp] theorem State.setThread_levee : (s.setThread t x).levee = s.levee := rfl
@[simp] theorem State.setThread_sound : (s.setThread t x).sound = s.sound := rfl
@[simp] theorem State.setThread_host : (s.setThread t x).host = s.host := rfl
@[simp] theorem State.setThread_races : (s.setThread t x).races = s.races := rfl
@[simp] theorem State.setThread_l1 : (s.setThread t x).l1 = s.l1 := rfl
@[simp] theorem State.setThread_weir : (s.setThread t x).weir = s.weir := rfl
@[simp] theorem State.setThread_keys : (s.setThread t x).keys = s.keys := rfl
@[simp] theorem State.setThread_cistern : (s.setThread t x).cistern = s.cistern := rfl
@[simp] theorem State.setThread_delta : (s.setThread t x).delta = s.delta := rfl
@[simp] theorem State.setThread_basin : (s.setThread t x).basin = s.basin := rfl
@[simp] theorem State.setThread_secy : (s.setThread t x).secy = s.secy := rfl
@[simp] theorem State.setThread_clock : (s.setThread t x).clock = s.clock := rfl
@[simp] theorem State.setThread_serdes : (s.setThread t x).serdes = s.serdes := rfl
@[simp] theorem State.setThread_frm : (s.setThread t x).frm = s.frm := rfl
@[simp] theorem State.setThread_chip : (s.setThread t x).chip = s.chip := rfl
@[simp] theorem State.setThread_out : (s.setThread t x).out = s.out := rfl

end

/-! ### setRace: a Race set -/

section
variable (s : State) (k : Nat) (x : Race)

@[simp] theorem State.setRace_pending : (s.setRace k x).pending = s.pending := rfl
@[simp] theorem State.setRace_tick : (s.setRace k x).tick = s.tick := rfl
@[simp] theorem State.setRace_draws : (s.setRace k x).draws = s.draws := rfl
@[simp] theorem State.setRace_regs : (s.setRace k x).regs = s.regs := rfl
@[simp] theorem State.setRace_recs : (s.setRace k x).recs = s.recs := rfl
@[simp] theorem State.setRace_latches : (s.setRace k x).latches = s.latches := rfl
@[simp] theorem State.setRace_counters : (s.setRace k x).counters = s.counters := rfl
@[simp] theorem State.setRace_log : (s.setRace k x).log = s.log := rfl
@[simp] theorem State.setRace_line : (s.setRace k x).line = s.line := rfl
@[simp] theorem State.setRace_tide : (s.setRace k x).tide = s.tide := rfl
@[simp] theorem State.setRace_culvert : (s.setRace k x).culvert = s.culvert := rfl
@[simp] theorem State.setRace_pools : (s.setRace k x).pools = s.pools := rfl
@[simp] theorem State.setRace_access : (s.setRace k x).access = s.access := rfl
@[simp] theorem State.setRace_levee : (s.setRace k x).levee = s.levee := rfl
@[simp] theorem State.setRace_sound : (s.setRace k x).sound = s.sound := rfl
@[simp] theorem State.setRace_host : (s.setRace k x).host = s.host := rfl
@[simp] theorem State.setRace_l1 : (s.setRace k x).l1 = s.l1 := rfl
@[simp] theorem State.setRace_weir : (s.setRace k x).weir = s.weir := rfl
@[simp] theorem State.setRace_keys : (s.setRace k x).keys = s.keys := rfl
@[simp] theorem State.setRace_cistern : (s.setRace k x).cistern = s.cistern := rfl
@[simp] theorem State.setRace_delta : (s.setRace k x).delta = s.delta := rfl
@[simp] theorem State.setRace_basin : (s.setRace k x).basin = s.basin := rfl
@[simp] theorem State.setRace_secy : (s.setRace k x).secy = s.secy := rfl
@[simp] theorem State.setRace_clock : (s.setRace k x).clock = s.clock := rfl
@[simp] theorem State.setRace_serdes : (s.setRace k x).serdes = s.serdes := rfl
@[simp] theorem State.setRace_frm : (s.setRace k x).frm = s.frm := rfl
@[simp] theorem State.setRace_chip : (s.setRace k x).chip = s.chip := rfl
@[simp] theorem State.setRace_out : (s.setRace k x).out = s.out := rfl

end

/-! ### setWgrp: a group of the Weir set -/

section
variable (s : State) (g : Nat) (x : WeirGroup)

@[simp] theorem State.setWgrp_pending : (s.setWgrp g x).pending = s.pending := rfl
@[simp] theorem State.setWgrp_tick : (s.setWgrp g x).tick = s.tick := rfl
@[simp] theorem State.setWgrp_draws : (s.setWgrp g x).draws = s.draws := rfl
@[simp] theorem State.setWgrp_regs : (s.setWgrp g x).regs = s.regs := rfl
@[simp] theorem State.setWgrp_recs : (s.setWgrp g x).recs = s.recs := rfl
@[simp] theorem State.setWgrp_latches : (s.setWgrp g x).latches = s.latches := rfl
@[simp] theorem State.setWgrp_counters : (s.setWgrp g x).counters = s.counters := rfl
@[simp] theorem State.setWgrp_log : (s.setWgrp g x).log = s.log := rfl
@[simp] theorem State.setWgrp_line : (s.setWgrp g x).line = s.line := rfl
@[simp] theorem State.setWgrp_tide : (s.setWgrp g x).tide = s.tide := rfl
@[simp] theorem State.setWgrp_culvert : (s.setWgrp g x).culvert = s.culvert := rfl
@[simp] theorem State.setWgrp_pools : (s.setWgrp g x).pools = s.pools := rfl
@[simp] theorem State.setWgrp_access : (s.setWgrp g x).access = s.access := rfl
@[simp] theorem State.setWgrp_levee : (s.setWgrp g x).levee = s.levee := rfl
@[simp] theorem State.setWgrp_sound : (s.setWgrp g x).sound = s.sound := rfl
@[simp] theorem State.setWgrp_host : (s.setWgrp g x).host = s.host := rfl
@[simp] theorem State.setWgrp_races : (s.setWgrp g x).races = s.races := rfl
@[simp] theorem State.setWgrp_l1 : (s.setWgrp g x).l1 = s.l1 := rfl
@[simp] theorem State.setWgrp_keys : (s.setWgrp g x).keys = s.keys := rfl
@[simp] theorem State.setWgrp_cistern : (s.setWgrp g x).cistern = s.cistern := rfl
@[simp] theorem State.setWgrp_delta : (s.setWgrp g x).delta = s.delta := rfl
@[simp] theorem State.setWgrp_basin : (s.setWgrp g x).basin = s.basin := rfl
@[simp] theorem State.setWgrp_secy : (s.setWgrp g x).secy = s.secy := rfl
@[simp] theorem State.setWgrp_clock : (s.setWgrp g x).clock = s.clock := rfl
@[simp] theorem State.setWgrp_serdes : (s.setWgrp g x).serdes = s.serdes := rfl
@[simp] theorem State.setWgrp_frm : (s.setWgrp g x).frm = s.frm := rfl
@[simp] theorem State.setWgrp_chip : (s.setWgrp g x).chip = s.chip := rfl
@[simp] theorem State.setWgrp_out : (s.setWgrp g x).out = s.out := rfl

end

/-! ### setL1: an L1 channel set -/

section
variable (s : State) (c : Nat) (x : L1Run)

@[simp] theorem State.setL1_pending : (s.setL1 c x).pending = s.pending := rfl
@[simp] theorem State.setL1_tick : (s.setL1 c x).tick = s.tick := rfl
@[simp] theorem State.setL1_draws : (s.setL1 c x).draws = s.draws := rfl
@[simp] theorem State.setL1_regs : (s.setL1 c x).regs = s.regs := rfl
@[simp] theorem State.setL1_recs : (s.setL1 c x).recs = s.recs := rfl
@[simp] theorem State.setL1_latches : (s.setL1 c x).latches = s.latches := rfl
@[simp] theorem State.setL1_counters : (s.setL1 c x).counters = s.counters := rfl
@[simp] theorem State.setL1_log : (s.setL1 c x).log = s.log := rfl
@[simp] theorem State.setL1_line : (s.setL1 c x).line = s.line := rfl
@[simp] theorem State.setL1_tide : (s.setL1 c x).tide = s.tide := rfl
@[simp] theorem State.setL1_culvert : (s.setL1 c x).culvert = s.culvert := rfl
@[simp] theorem State.setL1_pools : (s.setL1 c x).pools = s.pools := rfl
@[simp] theorem State.setL1_access : (s.setL1 c x).access = s.access := rfl
@[simp] theorem State.setL1_levee : (s.setL1 c x).levee = s.levee := rfl
@[simp] theorem State.setL1_sound : (s.setL1 c x).sound = s.sound := rfl
@[simp] theorem State.setL1_host : (s.setL1 c x).host = s.host := rfl
@[simp] theorem State.setL1_races : (s.setL1 c x).races = s.races := rfl
@[simp] theorem State.setL1_weir : (s.setL1 c x).weir = s.weir := rfl
@[simp] theorem State.setL1_keys : (s.setL1 c x).keys = s.keys := rfl
@[simp] theorem State.setL1_cistern : (s.setL1 c x).cistern = s.cistern := rfl
@[simp] theorem State.setL1_delta : (s.setL1 c x).delta = s.delta := rfl
@[simp] theorem State.setL1_basin : (s.setL1 c x).basin = s.basin := rfl
@[simp] theorem State.setL1_secy : (s.setL1 c x).secy = s.secy := rfl
@[simp] theorem State.setL1_clock : (s.setL1 c x).clock = s.clock := rfl
@[simp] theorem State.setL1_serdes : (s.setL1 c x).serdes = s.serdes := rfl
@[simp] theorem State.setL1_frm : (s.setL1 c x).frm = s.frm := rfl
@[simp] theorem State.setL1_chip : (s.setL1 c x).chip = s.chip := rfl
@[simp] theorem State.setL1_out : (s.setL1 c x).out = s.out := rfl

end

/-! ### setRange: a Culvert range set -/

section
variable (s : State) (r : Nat) (x : RangeState)

@[simp] theorem State.setRange_pending : (s.setRange r x).pending = s.pending := rfl
@[simp] theorem State.setRange_tick : (s.setRange r x).tick = s.tick := rfl
@[simp] theorem State.setRange_draws : (s.setRange r x).draws = s.draws := rfl
@[simp] theorem State.setRange_regs : (s.setRange r x).regs = s.regs := rfl
@[simp] theorem State.setRange_recs : (s.setRange r x).recs = s.recs := rfl
@[simp] theorem State.setRange_latches : (s.setRange r x).latches = s.latches := rfl
@[simp] theorem State.setRange_counters : (s.setRange r x).counters = s.counters := rfl
@[simp] theorem State.setRange_log : (s.setRange r x).log = s.log := rfl
@[simp] theorem State.setRange_line : (s.setRange r x).line = s.line := rfl
@[simp] theorem State.setRange_tide : (s.setRange r x).tide = s.tide := rfl
@[simp] theorem State.setRange_pools : (s.setRange r x).pools = s.pools := rfl
@[simp] theorem State.setRange_access : (s.setRange r x).access = s.access := rfl
@[simp] theorem State.setRange_levee : (s.setRange r x).levee = s.levee := rfl
@[simp] theorem State.setRange_sound : (s.setRange r x).sound = s.sound := rfl
@[simp] theorem State.setRange_host : (s.setRange r x).host = s.host := rfl
@[simp] theorem State.setRange_races : (s.setRange r x).races = s.races := rfl
@[simp] theorem State.setRange_l1 : (s.setRange r x).l1 = s.l1 := rfl
@[simp] theorem State.setRange_weir : (s.setRange r x).weir = s.weir := rfl
@[simp] theorem State.setRange_keys : (s.setRange r x).keys = s.keys := rfl
@[simp] theorem State.setRange_cistern : (s.setRange r x).cistern = s.cistern := rfl
@[simp] theorem State.setRange_delta : (s.setRange r x).delta = s.delta := rfl
@[simp] theorem State.setRange_basin : (s.setRange r x).basin = s.basin := rfl
@[simp] theorem State.setRange_secy : (s.setRange r x).secy = s.secy := rfl
@[simp] theorem State.setRange_clock : (s.setRange r x).clock = s.clock := rfl
@[simp] theorem State.setRange_serdes : (s.setRange r x).serdes = s.serdes := rfl
@[simp] theorem State.setRange_frm : (s.setRange r x).frm = s.frm := rfl
@[simp] theorem State.setRange_chip : (s.setRange r x).chip = s.chip := rfl
@[simp] theorem State.setRange_out : (s.setRange r x).out = s.out := rfl

end

/-! ### setCulRaw: raw words of a sector set -/

section
variable (s : State) (n : Nat) (ws : List (BitVec 80))

@[simp] theorem State.setCulRaw_pending : (s.setCulRaw n ws).pending = s.pending := rfl
@[simp] theorem State.setCulRaw_tick : (s.setCulRaw n ws).tick = s.tick := rfl
@[simp] theorem State.setCulRaw_draws : (s.setCulRaw n ws).draws = s.draws := rfl
@[simp] theorem State.setCulRaw_regs : (s.setCulRaw n ws).regs = s.regs := rfl
@[simp] theorem State.setCulRaw_recs : (s.setCulRaw n ws).recs = s.recs := rfl
@[simp] theorem State.setCulRaw_latches : (s.setCulRaw n ws).latches = s.latches := rfl
@[simp] theorem State.setCulRaw_counters : (s.setCulRaw n ws).counters = s.counters := rfl
@[simp] theorem State.setCulRaw_log : (s.setCulRaw n ws).log = s.log := rfl
@[simp] theorem State.setCulRaw_line : (s.setCulRaw n ws).line = s.line := rfl
@[simp] theorem State.setCulRaw_tide : (s.setCulRaw n ws).tide = s.tide := rfl
@[simp] theorem State.setCulRaw_pools : (s.setCulRaw n ws).pools = s.pools := rfl
@[simp] theorem State.setCulRaw_access : (s.setCulRaw n ws).access = s.access := rfl
@[simp] theorem State.setCulRaw_levee : (s.setCulRaw n ws).levee = s.levee := rfl
@[simp] theorem State.setCulRaw_sound : (s.setCulRaw n ws).sound = s.sound := rfl
@[simp] theorem State.setCulRaw_host : (s.setCulRaw n ws).host = s.host := rfl
@[simp] theorem State.setCulRaw_races : (s.setCulRaw n ws).races = s.races := rfl
@[simp] theorem State.setCulRaw_l1 : (s.setCulRaw n ws).l1 = s.l1 := rfl
@[simp] theorem State.setCulRaw_weir : (s.setCulRaw n ws).weir = s.weir := rfl
@[simp] theorem State.setCulRaw_keys : (s.setCulRaw n ws).keys = s.keys := rfl
@[simp] theorem State.setCulRaw_cistern : (s.setCulRaw n ws).cistern = s.cistern := rfl
@[simp] theorem State.setCulRaw_delta : (s.setCulRaw n ws).delta = s.delta := rfl
@[simp] theorem State.setCulRaw_basin : (s.setCulRaw n ws).basin = s.basin := rfl
@[simp] theorem State.setCulRaw_secy : (s.setCulRaw n ws).secy = s.secy := rfl
@[simp] theorem State.setCulRaw_clock : (s.setCulRaw n ws).clock = s.clock := rfl
@[simp] theorem State.setCulRaw_serdes : (s.setCulRaw n ws).serdes = s.serdes := rfl
@[simp] theorem State.setCulRaw_frm : (s.setCulRaw n ws).frm = s.frm := rfl
@[simp] theorem State.setCulRaw_chip : (s.setCulRaw n ws).chip = s.chip := rfl
@[simp] theorem State.setCulRaw_out : (s.setCulRaw n ws).out = s.out := rfl

end

/-! ### setBq: a queue set -/

section
variable (s : State) (q : Nat) (x : BQueue)

@[simp] theorem State.setBq_pending : (s.setBq q x).pending = s.pending := rfl
@[simp] theorem State.setBq_tick : (s.setBq q x).tick = s.tick := rfl
@[simp] theorem State.setBq_draws : (s.setBq q x).draws = s.draws := rfl
@[simp] theorem State.setBq_regs : (s.setBq q x).regs = s.regs := rfl
@[simp] theorem State.setBq_recs : (s.setBq q x).recs = s.recs := rfl
@[simp] theorem State.setBq_latches : (s.setBq q x).latches = s.latches := rfl
@[simp] theorem State.setBq_counters : (s.setBq q x).counters = s.counters := rfl
@[simp] theorem State.setBq_log : (s.setBq q x).log = s.log := rfl
@[simp] theorem State.setBq_line : (s.setBq q x).line = s.line := rfl
@[simp] theorem State.setBq_tide : (s.setBq q x).tide = s.tide := rfl
@[simp] theorem State.setBq_culvert : (s.setBq q x).culvert = s.culvert := rfl
@[simp] theorem State.setBq_pools : (s.setBq q x).pools = s.pools := rfl
@[simp] theorem State.setBq_access : (s.setBq q x).access = s.access := rfl
@[simp] theorem State.setBq_levee : (s.setBq q x).levee = s.levee := rfl
@[simp] theorem State.setBq_sound : (s.setBq q x).sound = s.sound := rfl
@[simp] theorem State.setBq_host : (s.setBq q x).host = s.host := rfl
@[simp] theorem State.setBq_races : (s.setBq q x).races = s.races := rfl
@[simp] theorem State.setBq_l1 : (s.setBq q x).l1 = s.l1 := rfl
@[simp] theorem State.setBq_weir : (s.setBq q x).weir = s.weir := rfl
@[simp] theorem State.setBq_keys : (s.setBq q x).keys = s.keys := rfl
@[simp] theorem State.setBq_cistern : (s.setBq q x).cistern = s.cistern := rfl
@[simp] theorem State.setBq_delta : (s.setBq q x).delta = s.delta := rfl
@[simp] theorem State.setBq_secy : (s.setBq q x).secy = s.secy := rfl
@[simp] theorem State.setBq_clock : (s.setBq q x).clock = s.clock := rfl
@[simp] theorem State.setBq_serdes : (s.setBq q x).serdes = s.serdes := rfl
@[simp] theorem State.setBq_frm : (s.setBq q x).frm = s.frm := rfl
@[simp] theorem State.setBq_chip : (s.setBq q x).chip = s.chip := rfl
@[simp] theorem State.setBq_out : (s.setBq q x).out = s.out := rfl

end

/-! ### setKslot: a key slot set -/

section
variable (s : State) (c i : Nat) (x : KeySlot)

@[simp] theorem State.setKslot_pending : (s.setKslot c i x).pending = s.pending := rfl
@[simp] theorem State.setKslot_tick : (s.setKslot c i x).tick = s.tick := rfl
@[simp] theorem State.setKslot_draws : (s.setKslot c i x).draws = s.draws := rfl
@[simp] theorem State.setKslot_regs : (s.setKslot c i x).regs = s.regs := rfl
@[simp] theorem State.setKslot_recs : (s.setKslot c i x).recs = s.recs := rfl
@[simp] theorem State.setKslot_latches : (s.setKslot c i x).latches = s.latches := rfl
@[simp] theorem State.setKslot_counters : (s.setKslot c i x).counters = s.counters := rfl
@[simp] theorem State.setKslot_log : (s.setKslot c i x).log = s.log := rfl
@[simp] theorem State.setKslot_line : (s.setKslot c i x).line = s.line := rfl
@[simp] theorem State.setKslot_tide : (s.setKslot c i x).tide = s.tide := rfl
@[simp] theorem State.setKslot_culvert : (s.setKslot c i x).culvert = s.culvert := rfl
@[simp] theorem State.setKslot_pools : (s.setKslot c i x).pools = s.pools := rfl
@[simp] theorem State.setKslot_access : (s.setKslot c i x).access = s.access := rfl
@[simp] theorem State.setKslot_levee : (s.setKslot c i x).levee = s.levee := rfl
@[simp] theorem State.setKslot_sound : (s.setKslot c i x).sound = s.sound := rfl
@[simp] theorem State.setKslot_host : (s.setKslot c i x).host = s.host := rfl
@[simp] theorem State.setKslot_races : (s.setKslot c i x).races = s.races := rfl
@[simp] theorem State.setKslot_l1 : (s.setKslot c i x).l1 = s.l1 := rfl
@[simp] theorem State.setKslot_weir : (s.setKslot c i x).weir = s.weir := rfl
@[simp] theorem State.setKslot_cistern : (s.setKslot c i x).cistern = s.cistern := rfl
@[simp] theorem State.setKslot_delta : (s.setKslot c i x).delta = s.delta := rfl
@[simp] theorem State.setKslot_basin : (s.setKslot c i x).basin = s.basin := rfl
@[simp] theorem State.setKslot_secy : (s.setKslot c i x).secy = s.secy := rfl
@[simp] theorem State.setKslot_clock : (s.setKslot c i x).clock = s.clock := rfl
@[simp] theorem State.setKslot_serdes : (s.setKslot c i x).serdes = s.serdes := rfl
@[simp] theorem State.setKslot_frm : (s.setKslot c i x).frm = s.frm := rfl
@[simp] theorem State.setKslot_chip : (s.setKslot c i x).chip = s.chip := rfl
@[simp] theorem State.setKslot_out : (s.setKslot c i x).out = s.out := rfl

end

/-! ### setRing: a ring set -/

section
variable (s : State) (r : Nat) (x : Ring)

@[simp] theorem State.setRing_pending : (s.setRing r x).pending = s.pending := rfl
@[simp] theorem State.setRing_tick : (s.setRing r x).tick = s.tick := rfl
@[simp] theorem State.setRing_draws : (s.setRing r x).draws = s.draws := rfl
@[simp] theorem State.setRing_regs : (s.setRing r x).regs = s.regs := rfl
@[simp] theorem State.setRing_recs : (s.setRing r x).recs = s.recs := rfl
@[simp] theorem State.setRing_latches : (s.setRing r x).latches = s.latches := rfl
@[simp] theorem State.setRing_counters : (s.setRing r x).counters = s.counters := rfl
@[simp] theorem State.setRing_log : (s.setRing r x).log = s.log := rfl
@[simp] theorem State.setRing_line : (s.setRing r x).line = s.line := rfl
@[simp] theorem State.setRing_tide : (s.setRing r x).tide = s.tide := rfl
@[simp] theorem State.setRing_culvert : (s.setRing r x).culvert = s.culvert := rfl
@[simp] theorem State.setRing_pools : (s.setRing r x).pools = s.pools := rfl
@[simp] theorem State.setRing_access : (s.setRing r x).access = s.access := rfl
@[simp] theorem State.setRing_levee : (s.setRing r x).levee = s.levee := rfl
@[simp] theorem State.setRing_sound : (s.setRing r x).sound = s.sound := rfl
@[simp] theorem State.setRing_races : (s.setRing r x).races = s.races := rfl
@[simp] theorem State.setRing_l1 : (s.setRing r x).l1 = s.l1 := rfl
@[simp] theorem State.setRing_weir : (s.setRing r x).weir = s.weir := rfl
@[simp] theorem State.setRing_keys : (s.setRing r x).keys = s.keys := rfl
@[simp] theorem State.setRing_cistern : (s.setRing r x).cistern = s.cistern := rfl
@[simp] theorem State.setRing_delta : (s.setRing r x).delta = s.delta := rfl
@[simp] theorem State.setRing_basin : (s.setRing r x).basin = s.basin := rfl
@[simp] theorem State.setRing_secy : (s.setRing r x).secy = s.secy := rfl
@[simp] theorem State.setRing_clock : (s.setRing r x).clock = s.clock := rfl
@[simp] theorem State.setRing_serdes : (s.setRing r x).serdes = s.serdes := rfl
@[simp] theorem State.setRing_frm : (s.setRing r x).frm = s.frm := rfl
@[simp] theorem State.setRing_chip : (s.setRing r x).chip = s.chip := rfl
@[simp] theorem State.setRing_out : (s.setRing r x).out = s.out := rfl

end

/-! ### setLane: a lane set -/

section
variable (s : State) (n : Nat) (x : LaneRun)

@[simp] theorem State.setLane_pending : (s.setLane n x).pending = s.pending := rfl
@[simp] theorem State.setLane_tick : (s.setLane n x).tick = s.tick := rfl
@[simp] theorem State.setLane_draws : (s.setLane n x).draws = s.draws := rfl
@[simp] theorem State.setLane_regs : (s.setLane n x).regs = s.regs := rfl
@[simp] theorem State.setLane_recs : (s.setLane n x).recs = s.recs := rfl
@[simp] theorem State.setLane_latches : (s.setLane n x).latches = s.latches := rfl
@[simp] theorem State.setLane_counters : (s.setLane n x).counters = s.counters := rfl
@[simp] theorem State.setLane_log : (s.setLane n x).log = s.log := rfl
@[simp] theorem State.setLane_line : (s.setLane n x).line = s.line := rfl
@[simp] theorem State.setLane_tide : (s.setLane n x).tide = s.tide := rfl
@[simp] theorem State.setLane_culvert : (s.setLane n x).culvert = s.culvert := rfl
@[simp] theorem State.setLane_pools : (s.setLane n x).pools = s.pools := rfl
@[simp] theorem State.setLane_access : (s.setLane n x).access = s.access := rfl
@[simp] theorem State.setLane_levee : (s.setLane n x).levee = s.levee := rfl
@[simp] theorem State.setLane_sound : (s.setLane n x).sound = s.sound := rfl
@[simp] theorem State.setLane_host : (s.setLane n x).host = s.host := rfl
@[simp] theorem State.setLane_races : (s.setLane n x).races = s.races := rfl
@[simp] theorem State.setLane_l1 : (s.setLane n x).l1 = s.l1 := rfl
@[simp] theorem State.setLane_weir : (s.setLane n x).weir = s.weir := rfl
@[simp] theorem State.setLane_keys : (s.setLane n x).keys = s.keys := rfl
@[simp] theorem State.setLane_cistern : (s.setLane n x).cistern = s.cistern := rfl
@[simp] theorem State.setLane_delta : (s.setLane n x).delta = s.delta := rfl
@[simp] theorem State.setLane_basin : (s.setLane n x).basin = s.basin := rfl
@[simp] theorem State.setLane_secy : (s.setLane n x).secy = s.secy := rfl
@[simp] theorem State.setLane_clock : (s.setLane n x).clock = s.clock := rfl
@[simp] theorem State.setLane_frm : (s.setLane n x).frm = s.frm := rfl
@[simp] theorem State.setLane_chip : (s.setLane n x).chip = s.chip := rfl
@[simp] theorem State.setLane_out : (s.setLane n x).out = s.out := rfl

end

/-! ### setLink: a TSS link set -/

section
variable (s : State) (n : Nat) (x : TssLink)

@[simp] theorem State.setLink_pending : (s.setLink n x).pending = s.pending := rfl
@[simp] theorem State.setLink_tick : (s.setLink n x).tick = s.tick := rfl
@[simp] theorem State.setLink_draws : (s.setLink n x).draws = s.draws := rfl
@[simp] theorem State.setLink_regs : (s.setLink n x).regs = s.regs := rfl
@[simp] theorem State.setLink_recs : (s.setLink n x).recs = s.recs := rfl
@[simp] theorem State.setLink_latches : (s.setLink n x).latches = s.latches := rfl
@[simp] theorem State.setLink_counters : (s.setLink n x).counters = s.counters := rfl
@[simp] theorem State.setLink_log : (s.setLink n x).log = s.log := rfl
@[simp] theorem State.setLink_line : (s.setLink n x).line = s.line := rfl
@[simp] theorem State.setLink_tide : (s.setLink n x).tide = s.tide := rfl
@[simp] theorem State.setLink_culvert : (s.setLink n x).culvert = s.culvert := rfl
@[simp] theorem State.setLink_pools : (s.setLink n x).pools = s.pools := rfl
@[simp] theorem State.setLink_access : (s.setLink n x).access = s.access := rfl
@[simp] theorem State.setLink_levee : (s.setLink n x).levee = s.levee := rfl
@[simp] theorem State.setLink_sound : (s.setLink n x).sound = s.sound := rfl
@[simp] theorem State.setLink_host : (s.setLink n x).host = s.host := rfl
@[simp] theorem State.setLink_races : (s.setLink n x).races = s.races := rfl
@[simp] theorem State.setLink_l1 : (s.setLink n x).l1 = s.l1 := rfl
@[simp] theorem State.setLink_weir : (s.setLink n x).weir = s.weir := rfl
@[simp] theorem State.setLink_keys : (s.setLink n x).keys = s.keys := rfl
@[simp] theorem State.setLink_cistern : (s.setLink n x).cistern = s.cistern := rfl
@[simp] theorem State.setLink_delta : (s.setLink n x).delta = s.delta := rfl
@[simp] theorem State.setLink_basin : (s.setLink n x).basin = s.basin := rfl
@[simp] theorem State.setLink_secy : (s.setLink n x).secy = s.secy := rfl
@[simp] theorem State.setLink_clock : (s.setLink n x).clock = s.clock := rfl
@[simp] theorem State.setLink_frm : (s.setLink n x).frm = s.frm := rfl
@[simp] theorem State.setLink_chip : (s.setLink n x).chip = s.chip := rfl
@[simp] theorem State.setLink_out : (s.setLink n x).out = s.out := rfl

end

/-! ### draw: a free word -/

@[simp] theorem State.draw_pending (s : State) : s.draw.2.pending = s.pending := rfl
@[simp] theorem State.draw_tick (s : State) : s.draw.2.tick = s.tick := rfl
@[simp] theorem State.draw_regs (s : State) : s.draw.2.regs = s.regs := rfl
@[simp] theorem State.draw_recs (s : State) : s.draw.2.recs = s.recs := rfl
@[simp] theorem State.draw_latches (s : State) : s.draw.2.latches = s.latches := rfl
@[simp] theorem State.draw_counters (s : State) : s.draw.2.counters = s.counters := rfl
@[simp] theorem State.draw_log (s : State) : s.draw.2.log = s.log := rfl
@[simp] theorem State.draw_line (s : State) : s.draw.2.line = s.line := rfl
@[simp] theorem State.draw_tide (s : State) : s.draw.2.tide = s.tide := rfl
@[simp] theorem State.draw_culvert (s : State) : s.draw.2.culvert = s.culvert := rfl
@[simp] theorem State.draw_pools (s : State) : s.draw.2.pools = s.pools := rfl
@[simp] theorem State.draw_access (s : State) : s.draw.2.access = s.access := rfl
@[simp] theorem State.draw_levee (s : State) : s.draw.2.levee = s.levee := rfl
@[simp] theorem State.draw_sound (s : State) : s.draw.2.sound = s.sound := rfl
@[simp] theorem State.draw_host (s : State) : s.draw.2.host = s.host := rfl
@[simp] theorem State.draw_races (s : State) : s.draw.2.races = s.races := rfl
@[simp] theorem State.draw_l1 (s : State) : s.draw.2.l1 = s.l1 := rfl
@[simp] theorem State.draw_weir (s : State) : s.draw.2.weir = s.weir := rfl
@[simp] theorem State.draw_keys (s : State) : s.draw.2.keys = s.keys := rfl
@[simp] theorem State.draw_cistern (s : State) : s.draw.2.cistern = s.cistern := rfl
@[simp] theorem State.draw_delta (s : State) : s.draw.2.delta = s.delta := rfl
@[simp] theorem State.draw_basin (s : State) : s.draw.2.basin = s.basin := rfl
@[simp] theorem State.draw_secy (s : State) : s.draw.2.secy = s.secy := rfl
@[simp] theorem State.draw_clock (s : State) : s.draw.2.clock = s.clock := rfl
@[simp] theorem State.draw_serdes (s : State) : s.draw.2.serdes = s.serdes := rfl
@[simp] theorem State.draw_frm (s : State) : s.draw.2.frm = s.frm := rfl
@[simp] theorem State.draw_chip (s : State) : s.draw.2.chip = s.chip := rfl
@[simp] theorem State.draw_out (s : State) : s.draw.2.out = s.out := rfl

/-! ### Single fields of the parts that several updates share -/

@[simp] theorem State.setThread_queue (s : State) (t : Nat) (x : Thread) : (s.setThread t x).tide.queue = s.tide.queue := rfl
@[simp] theorem State.setCulRaw_poison (s : State) (n : Nat) (ws : List (BitVec 80)) :
    (s.setCulRaw n ws).culvert.poison = s.culvert.poison := rfl
@[simp] theorem State.setRange_poison (s : State) (r : Nat) (x : RangeState) :
    (s.setRange r x).culvert.poison = s.culvert.poison := rfl

/-! ### Tables: reading back what was written -/

end Sys2Proof.Machine

namespace Sys2Proof

variable {α : Type}

theorem Tbl.get_put (d : α) (t : Tbl α) (n m : Nat) (x : α) :
    Tbl.get d (Tbl.put t n x) m = if m = n then x else Tbl.get d t m := by
  induction t with
  | nil =>
    unfold Tbl.put
    by_cases h : m = n
    · subst h; simp [Tbl.get]
    · simp [Tbl.get, h, Ne.symm h]
  | cons p t ih =>
    obtain ⟨k, v⟩ := p
    unfold Tbl.put
    split
    · by_cases h : m = n
      · subst h; simp [Tbl.get]
      · simp [Tbl.get, h, Ne.symm h]
    · split
      · rename_i h1; subst h1
        by_cases h : m = n
        · subst h; simp [Tbl.get]
        · simp [Tbl.get, h, Ne.symm h]
      · rename_i h1 h2
        by_cases hk : k = m
        · have : m ≠ n := fun e => h2 (by omega)
          simp [Tbl.get, hk, this]
        · simp [Tbl.get, hk, ih]

theorem Tbl.get_drop (d : α) (t : Tbl α) (n m : Nat) :
    Tbl.get d (Tbl.drop t n) m = if m = n then d else Tbl.get d t m := by
  induction t with
  | nil => simp [Tbl.drop, Tbl.get]
  | cons p t ih =>
    obtain ⟨k, v⟩ := p
    unfold Tbl.drop
    split
    · rename_i h1; subst h1
      by_cases hm : m = k
      · subst hm; simpa using ih
      · simp [ih, hm, Tbl.get, Ne.symm hm]
    · rename_i h1
      by_cases hk : k = m
      · have : m ≠ n := fun e => h1 (hk.trans e)
        simp [Tbl.get, hk, this]
      · simp [Tbl.get, hk, ih]

/-- A written entry reads back, every other entry is as it was. -/
theorem Tbl.get_set [DecidableEq α] (d : α) (t : Tbl α) (n m : Nat) (x : α) :
    Tbl.get d (Tbl.set d t n x) m = if m = n then x else Tbl.get d t m := by
  unfold Tbl.set
  split
  · rename_i e; subst e; exact Tbl.get_drop _ t n m
  · exact Tbl.get_put d t n m x

/-! ### Canonical tables -/

theorem Tbl.rising_mono {lo lo' : Nat} {t : Tbl α} (h : Tbl.rising lo t) (hl : lo' ≤ lo) : Tbl.rising lo' t := by
  cases t with
  | nil => trivial
  | cons p t => exact ⟨Nat.le_trans hl h.1, h.2⟩

theorem Tbl.rising_of_wf [DecidableEq α] {d : Nat → α} {lo : Nat} {t : Tbl α} (h : Tbl.wfFrom d lo t = true) :
    Tbl.rising lo t := by
  induction t generalizing lo with
  | nil => trivial
  | cons p t ih =>
    obtain ⟨k, v⟩ := p
    simp only [Tbl.wfFrom, Bool.and_eq_true, decide_eq_true_eq] at h
    exact ⟨h.1.1, ih h.2⟩

theorem Tbl.rising_put {lo n : Nat} {t : Tbl α} {x : α} (h : Tbl.rising lo t) (hn : lo ≤ n) :
    Tbl.rising lo (Tbl.put t n x) := by
  induction t generalizing lo with
  | nil => exact ⟨hn, trivial⟩
  | cons p t ih =>
    obtain ⟨k, v⟩ := p
    unfold Tbl.put
    split
    · exact ⟨hn, by omega, h.2⟩
    · split
      · rename_i h1; subst h1; exact ⟨hn, h.2⟩
      · exact ⟨h.1, ih h.2 (by omega)⟩

theorem Tbl.rising_drop {lo n : Nat} {t : Tbl α} (h : Tbl.rising lo t) : Tbl.rising lo (Tbl.drop t n) := by
  induction t generalizing lo with
  | nil => trivial
  | cons p t ih =>
    obtain ⟨k, v⟩ := p
    unfold Tbl.drop
    split
    · exact Tbl.rising_mono (ih h.2) (by have := h.1; omega)
    · exact ⟨h.1, ih h.2⟩

theorem Tbl.rising_filter {lo : Nat} {t : Tbl α} (p : Nat × α → Bool) (h : Tbl.rising lo t) : Tbl.rising lo (t.filter p) := by
  induction t generalizing lo with
  | nil => trivial
  | cons e t ih =>
    obtain ⟨k, v⟩ := e
    simp only [List.filter_cons]
    split
    · exact ⟨h.1, ih h.2⟩
    · exact Tbl.rising_mono (ih h.2) (by have := h.1; omega)

/-- Every table operation keeps the keys rising. -/
theorem Tbl.rising_set [DecidableEq α] {d : α} {n : Nat} {t : Tbl α} {x : α} (h : Tbl.rising 0 t) :
    Tbl.rising 0 (Tbl.set d t n x) := by
  unfold Tbl.set
  split
  · exact Tbl.rising_drop h
  · exact Tbl.rising_put h (Nat.zero_le _)

end Sys2Proof

namespace Sys2Proof.Machine

/-! ### Registers, records, threads and keys read back -/

theorem State.reg_setReg (s : State) (r : Reg) (v : Word) (i j : Nat) : (s.setReg r v i j).reg r i j = v := by
  unfold State.reg State.setReg
  rw [Tbl.get_set, if_pos rfl]

theorem State.reg_setReg_ne (s : State) {r q : Reg} (v : Word) {i j k l : Nat} (h : q.off k l ≠ r.off i j) :
    (s.setReg r v i j).reg q k l = s.reg q k l := by
  unfold State.reg State.setReg
  unfold Tbl.set
  split
  · rw [Tbl.get_drop, if_neg h]
  · rw [Tbl.get_put, if_neg h]

/-- A number cut at a field: what lies above, the field, what lies below. -/
theorem bits_cut (x hi lo : Nat) (h : lo ≤ hi) :
    x = x / 2 ^ (hi + 1) * 2 ^ (hi + 1) + bits x hi lo * 2 ^ lo + x % 2 ^ lo ∧ bits x hi lo < 2 ^ (hi + 1 - lo) := by
  have hw : 2 ^ (hi + 1) = 2 ^ lo * 2 ^ (hi + 1 - lo) := by rw [← Nat.pow_add]; congr 1; omega
  have hb : bits x hi lo < 2 ^ (hi + 1 - lo) := Nat.mod_lt _ (Nat.two_pow_pos _)
  refine ⟨?_, hb⟩
  have e1 := Nat.div_add_mod x (2 ^ lo)
  have e2 := Nat.div_add_mod (x / 2 ^ lo) (2 ^ (hi + 1 - lo))
  have e3 : x / 2 ^ (hi + 1) = x / 2 ^ lo / 2 ^ (hi + 1 - lo) := by rw [hw, Nat.div_div_eq_div_mul]
  unfold bits
  rw [e3, hw]
  calc x = 2 ^ lo * (x / 2 ^ lo) + x % 2 ^ lo := e1.symm
    _ = 2 ^ lo * (2 ^ (hi + 1 - lo) * (x / 2 ^ lo / 2 ^ (hi + 1 - lo)) + x / 2 ^ lo % 2 ^ (hi + 1 - lo)) + x % 2 ^ lo := by
        rw [e2]
    _ = _ := by rw [Nat.mul_add]; ac_rfl

theorem setBits_eq (x hi lo v : Nat) (h : lo ≤ hi) :
    setBits x hi lo v = x / 2 ^ (hi + 1) * 2 ^ (hi + 1) + v % 2 ^ (hi + 1 - lo) * 2 ^ lo + x % 2 ^ lo := by
  have e := (bits_cut x hi lo h).1
  unfold setBits
  have : x - bits x hi lo * 2 ^ lo = x / 2 ^ (hi + 1) * 2 ^ (hi + 1) + x % 2 ^ lo := by omega
  omega

theorem bits_setBits (x hi lo v : Nat) (h : lo ≤ hi) : bits (setBits x hi lo v) hi lo = v % 2 ^ (hi + 1 - lo) := by
  rw [setBits_eq x hi lo v h]
  have hw : 2 ^ (hi + 1) = 2 ^ lo * 2 ^ (hi + 1 - lo) := by rw [← Nat.pow_add]; congr 1; omega
  have hr : x % 2 ^ lo < 2 ^ lo := Nat.mod_lt _ (Nat.two_pow_pos _)
  have hv : v % 2 ^ (hi + 1 - lo) < 2 ^ (hi + 1 - lo) := Nat.mod_lt _ (Nat.two_pow_pos _)
  unfold bits
  rw [hw]
  have : x / (2 ^ lo * 2 ^ (hi + 1 - lo)) * (2 ^ lo * 2 ^ (hi + 1 - lo)) + v % 2 ^ (hi + 1 - lo) * 2 ^ lo + x % 2 ^ lo =
      x % 2 ^ lo + 2 ^ lo * (v % 2 ^ (hi + 1 - lo) + 2 ^ (hi + 1 - lo) * (x / (2 ^ lo * 2 ^ (hi + 1 - lo)))) := by
    rw [Nat.mul_add]; ac_rfl
  rw [this, Nat.add_mul_div_left _ _ (Nat.two_pow_pos _), Nat.div_eq_of_lt hr, Nat.zero_add, Nat.add_mul_mod_self_left,
    Nat.mod_eq_of_lt hv]

theorem setBits_testBit (x hi lo v k : Nat) (h : lo ≤ hi) :
    (setBits x hi lo v).testBit k = if lo ≤ k ∧ k ≤ hi then v.testBit (k - lo) else x.testBit k := by
  have hw : 2 ^ (hi + 1) = 2 ^ lo * 2 ^ (hi + 1 - lo) := by rw [← Nat.pow_add]; congr 1; omega
  have hr : x % 2 ^ lo < 2 ^ lo := Nat.mod_lt _ (Nat.two_pow_pos _)
  have hv : v % 2 ^ (hi + 1 - lo) < 2 ^ (hi + 1 - lo) := Nat.mod_lt _ (Nat.two_pow_pos _)
  have e : setBits x hi lo v = 2 ^ lo * (2 ^ (hi + 1 - lo) * (x / 2 ^ (hi + 1)) + v % 2 ^ (hi + 1 - lo)) + x % 2 ^ lo := by
    rw [setBits_eq x hi lo v h, hw, Nat.mul_add]; ac_rfl
  rw [e, Nat.testBit_two_pow_mul_add _ hr]
  by_cases h1 : k < lo
  · rw [if_pos h1, if_neg (by omega), Nat.testBit_mod_two_pow]
    simp [h1]
  · rw [if_neg h1, Nat.testBit_two_pow_mul_add _ hv]
    by_cases h2 : k ≤ hi
    · rw [if_pos (by omega), if_pos (by omega), Nat.testBit_mod_two_pow]
      simp [show k - lo < hi + 1 - lo by omega]
    · rw [if_neg (by omega), if_neg (by omega), Nat.testBit_div_two_pow]
      congr 1
      omega

theorem bits_testBit (x hi lo k : Nat) : (bits x hi lo).testBit k = (decide (k < hi + 1 - lo) && x.testBit (lo + k)) := by
  unfold bits
  rw [Nat.testBit_mod_two_pow, Nat.testBit_div_two_pow, Nat.add_comm k lo]

theorem setBits_lt (x hi lo v n : Nat) (h : lo ≤ hi) (hn : hi < n) (hx : x < 2 ^ n) : setBits x hi lo v < 2 ^ n := by
  apply Nat.lt_pow_two_of_testBit
  intro k hk
  rw [setBits_testBit x hi lo v k h, if_neg (by omega)]
  exact Nat.testBit_lt_two_pow (Nat.lt_of_lt_of_le hx (Nat.pow_le_pow_right (by omega) hk))

theorem bits_setBits_ne (x hi lo v a b : Nat) (h : lo ≤ hi) (hd : a < lo ∨ hi < b) :
    bits (setBits x hi lo v) a b = bits x a b := by
  apply Nat.eq_of_testBit_eq
  intro k
  rw [bits_testBit, bits_testBit, setBits_testBit x hi lo v _ h]
  by_cases hk : k < a + 1 - b
  · rw [if_neg (by omega)]
  · simp [hk]

/-- A field written reads back, cut to its width. -/
theorem State.rd_wr (s : State) (f : Field) (v i j : Nat) (h : f.lo ≤ f.hi) (h2 : f.hi < 64) :
    (s.wr f v i j).rd f i j = v % 2 ^ (f.hi + 1 - f.lo) := by
  unfold State.rd State.wr
  rw [State.reg_setReg, BitVec.toNat_ofNat, Nat.mod_eq_of_lt (setBits_lt _ _ _ _ 64 h h2 (BitVec.isLt _)),
    bits_setBits _ _ _ _ h]

/-- Another field of the register, of other bits, keeps its value. -/
theorem State.rd_wr_field (s : State) (f g : Field) (v i j : Nat) (hr : g.reg = f.reg) (h : f.lo ≤ f.hi) (h2 : f.hi < 64)
    (hd : g.hi < f.lo ∨ f.hi < g.lo) : (s.wr f v i j).rd g i j = s.rd g i j := by
  unfold State.rd State.wr
  rw [hr, State.reg_setReg, BitVec.toNat_ofNat, Nat.mod_eq_of_lt (setBits_lt _ _ _ _ 64 h h2 (BitVec.isLt _)),
    bits_setBits_ne _ _ _ _ _ _ h hd]

/-- A field of a register at another offset keeps its value. -/
theorem State.rd_wr_ne (s : State) (f g : Field) (v : Nat) {i j k l : Nat} (h : g.reg.off k l ≠ f.reg.off i j) :
    (s.wr f v i j).rd g k l = s.rd g k l := by
  unfold State.rd State.wr
  rw [State.reg_setReg_ne s _ h]

theorem State.rword_setRword (s : State) (k : RecKind) (i w : Nat) (v : Word) : (s.setRword k i w v).rword k i w = v := by
  unfold State.rword State.setRword
  rw [Tbl.get_set, if_pos rfl]

theorem State.rword_setRword_ne (s : State) {k l : RecKind} {i w m n : Nat} (v : Word) (h : l.key m n ≠ k.key i w) :
    (s.setRword k i w v).rword l m n = s.rword l m n := by
  unfold State.rword State.setRword Tbl.set
  split
  · rw [Tbl.get_drop, if_neg h]
  · rw [Tbl.get_put, if_neg h]

/-- A record field written reads back, cut to its width. -/
theorem State.rrd_rwr (s : State) (f : RField) (i v : Nat) (h : f.lo ≤ f.hi) (h2 : f.hi < 64) :
    (s.rwr f i v).rrd f i = v % 2 ^ (f.hi + 1 - f.lo) := by
  unfold State.rrd State.rwr
  rw [State.rword_setRword, BitVec.toNat_ofNat, Nat.mod_eq_of_lt (setBits_lt _ _ _ _ 64 h h2 (BitVec.isLt _)),
    bits_setBits _ _ _ _ h]

theorem State.rrd_rwr_field (s : State) (f g : RField) (i v : Nat) (hk : g.kind = f.kind) (hw : g.word = f.word)
    (h : f.lo ≤ f.hi) (h2 : f.hi < 64) (hd : g.hi < f.lo ∨ f.hi < g.lo) : (s.rwr f i v).rrd g i = s.rrd g i := by
  unfold State.rrd State.rwr
  rw [hk, hw, State.rword_setRword, BitVec.toNat_ofNat,
    Nat.mod_eq_of_lt (setBits_lt _ _ _ _ 64 h h2 (BitVec.isLt _)), bits_setBits_ne _ _ _ _ _ _ h hd]

theorem State.rrd_rwr_ne (s : State) (f g : RField) (v : Nat) {i k : Nat} (h : g.kind.key k g.word ≠ f.kind.key i f.word) :
    (s.rwr f i v).rrd g k = s.rrd g k := by
  unfold State.rrd State.rwr
  rw [State.rword_setRword_ne s _ h]

/-- A counter advanced reads its new value, every other is as it was. -/
theorem State.ctr_count (s : State) (c d : CtrId) (i k n : Nat) :
    (s.count c i n).ctr d k = if d.addr k = c.addr i then (s.ctr c i).add n else s.ctr d k := by
  show Tbl.get {} (Tbl.set {} s.counters (c.addr i) ((s.ctr c i).add n)) (d.addr k) = _
  rw [Tbl.get_set]
  rfl

theorem State.thread_setThread (s : State) (t k : Nat) (x : Thread) :
    (s.setThread t x).thread k = if k = t then x else s.thread k := by
  show Tbl.get {} (Tbl.set {} s.tide.threads t x) k = _
  rw [Tbl.get_set]
  rfl

theorem State.g_def (s : State) (t r : Nat) : s.g t r = if r = 0 then 0 else Tbl.get 0 (s.thread t).g r := rfl

end Sys2Proof.Machine
end

