-- ==== Sys2Proof/Laws/Aside.lean ====
section
/-! SUPPORT. What a memory access and a report leave alone, as one relation between an earlier state and a later one:
only registers of the map, counters, the error log, the event queue, the caches of the cores, the free values drawn,
Culvert, the Levee and the record of outputs may differ. One lemma for each helper on the path of an access: cite `<name>_aside` instead of unfolding. -/

namespace Sys2Proof.Machine

open Sys2Proof

/-- The later state differs only in registers, counters, the log, waiting events, caches, free values drawn, Culvert, the
Levee and outputs. -/
def Aside (s t : State) : Prop :=
  t = { s with
    regs := t.regs
    counters := t.counters
    log := t.log
    tide := { s.tide with queue := t.tide.queue, ovf := t.tide.ovf, icache := t.tide.icache, dcache := t.tide.dcache }
    draws := t.draws
    culvert := t.culvert
    levee := t.levee
    out := t.out }

theorem Aside.refl (s : State) : Aside s s := rfl

theorem Aside.trans {s t u : State} (a : Aside s t) (b : Aside t u) : Aside s u := by
  unfold Aside at a
  rw [a] at b
  exact b

/-- The same of an outcome: of the next state, when there is one. -/
def AsideO (s0 : State) : Host.Outcome State Fault Refusal → Prop
  | .next t => Aside s0 t
  | .fault _ => True
  | .refused _ => True

/-- A state that agrees on the rest. -/
theorem aside_upd {s0 s t : State} (h : Aside s0 s) (e : Aside s t) : Aside s0 t := h.trans e

section
variable {s0 : State} {α β : Type}

theorem aside_ite {c : Prop} [Decidable c] {a b : State} (ha : c → Aside s0 a) (hb : ¬c → Aside s0 b) :
    Aside s0 (if c then a else b) := by split <;> simp_all

theorem asideO_ite {c : Prop} [Decidable c] {a b : Host.Outcome State Fault Refusal} (ha : c → AsideO s0 a)
    (hb : ¬c → AsideO s0 b) : AsideO s0 (if c then a else b) := by split <;> simp_all

theorem asideP_ite {c : Prop} [Decidable c] {a b : α × State} (ha : c → Aside s0 a.2) (hb : ¬c → Aside s0 b.2) :
    Aside s0 (if c then a else b).2 := by split <;> simp_all

theorem asideQ_ite {c : Prop} [Decidable c] {a b : State × α} (ha : c → Aside s0 a.1) (hb : ¬c → Aside s0 b.1) :
    Aside s0 (if c then a else b).1 := by split <;> simp_all

theorem aside_dite {c : Prop} [Decidable c] {a : c → State} {b : ¬c → State} (ha : ∀ h, Aside s0 (a h))
    (hb : ∀ h, Aside s0 (b h)) : Aside s0 (dite c a b) := by split <;> simp_all

theorem asideO_dite {c : Prop} [Decidable c] {a : c → Host.Outcome State Fault Refusal}
    {b : ¬c → Host.Outcome State Fault Refusal} (ha : ∀ h, AsideO s0 (a h)) (hb : ∀ h, AsideO s0 (b h)) :
    AsideO s0 (dite c a b) := by split <;> simp_all

theorem asideP_dite {c : Prop} [Decidable c] {a : c → α × State} {b : ¬c → α × State} (ha : ∀ h, Aside s0 (a h).2)
    (hb : ∀ h, Aside s0 (b h).2) : Aside s0 (dite c a b).2 := by split <;> simp_all

theorem asideP_mk {a : α} {t : State} (h : Aside s0 t) : Aside s0 (a, t).2 := h
theorem asideQ_mk {a : α} {t : State} (h : Aside s0 t) : Aside s0 (t, a).1 := h
theorem asideO_next {t : State} (h : Aside s0 t) : AsideO s0 (.next t) := h
theorem asideO_fault {f : Fault} : AsideO s0 (.fault f) := trivial
theorem asideO_refused {r : Refusal} : AsideO s0 (.refused r) := trivial

theorem aside_foldl {f : State → α → State} {l : List α} {a : State} (ha : Aside s0 a)
    (hf : ∀ a x, Aside s0 a → Aside s0 (f a x)) : Aside s0 (l.foldl f a) := by
  induction l generalizing a with
  | nil => exact ha
  | cons x l ih => exact ih (hf a x ha)

theorem asideP_foldl {f : β × State → α → β × State} {l : List α} {a : β × State} (ha : Aside s0 a.2)
    (hf : ∀ a x, Aside s0 a.2 → Aside s0 (f a x).2) : Aside s0 (l.foldl f a).2 := by
  induction l generalizing a with
  | nil => exact ha
  | cons x l ih => exact ih (hf a x ha)

theorem asideQ_foldl {f : State × β → α → State × β} {l : List α} {a : State × β} (ha : Aside s0 a.1)
    (hf : ∀ a x, Aside s0 a.1 → Aside s0 (f a x).1) : Aside s0 (l.foldl f a).1 := by
  induction l generalizing a with
  | nil => exact ha
  | cons x l ih => exact ih (hf a x ha)

theorem asideO_foldl {f : Host.Outcome State Fault Refusal → α → Host.Outcome State Fault Refusal} {l : List α}
    {a : Host.Outcome State Fault Refusal} (ha : AsideO s0 a) (hf : ∀ a x, AsideO s0 a → AsideO s0 (f a x)) :
    AsideO s0 (l.foldl f a) := by
  induction l generalizing a with
  | nil => exact ha
  | cons x l ih => exact ih (hf a x ha)

theorem aside_bind {p : α × State} {k : α → State → State} : Aside s0 p.2 →
    (∀ a t, Aside s0 t → Aside s0 (k a t)) → Aside s0 (match p with | (a, t) => k a t) := fun h hk => hk p.1 p.2 h
theorem asideO_bind {p : α × State} {k : α → State → Host.Outcome State Fault Refusal} : Aside s0 p.2 →
    (∀ a t, Aside s0 t → AsideO s0 (k a t)) → AsideO s0 (match p with | (a, t) => k a t) := fun h hk => hk p.1 p.2 h
theorem asideP_bind {p : α × State} {k : α → State → β × State} : Aside s0 p.2 →
    (∀ a t, Aside s0 t → Aside s0 (k a t).2) → Aside s0 (match p with | (a, t) => k a t).2 := fun h hk => hk p.1 p.2 h
theorem asideQ_bind {p : α × State} {k : α → State → State × β} : Aside s0 p.2 →
    (∀ a t, Aside s0 t → Aside s0 (k a t).1) → Aside s0 (match p with | (a, t) => k a t).1 := fun h hk => hk p.1 p.2 h
theorem aside_bindL {p : State × α} {k : State → α → State} : Aside s0 p.1 →
    (∀ t a, Aside s0 t → Aside s0 (k t a)) → Aside s0 (match p with | (t, a) => k t a) := fun h hk => hk p.1 p.2 h
theorem asideO_bindL {p : State × α} {k : State → α → Host.Outcome State Fault Refusal} : Aside s0 p.1 →
    (∀ t a, Aside s0 t → AsideO s0 (k t a)) → AsideO s0 (match p with | (t, a) => k t a) := fun h hk => hk p.1 p.2 h
theorem asideP_bindL {p : State × α} {k : State → α → β × State} : Aside s0 p.1 →
    (∀ t a, Aside s0 t → Aside s0 (k t a).2) → Aside s0 (match p with | (t, a) => k t a).2 := fun h hk => hk p.1 p.2 h

/-- Go on from a state of which only `Aside` matters. -/
theorem aside_gen {P : State → Prop} (v : State) (h : Aside s0 v) (k : ∀ x, Aside s0 x → P x) : P v := k v h

theorem aside_of_eq {p : α × State} {a : α} {t : State} (e : p = (a, t)) (h : Aside s0 p.2) : Aside s0 t := by
  rw [e] at h; exact h
theorem aside_of_eqL {p : State × α} {a : α} {t : State} (e : p = (t, a)) (h : Aside s0 p.1) : Aside s0 t := by
  rw [e] at h; exact h
theorem aside_of_next {o : Host.Outcome State Fault Refusal} {t : State} (e : o = .next t) (h : AsideO s0 o) :
    Aside s0 t := by rw [e] at h; exact h

end

theorem State.count_aside {s0 s : State} {c : CtrId} {i n : Nat} (h : Aside s0 s) : Aside s0 (s.count c i n) :=
  aside_upd h rfl

theorem State.setReg_aside {s0 s : State} {r : Reg} {v : Word} {i j : Nat} (h : Aside s0 s) :
    Aside s0 (s.setReg r v i j) :=
  aside_upd h rfl

theorem State.wr_aside {s0 : State} {p1 : Machine.State} {p2 : Field} {p3 : Nat} {p4 : optParam Nat 0} {p5 : optParam Nat 0} (hp1 : Aside s0 (p1)) : Aside s0 (@State.wr p1 p2 p3 p4 p5) := by
  unfold State.wr
  refine State.setReg_aside ?_
  · exact hp1

theorem State.mark_aside {s0 : State} {p1 : Machine.State} {p2 : Field} {p3 : optParam Nat 0} {p4 : optParam Nat 0} (hp1 : Aside s0 (p1)) : Aside s0 (@State.mark p1 p2 p3 p4) := by
  unfold State.mark
  refine State.wr_aside ?_
  · exact hp1

theorem State.satAdd_aside {s0 : State} {p1 : Machine.State} {p2 : Field} {p3 : Nat} {p4 : optParam Nat 0} {p5 : optParam Nat 0} (hp1 : Aside s0 (p1)) : Aside s0 (@State.satAdd p1 p2 p3 p4 p5) := by
  unfold State.satAdd
  refine State.wr_aside ?_
  · exact hp1

theorem State.emit_aside {s0 : State} {p1 : Machine.State} {p2 : Output} (hp1 : Aside s0 (p1)) : Aside s0 (@State.emit p1 p2) := by
  unfold State.emit
  exact aside_upd hp1 rfl

theorem State.sendVec_aside {s0 : State} {p1 : Machine.State} {p2 : Nat} (hp1 : Aside s0 (p1)) : Aside s0 (@State.sendVec p1 p2) := by
  unfold State.sendVec
  refine aside_ite (fun _ => ?_) (fun _ => ?_)
  · refine State.emit_aside ?_
    · exact hp1
  · refine State.wr_aside ?_
    · exact hp1

theorem State.raiseCause_aside {s0 : State} {p1 : Machine.State} {p2 : Nat} (hp1 : Aside s0 (p1)) : Aside s0 (@State.raiseCause p1 p2) := by
  unfold State.raiseCause
  extract_lets +onlyGivenNames -merge -underBinder x1
  try clear_value x1
  refine aside_ite (fun _ => ?_) (fun _ => ?_)
  · exact hp1
  · extract_lets +onlyGivenNames -merge -underBinder x2
    have h3 : Aside s0 (x2) := by
      unfold x2
      refine State.wr_aside ?_
      · exact hp1
    clear_value x2
    apply aside_gen x2 h3
    clear h3
    intro x2 h3
    refine aside_ite (fun _ => ?_) (fun _ => ?_)
    · exact h3
    · refine State.sendVec_aside ?_
      · exact h3

theorem State.queueEvent_aside {s0 s : State} {e : SoEntry} {cls idx : Nat} {g5 : Word} (h : Aside s0 s) :
    Aside s0 (s.queueEvent e cls idx g5) := by
  unfold State.queueEvent
  split
  · exact State.count_aside (aside_upd h rfl)
  · split
    · exact aside_upd h rfl
    · exact State.count_aside (State.wr_aside (aside_upd h rfl))

theorem State.raiseEvent_aside {s0 : State} {p1 : Machine.State} {p2 : Nat} {p3 : Nat} {p4 : optParam Word 0} (hp1 : Aside s0 (p1)) : Aside s0 (@State.raiseEvent p1 p2 p3 p4) := by
  unfold State.raiseEvent
  extract_lets +onlyGivenNames -merge -underBinder x1
  have h2 : Aside s0 (x1) := by
    unfold x1
    refine State.count_aside ?_
    · exact hp1
  clear_value x1
  apply aside_gen x1 h2
  clear h2
  intro x1 h2
  split
  · refine State.count_aside ?_
    · exact h2
  · refine aside_ite (fun _ => ?_) (fun _ => ?_)
    · refine State.queueEvent_aside ?_
      · exact h2
    · exact h2

theorem State.logWrite_aside {s0 : State} {p1 : Machine.State} {p2 : Nat} {p3 : Nat} {p4 : Word} {p5 : Nat} (hp1 : Aside s0 (p1)) : Aside s0 (@State.logWrite p1 p2 p3 p4 p5) := by
  unfold State.logWrite
  extract_lets +onlyGivenNames -merge -underBinder x1
  try clear_value x1
  extract_lets +onlyGivenNames -merge -underBinder x2
  try clear_value x2
  extract_lets +onlyGivenNames -merge -underBinder x3
  try clear_value x3
  extract_lets +onlyGivenNames -merge -underBinder x4
  try clear_value x4
  extract_lets +onlyGivenNames -merge -underBinder x5
  have h6 : Aside s0 (x5) := by
    unfold x5
    refine State.setReg_aside ?_
    · refine State.setReg_aside ?_
      · refine State.setReg_aside ?_
        · refine State.setReg_aside ?_
          · exact hp1
  clear_value x5
  apply aside_gen x5 h6
  clear h6
  intro x5 h6
  extract_lets +onlyGivenNames -merge -underBinder x7
  have h8 : Aside s0 (x7) := by
    unfold x7
    refine State.wr_aside ?_
    · refine State.wr_aside ?_
      · refine State.wr_aside ?_
        · exact h6
  clear_value x7
  apply aside_gen x7 h8
  clear h8
  intro x7 h8
  extract_lets +onlyGivenNames -merge -underBinder y10 x9
  try clear_value y10
  have h11 : Aside s0 (x9) := by
    unfold x9
    exact aside_upd h8 rfl
  clear_value x9
  apply aside_gen x9 h11
  clear h11
  intro x9 h11
  extract_lets +onlyGivenNames -merge -underBinder x12
  have h13 : Aside s0 (x12) := by
    unfold x12
    refine aside_ite (fun _ => ?_) (fun _ => ?_)
    · refine State.satAdd_aside ?_
      · refine State.mark_aside ?_
        · exact h11
    · refine aside_ite (fun _ => ?_) (fun _ => ?_)
      · refine State.satAdd_aside ?_
        · refine State.mark_aside ?_
          · exact h11
      · exact h11
  clear_value x12
  apply aside_gen x12 h13
  clear h13
  intro x12 h13
  refine State.raiseEvent_aside ?_
  · refine State.raiseCause_aside ?_
    · exact h13

theorem State.reportAt_aside {s0 : State} {p1 : Machine.State} {p2 : Nat} {p3 : Nat} {p4 : Word} {p5 : Nat} (hp1 : Aside s0 (p1)) : Aside s0 (@State.reportAt p1 p2 p3 p4 p5) := by
  unfold State.reportAt
  extract_lets +onlyGivenNames -merge -underBinder x1
  have h2 : Aside s0 (x1) := by
    unfold x1
    refine State.wr_aside ?_
    · exact hp1
  clear_value x1
  apply aside_gen x1 h2
  clear h2
  intro x1 h2
  split
  · extract_lets +onlyGivenNames -merge -underBinder x3
    try clear_value x3
    refine State.setReg_aside ?_
    · exact h2
  · refine aside_ite (fun _ => ?_) (fun _ => ?_)
    · extract_lets +onlyGivenNames -merge -underBinder x4
      have h5 : Aside s0 (x4) := by
        unfold x4
        refine State.mark_aside ?_
        · exact h2
      clear_value x4
      apply aside_gen x4 h5
      clear h5
      intro x4 h5
      exact aside_upd h5 rfl
    · refine aside_ite (fun _ => ?_) (fun _ => ?_)
      · refine State.logWrite_aside ?_
        · exact h2
      · extract_lets +onlyGivenNames -merge -underBinder x6
        try clear_value x6
        extract_lets +onlyGivenNames -merge -underBinder x7
        try clear_value x7
        refine aside_ite (fun _ => ?_) (fun _ => ?_)
        · extract_lets +onlyGivenNames -merge -underBinder x8
          have h9 : Aside s0 (x8) := by
            unfold x8
            refine State.mark_aside ?_
            · exact h2
          clear_value x8
          apply aside_gen x8 h9
          clear h9
          intro x8 h9
          exact aside_upd h9 rfl
        · refine State.logWrite_aside ?_
          · exact aside_upd h2 rfl

theorem State.reportWith_aside {s0 : State} {p1 : Machine.State} {p2 : Report} (hp1 : Aside s0 (p1)) : Aside s0 (@State.reportWith p1 p2) := by
  unfold State.reportWith
  split
  · exact aside_upd hp1 rfl
  · refine State.reportAt_aside ?_
    · exact hp1

theorem State.report_aside {s0 : State} {p1 : Machine.State} {p2 : Nat} {p3 : Nat} {p4 : optParam Nat 0} (hp1 : Aside s0 (p1)) : Aside s0 (@State.report p1 p2 p3 p4) := by
  unfold State.report
  refine aside_ite (fun _ => ?_) (fun _ => ?_)
  · refine State.reportWith_aside ?_
    · exact hp1
  · refine State.reportWith_aside ?_
    · exact hp1

theorem State.eccCorrected_aside {s0 : State} {p1 : Machine.State} {p2 : Nat} {p3 : Nat} {p4 : Nat} (hp1 : Aside s0 (p1)) : Aside s0 (@State.eccCorrected p1 p2 p3 p4) := by
  unfold State.eccCorrected
  extract_lets +onlyGivenNames -merge -underBinder x1
  try clear_value x1
  extract_lets +onlyGivenNames -merge -underBinder x2
  try clear_value x2
  extract_lets +onlyGivenNames -merge -underBinder x3
  try clear_value x3
  extract_lets +onlyGivenNames -merge -underBinder y5 x4
  try clear_value y5
  have h6 : Aside s0 (x4) := by
    unfold x4
    exact aside_upd hp1 rfl
  clear_value x4
  apply aside_gen x4 h6
  clear h6
  intro x4 h6
  refine aside_ite (fun _ => ?_) (fun _ => ?_)
  · refine State.report_aside ?_
    · exact h6
  · refine State.wr_aside ?_
    · exact h6

theorem State.draw_aside {s0 : State} {p1 : Machine.State} (hp1 : Aside s0 (p1)) : Aside s0 (@State.draw p1).2 := by
  unfold State.draw
  refine asideP_mk ?_
  exact aside_upd hp1 rfl

theorem State.unmark_aside {s0 : State} {p1 : Machine.State} {p2 : Field} {p3 : optParam Nat 0} {p4 : optParam Nat 0} (hp1 : Aside s0 (p1)) : Aside s0 (@State.unmark p1 p2 p3 p4) := by
  unfold State.unmark
  refine State.wr_aside ?_
  · exact hp1

theorem guardRsvd_aside {s0 : State} {p1 : Reg} {p2 : Word} {p3 : Host.Outcome Machine.State Fault Refusal} (hp3 : AsideO s0 (p3)) : AsideO s0 (@guardRsvd p1 p2 p3) := by
  unfold guardRsvd
  refine asideO_ite (fun _ => ?_) (fun _ => ?_)
  · exact hp3
  · exact asideO_fault

theorem State.plainWrite_aside {s0 : State} {p1 : Machine.State} {p2 : Reg} {p3 : Word} {p4 : optParam Nat 0} {p5 : optParam Nat 0} (hp1 : Aside s0 (p1)) : Aside s0 (@State.plainWrite p1 p2 p3 p4 p5) := by
  unfold State.plainWrite
  refine State.setReg_aside ?_
  · exact hp1

theorem State.flushVecs_aside {s0 : State} {p1 : Machine.State} (hp1 : Aside s0 (p1)) : Aside s0 (@State.flushVecs p1) := by
  unfold State.flushVecs
  refine aside_foldl ?_ (fun a x ha => ?_)
  · exact hp1
  · skip
    refine aside_ite (fun _ => ?_) (fun _ => ?_)
    · refine State.emit_aside ?_
      · refine State.wr_aside ?_
        · exact ha
    · exact ha

theorem State.setSticky_aside {s0 : State} {p1 : Machine.State} {p2 : Nat} (hp1 : Aside s0 (p1)) : Aside s0 (@State.setSticky p1 p2) := by
  unfold State.setSticky
  refine State.raiseCause_aside ?_
  · refine State.wr_aside ?_
    · exact hp1

theorem State.leveeEvent_aside {s0 : State} {p1 : Machine.State} {p2 : Nat} {p3 : Nat} (hp1 : Aside s0 (p1)) : Aside s0 (@State.leveeEvent p1 p2 p3) := by
  unfold State.leveeEvent
  extract_lets +onlyGivenNames -merge -underBinder x1
  have h2 : Aside s0 (x1) := by
    unfold x1
    refine State.satAdd_aside ?_
    · exact hp1
  clear_value x1
  apply aside_gen x1 h2
  clear h2
  intro x1 h2
  refine aside_ite (fun _ => ?_) (fun _ => ?_)
  · exact h2
  · extract_lets +onlyGivenNames -merge -underBinder x3
    try clear_value x3
    extract_lets +onlyGivenNames -merge -underBinder x4
    try clear_value x4
    refine aside_ite (fun _ => ?_) (fun _ => ?_)
    · extract_lets +onlyGivenNames -merge -underBinder y6 x5
      refine State.setSticky_aside ?_
      · exact aside_upd h2 rfl
    · exact aside_upd h2 rfl

theorem State.setCache_aside {s0 s : State} {data : Bool} {core : Nat} {l : List CacheLine} (h : Aside s0 s) :
    Aside s0 (s.setCache data core l) := by
  cases data <;> exact aside_upd h rfl

theorem State.dropLine_aside {s0 : State} {p1 : Machine.State} {p2 : Bool} {p3 : Nat} {p4 : Nat} (hp1 : Aside s0 (p1)) : Aside s0 (@State.dropLine p1 p2 p3 p4) := by
  unfold State.dropLine
  refine State.setCache_aside ?_
  · exact hp1

theorem State.localFind_aside {s0 : State} {p1 : Machine.State} {p2 : Bool} {p3 : Nat} {p4 : Nat} {p5 : EccFind} (hp1 : Aside s0 (p1)) : Aside s0 (@State.localFind p1 p2 p3 p4 p5) := by
  unfold State.localFind
  split
  · refine State.eccCorrected_aside ?_
    · exact hp1
  · refine State.report_aside ?_
    · refine State.dropLine_aside ?_
      · exact hp1
  · exact hp1

theorem State.fillLine_aside {s0 : State} {p1 : Machine.State} {p2 : Bool} {p3 : Nat} {p4 : CacheLine} (hp1 : Aside s0 (p1)) : Aside s0 (@State.fillLine p1 p2 p3 p4) := by
  unfold State.fillLine
  extract_lets +onlyGivenNames -merge -underBinder x1
  try clear_value x1
  refine aside_ite (fun _ => ?_) (fun _ => ?_)
  · refine State.setCache_aside ?_
    · exact hp1
  · split
    · rename_i h4e
      have h4 : Aside s0 _ := aside_of_eq h4e (by
        refine State.draw_aside ?_
        · exact hp1
        )
      refine State.setCache_aside ?_
      · exact h4

theorem State.dropLines_aside {s0 : State} {p1 : Machine.State} {p2 : Nat} {p3 : Nat} (hp1 : Aside s0 (p1)) : Aside s0 (@State.dropLines p1 p2 p3) := by
  unfold State.dropLines
  extract_lets +onlyGivenNames -merge -underBinder x1
  try clear_value x1
  exact aside_upd hp1 rfl

theorem State.culCharge_aside {s0 : State} {p1 : Machine.State} {p2 : Nat} {p3 : Bool} {p4 : Nat} (hp1 : Aside s0 (p1)) : Aside s0 (@State.culCharge p1 p2 p3 p4) := by
  unfold State.culCharge
  refine State.count_aside ?_
  · exact aside_upd hp1 rfl

theorem State.setRange_aside {s0 : State} {p1 : Machine.State} {p2 : Nat} {p3 : RangeState} (hp1 : Aside s0 (p1)) : Aside s0 (@State.setRange p1 p2 p3) := by
  unfold State.setRange
  exact aside_upd hp1 rfl

theorem State.culDamage_aside {s0 : State} {p1 : Machine.State} {p2 : Nat} {p3 : Nat} {p4 : Nat} (hp1 : Aside s0 (p1)) : Aside s0 (@State.culDamage p1 p2 p3 p4) := by
  unfold State.culDamage
  extract_lets +onlyGivenNames -merge -underBinder x1
  try clear_value x1
  refine aside_ite (fun _ => ?_) (fun _ => ?_)
  · exact hp1
  · extract_lets +onlyGivenNames -merge -underBinder x2
    have h3 : Aside s0 (x2) := by
      unfold x2
      refine State.count_aside ?_
      · refine State.mark_aside ?_
        · exact hp1
    clear_value x2
    apply aside_gen x2 h3
    clear h3
    intro x2 h3
    extract_lets +onlyGivenNames -merge -underBinder x4
    have h5 : Aside s0 (x4) := by
      unfold x4
      refine aside_ite (fun _ => ?_) (fun _ => ?_)
      · refine State.mark_aside ?_
        · exact h3
      · refine State.wr_aside ?_
        · refine State.setRange_aside ?_
          · exact h3
    clear_value x4
    apply aside_gen x4 h5
    clear h5
    intro x4 h5
    refine State.report_aside ?_
    · exact h5

theorem State.culPath_aside {s0 : State} {p1 : Machine.State} {p2 : Nat} {p3 : Nat} {p4 : NodeFind} (hp1 : Aside s0 (p1)) : Aside s0 (@State.culPath p1 p2 p3 p4).2 := by
  unfold State.culPath
  refine asideP_ite (fun _ => ?_) (fun _ => ?_)
  · refine asideP_mk ?_
    exact hp1
  · refine asideP_ite (fun _ => ?_) (fun _ => ?_)
    · refine asideP_mk ?_
      exact hp1
    · split
      · refine asideP_mk ?_
        exact hp1
      · refine asideP_mk ?_
        refine State.count_aside ?_
        · refine State.mark_aside ?_
          · exact hp1
      · extract_lets +onlyGivenNames -merge -underBinder x1
        try clear_value x1
        refine asideP_ite (fun _ => ?_) (fun _ => ?_)
        · refine asideP_mk ?_
          exact hp1
        · refine asideP_ite (fun _ => ?_) (fun _ => ?_)
          · refine asideP_mk ?_
            refine State.count_aside ?_
            · refine State.mark_aside ?_
              · exact hp1
          · refine asideP_mk ?_
            refine State.culDamage_aside ?_
            · exact hp1
      · extract_lets +onlyGivenNames -merge -underBinder x2
        try clear_value x2
        refine asideP_ite (fun _ => ?_) (fun _ => ?_)
        · refine asideP_mk ?_
          refine State.culDamage_aside ?_
          · exact hp1
        · refine asideP_mk ?_
          exact hp1

theorem State.setCulRaw_aside {s0 : State} {p1 : Machine.State} {p2 : Nat} {p3 : List (BitVec 80)} (hp1 : Aside s0 (p1)) : Aside s0 (@State.setCulRaw p1 p2 p3) := by
  unfold State.setCulRaw
  exact aside_upd hp1 rfl

theorem State.culFixWord_aside {s0 : State} {p1 : Machine.State} {p2 : Nat} {p3 : Nat} {p4 : Nat} {p5 : Nat} (hp1 : Aside s0 (p1)) : Aside s0 (@State.culFixWord p1 p2 p3 p4 p5).2 := by
  unfold State.culFixWord
  extract_lets +onlyGivenNames -merge -underBinder x1
  try clear_value x1
  extract_lets +onlyGivenNames -merge -underBinder x2
  try clear_value x2
  split
  · refine asideP_mk ?_
    refine State.report_aside ?_
    · refine State.count_aside ?_
      · refine State.mark_aside ?_
        · exact hp1
  · refine asideP_mk ?_
    exact hp1
  · extract_lets +onlyGivenNames -merge -underBinder x3
    have h4 : Aside s0 (x3) := by
      unfold x3
      refine State.mark_aside ?_
      · refine State.setCulRaw_aside ?_
        · exact hp1
    clear_value x3
    apply aside_gen x3 h4
    clear h4
    intro x3 h4
    extract_lets +onlyGivenNames -merge -underBinder x5
    try clear_value x5
    refine asideP_ite (fun _ => ?_) (fun _ => ?_)
    · refine asideP_mk ?_
      refine State.report_aside ?_
      · exact h4
    · refine asideP_mk ?_
      refine State.count_aside ?_
      · exact aside_upd h4 rfl

theorem State.culFix_aside {s0 s : State} {r sec req : Nat} {l : List Nat} (h : Aside s0 s) :
    Aside s0 (s.culFix r sec req l).2 := by
  induction l generalizing s with
  | nil => exact h
  | cons w t ih =>
    unfold State.culFix
    have h1 : Aside s0 (s.culFixWord r sec w req).2 := State.culFixWord_aside h
    split
    · rename_i e; exact aside_of_eq e h1
    · rename_i x s1 e
      have h3 : Aside s0 (s1.culFix r sec req t).2 := ih (aside_of_eq e h1)
      split <;> rename_i e2 <;> exact aside_of_eq e2 h3

theorem State.culOpen_aside {s0 : State} {p1 : Machine.State} {p2 : Nat} {p3 : Nat} {p4 : CulPort} {p5 : List Nat} {p6 : Bool} (hp1 : Aside s0 (p1)) : Aside s0 (@State.culOpen p1 p2 p3 p4 p5 p6).2 := by
  unfold State.culOpen
  extract_lets +onlyGivenNames -merge -underBinder x1
  try clear_value x1
  extract_lets +onlyGivenNames -merge -underBinder x2
  try clear_value x2
  refine asideP_ite (fun _ => ?_) (fun _ => ?_)
  · split
    · rename_i h4e
      have h4 : Aside s0 _ := aside_of_eq h4e (by
        refine State.culFix_aside ?_
        · exact hp1
        )
      refine asideP_mk ?_
      exact h4
    · rename_i h7e
      have h7 : Aside s0 _ := aside_of_eq h7e (by
        refine State.culFix_aside ?_
        · exact hp1
        )
      refine asideP_mk ?_
      exact h7
  · split
    · rename_i h9e
      have h9 : Aside s0 _ := aside_of_eq h9e (by
        refine State.culFix_aside ?_
        · exact hp1
        )
      refine asideP_mk ?_
      exact h9
    · rename_i h12e
      have h12 : Aside s0 _ := aside_of_eq h12e (by
        refine State.culFix_aside ?_
        · exact hp1
        )
      extract_lets +onlyGivenNames -merge -underBinder x13
      try clear_value x13
      refine asideP_ite (fun _ => ?_) (fun _ => ?_)
      · refine asideP_mk ?_
        exact h12
      · extract_lets +onlyGivenNames -merge -underBinder x14
        have h15 : Aside s0 (x14) := by
          unfold x14
          refine State.count_aside ?_
          · refine State.mark_aside ?_
            · exact h12
        clear_value x14
        apply aside_gen x14 h15
        clear h15
        intro x14 h15
        refine asideP_mk ?_
        refine aside_ite (fun _ => ?_) (fun _ => ?_)
        · refine State.report_aside ?_
          · exact h15
        · exact h15

theorem State.culRead_aside {s0 : State} {p1 : Machine.State} {p2 : CulPort} {p3 : Nat} {p4 : Nat} {p5 : Nat} {p6 : optParam NodeFind NodeFind.good} (hp1 : Aside s0 (p1)) : Aside s0 (@State.culRead p1 p2 p3 p4 p5 p6).2 := by
  unfold State.culRead
  split
  · refine asideP_mk ?_
    exact hp1
  · refine asideP_ite (fun _ => ?_) (fun _ => ?_)
    · refine asideP_mk ?_
      exact hp1
    · extract_lets +onlyGivenNames -merge -underBinder x1
      try clear_value x1
      extract_lets +onlyGivenNames -merge -underBinder x2
      try clear_value x2
      extract_lets +onlyGivenNames -merge -underBinder x3
      have h4 : Aside s0 (x3) := by
        unfold x3
        refine State.culCharge_aside ?_
        · exact hp1
      clear_value x3
      apply aside_gen x3 h4
      clear h4
      intro x3 h4
      split
      · rename_i h6e
        have h6 : Aside s0 _ := aside_of_eq h6e (by
          refine State.culPath_aside ?_
          · exact h4
          )
        refine asideP_mk ?_
        exact h6
      · rename_i h8e
        have h8 : Aside s0 _ := aside_of_eq h8e (by
          refine State.culPath_aside ?_
          · exact h4
          )
        refine asideP_ite (fun _ => ?_) (fun _ => ?_)
        · refine asideP_mk ?_
          exact h8
        · split
          · rename_i h10e
            have h10 : Aside s0 _ := aside_of_eq h10e (by
              refine State.culOpen_aside ?_
              · exact h8
              )
            refine asideP_mk ?_
            exact h10
          · rename_i h13e
            have h13 : Aside s0 _ := aside_of_eq h13e (by
              refine State.culOpen_aside ?_
              · exact h8
              )
            refine asideP_mk ?_
            exact h13

theorem State.culAdvance_aside {s0 s t : State} {r sec : Nat} (h : Aside s0 s) (e : s.culAdvance r sec = some t) :
    Aside s0 t := by
  unfold State.culAdvance at e
  repeat' (first | split at e | extract_lets at e)
  all_goals first
    | (cases e; done)
    | (cases e; exact State.setRange_aside h)

theorem State.culStore_aside {s0 s : State} {r sec : Nat} {p : CulPort} {d : Octets} (h : Aside s0 s) :
    Aside s0 (s.culStore r sec p d).2 := by
  unfold State.culStore
  refine asideP_ite (fun _ => ?_) (fun _ => State.setCulRaw_aside h)
  split
  · exact State.count_aside h
  · rename_i e; exact State.setCulRaw_aside (State.culAdvance_aside h e)

theorem State.culPoison_aside {s0 s : State} {r sec req : Nat} (h : Aside s0 s) : Aside s0 (s.culPoison r sec req) := by
  unfold State.culPoison
  extract_lets ws s1 s2
  clear_value ws
  have h1 : Aside s0 s1 := State.count_aside (State.mark_aside (State.setCulRaw_aside h))
  clear_value s1
  exact State.report_aside (aside_ite (fun _ => State.wr_aside (aside_upd h1 rfl)) (fun _ => State.mark_aside h1))

theorem State.culWrite_aside {s0 : State} {p1 : Machine.State} {p2 : CulPort} {p3 : Nat} {p4 : Nat} {p5 : Octets} {p6 : optParam NodeFind NodeFind.good} (hp1 : Aside s0 (p1)) : Aside s0 (@State.culWrite p1 p2 p3 p4 p5 p6).2 := by
  unfold State.culWrite
  split
  · refine asideP_mk ?_
    exact hp1
  · refine asideP_ite (fun _ => ?_) (fun _ => ?_)
    · refine asideP_mk ?_
      exact hp1
    · extract_lets +onlyGivenNames -merge -underBinder x1
      try clear_value x1
      extract_lets +onlyGivenNames -merge -underBinder x2
      try clear_value x2
      extract_lets +onlyGivenNames -merge -underBinder x3
      try clear_value x3
      extract_lets +onlyGivenNames -merge -underBinder x4
      have h5 : Aside s0 (x4) := by
        unfold x4
        refine State.culCharge_aside ?_
        · exact hp1
      clear_value x4
      apply aside_gen x4 h5
      clear h5
      intro x4 h5
      split
      · rename_i h7e
        have h7 : Aside s0 _ := aside_of_eq h7e (by
          refine State.culPath_aside ?_
          · exact h5
          )
        refine asideP_mk ?_
        exact h7
      · rename_i h9e
        have h9 : Aside s0 _ := aside_of_eq h9e (by
          refine State.culPath_aside ?_
          · exact h5
          )
        refine asideP_ite (fun _ => ?_) (fun _ => ?_)
        · refine asideP_mk ?_
          exact h9
        · refine asideP_ite (fun _ => ?_) (fun _ => ?_)
          · refine State.culStore_aside ?_
            · exact h9
          · refine asideP_ite (fun _ => ?_) (fun _ => ?_)
            · extract_lets +onlyGivenNames -merge -underBinder x10
              try clear_value x10
              split
              · rename_i h12e
                have h12 : Aside s0 _ := aside_of_eq h12e (by
                  refine State.culOpen_aside ?_
                  · exact h9
                  )
                refine asideP_mk ?_
                exact h12
              · rename_i h15e
                have h15 : Aside s0 _ := aside_of_eq h15e (by
                  refine State.culOpen_aside ?_
                  · exact h9
                  )
                extract_lets +onlyGivenNames -merge -underBinder x16
                try clear_value x16
                extract_lets +onlyGivenNames -merge -underBinder x17
                try clear_value x17
                extract_lets +onlyGivenNames -merge -underBinder x18
                try clear_value x18
                refine asideP_mk ?_
                refine State.setCulRaw_aside ?_
                · exact h15
            · extract_lets +onlyGivenNames -merge -underBinder x19
              have h20 : Aside s0 (x19) := by
                unfold x19
                refine State.count_aside ?_
                · exact h9
              clear_value x19
              apply aside_gen x19 h20
              clear h20
              intro x19 h20
              split
              · rename_i h22e
                have h22 : Aside s0 _ := aside_of_eq h22e (by
                  refine State.culOpen_aside ?_
                  · exact h20
                  )
                refine asideP_mk ?_
                refine State.culPoison_aside ?_
                · exact h22
              · rename_i h25e
                have h25 : Aside s0 _ := aside_of_eq h25e (by
                  refine State.culOpen_aside ?_
                  · exact h20
                  )
                refine State.culStore_aside ?_
                · exact h25

theorem State.culFlip_aside {s0 s : State} {r sec : Nat} {l : List (Nat × BitVec 80)} (h : Aside s0 s) :
    Aside s0 (s.culFlip r sec l) := by
  induction l generalizing s with
  | nil => exact h
  | cons p t ih => exact ih (State.setCulRaw_aside h)

theorem State.refuse_aside {s0 : State} {p1 : Machine.State} {p2 : Requester} {p3 : AccKind} {p4 : Nat} {p5 : Bool} {p6 : Bool} {p7 : Nat} (hp1 : Aside s0 (p1)) : Aside s0 (@State.refuse p1 p2 p3 p4 p5 p6 p7) := by
  unfold State.refuse
  extract_lets +onlyGivenNames -merge -underBinder y2 x1
  try clear_value y2
  have h3 : Aside s0 (x1) := by
    unfold x1
    refine aside_ite (fun _ => ?_) (fun _ => ?_)
    · exact hp1
    · refine State.mark_aside ?_
      · refine State.setReg_aside ?_
        · refine State.setReg_aside ?_
          · exact hp1
  clear_value x1
  apply aside_gen x1 h3
  clear h3
  intro x1 h3
  refine State.count_aside ?_
  · exact h3

theorem State.checked_aside {s0 : State} {p1 : Machine.State} {p2 : Requester} {p3 : AccKind} {p4 : Nat} {p5 : Check} (hp1 : Aside s0 (p1)) : Aside s0 (@State.checked p1 p2 p3 p4 p5) := by
  unfold State.checked
  split
  · refine State.count_aside ?_
    · exact hp1
  · exact hp1
  · refine State.refuse_aside ?_
    · exact hp1
  · refine State.leveeEvent_aside ?_
    · refine State.count_aside ?_
      · refine State.mark_aside ?_
        · exact hp1
  · split
    · refine aside_ite (fun _ => ?_) (fun _ => ?_)
      · refine State.wr_aside ?_
        · exact hp1
      · exact hp1
    · refine aside_ite (fun _ => ?_) (fun _ => ?_)
      · refine State.wr_aside ?_
        · exact hp1
      · split
        · refine aside_ite (fun _ => ?_) (fun _ => ?_)
          · exact hp1
          · refine State.count_aside ?_
            · exact hp1
        · exact hp1
    · exact hp1

theorem State.check_aside {s0 : State} {p1 : Machine.State} {p2 : Requester} {p3 : AccKind} {p4 : Nat} (hp1 : Aside s0 (p1)) : Aside s0 (@State.check p1 p2 p3 p4).2 := by
  unfold State.check
  extract_lets +onlyGivenNames -merge -underBinder x1
  try clear_value x1
  refine asideP_mk ?_
  refine State.checked_aside ?_
  · exact hp1

theorem State.eccRead_aside {s0 : State} {p1 : Machine.State} {p2 : Nat} {p3 : EccFind} (hp1 : Aside s0 (p1)) : Aside s0 (@State.eccRead p1 p2 p3).2 := by
  unfold State.eccRead
  split
  · refine asideP_mk ?_
    refine State.eccCorrected_aside ?_
    · exact hp1
  · refine asideP_mk ?_
    refine State.report_aside ?_
    · exact hp1
  · refine asideP_mk ?_
    exact hp1

theorem State.targetRead_aside {s0 : State} {p1 : Machine.State} {p2 : Requester} {p3 : Nat} {p4 : Nat} (hp1 : Aside s0 (p1)) : Aside s0 (@State.targetRead p1 p2 p3 p4).2 := by
  unfold State.targetRead
  split
  · refine asideP_mk ?_
    exact hp1
  · split
    · rename_i h3e
      have h3 : Aside s0 _ := aside_of_eq h3e (by
        refine State.culRead_aside ?_
        · exact hp1
        )
      refine asideP_mk ?_
      exact h3
    · rename_i h5e
      have h5 : Aside s0 _ := aside_of_eq h5e (by
        refine State.culRead_aside ?_
        · exact hp1
        )
      refine asideP_mk ?_
      exact h5
  · refine asideP_mk ?_
    exact hp1

theorem State.cachedRead_aside {s0 s : State} {q : Requester} {k : AccKind} {data : Bool} {core a n : Nat} {f : EccFind}
    (h : Aside s0 s) : Aside s0 (s.cachedRead q k data core a n f).2 := by
  unfold State.cachedRead
  have h1 : Aside s0 (s.check q k a).2 := State.check_aside h
  split
  · rename_i s1 e
    extract_lets s2
    have h2 : Aside s0 s2 := State.localFind_aside (aside_of_eq e h1)
    clear_value s2
    split
    · exact h2
    · have h3 : Aside s0 (s2.eccRead a f).2 := State.eccRead_aside h2
      split
      · rename_i e; exact aside_of_eq e h3
      · rename_i s3 e
        have h4 : Aside s0 (s3.targetRead q (a / 64 * 64) 64).2 := State.targetRead_aside (aside_of_eq e h3)
        split
        · rename_i e; exact State.fillLine_aside (aside_of_eq e h4)
        · exact h4
  · rename_i e; exact aside_of_eq e h1
  · rename_i e; exact aside_of_eq e h1
  · rename_i e; exact aside_of_eq e h1

theorem State.memRead_aside {s0 : State} {p1 : Machine.State} {p2 : Requester} {p3 : AccKind} {p4 : Nat} {p5 : Nat} (hp1 : Aside s0 (p1)) : Aside s0 (@State.memRead p1 p2 p3 p4 p5).2 := by
  unfold State.memRead
  split
  · rename_i h3e
    have h3 : Aside s0 _ := aside_of_eq h3e (by
      refine State.check_aside ?_
      · exact hp1
      )
    refine State.targetRead_aside ?_
    · exact h3
  · rename_i h8e
    have h8 : Aside s0 _ := aside_of_eq h8e (by
      refine State.check_aside ?_
      · exact hp1
      )
    refine asideP_mk ?_
    exact h8
  · rename_i h10e
    have h10 : Aside s0 _ := aside_of_eq h10e (by
      refine State.check_aside ?_
      · exact hp1
      )
    refine asideP_mk ?_
    exact h10
  · rename_i h12e
    have h12 : Aside s0 _ := aside_of_eq h12e (by
      refine State.check_aside ?_
      · exact hp1
      )
    refine asideP_mk ?_
    exact h12

theorem State.areaReadPieces_aside {s0 s : State} {q : Requester} {l : List (Nat × Nat)} (h : Aside s0 s) :
    Aside s0 (s.areaReadPieces q l).2 := by
  induction l generalizing s with
  | nil => exact h
  | cons p t ih =>
    obtain ⟨a, n⟩ := p
    unfold State.areaReadPieces
    have h1 : Aside s0 (s.memRead q .read a n).2 := State.memRead_aside h
    split
    · rename_i d s1 e
      have h2 := aside_of_eq e h1
      have h3 : Aside s0 (s1.areaReadPieces q t).2 := ih h2
      split
      · rename_i e2; exact aside_of_eq e2 h3
      · exact h3
    · exact h1

theorem State.areaRead_aside {s0 : State} {p1 : Machine.State} {p2 : Requester} {p3 : Nat} {p4 : Nat} (hp1 : Aside s0 (p1)) : Aside s0 (@State.areaRead p1 p2 p3 p4).2 := by
  unfold State.areaRead
  refine State.areaReadPieces_aside ?_
  · exact hp1

theorem State.fetch_aside {s0 : State} {p1 : Machine.State} {p2 : Nat} {p3 : optParam EccFind EccFind.good} (hp1 : Aside s0 (p1)) : Aside s0 (@State.fetch p1 p2 p3).2 := by
  unfold State.fetch
  split
  · rename_i h3e
    have h3 : Aside s0 _ := aside_of_eq h3e (by
      refine State.cachedRead_aside ?_
      · exact hp1
      )
    refine asideP_mk ?_
    exact h3
  · rename_i h5e
    have h5 : Aside s0 _ := aside_of_eq h5e (by
      refine State.cachedRead_aside ?_
      · exact hp1
      )
    refine asideP_mk ?_
    exact h5
  · rename_i h8e
    have h8 : Aside s0 _ := aside_of_eq h8e (by
      refine State.cachedRead_aside ?_
      · exact hp1
      )
    refine asideP_mk ?_
    exact h8

theorem State.poolWrite_pools (s : State) (a : Nat) (d : Octets) :
    s.poolWrite a d = { s with pools := (s.poolWrite a d).pools } := by
  induction d generalizing s a with
  | nil => rfl
  | cons b d ih => unfold State.poolWrite; rw [ih]

/-- Pools set aside: a state that differs from an earlier one as `Aside` says, and in the Pools. -/
theorem aside_pools {s0 s : State} (m : List Host.Cell) (h : Aside s0 s) :
    Aside { s0 with pools := m } { s with pools := m } := by
  unfold Aside at *; rw [h]

/-- A memory write differs from the state before it in the Pools and as `Aside` says. -/
theorem State.memWrite_aside (s : State) (q : Requester) (a : Nat) (d : Octets) :
    Aside { s with pools := (s.memWrite q a d).2.pools } (s.memWrite q a d).2 := by
  have key : ∀ u : State, Aside s u → Aside { s with pools := u.pools } u := fun u h => aside_pools u.pools h
  have hc := State.check_aside (p2 := q) (p3 := .write) (p4 := a) (Aside.refl s)
  unfold State.memWrite
  split
  · rename_i e
    have h1 := aside_of_eq e hc
    split
    · rw [State.poolWrite_pools]
      exact State.dropLines_aside (aside_pools _ h1)
    · split <;> rename_i e2
      · exact key _ (State.dropLines_aside (aside_of_eq e2 (State.culWrite_aside h1)))
      · exact key _ (aside_of_eq e2 (State.culWrite_aside h1))
    · exact key _ h1
  all_goals (rename_i e; exact key _ (aside_of_eq e hc))

/-! ### What an access leaves as it was -/

theorem State.memWrite_threads (s : State) (q : Requester) (a : Nat) (d : Octets) :
    (s.memWrite q a d).2.tide.threads = s.tide.threads ∧ (s.memWrite q a d).2.tide.ops = s.tide.ops ∧
    (s.memWrite q a d).2.host = s.host := by
  have h := State.memWrite_aside s q a d
  rw [h]; exact ⟨rfl, rfl, rfl⟩

theorem Aside.thread {s t : State} (h : Aside s t) (k : Nat) : t.thread k = s.thread k := by rw [h]; rfl
theorem Aside.g {s t : State} (h : Aside s t) (k r : Nat) : t.g k r = s.g k r := by
  unfold State.g; rw [h.thread]
theorem Aside.tag {s t : State} (h : Aside s t) (k n : Nat) : t.tag k n = s.tag k n := by
  unfold State.tag; rw [h.thread]
theorem Aside.ops {s t : State} (h : Aside s t) : t.tide.ops = s.tide.ops := by rw [h]
theorem Aside.pools {s t : State} (h : Aside s t) : t.pools = s.pools := by rw [h]
theorem Aside.recs {s t : State} (h : Aside s t) : t.recs = s.recs := by rw [h]
theorem Aside.tick {s t : State} (h : Aside s t) : t.tick = s.tick := by rw [h]

theorem State.fetch_thread (s : State) (t k : Nat) : (s.fetch t).2.thread k = s.thread k :=
  (State.fetch_aside (Aside.refl s)).thread k
theorem State.fetch_g (s : State) (t k r : Nat) : (s.fetch t).2.g k r = s.g k r :=
  (State.fetch_aside (Aside.refl s)).g k r

/-- The later state differs only in registers, counters, the turns of the cores and the profiler's own state. -/
def Charged (s t : State) : Prop :=
  t = { s with regs := t.regs, counters := t.counters, sound := t.sound, tide := { s.tide with turn := t.tide.turn } }

theorem Charged.trans {s t u : State} (a : Charged s t) (b : Charged t u) : Charged s u := by
  unfold Charged at a
  rw [a] at b
  exact b

theorem State.count_charged (s : State) (c : CtrId) (n m : Nat) : Charged s (s.count c n m) := rfl
theorem State.setReg_charged (s : State) (r : Reg) (v : Word) (n m : Nat) : Charged s (s.setReg r v n m) := rfl

/-- A slot sampled, or not, leaves the rest alone. -/
theorem State.sampleSlot_charged (s : State) (c t cat : Nat) : Charged s (s.sampleSlot c t cat) := by
  unfold State.sampleSlot
  split
  · rfl
  · extract_lets n src s1 x
    have h1 : Charged s s1 := rfl
    split
    · rfl
    · split
      · unfold State.sampleDropped State.mark State.wr
        exact (h1.trans (State.setReg_charged _ _ _ _ _)).trans (State.count_charged _ _ _ _)
      · exact h1.trans rfl

/-- An instruction issued leaves the rest alone. -/
theorem State.issued_charged (s : State) (t : Nat) : Charged s (s.issued t) := by
  have h : Charged s (s.stallCycle (coreOf t)) := by
    unfold State.stallCycle
    split
    · exact State.count_charged _ _ _ _
    · rfl
  unfold State.issued State.chargeSlot
  refine Charged.trans ?_ (State.sampleSlot_charged _ _ _ _)
  refine Charged.trans ?_ (State.count_charged _ _ _ _)
  refine Charged.trans ?_ (State.count_charged _ _ _ _)
  exact (h.trans (State.count_charged _ _ _ _)).trans rfl

theorem State.issued_threads (s : State) (t : Nat) : (s.issued t).tide.threads = s.tide.threads := by
  rw [State.issued_charged s t]
theorem State.issued_thread (s : State) (t k : Nat) : (s.issued t).thread k = s.thread k := by
  unfold State.thread; rw [State.issued_threads]
theorem State.issued_g (s : State) (t k r : Nat) : (s.issued t).g k r = s.g k r := by
  unfold State.g; rw [State.issued_thread]

end Sys2Proof.Machine
end

