-- ==== Sys2Proof/Laws/Keeps.lean ====
section
/-! SUPPORT. What every helper of the machine keeps, as one relation between an earlier state and a later one, with a
lemma for each way in which the meanings build states. The files Laws/Keeps<Module>.lean hold one lemma per helper and
per meaning: cite `<name>_keeps` instead of unfolding. -/

namespace Sys2Proof.Machine

open Sys2Proof

/-- What no command breaks: the queue of commands is left alone, fuses stay blown, the Pools and the
tables stay canonical, the queues of fixed size stay within their sizes, and no report is held beyond its cycle. -/
structure Keeps (s0 t : State) : Prop where
  pending : t.pending = s0.pending
  mFuses : s0.chip.mFuses ≤ t.chip.mFuses
  cFuses : s0.chip.cFuses ≤ t.chip.cFuses
  tFuses : s0.chip.tFuses ≤ t.chip.tFuses
  pools : PoolsCanonical s0 → PoolsCanonical t
  tables : TablesCanonical s0 → TablesCanonical t
  bounded : QueuesBounded s0 → QueuesBounded t
  held : s0.log.held = none → t.log.held = none

/-- The same of an outcome: of the next state, when there is one. -/
def KeepsO (s0 : State) : Host.Outcome State Fault Refusal → Prop
  | .next t => Keeps s0 t
  | .fault _ => True
  | .refused _ => True

theorem Keeps.refl (s : State) : Keeps s s :=
  ⟨rfl, Nat.le_refl _, Nat.le_refl _, Nat.le_refl _, id, id, id, id⟩

theorem Keeps.trans {s t u : State} (a : Keeps s t) (b : Keeps t u) : Keeps s u :=
  ⟨b.pending.trans a.pending, Nat.le_trans a.mFuses b.mFuses, Nat.le_trans a.cFuses b.cFuses, Nat.le_trans a.tFuses b.tFuses,
   fun h => b.pools (a.pools h), fun h => b.tables (a.tables h), fun h => b.bounded (a.bounded h),
   fun h => b.held (a.held h)⟩

/-- A state that agrees on the parts `Keeps` speaks of. -/
theorem keeps_upd {s0 s t : State} (h : Keeps s0 s) (hp : t.pending = s.pending) (hm : t.chip.mFuses = s.chip.mFuses)
    (hc : t.chip.cFuses = s.chip.cFuses) (ht : t.chip.tFuses = s.chip.tFuses) (ho : t.pools = s.pools)
    (hq : t.tide.queue = s.tide.queue) (hb : t.levee.buffer = s.levee.buffer) (hl : t.delta.learn = s.delta.learn)
    (hs : t.culvert.poison = s.culvert.poison) (hr : t.regs = s.regs) (he : t.recs = s.recs)
    (hn : t.counters = s.counters) (hd : t.log.held = s.log.held ∨ t.log.held = none) : Keeps s0 t :=
  ⟨hp.trans h.pending, hm ▸ h.mFuses, hc ▸ h.cFuses, ht ▸ h.tFuses, fun x => by
    have := h.pools x; simp only [PoolsCanonical] at *; rw [ho]; exact this,
   fun x => by unfold TablesCanonical; rw [hr, he, hn]; exact h.tables x,
   fun x => ⟨hq ▸ (h.bounded x).events, hb ▸ (h.bounded x).tamper, hl ▸ (h.bounded x).learn, hs ▸ (h.bounded x).poison⟩,
   fun x => hd.elim (fun e => e.trans (h.held x)) id⟩

section
variable {s0 : State} {α β : Type}

theorem keeps_ite {c : Prop} [Decidable c] {a b : State} (ha : c → Keeps s0 a) (hb : ¬c → Keeps s0 b) :
    Keeps s0 (if c then a else b) := by split <;> simp_all

theorem keepsO_ite {c : Prop} [Decidable c] {a b : Host.Outcome State Fault Refusal} (ha : c → KeepsO s0 a)
    (hb : ¬c → KeepsO s0 b) : KeepsO s0 (if c then a else b) := by split <;> simp_all

theorem keepsP_ite {c : Prop} [Decidable c] {a b : α × State} (ha : c → Keeps s0 a.2) (hb : ¬c → Keeps s0 b.2) :
    Keeps s0 (if c then a else b).2 := by split <;> simp_all

theorem keepsQ_ite {c : Prop} [Decidable c] {a b : State × α} (ha : c → Keeps s0 a.1) (hb : ¬c → Keeps s0 b.1) :
    Keeps s0 (if c then a else b).1 := by split <;> simp_all

theorem keeps_dite {c : Prop} [Decidable c] {a : c → State} {b : ¬c → State} (ha : ∀ h, Keeps s0 (a h))
    (hb : ∀ h, Keeps s0 (b h)) : Keeps s0 (dite c a b) := by split <;> simp_all

theorem keepsO_dite {c : Prop} [Decidable c] {a : c → Host.Outcome State Fault Refusal}
    {b : ¬c → Host.Outcome State Fault Refusal} (ha : ∀ h, KeepsO s0 (a h)) (hb : ∀ h, KeepsO s0 (b h)) :
    KeepsO s0 (dite c a b) := by split <;> simp_all

theorem keepsP_dite {c : Prop} [Decidable c] {a : c → α × State} {b : ¬c → α × State} (ha : ∀ h, Keeps s0 (a h).2)
    (hb : ∀ h, Keeps s0 (b h).2) : Keeps s0 (dite c a b).2 := by split <;> simp_all

theorem keepsP_mk {a : α} {t : State} (h : Keeps s0 t) : Keeps s0 (a, t).2 := h
theorem keepsQ_mk {a : α} {t : State} (h : Keeps s0 t) : Keeps s0 (t, a).1 := h
theorem keepsO_next {t : State} (h : Keeps s0 t) : KeepsO s0 (.next t) := h
theorem keepsO_fault {f : Fault} : KeepsO s0 (.fault f) := trivial
theorem keepsO_refused {r : Refusal} : KeepsO s0 (.refused r) := trivial

theorem keeps_foldl {f : State → α → State} {l : List α} {a : State} (ha : Keeps s0 a)
    (hf : ∀ a x, Keeps s0 a → Keeps s0 (f a x)) : Keeps s0 (l.foldl f a) := by
  induction l generalizing a with
  | nil => exact ha
  | cons x l ih => exact ih (hf a x ha)

theorem keepsP_foldl {f : β × State → α → β × State} {l : List α} {a : β × State} (ha : Keeps s0 a.2)
    (hf : ∀ a x, Keeps s0 a.2 → Keeps s0 (f a x).2) : Keeps s0 (l.foldl f a).2 := by
  induction l generalizing a with
  | nil => exact ha
  | cons x l ih => exact ih (hf a x ha)

theorem keepsQ_foldl {f : State × β → α → State × β} {l : List α} {a : State × β} (ha : Keeps s0 a.1)
    (hf : ∀ a x, Keeps s0 a.1 → Keeps s0 (f a x).1) : Keeps s0 (l.foldl f a).1 := by
  induction l generalizing a with
  | nil => exact ha
  | cons x l ih => exact ih (hf a x ha)

theorem keepsO_foldl {f : Host.Outcome State Fault Refusal → α → Host.Outcome State Fault Refusal} {l : List α}
    {a : Host.Outcome State Fault Refusal} (ha : KeepsO s0 a) (hf : ∀ a x, KeepsO s0 a → KeepsO s0 (f a x)) :
    KeepsO s0 (l.foldl f a) := by
  induction l generalizing a with
  | nil => exact ha
  | cons x l ih => exact ih (hf a x ha)

theorem keeps_bind {p : α × State} {k : α → State → State} : Keeps s0 p.2 →
    (∀ a t, Keeps s0 t → Keeps s0 (k a t)) → Keeps s0 (match p with | (a, t) => k a t) := fun h hk => hk p.1 p.2 h
theorem keepsO_bind {p : α × State} {k : α → State → Host.Outcome State Fault Refusal} : Keeps s0 p.2 →
    (∀ a t, Keeps s0 t → KeepsO s0 (k a t)) → KeepsO s0 (match p with | (a, t) => k a t) := fun h hk => hk p.1 p.2 h
theorem keepsP_bind {p : α × State} {k : α → State → β × State} : Keeps s0 p.2 →
    (∀ a t, Keeps s0 t → Keeps s0 (k a t).2) → Keeps s0 (match p with | (a, t) => k a t).2 := fun h hk => hk p.1 p.2 h
theorem keepsQ_bind {p : α × State} {k : α → State → State × β} : Keeps s0 p.2 →
    (∀ a t, Keeps s0 t → Keeps s0 (k a t).1) → Keeps s0 (match p with | (a, t) => k a t).1 := fun h hk => hk p.1 p.2 h
theorem keeps_bindL {p : State × α} {k : State → α → State} : Keeps s0 p.1 →
    (∀ t a, Keeps s0 t → Keeps s0 (k t a)) → Keeps s0 (match p with | (t, a) => k t a) := fun h hk => hk p.1 p.2 h
theorem keepsO_bindL {p : State × α} {k : State → α → Host.Outcome State Fault Refusal} : Keeps s0 p.1 →
    (∀ t a, Keeps s0 t → KeepsO s0 (k t a)) → KeepsO s0 (match p with | (t, a) => k t a) := fun h hk => hk p.1 p.2 h
theorem keepsP_bindL {p : State × α} {k : State → α → β × State} : Keeps s0 p.1 →
    (∀ t a, Keeps s0 t → Keeps s0 (k t a).2) → Keeps s0 (match p with | (t, a) => k t a).2 := fun h hk => hk p.1 p.2 h

/-- A state that differs in its tables only, each of which stays canonical. -/
theorem keeps_tables {s t : State} (h : Keeps s0 s) (hp : t.pending = s.pending) (hm : t.chip = s.chip)
    (ho : t.pools = s.pools) (hq : t.tide.queue = s.tide.queue) (hb : t.levee.buffer = s.levee.buffer)
    (hl : t.delta.learn = s.delta.learn) (hs : t.culvert.poison = s.culvert.poison)
    (hk : TablesCanonical s → TablesCanonical t) (hd : t.log.held = s.log.held) : Keeps s0 t :=
  ⟨hp.trans h.pending, hm ▸ h.mFuses, hm ▸ h.cFuses, hm ▸ h.tFuses, fun x => by
    have := h.pools x; simp only [PoolsCanonical] at *; rw [ho]; exact this, fun x => hk (h.tables x),
   fun x => ⟨hq ▸ (h.bounded x).events, hb ▸ (h.bounded x).tamper, hl ▸ (h.bounded x).learn, hs ▸ (h.bounded x).poison⟩,
   fun x => hd.trans (h.held x)⟩

/-- Go on from a state of which only `Keeps` matters. -/
theorem keeps_gen {P : State → Prop} (v : State) (h : Keeps s0 v) (k : ∀ x, Keeps s0 x → P x) : P v := k v h

theorem keeps_of_eq {p : α × State} {a : α} {t : State} (e : p = (a, t)) (h : Keeps s0 p.2) : Keeps s0 t := by
  rw [e] at h; exact h
theorem keeps_of_eqL {p : State × α} {a : α} {t : State} (e : p = (t, a)) (h : Keeps s0 p.1) : Keeps s0 t := by
  rw [e] at h; exact h
theorem keeps_of_next {o : Host.Outcome State Fault Refusal} {t : State} (e : o = .next t) (h : KeepsO s0 o) :
    Keeps s0 t := by rw [e] at h; exact h

end

end Sys2Proof.Machine
end

