-- ==== Sys2Proof/Laws/KeepsOps.lean ====
section
/-! SUPPORT. What the definitions of Sys2Proof/Machine/Ops.lean keep: one lemma each, in the terms of `Keeps`. -/

namespace Sys2Proof.Machine

open Sys2Proof

theorem State.count_keeps {s0 s : State} {c : CtrId} {i n : Nat} (h : Keeps s0 s) : Keeps s0 (s.count c i n) :=
  keeps_tables h rfl rfl rfl rfl rfl rfl rfl (fun x => ⟨x.1, x.2.1, Tbl.rising_set x.2.2⟩) rfl

theorem State.setReg_keeps {s0 s : State} {r : Reg} {v : Word} {i j : Nat} (h : Keeps s0 s) :
    Keeps s0 (s.setReg r v i j) :=
  keeps_tables h rfl rfl rfl rfl rfl rfl rfl (fun x => ⟨Tbl.rising_set x.1, x.2.1, x.2.2⟩) rfl

theorem State.wr_keeps {s0 : State} {p1 : Machine.State} {p2 : Field} {p3 : Nat} {p4 : optParam Nat 0} {p5 : optParam Nat 0} (hp1 : Keeps s0 (p1)) : Keeps s0 (@State.wr p1 p2 p3 p4 p5) := by
  unfold State.wr
  refine State.setReg_keeps ?_
  · exact hp1

theorem State.mark_keeps {s0 : State} {p1 : Machine.State} {p2 : Field} {p3 : optParam Nat 0} {p4 : optParam Nat 0} (hp1 : Keeps s0 (p1)) : Keeps s0 (@State.mark p1 p2 p3 p4) := by
  unfold State.mark
  refine State.wr_keeps ?_
  · exact hp1

theorem State.satAdd_keeps {s0 : State} {p1 : Machine.State} {p2 : Field} {p3 : Nat} {p4 : optParam Nat 0} {p5 : optParam Nat 0} (hp1 : Keeps s0 (p1)) : Keeps s0 (@State.satAdd p1 p2 p3 p4 p5) := by
  unfold State.satAdd
  refine State.wr_keeps ?_
  · exact hp1

theorem State.emit_keeps {s0 : State} {p1 : Machine.State} {p2 : Output} (hp1 : Keeps s0 (p1)) : Keeps s0 (@State.emit p1 p2) := by
  unfold State.emit
  exact keeps_upd hp1 rfl rfl rfl rfl rfl rfl rfl rfl rfl rfl rfl rfl (.inl rfl)

theorem State.sendVec_keeps {s0 : State} {p1 : Machine.State} {p2 : Nat} (hp1 : Keeps s0 (p1)) : Keeps s0 (@State.sendVec p1 p2) := by
  unfold State.sendVec
  refine keeps_ite (fun _ => ?_) (fun _ => ?_)
  · refine State.emit_keeps ?_
    · exact hp1
  · refine State.wr_keeps ?_
    · exact hp1

theorem State.raiseCause_keeps {s0 : State} {p1 : Machine.State} {p2 : Nat} (hp1 : Keeps s0 (p1)) : Keeps s0 (@State.raiseCause p1 p2) := by
  unfold State.raiseCause
  extract_lets +onlyGivenNames -merge -underBinder x1
  try clear_value x1
  refine keeps_ite (fun _ => ?_) (fun _ => ?_)
  · exact hp1
  · extract_lets +onlyGivenNames -merge -underBinder x2
    have h3 : Keeps s0 (x2) := by
      unfold x2
      refine State.wr_keeps ?_
      · exact hp1
    clear_value x2
    apply keeps_gen x2 h3
    clear h3
    intro x2 h3
    refine keeps_ite (fun _ => ?_) (fun _ => ?_)
    · exact h3
    · refine State.sendVec_keeps ?_
      · exact h3

theorem mergeEvent_length {c i gen : Nat} {l q : List EventRec} (h : mergeEvent c i gen l = some q) : q.length = l.length := by
  induction l generalizing q with
  | nil => simp [mergeEvent] at h
  | cons r t ih =>
    unfold mergeEvent at h
    split at h
    · cases h; rfl
    · cases e : mergeEvent c i gen t with
      | none => simp [e] at h
      | some q' => simp [e] at h; subst h; simp [ih e]

theorem State.queueEvent_keeps {s0 s : State} {e : SoEntry} {cls idx : Nat} {g5 : Word} (h : Keeps s0 s) :
    Keeps s0 (s.queueEvent e cls idx g5) := by
  unfold State.queueEvent
  split
  · rename_i q hq
    refine State.count_keeps ⟨h.pending, h.mFuses, h.cFuses, h.tFuses, h.pools, h.tables, fun x => ?_, h.held⟩
    have b := h.bounded x
    exact ⟨by simp only [mergeEvent_length hq]; exact b.events, b.tamper, b.learn, b.poison⟩
  · split
    · rename_i hlt
      refine ⟨h.pending, h.mFuses, h.cFuses, h.tFuses, h.pools, h.tables, fun x => ?_, h.held⟩
      have b := h.bounded x
      exact ⟨by simp only [List.length_append, List.length_singleton]; omega, b.tamper, b.learn, b.poison⟩
    · exact State.count_keeps (State.wr_keeps (keeps_upd h rfl rfl rfl rfl rfl rfl rfl rfl rfl rfl rfl rfl (.inl rfl)))

theorem State.raiseEvent_keeps {s0 : State} {p1 : Machine.State} {p2 : Nat} {p3 : Nat} {p4 : optParam Word 0} (hp1 : Keeps s0 (p1)) : Keeps s0 (@State.raiseEvent p1 p2 p3 p4) := by
  unfold State.raiseEvent
  extract_lets +onlyGivenNames -merge -underBinder x1
  have h2 : Keeps s0 (x1) := by
    unfold x1
    refine State.count_keeps ?_
    · exact hp1
  clear_value x1
  apply keeps_gen x1 h2
  clear h2
  intro x1 h2
  split
  · refine State.count_keeps ?_
    · exact h2
  · refine keeps_ite (fun _ => ?_) (fun _ => ?_)
    · refine State.queueEvent_keeps ?_
      · exact h2
    · exact h2

theorem keeps_log {s0 s : State} {l : LogState} (h : Keeps s0 s) (e : l.held = s.log.held) :
    Keeps s0 { s with log := l } := keeps_upd h rfl rfl rfl rfl rfl rfl rfl rfl rfl rfl rfl rfl (.inl e)

theorem State.logWrite_keeps {s0 s : State} {kind group detail : Nat} {gauge : Word} (h : Keeps s0 s) :
    Keeps s0 (s.logWrite kind group gauge detail) := by
  unfold State.logWrite
  extract_lets w n flags head s1 s2 src s3 s4
  have h2 : Keeps s0 s2 := State.wr_keeps (State.wr_keeps (State.wr_keeps
    (State.setReg_keeps (State.setReg_keeps (State.setReg_keeps (State.setReg_keeps h))))))
  have h3 : Keeps s0 s3 := keeps_log h2 rfl
  clear_value s3
  refine State.raiseEvent_keeps (State.raiseCause_keeps ?_)
  exact keeps_ite (fun _ => State.satAdd_keeps (State.mark_keeps h3))
    (fun _ => keeps_ite (fun _ => State.satAdd_keeps (State.mark_keeps h3)) (fun _ => h3))

theorem State.reportAt_keeps {s0 s : State} {kind group detail : Nat} {gauge : Word} (h : Keeps s0 s) :
    Keeps s0 (s.reportAt kind group gauge detail) := by
  unfold State.reportAt
  extract_lets x
  have hx : Keeps s0 x := State.wr_keeps h
  have e : x.log = s.log := rfl
  clear_value x
  split
  · exact State.setReg_keeps hx
  · refine keeps_ite (fun _ => ?_) (fun _ => ?_)
    · exact keeps_log (State.mark_keeps hx) rfl
    · refine keeps_ite (fun _ => State.logWrite_keeps hx) (fun _ => ?_)
      extract_lets
      refine keeps_ite (fun _ => ?_) (fun _ => ?_)
      · exact keeps_log (State.mark_keeps hx) rfl
      · exact State.logWrite_keeps (keeps_log hx rfl)

theorem State.reportWith_keeps {s0 s : State} {r : Report} (h : Keeps s0 s) : Keeps s0 (s.reportWith r) := by
  unfold State.reportWith
  split
  · rename_i l e
    exact ⟨h.pending, h.mFuses, h.cFuses, h.tFuses, h.pools, h.tables,
      fun x => ⟨(h.bounded x).events, (h.bounded x).tamper, (h.bounded x).learn, (h.bounded x).poison⟩,
      fun x => absurd ((h.held x).symm.trans e) (by simp)⟩
  · exact State.reportAt_keeps h

theorem State.report_keeps {s0 : State} {p1 : Machine.State} {p2 : Nat} {p3 : Nat} {p4 : optParam Nat 0} (hp1 : Keeps s0 (p1)) : Keeps s0 (@State.report p1 p2 p3 p4) := by
  unfold State.report
  refine keeps_ite (fun _ => ?_) (fun _ => ?_)
  · refine State.reportWith_keeps ?_
    · exact hp1
  · refine State.reportWith_keeps ?_
    · exact hp1

theorem State.eccCorrected_keeps {s0 s : State} {u w q : Nat} (h : Keeps s0 s) : Keeps s0 (s.eccCorrected u w q) := by
  unfold State.eccCorrected
  extract_lets _ _ _ _ s1
  have h1 : Keeps s0 s1 := keeps_log h rfl
  exact keeps_ite (fun _ => State.report_keeps h1) (fun _ => State.wr_keeps h1)

theorem State.draw_keeps {s0 : State} {p1 : Machine.State} (hp1 : Keeps s0 (p1)) : Keeps s0 (@State.draw p1).2 := by
  unfold State.draw
  refine keepsP_mk ?_
  exact keeps_upd hp1 rfl rfl rfl rfl rfl rfl rfl rfl rfl rfl rfl rfl (.inl rfl)

theorem State.reports_keeps {s0 s : State} {l : List Report} (h : Keeps s0 s) :
    Keeps s0 (l.foldl (fun (a : State) r => a.reportAt r.kind r.group r.gauge r.detail) s) :=
  keeps_foldl h (fun _ _ ha => State.reportAt_keeps ha)

/-- A cycle in which reports are held: what it keeps of its start it keeps of the state before it. -/
theorem State.takeReports_keeps {s0 s b : State} (h : Keeps s0 s) (hb : Keeps s.holdReports b) :
    Keeps s0 (b.takeReports s.inCycle) := by
  have k : Keeps s0 (if s.inCycle then b else { b with log := { b.log with held := none } }) := by
    refine ⟨?_, Nat.le_trans h.mFuses ?_, Nat.le_trans h.cFuses ?_, Nat.le_trans h.tFuses ?_, fun x => ?_, fun x => ?_,
      fun x => ?_, fun x => ?_⟩
    · split <;> exact hb.pending.trans h.pending
    · split <;> exact hb.mFuses
    · split <;> exact hb.cFuses
    · split <;> exact hb.tFuses
    · have := hb.pools (h.pools x); split <;> exact this
    · have := hb.tables (h.tables x); split <;> exact this
    · have := hb.bounded ⟨(h.bounded x).events, (h.bounded x).tamper, (h.bounded x).learn, (h.bounded x).poison⟩
      split <;> exact ⟨this.events, this.tamper, this.learn, this.poison⟩
    · have e : s.inCycle = false := by unfold State.inCycle; rw [h.held x]; rfl
      rw [e]; rfl
  unfold State.takeReports
  split <;> rename_i e
  · rw [if_pos e] at k; exact k
  · rw [if_neg e] at k; exact State.reports_keeps k



theorem State.unmark_keeps {s0 : State} {p1 : Machine.State} {p2 : Field} {p3 : optParam Nat 0} {p4 : optParam Nat 0} (hp1 : Keeps s0 (p1)) : Keeps s0 (@State.unmark p1 p2 p3 p4) := by
  unfold State.unmark
  refine State.wr_keeps ?_
  · exact hp1

theorem State.drawOctets_keeps {s0 s : State} {n : Nat} (h : Keeps s0 s) : Keeps s0 (s.drawOctets n).2 := by
  induction n generalizing s with
  | zero => exact h
  | succ n ih => exact ih (State.draw_keeps h)

theorem guardRsvd_keeps {s0 : State} {p1 : Reg} {p2 : Word} {p3 : Host.Outcome Machine.State Fault Refusal} (hp3 : KeepsO s0 (p3)) : KeepsO s0 (@guardRsvd p1 p2 p3) := by
  unfold guardRsvd
  refine keepsO_ite (fun _ => ?_) (fun _ => ?_)
  · exact hp3
  · exact keepsO_fault

theorem State.plainWrite_keeps {s0 : State} {p1 : Machine.State} {p2 : Reg} {p3 : Word} {p4 : optParam Nat 0} {p5 : optParam Nat 0} (hp1 : Keeps s0 (p1)) : Keeps s0 (@State.plainWrite p1 p2 p3 p4 p5) := by
  unfold State.plainWrite
  refine State.setReg_keeps ?_
  · exact hp1

theorem State.flushVecs_keeps {s0 : State} {p1 : Machine.State} (hp1 : Keeps s0 (p1)) : Keeps s0 (@State.flushVecs p1) := by
  unfold State.flushVecs
  refine keeps_foldl ?_ (fun a x ha => ?_)
  · exact hp1
  · skip
    refine keeps_ite (fun _ => ?_) (fun _ => ?_)
    · refine State.emit_keeps ?_
      · refine State.wr_keeps ?_
        · exact ha
    · exact ha

end Sys2Proof.Machine
end

