-- ==== Sys2Proof/Laws/KeepsLeveeOps.lean ====
section
/-! SUPPORT. What the definitions of Sys2Proof/Machine/LeveeOps.lean keep: one lemma each, in the terms of `Keeps`. -/

namespace Sys2Proof.Machine

open Sys2Proof

theorem State.setSticky_keeps {s0 : State} {p1 : Machine.State} {p2 : Nat} (hp1 : Keeps s0 (p1)) : Keeps s0 (@State.setSticky p1 p2) := by
  unfold State.setSticky
  refine State.raiseCause_keeps ?_
  · refine State.wr_keeps ?_
    · exact hp1

theorem State.leveeEvent_keeps {s0 : State} {p1 : Machine.State} {p2 : Nat} {p3 : Nat} (hp1 : Keeps s0 (p1)) : Keeps s0 (@State.leveeEvent p1 p2 p3) := by
  unfold State.leveeEvent
  extract_lets +onlyGivenNames -merge -underBinder x1
  have h2 : Keeps s0 (x1) := by
    unfold x1
    refine State.satAdd_keeps ?_
    · exact hp1
  clear_value x1
  apply keeps_gen x1 h2
  clear h2
  intro x1 h2
  refine keeps_ite (fun _ => ?_) (fun _ => ?_)
  · exact h2
  · extract_lets +onlyGivenNames -merge -underBinder x3
    try clear_value x3
    extract_lets +onlyGivenNames -merge -underBinder x4
    try clear_value x4
    refine keeps_ite (fun _ => ?_) (fun _ => ?_)
    · extract_lets +onlyGivenNames -merge -underBinder y6 x5
      refine State.setSticky_keeps ?_
      · exact keeps_upd h2 rfl rfl rfl rfl rfl rfl rfl rfl rfl rfl rfl rfl (.inl rfl)
    · exact keeps_upd h2 rfl rfl rfl rfl rfl rfl rfl rfl rfl rfl rfl rfl (.inl rfl)

end Sys2Proof.Machine
end

