-- ==== Sys2Proof/Laws/KeepsCache.lean ====
section
/-! SUPPORT. What the definitions of Sys2Proof/Machine/Cache.lean keep: one lemma each, in the terms of `Keeps`. -/

namespace Sys2Proof.Machine

open Sys2Proof

theorem State.setCache_keeps {s0 s : State} {data : Bool} {core : Nat} {l : List CacheLine} (h : Keeps s0 s) :
    Keeps s0 (s.setCache data core l) := by
  cases data <;> exact keeps_upd h rfl rfl rfl rfl rfl rfl rfl rfl rfl rfl rfl rfl (.inl rfl)

theorem State.dropLine_keeps {s0 : State} {p1 : Machine.State} {p2 : Bool} {p3 : Nat} {p4 : Nat} (hp1 : Keeps s0 (p1)) : Keeps s0 (@State.dropLine p1 p2 p3 p4) := by
  unfold State.dropLine
  refine State.setCache_keeps ?_
  · exact hp1

theorem State.localFind_keeps {s0 : State} {p1 : Machine.State} {p2 : Bool} {p3 : Nat} {p4 : Nat} {p5 : EccFind} (hp1 : Keeps s0 (p1)) : Keeps s0 (@State.localFind p1 p2 p3 p4 p5) := by
  unfold State.localFind
  split
  · refine State.eccCorrected_keeps ?_
    · exact hp1
  · refine State.report_keeps ?_
    · refine State.dropLine_keeps ?_
      · exact hp1
  · exact hp1

theorem State.fillLine_keeps {s0 : State} {p1 : Machine.State} {p2 : Bool} {p3 : Nat} {p4 : CacheLine} (hp1 : Keeps s0 (p1)) : Keeps s0 (@State.fillLine p1 p2 p3 p4) := by
  unfold State.fillLine
  extract_lets +onlyGivenNames -merge -underBinder x1
  try clear_value x1
  refine keeps_ite (fun _ => ?_) (fun _ => ?_)
  · refine State.setCache_keeps ?_
    · exact hp1
  · split
    · rename_i h4e
      have h4 : Keeps s0 _ := keeps_of_eq h4e (by
        refine State.draw_keeps ?_
        · exact hp1
        )
      refine State.setCache_keeps ?_
      · exact h4

theorem State.dropLines_keeps {s0 : State} {p1 : Machine.State} {p2 : Nat} {p3 : Nat} (hp1 : Keeps s0 (p1)) : Keeps s0 (@State.dropLines p1 p2 p3) := by
  unfold State.dropLines
  extract_lets +onlyGivenNames -merge -underBinder x1
  try clear_value x1
  exact keeps_upd hp1 rfl rfl rfl rfl rfl rfl rfl rfl rfl rfl rfl rfl (.inl rfl)

theorem State.dropCaches_keeps {s0 : State} {p1 : Machine.State} {p2 : Nat} (hp1 : Keeps s0 (p1)) : Keeps s0 (@State.dropCaches p1 p2) := by
  unfold State.dropCaches
  refine State.setCache_keeps ?_
  · refine State.setCache_keeps ?_
    · exact hp1

end Sys2Proof.Machine
end

