-- ==== Sys2Proof/Laws/KeepsCulvertMem.lean ====
section
/-! SUPPORT. What the definitions of Sys2Proof/Machine/CulvertMem.lean keep: one lemma each, in the terms of `Keeps`. -/

namespace Sys2Proof.Machine

open Sys2Proof

theorem State.culCharge_keeps {s0 : State} {p1 : Machine.State} {p2 : Nat} {p3 : Bool} {p4 : Nat} (hp1 : Keeps s0 (p1)) : Keeps s0 (@State.culCharge p1 p2 p3 p4) := by
  unfold State.culCharge
  refine State.count_keeps ?_
  · exact keeps_upd hp1 rfl rfl rfl rfl rfl rfl rfl rfl rfl rfl rfl rfl (.inl rfl)

theorem State.setRange_keeps {s0 : State} {p1 : Machine.State} {p2 : Nat} {p3 : RangeState} (hp1 : Keeps s0 (p1)) : Keeps s0 (@State.setRange p1 p2 p3) := by
  unfold State.setRange
  exact keeps_upd hp1 rfl rfl rfl rfl rfl rfl rfl rfl rfl rfl rfl rfl (.inl rfl)

theorem State.culDamage_keeps {s0 : State} {p1 : Machine.State} {p2 : Nat} {p3 : Nat} {p4 : Nat} (hp1 : Keeps s0 (p1)) : Keeps s0 (@State.culDamage p1 p2 p3 p4) := by
  unfold State.culDamage
  extract_lets +onlyGivenNames -merge -underBinder x1
  try clear_value x1
  refine keeps_ite (fun _ => ?_) (fun _ => ?_)
  · exact hp1
  · extract_lets +onlyGivenNames -merge -underBinder x2
    have h3 : Keeps s0 (x2) := by
      unfold x2
      refine State.count_keeps ?_
      · refine State.mark_keeps ?_
        · exact hp1
    clear_value x2
    apply keeps_gen x2 h3
    clear h3
    intro x2 h3
    extract_lets +onlyGivenNames -merge -underBinder x4
    have h5 : Keeps s0 (x4) := by
      unfold x4
      refine keeps_ite (fun _ => ?_) (fun _ => ?_)
      · refine State.mark_keeps ?_
        · exact h3
      · refine State.wr_keeps ?_
        · refine State.setRange_keeps ?_
          · exact h3
    clear_value x4
    apply keeps_gen x4 h5
    clear h5
    intro x4 h5
    refine State.report_keeps ?_
    · exact h5

theorem State.culPath_keeps {s0 : State} {p1 : Machine.State} {p2 : Nat} {p3 : Nat} {p4 : NodeFind} (hp1 : Keeps s0 (p1)) : Keeps s0 (@State.culPath p1 p2 p3 p4).2 := by
  unfold State.culPath
  refine keepsP_ite (fun _ => ?_) (fun _ => ?_)
  · refine keepsP_mk ?_
    exact hp1
  · refine keepsP_ite (fun _ => ?_) (fun _ => ?_)
    · refine keepsP_mk ?_
      exact hp1
    · split
      · refine keepsP_mk ?_
        exact hp1
      · refine keepsP_mk ?_
        refine State.count_keeps ?_
        · refine State.mark_keeps ?_
          · exact hp1
      · extract_lets +onlyGivenNames -merge -underBinder x1
        try clear_value x1
        refine keepsP_ite (fun _ => ?_) (fun _ => ?_)
        · refine keepsP_mk ?_
          exact hp1
        · refine keepsP_ite (fun _ => ?_) (fun _ => ?_)
          · refine keepsP_mk ?_
            refine State.count_keeps ?_
            · refine State.mark_keeps ?_
              · exact hp1
          · refine keepsP_mk ?_
            refine State.culDamage_keeps ?_
            · exact hp1
      · extract_lets +onlyGivenNames -merge -underBinder x2
        try clear_value x2
        refine keepsP_ite (fun _ => ?_) (fun _ => ?_)
        · refine keepsP_mk ?_
          refine State.culDamage_keeps ?_
          · exact hp1
        · refine keepsP_mk ?_
          exact hp1

theorem State.setCulRaw_keeps {s0 : State} {p1 : Machine.State} {p2 : Nat} {p3 : List (BitVec 80)} (hp1 : Keeps s0 (p1)) : Keeps s0 (@State.setCulRaw p1 p2 p3) := by
  unfold State.setCulRaw
  exact keeps_upd hp1 rfl rfl rfl rfl rfl rfl rfl rfl rfl rfl rfl rfl (.inl rfl)

theorem State.culFixWord_keeps {s0 : State} {p1 : Machine.State} {p2 : Nat} {p3 : Nat} {p4 : Nat} {p5 : Nat} (hp1 : Keeps s0 (p1)) : Keeps s0 (@State.culFixWord p1 p2 p3 p4 p5).2 := by
  unfold State.culFixWord
  extract_lets +onlyGivenNames -merge -underBinder x1
  try clear_value x1
  extract_lets +onlyGivenNames -merge -underBinder x2
  try clear_value x2
  split
  · refine keepsP_mk ?_
    refine State.report_keeps ?_
    · refine State.count_keeps ?_
      · refine State.mark_keeps ?_
        · exact hp1
  · refine keepsP_mk ?_
    exact hp1
  · extract_lets +onlyGivenNames -merge -underBinder x3
    have h4 : Keeps s0 (x3) := by
      unfold x3
      refine State.mark_keeps ?_
      · refine State.setCulRaw_keeps ?_
        · exact hp1
    clear_value x3
    apply keeps_gen x3 h4
    clear h4
    intro x3 h4
    extract_lets +onlyGivenNames -merge -underBinder x5
    try clear_value x5
    refine keepsP_ite (fun _ => ?_) (fun _ => ?_)
    · refine keepsP_mk ?_
      refine State.report_keeps ?_
      · exact h4
    · refine keepsP_mk ?_
      refine State.count_keeps ?_
      · exact keeps_upd h4 rfl rfl rfl rfl rfl rfl rfl rfl rfl rfl rfl rfl (.inl rfl)

theorem State.culFix_keeps {s0 s : State} {r sec req : Nat} {l : List Nat} (h : Keeps s0 s) :
    Keeps s0 (s.culFix r sec req l).2 := by
  induction l generalizing s with
  | nil => exact h
  | cons w t ih =>
    unfold State.culFix
    have h1 : Keeps s0 (s.culFixWord r sec w req).2 := State.culFixWord_keeps h
    split
    · rename_i e; exact keeps_of_eq e h1
    · rename_i x s1 e
      have h3 : Keeps s0 (s1.culFix r sec req t).2 := ih (keeps_of_eq e h1)
      split <;> rename_i e2 <;> exact keeps_of_eq e2 h3

theorem State.culOpen_keeps {s0 : State} {p1 : Machine.State} {p2 : Nat} {p3 : Nat} {p4 : CulPort} {p5 : List Nat} {p6 : Bool} (hp1 : Keeps s0 (p1)) : Keeps s0 (@State.culOpen p1 p2 p3 p4 p5 p6).2 := by
  unfold State.culOpen
  extract_lets +onlyGivenNames -merge -underBinder x1
  try clear_value x1
  extract_lets +onlyGivenNames -merge -underBinder x2
  try clear_value x2
  refine keepsP_ite (fun _ => ?_) (fun _ => ?_)
  · split
    · rename_i h4e
      have h4 : Keeps s0 _ := keeps_of_eq h4e (by
        refine State.culFix_keeps ?_
        · exact hp1
        )
      refine keepsP_mk ?_
      exact h4
    · rename_i h7e
      have h7 : Keeps s0 _ := keeps_of_eq h7e (by
        refine State.culFix_keeps ?_
        · exact hp1
        )
      refine keepsP_mk ?_
      exact h7
  · split
    · rename_i h9e
      have h9 : Keeps s0 _ := keeps_of_eq h9e (by
        refine State.culFix_keeps ?_
        · exact hp1
        )
      refine keepsP_mk ?_
      exact h9
    · rename_i h12e
      have h12 : Keeps s0 _ := keeps_of_eq h12e (by
        refine State.culFix_keeps ?_
        · exact hp1
        )
      extract_lets +onlyGivenNames -merge -underBinder x13
      try clear_value x13
      refine keepsP_ite (fun _ => ?_) (fun _ => ?_)
      · refine keepsP_mk ?_
        exact h12
      · extract_lets +onlyGivenNames -merge -underBinder x14
        have h15 : Keeps s0 (x14) := by
          unfold x14
          refine State.count_keeps ?_
          · refine State.mark_keeps ?_
            · exact h12
        clear_value x14
        apply keeps_gen x14 h15
        clear h15
        intro x14 h15
        refine keepsP_mk ?_
        refine keeps_ite (fun _ => ?_) (fun _ => ?_)
        · refine State.report_keeps ?_
          · exact h15
        · exact h15

theorem State.culRead_keeps {s0 : State} {p1 : Machine.State} {p2 : CulPort} {p3 : Nat} {p4 : Nat} {p5 : Nat} {p6 : optParam NodeFind NodeFind.good} (hp1 : Keeps s0 (p1)) : Keeps s0 (@State.culRead p1 p2 p3 p4 p5 p6).2 := by
  unfold State.culRead
  split
  · refine keepsP_mk ?_
    exact hp1
  · refine keepsP_ite (fun _ => ?_) (fun _ => ?_)
    · refine keepsP_mk ?_
      exact hp1
    · extract_lets +onlyGivenNames -merge -underBinder x1
      try clear_value x1
      extract_lets +onlyGivenNames -merge -underBinder x2
      try clear_value x2
      extract_lets +onlyGivenNames -merge -underBinder x3
      have h4 : Keeps s0 (x3) := by
        unfold x3
        refine State.culCharge_keeps ?_
        · exact hp1
      clear_value x3
      apply keeps_gen x3 h4
      clear h4
      intro x3 h4
      split
      · rename_i h6e
        have h6 : Keeps s0 _ := keeps_of_eq h6e (by
          refine State.culPath_keeps ?_
          · exact h4
          )
        refine keepsP_mk ?_
        exact h6
      · rename_i h8e
        have h8 : Keeps s0 _ := keeps_of_eq h8e (by
          refine State.culPath_keeps ?_
          · exact h4
          )
        refine keepsP_ite (fun _ => ?_) (fun _ => ?_)
        · refine keepsP_mk ?_
          exact h8
        · split
          · rename_i h10e
            have h10 : Keeps s0 _ := keeps_of_eq h10e (by
              refine State.culOpen_keeps ?_
              · exact h8
              )
            refine keepsP_mk ?_
            exact h10
          · rename_i h13e
            have h13 : Keeps s0 _ := keeps_of_eq h13e (by
              refine State.culOpen_keeps ?_
              · exact h8
              )
            refine keepsP_mk ?_
            exact h13

theorem State.culAdvance_keeps {s0 s t : State} {r sec : Nat} (h : Keeps s0 s) (e : s.culAdvance r sec = some t) :
    Keeps s0 t := by
  unfold State.culAdvance at e
  repeat' (first | split at e | extract_lets at e)
  all_goals first
    | (cases e; done)
    | (cases e; exact State.setRange_keeps h)

theorem State.culStore_keeps {s0 s : State} {r sec : Nat} {p : CulPort} {d : Octets} (h : Keeps s0 s) :
    Keeps s0 (s.culStore r sec p d).2 := by
  unfold State.culStore
  refine keepsP_ite (fun _ => ?_) (fun _ => State.setCulRaw_keeps h)
  split
  · exact State.count_keeps h
  · rename_i e; exact State.setCulRaw_keeps (State.culAdvance_keeps h e)

theorem poison_frame (s : State) (n : Nat) (ws : List (BitVec 80)) (f : Field) (c : CtrId) :
    (((s.setCulRaw n ws).mark f).count c).culvert.poison = s.culvert.poison := rfl

theorem State.culPoison_keeps {s0 s : State} {r sec req : Nat} (h : Keeps s0 s) : Keeps s0 (s.culPoison r sec req) := by
  unfold State.culPoison
  extract_lets ws s1 s2
  clear_value ws
  have h1 : Keeps s0 s1 := State.count_keeps (State.mark_keeps (State.setCulRaw_keeps h))
  have e1 : s1.culvert.poison = s.culvert.poison := poison_frame s sec ws _ _
  clear_value s1
  refine State.report_keeps (keeps_ite (fun hlt => ?_) (fun _ => State.mark_keeps h1))
  refine State.wr_keeps ⟨h1.pending, h1.mFuses, h1.cFuses, h1.tFuses, h1.pools, h1.tables, fun x => ?_, h1.held⟩
  have b := h1.bounded x
  refine ⟨b.events, b.tamper, b.learn, ?_⟩
  show (s1.culvert.poison ++ [sec]).length ≤ 65536
  rw [e1, List.length_append, List.length_singleton]
  exact Nat.succ_le_of_lt hlt

theorem State.culWrite_keeps {s0 : State} {p1 : Machine.State} {p2 : CulPort} {p3 : Nat} {p4 : Nat} {p5 : Octets} {p6 : optParam NodeFind NodeFind.good} (hp1 : Keeps s0 (p1)) : Keeps s0 (@State.culWrite p1 p2 p3 p4 p5 p6).2 := by
  unfold State.culWrite
  split
  · refine keepsP_mk ?_
    exact hp1
  · refine keepsP_ite (fun _ => ?_) (fun _ => ?_)
    · refine keepsP_mk ?_
      exact hp1
    · extract_lets +onlyGivenNames -merge -underBinder x1
      try clear_value x1
      extract_lets +onlyGivenNames -merge -underBinder x2
      try clear_value x2
      extract_lets +onlyGivenNames -merge -underBinder x3
      try clear_value x3
      extract_lets +onlyGivenNames -merge -underBinder x4
      have h5 : Keeps s0 (x4) := by
        unfold x4
        refine State.culCharge_keeps ?_
        · exact hp1
      clear_value x4
      apply keeps_gen x4 h5
      clear h5
      intro x4 h5
      split
      · rename_i h7e
        have h7 : Keeps s0 _ := keeps_of_eq h7e (by
          refine State.culPath_keeps ?_
          · exact h5
          )
        refine keepsP_mk ?_
        exact h7
      · rename_i h9e
        have h9 : Keeps s0 _ := keeps_of_eq h9e (by
          refine State.culPath_keeps ?_
          · exact h5
          )
        refine keepsP_ite (fun _ => ?_) (fun _ => ?_)
        · refine keepsP_mk ?_
          exact h9
        · refine keepsP_ite (fun _ => ?_) (fun _ => ?_)
          · refine State.culStore_keeps ?_
            · exact h9
          · refine keepsP_ite (fun _ => ?_) (fun _ => ?_)
            · extract_lets +onlyGivenNames -merge -underBinder x10
              try clear_value x10
              split
              · rename_i h12e
                have h12 : Keeps s0 _ := keeps_of_eq h12e (by
                  refine State.culOpen_keeps ?_
                  · exact h9
                  )
                refine keepsP_mk ?_
                exact h12
              · rename_i h15e
                have h15 : Keeps s0 _ := keeps_of_eq h15e (by
                  refine State.culOpen_keeps ?_
                  · exact h9
                  )
                extract_lets +onlyGivenNames -merge -underBinder x16
                try clear_value x16
                extract_lets +onlyGivenNames -merge -underBinder x17
                try clear_value x17
                extract_lets +onlyGivenNames -merge -underBinder x18
                try clear_value x18
                refine keepsP_mk ?_
                refine State.setCulRaw_keeps ?_
                · exact h15
            · extract_lets +onlyGivenNames -merge -underBinder x19
              have h20 : Keeps s0 (x19) := by
                unfold x19
                refine State.count_keeps ?_
                · exact h9
              clear_value x19
              apply keeps_gen x19 h20
              clear h20
              intro x19 h20
              split
              · rename_i h22e
                have h22 : Keeps s0 _ := keeps_of_eq h22e (by
                  refine State.culOpen_keeps ?_
                  · exact h20
                  )
                refine keepsP_mk ?_
                refine State.culPoison_keeps ?_
                · exact h22
              · rename_i h25e
                have h25 : Keeps s0 _ := keeps_of_eq h25e (by
                  refine State.culOpen_keeps ?_
                  · exact h20
                  )
                refine State.culStore_keeps ?_
                · exact h25

theorem State.culFlip_keeps {s0 s : State} {r sec : Nat} {l : List (Nat × BitVec 80)} (h : Keeps s0 s) :
    Keeps s0 (s.culFlip r sec l) := by
  induction l generalizing s with
  | nil => exact h
  | cons p t ih => exact ih (State.setCulRaw_keeps h)

end Sys2Proof.Machine
end

