-- ==== Sys2Proof/Laws/KeepsAccess.lean ====
section
/-! SUPPORT. What the definitions of Sys2Proof/Machine/Access.lean keep: one lemma each, in the terms of `Keeps`. -/

namespace Sys2Proof.Machine

open Sys2Proof

theorem State.refuse_keeps {s0 : State} {p1 : Machine.State} {p2 : Requester} {p3 : AccKind} {p4 : Nat} {p5 : Bool} {p6 : Bool} {p7 : Nat} (hp1 : Keeps s0 (p1)) : Keeps s0 (@State.refuse p1 p2 p3 p4 p5 p6 p7) := by
  unfold State.refuse
  extract_lets +onlyGivenNames -merge -underBinder y2 x1
  try clear_value y2
  have h3 : Keeps s0 (x1) := by
    unfold x1
    refine keeps_ite (fun _ => ?_) (fun _ => ?_)
    · exact hp1
    · refine State.mark_keeps ?_
      · refine State.setReg_keeps ?_
        · refine State.setReg_keeps ?_
          · exact hp1
  clear_value x1
  apply keeps_gen x1 h3
  clear h3
  intro x1 h3
  refine State.count_keeps ?_
  · exact h3

theorem State.checked_keeps {s0 : State} {p1 : Machine.State} {p2 : Requester} {p3 : AccKind} {p4 : Nat} {p5 : Check} (hp1 : Keeps s0 (p1)) : Keeps s0 (@State.checked p1 p2 p3 p4 p5) := by
  unfold State.checked
  split
  · refine State.count_keeps ?_
    · exact hp1
  · exact hp1
  · refine State.refuse_keeps ?_
    · exact hp1
  · refine State.leveeEvent_keeps ?_
    · refine State.count_keeps ?_
      · refine State.mark_keeps ?_
        · exact hp1
  · split
    · refine keeps_ite (fun _ => ?_) (fun _ => ?_)
      · refine State.wr_keeps ?_
        · exact hp1
      · exact hp1
    · refine keeps_ite (fun _ => ?_) (fun _ => ?_)
      · refine State.wr_keeps ?_
        · exact hp1
      · split
        · refine keeps_ite (fun _ => ?_) (fun _ => ?_)
          · exact hp1
          · refine State.count_keeps ?_
            · exact hp1
        · exact hp1
    · exact hp1

theorem State.check_keeps {s0 : State} {p1 : Machine.State} {p2 : Requester} {p3 : AccKind} {p4 : Nat} (hp1 : Keeps s0 (p1)) : Keeps s0 (@State.check p1 p2 p3 p4).2 := by
  unfold State.check
  extract_lets +onlyGivenNames -merge -underBinder x1
  try clear_value x1
  refine keepsP_mk ?_
  refine State.checked_keeps ?_
  · exact hp1

theorem State.eccRead_keeps {s0 : State} {p1 : Machine.State} {p2 : Nat} {p3 : EccFind} (hp1 : Keeps s0 (p1)) : Keeps s0 (@State.eccRead p1 p2 p3).2 := by
  unfold State.eccRead
  split
  · refine keepsP_mk ?_
    refine State.eccCorrected_keeps ?_
    · exact hp1
  · refine keepsP_mk ?_
    refine State.report_keeps ?_
    · exact hp1
  · refine keepsP_mk ?_
    exact hp1

theorem State.targetRead_keeps {s0 : State} {p1 : Machine.State} {p2 : Requester} {p3 : Nat} {p4 : Nat} (hp1 : Keeps s0 (p1)) : Keeps s0 (@State.targetRead p1 p2 p3 p4).2 := by
  unfold State.targetRead
  split
  · refine keepsP_mk ?_
    exact hp1
  · split
    · rename_i h3e
      have h3 : Keeps s0 _ := keeps_of_eq h3e (by
        refine State.culRead_keeps ?_
        · exact hp1
        )
      refine keepsP_mk ?_
      exact h3
    · rename_i h5e
      have h5 : Keeps s0 _ := keeps_of_eq h5e (by
        refine State.culRead_keeps ?_
        · exact hp1
        )
      refine keepsP_mk ?_
      exact h5
  · refine keepsP_mk ?_
    exact hp1

theorem State.cachedRead_keeps {s0 s : State} {q : Requester} {k : AccKind} {data : Bool} {core a n : Nat} {f : EccFind}
    (h : Keeps s0 s) : Keeps s0 (s.cachedRead q k data core a n f).2 := by
  unfold State.cachedRead
  have h1 : Keeps s0 (s.check q k a).2 := State.check_keeps h
  split
  · rename_i s1 e
    extract_lets s2
    have h2 : Keeps s0 s2 := State.localFind_keeps (keeps_of_eq e h1)
    clear_value s2
    split
    · exact h2
    · have h3 : Keeps s0 (s2.eccRead a f).2 := State.eccRead_keeps h2
      split
      · rename_i e; exact keeps_of_eq e h3
      · rename_i s3 e
        have h4 : Keeps s0 (s3.targetRead q (a / 64 * 64) 64).2 := State.targetRead_keeps (keeps_of_eq e h3)
        split
        · rename_i e; exact State.fillLine_keeps (keeps_of_eq e h4)
        · exact h4
  · rename_i e; exact keeps_of_eq e h1
  · rename_i e; exact keeps_of_eq e h1
  · rename_i e; exact keeps_of_eq e h1

theorem State.setThread_keeps {s0 : State} {p1 : Machine.State} {p2 : Nat} {p3 : Thread} (hp1 : Keeps s0 (p1)) : Keeps s0 (@State.setThread p1 p2 p3) := by
  unfold State.setThread
  exact keeps_upd hp1 rfl rfl rfl rfl rfl rfl rfl rfl rfl rfl rfl rfl (.inl rfl)

theorem Memory.wfFrom_mono {lo lo' : Nat} {m : List Host.Cell} (h : Memory.wfFrom lo m = true) (hl : lo' ≤ lo) :
    Memory.wfFrom lo' m = true := by
  cases m with
  | nil => rfl
  | cons p t =>
    simp only [Memory.wfFrom, Bool.and_eq_true, decide_eq_true_eq] at h ⊢
    exact ⟨⟨by omega, h.1.2⟩, h.2⟩

/-- A write of an octet keeps the canonical form of the Pools. -/
theorem poolSet_wf {m : List Host.Cell} {lo a : Nat} {v : Byte} (h : Memory.wfFrom lo m = true) (hl : lo ≤ a) :
    Memory.wfFrom lo (poolSet m a v) = true := by
  induction m generalizing lo with
  | nil =>
    unfold poolSet
    split
    · rfl
    · rename_i hv; simpa [Memory.wfFrom, hl] using hv
  | cons p t ih =>
    obtain ⟨k, x⟩ := p
    simp only [Memory.wfFrom, Bool.and_eq_true, decide_eq_true_eq] at h
    unfold poolSet
    split
    · split
      · simp only [Memory.wfFrom, Bool.and_eq_true, decide_eq_true_eq]; exact h
      · rename_i h1 h2
        simp only [Memory.wfFrom, Bool.and_eq_true, decide_eq_true_eq]
        exact ⟨⟨hl, h2⟩, ⟨by omega, h.1.2⟩, h.2⟩
    · split
      · rename_i h1 h2; subst h2
        split
        · exact Memory.wfFrom_mono h.2 (by omega)
        · rename_i h3
          simp only [Memory.wfFrom, Bool.and_eq_true, decide_eq_true_eq]
          exact ⟨⟨hl, h3⟩, h.2⟩
      · rename_i h1 h2
        simp only [Memory.wfFrom, Bool.and_eq_true, decide_eq_true_eq]
        exact ⟨h.1, ih h.2 (by omega)⟩

theorem State.poolWrite_keeps {s0 s : State} {a : Nat} {d : Octets} (h : Keeps s0 s) : Keeps s0 (s.poolWrite a d) := by
  induction d generalizing s a with
  | nil => exact h
  | cons b t ih =>
    exact ih ⟨h.pending, h.mFuses, h.cFuses, h.tFuses, fun x => poolSet_wf (h.pools x) (Nat.zero_le _), h.tables,
      fun x => ⟨(h.bounded x).events, (h.bounded x).tamper, (h.bounded x).learn, (h.bounded x).poison⟩, h.held⟩

theorem State.memWrite_keeps {s0 : State} {p1 : Machine.State} {p2 : Requester} {p3 : Nat} {p4 : Octets} (hp1 : Keeps s0 (p1)) : Keeps s0 (@State.memWrite p1 p2 p3 p4).2 := by
  unfold State.memWrite
  split
  · rename_i h3e
    have h3 : Keeps s0 _ := keeps_of_eq h3e (by
      refine State.check_keeps ?_
      · exact hp1
      )
    split
    · refine keepsP_mk ?_
      refine State.dropLines_keeps ?_
      · refine State.poolWrite_keeps ?_
        · exact h3
    · split
      · rename_i h5e
        have h5 : Keeps s0 _ := keeps_of_eq h5e (by
          refine State.culWrite_keeps ?_
          · exact h3
          )
        refine keepsP_mk ?_
        refine State.dropLines_keeps ?_
        · exact h5
      · rename_i h7e
        have h7 : Keeps s0 _ := keeps_of_eq h7e (by
          refine State.culWrite_keeps ?_
          · exact h3
          )
        refine keepsP_mk ?_
        exact h7
    · refine keepsP_mk ?_
      exact h3
  · rename_i h12e
    have h12 : Keeps s0 _ := keeps_of_eq h12e (by
      refine State.check_keeps ?_
      · exact hp1
      )
    refine keepsP_mk ?_
    exact h12
  · rename_i h14e
    have h14 : Keeps s0 _ := keeps_of_eq h14e (by
      refine State.check_keeps ?_
      · exact hp1
      )
    refine keepsP_mk ?_
    exact h14
  · rename_i h16e
    have h16 : Keeps s0 _ := keeps_of_eq h16e (by
      refine State.check_keeps ?_
      · exact hp1
      )
    refine keepsP_mk ?_
    exact h16

theorem State.memRead_keeps {s0 : State} {p1 : Machine.State} {p2 : Requester} {p3 : AccKind} {p4 : Nat} {p5 : Nat} (hp1 : Keeps s0 (p1)) : Keeps s0 (@State.memRead p1 p2 p3 p4 p5).2 := by
  unfold State.memRead
  split
  · rename_i h3e
    have h3 : Keeps s0 _ := keeps_of_eq h3e (by
      refine State.check_keeps ?_
      · exact hp1
      )
    refine State.targetRead_keeps ?_
    · exact h3
  · rename_i h8e
    have h8 : Keeps s0 _ := keeps_of_eq h8e (by
      refine State.check_keeps ?_
      · exact hp1
      )
    refine keepsP_mk ?_
    exact h8
  · rename_i h10e
    have h10 : Keeps s0 _ := keeps_of_eq h10e (by
      refine State.check_keeps ?_
      · exact hp1
      )
    refine keepsP_mk ?_
    exact h10
  · rename_i h12e
    have h12 : Keeps s0 _ := keeps_of_eq h12e (by
      refine State.check_keeps ?_
      · exact hp1
      )
    refine keepsP_mk ?_
    exact h12

theorem State.areaReadPieces_keeps {s0 s : State} {q : Requester} {l : List (Nat × Nat)} (h : Keeps s0 s) :
    Keeps s0 (s.areaReadPieces q l).2 := by
  induction l generalizing s with
  | nil => exact h
  | cons p t ih =>
    obtain ⟨a, n⟩ := p
    unfold State.areaReadPieces
    have h1 : Keeps s0 (s.memRead q .read a n).2 := State.memRead_keeps h
    split
    · rename_i d s1 e
      have h2 := keeps_of_eq e h1
      have h3 : Keeps s0 (s1.areaReadPieces q t).2 := ih h2
      split
      · rename_i e2; exact keeps_of_eq e2 h3
      · exact h3
    · exact h1

theorem State.areaRead_keeps {s0 : State} {p1 : Machine.State} {p2 : Requester} {p3 : Nat} {p4 : Nat} (hp1 : Keeps s0 (p1)) : Keeps s0 (@State.areaRead p1 p2 p3 p4).2 := by
  unfold State.areaRead
  refine State.areaReadPieces_keeps ?_
  · exact hp1

theorem State.areaWritePieces_keeps {s0 s : State} {q : Requester} {l : List (Nat × Nat)} {d : Octets} (h : Keeps s0 s) :
    Keeps s0 (s.areaWritePieces q l d).2 := by
  induction l generalizing s d with
  | nil => exact h
  | cons p t ih =>
    obtain ⟨a, n⟩ := p
    unfold State.areaWritePieces
    have h1 : Keeps s0 (s.memWrite q a (d.take n)).2 := State.memWrite_keeps h
    split
    · rename_i s1 e; exact ih (keeps_of_eq e h1)
    · exact h1

theorem State.areaWrite_keeps {s0 : State} {p1 : Machine.State} {p2 : Requester} {p3 : Nat} {p4 : Octets} (hp1 : Keeps s0 (p1)) : Keeps s0 (@State.areaWrite p1 p2 p3 p4).2 := by
  unfold State.areaWrite
  refine State.areaWritePieces_keeps ?_
  · exact hp1

end Sys2Proof.Machine
end

