-- ==== Sys2Proof/Laws/KeepsTideOps.lean ====
section
/-! SUPPORT. What the definitions of Sys2Proof/Machine/TideOps.lean keep: one lemma each, in the terms of `Keeps`. -/

namespace Sys2Proof.Machine

open Sys2Proof

theorem State.setTstate_keeps {s0 : State} {p1 : Machine.State} {p2 : Nat} {p3 : Nat} (hp1 : Keeps s0 (p1)) : Keeps s0 (@State.setTstate p1 p2 p3) := by
  unfold State.setTstate
  refine State.wr_keeps ?_
  · exact hp1

theorem State.discardOps_keeps {s0 : State} {p1 : Machine.State} {p2 : Nat} (hp1 : Keeps s0 (p1)) : Keeps s0 (@State.discardOps p1 p2) := by
  unfold State.discardOps
  exact keeps_upd hp1 rfl rfl rfl rfl rfl rfl rfl rfl rfl rfl rfl rfl (.inl rfl)

theorem State.setRing_keeps {s0 : State} {p1 : Machine.State} {p2 : Nat} {p3 : Ring} (hp1 : Keeps s0 (p1)) : Keeps s0 (@State.setRing p1 p2 p3) := by
  unfold State.setRing
  exact keeps_upd hp1 rfl rfl rfl rfl rfl rfl rfl rfl rfl rfl rfl rfl (.inl rfl)

theorem State.haltRing_keeps {s0 : State} {p1 : Machine.State} {p2 : Nat} {p3 : Field} (hp1 : Keeps s0 (p1)) : Keeps s0 (@State.haltRing p1 p2 p3) := by
  unfold State.haltRing
  refine State.raiseCause_keeps ?_
  · refine State.mark_keeps ?_
    · refine State.mark_keeps ?_
      · exact hp1

theorem State.recordLost_keeps {s0 : State} {p1 : Machine.State} {p2 : Nat} (hp1 : Keeps s0 (p1)) : Keeps s0 (@State.recordLost p1 p2) := by
  unfold State.recordLost
  refine State.haltRing_keeps ?_
  · refine State.satAdd_keeps ?_
    · exact hp1

theorem State.recordWritten_keeps {s0 : State} {p1 : Machine.State} {p2 : Nat} (hp1 : Keeps s0 (p1)) : Keeps s0 (@State.recordWritten p1 p2) := by
  unfold State.recordWritten
  extract_lets +onlyGivenNames -merge -underBinder x1
  try clear_value x1
  extract_lets +onlyGivenNames -merge -underBinder x2
  try clear_value x2
  extract_lets +onlyGivenNames -merge -underBinder x3
  have h4 : Keeps s0 (x3) := by
    unfold x3
    refine State.wr_keeps ?_
    · exact hp1
  clear_value x3
  apply keeps_gen x3 h4
  clear h4
  intro x3 h4
  extract_lets +onlyGivenNames -merge -underBinder x5
  have h6 : Keeps s0 (x5) := by
    unfold x5
    refine keeps_ite (fun _ => ?_) (fun _ => ?_)
    · refine State.wr_keeps ?_
      · exact h4
    · exact h4
  clear_value x5
  apply keeps_gen x5 h6
  clear h6
  intro x5 h6
  extract_lets +onlyGivenNames -merge -underBinder x7
  try clear_value x7
  extract_lets +onlyGivenNames -merge -underBinder x8
  try clear_value x8
  refine keeps_ite (fun _ => ?_) (fun _ => ?_)
  · refine State.sendVec_keeps ?_
    · refine State.setRing_keeps ?_
      · exact h6
  · refine State.setRing_keeps ?_
    · exact h6

theorem State.writeRecord_keeps {s0 : State} {p1 : Machine.State} {p2 : Nat} {p3 : Nat} {p4 : Nat} {p5 : Nat} {p6 : Nat} (hp1 : Keeps s0 (p1)) : Keeps s0 (@State.writeRecord p1 p2 p3 p4 p5 p6) := by
  unfold State.writeRecord
  refine keeps_ite (fun _ => ?_) (fun _ => ?_)
  · refine State.satAdd_keeps ?_
    · exact hp1
  · extract_lets +onlyGivenNames -merge -underBinder x1
    try clear_value x1
    extract_lets +onlyGivenNames -merge -underBinder x2
    have h3 : Keeps s0 (x2) := by
      unfold x2
      refine State.setRing_keeps ?_
      · exact hp1
    clear_value x2
    apply keeps_gen x2 h3
    clear h3
    intro x2 h3
    refine keeps_ite (fun _ => ?_) (fun _ => ?_)
    · refine State.satAdd_keeps ?_
      · exact h3
    · refine keeps_ite (fun _ => ?_) (fun _ => ?_)
      · refine State.recordLost_keeps ?_
        · exact h3
      · extract_lets +onlyGivenNames -merge -underBinder x4
        try clear_value x4
        extract_lets +onlyGivenNames -merge -underBinder x5
        try clear_value x5
        refine keeps_ite (fun _ => ?_) (fun _ => ?_)
        · split
          · rename_i h7e
            have h7 : Keeps s0 _ := keeps_of_eq h7e (by
              refine State.memWrite_keeps ?_
              · exact h3
              )
            refine State.recordWritten_keeps ?_
            · exact h7
          · rename_i h10e
            have h10 : Keeps s0 _ := keeps_of_eq h10e (by
              refine State.memWrite_keeps ?_
              · exact h3
              )
            refine State.recordLost_keeps ?_
            · exact h10
        · refine State.recordWritten_keeps ?_
          · refine State.emit_keeps ?_
            · exact h3

theorem State.abandonWork_keeps {s0 : State} {p1 : Machine.State} {p2 : Nat} {p3 : Nat} (hp1 : Keeps s0 (p1)) : Keeps s0 (@State.abandonWork p1 p2 p3) := by
  unfold State.abandonWork
  extract_lets +onlyGivenNames -merge -underBinder x1
  try clear_value x1
  extract_lets +onlyGivenNames -merge -underBinder x2
  have h3 : Keeps s0 (x2) := by
    unfold x2
    refine State.discardOps_keeps ?_
    · refine State.setThread_keeps ?_
      · exact hp1
  clear_value x2
  apply keeps_gen x2 h3
  clear h3
  intro x2 h3
  split
  · exact h3
  · refine State.writeRecord_keeps ?_
    · refine State.count_keeps ?_
      · exact h3
  · refine State.count_keeps ?_
    · exact h3

theorem State.takeTrap_keeps {s0 : State} {p1 : Machine.State} {p2 : Nat} {p3 : Nat} {p4 : Nat} {p5 : Nat} {p6 : Nat} (hp1 : Keeps s0 (p1)) : Keeps s0 (@State.takeTrap p1 p2 p3 p4 p5 p6) := by
  unfold State.takeTrap
  extract_lets +onlyGivenNames -merge -underBinder x1
  try clear_value x1
  extract_lets +onlyGivenNames -merge -underBinder x2
  try clear_value x2
  extract_lets +onlyGivenNames -merge -underBinder x3
  have h4 : Keeps s0 (x3) := by
    unfold x3
    refine State.setReg_keeps ?_
    · refine State.setReg_keeps ?_
      · refine State.setReg_keeps ?_
        · exact hp1
  clear_value x3
  apply keeps_gen x3 h4
  clear h4
  intro x3 h4
  extract_lets +onlyGivenNames -merge -underBinder x5
  have h6 : Keeps s0 (x5) := by
    unfold x5
    refine State.report_keeps ?_
    · refine State.count_keeps ?_
      · refine State.setTstate_keeps ?_
        · exact h4
  clear_value x5
  apply keeps_gen x5 h6
  clear h6
  intro x5 h6
  extract_lets +onlyGivenNames -merge -underBinder x7
  have h8 : Keeps s0 (x7) := by
    unfold x7
    refine keeps_ite (fun _ => ?_) (fun _ => ?_)
    · exact h6
    · refine State.raiseEvent_keeps ?_
      · exact h6
  clear_value x7
  apply keeps_gen x7 h8
  clear h8
  intro x7 h8
  refine State.abandonWork_keeps ?_
  · exact h8

theorem State.setPc_keeps {s0 : State} {p1 : Machine.State} {p2 : Nat} {p3 : Word} (hp1 : Keeps s0 (p1)) : Keeps s0 (@State.setPc p1 p2 p3) := by
  unfold State.setPc
  extract_lets +onlyGivenNames -merge -underBinder x1
  try clear_value x1
  refine State.setThread_keeps ?_
  · exact hp1

theorem State.step4_keeps {s0 : State} {p1 : Machine.State} {p2 : Nat} (hp1 : Keeps s0 (p1)) : Keeps s0 (@State.step4 p1 p2) := by
  unfold State.step4
  refine State.setPc_keeps ?_
  · exact hp1

theorem State.setTag_keeps {s0 : State} {p1 : Machine.State} {p2 : Nat} {p3 : Nat} {p4 : Tag} (hp1 : Keeps s0 (p1)) : Keeps s0 (@State.setTag p1 p2 p3 p4) := by
  unfold State.setTag
  extract_lets +onlyGivenNames -merge -underBinder x1
  try clear_value x1
  refine State.setThread_keeps ?_
  · exact hp1

theorem State.setHold_keeps {s0 : State} {p1 : Machine.State} {p2 : Nat} {p3 : Hold} (hp1 : Keeps s0 (p1)) : Keeps s0 (@State.setHold p1 p2 p3) := by
  unfold State.setHold
  extract_lets +onlyGivenNames -merge -underBinder x1
  try clear_value x1
  refine State.setThread_keeps ?_
  · exact hp1

theorem State.setG_keeps {s0 : State} {p1 : Machine.State} {p2 : Nat} {p3 : Nat} {p4 : Word} (hp1 : Keeps s0 (p1)) : Keeps s0 (@State.setG p1 p2 p3 p4) := by
  unfold State.setG
  refine keeps_ite (fun _ => ?_) (fun _ => ?_)
  · exact hp1
  · extract_lets +onlyGivenNames -merge -underBinder x1
    try clear_value x1
    refine State.setThread_keeps ?_
    · exact hp1

theorem State.resume_keeps {s0 : State} {p1 : Machine.State} {p2 : Nat} {p3 : Nat} {p4 : Word} (hp1 : Keeps s0 (p1)) : Keeps s0 (@State.resume p1 p2 p3 p4) := by
  unfold State.resume
  refine State.setTstate_keeps ?_
  · refine State.setHold_keeps ?_
    · refine State.step4_keeps ?_
      · refine State.setG_keeps ?_
        · exact hp1

end Sys2Proof.Machine
end

