-- ==== Sys2Proof/Laws/KeepsGauge.lean ====
section
/-! SUPPORT. What the definitions of Sys2Proof/Machine/Gauge.lean keep: one lemma each, in the terms of `Keeps`. -/

namespace Sys2Proof.Machine

open Sys2Proof

theorem State.waitgDone_keeps {s0 : State} {p1 : Machine.State} {p2 : Nat} {p3 : Bool} (hp1 : Keeps s0 (p1)) : Keeps s0 (@State.waitgDone p1 p2 p3) := by
  unfold State.waitgDone
  split
  · extract_lets +onlyGivenNames -merge -underBinder x1
    try clear_value x1
    extract_lets +onlyGivenNames -merge -underBinder x2
    have h3 : Keeps s0 (x2) := by
      unfold x2
      refine State.setThread_keeps ?_
      · exact hp1
    clear_value x2
    apply keeps_gen x2 h3
    clear h3
    intro x2 h3
    extract_lets +onlyGivenNames -merge -underBinder x4
    have h5 : Keeps s0 (x4) := by
      unfold x4
      refine keeps_ite (fun _ => ?_) (fun _ => ?_)
      · refine State.mark_keeps ?_
        · exact h3
      · exact h3
    clear_value x4
    apply keeps_gen x4 h5
    clear h5
    intro x4 h5
    refine State.resume_keeps ?_
    · exact h5
  · exact hp1

theorem State.compareWaits_keeps {s0 : State} {p1 : Machine.State} {p2 : Nat} {p3 : Word} (hp1 : Keeps s0 (p1)) : Keeps s0 (@State.compareWaits p1 p2 p3) := by
  unfold State.compareWaits
  refine keeps_foldl ?_ (fun a x ha => ?_)
  · exact hp1
  · skip
    split
    · refine keeps_ite (fun _ => ?_) (fun _ => ?_)
      · refine State.waitgDone_keeps ?_
        · exact ha
      · exact ha
    · exact ha

theorem State.latch_keeps {s0 : State} {p1 : Machine.State} {p2 : Master} {p3 : Nat} {p4 : Word} (hp1 : Keeps s0 (p1)) : Keeps s0 (@State.latch p1 p2 p3 p4) := by
  unfold State.latch
  exact keeps_upd hp1 rfl rfl rfl rfl rfl rfl rfl rfl rfl rfl rfl rfl (.inl rfl)

theorem State.latchGauge_keeps {s0 : State} {p1 : Machine.State} {p2 : Master} {p3 : Nat} (hp1 : Keeps s0 (p1)) : Keeps s0 (@State.latchGauge p1 p2 p3) := by
  unfold State.latchGauge
  refine State.latch_keeps ?_
  · refine State.latch_keeps ?_
    · refine State.latch_keeps ?_
      · exact hp1

theorem gauRecordWrite_keeps {s0 : State} {p1 : Machine.State} {p2 : Word} (hp1 : Keeps s0 (p1)) : Keeps s0 (@gauRecordWrite p1 p2) := by
  unfold gauRecordWrite
  extract_lets +onlyGivenNames -merge -underBinder x1
  have h2 : Keeps s0 (x1) := by
    unfold x1
    refine keeps_ite (fun _ => ?_) (fun _ => ?_)
    · refine State.unmark_keeps ?_
      · exact hp1
    · exact hp1
  clear_value x1
  apply keeps_gen x1 h2
  clear h2
  intro x1 h2
  refine keeps_ite (fun _ => ?_) (fun _ => ?_)
  · refine State.mark_keeps ?_
    · exact hp1
  · refine State.wr_keeps ?_
    · exact h2

theorem State.snapshot_keeps {s0 : State} {p1 : Machine.State} (hp1 : Keeps s0 (p1)) : Keeps s0 (@State.snapshot p1) := by
  unfold State.snapshot
  extract_lets +onlyGivenNames -merge -underBinder x1
  have h2 : Keeps s0 (x1) := by
    unfold x1
    refine keeps_foldl ?_ (fun a x ha => ?_)
    · exact hp1
    · skip
      refine State.setReg_keeps ?_
      · refine State.setReg_keeps ?_
        · exact ha
  clear_value x1
  apply keeps_gen x1 h2
  clear h2
  intro x1 h2
  refine State.wr_keeps ?_
  · exact h2

theorem execGauSnapctlTrig_keeps {s0 : State} {p1 : Word} {p2 : Machine.State} (hp2 : Keeps s0 (p2)) : KeepsO s0 (@execGauSnapctlTrig p1 p2) := by
  unfold execGauSnapctlTrig
  extract_lets +onlyGivenNames -merge -underBinder x1
  have h2 : Keeps s0 (x1) := by
    unfold x1
    refine State.wr_keeps ?_
    · exact hp2
  clear_value x1
  apply keeps_gen x1 h2
  clear h2
  intro x1 h2
  refine guardRsvd_keeps ?_
  · refine keepsO_next ?_
    refine keeps_ite (fun _ => ?_) (fun _ => ?_)
    · refine State.snapshot_keeps ?_
      · exact h2
    · exact h2

theorem State.farLose_keeps {s0 : State} {p1 : Machine.State} {p2 : Nat} (hp1 : Keeps s0 (p1)) : Keeps s0 (@State.farLose p1 p2) := by
  unfold State.farLose
  refine keeps_ite (fun _ => ?_) (fun _ => ?_)
  · refine State.raiseEvent_keeps ?_
    · refine State.mark_keeps ?_
      · extract_lets +onlyGivenNames -merge -underBinder x1
        have h2 : Keeps s0 (x1) := by
          unfold x1
          refine State.unmark_keeps ?_
          · exact hp1
        clear_value x1
        apply keeps_gen x1 h2
        clear h2
        intro x1 h2
        exact keeps_upd h2 rfl rfl rfl rfl rfl rfl rfl rfl rfl rfl rfl rfl (.inl rfl)
  · exact keeps_upd hp1 rfl rfl rfl rfl rfl rfl rfl rfl rfl rfl rfl rfl (.inl rfl)

theorem State.addEvent_keeps {s0 : State} {p1 : Machine.State} {p2 : PendEvent} (hp1 : Keeps s0 (p1)) : Keeps s0 (@State.addEvent p1 p2) := by
  unfold State.addEvent
  exact keeps_upd hp1 rfl rfl rfl rfl rfl rfl rfl rfl rfl rfl rfl rfl (.inl rfl)

theorem State.dumpMissed_keeps {s0 : State} {p1 : Machine.State} {p2 : Nat} {p3 : Nat} (hp1 : Keeps s0 (p1)) : Keeps s0 (@State.dumpMissed p1 p2 p3) := by
  unfold State.dumpMissed
  refine keeps_ite (fun _ => ?_) (fun _ => ?_)
  · exact hp1
  · refine State.count_keeps ?_
    · refine State.mark_keeps ?_
      · exact keeps_upd hp1 rfl rfl rfl rfl rfl rfl rfl rfl rfl rfl rfl rfl (.inl rfl)

theorem State.dumpDue_keeps {s0 : State} {p1 : Machine.State} {p2 : Nat} {p3 : Nat} {p4 : Word} {p5 : Bool} (hp1 : Keeps s0 (p1)) : Keeps s0 (@State.dumpDue p1 p2 p3 p4 p5) := by
  unfold State.dumpDue
  refine keeps_ite (fun _ => ?_) (fun _ => ?_)
  · refine State.dumpMissed_keeps ?_
    · exact hp1
  · split
    · exact keeps_upd hp1 rfl rfl rfl rfl rfl rfl rfl rfl rfl rfl rfl rfl (.inl rfl)

theorem State.scheduleAt_keeps {s0 : State} {p1 : Machine.State} {p2 : Nat} {p3 : Word} (hp1 : Keeps s0 (p1)) : Keeps s0 (@State.scheduleAt p1 p2 p3) := by
  unfold State.scheduleAt
  extract_lets +onlyGivenNames -merge -underBinder x1
  try clear_value x1
  extract_lets +onlyGivenNames -merge -underBinder x2
  have h3 : ∀ q4 q5, Keeps s0 (q4) → Keeps s0 (x2 q4 q5) := by
    intro q4 q5 hq4
    unfold x2
    refine State.addEvent_keeps ?_
    · exact hq4
  try clear_value x2
  extract_lets +onlyGivenNames -merge -underBinder x6
  try clear_value x6
  refine keeps_ite (fun _ => ?_) (fun _ => ?_)
  · extract_lets +onlyGivenNames -merge -underBinder x7
    try clear_value x7
    refine h3 _ _ ?_
    · refine State.dumpMissed_keeps ?_
      · refine State.dumpDue_keeps ?_
        · refine State.mark_keeps ?_
          · exact hp1
  · refine h3 _ _ ?_
    · exact hp1

theorem State.dispatchEvent_keeps {s0 : State} {p1 : Machine.State} {p2 : PendEvent} {p3 : Bool} (hp1 : Keeps s0 (p1)) : Keeps s0 (@State.dispatchEvent p1 p2 p3) := by
  unfold State.dispatchEvent
  extract_lets +onlyGivenNames -merge -underBinder x1
  have h2 : Keeps s0 (x1) := by
    unfold x1
    refine keeps_ite (fun _ => ?_) (fun _ => ?_)
    · refine State.mark_keeps ?_
      · exact hp1
    · exact hp1
  clear_value x1
  apply keeps_gen x1 h2
  clear h2
  intro x1 h2
  split
  · split
    · exact keeps_upd h2 rfl rfl rfl rfl rfl rfl rfl rfl rfl rfl rfl rfl (.inl rfl)
  · extract_lets +onlyGivenNames -merge -underBinder x3
    have h4 : Keeps s0 (x3) := by
      unfold x3
      refine State.dumpDue_keeps ?_
      · exact h2
    clear_value x3
    apply keeps_gen x3 h4
    clear h4
    intro x3 h4
    refine keeps_ite (fun _ => ?_) (fun _ => ?_)
    · refine State.scheduleAt_keeps ?_
      · exact h4
    · exact h4

theorem State.dispatchDue_keeps {s0 : State} {p1 : Machine.State} {p2 : Nat} {p3 : Word} {p4 : Word → Bool} (hp1 : Keeps s0 (p1)) : Keeps s0 (@State.dispatchDue p1 p2 p3 p4) := by
  unfold State.dispatchDue
  extract_lets +onlyGivenNames -merge -underBinder x1
  try clear_value x1
  extract_lets +onlyGivenNames -merge -underBinder x2
  try clear_value x2
  extract_lets +onlyGivenNames -merge -underBinder y4 x3
  try clear_value y4
  have h5 : Keeps s0 (x3) := by
    unfold x3
    exact keeps_upd hp1 rfl rfl rfl rfl rfl rfl rfl rfl rfl rfl rfl rfl (.inl rfl)
  clear_value x3
  apply keeps_gen x3 h5
  clear h5
  intro x3 h5
  refine keeps_foldl ?_ (fun a x ha => ?_)
  · exact h5
  · skip
    refine State.dispatchEvent_keeps ?_
    · exact ha

theorem State.compareFirst_keeps {s0 : State} {p1 : Machine.State} {p2 : Nat} {p3 : Word} (hp1 : Keeps s0 (p1)) : Keeps s0 (@State.compareFirst p1 p2 p3) := by
  unfold State.compareFirst
  refine State.compareWaits_keeps ?_
  · refine State.dispatchDue_keeps ?_
    · exact hp1

theorem execGaugeWordRx_keeps {s0 : State} {p1 : Group} {p2 : Octets} {p3 : Byte} {p4 : Nat} {p5 : Machine.State} (hp5 : Keeps s0 (p5)) : KeepsO s0 (@execGaugeWordRx p1 p2 p3 p4 p5) := by
  unfold execGaugeWordRx
  extract_lets +onlyGivenNames -merge -underBinder x1
  try clear_value x1
  extract_lets +onlyGivenNames -merge -underBinder x2
  try clear_value x2
  extract_lets +onlyGivenNames -merge -underBinder x3
  try clear_value x3
  extract_lets +onlyGivenNames -merge -underBinder x4
  have h5 : ∀ q6 q7, Keeps s0 (q7) → Keeps s0 (x4 q6 q7) := by
    intro q6 q7 hq7
    unfold x4
    exact keeps_upd hq7 rfl rfl rfl rfl rfl rfl rfl rfl rfl rfl rfl rfl (.inl rfl)
  try clear_value x4
  extract_lets +onlyGivenNames -merge -underBinder x8
  try clear_value x8
  extract_lets +onlyGivenNames -merge -underBinder x9
  have h10 : Keeps s0 (x9) := by
    unfold x9
    refine keeps_ite (fun _ => ?_) (fun _ => ?_)
    · refine State.setReg_keeps ?_
      · exact hp5
    · exact hp5
  clear_value x9
  apply keeps_gen x9 h10
  clear h10
  intro x9 h10
  refine keepsO_ite (fun _ => ?_) (fun _ => ?_)
  · refine keepsO_next ?_
    exact hp5
  · split
    · refine keepsO_next ?_
      refine State.count_keeps ?_
      · refine h5 _ _ ?_
        · exact h10
    · refine keepsO_ite (fun _ => ?_) (fun _ => ?_)
      · refine keepsO_ite (fun _ => ?_) (fun _ => ?_)
        · refine keepsO_next ?_
          refine h5 _ _ ?_
          · exact h10
        · extract_lets +onlyGivenNames -merge -underBinder x11
          have h12 : Keeps s0 (x11) := by
            unfold x11
            refine State.count_keeps ?_
            · exact h10
          clear_value x11
          apply keeps_gen x11 h12
          clear h12
          intro x11 h12
          refine keepsO_ite (fun _ => ?_) (fun _ => ?_)
          · refine keepsO_next ?_
            refine State.farLose_keeps ?_
            · exact h12
          · refine keepsO_next ?_
            refine h5 _ _ ?_
            · exact h12
      · refine keepsO_ite (fun _ => ?_) (fun _ => ?_)
        · extract_lets +onlyGivenNames -merge -underBinder x13
          try clear_value x13
          refine keepsO_next ?_
          refine State.compareFirst_keeps ?_
          · refine State.mark_keeps ?_
            · refine h5 _ _ ?_
              · refine State.setReg_keeps ?_
                · exact h10
        · refine keepsO_next ?_
          refine h5 _ _ ?_
          · exact h10

theorem execGauReadLatch_keeps {s0 : State} {p1 : Master} {p2 : Group} {p3 : Bool} {p4 : Machine.State} (hp4 : Keeps s0 (p4)) : KeepsO s0 (@execGauReadLatch p1 p2 p3 p4) := by
  unfold execGauReadLatch
  refine keepsO_next ?_
  refine State.emit_keeps ?_
  · refine State.latchGauge_keeps ?_
    · exact hp4

theorem execGaugeEventDue_keeps {s0 : State} {p1 : Nat} {p2 : Word} {p3 : Machine.State} (hp3 : Keeps s0 (p3)) : KeepsO s0 (@execGaugeEventDue p1 p2 p3) := by
  unfold execGaugeEventDue
  refine keepsO_ite (fun _ => ?_) (fun _ => ?_)
  · extract_lets +onlyGivenNames -merge -underBinder x1
    have h2 : Keeps s0 (x1) := by
      unfold x1
      refine keeps_ite (fun _ => ?_) (fun _ => ?_)
      · refine State.setReg_keeps ?_
        · exact hp3
      · refine State.setReg_keeps ?_
        · exact hp3
    clear_value x1
    apply keeps_gen x1 h2
    clear h2
    intro x1 h2
    refine keepsO_next ?_
    refine State.dispatchDue_keeps ?_
    · exact h2
  · refine keepsO_ite (fun _ => ?_) (fun _ => ?_)
    · exact keepsO_fault
    · refine keepsO_next ?_
      exact hp3

theorem execGauRecordWrite_keeps {s0 : State} {p1 : Word} {p2 : Machine.State} (hp2 : Keeps s0 (p2)) : KeepsO s0 (@execGauRecordWrite p1 p2) := by
  unfold execGauRecordWrite
  refine guardRsvd_keeps ?_
  · refine keepsO_next ?_
    refine gauRecordWrite_keeps ?_
    · exact hp2

theorem execBalWaitgDue_keeps {s0 : State} {p1 : ThreadNo} {p2 : Machine.State} (hp2 : Keeps s0 (p2)) : KeepsO s0 (@execBalWaitgDue p1 p2) := by
  unfold execBalWaitgDue
  split
  · refine keepsO_ite (fun _ => ?_) (fun _ => ?_)
    · refine keepsO_next ?_
      refine State.waitgDone_keeps ?_
      · exact hp2
    · refine keepsO_next ?_
      exact hp2
  · refine keepsO_next ?_
    exact hp2

end Sys2Proof.Machine
end

