-- ==== Sys2Proof/Laws/KeepsOperands.lean ====
section
/-! SUPPORT. What the definitions of Sys2Proof/Machine/Operands.lean keep: one lemma each, in the terms of `Keeps`. -/

namespace Sys2Proof.Machine

open Sys2Proof

theorem State.fetch_keeps {s0 : State} {p1 : Machine.State} {p2 : Nat} {p3 : optParam EccFind EccFind.good} (hp1 : Keeps s0 (p1)) : Keeps s0 (@State.fetch p1 p2 p3).2 := by
  unfold State.fetch
  split
  · rename_i h3e
    have h3 : Keeps s0 _ := keeps_of_eq h3e (by
      refine State.cachedRead_keeps ?_
      · exact hp1
      )
    refine keepsP_mk ?_
    exact h3
  · rename_i h5e
    have h5 : Keeps s0 _ := keeps_of_eq h5e (by
      refine State.cachedRead_keeps ?_
      · exact hp1
      )
    refine keepsP_mk ?_
    exact h5
  · rename_i h8e
    have h8 : Keeps s0 _ := keeps_of_eq h8e (by
      refine State.cachedRead_keeps ?_
      · exact hp1
      )
    refine keepsP_mk ?_
    exact h8

theorem State.fetchTrap_keeps {s0 : State} {p1 : Machine.State} {p2 : Nat} {p3 : Nat} (hp1 : Keeps s0 (p1)) : Keeps s0 (@State.fetchTrap p1 p2 p3) := by
  unfold State.fetchTrap
  split
  · rename_i h3e
    have h3 : Keeps s0 _ := keeps_of_eq h3e (by
      refine State.draw_keeps ?_
      · exact hp1
      )
    refine State.takeTrap_keeps ?_
    · exact h3

theorem State.engineIssue_keeps {s0 : State} {p1 : Machine.State} {p2 : Nat} {p3 : Nat} {p4 : Nat} (hp1 : Keeps s0 (p1)) : Keeps s0 (@State.engineIssue p1 p2 p3 p4).2 := by
  unfold State.engineIssue
  refine keepsP_ite (fun _ => ?_) (fun _ => ?_)
  · refine keepsP_mk ?_
    exact hp1
  · split
    · rename_i h3e
      have h3 : Keeps s0 _ := keeps_of_eq h3e (by
        refine State.areaRead_keeps ?_
        · exact hp1
        )
      refine keepsP_ite (fun _ => ?_) (fun _ => ?_)
      · refine keepsP_mk ?_
        exact h3
      · refine keepsP_ite (fun _ => ?_) (fun _ => ?_)
        · refine keepsP_mk ?_
          exact h3
        · refine keepsP_mk ?_
          exact h3
    · rename_i h6e
      have h6 : Keeps s0 _ := keeps_of_eq h6e (by
        refine State.areaRead_keeps ?_
        · exact hp1
        )
      refine keepsP_mk ?_
      exact h6

theorem State.sampleDropped_keeps {s0 : State} {p1 : Machine.State} (hp1 : Keeps s0 (p1)) : Keeps s0 (@State.sampleDropped p1) := by
  unfold State.sampleDropped
  refine State.count_keeps ?_
  · refine State.mark_keeps ?_
    · exact hp1

theorem State.sampleSlot_keeps {s0 : State} {p1 : Machine.State} {p2 : Nat} {p3 : Nat} {p4 : Nat} (hp1 : Keeps s0 (p1)) : Keeps s0 (@State.sampleSlot p1 p2 p3 p4) := by
  unfold State.sampleSlot
  refine keeps_ite (fun _ => ?_) (fun _ => ?_)
  · exact hp1
  · extract_lets +onlyGivenNames -merge -underBinder x1
    try clear_value x1
    refine keeps_ite (fun _ => ?_) (fun _ => ?_)
    · exact keeps_upd hp1 rfl rfl rfl rfl rfl rfl rfl rfl rfl rfl rfl rfl (.inl rfl)
    · extract_lets +onlyGivenNames -merge -underBinder y3 x2
      try clear_value y3
      have h4 : Keeps s0 (x2) := by
        unfold x2
        exact keeps_upd hp1 rfl rfl rfl rfl rfl rfl rfl rfl rfl rfl rfl rfl (.inl rfl)
      clear_value x2
      apply keeps_gen x2 h4
      clear h4
      intro x2 h4
      refine keeps_ite (fun _ => ?_) (fun _ => ?_)
      · refine State.sampleDropped_keeps ?_
        · exact h4
      · extract_lets +onlyGivenNames -merge -underBinder x5
        try clear_value x5
        exact keeps_upd h4 rfl rfl rfl rfl rfl rfl rfl rfl rfl rfl rfl rfl (.inl rfl)

theorem State.chargeSlot_keeps {s0 : State} {p1 : Machine.State} {p2 : Nat} {p3 : Nat} (hp1 : Keeps s0 (p1)) : Keeps s0 (@State.chargeSlot p1 p2 p3) := by
  unfold State.chargeSlot
  refine State.sampleSlot_keeps ?_
  · refine State.count_keeps ?_
    · refine State.count_keeps ?_
      · exact keeps_upd hp1 rfl rfl rfl rfl rfl rfl rfl rfl rfl rfl rfl rfl (.inl rfl)

theorem State.stallCycle_keeps {s0 : State} {p1 : Machine.State} {p2 : Nat} (hp1 : Keeps s0 (p1)) : Keeps s0 (@State.stallCycle p1 p2) := by
  unfold State.stallCycle
  refine keeps_ite (fun _ => ?_) (fun _ => ?_)
  · refine State.count_keeps ?_
    · exact hp1
  · exact hp1

theorem State.issued_keeps {s0 : State} {p1 : Machine.State} {p2 : Nat} (hp1 : Keeps s0 (p1)) : Keeps s0 (@State.issued p1 p2) := by
  unfold State.issued
  refine State.chargeSlot_keeps ?_
  · refine State.count_keeps ?_
    · refine State.stallCycle_keeps ?_
      · exact hp1

theorem State.launch_keeps {s0 : State} {p1 : Machine.State} {p2 : EngineOp} (hp1 : Keeps s0 (p1)) : Keeps s0 (@State.launch p1 p2) := by
  unfold State.launch
  refine State.count_keeps ?_
  · refine State.setTstate_keeps ?_
    · refine State.step4_keeps ?_
      · refine State.setTag_keeps ?_
        · exact keeps_upd hp1 rfl rfl rfl rfl rfl rfl rfl rfl rfl rfl rfl rfl (.inl rfl)

theorem State.engineTry_keeps {s0 s : State} {opc t tag rs : Nat} {want : Octets → Bool}
    {make : EngineOp → State → Host.Outcome (EngineOp × State) Fault Refusal} (h : Keeps s0 s)
    (hm : ∀ o a o' b, Keeps s0 a → make o a = .next (o', b) → Keeps s0 b) :
    KeepsO s0 (s.engineTry opc t tag rs want make) := by
  unfold State.engineTry
  extract_lets r
  refine keepsO_ite (fun _ => h) (fun _ => ?_)
  have h1 : Keeps s0 (s.fetch t).2 := State.fetch_keeps h
  split
  · rename_i e; exact State.fetchTrap_keeps (keeps_of_eq e h1)
  · rename_i s1 e
    have k1 := keeps_of_eq e h1
    refine keepsO_ite (fun _ => h) (fun _ => ?_)
    have h2 : Keeps s0 (s1.engineIssue t tag (s.g t rs).toNat).2 := State.engineIssue_keeps k1
    split
    · rename_i e; exact State.takeTrap_keeps (keeps_of_eq e h2)
    · rename_i e; exact State.setTstate_keeps (keeps_of_eq e h2)
    · rename_i e
      have k2 := keeps_of_eq e h2
      refine keepsO_ite (fun _ => h) (fun _ => ?_)
      extract_lets s3 x
      have k3 : Keeps s0 s3 := State.issued_keeps k2
      split
      · rename_i e; exact State.launch_keeps (hm _ _ _ _ k3 e)
      · trivial
      · trivial

theorem State.engineCall_keeps {s0 s : State} {opc t tag rs : Nat} {want : Octets → Bool}
    {make : EngineOp → State → EngineOp × State} (h : Keeps s0 s)
    (hm : ∀ o a, Keeps s0 a → Keeps s0 (make o a).2) : KeepsO s0 (s.engineCall opc t tag rs want make) := by
  unfold State.engineCall
  refine State.engineTry_keeps h (fun o a o' b ha e => ?_)
  cases e' : make o a with
  | mk x y =>
    simp only [e'] at e
    cases e
    have := hm o a ha
    rw [e'] at this
    exact this

theorem State.issue_keeps {s0 : State} {p1 : Machine.State} {p2 : Nat} {p3 : Nat} {p4 : Machine.State → Host.Outcome Machine.State Fault Refusal} {p5 : optParam EccFind EccFind.good} (hp1 : Keeps s0 (p1)) (hp4 : ∀ q0, Keeps s0 (q0) → KeepsO s0 (p4 q0)) : KeepsO s0 (@State.issue p1 p2 p3 p4 p5) := by
  unfold State.issue
  refine keepsO_ite (fun _ => ?_) (fun _ => ?_)
  · refine keepsO_next ?_
    exact hp1
  · split
    · rename_i h3e
      have h3 : Keeps s0 _ := keeps_of_eq h3e (by
        refine State.fetch_keeps ?_
        · exact hp1
        )
      refine keepsO_next ?_
      refine State.fetchTrap_keeps ?_
      · exact h3
    · rename_i h6e
      have h6 : Keeps s0 _ := keeps_of_eq h6e (by
        refine State.fetch_keeps ?_
        · exact hp1
        )
      refine keepsO_ite (fun _ => ?_) (fun _ => ?_)
      · refine hp4 _ ?_
        · refine State.issued_keeps ?_
          · exact h6
      · refine keepsO_next ?_
        exact hp1

theorem State.writeStep_keeps {s0 : State} {p1 : Machine.State} {p2 : Nat} {p3 : Nat} {p4 : Word} (hp1 : Keeps s0 (p1)) : Keeps s0 (@State.writeStep p1 p2 p3 p4) := by
  unfold State.writeStep
  refine State.step4_keeps ?_
  · refine State.setG_keeps ?_
    · exact hp1

end Sys2Proof.Machine
end

