-- ==== Sys2Proof/Laws/KeepsBalrid.lean ====
section
/-! SUPPORT. What the definitions of Sys2Proof/Machine/Balrid.lean keep: one lemma each, in the terms of `Keeps`. -/

namespace Sys2Proof.Machine

open Sys2Proof

theorem State.alu3_keeps {s0 : State} {p1 : Machine.State} {p2 : Nat} {p3 : Nat} {p4 : Nat} {p5 : Nat} {p6 : Nat} {p7 : Word → Word → Word} (hp1 : Keeps s0 (p1)) : KeepsO s0 (@State.alu3 p1 p2 p3 p4 p5 p6 p7) := by
  unfold State.alu3
  refine State.issue_keeps ?_ ?_
  · exact hp1
  · intro q1 hq1
    refine keepsO_next ?_
    refine State.writeStep_keeps ?_
    · exact hq1

theorem execBalMulhu_keeps {s0 : State} {p1 : ThreadNo} {p2 : GReg} {p3 : GReg} {p4 : GReg} {p5 : Machine.State} (hp5 : Keeps s0 (p5)) : KeepsO s0 (@execBalMulhu p1 p2 p3 p4 p5) := by
  unfold execBalMulhu
  refine State.alu3_keeps ?_
  · exact hp5

theorem State.alu2_keeps {s0 : State} {p1 : Machine.State} {p2 : Nat} {p3 : Nat} {p4 : Nat} {p5 : Nat} {p6 : Word → Word} (hp1 : Keeps s0 (p1)) : KeepsO s0 (@State.alu2 p1 p2 p3 p4 p5 p6) := by
  unfold State.alu2
  refine State.issue_keeps ?_ ?_
  · exact hp1
  · intro q1 hq1
    refine keepsO_next ?_
    refine State.writeStep_keeps ?_
    · exact hq1

theorem execBalShi_keeps {s0 : State} {p1 : ThreadNo} {p2 : GReg} {p3 : GReg} {p4 : BitVec 16} {p5 : Machine.State} (hp5 : Keeps s0 (p5)) : KeepsO s0 (@execBalShi p1 p2 p3 p4 p5) := by
  unfold execBalShi
  refine State.alu2_keeps ?_
  · exact hp5

theorem execBalSub_keeps {s0 : State} {p1 : ThreadNo} {p2 : GReg} {p3 : GReg} {p4 : GReg} {p5 : Machine.State} (hp5 : Keeps s0 (p5)) : KeepsO s0 (@execBalSub p1 p2 p3 p4 p5) := by
  unfold execBalSub
  refine State.alu3_keeps ?_
  · exact hp5

theorem execBalPopc_keeps {s0 : State} {p1 : ThreadNo} {p2 : GReg} {p3 : GReg} {p4 : Machine.State} (hp4 : Keeps s0 (p4)) : KeepsO s0 (@execBalPopc p1 p2 p3 p4) := by
  unfold execBalPopc
  refine State.alu2_keeps ?_
  · exact hp4

theorem execBalClz_keeps {s0 : State} {p1 : ThreadNo} {p2 : GReg} {p3 : GReg} {p4 : Machine.State} (hp4 : Keeps s0 (p4)) : KeepsO s0 (@execBalClz p1 p2 p3 p4) := by
  unfold execBalClz
  refine State.alu2_keeps ?_
  · exact hp4

theorem State.consumeTag_keeps {s0 : State} {p1 : Machine.State} {p2 : Nat} {p3 : Nat} (hp1 : Keeps s0 (p1)) : Keeps s0 (@State.consumeTag p1 p2 p3) := by
  unfold State.consumeTag
  extract_lets +onlyGivenNames -merge -underBinder x1
  try clear_value x1
  refine State.setThread_keeps ?_
  · exact hp1

theorem State.wakeOnTag_keeps {s0 : State} {p1 : Machine.State} {p2 : Nat} {p3 : Nat} {p4 : Word} (hp1 : Keeps s0 (p1)) : Keeps s0 (@State.wakeOnTag p1 p2 p3 p4) := by
  unfold State.wakeOnTag
  split
  · refine keeps_ite (fun _ => ?_) (fun _ => ?_)
    · refine State.resume_keeps ?_
      · refine State.consumeTag_keeps ?_
        · exact hp1
    · exact hp1
  · refine State.resume_keeps ?_
    · refine State.consumeTag_keeps ?_
      · exact hp1
  · exact hp1

theorem execBalGadv_keeps {s0 : State} {p1 : ThreadNo} {p2 : GReg} {p3 : GReg} {p4 : GReg} {p5 : Machine.State} (hp5 : Keeps s0 (p5)) : KeepsO s0 (@execBalGadv p1 p2 p3 p4 p5) := by
  unfold execBalGadv
  refine State.issue_keeps ?_ ?_
  · exact hp5
  · intro q1 hq1
    refine keepsO_ite (fun _ => ?_) (fun _ => ?_)
    · exact keepsO_fault
    · refine keepsO_next ?_
      refine State.writeStep_keeps ?_
      · exact hq1

theorem State.branch_keeps {s0 : State} {p1 : Machine.State} {p2 : Nat} {p3 : Nat} {p4 : Nat} {p5 : Nat} {p6 : BitVec 16} {p7 : Word → Word → Bool} (hp1 : Keeps s0 (p1)) : KeepsO s0 (@State.branch p1 p2 p3 p4 p5 p6 p7) := by
  unfold State.branch
  refine State.issue_keeps ?_ ?_
  · exact hp1
  · intro q1 hq1
    refine keepsO_ite (fun _ => ?_) (fun _ => ?_)
    · refine keepsO_next ?_
      refine State.setPc_keeps ?_
      · exact hq1
    · refine keepsO_next ?_
      refine State.step4_keeps ?_
      · exact hq1

theorem execBalBltu_keeps {s0 : State} {p1 : ThreadNo} {p2 : GReg} {p3 : GReg} {p4 : BitVec 16} {p5 : Machine.State} (hp5 : Keeps s0 (p5)) : KeepsO s0 (@execBalBltu p1 p2 p3 p4 p5) := by
  unfold execBalBltu
  refine State.branch_keeps ?_
  · exact hp5

theorem execBalBne_keeps {s0 : State} {p1 : ThreadNo} {p2 : GReg} {p3 : GReg} {p4 : BitVec 16} {p5 : Machine.State} (hp5 : Keeps s0 (p5)) : KeepsO s0 (@execBalBne p1 p2 p3 p4 p5) := by
  unfold execBalBne
  refine State.branch_keeps ?_
  · exact hp5

theorem execBalAddi_keeps {s0 : State} {p1 : ThreadNo} {p2 : GReg} {p3 : GReg} {p4 : BitVec 16} {p5 : Machine.State} (hp5 : Keeps s0 (p5)) : KeepsO s0 (@execBalAddi p1 p2 p3 p4 p5) := by
  unfold execBalAddi
  refine State.alu2_keeps ?_
  · exact hp5

theorem execBalRds_keeps {s0 : State} {p1 : ThreadNo} {p2 : GReg} {p3 : Fin 32} {p4 : Machine.State} (hp4 : Keeps s0 (p4)) : KeepsO s0 (@execBalRds p1 p2 p3 p4) := by
  unfold execBalRds
  refine State.issue_keeps ?_ ?_
  · exact hp4
  · intro q1 hq1
    extract_lets +onlyGivenNames -merge -underBinder x2
    have h3 : ∀ q4, KeepsO s0 (x2 q4) := by
      intro q4 
      unfold x2
      refine keepsO_next ?_
      refine State.writeStep_keeps ?_
      · exact hq1
    try clear_value x2
    split
    · exact h3 _
    · exact h3 _
    · exact h3 _
    · exact h3 _
    · exact h3 _
    · exact h3 _
    · exact h3 _
    · refine keepsO_next ?_
      refine State.takeTrap_keeps ?_
      · exact hq1

theorem execBalXor_keeps {s0 : State} {p1 : ThreadNo} {p2 : GReg} {p3 : GReg} {p4 : GReg} {p5 : Machine.State} (hp5 : Keeps s0 (p5)) : KeepsO s0 (@execBalXor p1 p2 p3 p4 p5) := by
  unfold execBalXor
  refine State.alu3_keeps ?_
  · exact hp5

theorem State.endJob_keeps {s0 : State} {p1 : Machine.State} {p2 : Nat} {p3 : Nat} (hp1 : Keeps s0 (p1)) : Keeps s0 (@State.endJob p1 p2 p3) := by
  unfold State.endJob
  extract_lets +onlyGivenNames -merge -underBinder x1
  try clear_value x1
  extract_lets +onlyGivenNames -merge -underBinder x2
  have h3 : Keeps s0 (x2) := by
    unfold x2
    refine State.setThread_keeps ?_
    · exact hp1
  clear_value x2
  apply keeps_gen x2 h3
  clear h3
  intro x2 h3
  split
  · refine State.setTstate_keeps ?_
    · refine State.writeRecord_keeps ?_
      · exact h3
  · refine State.setTstate_keeps ?_
    · exact h3
  · refine State.setTstate_keeps ?_
    · exact h3

theorem execBalEndDone_keeps {s0 : State} {p1 : ThreadNo} {p2 : Machine.State} (hp2 : Keeps s0 (p2)) : KeepsO s0 (@execBalEndDone p1 p2) := by
  unfold execBalEndDone
  split
  · refine keepsO_ite (fun _ => ?_) (fun _ => ?_)
    · refine keepsO_next ?_
      refine State.endJob_keeps ?_
      · exact hp2
    · refine keepsO_next ?_
      exact hp2
  · refine keepsO_next ?_
    exact hp2

theorem execBalAndi_keeps {s0 : State} {p1 : ThreadNo} {p2 : GReg} {p3 : GReg} {p4 : BitVec 16} {p5 : Machine.State} (hp5 : Keeps s0 (p5)) : KeepsO s0 (@execBalAndi p1 p2 p3 p4 p5) := by
  unfold execBalAndi
  refine State.alu2_keeps ?_
  · exact hp5

theorem execBalSrl_keeps {s0 : State} {p1 : ThreadNo} {p2 : GReg} {p3 : GReg} {p4 : GReg} {p5 : Machine.State} (hp5 : Keeps s0 (p5)) : KeepsO s0 (@execBalSrl p1 p2 p3 p4 p5) := by
  unfold execBalSrl
  refine State.alu3_keeps ?_
  · exact hp5

theorem execBalIllegalInstruction_keeps {s0 : State} {p1 : ThreadNo} {p2 : BitVec 32} {p3 : Machine.State} (hp3 : Keeps s0 (p3)) : KeepsO s0 (@execBalIllegalInstruction p1 p2 p3) := by
  unfold execBalIllegalInstruction
  refine keepsO_ite (fun _ => ?_) (fun _ => ?_)
  · refine keepsO_next ?_
    exact hp3
  · refine State.issue_keeps ?_ ?_
    · exact hp3
    · intro q1 hq1
      refine keepsO_next ?_
      refine State.takeTrap_keeps ?_
      · exact hq1

theorem execBalAnd_keeps {s0 : State} {p1 : ThreadNo} {p2 : GReg} {p3 : GReg} {p4 : GReg} {p5 : Machine.State} (hp5 : Keeps s0 (p5)) : KeepsO s0 (@execBalAnd p1 p2 p3 p4 p5) := by
  unfold execBalAnd
  refine State.alu3_keeps ?_
  · exact hp5

theorem execBalBeq_keeps {s0 : State} {p1 : ThreadNo} {p2 : GReg} {p3 : GReg} {p4 : BitVec 16} {p5 : Machine.State} (hp5 : Keeps s0 (p5)) : KeepsO s0 (@execBalBeq p1 p2 p3 p4 p5) := by
  unfold execBalBeq
  refine State.branch_keeps ?_
  · exact hp5

theorem execBalXori_keeps {s0 : State} {p1 : ThreadNo} {p2 : GReg} {p3 : GReg} {p4 : BitVec 16} {p5 : Machine.State} (hp5 : Keeps s0 (p5)) : KeepsO s0 (@execBalXori p1 p2 p3 p4 p5) := by
  unfold execBalXori
  refine State.alu2_keeps ?_
  · exact hp5

theorem execBalBlt_keeps {s0 : State} {p1 : ThreadNo} {p2 : GReg} {p3 : GReg} {p4 : BitVec 16} {p5 : Machine.State} (hp5 : Keeps s0 (p5)) : KeepsO s0 (@execBalBlt p1 p2 p3 p4 p5) := by
  unfold execBalBlt
  refine State.branch_keeps ?_
  · exact hp5

theorem execBalSra_keeps {s0 : State} {p1 : ThreadNo} {p2 : GReg} {p3 : GReg} {p4 : GReg} {p5 : Machine.State} (hp5 : Keeps s0 (p5)) : KeepsO s0 (@execBalSra p1 p2 p3 p4 p5) := by
  unfold execBalSra
  refine State.alu3_keeps ?_
  · exact hp5

theorem execBalSltu_keeps {s0 : State} {p1 : ThreadNo} {p2 : GReg} {p3 : GReg} {p4 : GReg} {p5 : Machine.State} (hp5 : Keeps s0 (p5)) : KeepsO s0 (@execBalSltu p1 p2 p3 p4 p5) := by
  unfold execBalSltu
  refine State.alu3_keeps ?_
  · exact hp5

theorem execBalSltw_keeps {s0 : State} {p1 : ThreadNo} {p2 : GReg} {p3 : GReg} {p4 : GReg} {p5 : Machine.State} (hp5 : Keeps s0 (p5)) : KeepsO s0 (@execBalSltw p1 p2 p3 p4 p5) := by
  unfold execBalSltw
  refine State.alu3_keeps ?_
  · exact hp5

theorem execBalOri_keeps {s0 : State} {p1 : ThreadNo} {p2 : GReg} {p3 : GReg} {p4 : BitVec 16} {p5 : Machine.State} (hp5 : Keeps s0 (p5)) : KeepsO s0 (@execBalOri p1 p2 p3 p4 p5) := by
  unfold execBalOri
  refine State.alu2_keeps ?_
  · exact hp5

theorem execBalGread_keeps {s0 : State} {p1 : ThreadNo} {p2 : GReg} {p3 : Fin 64} {p4 : Machine.State} (hp4 : Keeps s0 (p4)) : KeepsO s0 (@execBalGread p1 p2 p3 p4) := by
  unfold execBalGread
  refine State.issue_keeps ?_ ?_
  · exact hp4
  · intro q1 hq1
    refine keepsO_ite (fun _ => ?_) (fun _ => ?_)
    · refine keepsO_next ?_
      refine State.writeStep_keeps ?_
      · exact hq1
    · refine keepsO_next ?_
      refine State.takeTrap_keeps ?_
      · exact hq1

theorem execBalAdd_keeps {s0 : State} {p1 : ThreadNo} {p2 : GReg} {p3 : GReg} {p4 : GReg} {p5 : Machine.State} (hp5 : Keeps s0 (p5)) : KeepsO s0 (@execBalAdd p1 p2 p3 p4 p5) := by
  unfold execBalAdd
  refine State.alu3_keeps ?_
  · exact hp5

theorem execBalOr_keeps {s0 : State} {p1 : ThreadNo} {p2 : GReg} {p3 : GReg} {p4 : GReg} {p5 : Machine.State} (hp5 : Keeps s0 (p5)) : KeepsO s0 (@execBalOr p1 p2 p3 p4 p5) := by
  unfold execBalOr
  refine State.alu3_keeps ?_
  · exact hp5

theorem execBalSll_keeps {s0 : State} {p1 : ThreadNo} {p2 : GReg} {p3 : GReg} {p4 : GReg} {p5 : Machine.State} (hp5 : Keeps s0 (p5)) : KeepsO s0 (@execBalSll p1 p2 p3 p4 p5) := by
  unfold execBalSll
  refine State.alu3_keeps ?_
  · exact hp5

theorem execBalMul_keeps {s0 : State} {p1 : ThreadNo} {p2 : GReg} {p3 : GReg} {p4 : GReg} {p5 : Machine.State} (hp5 : Keeps s0 (p5)) : KeepsO s0 (@execBalMul p1 p2 p3 p4 p5) := by
  unfold execBalMul
  refine State.alu3_keeps ?_
  · exact hp5

theorem execBalSlt_keeps {s0 : State} {p1 : ThreadNo} {p2 : GReg} {p3 : GReg} {p4 : GReg} {p5 : Machine.State} (hp5 : Keeps s0 (p5)) : KeepsO s0 (@execBalSlt p1 p2 p3 p4 p5) := by
  unfold execBalSlt
  refine State.alu3_keeps ?_
  · exact hp5

theorem State.shiftImm_keeps {s0 : State} {p1 : Machine.State} {p2 : Nat} {p3 : Nat} {p4 : Nat} {p5 : Nat} {p6 : BitVec 16} {p7 : Word → Nat → Word} (hp1 : Keeps s0 (p1)) : KeepsO s0 (@State.shiftImm p1 p2 p3 p4 p5 p6 p7) := by
  unfold State.shiftImm
  refine State.issue_keeps ?_ ?_
  · exact hp1
  · intro q1 hq1
    refine keepsO_ite (fun _ => ?_) (fun _ => ?_)
    · refine keepsO_next ?_
      refine State.takeTrap_keeps ?_
      · exact hq1
    · refine keepsO_next ?_
      refine State.writeStep_keeps ?_
      · exact hq1

theorem execBalSlli_keeps {s0 : State} {p1 : ThreadNo} {p2 : GReg} {p3 : GReg} {p4 : BitVec 16} {p5 : Machine.State} (hp5 : Keeps s0 (p5)) : KeepsO s0 (@execBalSlli p1 p2 p3 p4 p5) := by
  unfold execBalSlli
  refine State.shiftImm_keeps ?_
  · exact hp5

theorem execBalSrli_keeps {s0 : State} {p1 : ThreadNo} {p2 : GReg} {p3 : GReg} {p4 : BitVec 16} {p5 : Machine.State} (hp5 : Keeps s0 (p5)) : KeepsO s0 (@execBalSrli p1 p2 p3 p4 p5) := by
  unfold execBalSrli
  refine State.shiftImm_keeps ?_
  · exact hp5

theorem execBalSrai_keeps {s0 : State} {p1 : ThreadNo} {p2 : GReg} {p3 : GReg} {p4 : BitVec 16} {p5 : Machine.State} (hp5 : Keeps s0 (p5)) : KeepsO s0 (@execBalSrai p1 p2 p3 p4 p5) := by
  unfold execBalSrai
  refine State.shiftImm_keeps ?_
  · exact hp5

theorem execBalBge_keeps {s0 : State} {p1 : ThreadNo} {p2 : GReg} {p3 : GReg} {p4 : BitVec 16} {p5 : Machine.State} (hp5 : Keeps s0 (p5)) : KeepsO s0 (@execBalBge p1 p2 p3 p4 p5) := by
  unfold execBalBge
  refine State.branch_keeps ?_
  · exact hp5

theorem execBalBgeu_keeps {s0 : State} {p1 : ThreadNo} {p2 : GReg} {p3 : GReg} {p4 : BitVec 16} {p5 : Machine.State} (hp5 : Keeps s0 (p5)) : KeepsO s0 (@execBalBgeu p1 p2 p3 p4 p5) := by
  unfold execBalBgeu
  refine State.branch_keeps ?_
  · exact hp5

theorem execBalJal_keeps {s0 : State} {p1 : ThreadNo} {p2 : GReg} {p3 : Fin 32} {p4 : BitVec 16} {p5 : Machine.State} (hp5 : Keeps s0 (p5)) : KeepsO s0 (@execBalJal p1 p2 p3 p4 p5) := by
  unfold execBalJal
  refine State.issue_keeps ?_ ?_
  · exact hp5
  · intro q1 hq1
    extract_lets +onlyGivenNames -merge -underBinder x2
    try clear_value x2
    extract_lets +onlyGivenNames -merge -underBinder x3
    try clear_value x3
    refine keepsO_next ?_
    refine State.setPc_keeps ?_
    · refine State.setG_keeps ?_
      · exact hq1

theorem execBalJalr_keeps {s0 : State} {p1 : ThreadNo} {p2 : GReg} {p3 : GReg} {p4 : BitVec 16} {p5 : Machine.State} (hp5 : Keeps s0 (p5)) : KeepsO s0 (@execBalJalr p1 p2 p3 p4 p5) := by
  unfold execBalJalr
  refine State.issue_keeps ?_ ?_
  · exact hp5
  · intro q1 hq1
    extract_lets +onlyGivenNames -merge -underBinder x2
    try clear_value x2
    refine keepsO_ite (fun _ => ?_) (fun _ => ?_)
    · refine keepsO_next ?_
      refine State.takeTrap_keeps ?_
      · exact hq1
    · refine keepsO_next ?_
      refine State.setPc_keeps ?_
      · refine State.setG_keeps ?_
        · exact hq1

theorem execBalTrap_keeps {s0 : State} {p1 : ThreadNo} {p2 : BitVec 16} {p3 : Machine.State} (hp3 : Keeps s0 (p3)) : KeepsO s0 (@execBalTrap p1 p2 p3) := by
  unfold execBalTrap
  refine State.issue_keeps ?_ ?_
  · exact hp3
  · intro q1 hq1
    refine keepsO_next ?_
    refine State.takeTrap_keeps ?_
    · exact hq1

theorem execBalEnd_keeps {s0 : State} {p1 : ThreadNo} {p2 : GReg} {p3 : Machine.State} (hp3 : Keeps s0 (p3)) : KeepsO s0 (@execBalEnd p1 p2 p3) := by
  unfold execBalEnd
  refine State.issue_keeps ?_ ?_
  · exact hp3
  · intro q1 hq1
    extract_lets +onlyGivenNames -merge -underBinder x2
    try clear_value x2
    refine keepsO_ite (fun _ => ?_) (fun _ => ?_)
    · refine keepsO_next ?_
      refine State.endJob_keeps ?_
      · exact hq1
    · refine keepsO_next ?_
      refine State.setTstate_keeps ?_
      · refine State.setHold_keeps ?_
        · exact hq1

theorem execBalFence_keeps {s0 : State} {p1 : ThreadNo} {p2 : Machine.State} (hp2 : Keeps s0 (p2)) : KeepsO s0 (@execBalFence p1 p2) := by
  unfold execBalFence
  refine State.issue_keeps ?_ ?_
  · exact hp2
  · intro q1 hq1
    refine keepsO_next ?_
    refine State.setHold_keeps ?_
    · exact hq1

theorem execBalFenceDone_keeps {s0 : State} {p1 : ThreadNo} {p2 : Machine.State} (hp2 : Keeps s0 (p2)) : KeepsO s0 (@execBalFenceDone p1 p2) := by
  unfold execBalFenceDone
  split
  · refine keepsO_next ?_
    refine State.setHold_keeps ?_
    · refine State.step4_keeps ?_
      · exact hp2
  · refine keepsO_next ?_
    exact hp2

theorem execBalFenceC_keeps {s0 : State} {p1 : ThreadNo} {p2 : GReg} {p3 : Machine.State} (hp3 : Keeps s0 (p3)) : KeepsO s0 (@execBalFenceC p1 p2 p3) := by
  unfold execBalFenceC
  refine State.issue_keeps ?_ ?_
  · exact hp3
  · intro q1 hq1
    refine keepsO_next ?_
    refine State.setHold_keeps ?_
    · exact hq1

theorem execBalWaitg_keeps {s0 : State} {p1 : ThreadNo} {p2 : GReg} {p3 : GReg} {p4 : Fin 64} {p5 : Machine.State} (hp5 : Keeps s0 (p5)) : KeepsO s0 (@execBalWaitg p1 p2 p3 p4 p5) := by
  unfold execBalWaitg
  refine State.issue_keeps ?_ ?_
  · exact hp5
  · intro q1 hq1
    refine keepsO_ite (fun _ => ?_) (fun _ => ?_)
    · refine keepsO_next ?_
      refine State.takeTrap_keeps ?_
      · exact hq1
    · extract_lets +onlyGivenNames -merge -underBinder x2
      try clear_value x2
      refine keepsO_ite (fun _ => ?_) (fun _ => ?_)
      · exact keepsO_fault
      · extract_lets +onlyGivenNames -merge -underBinder x3
        try clear_value x3
        refine keepsO_ite (fun _ => ?_) (fun _ => ?_)
        · refine keepsO_next ?_
          refine State.writeStep_keeps ?_
          · refine State.mark_keeps ?_
            · exact hq1
        · extract_lets +onlyGivenNames -merge -underBinder x4
          try clear_value x4
          refine keepsO_next ?_
          refine State.setTstate_keeps ?_
          · refine State.setThread_keeps ?_
            · exact hq1

theorem execBalAtg_keeps {s0 : State} {p1 : ThreadNo} {p2 : GReg} {p3 : GReg} {p4 : GReg} {p5 : Fin 64} {p6 : Machine.State} (hp6 : Keeps s0 (p6)) : KeepsO s0 (@execBalAtg p1 p2 p3 p4 p5 p6) := by
  unfold execBalAtg
  refine State.issue_keeps ?_ ?_
  · exact hp6
  · intro q1 hq1
    extract_lets +onlyGivenNames -merge -underBinder x2
    try clear_value x2
    refine keepsO_ite (fun _ => ?_) (fun _ => ?_)
    · refine keepsO_next ?_
      refine State.takeTrap_keeps ?_
      · exact hq1
    · extract_lets +onlyGivenNames -merge -underBinder x3
      try clear_value x3
      extract_lets +onlyGivenNames -merge -underBinder x4
      try clear_value x4
      refine keepsO_ite (fun _ => ?_) (fun _ => ?_)
      · refine keepsO_next ?_
        refine State.takeTrap_keeps ?_
        · exact hq1
      · refine keepsO_ite (fun _ => ?_) (fun _ => ?_)
        · exact keepsO_fault
        · refine keepsO_ite (fun _ => ?_) (fun _ => ?_)
          · refine keepsO_next ?_
            refine State.writeStep_keeps ?_
            · exact hq1
          · extract_lets +onlyGivenNames -merge -underBinder x5
            try clear_value x5
            extract_lets +onlyGivenNames -merge -underBinder x6
            try clear_value x6
            extract_lets +onlyGivenNames -merge -underBinder x7
            try clear_value x7
            extract_lets +onlyGivenNames -merge -underBinder x8
            try clear_value x8
            refine keepsO_ite (fun _ => ?_) (fun _ => ?_)
            · refine keepsO_next ?_
              refine State.writeStep_keeps ?_
              · refine State.dispatchEvent_keeps ?_
                · exact hq1
            · refine keepsO_next ?_
              refine State.writeStep_keeps ?_
              · refine State.addEvent_keeps ?_
                · exact hq1

theorem execBalGdist_keeps {s0 : State} {p1 : ThreadNo} {p2 : GReg} {p3 : GReg} {p4 : GReg} {p5 : Machine.State} (hp5 : Keeps s0 (p5)) : KeepsO s0 (@execBalGdist p1 p2 p3 p4 p5) := by
  unfold execBalGdist
  refine State.issue_keeps ?_ ?_
  · exact hp5
  · intro q1 hq1
    refine keepsO_ite (fun _ => ?_) (fun _ => ?_)
    · exact keepsO_fault
    · refine keepsO_next ?_
      refine State.writeStep_keeps ?_
      · exact hq1

theorem execBalWaitc_keeps {s0 : State} {p1 : ThreadNo} {p2 : GReg} {p3 : BitVec 8} {p4 : Machine.State} (hp4 : Keeps s0 (p4)) : KeepsO s0 (@execBalWaitc p1 p2 p3 p4) := by
  unfold execBalWaitc
  refine State.issue_keeps ?_ ?_
  · exact hp4
  · intro q1 hq1
    split
    · refine keepsO_next ?_
      refine State.writeStep_keeps ?_
      · refine State.consumeTag_keeps ?_
        · exact hq1
    · refine keepsO_next ?_
      refine State.setTstate_keeps ?_
      · refine State.setHold_keeps ?_
        · exact hq1
    · refine keepsO_next ?_
      refine State.writeStep_keeps ?_
      · exact hq1

theorem execBalWaitcAny_keeps {s0 : State} {p1 : ThreadNo} {p2 : GReg} {p3 : Machine.State} (hp3 : Keeps s0 (p3)) : KeepsO s0 (@execBalWaitcAny p1 p2 p3) := by
  unfold execBalWaitcAny
  refine State.issue_keeps ?_ ?_
  · exact hp3
  · intro q1 hq1
    split
    · split
      · refine keepsO_next ?_
        refine State.writeStep_keeps ?_
        · refine State.consumeTag_keeps ?_
          · exact hq1
      · refine keepsO_next ?_
        refine State.writeStep_keeps ?_
        · exact hq1
    · refine keepsO_ite (fun _ => ?_) (fun _ => ?_)
      · refine keepsO_next ?_
        refine State.writeStep_keeps ?_
        · exact hq1
      · refine keepsO_next ?_
        refine State.setTstate_keeps ?_
        · refine State.setHold_keeps ?_
          · exact hq1

end Sys2Proof.Machine
end

