-- ==== Sys2Proof/Laws/KeepsRecords.lean ====
section
/-! SUPPORT. What the definitions of Sys2Proof/Machine/Records.lean keep: one lemma each, in the terms of `Keeps`. -/

namespace Sys2Proof.Machine

open Sys2Proof

theorem State.setRword_keeps {s0 s : State} {k : RecKind} {i w : Nat} {v : Word} (h : Keeps s0 s) :
    Keeps s0 (s.setRword k i w v) :=
  keeps_tables h rfl rfl rfl rfl rfl rfl rfl (fun x => ⟨x.1, Tbl.rising_set x.2.1, x.2.2⟩) rfl

theorem State.rwr_keeps {s0 : State} {p1 : Machine.State} {p2 : RField} {p3 : Nat} {p4 : Nat} (hp1 : Keeps s0 (p1)) : Keeps s0 (@State.rwr p1 p2 p3 p4) := by
  unfold State.rwr
  refine State.setRword_keeps ?_
  · exact hp1

theorem State.recStore_keeps {s0 : State} {p1 : Machine.State} {p2 : RecKind} {p3 : Nat} {p4 : List Word} {p5 : Nat → Bool} (hp1 : Keeps s0 (p1)) : Keeps s0 (@State.recStore p1 p2 p3 p4 p5) := by
  unfold State.recStore
  refine keeps_foldl ?_ (fun a x ha => ?_)
  · exact hp1
  · skip
    refine keeps_ite (fun _ => ?_) (fun _ => ?_)
    · exact ha
    · split
      · refine State.rwr_keeps ?_
        · exact ha
      · refine State.rwr_keeps ?_
        · exact ha
      · exact ha

theorem State.recReset_keeps {s0 : State} {p1 : Machine.State} {p2 : RecKind} {p3 : Nat} (hp1 : Keeps s0 (p1)) : Keeps s0 (@State.recReset p1 p2 p3) := by
  unfold State.recReset
  refine keeps_foldl ?_ (fun a x ha => ?_)
  · exact hp1
  · skip
    refine State.setRword_keeps ?_
    · exact ha

end Sys2Proof.Machine
end

