-- ==== Sys2Proof/Laws/KeepsKeyOps.lean ====
section
/-! SUPPORT. What the definitions of Sys2Proof/Machine/KeyOps.lean keep: one lemma each, in the terms of `Keeps`. -/

namespace Sys2Proof.Machine

open Sys2Proof

theorem State.setKslot_keeps {s0 : State} {p1 : Machine.State} {p2 : Nat} {p3 : Nat} {p4 : KeySlot} (hp1 : Keeps s0 (p1)) : Keeps s0 (@State.setKslot p1 p2 p3 p4) := by
  unfold State.setKslot
  extract_lets +onlyGivenNames -merge -underBinder x1
  try clear_value x1
  exact keeps_upd hp1 rfl rfl rfl rfl rfl rfl rfl rfl rfl rfl rfl rfl (.inl rfl)

theorem State.cancelScSwitch_keeps {s0 : State} {p1 : Machine.State} {p2 : Nat} (hp1 : Keeps s0 (p1)) : Keeps s0 (@State.cancelScSwitch p1 p2) := by
  unfold State.cancelScSwitch
  refine keeps_ite (fun _ => ?_) (fun _ => ?_)
  · refine State.count_keeps ?_
    · refine State.rwr_keeps ?_
      · exact hp1
  · exact hp1

theorem State.cancelL1Switch_keeps {s0 : State} {p1 : Machine.State} {p2 : Nat} (hp1 : Keeps s0 (p1)) : Keeps s0 (@State.cancelL1Switch p1 p2) := by
  unfold State.cancelL1Switch
  refine keeps_ite (fun _ => ?_) (fun _ => ?_)
  · refine State.count_keeps ?_
    · refine State.rwr_keeps ?_
      · exact hp1
  · exact hp1

theorem State.cancelSwitches_keeps {s0 : State} {p1 : Machine.State} (hp1 : Keeps s0 (p1)) : Keeps s0 (@State.cancelSwitches p1) := by
  unfold State.cancelSwitches
  extract_lets +onlyGivenNames -merge -underBinder x1
  have h2 : Keeps s0 (x1) := by
    unfold x1
    refine keeps_foldl ?_ (fun a x ha => ?_)
    · exact hp1
    · skip
      refine State.cancelScSwitch_keeps ?_
      · exact ha
  clear_value x1
  apply keeps_gen x1 h2
  clear h2
  intro x1 h2
  refine keeps_foldl ?_ (fun a x ha => ?_)
  · exact h2
  · skip
    refine State.cancelL1Switch_keeps ?_
    · exact ha

theorem State.zeroKeys_keeps {s0 : State} {p1 : Machine.State} (hp1 : Keeps s0 (p1)) : Keeps s0 (@State.zeroKeys p1) := by
  unfold State.zeroKeys
  extract_lets +onlyGivenNames -merge -underBinder x1
  have h2 : Keeps s0 (x1) := by
    unfold x1
    refine keeps_foldl ?_ (fun a x ha => ?_)
    · exact hp1
    · skip
      extract_lets +onlyGivenNames -merge -underBinder x3
      try clear_value x3
      refine State.setKslot_keeps ?_
      · exact ha
  clear_value x1
  apply keeps_gen x1 h2
  clear h2
  intro x1 h2
  refine State.cancelSwitches_keeps ?_
  · exact keeps_upd h2 rfl rfl rfl rfl rfl rfl rfl rfl rfl rfl rfl rfl (.inl rfl)

theorem State.wipeCistern_keeps {s0 : State} {p1 : Machine.State} (hp1 : Keeps s0 (p1)) : Keeps s0 (@State.wipeCistern p1) := by
  unfold State.wipeCistern
  refine State.setReg_keeps ?_
  · exact keeps_upd hp1 rfl rfl rfl rfl rfl rfl rfl rfl rfl rfl rfl rfl (.inl rfl)

theorem State.freeWay_keeps {s0 : State} {p1 : Machine.State} {p2 : Nat} (hp1 : Keeps s0 (p1)) : Keeps s0 (@State.freeWay p1 p2) := by
  unfold State.freeWay
  extract_lets +onlyGivenNames -merge -underBinder x1
  try clear_value x1
  extract_lets +onlyGivenNames -merge -underBinder x2
  try clear_value x2
  split
  · refine State.setKslot_keeps ?_
    · exact hp1
  · exact hp1

theorem State.writeKey_keeps {s0 : State} {p1 : Machine.State} {p2 : Nat} {p3 : Nat} {p4 : NewKey} (hp1 : Keeps s0 (p1)) : Keeps s0 (@State.writeKey p1 p2 p3 p4) := by
  unfold State.writeKey
  extract_lets +onlyGivenNames -merge -underBinder x1
  try clear_value x1
  extract_lets +onlyGivenNames -merge -underBinder x2
  have h3 : Keeps s0 (x2) := by
    unfold x2
    refine State.setKslot_keeps ?_
    · refine keeps_ite (fun _ => ?_) (fun _ => ?_)
      · refine State.freeWay_keeps ?_
        · exact hp1
      · exact hp1
  clear_value x2
  apply keeps_gen x2 h3
  clear h3
  intro x2 h3
  split
  · refine State.rwr_keeps ?_
    · refine State.rwr_keeps ?_
      · exact h3
  · refine keeps_ite (fun _ => ?_) (fun _ => ?_)
    · refine State.rwr_keeps ?_
      · exact h3
    · exact h3
  · exact h3

theorem State.endKey_keeps {s0 : State} {p1 : Machine.State} {p2 : Nat} {p3 : Nat} {p4 : Bool} (hp1 : Keeps s0 (p1)) : Keeps s0 (@State.endKey p1 p2 p3 p4) := by
  unfold State.endKey
  extract_lets +onlyGivenNames -merge -underBinder x1
  try clear_value x1
  refine State.setKslot_keeps ?_
  · exact hp1

theorem State.destroyKey_keeps {s0 : State} {p1 : Machine.State} {p2 : Nat} {p3 : Nat} (hp1 : Keeps s0 (p1)) : Keeps s0 (@State.destroyKey p1 p2 p3) := by
  unfold State.destroyKey
  refine State.cancelSwitches_keeps ?_
  · refine State.endKey_keeps ?_
    · exact hp1

theorem State.orphanKey_keeps {s0 : State} {p1 : Machine.State} {p2 : Nat} {p3 : Nat} (hp1 : Keeps s0 (p1)) : Keeps s0 (@State.orphanKey p1 p2 p3) := by
  unfold State.orphanKey
  refine State.cancelSwitches_keeps ?_
  · refine State.endKey_keeps ?_
    · exact hp1

theorem State.bumpMonotonic_keeps {s0 : State} {p1 : Machine.State} {p2 : Nat} (hp1 : Keeps s0 (p1)) : Keeps s0 (@State.bumpMonotonic p1 p2) := by
  unfold State.bumpMonotonic
  exact keeps_upd hp1 rfl rfl rfl rfl rfl rfl rfl rfl rfl rfl rfl rfl (.inl rfl)

theorem State.takeUse_keeps {s0 : State} {p1 : Machine.State} {p2 : Nat} {p3 : Nat} {p4 : Nat} (hp1 : Keeps s0 (p1)) : Keeps s0 (@State.takeUse p1 p2 p3 p4) := by
  unfold State.takeUse
  extract_lets +onlyGivenNames -merge -underBinder x1
  try clear_value x1
  refine keeps_ite (fun _ => ?_) (fun _ => ?_)
  · refine State.setKslot_keeps ?_
    · exact hp1
  · exact hp1

theorem State.sweepPass_keeps {s0 : State} {p1 : Machine.State} (hp1 : Keeps s0 (p1)) : Keeps s0 (@State.sweepPass p1) := by
  unfold State.sweepPass
  extract_lets +onlyGivenNames -merge -underBinder x1
  try clear_value x1
  refine keeps_foldl ?_ (fun a x ha => ?_)
  · exact hp1
  · skip
    refine State.count_keeps ?_
    · refine State.endKey_keeps ?_
      · exact ha

theorem State.sweepAll_keeps {s0 : State} {p1 : Machine.State} (hp1 : Keeps s0 (p1)) : Keeps s0 (@State.sweepAll p1) := by
  unfold State.sweepAll
  refine State.sweepPass_keeps ?_
  · refine State.sweepPass_keeps ?_
    · refine State.sweepPass_keeps ?_
      · exact hp1

theorem State.destroyClass_keeps {s0 : State} {p1 : Machine.State} {p2 : Nat} (hp1 : Keeps s0 (p1)) : Keeps s0 (@State.destroyClass p1 p2) := by
  unfold State.destroyClass
  extract_lets +onlyGivenNames -merge -underBinder x1
  try clear_value x1
  exact keeps_upd hp1 rfl rfl rfl rfl rfl rfl rfl rfl rfl rfl rfl rfl (.inl rfl)

end Sys2Proof.Machine
end

