-- ==== Sys2Proof/Laws/KeepsSecY.lean ====
section
/-! SUPPORT. What the definitions of Sys2Proof/Machine/SecY.lean keep: one lemma each, in the terms of `Keeps`. -/

namespace Sys2Proof.Machine

open Sys2Proof

theorem State.exhaustCheck_keeps {s0 : State} {p1 : Machine.State} {p2 : Nat} (hp1 : Keeps s0 (p1)) : Keeps s0 (@State.exhaustCheck p1 p2) := by
  unfold State.exhaustCheck
  refine keeps_ite (fun _ => ?_) (fun _ => ?_)
  · refine State.raiseEvent_keeps ?_
    · refine State.mark_keeps ?_
      · refine State.rwr_keeps ?_
        · exact hp1
  · exact hp1

theorem State.scyCommand_keeps {s0 : State} {p1 : Machine.State} {p2 : Nat} {p3 : Nat} {p4 : Machine.State → Host.Outcome Machine.State Fault Refusal} (hp1 : Keeps s0 (p1)) (hp4 : ∀ q0, Keeps s0 (q0) → KeepsO s0 (p4 q0)) : KeepsO s0 (@State.scyCommand p1 p2 p3 p4) := by
  unfold State.scyCommand
  refine keepsO_ite (fun _ => ?_) (fun _ => ?_)
  · refine keepsO_next ?_
    refine State.mark_keeps ?_
    · exact hp1
  · refine hp4 _ ?_
    · refine State.mark_keeps ?_
      · refine State.wr_keeps ?_
        · refine State.wr_keeps ?_
          · exact hp1

theorem State.scyDone_keeps {s0 : State} {p1 : Machine.State} {p2 : Nat} (hp1 : Keeps s0 (p1)) : Keeps s0 (@State.scyDone p1 p2) := by
  unfold State.scyDone
  refine State.unmark_keeps ?_
  · refine State.wr_keeps ?_
    · exact hp1

theorem State.setScyImage_keeps {s0 : State} {p1 : Machine.State} {p2 : List Word} (hp1 : Keeps s0 (p1)) : Keeps s0 (@State.setScyImage p1 p2) := by
  unfold State.setScyImage
  refine keeps_foldl ?_ (fun a x ha => ?_)
  · exact hp1
  · skip
    refine State.setReg_keeps ?_
    · exact ha

theorem State.drainSc_keeps {s0 : State} {p1 : Machine.State} {p2 : Nat} (hp1 : Keeps s0 (p1)) : Keeps s0 (@State.drainSc p1 p2) := by
  unfold State.drainSc
  refine keeps_ite (fun _ => ?_) (fun _ => ?_)
  · refine State.rwr_keeps ?_
    · exact hp1
  · exact hp1

theorem State.secyLost_keeps {s0 : State} {p1 : Machine.State} {p2 : RecKind} {p3 : Nat} {p4 : Nat} (hp1 : Keeps s0 (p1)) : Keeps s0 (@State.secyLost p1 p2 p3 p4) := by
  unfold State.secyLost
  extract_lets +onlyGivenNames -merge -underBinder x1
  try clear_value x1
  extract_lets +onlyGivenNames -merge -underBinder x2
  have h3 : Keeps s0 (x2) := by
    unfold x2
    refine State.report_keeps ?_
    · exact hp1
  clear_value x2
  apply keeps_gen x2 h3
  clear h3
  intro x2 h3
  refine keeps_ite (fun _ => ?_) (fun _ => ?_)
  · refine State.rwr_keeps ?_
    · exact h3
  · split
    · refine keeps_foldl ?_ (fun a x ha => ?_)
      · refine State.rwr_keeps ?_
        · exact h3
      · skip
        refine State.drainSc_keeps ?_
        · exact ha
    · refine State.drainSc_keeps ?_
      · exact h3
    · refine keeps_ite (fun _ => ?_) (fun _ => ?_)
      · exact keeps_upd h3 rfl rfl rfl rfl rfl rfl rfl rfl rfl rfl rfl rfl (.inl rfl)
      · refine keeps_ite (fun _ => ?_) (fun _ => ?_)
        · exact h3
        · refine State.rwr_keeps ?_
          · exact h3
    · refine State.rwr_keeps ?_
      · exact h3

theorem State.scyRead_keeps {s0 : State} {p1 : Machine.State} {p2 : Nat} {p3 : RecKind} {p4 : Nat} {p5 : Option Nat} (hp1 : Keeps s0 (p1)) : KeepsO s0 (@State.scyRead p1 p2 p3 p4 p5) := by
  unfold State.scyRead
  refine State.scyCommand_keeps ?_ ?_
  · exact hp1
  · intro q1 hq1
    refine keepsO_next ?_
    refine keeps_ite (fun _ => ?_) (fun _ => ?_)
    · refine State.scyDone_keeps ?_
      · exact hq1
    · split
      · refine State.scyDone_keeps ?_
        · refine State.setScyImage_keeps ?_
          · exact hq1
      · refine keeps_ite (fun _ => ?_) (fun _ => ?_)
        · refine State.scyDone_keeps ?_
          · refine State.setScyImage_keeps ?_
            · exact hq1
        · extract_lets +onlyGivenNames -merge -underBinder x2
          have h3 : Keeps s0 (x2) := by
            unfold x2
            refine State.secyLost_keeps ?_
            · exact hq1
          clear_value x2
          apply keeps_gen x2 h3
          clear h3
          intro x2 h3
          split
          · rename_i h6e
            have h6 : Keeps s0 _ := keeps_of_eq h6e (by
              refine State.draw_keeps ?_
              · exact h3
              )
            refine State.scyDone_keeps ?_
            · refine State.setScyImage_keeps ?_
              · exact h6

theorem execSecyRd_keeps {s0 : State} {p1 : BitVec 18} {p2 : Option Nat} {p3 : Machine.State} (hp3 : Keeps s0 (p3)) : KeepsO s0 (@execSecyRd p1 p2 p3) := by
  unfold execSecyRd
  refine State.scyRead_keeps ?_
  · exact hp3

theorem State.scyWrite_keeps {s0 : State} {p1 : Machine.State} {p2 : Nat} {p3 : RecKind} {p4 : Nat} {p5 : Machine.State → List Word → Nat} {p6 : Machine.State → Machine.State} {p7 : Machine.State → Bool} (hp1 : Keeps s0 (p1)) (hp6 : ∀ q0, Keeps s0 (q0) → Keeps s0 (p6 q0)) : KeepsO s0 (@State.scyWrite p1 p2 p3 p4 p5 p6 p7) := by
  unfold State.scyWrite
  refine State.scyCommand_keeps ?_ ?_
  · exact hp1
  · intro q1 hq1
    extract_lets +onlyGivenNames -merge -underBinder x2
    try clear_value x2
    refine keepsO_ite (fun _ => ?_) (fun _ => ?_)
    · refine keepsO_next ?_
      refine State.scyDone_keeps ?_
      · exact hq1
    · refine keepsO_ite (fun _ => ?_) (fun _ => ?_)
      · exact keepsO_fault
      · refine keepsO_ite (fun _ => ?_) (fun _ => ?_)
        · refine keepsO_next ?_
          refine State.scyDone_keeps ?_
          · exact hq1
        · extract_lets +onlyGivenNames -merge -underBinder x3
          have h4 : Keeps s0 (x3) := by
            unfold x3
            refine hp6 _ ?_
            · refine State.recStore_keeps ?_
              · exact hq1
          clear_value x3
          apply keeps_gen x3 h4
          clear h4
          intro x3 h4
          refine keepsO_ite (fun _ => ?_) (fun _ => ?_)
          · exact keepsO_fault
          · refine keepsO_next ?_
            refine State.scyDone_keeps ?_
            · exact h4

theorem execSecyWr_keeps {s0 : State} {p1 : BitVec 18} {p2 : Machine.State} (hp2 : Keeps s0 (p2)) : KeepsO s0 (@execSecyWr p1 p2) := by
  unfold execSecyWr
  refine State.scyWrite_keeps ?_ ?_
  · exact hp2
  · intro q1 hq1
    show _
    exact hq1

theorem execScRd_keeps {s0 : State} {p1 : BitVec 18} {p2 : Option Nat} {p3 : Machine.State} (hp3 : Keeps s0 (p3)) : KeepsO s0 (@execScRd p1 p2 p3) := by
  unfold execScRd
  refine State.scyRead_keeps ?_
  · exact hp3

theorem State.scSwitch_keeps {s0 : State} {p1 : Machine.State} {p2 : Nat} (hp1 : Keeps s0 (p1)) : Keeps s0 (@State.scSwitch p1 p2) := by
  unfold State.scSwitch
  refine State.rwr_keeps ?_
  · refine State.rwr_keeps ?_
    · exact hp1

theorem State.tryPnSwitch_keeps {s0 : State} {p1 : Machine.State} {p2 : Nat} (hp1 : Keeps s0 (p1)) : Keeps s0 (@State.tryPnSwitch p1 p2) := by
  unfold State.tryPnSwitch
  refine keeps_ite (fun _ => ?_) (fun _ => ?_)
  · refine State.scSwitch_keeps ?_
    · exact hp1
  · exact hp1

theorem execScWr_keeps {s0 : State} {p1 : BitVec 18} {p2 : Machine.State} (hp2 : Keeps s0 (p2)) : KeepsO s0 (@execScWr p1 p2) := by
  unfold execScWr
  refine State.scyWrite_keeps ?_ ?_
  · exact hp2
  · intro q1 hq1
    refine State.tryPnSwitch_keeps ?_
    · exact hq1

theorem execSaRd_keeps {s0 : State} {p1 : BitVec 18} {p2 : Option Nat} {p3 : Machine.State} (hp3 : Keeps s0 (p3)) : KeepsO s0 (@execSaRd p1 p2 p3) := by
  unfold execSaRd
  refine State.scyRead_keeps ?_
  · exact hp3

theorem saAfter_keeps {s0 : State} {p1 : Nat} {p2 : Bool} {p3 : Machine.State} (hp3 : Keeps s0 (p3)) : Keeps s0 (@saAfter p1 p2 p3) := by
  unfold saAfter
  extract_lets +onlyGivenNames -merge -underBinder y2 x1
  try clear_value y2
  have h3 : Keeps s0 (x1) := by
    unfold x1
    exact keeps_upd hp3 rfl rfl rfl rfl rfl rfl rfl rfl rfl rfl rfl rfl (.inl rfl)
  clear_value x1
  apply keeps_gen x1 h3
  clear h3
  intro x1 h3
  extract_lets +onlyGivenNames -merge -underBinder y5 x4
  try clear_value y5
  have h6 : Keeps s0 (x4) := by
    unfold x4
    refine keeps_ite (fun _ => ?_) (fun _ => ?_)
    · refine State.rwr_keeps ?_
      · exact keeps_upd h3 rfl rfl rfl rfl rfl rfl rfl rfl rfl rfl rfl rfl (.inl rfl)
    · exact h3
  clear_value x4
  apply keeps_gen x4 h6
  clear h6
  intro x4 h6
  refine State.tryPnSwitch_keeps ?_
  · refine State.exhaustCheck_keeps ?_
    · exact h6

theorem execSaWr_keeps {s0 : State} {p1 : BitVec 18} {p2 : Machine.State} (hp2 : Keeps s0 (p2)) : KeepsO s0 (@execSaWr p1 p2) := by
  unfold execSaWr
  refine State.scyWrite_keeps ?_ ?_
  · exact hp2
  · intro q1 hq1
    refine saAfter_keeps ?_
    · exact hq1

theorem execChRd_keeps {s0 : State} {p1 : BitVec 18} {p2 : Option Nat} {p3 : Machine.State} (hp3 : Keeps s0 (p3)) : KeepsO s0 (@execChRd p1 p2 p3) := by
  unfold execChRd
  refine State.scyRead_keeps ?_
  · exact hp3

theorem execChWr_keeps {s0 : State} {p1 : BitVec 18} {p2 : Machine.State} (hp2 : Keeps s0 (p2)) : KeepsO s0 (@execChWr p1 p2) := by
  unfold execChWr
  refine State.scyWrite_keeps ?_ ?_
  · exact hp2
  · intro q1 hq1
    show _
    exact hq1

theorem State.sciSet_keeps {s0 : State} {p1 : Machine.State} {p2 : Nat} {p3 : Nat} {p4 : Nat} (hp1 : Keeps s0 (p1)) : Keeps s0 (@State.sciSet p1 p2 p3 p4) := by
  unfold State.sciSet
  extract_lets +onlyGivenNames -merge -underBinder x1
  try clear_value x1
  refine State.wr_keeps ?_
  · exact keeps_upd hp1 rfl rfl rfl rfl rfl rfl rfl rfl rfl rfl rfl rfl (.inl rfl)

theorem execSciAdd_keeps {s0 : State} {p1 : BitVec 18} {p2 : Machine.State} (hp2 : Keeps s0 (p2)) : KeepsO s0 (@execSciAdd p1 p2) := by
  unfold execSciAdd
  refine State.scyCommand_keeps ?_ ?_
  · exact hp2
  · intro q1 hq1
    refine keepsO_next ?_
    refine keeps_ite (fun _ => ?_) (fun _ => ?_)
    · refine State.scyDone_keeps ?_
      · exact hq1
    · refine keeps_ite (fun _ => ?_) (fun _ => ?_)
      · refine State.scyDone_keeps ?_
        · exact hq1
      · refine State.scyDone_keeps ?_
        · refine State.sciSet_keeps ?_
          · exact hq1

theorem execSciDel_keeps {s0 : State} {p1 : BitVec 18} {p2 : Machine.State} (hp2 : Keeps s0 (p2)) : KeepsO s0 (@execSciDel p1 p2) := by
  unfold execSciDel
  refine State.scyCommand_keeps ?_ ?_
  · exact hp2
  · intro q1 hq1
    refine keepsO_next ?_
    split
    · refine State.scyDone_keeps ?_
      · exact hq1
    · refine State.scyDone_keeps ?_
      · refine State.sciSet_keeps ?_
        · exact hq1

theorem execSciFind_keeps {s0 : State} {p1 : BitVec 18} {p2 : Machine.State} (hp2 : Keeps s0 (p2)) : KeepsO s0 (@execSciFind p1 p2) := by
  unfold execSciFind
  refine State.scyCommand_keeps ?_ ?_
  · exact hp2
  · intro q1 hq1
    refine keepsO_next ?_
    split
    · refine State.scyDone_keeps ?_
      · exact hq1
    · refine State.scyDone_keeps ?_
      · refine State.setReg_keeps ?_
        · exact hq1

theorem State.armSwitch_keeps {s0 : State} {p1 : Machine.State} {p2 : Nat} {p3 : List Word} (hp1 : Keeps s0 (p1)) : Keeps s0 (@State.armSwitch p1 p2 p3) := by
  unfold State.armSwitch
  extract_lets +onlyGivenNames -merge -underBinder x1
  have h2 : Keeps s0 (x1) := by
    unfold x1
    refine State.rwr_keeps ?_
    · refine State.rwr_keeps ?_
      · refine State.rwr_keeps ?_
        · refine State.rwr_keeps ?_
          · exact hp1
  clear_value x1
  apply keeps_gen x1 h2
  clear h2
  intro x1 h2
  extract_lets +onlyGivenNames -merge -underBinder x3
  try clear_value x3
  refine keeps_ite (fun _ => ?_) (fun _ => ?_)
  · refine State.tryPnSwitch_keeps ?_
    · exact h2
  · refine keeps_ite (fun _ => ?_) (fun _ => ?_)
    · refine State.mark_keeps ?_
      · refine State.scSwitch_keeps ?_
        · exact h2
    · exact h2

theorem execScySwitch_keeps {s0 : State} {p1 : BitVec 18} {p2 : Machine.State} (hp2 : Keeps s0 (p2)) : KeepsO s0 (@execScySwitch p1 p2) := by
  unfold execScySwitch
  refine State.scyCommand_keeps ?_ ?_
  · exact hp2
  · intro q1 hq1
    extract_lets +onlyGivenNames -merge -underBinder x2
    try clear_value x2
    extract_lets +onlyGivenNames -merge -underBinder x3
    try clear_value x3
    extract_lets +onlyGivenNames -merge -underBinder x4
    try clear_value x4
    refine keepsO_next ?_
    refine keeps_ite (fun _ => ?_) (fun _ => ?_)
    · refine State.scyDone_keeps ?_
      · exact hq1
    · refine keeps_ite (fun _ => ?_) (fun _ => ?_)
      · refine State.scyDone_keeps ?_
        · exact hq1
      · refine keeps_ite (fun _ => ?_) (fun _ => ?_)
        · refine State.scyDone_keeps ?_
          · exact hq1
        · refine State.scyDone_keeps ?_
          · refine State.armSwitch_keeps ?_
            · exact hq1

theorem execScyDisable_keeps {s0 : State} {p1 : BitVec 18} {p2 : Machine.State} (hp2 : Keeps s0 (p2)) : KeepsO s0 (@execScyDisable p1 p2) := by
  unfold execScyDisable
  refine State.scyCommand_keeps ?_ ?_
  · exact hp2
  · intro q1 hq1
    extract_lets +onlyGivenNames -merge -underBinder x2
    try clear_value x2
    refine keepsO_next ?_
    refine keeps_ite (fun _ => ?_) (fun _ => ?_)
    · refine State.scyDone_keeps ?_
      · exact hq1
    · refine keeps_ite (fun _ => ?_) (fun _ => ?_)
      · refine State.scyDone_keeps ?_
        · exact hq1
      · refine keeps_ite (fun _ => ?_) (fun _ => ?_)
        · refine State.scyDone_keeps ?_
          · exact hq1
        · refine State.scyDone_keeps ?_
          · refine State.rwr_keeps ?_
            · exact hq1

theorem execScyCmdInvalid_keeps {s0 : State} {p1 : Fin 3} {p2 : BitVec 18} {p3 : Machine.State} (hp3 : Keeps s0 (p3)) : KeepsO s0 (@execScyCmdInvalid p1 p2 p3) := by
  unfold execScyCmdInvalid
  refine State.scyCommand_keeps ?_ ?_
  · exact hp3
  · intro q1 hq1
    refine keepsO_next ?_
    refine State.scyDone_keeps ?_
    · exact hq1

theorem State.scyCmdWrite_keeps {s0 : State} {p1 : Machine.State} {p2 : Word} (hp1 : Keeps s0 (p1)) : KeepsO s0 (@State.scyCmdWrite p1 p2) := by
  unfold State.scyCmdWrite
  extract_lets +onlyGivenNames -merge -underBinder x1
  try clear_value x1
  split
  · refine execSecyRd_keeps ?_
    · exact hp1
  · refine execSecyWr_keeps ?_
    · exact hp1
  · refine execScRd_keeps ?_
    · exact hp1
  · refine execScWr_keeps ?_
    · exact hp1
  · refine execSaRd_keeps ?_
    · exact hp1
  · refine execSaWr_keeps ?_
    · exact hp1
  · refine execChRd_keeps ?_
    · exact hp1
  · refine execChWr_keeps ?_
    · exact hp1
  · refine execSciAdd_keeps ?_
    · exact hp1
  · refine execSciDel_keeps ?_
    · exact hp1
  · refine execSciFind_keeps ?_
    · exact hp1
  · refine execScySwitch_keeps ?_
    · exact hp1
  · refine execScyDisable_keeps ?_
    · exact hp1
  · refine execScyCmdInvalid_keeps ?_
    · exact hp1

theorem State.assignPn_keeps {s0 : State} {p1 : Machine.State} {p2 : Nat} (hp1 : Keeps s0 (p1)) : Keeps s0 (@State.assignPn p1 p2).2 := by
  unfold State.assignPn
  extract_lets +onlyGivenNames -merge -underBinder x1
  try clear_value x1
  extract_lets +onlyGivenNames -merge -underBinder x2
  have h3 : Keeps s0 (x2) := by
    unfold x2
    refine State.rwr_keeps ?_
    · exact hp1
  clear_value x2
  apply keeps_gen x2 h3
  clear h3
  intro x2 h3
  extract_lets +onlyGivenNames -merge -underBinder x4
  try clear_value x4
  extract_lets +onlyGivenNames -merge -underBinder y6 y7 x5
  have h8 : Keeps s0 (y6) := by
    unfold y6
    refine State.mark_keeps ?_
    · refine State.rwr_keeps ?_
      · exact h3
  try clear_value y6
  try clear_value y7
  have h9 : Keeps s0 (x5) := by
    unfold x5
    refine keeps_ite (fun _ => ?_) (fun _ => ?_)
    · refine State.raiseEvent_keeps ?_
      · exact keeps_upd h8 rfl rfl rfl rfl rfl rfl rfl rfl rfl rfl rfl rfl (.inl rfl)
    · exact h3
  clear_value x5
  apply keeps_gen x5 h9
  clear h9
  intro x5 h9
  extract_lets +onlyGivenNames -merge -underBinder x10
  have h11 : Keeps s0 (x10) := by
    unfold x10
    refine keeps_ite (fun _ => ?_) (fun _ => ?_)
    · refine State.raiseEvent_keeps ?_
      · refine State.mark_keeps ?_
        · refine State.rwr_keeps ?_
          · exact h9
    · exact h9
  clear_value x10
  apply keeps_gen x10 h11
  clear h11
  intro x10 h11
  refine keepsP_mk ?_
  refine State.tryPnSwitch_keeps ?_
  · exact h11

theorem State.tryFrameSwitch_keeps {s0 : State} {p1 : Machine.State} {p2 : Nat} (hp1 : Keeps s0 (p1)) : Keeps s0 (@State.tryFrameSwitch p1 p2) := by
  unfold State.tryFrameSwitch
  extract_lets +onlyGivenNames -merge -underBinder x1
  try clear_value x1
  refine keeps_ite (fun _ => ?_) (fun _ => ?_)
  · refine State.scSwitch_keeps ?_
    · exact hp1
  · exact hp1

end Sys2Proof.Machine
end

