-- ==== Sys2Proof/Laws/KeepsWeirOps.lean ====
section
/-! SUPPORT. What the definitions of Sys2Proof/Machine/WeirOps.lean keep: one lemma each, in the terms of `Keeps`. -/

namespace Sys2Proof.Machine

open Sys2Proof

theorem State.setRstate_keeps {s0 : State} {p1 : Machine.State} {p2 : Nat} {p3 : Nat} (hp1 : Keeps s0 (p1)) : Keeps s0 (@State.setRstate p1 p2 p3) := by
  unfold State.setRstate
  refine State.wr_keeps ?_
  · exact hp1

theorem State.setRace_keeps {s0 : State} {p1 : Machine.State} {p2 : Nat} {p3 : Race} (hp1 : Keeps s0 (p1)) : Keeps s0 (@State.setRace p1 p2 p3) := by
  unfold State.setRace
  exact keeps_upd hp1 rfl rfl rfl rfl rfl rfl rfl rfl rfl rfl rfl rfl (.inl rfl)

theorem State.raceOff_keeps {s0 : State} {p1 : Machine.State} {p2 : Nat} (hp1 : Keeps s0 (p1)) : Keeps s0 (@State.raceOff p1 p2) := by
  unfold State.raceOff
  extract_lets +onlyGivenNames -merge -underBinder x1
  try clear_value x1
  extract_lets +onlyGivenNames -merge -underBinder x2
  try clear_value x2
  refine State.wr_keeps ?_
  · refine State.wr_keeps ?_
    · refine State.setRstate_keeps ?_
      · refine State.setRace_keeps ?_
        · exact hp1

theorem State.breach22_keeps {s0 : State} {p1 : Machine.State} {p2 : Nat} {p3 : Nat} {p4 : Nat} {p5 : Nat} {p6 : Nat} (hp1 : Keeps s0 (p1)) : Keeps s0 (@State.breach22 p1 p2 p3 p4 p5 p6) := by
  unfold State.breach22
  refine State.report_keeps ?_
  · exact hp1

theorem State.setWgrp_keeps {s0 : State} {p1 : Machine.State} {p2 : Nat} {p3 : WeirGroup} (hp1 : Keeps s0 (p1)) : Keeps s0 (@State.setWgrp p1 p2 p3) := by
  unfold State.setWgrp
  exact keeps_upd hp1 rfl rfl rfl rfl rfl rfl rfl rfl rfl rfl rfl rfl (.inl rfl)

theorem State.dropRecords_keeps {s0 s : State} {g : Nat} (h : Keeps s0 s) : Keeps s0 (s.dropRecords g) := by
  unfold State.dropRecords
  refine State.takeReports_keeps h (keeps_foldl ?_ (fun _ _ ha => State.breach22_keeps ha))
  exact State.setWgrp_keeps (Keeps.refl _)

theorem State.dropFailover_keeps {s0 : State} {p1 : Machine.State} {p2 : Nat} (hp1 : Keeps s0 (p1)) : Keeps s0 (@State.dropFailover p1 p2) := by
  unfold State.dropFailover
  extract_lets +onlyGivenNames -merge -underBinder x1
  have h2 : Keeps s0 (x1) := by
    unfold x1
    refine keeps_foldl ?_ (fun a x ha => ?_)
    · exact hp1
    · skip
      refine keeps_ite (fun _ => ?_) (fun _ => ?_)
      · refine State.raceOff_keeps ?_
        · exact ha
      · exact ha
  clear_value x1
  apply keeps_gen x1 h2
  clear h2
  intro x1 h2
  refine State.dropRecords_keeps ?_
  · refine State.setWgrp_keeps ?_
    · exact h2

theorem State.endLease_keeps {s0 : State} {p1 : Machine.State} {p2 : Nat} (hp1 : Keeps s0 (p1)) : Keeps s0 (@State.endLease p1 p2) := by
  unfold State.endLease
  extract_lets +onlyGivenNames -merge -underBinder x1
  have h2 : Keeps s0 (x1) := by
    unfold x1
    refine State.wr_keeps ?_
    · refine State.wr_keeps ?_
      · refine State.wr_keeps ?_
        · exact hp1
  clear_value x1
  apply keeps_gen x1 h2
  clear h2
  intro x1 h2
  refine keeps_foldl ?_ (fun a x ha => ?_)
  · exact h2
  · skip
    refine keeps_ite (fun _ => ?_) (fun _ => ?_)
    · refine State.wr_keeps ?_
      · refine State.wr_keeps ?_
        · refine State.setRstate_keeps ?_
          · refine State.setRace_keeps ?_
            · exact ha
    · exact ha

theorem State.endLeases_keeps {s0 : State} {p1 : Machine.State} (hp1 : Keeps s0 (p1)) : Keeps s0 (@State.endLeases p1) := by
  unfold State.endLeases
  refine keeps_foldl ?_ (fun a x ha => ?_)
  · exact hp1
  · skip
    extract_lets +onlyGivenNames -merge -underBinder x1
    have h2 : Keeps s0 (x1) := by
      unfold x1
      refine State.dropFailover_keeps ?_
      · refine State.endLease_keeps ?_
        · exact ha
    clear_value x1
    apply keeps_gen x1 h2
    clear h2
    intro x1 h2
    refine State.setWgrp_keeps ?_
    · exact h2

theorem State.breach21_keeps {s0 : State} {p1 : Machine.State} {p2 : Nat} {p3 : Nat} {p4 : Nat} {p5 : Nat} {p6 : Nat} (hp1 : Keeps s0 (p1)) : Keeps s0 (@State.breach21 p1 p2 p3 p4 p5 p6) := by
  unfold State.breach21
  refine State.report_keeps ?_
  · exact hp1

theorem State.sleepNamed_keeps {s0 : State} {p1 : Machine.State} (hp1 : Keeps s0 (p1)) : Keeps s0 (@State.sleepNamed p1) := by
  unfold State.sleepNamed
  refine keeps_foldl ?_ (fun a x ha => ?_)
  · exact hp1
  · skip
    refine keeps_ite (fun _ => ?_) (fun _ => ?_)
    · refine State.raceOff_keeps ?_
      · exact ha
    · exact ha

theorem State.wakeRace_keeps {s0 : State} {p1 : Machine.State} {p2 : Nat} {p3 : Wake} (hp1 : Keeps s0 (p1)) : Keeps s0 (@State.wakeRace p1 p2 p3) := by
  unfold State.wakeRace
  extract_lets +onlyGivenNames -merge -underBinder x1
  try clear_value x1
  extract_lets +onlyGivenNames -merge -underBinder x2
  try clear_value x2
  refine State.setRstate_keeps ?_
  · refine State.setRace_keeps ?_
    · exact hp1

theorem State.wakeNamed_keeps {s0 : State} {p1 : Machine.State} (hp1 : Keeps s0 (p1)) : Keeps s0 (@State.wakeNamed p1) := by
  unfold State.wakeNamed
  refine keeps_ite (fun _ => ?_) (fun _ => ?_)
  · exact hp1
  · refine keeps_foldl ?_ (fun a x ha => ?_)
    · exact hp1
    · skip
      refine keeps_ite (fun _ => ?_) (fun _ => ?_)
      · exact ha
      · refine keeps_foldl ?_ (fun a x ha => ?_)
        · exact ha
        · skip
          refine keeps_ite (fun _ => ?_) (fun _ => ?_)
          · refine State.wakeRace_keeps ?_
            · exact ha
          · exact ha

theorem State.enterMode_keeps {s0 : State} {p1 : Machine.State} {p2 : Nat} (hp1 : Keeps s0 (p1)) : Keeps s0 (@State.enterMode p1 p2) := by
  unfold State.enterMode
  extract_lets +onlyGivenNames -merge -underBinder x1
  have h2 : Keeps s0 (x1) := by
    unfold x1
    refine State.wr_keeps ?_
    · refine State.wr_keeps ?_
      · exact hp1
  clear_value x1
  apply keeps_gen x1 h2
  clear h2
  intro x1 h2
  extract_lets +onlyGivenNames -merge -underBinder x3
  have h4 : Keeps s0 (x3) := by
    unfold x3
    refine keeps_ite (fun _ => ?_) (fun _ => ?_)
    · refine State.mark_keeps ?_
      · exact h2
    · refine keeps_ite (fun _ => ?_) (fun _ => ?_)
      · refine State.unmark_keeps ?_
        · exact h2
      · exact h2
  clear_value x3
  apply keeps_gen x3 h4
  clear h4
  intro x3 h4
  extract_lets +onlyGivenNames -merge -underBinder x5
  have h6 : Keeps s0 (x5) := by
    unfold x5
    refine keeps_ite (fun _ => ?_) (fun _ => ?_)
    · refine State.endLeases_keeps ?_
      · exact h4
    · exact h4
  clear_value x5
  apply keeps_gen x5 h6
  clear h6
  intro x5 h6
  extract_lets +onlyGivenNames -merge -underBinder x7
  have h8 : Keeps s0 (x7) := by
    unfold x7
    refine keeps_ite (fun _ => ?_) (fun _ => ?_)
    · refine State.mark_keeps ?_
      · exact h6
    · exact h6
  clear_value x7
  apply keeps_gen x7 h8
  clear h8
  intro x7 h8
  extract_lets +onlyGivenNames -merge -underBinder x9
  have h10 : Keeps s0 (x9) := by
    unfold x9
    refine keeps_ite (fun _ => ?_) (fun _ => ?_)
    · refine State.raiseEvent_keeps ?_
      · exact h8
    · exact h8
  clear_value x9
  apply keeps_gen x9 h10
  clear h10
  intro x9 h10
  extract_lets +onlyGivenNames -merge -underBinder x11
  have h12 : Keeps s0 (x11) := by
    unfold x11
    refine keeps_ite (fun _ => ?_) (fun _ => ?_)
    · refine State.sleepNamed_keeps ?_
      · exact h10
    · refine State.wakeNamed_keeps ?_
      · exact h10
  clear_value x11
  apply keeps_gen x11 h12
  clear h12
  intro x11 h12
  refine keeps_ite (fun _ => ?_) (fun _ => ?_)
  · exact h12
  · refine State.raiseCause_keeps ?_
    · exact h12

theorem State.degradedExit_keeps {s0 : State} {p1 : Machine.State} (hp1 : Keeps s0 (p1)) : Keeps s0 (@State.degradedExit p1) := by
  unfold State.degradedExit
  refine keeps_ite (fun _ => ?_) (fun _ => ?_)
  · refine State.enterMode_keeps ?_
    · exact hp1
  · exact hp1

theorem State.degradedEntry_keeps {s0 : State} {p1 : Machine.State} (hp1 : Keeps s0 (p1)) : Keeps s0 (@State.degradedEntry p1) := by
  unfold State.degradedEntry
  refine keeps_ite (fun _ => ?_) (fun _ => ?_)
  · refine State.enterMode_keeps ?_
    · exact hp1
  · exact hp1

theorem State.grantLease_keeps {s0 : State} {p1 : Machine.State} {p2 : Nat} {p3 : Nat} {p4 : Option Nat} (hp1 : Keeps s0 (p1)) : Keeps s0 (@State.grantLease p1 p2 p3 p4) := by
  unfold State.grantLease
  extract_lets +onlyGivenNames -merge -underBinder x1
  have h2 : Keeps s0 (x1) := by
    unfold x1
    refine State.wr_keeps ?_
    · refine State.wr_keeps ?_
      · refine State.wr_keeps ?_
        · refine State.wr_keeps ?_
          · refine State.wr_keeps ?_
            · exact hp1
  clear_value x1
  apply keeps_gen x1 h2
  clear h2
  intro x1 h2
  extract_lets +onlyGivenNames -merge -underBinder x3
  try clear_value x3
  extract_lets +onlyGivenNames -merge -underBinder x4
  have h5 : Keeps s0 (x4) := by
    unfold x4
    refine State.setWgrp_keeps ?_
    · exact h2
  clear_value x4
  apply keeps_gen x4 h5
  clear h5
  intro x4 h5
  refine keeps_foldl ?_ (fun a x ha => ?_)
  · exact h5
  · skip
    extract_lets +onlyGivenNames -merge -underBinder x6
    try clear_value x6
    extract_lets +onlyGivenNames -merge -underBinder x7
    try clear_value x7
    extract_lets +onlyGivenNames -merge -underBinder x8
    have h9 : Keeps s0 (x8) := by
      unfold x8
      refine keeps_ite (fun _ => ?_) (fun _ => ?_)
      · exact ha
      · refine State.setRace_keeps ?_
        · exact ha
    clear_value x8
    apply keeps_gen x8 h9
    clear h9
    intro x8 h9
    extract_lets +onlyGivenNames -merge -underBinder y11 x10
    try clear_value y11
    have h12 : Keeps s0 (x10) := by
      unfold x10
      refine State.setRace_keeps ?_
      · exact h9
    clear_value x10
    apply keeps_gen x10 h12
    clear h12
    intro x10 h12
    refine State.wr_keeps ?_
    · refine State.wr_keeps ?_
      · refine State.setRstate_keeps ?_
        · exact h12

end Sys2Proof.Machine
end

