-- ==== Sys2Proof/Laws/KeepsBasin.lean ====
section
/-! SUPPORT. What the definitions of Sys2Proof/Machine/Basin.lean keep: one lemma each, in the terms of `Keeps`. -/

namespace Sys2Proof.Machine

open Sys2Proof

theorem State.police_keeps {s0 : State} {p1 : Machine.State} {p2 : Nat} {p3 : Nat} (hp1 : Keeps s0 (p1)) : Keeps s0 (@State.police p1 p2 p3).2 := by
  unfold State.police
  extract_lets +onlyGivenNames -merge -underBinder x1
  try clear_value x1
  refine keepsP_ite (fun _ => ?_) (fun _ => ?_)
  · refine keepsP_mk ?_
    refine State.count_keeps ?_
    · refine State.count_keeps ?_
      · exact hp1
  · extract_lets +onlyGivenNames -merge -underBinder x2
    have h3 : Keeps s0 (x2) := by
      unfold x2
      refine State.rwr_keeps ?_
      · exact hp1
    clear_value x2
    apply keeps_gen x2 h3
    clear h3
    intro x2 h3
    refine keepsP_ite (fun _ => ?_) (fun _ => ?_)
    · extract_lets +onlyGivenNames -merge -underBinder x4
      have h5 : Keeps s0 (x4) := by
        unfold x4
        refine State.count_keeps ?_
        · refine State.count_keeps ?_
          · exact h3
      clear_value x4
      apply keeps_gen x4 h5
      clear h5
      intro x4 h5
      refine keepsP_ite (fun _ => ?_) (fun _ => ?_)
      · refine keepsP_mk ?_
        refine State.count_keeps ?_
        · exact h5
      · refine keepsP_mk ?_
        exact h5
    · refine keepsP_mk ?_
      refine State.count_keeps ?_
      · refine State.count_keeps ?_
        · refine State.rwr_keeps ?_
          · exact h3

theorem State.policeWith_keeps {s0 : State} {p1 : Machine.State} {p2 : Option Nat} {p3 : Nat} {p4 : Nat} (hp1 : Keeps s0 (p1)) : Keeps s0 (@State.policeWith p1 p2 p3 p4).2 := by
  unfold State.policeWith
  split
  · refine keepsP_mk ?_
    exact hp1
  · refine keepsP_ite (fun _ => ?_) (fun _ => ?_)
    · refine State.police_keeps ?_
      · exact hp1
    · refine keepsP_mk ?_
      refine State.count_keeps ?_
      · exact hp1

theorem State.popFree_keeps {s0 : State} {p1 : Machine.State} (hp1 : Keeps s0 (p1)) : Keeps s0 (@State.popFree p1).2 := by
  unfold State.popFree
  extract_lets +onlyGivenNames -merge -underBinder x1
  try clear_value x1
  refine keepsP_ite (fun _ => ?_) (fun _ => ?_)
  · refine keepsP_mk ?_
    exact hp1
  · refine keepsP_ite (fun _ => ?_) (fun _ => ?_)
    · refine keepsP_mk ?_
      exact keeps_upd hp1 rfl rfl rfl rfl rfl rfl rfl rfl rfl rfl rfl rfl (.inl rfl)
    · split
      · refine keepsP_mk ?_
        exact hp1
      · refine keepsP_mk ?_
        exact keeps_upd hp1 rfl rfl rfl rfl rfl rfl rfl rfl rfl rfl rfl rfl (.inl rfl)

theorem State.lose_keeps {s0 : State} {p1 : Machine.State} {p2 : List Nat} (hp1 : Keeps s0 (p1)) : Keeps s0 (@State.lose p1 p2) := by
  unfold State.lose
  refine State.satAdd_keeps ?_
  · exact keeps_upd hp1 rfl rfl rfl rfl rfl rfl rfl rfl rfl rfl rfl rfl (.inl rfl)

theorem State.freeEntryBad_keeps {s0 : State} {p1 : Machine.State} {p2 : Nat} (hp1 : Keeps s0 (p1)) : Keeps s0 (@State.freeEntryBad p1 p2) := by
  unfold State.freeEntryBad
  extract_lets +onlyGivenNames -merge -underBinder y2 x1
  try clear_value y2
  have h3 : Keeps s0 (x1) := by
    unfold x1
    exact keeps_upd hp1 rfl rfl rfl rfl rfl rfl rfl rfl rfl rfl rfl rfl (.inl rfl)
  clear_value x1
  apply keeps_gen x1 h3
  clear h3
  intro x1 h3
  split
  · rename_i h6e
    have h6 : Keeps s0 _ := keeps_of_eq h6e (by
      refine State.draw_keeps ?_
      · refine State.lose_keeps ?_
        · exact h3
      )
    refine State.report_keeps ?_
    · exact h6

theorem State.allocCell_keeps {s0 s : State} {n : Nat} (h : Keeps s0 s) : Keeps s0 (s.allocCell n).2 := by
  induction n generalizing s with
  | zero => exact h
  | succ n ih =>
    unfold State.allocCell
    have h1 : Keeps s0 s.popFree.2 := State.popFree_keeps h
    split
    · rename_i e; exact keeps_of_eq e h1
    · rename_i e
      have h2 := keeps_of_eq e h1
      split
      · exact ih (State.freeEntryBad_keeps h2)
      · split
        · exact ih (State.lose_keeps h2)
        · exact h2

theorem State.allocCells_keeps {s0 s : State} {n : Nat} (h : Keeps s0 s) : Keeps s0 (s.allocCells n).2 := by
  induction n generalizing s with
  | zero => exact h
  | succ n ih =>
    unfold State.allocCells
    have h1 : Keeps s0 (s.allocCell 4200).2 := State.allocCell_keeps h
    split
    · rename_i e; exact keeps_of_eq e h1
    · rename_i c s1 e
      have h3 : Keeps s0 (s1.allocCells n).2 := ih (keeps_of_eq e h1)
      split
      · rename_i e2; exact keeps_upd (keeps_of_eq e2 h3) rfl rfl rfl rfl rfl rfl rfl rfl rfl rfl rfl rfl (.inl rfl)
      · rename_i e2; exact keeps_of_eq e2 h3

theorem State.addCells_keeps {s0 : State} {p1 : Machine.State} {p2 : Nat} {p3 : Nat} (hp1 : Keeps s0 (p1)) : Keeps s0 (@State.addCells p1 p2 p3) := by
  unfold State.addCells
  refine State.rwr_keeps ?_
  · exact hp1

theorem State.charge_keeps {s0 : State} {p1 : Machine.State} {p2 : Nat} {p3 : Nat} (hp1 : Keeps s0 (p1)) : Keeps s0 (@State.charge p1 p2 p3) := by
  unfold State.charge
  refine State.wr_keeps ?_
  · exact hp1

theorem State.setBq_keeps {s0 : State} {p1 : Machine.State} {p2 : Nat} {p3 : BQueue} (hp1 : Keeps s0 (p1)) : Keeps s0 (@State.setBq p1 p2 p3) := by
  unfold State.setBq
  exact keeps_upd hp1 rfl rfl rfl rfl rfl rfl rfl rfl rfl rfl rfl rfl (.inl rfl)

theorem State.admitFrame_keeps {s0 : State} {p1 : Machine.State} {p2 : Nat} {p3 : Nat} {p4 : Nat} {p5 : Octets} (hp1 : Keeps s0 (p1)) : Keeps s0 (@State.admitFrame p1 p2 p3 p4 p5) := by
  unfold State.admitFrame
  extract_lets +onlyGivenNames -merge -underBinder x1
  try clear_value x1
  extract_lets +onlyGivenNames -merge -underBinder x2
  try clear_value x2
  split
  · refine State.count_keeps ?_
    · exact hp1
  · split
    · rename_i h4e
      have h4 : Keeps s0 _ := keeps_of_eq h4e (by
        refine State.allocCells_keeps ?_
        · exact hp1
        )
      refine State.count_keeps ?_
      · exact h4
    · rename_i h7e
      have h7 : Keeps s0 _ := keeps_of_eq h7e (by
        refine State.allocCells_keeps ?_
        · exact hp1
        )
      extract_lets +onlyGivenNames -merge -underBinder x8
      try clear_value x8
      extract_lets +onlyGivenNames -merge -underBinder x9
      try clear_value x9
      refine State.addCells_keeps ?_
      · refine State.charge_keeps ?_
        · refine State.setBq_keeps ?_
          · exact h7

theorem State.uncharge_keeps {s0 : State} {p1 : Machine.State} {p2 : Nat} {p3 : Nat} (hp1 : Keeps s0 (p1)) : Keeps s0 (@State.uncharge p1 p2 p3) := by
  unfold State.uncharge
  refine State.wr_keeps ?_
  · exact hp1

theorem State.subCells_keeps {s0 : State} {p1 : Machine.State} {p2 : Nat} {p3 : Nat} (hp1 : Keeps s0 (p1)) : Keeps s0 (@State.subCells p1 p2 p3) := by
  unfold State.subCells
  refine State.rwr_keeps ?_
  · exact hp1

theorem State.setHead_keeps {s0 : State} {p1 : Machine.State} {p2 : Nat} {p3 : Nat × Nat} (hp1 : Keeps s0 (p1)) : Keeps s0 (@State.setHead p1 p2 p3) := by
  unfold State.setHead
  refine State.rwr_keeps ?_
  · refine State.rwr_keeps ?_
    · refine State.rwr_keeps ?_
      · exact hp1

theorem State.fixHead_keeps {s0 : State} {p1 : Machine.State} {p2 : Nat} (hp1 : Keeps s0 (p1)) : Keeps s0 (@State.fixHead p1 p2) := by
  unfold State.fixHead
  refine State.setHead_keeps ?_
  · exact hp1

theorem State.loseQueue_keeps {s0 s : State} {q : Nat} (h : Keeps s0 s) : Keeps s0 (s.loseQueue q).2.2 := by
  unfold State.loseQueue
  exact State.fixHead_keeps (State.subCells_keeps (State.rwr_keeps (State.setBq_keeps (State.lose_keeps
    (State.uncharge_keeps h)))))

theorem State.basinLost_keeps {s0 s : State} {o : BsnObj} {w : Nat} (h : Keeps s0 s) : Keeps s0 (s.basinLost o w) := by
  unfold State.basinLost
  split
  · rename_i q
    have h1 := State.loseQueue_keeps (q := q) (State.mark_keeps (p2 := BSN_STAT.STATE_ERR) (p3 := 0) (p4 := 0) h)
    refine State.report_keeps (State.rwr_keeps (State.rwr_keeps (keeps_ite (fun _ => ?_) (fun _ => ?_))))
    · exact State.breach21_keeps (State.wr_keeps (State.lose_keeps (State.setBq_keeps (State.subCells_keeps
        (State.uncharge_keeps h1)))))
    · exact State.setBq_keeps (State.subCells_keeps (State.uncharge_keeps h1))
  · exact State.report_keeps (State.rwr_keeps (State.mark_keeps h))
  · exact State.report_keeps (State.rwr_keeps (State.mark_keeps h))
  · exact h

theorem State.bsnRead_keeps {s0 : State} {p1 : Machine.State} {p2 : BsnObj} {p3 : Option Nat} (hp1 : Keeps s0 (p1)) : Keeps s0 (@State.bsnRead p1 p2 p3).2 := by
  unfold State.bsnRead
  split
  · refine keepsP_mk ?_
    exact hp1
  · split
    · refine keepsP_ite (fun _ => ?_) (fun _ => ?_)
      · extract_lets +onlyGivenNames -merge -underBinder x1
        have h2 : Keeps s0 (x1) := by
          unfold x1
          refine State.basinLost_keeps ?_
          · exact hp1
        clear_value x1
        apply keeps_gen x1 h2
        clear h2
        intro x1 h2
        split
        · rename_i h5e
          have h5 : Keeps s0 _ := keeps_of_eq h5e (by
            refine State.draw_keeps ?_
            · exact h2
            )
          refine keepsP_mk ?_
          exact h5
      · refine keepsP_mk ?_
        exact hp1
    · refine keepsP_mk ?_
      exact hp1

theorem State.setTail_keeps {s0 : State} {p1 : Machine.State} {p2 : Nat} {p3 : Nat × Nat} (hp1 : Keeps s0 (p1)) : Keeps s0 (@State.setTail p1 p2 p3) := by
  unfold State.setTail
  refine State.rwr_keeps ?_
  · refine State.rwr_keeps ?_
    · refine State.rwr_keeps ?_
      · exact hp1

theorem State.queueStart_keeps {s0 : State} {p1 : Machine.State} {p2 : Nat} (hp1 : Keeps s0 (p1)) : Keeps s0 (@State.queueStart p1 p2) := by
  unfold State.queueStart
  split
  · rename_i h2e
    have h2 : Keeps s0 _ := keeps_of_eq h2e (by
      refine State.allocCell_keeps ?_
      · exact hp1
      )
    exact h2
  · rename_i h5e
    have h5 : Keeps s0 _ := keeps_of_eq h5e (by
      refine State.allocCell_keeps ?_
      · exact hp1
      )
    refine State.setBq_keeps ?_
    · refine State.wr_keeps ?_
      · refine State.rwr_keeps ?_
        · refine State.setTail_keeps ?_
          · refine State.setHead_keeps ?_
            · exact h5

theorem State.queueConfig_keeps {s0 : State} {p1 : Machine.State} {p2 : Nat} {p3 : List Word} (hp1 : Keeps s0 (p1)) : Keeps s0 (@State.queueConfig p1 p2 p3).2 := by
  unfold State.queueConfig
  extract_lets +onlyGivenNames -merge -underBinder x1
  try clear_value x1
  refine keepsP_ite (fun _ => ?_) (fun _ => ?_)
  · refine keepsP_mk ?_
    exact hp1
  · extract_lets +onlyGivenNames -merge -underBinder x2
    try clear_value x2
    extract_lets +onlyGivenNames -merge -underBinder x3
    try clear_value x3
    extract_lets +onlyGivenNames -merge -underBinder x4
    have h5 : Keeps s0 (x4) := by
      unfold x4
      refine State.recStore_keeps ?_
      · exact hp1
    clear_value x4
    apply keeps_gen x4 h5
    clear h5
    intro x4 h5
    extract_lets +onlyGivenNames -merge -underBinder x6
    have h7 : Keeps s0 (x6) := by
      unfold x6
      refine keeps_ite (fun _ => ?_) (fun _ => ?_)
      · refine State.rwr_keeps ?_
        · exact h5
      · exact h5
    clear_value x6
    apply keeps_gen x6 h7
    clear h7
    intro x6 h7
    refine keepsP_mk ?_
    refine keeps_ite (fun _ => ?_) (fun _ => ?_)
    · refine State.queueStart_keeps ?_
      · exact h7
    · exact h7

theorem State.nodeConfig_keeps {s0 : State} {p1 : Machine.State} {p2 : Nat} {p3 : Nat} {p4 : List Word} (hp1 : Keeps s0 (p1)) : Keeps s0 (@State.nodeConfig p1 p2 p3 p4).2 := by
  unfold State.nodeConfig
  extract_lets +onlyGivenNames -merge -underBinder x1
  try clear_value x1
  extract_lets +onlyGivenNames -merge -underBinder x2
  try clear_value x2
  refine keepsP_ite (fun _ => ?_) (fun _ => ?_)
  · refine keepsP_mk ?_
    exact hp1
  · extract_lets +onlyGivenNames -merge -underBinder x3
    try clear_value x3
    extract_lets +onlyGivenNames -merge -underBinder x4
    have h5 : Keeps s0 (x4) := by
      unfold x4
      refine State.recStore_keeps ?_
      · exact hp1
    clear_value x4
    apply keeps_gen x4 h5
    clear h5
    intro x4 h5
    refine keepsP_mk ?_
    refine keeps_ite (fun _ => ?_) (fun _ => ?_)
    · refine State.rwr_keeps ?_
      · exact h5
    · exact h5

theorem State.policerConfig_keeps {s0 : State} {p1 : Machine.State} {p2 : Nat} {p3 : List Word} (hp1 : Keeps s0 (p1)) : Keeps s0 (@State.policerConfig p1 p2 p3).2 := by
  unfold State.policerConfig
  refine keepsP_ite (fun _ => ?_) (fun _ => ?_)
  · refine keepsP_mk ?_
    exact hp1
  · refine keepsP_ite (fun _ => ?_) (fun _ => ?_)
    · refine keepsP_mk ?_
      exact hp1
    · refine keepsP_mk ?_
      refine State.recStore_keeps ?_
      · exact hp1

theorem State.bsnConfig_keeps {s0 : State} {p1 : Machine.State} {p2 : BsnObj} {p3 : List Word} (hp1 : Keeps s0 (p1)) : Keeps s0 (@State.bsnConfig p1 p2 p3).2 := by
  unfold State.bsnConfig
  split
  · refine State.queueConfig_keeps ?_
    · exact hp1
  · refine State.nodeConfig_keeps ?_
    · exact hp1
  · refine State.policerConfig_keeps ?_
    · exact hp1
  · refine keepsP_mk ?_
    exact hp1

theorem State.bsnDisable_keeps {s0 : State} {p1 : Machine.State} {p2 : BsnObj} (hp1 : Keeps s0 (p1)) : Keeps s0 (@State.bsnDisable p1 p2).2 := by
  unfold State.bsnDisable
  split
  · refine keepsP_ite (fun _ => ?_) (fun _ => ?_)
    · refine keepsP_mk ?_
      exact hp1
    · refine keepsP_ite (fun _ => ?_) (fun _ => ?_)
      · refine keepsP_mk ?_
        exact hp1
      · refine keepsP_mk ?_
        refine State.rwr_keeps ?_
        · exact hp1
  · refine keepsP_ite (fun _ => ?_) (fun _ => ?_)
    · refine keepsP_mk ?_
      exact hp1
    · refine keepsP_ite (fun _ => ?_) (fun _ => ?_)
      · refine keepsP_mk ?_
        exact hp1
      · refine keepsP_mk ?_
        refine State.rwr_keeps ?_
        · refine State.rwr_keeps ?_
          · exact hp1
  · refine keepsP_ite (fun _ => ?_) (fun _ => ?_)
    · refine keepsP_mk ?_
      refine State.rwr_keeps ?_
      · exact hp1
    · refine keepsP_mk ?_
      exact hp1
  · refine keepsP_mk ?_
    exact hp1

theorem State.bsnAct_keeps {s0 : State} {p1 : Machine.State} {p2 : Nat} {p3 : BsnObj} {p4 : List Word} {p5 : Option Nat} (hp1 : Keeps s0 (p1)) : Keeps s0 (@State.bsnAct p1 p2 p3 p4 p5).2 := by
  unfold State.bsnAct
  split
  · refine State.bsnRead_keeps ?_
    · exact hp1
  · refine State.bsnConfig_keeps ?_
    · exact hp1
  · refine State.bsnDisable_keeps ?_
    · exact hp1
  · refine keepsP_mk ?_
    exact hp1

theorem State.bsnFinish_keeps {s0 : State} {p1 : Machine.State} {p2 : HeldCmd} (hp1 : Keeps s0 (p1)) : Keeps s0 (@State.bsnFinish p1 p2) := by
  unfold State.bsnFinish
  extract_lets +onlyGivenNames -merge -underBinder x1
  have h2 : Keeps s0 (x1) := by
    unfold x1
    split
    · refine keeps_foldl ?_ (fun a x ha => ?_)
      · exact hp1
      · skip
        refine State.setReg_keeps ?_
        · exact ha
    · exact hp1
  clear_value x1
  apply keeps_gen x1 h2
  clear h2
  intro x1 h2
  refine State.unmark_keeps ?_
  · refine State.wr_keeps ?_
    · exact h2

theorem State.bsnCmd_keeps {s0 : State} {p1 : Machine.State} {p2 : Nat} {p3 : Nat} {p4 : Option Nat} (hp1 : Keeps s0 (p1)) : Keeps s0 (@State.bsnCmd p1 p2 p3 p4) := by
  unfold State.bsnCmd
  refine keeps_ite (fun _ => ?_) (fun _ => ?_)
  · refine State.mark_keeps ?_
    · exact hp1
  · extract_lets +onlyGivenNames -merge -underBinder x1
    have h2 : Keeps s0 (x1) := by
      unfold x1
      refine State.mark_keeps ?_
      · refine State.wr_keeps ?_
        · refine State.wr_keeps ?_
          · exact hp1
    clear_value x1
    apply keeps_gen x1 h2
    clear h2
    intro x1 h2
    extract_lets +onlyGivenNames -merge -underBinder x3
    try clear_value x3
    split
    · rename_i h6e
      have h6 : Keeps s0 _ := keeps_of_eq h6e (by
        refine State.bsnAct_keeps ?_
        · exact h2
        )
      extract_lets +onlyGivenNames -merge -underBinder x7
      try clear_value x7
      refine keeps_ite (fun _ => ?_) (fun _ => ?_)
      · refine State.bsnFinish_keeps ?_
        · exact h6
      · exact keeps_upd h6 rfl rfl rfl rfl rfl rfl rfl rfl rfl rfl rfl rfl (.inl rfl)

theorem bsnEngine_keeps {s0 : State} {p1 : Nat} {p2 : Option Nat} {p3 : EngineOp} {p4 : Machine.State} (hp4 : Keeps s0 (p4)) : Keeps s0 (@bsnEngine p1 p2 p3 p4).2 := by
  unfold bsnEngine
  extract_lets +onlyGivenNames -merge -underBinder x1
  try clear_value x1
  refine keepsP_ite (fun _ => ?_) (fun _ => ?_)
  · refine keepsP_mk ?_
    exact hp4
  · split
    · rename_i h4e
      have h4 : Keeps s0 _ := keeps_of_eq h4e (by
        refine State.bsnAct_keeps ?_
        · exact hp4
        )
      refine keepsP_mk ?_
      exact h4

theorem State.bsnOp_keeps {s0 : State} {p1 : Machine.State} {p2 : Path} {p3 : Nat} {p4 : Nat} {p5 : Option Nat} (hp1 : Keeps s0 (p1)) : KeepsO s0 (@State.bsnOp p1 p2 p3 p4 p5) := by
  unfold State.bsnOp
  extract_lets +onlyGivenNames -merge -underBinder x1
  try clear_value x1
  split
  · refine keepsO_ite (fun _ => ?_) (fun _ => ?_)
    · refine keepsO_next ?_
      refine State.bsnCmd_keeps ?_
      · exact hp1
    · refine keepsO_next ?_
      exact hp1
  · refine State.engineCall_keeps ?_ ?_
    · exact hp1
    · intro q2 q3 hq3
      refine bsnEngine_keeps ?_
      · exact hq3

theorem execQueueDisable_keeps {s0 : State} {p1 : Path} {p2 : Machine.State} (hp2 : Keeps s0 (p2)) : KeepsO s0 (@execQueueDisable p1 p2) := by
  unfold execQueueDisable
  refine State.bsnOp_keeps ?_
  · exact hp2

theorem State.freeCellsOf_keeps {s0 s : State} {l : List (Nat × Nat)} (h : Keeps s0 s) : Keeps s0 (s.freeCellsOf l) := by
  induction l generalizing s with
  | nil => exact h
  | cons p t ih =>
    obtain ⟨c, g⟩ := p
    unfold State.freeCellsOf
    split
    · exact ih (State.mark_keeps (State.lose_keeps h))
    · exact ih (keeps_upd h rfl rfl rfl rfl rfl rfl rfl rfl rfl rfl rfl rfl (.inl rfl))

theorem State.bsnCmdWrite_keeps {s0 : State} {p1 : Machine.State} {p2 : Word} (hp1 : Keeps s0 (p1)) : Keeps s0 (@State.bsnCmdWrite p1 p2) := by
  unfold State.bsnCmdWrite
  refine State.bsnCmd_keeps ?_
  · exact hp1

theorem State.bsnPoolWrite_keeps {s0 : State} {p1 : Machine.State} {p2 : Word} (hp1 : Keeps s0 (p1)) : Keeps s0 (@State.bsnPoolWrite p1 p2) := by
  unfold State.bsnPoolWrite
  refine keeps_ite (fun _ => ?_) (fun _ => ?_)
  · refine State.mark_keeps ?_
    · exact hp1
  · extract_lets +onlyGivenNames -merge -underBinder x1
    have h2 : Keeps s0 (x1) := by
      unfold x1
      refine State.unmark_keeps ?_
      · refine State.plainWrite_keeps ?_
        · exact hp1
    clear_value x1
    apply keeps_gen x1 h2
    clear h2
    intro x1 h2
    exact keeps_upd h2 rfl rfl rfl rfl rfl rfl rfl rfl rfl rfl rfl rfl (.inl rfl)

theorem execBsnPoolWrite_keeps {s0 : State} {p1 : Word} {p2 : Machine.State} (hp2 : Keeps s0 (p2)) : KeepsO s0 (@execBsnPoolWrite p1 p2) := by
  unfold execBsnPoolWrite
  refine guardRsvd_keeps ?_
  · refine keepsO_ite (fun _ => ?_) (fun _ => ?_)
    · exact keepsO_fault
    · refine keepsO_next ?_
      refine State.bsnPoolWrite_keeps ?_
      · exact hp2

theorem State.bsnFifoWrite_keeps {s0 : State} {p1 : Machine.State} {p2 : Word} (hp1 : Keeps s0 (p1)) : Keeps s0 (@State.bsnFifoWrite p1 p2) := by
  unfold State.bsnFifoWrite
  refine keeps_ite (fun _ => ?_) (fun _ => ?_)
  · refine State.mark_keeps ?_
    · exact hp1
  · refine State.plainWrite_keeps ?_
    · exact hp1

theorem State.bsnResWrite_keeps {s0 : State} {p1 : Machine.State} {p2 : Nat} {p3 : Word} (hp1 : Keeps s0 (p1)) : Keeps s0 (@State.bsnResWrite p1 p2 p3) := by
  unfold State.bsnResWrite
  extract_lets +onlyGivenNames -merge -underBinder x1
  have h2 : Keeps s0 (x1) := by
    unfold x1
    refine State.plainWrite_keeps ?_
    · exact hp1
  clear_value x1
  apply keeps_gen x1 h2
  clear h2
  intro x1 h2
  refine keeps_ite (fun _ => ?_) (fun _ => ?_)
  · refine State.mark_keeps ?_
    · exact hp1
  · exact h2

theorem State.refillPolicers_keeps {s0 : State} {p1 : Machine.State} {p2 : Nat} (hp1 : Keeps s0 (p1)) : Keeps s0 (@State.refillPolicers p1 p2) := by
  unfold State.refillPolicers
  refine keeps_foldl ?_ (fun a x ha => ?_)
  · exact hp1
  · skip
    refine keeps_ite (fun _ => ?_) (fun _ => ?_)
    · refine State.rwr_keeps ?_
      · refine State.rwr_keeps ?_
        · exact ha
    · exact ha

theorem State.chainBroken_keeps {s0 : State} {p1 : Machine.State} {p2 : Nat} {p3 : Nat} {p4 : Nat} {p5 : Bool} (hp1 : Keeps s0 (p1)) : Keeps s0 (@State.chainBroken p1 p2 p3 p4 p5) := by
  unfold State.chainBroken
  refine State.count_keeps ?_
  · refine State.mark_keeps ?_
    · refine State.report_keeps ?_
      · exact hp1

theorem State.setMapper_keeps {s0 : State} {p1 : Machine.State} {p2 : Nat} {p3 : Int} (hp1 : Keeps s0 (p1)) : Keeps s0 (@State.setMapper p1 p2 p3) := by
  unfold State.setMapper
  exact keeps_upd hp1 rfl rfl rfl rfl rfl rfl rfl rfl rfl rfl rfl rfl (.inl rfl)

theorem State.chargeMapper_keeps {s0 : State} {p1 : Machine.State} {p2 : Nat} {p3 : Nat} (hp1 : Keeps s0 (p1)) : Keeps s0 (@State.chargeMapper p1 p2 p3) := by
  unfold State.chargeMapper
  refine State.setMapper_keeps ?_
  · exact hp1

theorem State.refillMappers_keeps {s0 : State} {p1 : Machine.State} {p2 : Nat} (hp1 : Keeps s0 (p1)) : Keeps s0 (@State.refillMappers p1 p2) := by
  unfold State.refillMappers
  refine keeps_foldl ?_ (fun a x ha => ?_)
  · exact hp1
  · skip
    extract_lets +onlyGivenNames -merge -underBinder x1
    try clear_value x1
    refine keeps_ite (fun _ => ?_) (fun _ => ?_)
    · refine State.setMapper_keeps ?_
      · exact ha
    · exact ha

theorem State.refillShapers_keeps {s0 : State} {p1 : Machine.State} {p2 : Nat} (hp1 : Keeps s0 (p1)) : Keeps s0 (@State.refillShapers p1 p2) := by
  unfold State.refillShapers
  extract_lets +onlyGivenNames -merge -underBinder x1
  have h2 : Keeps s0 (x1) := by
    unfold x1
    refine keeps_foldl ?_ (fun a x ha => ?_)
    · exact hp1
    · skip
      refine keeps_ite (fun _ => ?_) (fun _ => ?_)
      · refine State.rwr_keeps ?_
        · exact ha
      · exact ha
  clear_value x1
  apply keeps_gen x1 h2
  clear h2
  intro x1 h2
  refine keeps_foldl ?_ (fun a x ha => ?_)
  · exact h2
  · skip
    refine keeps_ite (fun _ => ?_) (fun _ => ?_)
    · refine State.rwr_keeps ?_
      · exact ha
    · exact ha

theorem State.cellFailed_keeps {s0 : State} {p1 : Machine.State} {p2 : Nat} {p3 : Nat} {p4 : Bool} (hp1 : Keeps s0 (p1)) : Keeps s0 (@State.cellFailed p1 p2 p3 p4) := by
  unfold State.cellFailed
  refine State.report_keeps ?_
  · exact hp1

theorem execNodeConfig_keeps {s0 : State} {p1 : Path} {p2 : Machine.State} (hp2 : Keeps s0 (p2)) : KeepsO s0 (@execNodeConfig p1 p2) := by
  unfold execNodeConfig
  refine State.bsnOp_keeps ?_
  · exact hp2

theorem execQueueRead_keeps {s0 : State} {p1 : Path} {p2 : Option Nat} {p3 : Machine.State} (hp3 : Keeps s0 (p3)) : KeepsO s0 (@execQueueRead p1 p2 p3) := by
  unfold execQueueRead
  refine State.bsnOp_keeps ?_
  · exact hp3

theorem State.subFrames_keeps {s0 : State} {p1 : Machine.State} {p2 : Nat} {p3 : Nat} (hp1 : Keeps s0 (p1)) : Keeps s0 (@State.subFrames p1 p2 p3) := by
  unfold State.subFrames
  refine State.rwr_keeps ?_
  · exact hp1

theorem State.putCell_keeps {s0 : State} {p1 : Machine.State} {p2 : Nat × Nat} {p3 : Octets} (hp1 : Keeps s0 (p1)) : Keeps s0 (@State.putCell p1 p2 p3).2 := by
  unfold State.putCell
  refine State.culWrite_keeps ?_
  · exact hp1

theorem execPolicerRead_keeps {s0 : State} {p1 : Path} {p2 : Option Nat} {p3 : Machine.State} (hp3 : Keeps s0 (p3)) : KeepsO s0 (@execPolicerRead p1 p2 p3) := by
  unfold execPolicerRead
  refine State.bsnOp_keeps ?_
  · exact hp3

theorem State.breakAt_keeps {s0 : State} {p1 : Machine.State} {p2 : Nat} {p3 : QFrame} (hp1 : Keeps s0 (p1)) : Keeps s0 (@State.breakAt p1 p2 p3) := by
  unfold State.breakAt
  extract_lets +onlyGivenNames -merge -underBinder x1
  try clear_value x1
  extract_lets +onlyGivenNames -merge -underBinder x2
  try clear_value x2
  extract_lets +onlyGivenNames -merge -underBinder x3
  have h4 : Keeps s0 (x3) := by
    unfold x3
    refine keeps_ite (fun _ => ?_) (fun _ => ?_)
    · exact hp1
    · refine State.setBq_keeps ?_
      · exact hp1
  clear_value x3
  apply keeps_gen x3 h4
  clear h4
  intro x3 h4
  refine State.count_keeps ?_
  · refine State.mark_keeps ?_
    · refine State.fixHead_keeps ?_
      · refine State.setTail_keeps ?_
        · exact h4

theorem State.refuseFrame_keeps {s0 : State} {p1 : Machine.State} {p2 : Nat} {p3 : QFrame} {p4 : Nat} (hp1 : Keeps s0 (p1)) : Keeps s0 (@State.refuseFrame p1 p2 p3 p4) := by
  unfold State.refuseFrame
  extract_lets +onlyGivenNames -merge -underBinder x1
  try clear_value x1
  extract_lets +onlyGivenNames -merge -underBinder x2
  try clear_value x2
  extract_lets +onlyGivenNames -merge -underBinder x3
  have h4 : Keeps s0 (x3) := by
    unfold x3
    refine State.cellFailed_keeps ?_
    · refine State.lose_keeps ?_
      · refine State.count_keeps ?_
        · refine State.subCells_keeps ?_
          · refine State.uncharge_keeps ?_
            · exact hp1
  clear_value x3
  apply keeps_gen x3 h4
  clear h4
  intro x3 h4
  extract_lets +onlyGivenNames -merge -underBinder x5
  try clear_value x5
  extract_lets +onlyGivenNames -merge -underBinder x6
  have h7 : Keeps s0 (x6) := by
    unfold x6
    refine State.freeCellsOf_keeps ?_
    · exact h4
  clear_value x6
  apply keeps_gen x6 h7
  clear h7
  intro x6 h7
  extract_lets +onlyGivenNames -merge -underBinder x8
  try clear_value x8
  refine keeps_ite (fun _ => ?_) (fun _ => ?_)
  · refine State.breakAt_keeps ?_
    · exact h7
  · split
    · rename_i h10e
      have h10 : Keeps s0 _ := keeps_of_eq h10e (by
        refine State.putCell_keeps ?_
        · exact h7
        )
      extract_lets +onlyGivenNames -merge -underBinder x11
      try clear_value x11
      refine State.count_keeps ?_
      · refine State.fixHead_keeps ?_
        · refine State.setTail_keeps ?_
          · refine State.setBq_keeps ?_
            · exact h10
    · rename_i h13e
      have h13 : Keeps s0 _ := keeps_of_eq h13e (by
        refine State.putCell_keeps ?_
        · exact h7
        )
      extract_lets +onlyGivenNames -merge -underBinder x14
      try clear_value x14
      refine State.breakAt_keeps ?_
      · refine State.cellFailed_keeps ?_
        · refine State.lose_keeps ?_
          · exact h13

theorem execBsnCmdInvalid_keeps {s0 : State} {p1 : Path} {p2 : Bool} {p3 : Fin 4} {p4 : Machine.State} (hp4 : Keeps s0 (p4)) : KeepsO s0 (@execBsnCmdInvalid p1 p2 p3 p4) := by
  unfold execBsnCmdInvalid
  extract_lets +onlyGivenNames -merge -underBinder x1
  try clear_value x1
  split
  · refine keepsO_ite (fun _ => ?_) (fun _ => ?_)
    · refine keepsO_next ?_
      refine State.bsnCmd_keeps ?_
      · exact hp4
    · refine keepsO_next ?_
      exact hp4
  · refine State.engineCall_keeps ?_ ?_
    · exact hp4
    · intro q2 q3 hq3
      refine bsnEngine_keeps ?_
      · exact hq3

theorem State.skipVoid_keeps {s0 : State} {p1 : Machine.State} {p2 : Nat} (hp1 : Keeps s0 (p1)) : Keeps s0 (@State.skipVoid p1 p2) := by
  unfold State.skipVoid
  extract_lets +onlyGivenNames -merge -underBinder x1
  try clear_value x1
  extract_lets +onlyGivenNames -merge -underBinder x2
  try clear_value x2
  refine State.fixHead_keeps ?_
  · refine State.freeCellsOf_keeps ?_
    · refine State.setBq_keeps ?_
      · exact hp1

theorem State.meetBreak_keeps {s0 s : State} {q : Nat} {f : QFrame} (h : Keeps s0 s) : Keeps s0 (s.meetBreak q f) := by
  unfold State.meetBreak
  extract_lets c
  have h1 := State.loseQueue_keeps (q := q) (State.chainBroken_keeps (p2 := q) (p3 := c.1) (p4 := c.2) (p5 := false)
    (Keeps.refl s.holdReports))
  cases e : (s.holdReports.chainBroken q c.1 c.2 false).loseQueue q with
  | mk n y =>
    cases y with
    | mk oct s1 =>
      rw [e] at h1
      exact State.takeReports_keeps h (keeps_ite (fun _ => h1) (fun _ => State.breach21_keeps h1))

theorem State.takeHead_keeps {s0 : State} {p1 : Machine.State} {p2 : Nat} (hp1 : Keeps s0 (p1)) : Keeps s0 (@State.takeHead p1 p2).2 := by
  unfold State.takeHead
  extract_lets +onlyGivenNames -merge -underBinder x1
  have h2 : Keeps s0 (x1) := by
    unfold x1
    refine State.skipVoid_keeps ?_
    · exact hp1
  clear_value x1
  apply keeps_gen x1 h2
  clear h2
  intro x1 h2
  extract_lets +onlyGivenNames -merge -underBinder x3
  try clear_value x3
  split
  · refine keepsP_mk ?_
    exact h2
  · refine keepsP_ite (fun _ => ?_) (fun _ => ?_)
    · refine keepsP_mk ?_
      refine State.meetBreak_keeps ?_
      · exact h2
    · extract_lets +onlyGivenNames -merge -underBinder x4
      have h5 : Keeps s0 (x4) := by
        unfold x4
        refine State.subCells_keeps ?_
        · refine State.subFrames_keeps ?_
          · refine State.setBq_keeps ?_
            · exact h2
      clear_value x4
      apply keeps_gen x4 h5
      clear h5
      intro x4 h5
      refine keepsP_mk ?_
      refine State.count_keeps ?_
      · refine State.skipVoid_keeps ?_
        · exact h5

theorem State.chargePath_keeps {s0 : State} {p1 : Machine.State} {p2 : Nat} {p3 : Nat} (hp1 : Keeps s0 (p1)) : Keeps s0 (@State.chargePath p1 p2 p3) := by
  unfold State.chargePath
  extract_lets +onlyGivenNames -merge -underBinder x1
  try clear_value x1
  extract_lets +onlyGivenNames -merge -underBinder x2
  try clear_value x2
  extract_lets +onlyGivenNames -merge -underBinder x3
  try clear_value x3
  extract_lets +onlyGivenNames -merge -underBinder x4
  have h5 : Keeps s0 (x4) := by
    unfold x4
    refine keeps_ite (fun _ => ?_) (fun _ => ?_)
    · refine State.rwr_keeps ?_
      · exact hp1
    · exact hp1
  clear_value x4
  apply keeps_gen x4 h5
  clear h5
  intro x4 h5
  refine keeps_foldl ?_ (fun a x ha => ?_)
  · exact h5
  · skip
    refine keeps_ite (fun _ => ?_) (fun _ => ?_)
    · refine State.rwr_keeps ?_
      · exact ha
    · exact ha

theorem execPolicerDisable_keeps {s0 : State} {p1 : Path} {p2 : Machine.State} (hp2 : Keeps s0 (p2)) : KeepsO s0 (@execPolicerDisable p1 p2) := by
  unfold execPolicerDisable
  refine State.bsnOp_keeps ?_
  · exact hp2

theorem State.writeCells_keeps {s0 s : State} {q : Nat} {f : QFrame} {l : List Nat} (h : Keeps s0 s) :
    Keeps s0 (s.writeCells q f l).2 := by
  induction l generalizing s with
  | nil => exact h
  | cons k t ih =>
    unfold State.writeCells
    have h1 : Keeps s0 (s.putCell (f.cells.getD k (0, 0)) (cellOctets q f k false)).2 := State.putCell_keeps h
    split
    · rename_i e; exact ih (keeps_of_eq e h1)
    · rename_i e; exact keeps_of_eq e h1

theorem State.addFrames_keeps {s0 : State} {p1 : Machine.State} {p2 : Nat} {p3 : Nat} (hp1 : Keeps s0 (p1)) : Keeps s0 (@State.addFrames p1 p2 p3) := by
  unfold State.addFrames
  refine State.rwr_keeps ?_
  · exact hp1

theorem State.acceptFrame_keeps {s0 : State} {p1 : Machine.State} {p2 : Nat} {p3 : QFrame} (hp1 : Keeps s0 (p1)) : Keeps s0 (@State.acceptFrame p1 p2 p3) := by
  unfold State.acceptFrame
  extract_lets +onlyGivenNames -merge -underBinder x1
  try clear_value x1
  refine State.count_keeps ?_
  · refine State.count_keeps ?_
    · refine State.addFrames_keeps ?_
      · refine State.fixHead_keeps ?_
        · refine State.setTail_keeps ?_
          · refine State.setBq_keeps ?_
            · exact hp1

theorem execFrameEnqueue_keeps {s0 : State} {p1 : BitVec 20} {p2 : Machine.State} (hp2 : Keeps s0 (p2)) : KeepsO s0 (@execFrameEnqueue p1 p2) := by
  unfold execFrameEnqueue
  extract_lets +onlyGivenNames -merge -underBinder x1
  try clear_value x1
  extract_lets +onlyGivenNames -merge -underBinder x2
  try clear_value x2
  split
  · refine keepsO_next ?_
    exact hp2
  · split
    · rename_i h4e
      have h4 : Keeps s0 _ := keeps_of_eq h4e (by
        refine State.writeCells_keeps ?_
        · refine State.setBq_keeps ?_
          · exact hp2
        )
      refine keepsO_next ?_
      refine State.acceptFrame_keeps ?_
      · exact h4
    · rename_i h7e
      have h7 : Keeps s0 _ := keeps_of_eq h7e (by
        refine State.writeCells_keeps ?_
        · refine State.setBq_keeps ?_
          · exact hp2
        )
      refine keepsO_next ?_
      refine State.refuseFrame_keeps ?_
      · exact h7

theorem execBsnResWrite_keeps {s0 : State} {p1 : Group} {p2 : Word} {p3 : Machine.State} (hp3 : Keeps s0 (p3)) : KeepsO s0 (@execBsnResWrite p1 p2 p3) := by
  unfold execBsnResWrite
  refine guardRsvd_keeps ?_
  · refine keepsO_next ?_
    refine State.bsnResWrite_keeps ?_
    · exact hp3

theorem execQueueConfig_keeps {s0 : State} {p1 : Path} {p2 : Machine.State} (hp2 : Keeps s0 (p2)) : KeepsO s0 (@execQueueConfig p1 p2) := by
  unfold execQueueConfig
  refine State.bsnOp_keeps ?_
  · exact hp2

theorem execQueueDrainEnd_keeps {s0 : State} {p1 : BitVec 20} {p2 : Machine.State} (hp2 : Keeps s0 (p2)) : KeepsO s0 (@execQueueDrainEnd p1 p2) := by
  unfold execQueueDrainEnd
  extract_lets +onlyGivenNames -merge -underBinder x1
  try clear_value x1
  extract_lets +onlyGivenNames -merge -underBinder x2
  try clear_value x2
  refine keepsO_ite (fun _ => ?_) (fun _ => ?_)
  · extract_lets +onlyGivenNames -merge -underBinder x3
    have h4 : Keeps s0 (x3) := by
      unfold x3
      refine State.skipVoid_keeps ?_
      · exact hp2
    clear_value x3
    apply keeps_gen x3 h4
    clear h4
    intro x3 h4
    extract_lets +onlyGivenNames -merge -underBinder x5
    have h6 : Keeps s0 (x5) := by
      unfold x5
      refine State.wr_keeps ?_
      · refine State.freeCellsOf_keeps ?_
        · exact h4
    clear_value x5
    apply keeps_gen x5 h6
    clear h6
    intro x5 h6
    refine keepsO_next ?_
    refine State.rwr_keeps ?_
    · refine State.rwr_keeps ?_
      · exact h6
  · refine keepsO_next ?_
    exact hp2

theorem execNodeRead_keeps {s0 : State} {p1 : Path} {p2 : Option Nat} {p3 : Machine.State} (hp3 : Keeps s0 (p3)) : KeepsO s0 (@execNodeRead p1 p2 p3) := by
  unfold execNodeRead
  refine State.bsnOp_keeps ?_
  · exact hp3

theorem execNodeDisable_keeps {s0 : State} {p1 : Path} {p2 : Machine.State} (hp2 : Keeps s0 (p2)) : KeepsO s0 (@execNodeDisable p1 p2) := by
  unfold execNodeDisable
  refine State.bsnOp_keeps ?_
  · exact hp2

theorem execPolicerConfig_keeps {s0 : State} {p1 : Path} {p2 : Machine.State} (hp2 : Keeps s0 (p2)) : KeepsO s0 (@execPolicerConfig p1 p2) := by
  unfold execPolicerConfig
  refine State.bsnOp_keeps ?_
  · exact hp2

theorem execPoolReady_keeps {s0 : State} {p1 : Machine.State} (hp1 : Keeps s0 (p1)) : KeepsO s0 (@execPoolReady p1) := by
  unfold execPoolReady
  refine keepsO_next ?_
  refine keeps_ite (fun _ => ?_) (fun _ => ?_)
  · refine State.mark_keeps ?_
    · exact keeps_upd hp1 rfl rfl rfl rfl rfl rfl rfl rfl rfl rfl rfl rfl (.inl rfl)
  · exact hp1

end Sys2Proof.Machine
end

