-- ==== Sys2Proof/Laws/KeepsColour.lean ====
section
/-! SUPPORT. What the definitions of Sys2Proof/Machine/Colour.lean keep: one lemma each, in the terms of `Keeps`. -/

namespace Sys2Proof.Machine

open Sys2Proof

theorem State.setLive_keeps {s0 : State} {p1 : Machine.State} {p2 : List Nat} (hp1 : Keeps s0 (p1)) : Keeps s0 (@State.setLive p1 p2) := by
  unfold State.setLive
  refine State.wr_keeps ?_
  · exact keeps_upd hp1 rfl rfl rfl rfl rfl rfl rfl rfl rfl rfl rfl rfl (.inl rfl)

theorem State.newEpoch_keeps {s0 : State} {p1 : Machine.State} {p2 : Bool} (hp1 : Keeps s0 (p1)) : Keeps s0 (@State.newEpoch p1 p2) := by
  unfold State.newEpoch
  extract_lets +onlyGivenNames -merge -underBinder x1
  try clear_value x1
  refine State.wr_keeps ?_
  · refine keeps_ite (fun _ => ?_) (fun _ => ?_)
    · refine State.setLive_keeps ?_
      · exact hp1
    · exact hp1

theorem State.makeLive_keeps {s0 : State} {p1 : Machine.State} (hp1 : Keeps s0 (p1)) : Keeps s0 (@State.makeLive p1) := by
  unfold State.makeLive
  refine keeps_foldl ?_ (fun a x ha => ?_)
  · exact hp1
  · skip
    refine State.setReg_keeps ?_
    · refine State.setReg_keeps ?_
      · refine State.setReg_keeps ?_
        · exact ha

theorem State.applyChange_keeps {s0 : State} {p1 : Machine.State} {p2 : HeldChange} {p3 : Bool} (hp1 : Keeps s0 (p1)) : Keeps s0 (@State.applyChange p1 p2 p3) := by
  unfold State.applyChange
  split
  · refine State.count_keeps ?_
    · refine State.newEpoch_keeps ?_
      · refine State.makeLive_keeps ?_
        · exact hp1
  · refine State.count_keeps ?_
    · refine State.newEpoch_keeps ?_
      · refine State.wr_keeps ?_
        · exact hp1

theorem State.retireEpochs_keeps {s0 : State} {p1 : Machine.State} {p2 : Nat → Bool} (hp1 : Keeps s0 (p1)) : Keeps s0 (@State.retireEpochs p1 p2) := by
  unfold State.retireEpochs
  extract_lets +onlyGivenNames -merge -underBinder x1
  try clear_value x1
  extract_lets +onlyGivenNames -merge -underBinder x2
  have h3 : Keeps s0 (x2) := by
    unfold x2
    refine State.setLive_keeps ?_
    · exact hp1
  clear_value x2
  apply keeps_gen x2 h3
  clear h3
  intro x2 h3
  split
  · refine keeps_ite (fun _ => ?_) (fun _ => ?_)
    · refine State.applyChange_keeps ?_
      · refine State.unmark_keeps ?_
        · exact keeps_upd h3 rfl rfl rfl rfl rfl rfl rfl rfl rfl rfl rfl rfl (.inl rfl)
    · exact h3
  · exact h3

theorem State.unlessPend_keeps {s0 : State} {p1 : Machine.State} {p2 : Machine.State} (hp1 : Keeps s0 (p1)) (hp2 : Keeps s0 (p2)) : Keeps s0 (@State.unlessPend p1 p2) := by
  unfold State.unlessPend
  refine keeps_ite (fun _ => ?_) (fun _ => ?_)
  · refine State.mark_keeps ?_
    · exact hp1
  · exact hp2

theorem State.changeRules_keeps {s0 : State} {p1 : Machine.State} {p2 : HeldChange} {p3 : Bool} (hp1 : Keeps s0 (p1)) : Keeps s0 (@State.changeRules p1 p2 p3) := by
  unfold State.changeRules
  refine keeps_ite (fun _ => ?_) (fun _ => ?_)
  · refine State.count_keeps ?_
    · refine State.mark_keeps ?_
      · exact keeps_upd hp1 rfl rfl rfl rfl rfl rfl rfl rfl rfl rfl rfl rfl (.inl rfl)
  · refine State.applyChange_keeps ?_
    · exact hp1

theorem State.commitTable_keeps {s0 : State} {p1 : Machine.State} {p2 : Bool} (hp1 : Keeps s0 (p1)) : Keeps s0 (@State.commitTable p1 p2) := by
  unfold State.commitTable
  refine State.unlessPend_keeps ?_ ?_
  · exact hp1
  · split
    · refine State.wr_keeps ?_
      · refine State.mark_keeps ?_
        · exact hp1
    · refine State.changeRules_keeps ?_
      · exact hp1

theorem execCommit_keeps {s0 : State} {p1 : Bool} {p2 : Machine.State} (hp2 : Keeps s0 (p2)) : KeepsO s0 (@execCommit p1 p2) := by
  unfold execCommit
  refine keepsO_ite (fun _ => ?_) (fun _ => ?_)
  · exact keepsO_fault
  · refine keepsO_next ?_
    refine State.commitTable_keeps ?_
    · exact hp2

theorem State.fenceStart_keeps {s0 : State} {p1 : Machine.State} (hp1 : Keeps s0 (p1)) : Keeps s0 (@State.fenceStart p1) := by
  unfold State.fenceStart
  refine keeps_ite (fun _ => ?_) (fun _ => ?_)
  · exact hp1
  · refine State.mark_keeps ?_
    · exact keeps_upd hp1 rfl rfl rfl rfl rfl rfl rfl rfl rfl rfl rfl rfl (.inl rfl)

theorem State.cmpStatWrite_keeps {s0 : State} {p1 : Machine.State} {p2 : Word} (hp1 : Keeps s0 (p1)) : Keeps s0 (@State.cmpStatWrite p1 p2) := by
  unfold State.cmpStatWrite
  extract_lets +onlyGivenNames -merge -underBinder x1
  have h2 : Keeps s0 (x1) := by
    unfold x1
    refine State.plainWrite_keeps ?_
    · exact hp1
  clear_value x1
  apply keeps_gen x1 h2
  clear h2
  intro x1 h2
  refine keeps_ite (fun _ => ?_) (fun _ => ?_)
  · refine State.setReg_keeps ?_
    · refine State.setReg_keeps ?_
      · exact h2
  · exact h2

theorem State.poolOwnWrite_keeps {s0 : State} {p1 : Machine.State} {p2 : Nat} {p3 : Nat} {p4 : Bool} (hp1 : Keeps s0 (p1)) : Keeps s0 (@State.poolOwnWrite p1 p2 p3 p4) := by
  unfold State.poolOwnWrite
  refine State.unlessPend_keeps ?_ ?_
  · exact hp1
  · refine keeps_ite (fun _ => ?_) (fun _ => ?_)
    · refine State.mark_keeps ?_
      · exact hp1
    · refine keeps_ite (fun _ => ?_) (fun _ => ?_)
      · exact hp1
      · refine State.changeRules_keeps ?_
        · exact hp1

theorem execHeldChangeApply_keeps {s0 : State} {p1 : Machine.State} (hp1 : Keeps s0 (p1)) : KeepsO s0 (@execHeldChangeApply p1) := by
  unfold execHeldChangeApply
  split
  · refine keepsO_next ?_
    exact hp1
  · refine keepsO_ite (fun _ => ?_) (fun _ => ?_)
    · refine keepsO_next ?_
      refine State.retireEpochs_keeps ?_
      · exact hp1
    · refine keepsO_next ?_
      exact hp1

theorem execCmpFenceDone_keeps {s0 : State} {p1 : Machine.State} (hp1 : Keeps s0 (p1)) : KeepsO s0 (@execCmpFenceDone p1) := by
  unfold execCmpFenceDone
  split
  · extract_lets +onlyGivenNames -merge -underBinder y2 x1
    try clear_value y2
    have h3 : Keeps s0 (x1) := by
      unfold x1
      exact keeps_upd hp1 rfl rfl rfl rfl rfl rfl rfl rfl rfl rfl rfl rfl (.inl rfl)
    clear_value x1
    apply keeps_gen x1 h3
    clear h3
    intro x1 h3
    refine keepsO_next ?_
    refine State.retireEpochs_keeps ?_
    · refine State.unmark_keeps ?_
      · exact h3
  · refine keepsO_next ?_
    exact hp1

theorem execCmpFenceStart_keeps {s0 : State} {p1 : Machine.State} (hp1 : Keeps s0 (p1)) : KeepsO s0 (@execCmpFenceStart p1) := by
  unfold execCmpFenceStart
  refine keepsO_next ?_
  refine State.fenceStart_keeps ?_
  · exact hp1

theorem execBalFenceCDone_keeps {s0 : State} {p1 : ThreadNo} {p2 : Machine.State} (hp2 : Keeps s0 (p2)) : KeepsO s0 (@execBalFenceCDone p1 p2) := by
  unfold execBalFenceCDone
  split
  · refine keepsO_next ?_
    refine State.resume_keeps ?_
    · refine State.retireEpochs_keeps ?_
      · exact hp2
  · refine keepsO_next ?_
    exact hp2

theorem execCmpStageWrite_keeps {s0 : State} {p1 : Fin 3} {p2 : Fin 512} {p3 : Word} {p4 : Machine.State} (hp4 : Keeps s0 (p4)) : KeepsO s0 (@execCmpStageWrite p1 p2 p3 p4) := by
  unfold execCmpStageWrite
  refine guardRsvd_keeps ?_
  · refine keepsO_next ?_
    refine State.unlessPend_keeps ?_ ?_
    · exact hp4
    · refine State.plainWrite_keeps ?_
      · exact hp4

theorem execPoolHandover_keeps {s0 : State} {p1 : PoolNo} {p2 : Word} {p3 : Bool} {p4 : Machine.State} (hp4 : Keeps s0 (p4)) : KeepsO s0 (@execPoolHandover p1 p2 p3 p4) := by
  unfold execPoolHandover
  refine guardRsvd_keeps ?_
  · refine keepsO_next ?_
    refine State.poolOwnWrite_keeps ?_
    · exact hp4

theorem execViolClear_keeps {s0 : State} {p1 : Word} {p2 : Machine.State} (hp2 : Keeps s0 (p2)) : KeepsO s0 (@execViolClear p1 p2) := by
  unfold execViolClear
  refine guardRsvd_keeps ?_
  · refine keepsO_next ?_
    refine State.cmpStatWrite_keeps ?_
    · exact hp2

end Sys2Proof.Machine
end

