-- ==== Sys2Proof/Laws/KeepsTide.lean ====
section
/-! SUPPORT. What the definitions of Sys2Proof/Machine/Tide.lean keep: one lemma each, in the terms of `Keeps`. -/

namespace Sys2Proof.Machine

open Sys2Proof

theorem State.clearOrders_keeps {s0 : State} {p1 : Machine.State} (hp1 : Keeps s0 (p1)) : Keeps s0 (@State.clearOrders p1) := by
  unfold State.clearOrders
  refine State.setReg_keeps ?_
  · refine State.setReg_keeps ?_
    · refine State.wr_keeps ?_
      · refine State.unmark_keeps ?_
        · exact keeps_upd hp1 rfl rfl rfl rfl rfl rfl rfl rfl rfl rfl rfl rfl (.inl rfl)

theorem State.timeTo_keeps {s0 : State} {p1 : Machine.State} {p2 : Word} (hp1 : Keeps s0 (p1)) : Keeps s0 (@State.timeTo p1 p2) := by
  unfold State.timeTo
  refine keeps_ite (fun _ => ?_) (fun _ => ?_)
  · exact keeps_upd hp1 rfl rfl rfl rfl rfl rfl rfl rfl rfl rfl rfl rfl (.inl rfl)
  · exact hp1

theorem State.dropCode_keeps {s0 : State} {p1 : Machine.State} {p2 : Nat} (hp1 : Keeps s0 (p1)) : Keeps s0 (@State.dropCode p1 p2) := by
  unfold State.dropCode
  refine keeps_foldl ?_ (fun a x ha => ?_)
  · exact hp1
  · skip
    refine keeps_ite (fun _ => ?_) (fun _ => ?_)
    · refine State.setCache_keeps ?_
      · exact ha
    · exact ha

theorem State.dropLatches_keeps {s0 : State} {p1 : Machine.State} {p2 : Master} (hp1 : Keeps s0 (p1)) : Keeps s0 (@State.dropLatches p1 p2) := by
  unfold State.dropLatches
  exact keeps_upd hp1 rfl rfl rfl rfl rfl rfl rfl rfl rfl rfl rfl rfl (.inl rfl)

theorem State.resetThread_keeps {s0 : State} {p1 : Machine.State} {p2 : Nat} (hp1 : Keeps s0 (p1)) : Keeps s0 (@State.resetThread p1 p2) := by
  unfold State.resetThread
  extract_lets +onlyGivenNames -merge -underBinder x1
  have h2 : Keeps s0 (x1) := by
    unfold x1
    split
    · refine State.report_keeps ?_
      · exact hp1
    · refine State.report_keeps ?_
      · exact hp1
    · exact hp1
  clear_value x1
  apply keeps_gen x1 h2
  clear h2
  intro x1 h2
  extract_lets +onlyGivenNames -merge -underBinder x3
  have h4 : Keeps s0 (x3) := by
    unfold x3
    refine State.dropLatches_keeps ?_
    · refine State.unmark_keeps ?_
      · refine State.abandonWork_keeps ?_
        · exact h2
  clear_value x3
  apply keeps_gen x3 h4
  clear h4
  intro x3 h4
  extract_lets +onlyGivenNames -merge -underBinder x5
  try clear_value x5
  refine State.setTstate_keeps ?_
  · refine State.setThread_keeps ?_
    · exact h4

theorem State.resetCores_keeps {s0 : State} {p1 : Machine.State} {p2 : Nat} (hp1 : Keeps s0 (p1)) : Keeps s0 (@State.resetCores p1 p2) := by
  unfold State.resetCores
  extract_lets +onlyGivenNames -merge -underBinder x1
  have h2 : Keeps s0 (x1) := by
    unfold x1
    refine State.takeReports_keeps hp1 ?_
    · refine keeps_foldl ?_ (fun a x ha => ?_)
      · exact Keeps.refl _
      · skip
        refine keeps_ite (fun _ => ?_) (fun _ => ?_)
        · refine State.resetThread_keeps ?_
          · exact ha
        · exact ha
  clear_value x1
  apply keeps_gen x1 h2
  clear h2
  intro x1 h2
  refine keeps_foldl ?_ (fun a x ha => ?_)
  · exact h2
  · skip
    refine keeps_ite (fun _ => ?_) (fun _ => ?_)
    · refine State.dropCaches_keeps ?_
      · exact ha
    · exact ha

theorem State.thrcfgWrite_keeps {s0 : State} {p1 : Machine.State} {p2 : Master} {p3 : Nat} {p4 : Word} (hp1 : Keeps s0 (p1)) : Keeps s0 (@State.thrcfgWrite p1 p2 p3 p4) := by
  unfold State.thrcfgWrite
  refine keeps_ite (fun _ => ?_) (fun _ => ?_)
  · refine State.mark_keeps ?_
    · exact hp1
  · refine State.setReg_keeps ?_
    · exact hp1

theorem State.startJob_keeps {s0 : State} {p1 : Machine.State} {p2 : Nat} {p3 : Job} {p4 : Word} {p5 : Bool} {p6 : Nat} {p7 : List Word} (hp1 : Keeps s0 (p1)) : Keeps s0 (@State.startJob p1 p2 p3 p4 p5 p6 p7) := by
  unfold State.startJob
  refine State.setTstate_keeps ?_
  · refine State.setThread_keeps ?_
    · exact hp1

theorem State.threadStart_keeps {s0 : State} {p1 : Machine.State} {p2 : Nat} (hp1 : Keeps s0 (p1)) : Keeps s0 (@State.threadStart p1 p2) := by
  unfold State.threadStart
  refine keeps_ite (fun _ => ?_) (fun _ => ?_)
  · refine State.mark_keeps ?_
    · exact hp1
  · refine keeps_ite (fun _ => ?_) (fun _ => ?_)
    · refine State.startJob_keeps ?_
      · exact hp1
    · refine State.setTstate_keeps ?_
      · refine State.setThread_keeps ?_
        · exact hp1

theorem State.goOff_keeps {s0 : State} {p1 : Machine.State} {p2 : Nat} (hp1 : Keeps s0 (p1)) : Keeps s0 (@State.goOff p1 p2) := by
  unfold State.goOff
  refine State.unmark_keeps ?_
  · refine State.setTstate_keeps ?_
    · refine State.setThread_keeps ?_
      · exact hp1

theorem State.threadStop_keeps {s0 : State} {p1 : Machine.State} {p2 : Nat} (hp1 : Keeps s0 (p1)) : Keeps s0 (@State.threadStop p1 p2) := by
  unfold State.threadStop
  refine keeps_ite (fun _ => ?_) (fun _ => ?_)
  · refine State.mark_keeps ?_
    · exact hp1
  · refine keeps_ite (fun _ => ?_) (fun _ => ?_)
    · exact hp1
    · extract_lets +onlyGivenNames -merge -underBinder x1
      have h2 : Keeps s0 (x1) := by
        unfold x1
        refine State.abandonWork_keeps ?_
        · exact hp1
      clear_value x1
      apply keeps_gen x1 h2
      clear h2
      intro x1 h2
      refine keeps_ite (fun _ => ?_) (fun _ => ?_)
      · refine State.goOff_keeps ?_
        · exact h2
      · refine State.mark_keeps ?_
        · refine State.setTstate_keeps ?_
          · refine State.setHold_keeps ?_
            · exact h2

theorem State.threadClear_keeps {s0 : State} {p1 : Machine.State} {p2 : Master} {p3 : Nat} (hp1 : Keeps s0 (p1)) : Keeps s0 (@State.threadClear p1 p2 p3) := by
  unfold State.threadClear
  refine keeps_ite (fun _ => ?_) (fun _ => ?_)
  · refine State.mark_keeps ?_
    · exact hp1
  · refine keeps_ite (fun _ => ?_) (fun _ => ?_)
    · refine State.goOff_keeps ?_
      · exact hp1
    · refine State.mark_keeps ?_
      · refine State.setHold_keeps ?_
        · exact hp1

theorem State.thrctlWrite_keeps {s0 : State} {p1 : Machine.State} {p2 : Master} {p3 : Nat} {p4 : Word} (hp1 : Keeps s0 (p1)) : Keeps s0 (@State.thrctlWrite p1 p2 p3 p4) := by
  unfold State.thrctlWrite
  split
  · exact hp1
  · refine State.threadStart_keeps ?_
    · exact hp1
  · refine State.threadStop_keeps ?_
    · exact hp1
  · refine State.threadClear_keeps ?_
    · exact hp1
  · refine State.mark_keeps ?_
    · exact hp1

theorem State.entryWrite_keeps {s0 : State} {p1 : Machine.State} {p2 : Master} {p3 : Nat} {p4 : Word} (hp1 : Keeps s0 (p1)) : Keeps s0 (@State.entryWrite p1 p2 p3 p4) := by
  unfold State.entryWrite
  refine keeps_ite (fun _ => ?_) (fun _ => ?_)
  · exact hp1
  · refine State.setReg_keeps ?_
    · exact hp1

theorem execClrtrap_keeps {s0 : State} {p1 : Master} {p2 : ThreadNo} {p3 : Machine.State} (hp3 : Keeps s0 (p3)) : KeepsO s0 (@execClrtrap p1 p2 p3) := by
  unfold execClrtrap
  refine keepsO_next ?_
  refine State.threadClear_keeps ?_
  · exact hp3

theorem State.stopDone_keeps {s0 : State} {p1 : Machine.State} {p2 : Nat} {p3 : Bool} (hp1 : Keeps s0 (p1)) : Keeps s0 (@State.stopDone p1 p2 p3) := by
  unfold State.stopDone
  refine keeps_ite (fun _ => ?_) (fun _ => ?_)
  · refine State.goOff_keeps ?_
    · exact hp1
  · exact hp1

theorem State.installOrders_keeps {s0 : State} {p1 : Machine.State} {p2 : Octets} {p3 : List SoEntry} (hp1 : Keeps s0 (p1)) : Keeps s0 (@State.installOrders p1 p2 p3) := by
  unfold State.installOrders
  extract_lets +onlyGivenNames -merge -underBinder x1
  try clear_value x1
  extract_lets +onlyGivenNames -merge -underBinder y3 x2
  have h4 : Keeps s0 (x2) := by
    unfold x2
    refine State.setReg_keeps ?_
    · refine State.setReg_keeps ?_
      · exact keeps_upd hp1 rfl rfl rfl rfl rfl rfl rfl rfl rfl rfl rfl rfl (.inl rfl)
  clear_value x2
  apply keeps_gen x2 h4
  clear h4
  intro x2 h4
  refine State.wr_keeps ?_
  · refine State.wr_keeps ?_
    · refine State.mark_keeps ?_
      · exact h4

theorem execTrapCleared_keeps {s0 : State} {p1 : ThreadNo} {p2 : Machine.State} (hp2 : Keeps s0 (p2)) : KeepsO s0 (@execTrapCleared p1 p2) := by
  unfold execTrapCleared
  refine keepsO_next ?_
  refine State.stopDone_keeps ?_
  · exact hp2

theorem execTidThrcfgWrite_keeps {s0 : State} {p1 : Master} {p2 : ThreadNo} {p3 : Word} {p4 : Machine.State} (hp4 : Keeps s0 (p4)) : KeepsO s0 (@execTidThrcfgWrite p1 p2 p3 p4) := by
  unfold execTidThrcfgWrite
  refine guardRsvd_keeps ?_
  · refine keepsO_next ?_
    refine State.thrcfgWrite_keeps ?_
    · exact hp4

theorem State.ovfRecord_keeps {s0 s : State} {c : Nat} (h : Keeps s0 s) : Keeps s0 (s.ovfRecord c) := by
  unfold State.ovfRecord
  split
  · rename_i o e
    have hc : s.tide.queue.length < 8192 := by
      by_cases hn : s.tide.queue.length < 8192
      · exact hn
      · rw [if_neg hn] at e; cases e
    extract_lets r td
    refine State.wr_keeps ⟨h.pending, h.mFuses, h.cFuses, h.tFuses, h.pools, h.tables, fun x => ?_, h.held⟩
    have b := h.bounded x
    refine ⟨?_, b.tamper, b.learn, b.poison⟩
    show (s.tide.queue ++ [r]).length ≤ 8192
    simp only [List.length_append, List.length_singleton]
    omega
  · exact h

theorem execRingDescriptorDispatch_keeps {s0 : State} {p1 : Fin 64} {p2 : Machine.State} (hp2 : Keeps s0 (p2)) : KeepsO s0 (@execRingDescriptorDispatch p1 p2) := by
  unfold execRingDescriptorDispatch
  extract_lets +onlyGivenNames -merge -underBinder x1
  try clear_value x1
  split
  · refine keepsO_next ?_
    exact hp2
  · split
    · refine keepsO_next ?_
      exact hp2
    · extract_lets +onlyGivenNames -merge -underBinder x2
      have h3 : Keeps s0 (x2) := by
        unfold x2
        refine State.setRing_keeps ?_
        · exact hp2
      clear_value x2
      apply keeps_gen x2 h3
      clear h3
      intro x2 h3
      refine keepsO_next ?_
      refine State.startJob_keeps ?_
      · exact h3

theorem execHandlerLimitTrap_keeps {s0 : State} {p1 : ThreadNo} {p2 : Word} {p3 : Machine.State} (hp3 : Keeps s0 (p3)) : KeepsO s0 (@execHandlerLimitTrap p1 p2 p3) := by
  unfold execHandlerLimitTrap
  extract_lets +onlyGivenNames -merge -underBinder x1
  have h2 : Keeps s0 (x1) := by
    unfold x1
    refine State.timeTo_keeps ?_
    · exact hp3
  clear_value x1
  apply keeps_gen x1 h2
  clear h2
  intro x1 h2
  split
  · refine keepsO_ite (fun _ => ?_) (fun _ => ?_)
    · split
      · rename_i h5e
        have h5 : Keeps s0 _ := keeps_of_eq h5e (by
          refine State.draw_keeps ?_
          · exact h2
          )
        refine keepsO_next ?_
        refine State.takeTrap_keeps ?_
        · exact h5
    · refine keepsO_next ?_
      exact h2
  · refine keepsO_next ?_
    exact h2

theorem State.orderSet_keeps {s0 : State} {p1 : Machine.State} {p2 : Nat} {p3 : Nat} (hp1 : Keeps s0 (p1)) : Keeps s0 (@State.orderSet p1 p2 p3).2 := by
  unfold State.orderSet
  extract_lets +onlyGivenNames -merge -underBinder x1
  try clear_value x1
  extract_lets +onlyGivenNames -merge -underBinder x2
  try clear_value x2
  extract_lets +onlyGivenNames -merge -underBinder x3
  try clear_value x3
  refine keepsP_ite (fun _ => ?_) (fun _ => ?_)
  · refine keepsP_mk ?_
    exact hp1
  · refine keepsP_ite (fun _ => ?_) (fun _ => ?_)
    · refine keepsP_mk ?_
      exact hp1
    · split
      · rename_i h6e
        have h6 : Keeps s0 _ := keeps_of_eq h6e (by
          refine State.areaRead_keeps ?_
          · exact hp1
          )
        refine keepsP_ite (fun _ => ?_) (fun _ => ?_)
        · refine keepsP_mk ?_
          exact h6
        · extract_lets +onlyGivenNames -merge -underBinder x7
          try clear_value x7
          refine keepsP_ite (fun _ => ?_) (fun _ => ?_)
          · refine keepsP_mk ?_
            exact h6
          · split
            · rename_i h10e
              have h10 : Keeps s0 _ := keeps_of_eq h10e (by
                refine State.areaRead_keeps ?_
                · exact h6
                )
              extract_lets +onlyGivenNames -merge -underBinder x11
              try clear_value x11
              split
              · refine keepsP_mk ?_
                exact h10
              · refine keepsP_ite (fun _ => ?_) (fun _ => ?_)
                · refine keepsP_mk ?_
                  exact h10
                · refine keepsP_mk ?_
                  refine State.installOrders_keeps ?_
                  · exact h10
            · rename_i h14e
              have h14 : Keeps s0 _ := keeps_of_eq h14e (by
                refine State.areaRead_keeps ?_
                · exact h6
                )
              refine keepsP_mk ?_
              exact h14
      · rename_i h17e
        have h17 : Keeps s0 _ := keeps_of_eq h17e (by
          refine State.areaRead_keeps ?_
          · exact hp1
          )
        refine keepsP_mk ?_
        exact h17

theorem execBalOrderSet_keeps {s0 : State} {p1 : ThreadNo} {p2 : GReg} {p3 : GReg} {p4 : Machine.State} (hp4 : Keeps s0 (p4)) : KeepsO s0 (@execBalOrderSet p1 p2 p3 p4) := by
  unfold execBalOrderSet
  refine State.issue_keeps ?_ ?_
  · exact hp4
  · intro q1 hq1
    refine keepsO_ite (fun _ => ?_) (fun _ => ?_)
    · refine keepsO_next ?_
      refine State.takeTrap_keeps ?_
      · exact hq1
    · split
      · rename_i h4e
        have h4 : Keeps s0 _ := keeps_of_eq h4e (by
          refine State.orderSet_keeps ?_
          · exact hq1
          )
        refine keepsO_next ?_
        refine State.writeStep_keeps ?_
        · exact h4

theorem execThreadStart_keeps {s0 : State} {p1 : ThreadNo} {p2 : Machine.State} (hp2 : Keeps s0 (p2)) : KeepsO s0 (@execThreadStart p1 p2) := by
  unfold execThreadStart
  refine keepsO_next ?_
  refine State.threadStart_keeps ?_
  · exact hp2

theorem execThreadStop_keeps {s0 : State} {p1 : ThreadNo} {p2 : Machine.State} (hp2 : Keeps s0 (p2)) : KeepsO s0 (@execThreadStop p1 p2) := by
  unfold execThreadStop
  refine keepsO_next ?_
  refine State.threadStop_keeps ?_
  · exact hp2

theorem execThreadStopped_keeps {s0 : State} {p1 : ThreadNo} {p2 : Machine.State} (hp2 : Keeps s0 (p2)) : KeepsO s0 (@execThreadStopped p1 p2) := by
  unfold execThreadStopped
  refine keepsO_next ?_
  refine State.stopDone_keeps ?_
  · exact hp2

theorem execTideReset_keeps {s0 : State} {p1 : BitVec 32} {p2 : Machine.State} (hp2 : Keeps s0 (p2)) : KeepsO s0 (@execTideReset p1 p2) := by
  unfold execTideReset
  refine keepsO_next ?_
  refine State.resetCores_keeps ?_
  · exact hp2

theorem execIcacheInvalidate_keeps {s0 : State} {p1 : BitVec 32} {p2 : Machine.State} (hp2 : Keeps s0 (p2)) : KeepsO s0 (@execIcacheInvalidate p1 p2) := by
  unfold execIcacheInvalidate
  refine keepsO_next ?_
  refine State.dropCode_keeps ?_
  · exact hp2

theorem execEventOvfRecord_keeps {s0 : State} {p1 : Machine.State} (hp1 : Keeps s0 (p1)) : KeepsO s0 (@execEventOvfRecord p1) := by
  unfold execEventOvfRecord
  refine keepsO_next ?_
  refine keeps_foldl ?_ (fun a x ha => ?_)
  · exact hp1
  · skip
    refine State.ovfRecord_keeps ?_
    · exact ha

theorem execHandlerDispatch_keeps {s0 s : State} {n : Nat} (h : Keeps s0 s) : KeepsO s0 (execHandlerDispatch n s) := by
  unfold execHandlerDispatch
  split
  · exact h
  · refine keepsO_ite (fun _ => h) (fun _ => ?_)
    split
    · exact h
    · refine State.startJob_keeps ⟨h.pending, h.mFuses, h.cFuses, h.tFuses, h.pools, h.tables, fun x => ?_, h.held⟩
      have b := h.bounded x
      refine ⟨Nat.le_trans ?_ b.events, b.tamper, b.learn, b.poison⟩
      exact List.length_eraseIdx_le _ _

theorem execAtgBlockDispatch_keeps {s0 : State} {p1 : Fin 32} {p2 : Machine.State} (hp2 : Keeps s0 (p2)) : KeepsO s0 (@execAtgBlockDispatch p1 p2) := by
  unfold execAtgBlockDispatch
  split
  · refine keepsO_next ?_
    exact hp2
  · split
    · refine keepsO_next ?_
      exact hp2
    · extract_lets +onlyGivenNames -merge -underBinder y2 x1
      have h3 : Keeps s0 (x1) := by
        unfold x1
        exact keeps_upd hp2 rfl rfl rfl rfl rfl rfl rfl rfl rfl rfl rfl rfl (.inl rfl)
      clear_value x1
      apply keeps_gen x1 h3
      clear h3
      intro x1 h3
      refine keepsO_next ?_
      refine State.startJob_keeps ?_
      · exact h3

end Sys2Proof.Machine
end

