-- ==== Sys2Proof/Laws/KeepsCulvert.lean ====
section
/-! SUPPORT. What the definitions of Sys2Proof/Machine/Culvert.lean keep: one lemma each, in the terms of `Keeps`. -/

namespace Sys2Proof.Machine

open Sys2Proof

theorem State.rangeEnable_keeps {s0 s : State} {r : Nat} (h : Keeps s0 s) : Keeps s0 (s.rangeEnable r) := by
  unfold State.rangeEnable
  refine State.wr_keeps (State.unmark_keeps (State.wr_keeps (State.wr_keeps (State.wr_keeps (State.setRange_keeps ?_)))))
  refine ⟨h.pending, h.mFuses, h.cFuses, h.tFuses, h.pools, h.tables, fun x => ?_, h.held⟩
  have b := h.bounded x
  exact ⟨b.events, b.tamper, b.learn, Nat.le_trans (List.length_filter_le _ _) b.poison⟩

theorem State.rngWrite_keeps {s0 : State} {p1 : Machine.State} {p2 : Nat} {p3 : Word} (hp1 : Keeps s0 (p1)) : Keeps s0 (@State.rngWrite p1 p2 p3) := by
  unfold State.rngWrite
  extract_lets +onlyGivenNames -merge -underBinder x1
  try clear_value x1
  extract_lets +onlyGivenNames -merge -underBinder x2
  have h3 : Keeps s0 (x2) := by
    unfold x2
    refine State.plainWrite_keeps ?_
    · exact hp1
  clear_value x2
  apply keeps_gen x2 h3
  clear h3
  intro x2 h3
  extract_lets +onlyGivenNames -merge -underBinder x4
  try clear_value x4
  refine keeps_ite (fun _ => ?_) (fun _ => ?_)
  · refine keeps_ite (fun _ => ?_) (fun _ => ?_)
    · refine State.mark_keeps ?_
      · exact hp1
    · refine keeps_ite (fun _ => ?_) (fun _ => ?_)
      · exact hp1
      · extract_lets +onlyGivenNames -merge -underBinder x5
        try clear_value x5
        refine State.setRange_keeps ?_
        · exact h3
  · refine keeps_ite (fun _ => ?_) (fun _ => ?_)
    · exact h3
    · refine keeps_ite (fun _ => ?_) (fun _ => ?_)
      · refine State.mark_keeps ?_
        · exact hp1
      · refine State.rangeEnable_keeps ?_
        · refine State.unmark_keeps ?_
          · exact h3

theorem State.culCtlWrite_keeps {s0 : State} {p1 : Machine.State} {p2 : Word} (hp1 : Keeps s0 (p1)) : Keeps s0 (@State.culCtlWrite p1 p2) := by
  unfold State.culCtlWrite
  extract_lets +onlyGivenNames -merge -underBinder x1
  have h2 : Keeps s0 (x1) := by
    unfold x1
    refine State.plainWrite_keeps ?_
    · exact hp1
  clear_value x1
  apply keeps_gen x1 h2
  clear h2
  intro x1 h2
  extract_lets +onlyGivenNames -merge -underBinder x3
  try clear_value x3
  refine keeps_ite (fun _ => ?_) (fun _ => ?_)
  · refine State.mark_keeps ?_
    · exact hp1
  · exact h2

theorem execPeakClr_keeps {s0 : State} {p1 : Word} {p2 : Machine.State} (hp2 : Keeps s0 (p2)) : KeepsO s0 (@execPeakClr p1 p2) := by
  unfold execPeakClr
  refine guardRsvd_keeps ?_
  · refine keepsO_next ?_
    refine keeps_ite (fun _ => ?_) (fun _ => ?_)
    · refine State.wr_keeps ?_
      · exact hp2
    · exact hp2

theorem State.scrubTree_keeps {s0 : State} {p1 : Machine.State} {p2 : Nat} {p3 : List (Nat × BitVec 80)} (hp1 : Keeps s0 (p1)) : Keeps s0 (@State.scrubTree p1 p2 p3) := by
  unfold State.scrubTree
  refine keeps_foldl ?_ (fun a x ha => ?_)
  · exact hp1
  · skip
    extract_lets +onlyGivenNames -merge -underBinder x1
    try clear_value x1
    split
    · refine keeps_ite (fun _ => ?_) (fun _ => ?_)
      · exact ha
      · refine keeps_ite (fun _ => ?_) (fun _ => ?_)
        · refine State.count_keeps ?_
          · refine State.mark_keeps ?_
            · exact ha
        · refine State.culDamage_keeps ?_
          · exact ha
    · exact ha

theorem State.scrubOne_keeps {s0 : State} {p1 : Machine.State} {p2 : List (Nat × BitVec 80)} (hp1 : Keeps s0 (p1)) : Keeps s0 (@State.scrubOne p1 p2) := by
  unfold State.scrubOne
  split
  · exact hp1
  · extract_lets +onlyGivenNames -merge -underBinder y2 x1
    extract_lets +onlyGivenNames -merge -underBinder x3
    have h4 : Keeps s0 (x3) := by
      unfold x3
      refine State.count_keeps ?_
      · exact keeps_upd hp1 rfl rfl rfl rfl rfl rfl rfl rfl rfl rfl rfl rfl (.inl rfl)
    clear_value x3
    apply keeps_gen x3 h4
    clear h4
    intro x3 h4
    split
    · refine State.scrubTree_keeps ?_
      · exact h4
    · extract_lets +onlyGivenNames -merge -underBinder x5
      have h6 : Keeps s0 (x5) := by
        unfold x5
        refine State.culFlip_keeps ?_
        · exact h4
      clear_value x5
      apply keeps_gen x5 h6
      clear h6
      intro x5 h6
      refine keeps_ite (fun _ => ?_) (fun _ => ?_)
      · exact h6
      · refine keeps_foldl ?_ (fun a x ha => ?_)
        · exact h6
        · skip
          refine State.culFixWord_keeps ?_
          · exact ha

theorem execScrubSector_keeps {s0 : State} {p1 : List (Nat × BitVec 80)} {p2 : Machine.State} (hp2 : Keeps s0 (p2)) : KeepsO s0 (@execScrubSector p1 p2) := by
  unfold execScrubSector
  refine keepsO_next ?_
  refine keeps_ite (fun _ => ?_) (fun _ => ?_)
  · refine State.scrubOne_keeps ?_
    · exact hp2
  · exact hp2

theorem State.portReply_keeps {s0 : State} {p1 : Machine.State} {p2 : CulvertPort} {p3 : Bool} (hp1 : Keeps s0 (p1)) : Keeps s0 (@State.portReply p1 p2 p3) := by
  unfold State.portReply
  refine State.emit_keeps ?_
  · exact hp1

theorem State.portRead_keeps {s0 : State} {p1 : Machine.State} {p2 : CulvertPort} {p3 : Nat} {p4 : Nat} {p5 : Nat} (hp1 : Keeps s0 (p1)) : Keeps s0 (@State.portRead p1 p2 p3 p4 p5).2 := by
  unfold State.portRead
  split
  · split
    · rename_i h3e
      have h3 : Keeps s0 _ := keeps_of_eq h3e (by
        refine State.areaRead_keeps ?_
        · exact hp1
        )
      refine keepsP_mk ?_
      exact h3
    · rename_i h6e
      have h6 : Keeps s0 _ := keeps_of_eq h6e (by
        refine State.areaRead_keeps ?_
        · exact hp1
        )
      refine keepsP_mk ?_
      exact h6
  · refine State.culRead_keeps ?_
    · exact hp1

theorem State.culMishaps_keeps {s0 : State} {p1 : Machine.State} {p2 : Nat} {p3 : List (Nat × BitVec 80)} {p4 : NodeFind} (hp1 : Keeps s0 (p1)) : Keeps s0 (@State.culMishaps p1 p2 p3 p4) := by
  unfold State.culMishaps
  split
  · exact hp1
  · refine keeps_ite (fun _ => ?_) (fun _ => ?_)
    · refine State.culPath_keeps ?_
      · refine State.culFlip_keeps ?_
        · exact hp1
    · exact hp1

theorem execCulvertRead_keeps {s0 : State} {p1 : CulvertPort} {p2 : Nat} {p3 : Nat} {p4 : Nat} {p5 : List (Nat × BitVec 80)} {p6 : NodeFind} {p7 : Machine.State} (hp7 : Keeps s0 (p7)) : KeepsO s0 (@execCulvertRead p1 p2 p3 p4 p5 p6 p7) := by
  unfold execCulvertRead
  refine keepsO_ite (fun _ => ?_) (fun _ => ?_)
  · refine keepsO_next ?_
    exact hp7
  · split
    · rename_i h3e
      have h3 : Keeps s0 _ := keeps_of_eq h3e (by
        refine State.portRead_keeps ?_
        · refine State.culMishaps_keeps ?_
          · exact hp7
        )
      refine keepsO_next ?_
      refine State.emit_keeps ?_
      · exact h3

theorem State.portWrite_keeps {s0 : State} {p1 : Machine.State} {p2 : CulvertPort} {p3 : Nat} {p4 : Nat} {p5 : Octets} (hp1 : Keeps s0 (p1)) : Keeps s0 (@State.portWrite p1 p2 p3 p4 p5).2 := by
  unfold State.portWrite
  split
  · split
    · rename_i h2e
      have h2 : Keeps s0 _ := keeps_of_eq h2e (by
        refine State.areaWrite_keeps ?_
        · exact hp1
        )
      refine keepsP_mk ?_
      exact h2
    · rename_i h5e
      have h5 : Keeps s0 _ := keeps_of_eq h5e (by
        refine State.areaWrite_keeps ?_
        · exact hp1
        )
      refine keepsP_mk ?_
      exact h5
  · refine State.culWrite_keeps ?_
    · exact hp1

theorem execCulvertWrite_keeps {s0 : State} {p1 : CulvertPort} {p2 : Nat} {p3 : Octets} {p4 : NodeFind} {p5 : Machine.State} (hp5 : Keeps s0 (p5)) : KeepsO s0 (@execCulvertWrite p1 p2 p3 p4 p5) := by
  unfold execCulvertWrite
  refine keepsO_ite (fun _ => ?_) (fun _ => ?_)
  · refine keepsO_next ?_
    exact hp5
  · split
    · rename_i h3e
      have h3 : Keeps s0 _ := keeps_of_eq h3e (by
        refine State.portWrite_keeps ?_
        · refine State.culMishaps_keeps ?_
          · exact hp5
        )
      refine keepsO_next ?_
      refine State.portReply_keeps ?_
      · exact h3

theorem execBalReseal_keeps {s0 : State} {p1 : ThreadNo} {p2 : GReg} {p3 : GReg} {p4 : Machine.State} (hp4 : Keeps s0 (p4)) : KeepsO s0 (@execBalReseal p1 p2 p3 p4) := by
  unfold execBalReseal
  refine State.issue_keeps ?_ ?_
  · exact hp4
  · intro q1 hq1
    refine keepsO_ite (fun _ => ?_) (fun _ => ?_)
    · refine keepsO_next ?_
      refine State.takeTrap_keeps ?_
      · exact hq1
    · refine keepsO_next ?_
      refine State.setHold_keeps ?_
      · exact hq1

theorem State.resealNode_keeps {s0 : State} {p1 : Machine.State} {p2 : Nat} {p3 : Nat} {p4 : Nat} (hp1 : Keeps s0 (p1)) : Keeps s0 (@State.resealNode p1 p2 p3 p4) := by
  unfold State.resealNode
  extract_lets +onlyGivenNames -merge -underBinder x1
  try clear_value x1
  extract_lets +onlyGivenNames -merge -underBinder x2
  try clear_value x2
  extract_lets +onlyGivenNames -merge -underBinder x3
  try clear_value x3
  extract_lets +onlyGivenNames -merge -underBinder x4
  try clear_value x4
  extract_lets +onlyGivenNames -merge -underBinder x5
  try clear_value x5
  extract_lets +onlyGivenNames -merge -underBinder x6
  try clear_value x6
  extract_lets +onlyGivenNames -merge -underBinder x7
  try clear_value x7
  extract_lets +onlyGivenNames -merge -underBinder y9 x8
  extract_lets +onlyGivenNames -merge -underBinder x10
  have h11 : Keeps s0 (x10) := by
    unfold x10
    refine State.dropLines_keeps ?_
    · exact keeps_upd hp1 rfl rfl rfl rfl rfl rfl rfl rfl rfl rfl rfl rfl (.inl rfl)
  clear_value x10
  apply keeps_gen x10 h11
  clear h11
  intro x10 h11
  extract_lets +onlyGivenNames -merge -underBinder x12
  have h13 : Keeps s0 (x12) := by
    unfold x12
    refine State.wr_keeps ?_
    · refine State.setRange_keeps ?_
      · exact h11
  clear_value x12
  apply keeps_gen x12 h13
  clear h13
  intro x12 h13
  refine State.report_keeps ?_
  · refine State.count_keeps ?_
    · exact h13

theorem State.resealAt_keeps {s0 : State} {p1 : Machine.State} {p2 : Nat} {p3 : Bool} (hp1 : Keeps s0 (p1)) : Keeps s0 (@State.resealAt p1 p2 p3).2 := by
  unfold State.resealAt
  split
  · refine keepsP_mk ?_
    exact hp1
  · refine keepsP_ite (fun _ => ?_) (fun _ => ?_)
    · refine keepsP_mk ?_
      exact hp1
    · refine keepsP_ite (fun _ => ?_) (fun _ => ?_)
      · refine keepsP_mk ?_
        exact hp1
      · split
        · refine keepsP_mk ?_
          exact hp1
        · refine keepsP_ite (fun _ => ?_) (fun _ => ?_)
          · refine keepsP_mk ?_
            exact hp1
          · refine keepsP_mk ?_
            refine State.resealNode_keeps ?_
            · exact hp1

theorem execBalResealDone_keeps {s0 : State} {p1 : ThreadNo} {p2 : Bool} {p3 : Machine.State} (hp3 : Keeps s0 (p3)) : KeepsO s0 (@execBalResealDone p1 p2 p3) := by
  unfold execBalResealDone
  split
  · split
    · rename_i h3e
      have h3 : Keeps s0 _ := keeps_of_eq h3e (by
        refine State.resealAt_keeps ?_
        · exact hp3
        )
      refine keepsO_next ?_
      refine State.resume_keeps ?_
      · exact h3
  · refine keepsO_next ?_
    exact hp3

theorem execCulvertPartialWrite_keeps {s0 : State} {p1 : CulvertPort} {p2 : Nat} {p3 : Nat} {p4 : Octets} {p5 : List (Nat × BitVec 80)} {p6 : NodeFind} {p7 : Machine.State} (hp7 : Keeps s0 (p7)) : KeepsO s0 (@execCulvertPartialWrite p1 p2 p3 p4 p5 p6 p7) := by
  unfold execCulvertPartialWrite
  refine keepsO_ite (fun _ => ?_) (fun _ => ?_)
  · refine keepsO_next ?_
    exact hp7
  · split
    · rename_i h3e
      have h3 : Keeps s0 _ := keeps_of_eq h3e (by
        refine State.portWrite_keeps ?_
        · refine State.culMishaps_keeps ?_
          · exact hp7
        )
      refine keepsO_next ?_
      refine State.portReply_keeps ?_
      · exact h3

theorem execCulRngWrite_keeps {s0 : State} {p1 : RangeNo} {p2 : Word} {p3 : Machine.State} (hp3 : Keeps s0 (p3)) : KeepsO s0 (@execCulRngWrite p1 p2 p3) := by
  unfold execCulRngWrite
  refine guardRsvd_keeps ?_
  · refine keepsO_next ?_
    refine State.rngWrite_keeps ?_
    · exact hp3

theorem execRangeReady_keeps {s0 : State} {p1 : RangeNo} {p2 : Machine.State} (hp2 : Keeps s0 (p2)) : KeepsO s0 (@execRangeReady p1 p2) := by
  unfold execRangeReady
  refine keepsO_next ?_
  refine keeps_ite (fun _ => ?_) (fun _ => ?_)
  · refine State.mark_keeps ?_
    · exact hp2
  · exact hp2

theorem execRangeDisableEnd_keeps {s0 : State} {p1 : RangeNo} {p2 : Machine.State} (hp2 : Keeps s0 (p2)) : KeepsO s0 (@execRangeDisableEnd p1 p2) := by
  unfold execRangeDisableEnd
  extract_lets +onlyGivenNames -merge -underBinder x1
  try clear_value x1
  refine keepsO_ite (fun _ => ?_) (fun _ => ?_)
  · refine keepsO_next ?_
    exact hp2
  · refine keepsO_next ?_
    refine State.unmark_keeps ?_
    · refine State.setRange_keeps ?_
      · exact hp2

theorem execCulCtlWrite_keeps {s0 : State} {p1 : Word} {p2 : Machine.State} (hp2 : Keeps s0 (p2)) : KeepsO s0 (@execCulCtlWrite p1 p2) := by
  unfold execCulCtlWrite
  refine guardRsvd_keeps ?_
  · refine keepsO_next ?_
    refine State.culCtlWrite_keeps ?_
    · exact hp2

theorem execCulBwWindow_keeps {s0 : State} {p1 : Word} {p2 : Machine.State} (hp2 : Keeps s0 (p2)) : KeepsO s0 (@execCulBwWindow p1 p2) := by
  unfold execCulBwWindow
  extract_lets +onlyGivenNames -merge -underBinder x1
  have h2 : Keeps s0 (x1) := by
    unfold x1
    refine State.timeTo_keeps ?_
    · exact hp2
  clear_value x1
  apply keeps_gen x1 h2
  clear h2
  intro x1 h2
  extract_lets +onlyGivenNames -merge -underBinder x3
  try clear_value x3
  extract_lets +onlyGivenNames -merge -underBinder y5 x4
  have h6 : Keeps s0 (x4) := by
    unfold x4
    exact keeps_upd h2 rfl rfl rfl rfl rfl rfl rfl rfl rfl rfl rfl rfl (.inl rfl)
  clear_value x4
  apply keeps_gen x4 h6
  clear h6
  intro x4 h6
  refine keepsO_next ?_
  refine State.wr_keeps ?_
  · refine State.wr_keeps ?_
    · exact h6

end Sys2Proof.Machine
end

