-- ==== Sys2Proof/Laws/KeepsErrorLog.lean ====
section
/-! SUPPORT. What the definitions of Sys2Proof/Machine/ErrorLog.lean keep: one lemma each, in the terms of `Keeps`. -/

namespace Sys2Proof.Machine

open Sys2Proof

theorem State.logSummary_keeps {s0 s : State} {k : Nat} (h : Keeps s0 s) : Keeps s0 (s.logSummary k) := by
  unfold State.logSummary
  extract_lets
  exact keeps_ite (fun _ => h) (fun _ => State.report_keeps (keeps_log h rfl))

theorem State.logSummaries_keeps {s0 : State} {p1 : Machine.State} (hp1 : Keeps s0 (p1)) : Keeps s0 (@State.logSummaries p1) := by
  unfold State.logSummaries
  refine keeps_foldl ?_ (fun a x ha => ?_)
  · exact hp1
  · skip
    refine State.logSummary_keeps ?_
    · exact ha

theorem State.logRelease_keeps {s0 s : State} {rd : Nat} (h : Keeps s0 s) : Keeps s0 (s.logRelease rd) := by
  unfold State.logRelease
  extract_lets n s1 src s2
  refine keeps_ite (fun _ => State.mark_keeps h) (fun _ => State.logSummaries_keeps ?_)
  have h1 : Keeps s0 s1 := State.wr_keeps (State.wr_keeps h)
  exact keeps_ite (fun _ => State.report_keeps (keeps_log h1 rfl)) (fun _ => h1)

theorem execRetpageWrite_keeps {s0 : State} {p1 : Fin 256} {p2 : Word} {p3 : Machine.State} (hp3 : Keeps s0 (p3)) : KeepsO s0 (@execRetpageWrite p1 p2 p3) := by
  unfold execRetpageWrite
  refine guardRsvd_keeps ?_
  · refine keepsO_next ?_
    refine keeps_ite (fun _ => ?_) (fun _ => ?_)
    · exact hp3
    · refine State.plainWrite_keeps ?_
      · exact hp3

theorem State.retpoolWrite_keeps {s0 : State} {p1 : Machine.State} {p2 : Nat} (hp1 : Keeps s0 (p1)) : Keeps s0 (@State.retpoolWrite p1 p2) := by
  unfold State.retpoolWrite
  extract_lets +onlyGivenNames -merge -underBinder x1
  try clear_value x1
  refine keeps_ite (fun _ => ?_) (fun _ => ?_)
  · refine State.mark_keeps ?_
    · exact hp1
  · refine State.wr_keeps ?_
    · exact hp1

theorem execLogWindow_keeps {s0 : State} {p1 : Word} {p2 : Machine.State} (hp2 : Keeps s0 (p2)) : KeepsO s0 (@execLogWindow p1 p2) := by
  unfold execLogWindow
  extract_lets +onlyGivenNames -merge -underBinder x1
  have h2 : Keeps s0 (x1) := by
    unfold x1
    refine State.timeTo_keeps ?_
    · exact hp2
  clear_value x1
  apply keeps_gen x1 h2
  clear h2
  intro x1 h2
  refine keepsO_ite (fun _ => ?_) (fun _ => ?_)
  · refine keepsO_next ?_
    exact h2
  · refine keepsO_next ?_
    refine State.logSummaries_keeps ?_
    · exact keeps_upd h2 rfl rfl rfl rfl rfl rfl rfl rfl rfl rfl rfl rfl (.inl rfl)

theorem execRetpoolWrite_keeps {s0 : State} {p1 : Word} {p2 : Machine.State} (hp2 : Keeps s0 (p2)) : KeepsO s0 (@execRetpoolWrite p1 p2) := by
  unfold execRetpoolWrite
  refine guardRsvd_keeps ?_
  · refine keepsO_next ?_
    refine State.retpoolWrite_keeps ?_
    · exact hp2

theorem execLogRelease_keeps {s0 : State} {p1 : Word} {p2 : Machine.State} (hp2 : Keeps s0 (p2)) : KeepsO s0 (@execLogRelease p1 p2) := by
  unfold execLogRelease
  refine guardRsvd_keeps ?_
  · refine keepsO_next ?_
    refine State.logRelease_keeps ?_
    · exact hp2

end Sys2Proof.Machine
end

