-- ==== Sys2Proof/Laws/KeepsDelta.lean ====
section
/-! SUPPORT. What the definitions of Sys2Proof/Machine/Delta.lean keep: one lemma each, in the terms of `Keeps`. -/

namespace Sys2Proof.Machine

open Sys2Proof

theorem State.parityAt_keeps {s0 : State} {p1 : Machine.State} {p2 : Nat} {p3 : Nat} (hp1 : Keeps s0 (p1)) : Keeps s0 (@State.parityAt p1 p2 p3) := by
  unfold State.parityAt
  refine keeps_ite (fun _ => ?_) (fun _ => ?_)
  · exact hp1
  · refine State.report_keeps ?_
    · refine State.mark_keeps ?_
      · refine State.count_keeps ?_
        · exact hp1

theorem State.dlookup_keeps {s0 : State} {p1 : Machine.State} {p2 : Nat} {p3 : Nat} (hp1 : Keeps s0 (p1)) : Keeps s0 (@State.dlookup p1 p2 p3).2 := by
  unfold State.dlookup
  refine keepsP_mk ?_
  refine keeps_foldl ?_ (fun a x ha => ?_)
  · exact hp1
  · skip
    refine State.parityAt_keeps ?_
    · exact ha

theorem State.dset_keeps {s0 : State} {p1 : Machine.State} {p2 : Nat} {p3 : Entry} (hp1 : Keeps s0 (p1)) : Keeps s0 (@State.dset p1 p2 p3) := by
  unfold State.dset
  extract_lets +onlyGivenNames -merge -underBinder x1
  try clear_value x1
  extract_lets +onlyGivenNames -merge -underBinder y3 y4 x2
  have h5 : Keeps s0 (x2) := by
    unfold x2
    refine keeps_ite (fun _ => ?_) (fun _ => ?_)
    · exact keeps_upd hp1 rfl rfl rfl rfl rfl rfl rfl rfl rfl rfl rfl rfl (.inl rfl)
    · exact keeps_upd hp1 rfl rfl rfl rfl rfl rfl rfl rfl rfl rfl rfl rfl (.inl rfl)
  clear_value x2
  apply keeps_gen x2 h5
  clear h5
  intro x2 h5
  refine State.wr_keeps ?_
  · exact h5

theorem State.dflip_keeps {s0 : State} {p1 : Machine.State} {p2 : List (Nat × Entry)} (hp1 : Keeps s0 (p1)) : Keeps s0 (@State.dflip p1 p2) := by
  unfold State.dflip
  refine keeps_foldl ?_ (fun a x ha => ?_)
  · exact hp1
  · skip
    refine State.dset_keeps ?_
    · exact ha

theorem State.flushStart_keeps {s0 : State} {p1 : Machine.State} {p2 : Entry} {p3 : Bool} (hp1 : Keeps s0 (p1)) : Keeps s0 (@State.flushStart p1 p2 p3).2 := by
  unfold State.flushStart
  refine keepsP_ite (fun _ => ?_) (fun _ => ?_)
  · refine keepsP_mk ?_
    exact hp1
  · refine keepsP_ite (fun _ => ?_) (fun _ => ?_)
    · refine keepsP_mk ?_
      exact hp1
    · refine keepsP_mk ?_
      refine State.mark_keeps ?_
      · exact keeps_upd hp1 rfl rfl rfl rfl rfl rfl rfl rfl rfl rfl rfl rfl (.inl rfl)

theorem State.dltDone_keeps {s0 : State} {p1 : Machine.State} {p2 : Nat} (hp1 : Keeps s0 (p1)) : Keeps s0 (@State.dltDone p1 p2) := by
  unfold State.dltDone
  refine State.unmark_keeps ?_
  · refine State.wr_keeps ?_
    · exact hp1

theorem State.relocate_keeps {s0 : State} {p1 : Machine.State} {p2 : Nat} (hp1 : Keeps s0 (p1)) : Keeps s0 (@State.relocate p1 p2).2 := by
  unfold State.relocate
  split
  · refine keepsP_mk ?_
    exact hp1
  · split
    · refine keepsP_mk ?_
      exact hp1
    · refine keepsP_mk ?_
      refine State.count_keeps ?_
      · refine State.dset_keeps ?_
        · refine State.dset_keeps ?_
          · exact hp1

theorem State.dinsert_keeps {s0 : State} {p1 : Machine.State} {p2 : Entry} (hp1 : Keeps s0 (p1)) : Keeps s0 (@State.dinsert p1 p2).2 := by
  unfold State.dinsert
  split
  · refine keepsP_mk ?_
    refine State.dset_keeps ?_
    · exact hp1
  · split
    · refine keepsP_mk ?_
      refine State.dset_keeps ?_
      · exact hp1
    · split
      · rename_i h3e
        have h3 : Keeps s0 _ := keeps_of_eq h3e (by
          refine State.relocate_keeps ?_
          · exact hp1
          )
        refine keepsP_mk ?_
        refine State.dset_keeps ?_
        · exact h3
      · rename_i h5e
        have h5 : Keeps s0 _ := keeps_of_eq h5e (by
          refine State.relocate_keeps ?_
          · exact hp1
          )
        refine keepsP_mk ?_
        refine State.mark_keeps ?_
        · refine State.count_keeps ?_
          · exact h5

theorem State.deltaAct_keeps {s0 : State} {p1 : Machine.State} {p2 : Nat} {p3 : Entry} {p4 : Nat} (hp1 : Keeps s0 (p1)) : Keeps s0 (@State.deltaAct p1 p2 p3 p4).2 := by
  unfold State.deltaAct
  refine keepsP_ite (fun _ => ?_) (fun _ => ?_)
  · refine keepsP_ite (fun _ => ?_) (fun _ => ?_)
    · refine keepsP_mk ?_
      exact hp1
    · refine keepsP_ite (fun _ => ?_) (fun _ => ?_)
      · refine keepsP_mk ?_
        refine State.dset_keeps ?_
        · exact hp1
      · extract_lets +onlyGivenNames -merge -underBinder x1
        try clear_value x1
        refine keepsP_mk ?_
        refine State.parityAt_keeps ?_
        · exact hp1
  · refine keepsP_ite (fun _ => ?_) (fun _ => ?_)
    · refine keepsP_mk ?_
      exact hp1
    · split
      · rename_i h4e
        have h4 : Keeps s0 _ := keeps_of_eq h4e (by
          refine State.dlookup_keeps ?_
          · exact hp1
          )
        split
        · refine keepsP_mk ?_
          exact h4
        · refine keepsP_mk ?_
          exact h4
        · refine keepsP_mk ?_
          refine State.dset_keeps ?_
          · exact h4
        · refine keepsP_mk ?_
          refine State.dset_keeps ?_
          · exact h4
        · split
          · rename_i h7e
            have h7 : Keeps s0 _ := keeps_of_eq h7e (by
              refine State.dinsert_keeps ?_
              · exact h4
              )
            refine keepsP_mk ?_
            exact h7
          · rename_i h9e
            have h9 : Keeps s0 _ := keeps_of_eq h9e (by
              refine State.dinsert_keeps ?_
              · exact h4
              )
            refine keepsP_mk ?_
            exact h9
        · refine keepsP_mk ?_
          exact h4

theorem State.dltFinish_keeps {s0 : State} {p1 : Machine.State} {p2 : HeldCmd} (hp1 : Keeps s0 (p1)) : Keeps s0 (@State.dltFinish p1 p2) := by
  unfold State.dltFinish
  extract_lets +onlyGivenNames -merge -underBinder x1
  have h2 : Keeps s0 (x1) := by
    unfold x1
    split
    · refine State.setReg_keeps ?_
      · exact hp1
    · exact hp1
  clear_value x1
  apply keeps_gen x1 h2
  clear h2
  intro x1 h2
  extract_lets +onlyGivenNames -merge -underBinder x3
  have h4 : Keeps s0 (x3) := by
    unfold x3
    split
    · refine State.setReg_keeps ?_
      · refine State.setReg_keeps ?_
        · exact h2
    · exact h2
  clear_value x3
  apply keeps_gen x3 h4
  clear h4
  intro x3 h4
  refine State.dltDone_keeps ?_
  · exact h4

theorem State.dltCmd_keeps {s0 : State} {p1 : Machine.State} {p2 : Nat} (hp1 : Keeps s0 (p1)) : Keeps s0 (@State.dltCmd p1 p2) := by
  unfold State.dltCmd
  refine keeps_ite (fun _ => ?_) (fun _ => ?_)
  · refine State.mark_keeps ?_
    · exact hp1
  · extract_lets +onlyGivenNames -merge -underBinder x1
    have h2 : Keeps s0 (x1) := by
      unfold x1
      refine State.mark_keeps ?_
      · refine State.wr_keeps ?_
        · exact hp1
    clear_value x1
    apply keeps_gen x1 h2
    clear h2
    intro x1 h2
    refine keeps_ite (fun _ => ?_) (fun _ => ?_)
    · split
      · rename_i h5e
        have h5 : Keeps s0 _ := keeps_of_eq h5e (by
          refine State.flushStart_keeps ?_
          · exact h2
          )
        refine State.dltDone_keeps ?_
        · exact h5
      · rename_i h7e
        have h7 : Keeps s0 _ := keeps_of_eq h7e (by
          refine State.flushStart_keeps ?_
          · exact h2
          )
        exact h7
    · split
      · rename_i h10e
        have h10 : Keeps s0 _ := keeps_of_eq h10e (by
          refine State.deltaAct_keeps ?_
          · exact h2
          )
        extract_lets +onlyGivenNames -merge -underBinder x11
        try clear_value x11
        extract_lets +onlyGivenNames -merge -underBinder x12
        try clear_value x12
        refine keeps_ite (fun _ => ?_) (fun _ => ?_)
        · refine State.dltFinish_keeps ?_
          · exact h10
        · exact keeps_upd h10 rfl rfl rfl rfl rfl rfl rfl rfl rfl rfl rfl rfl (.inl rfl)

theorem execDltHseedWrite_keeps {s0 : State} {p1 : BitVec 32} {p2 : Machine.State} (hp2 : Keeps s0 (p2)) : KeepsO s0 (@execDltHseedWrite p1 p2) := by
  unfold execDltHseedWrite
  refine keepsO_next ?_
  refine keeps_ite (fun _ => ?_) (fun _ => ?_)
  · exact keeps_upd hp2 rfl rfl rfl rfl rfl rfl rfl rfl rfl rfl rfl rfl (.inl rfl)
  · refine State.mark_keeps ?_
    · exact hp2

theorem tblAct_keeps {s0 : State} {p1 : EngineOp} {p2 : Machine.State} (hp2 : Keeps s0 (p2)) : Keeps s0 (@tblAct p1 p2).2 := by
  unfold tblAct
  extract_lets +onlyGivenNames -merge -underBinder x1
  try clear_value x1
  extract_lets +onlyGivenNames -merge -underBinder x2
  try clear_value x2
  extract_lets +onlyGivenNames -merge -underBinder x3
  try clear_value x3
  refine keepsP_ite (fun _ => ?_) (fun _ => ?_)
  · refine keepsP_mk ?_
    exact hp2
  · refine keepsP_ite (fun _ => ?_) (fun _ => ?_)
    · split
      · rename_i h6e
        have h6 : Keeps s0 _ := keeps_of_eq h6e (by
          refine State.flushStart_keeps ?_
          · exact hp2
          )
        refine keepsP_mk ?_
        exact h6
      · rename_i h8e
        have h8 : Keeps s0 _ := keeps_of_eq h8e (by
          refine State.flushStart_keeps ?_
          · exact hp2
          )
        refine keepsP_mk ?_
        exact h8
    · split
      · rename_i h11e
        have h11 : Keeps s0 _ := keeps_of_eq h11e (by
          refine State.deltaAct_keeps ?_
          · exact hp2
          )
        refine keepsP_mk ?_
        exact h11

theorem State.survivors_keeps {s0 s : State} {l : List Nat} (h : Keeps s0 s) : Keeps s0 (s.survivors l).2 := by
  induction l generalizing s with
  | nil => exact h
  | cons k t ih => exact ih (State.draw_keeps h)

theorem State.deltaOp_keeps {s0 : State} {p1 : Machine.State} {p2 : Path} {p3 : Nat} (hp1 : Keeps s0 (p1)) : KeepsO s0 (@State.deltaOp p1 p2 p3) := by
  unfold State.deltaOp
  split
  · refine keepsO_next ?_
    refine State.dltCmd_keeps ?_
    · exact hp1
  · refine State.engineCall_keeps ?_ ?_
    · exact hp1
    · intro q1 q2 hq2
      refine tblAct_keeps ?_
      · exact hq2

theorem execDeltaLookup_keeps {s0 : State} {p1 : Path} {p2 : Machine.State} (hp2 : Keeps s0 (p2)) : KeepsO s0 (@execDeltaLookup p1 p2) := by
  unfold execDeltaLookup
  refine State.deltaOp_keeps ?_
  · exact hp2

theorem State.ageWay_keeps {s0 : State} {p1 : Machine.State} {p2 : Nat} (hp1 : Keeps s0 (p1)) : Keeps s0 (@State.ageWay p1 p2) := by
  unfold State.ageWay
  extract_lets +onlyGivenNames -merge -underBinder x1
  try clear_value x1
  refine keeps_ite (fun _ => ?_) (fun _ => ?_)
  · refine State.parityAt_keeps ?_
    · exact hp1
  · refine keeps_ite (fun _ => ?_) (fun _ => ?_)
    · exact hp1
    · refine keeps_ite (fun _ => ?_) (fun _ => ?_)
      · refine State.dset_keeps ?_
        · exact hp1
      · refine State.count_keeps ?_
        · refine State.dset_keeps ?_
          · exact hp1

theorem State.learned_keeps {s0 : State} {p1 : Machine.State} {p2 : Nat} (hp1 : Keeps s0 (p1)) : Keeps s0 (@State.learned p1 p2) := by
  unfold State.learned
  refine keeps_ite (fun _ => ?_) (fun _ => ?_)
  · exact keeps_upd hp1 rfl rfl rfl rfl rfl rfl rfl rfl rfl rfl rfl rfl (.inl rfl)
  · exact hp1

theorem State.learn_keeps {s0 : State} {p1 : Machine.State} {p2 : LearnReq} (hp1 : Keeps s0 (p1)) : Keeps s0 (@State.learn p1 p2) := by
  unfold State.learn
  split
  · rename_i h3e
    have h3 : Keeps s0 _ := keeps_of_eq h3e (by
      refine State.dlookup_keeps ?_
      · exact hp1
      )
    split
    · refine State.count_keeps ?_
      · exact h3
    · extract_lets +onlyGivenNames -merge -underBinder x4
      try clear_value x4
      split
      · rename_i h7e
        have h7 : Keeps s0 _ := keeps_of_eq h7e (by
          refine State.dlookup_keeps ?_
          · exact h3
          )
        split
        · split
          · rename_i h10e
            have h10 : Keeps s0 _ := keeps_of_eq h10e (by
              refine State.dinsert_keeps ?_
              · exact h7
              )
            refine State.count_keeps ?_
            · refine State.learned_keeps ?_
              · exact h10
          · rename_i h12e
            have h12 : Keeps s0 _ := keeps_of_eq h12e (by
              refine State.dinsert_keeps ?_
              · exact h7
              )
            refine State.count_keeps ?_
            · exact h12
        · extract_lets +onlyGivenNames -merge -underBinder x13
          try clear_value x13
          extract_lets +onlyGivenNames -merge -underBinder x14
          try clear_value x14
          refine keeps_ite (fun _ => ?_) (fun _ => ?_)
          · refine keeps_ite (fun _ => ?_) (fun _ => ?_)
            · exact h7
            · refine State.count_keeps ?_
              · exact h7
          · refine keeps_ite (fun _ => ?_) (fun _ => ?_)
            · refine State.dset_keeps ?_
              · exact h7
            · refine State.count_keeps ?_
              · refine State.learned_keeps ?_
                · refine State.dset_keeps ?_
                  · exact h7

theorem execLearnRequest_keeps {s0 s : State} {f : List (Nat × BitVec 128)} (h : Keeps s0 s) :
    KeepsO s0 (execLearnRequest f s) := by
  unfold execLearnRequest
  split
  · exact h
  · rename_i q t e
    refine State.learn_keeps (State.dflip_keeps ⟨h.pending, h.mFuses, h.cFuses, h.tFuses, h.pools, h.tables, fun x => ?_, h.held⟩)
    have b := h.bounded x
    refine ⟨b.events, b.tamper, ?_, b.poison⟩
    have := b.learn
    rw [e] at this
    simp only [List.length_cons] at this
    show t.length ≤ 4096
    omega

theorem State.learnAsk_keeps {s0 s : State} {q : LearnReq} (h : Keeps s0 s) : Keeps s0 (s.learnAsk q) := by
  unfold State.learnAsk
  refine keeps_ite (fun hlt => ?_) (fun _ => State.mark_keeps (State.count_keeps h))
  refine ⟨h.pending, h.mFuses, h.cFuses, h.tFuses, h.pools, h.tables, fun x => ?_, h.held⟩
  have b := h.bounded x
  exact ⟨b.events, b.tamper, by simp only [List.length_append, List.length_singleton]; omega, b.poison⟩

theorem execDeltaClear_keeps {s0 : State} {p1 : Path} {p2 : Machine.State} (hp2 : Keeps s0 (p2)) : KeepsO s0 (@execDeltaClear p1 p2) := by
  unfold execDeltaClear
  refine State.deltaOp_keeps ?_
  · exact hp2

theorem execEddyScanPassStart_keeps {s0 : State} {p1 : Machine.State} (hp1 : Keeps s0 (p1)) : KeepsO s0 (@execEddyScanPassStart p1) := by
  unfold execEddyScanPassStart
  refine keepsO_ite (fun _ => ?_) (fun _ => ?_)
  · refine keepsO_next ?_
    refine State.mark_keeps ?_
    · exact keeps_upd hp1 rfl rfl rfl rfl rfl rfl rfl rfl rfl rfl rfl rfl (.inl rfl)
  · refine keepsO_next ?_
    exact hp1

theorem State.flushDomain_keeps {s0 : State} {p1 : Machine.State} {p2 : Nat} {p3 : List Nat} (hp1 : Keeps s0 (p1)) : Keeps s0 (@State.flushDomain p1 p2 p3) := by
  unfold State.flushDomain
  extract_lets +onlyGivenNames -merge -underBinder x1
  try clear_value x1
  extract_lets +onlyGivenNames -merge -underBinder x2
  have h3 : Keeps s0 (x2) := by
    unfold x2
    refine keeps_foldl ?_ (fun a x ha => ?_)
    · exact hp1
    · skip
      refine State.dset_keeps ?_
      · exact ha
  clear_value x2
  apply keeps_gen x2 h3
  clear h3
  intro x2 h3
  refine keeps_foldl ?_ (fun a x ha => ?_)
  · exact h3
  · skip
    refine State.dset_keeps ?_
    · exact ha

theorem execFlushEnd_keeps {s0 : State} {p1 : Machine.State} (hp1 : Keeps s0 (p1)) : KeepsO s0 (@execFlushEnd p1) := by
  unfold execFlushEnd
  split
  · refine keepsO_next ?_
    exact hp1
  · split
    · rename_i h3e
      have h3 : Keeps s0 _ := keeps_of_eq h3e (by
        refine State.survivors_keeps ?_
        · exact hp1
        )
      extract_lets +onlyGivenNames -merge -underBinder x4
      have h5 : Keeps s0 (x4) := by
        unfold x4
        refine State.flushDomain_keeps ?_
        · exact h3
      clear_value x4
      apply keeps_gen x4 h5
      clear h5
      intro x4 h5
      extract_lets +onlyGivenNames -merge -underBinder y7 x6
      have h8 : Keeps s0 (x6) := by
        unfold x6
        refine State.unmark_keeps ?_
        · exact keeps_upd h5 rfl rfl rfl rfl rfl rfl rfl rfl rfl rfl rfl rfl (.inl rfl)
      clear_value x6
      apply keeps_gen x6 h8
      clear h8
      intro x6 h8
      refine keepsO_ite (fun _ => ?_) (fun _ => ?_)
      · refine keepsO_next ?_
        refine State.dltDone_keeps ?_
        · exact h8
      · refine keepsO_next ?_
        exact keeps_upd h8 rfl rfl rfl rfl rfl rfl rfl rfl rfl rfl rfl rfl (.inl rfl)

theorem execDeltaUpdate_keeps {s0 : State} {p1 : Path} {p2 : Machine.State} (hp2 : Keeps s0 (p2)) : KeepsO s0 (@execDeltaUpdate p1 p2) := by
  unfold execDeltaUpdate
  refine State.deltaOp_keeps ?_
  · exact hp2

theorem execDeltaFlush_keeps {s0 : State} {p1 : Path} {p2 : Machine.State} (hp2 : Keeps s0 (p2)) : KeepsO s0 (@execDeltaFlush p1 p2) := by
  unfold execDeltaFlush
  refine State.deltaOp_keeps ?_
  · exact hp2

theorem execDeltaAdd_keeps {s0 : State} {p1 : Path} {p2 : Machine.State} (hp2 : Keeps s0 (p2)) : KeepsO s0 (@execDeltaAdd p1 p2) := by
  unfold execDeltaAdd
  refine State.deltaOp_keeps ?_
  · exact hp2

theorem execDeltaDelete_keeps {s0 : State} {p1 : Path} {p2 : Machine.State} (hp2 : Keeps s0 (p2)) : KeepsO s0 (@execDeltaDelete p1 p2) := by
  unfold execDeltaDelete
  refine State.deltaOp_keeps ?_
  · exact hp2

theorem execDeltaRead_keeps {s0 : State} {p1 : Path} {p2 : List (Nat × BitVec 128)} {p3 : Machine.State} (hp3 : Keeps s0 (p3)) : KeepsO s0 (@execDeltaRead p1 p2 p3) := by
  unfold execDeltaRead
  refine State.deltaOp_keeps ?_
  · refine State.dflip_keeps ?_
    · exact hp3

theorem execDeltaCmdInvalid_keeps {s0 : State} {p1 : Path} {p2 : Machine.State} (hp2 : Keeps s0 (p2)) : KeepsO s0 (@execDeltaCmdInvalid p1 p2) := by
  unfold execDeltaCmdInvalid
  split
  · refine keepsO_next ?_
    refine State.dltCmd_keeps ?_
    · exact hp2
  · refine State.engineCall_keeps ?_ ?_
    · exact hp2
    · intro q1 q2 hq2
      refine tblAct_keeps ?_
      · exact hq2

theorem execEddyScanBucket_keeps {s0 : State} {p1 : List (Nat × BitVec 128)} {p2 : Machine.State} (hp2 : Keeps s0 (p2)) : KeepsO s0 (@execEddyScanBucket p1 p2) := by
  unfold execEddyScanBucket
  refine keepsO_ite (fun _ => ?_) (fun _ => ?_)
  · refine keepsO_next ?_
    exact hp2
  · extract_lets +onlyGivenNames -merge -underBinder x1
    try clear_value x1
    extract_lets +onlyGivenNames -merge -underBinder x2
    try clear_value x2
    extract_lets +onlyGivenNames -merge -underBinder x3
    have h4 : Keeps s0 (x3) := by
      unfold x3
      refine keeps_foldl ?_ (fun a x ha => ?_)
      · refine State.dflip_keeps ?_
        · exact hp2
      · skip
        refine State.ageWay_keeps ?_
        · exact ha
    clear_value x3
    apply keeps_gen x3 h4
    clear h4
    intro x3 h4
    extract_lets +onlyGivenNames -merge -underBinder y6 x5
    have h7 : Keeps s0 (x5) := by
      unfold x5
      exact keeps_upd h4 rfl rfl rfl rfl rfl rfl rfl rfl rfl rfl rfl rfl (.inl rfl)
    clear_value x5
    apply keeps_gen x5 h7
    clear h7
    intro x5 h7
    refine keepsO_next ?_
    refine keeps_ite (fun _ => ?_) (fun _ => ?_)
    · refine State.unmark_keeps ?_
      · exact h7
    · exact h7

end Sys2Proof.Machine
end

