-- ==== Sys2Proof/Laws/KeepsClock.lean ====
section
/-! SUPPORT. What the definitions of Sys2Proof/Machine/Clock.lean keep: one lemma each, in the terms of `Keeps`. -/

namespace Sys2Proof.Machine

open Sys2Proof

theorem State.setStamps_keeps {s0 : State} {p1 : Machine.State} {p2 : Nat} {p3 : List Stamp} (hp1 : Keeps s0 (p1)) : Keeps s0 (@State.setStamps p1 p2 p3) := by
  unfold State.setStamps
  refine State.wr_keeps ?_
  · exact keeps_upd hp1 rfl rfl rfl rfl rfl rfl rfl rfl rfl rfl rfl rfl (.inl rfl)

theorem State.pushStamp_keeps {s0 : State} {p1 : Machine.State} {p2 : Nat} {p3 : Stamp} (hp1 : Keeps s0 (p1)) : Keeps s0 (@State.pushStamp p1 p2 p3) := by
  unfold State.pushStamp
  refine keeps_ite (fun _ => ?_) (fun _ => ?_)
  · refine State.count_keeps ?_
    · refine State.setStamps_keeps ?_
      · exact hp1
  · refine State.count_keeps ?_
    · refine State.mark_keeps ?_
      · exact hp1

theorem State.ptpStamp_keeps {s0 : State} {p1 : Machine.State} {p2 : Nat} {p3 : Bool} {p4 : Octets} (hp1 : Keeps s0 (p1)) : Keeps s0 (@State.ptpStamp p1 p2 p3 p4) := by
  unfold State.ptpStamp
  refine keeps_ite (fun _ => ?_) (fun _ => ?_)
  · split
    · refine State.pushStamp_keeps ?_
      · exact hp1
    · exact hp1
  · exact hp1

theorem State.latchTime_keeps {s0 : State} {p1 : Machine.State} {p2 : Master} (hp1 : Keeps s0 (p1)) : Keeps s0 (@State.latchTime p1 p2) := by
  unfold State.latchTime
  extract_lets +onlyGivenNames -merge -underBinder x1
  try clear_value x1
  refine State.latch_keeps ?_
  · refine State.latch_keeps ?_
    · refine State.latch_keeps ?_
      · exact hp1

theorem State.tsbRead_keeps {s0 : State} {p1 : Machine.State} {p2 : Master} {p3 : Nat} (hp1 : Keeps s0 (p1)) : Keeps s0 (@State.tsbRead p1 p2 p3).2 := by
  unfold State.tsbRead
  split
  · refine keepsP_mk ?_
    refine State.latch_keeps ?_
    · refine State.latch_keeps ?_
      · exact hp1
  · refine keepsP_mk ?_
    refine State.latch_keeps ?_
    · refine State.latch_keeps ?_
      · refine State.setReg_keeps ?_
        · refine State.setStamps_keeps ?_
          · exact hp1

theorem State.rebase_keeps {s0 : State} {p1 : Machine.State} {p2 : Nat} (hp1 : Keeps s0 (p1)) : Keeps s0 (@State.rebase p1 p2) := by
  unfold State.rebase
  exact keeps_upd hp1 rfl rfl rfl rfl rfl rfl rfl rfl rfl rfl rfl rfl (.inl rfl)

theorem execClkSet_keeps {s0 : State} {p1 : Machine.State} (hp1 : Keeps s0 (p1)) : KeepsO s0 (@execClkSet p1) := by
  unfold execClkSet
  refine keepsO_ite (fun _ => ?_) (fun _ => ?_)
  · refine keepsO_next ?_
    refine State.mark_keeps ?_
    · exact hp1
  · extract_lets +onlyGivenNames -merge -underBinder x1
    try clear_value x1
    refine keepsO_next ?_
    refine State.mark_keeps ?_
    · refine State.rebase_keeps ?_
      · exact hp1

theorem execClkAdj_keeps {s0 : State} {p1 : Machine.State} (hp1 : Keeps s0 (p1)) : KeepsO s0 (@execClkAdj p1) := by
  unfold execClkAdj
  extract_lets +onlyGivenNames -merge -underBinder x1
  try clear_value x1
  refine keepsO_ite (fun _ => ?_) (fun _ => ?_)
  · refine keepsO_next ?_
    refine State.raiseEvent_keeps ?_
    · refine State.count_keeps ?_
      · refine State.mark_keeps ?_
        · exact hp1
  · refine keepsO_ite (fun _ => ?_) (fun _ => ?_)
    · refine keepsO_next ?_
      exact hp1
    · refine keepsO_next ?_
      refine State.rebase_keeps ?_
      · exact hp1

theorem execClkInval_keeps {s0 : State} {p1 : Machine.State} (hp1 : Keeps s0 (p1)) : KeepsO s0 (@execClkInval p1) := by
  unfold execClkInval
  refine keepsO_next ?_
  refine State.raiseEvent_keeps ?_
  · refine State.unmark_keeps ?_
    · exact hp1

theorem State.clkCmdWrite_keeps {s0 : State} {p1 : Machine.State} {p2 : Word} (hp1 : Keeps s0 (p1)) : KeepsO s0 (@State.clkCmdWrite p1 p2) := by
  unfold State.clkCmdWrite
  split
  · refine execClkSet_keeps ?_
    · exact hp1
  · refine execClkAdj_keeps ?_
    · exact hp1
  · refine execClkInval_keeps ?_
    · exact hp1
  · refine keepsO_next ?_
    exact hp1

theorem execClkRateWrite_keeps {s0 : State} {p1 : BitVec 32} {p2 : Machine.State} (hp2 : Keeps s0 (p2)) : KeepsO s0 (@execClkRateWrite p1 p2) := by
  unfold execClkRateWrite
  refine keepsO_next ?_
  refine State.wr_keeps ?_
  · refine keeps_ite (fun _ => ?_) (fun _ => ?_)
    · refine State.rebase_keeps ?_
      · exact hp2
    · exact hp2

theorem State.clkPpsWrite_keeps {s0 : State} {p1 : Machine.State} {p2 : Word} (hp1 : Keeps s0 (p1)) : Keeps s0 (@State.clkPpsWrite p1 p2) := by
  unfold State.clkPpsWrite
  extract_lets +onlyGivenNames -merge -underBinder x1
  have h2 : Keeps s0 (x1) := by
    unfold x1
    refine State.plainWrite_keeps ?_
    · exact hp1
  clear_value x1
  apply keeps_gen x1 h2
  clear h2
  intro x1 h2
  refine keeps_ite (fun _ => ?_) (fun _ => ?_)
  · exact keeps_upd h2 rfl rfl rfl rfl rfl rfl rfl rfl rfl rfl rfl rfl (.inl rfl)
  · exact h2

theorem execPpsInEdge_keeps {s0 : State} {p1 : Word} {p2 : Machine.State} (hp2 : Keeps s0 (p2)) : KeepsO s0 (@execPpsInEdge p1 p2) := by
  unfold execPpsInEdge
  extract_lets +onlyGivenNames -merge -underBinder x1
  have h2 : Keeps s0 (x1) := by
    unfold x1
    refine State.timeTo_keeps ?_
    · exact hp2
  clear_value x1
  apply keeps_gen x1 h2
  clear h2
  intro x1 h2
  extract_lets +onlyGivenNames -merge -underBinder x3
  try clear_value x3
  refine keepsO_ite (fun _ => ?_) (fun _ => ?_)
  · refine keepsO_next ?_
    refine State.count_keeps ?_
    · exact h2
  · extract_lets +onlyGivenNames -merge -underBinder x4
    try clear_value x4
    extract_lets +onlyGivenNames -merge -underBinder y6 x5
    try clear_value y6
    have h7 : Keeps s0 (x5) := by
      unfold x5
      exact keeps_upd h2 rfl rfl rfl rfl rfl rfl rfl rfl rfl rfl rfl rfl (.inl rfl)
    clear_value x5
    apply keeps_gen x5 h7
    clear h7
    intro x5 h7
    refine keepsO_next ?_
    refine State.mark_keeps ?_
    · refine State.setReg_keeps ?_
      · refine State.setReg_keeps ?_
        · refine State.setReg_keeps ?_
          · exact h7

theorem execPpsOutPulse_keeps {s0 : State} {p1 : Word} {p2 : Machine.State} (hp2 : Keeps s0 (p2)) : KeepsO s0 (@execPpsOutPulse p1 p2) := by
  unfold execPpsOutPulse
  extract_lets +onlyGivenNames -merge -underBinder x1
  have h2 : Keeps s0 (x1) := by
    unfold x1
    refine State.timeTo_keeps ?_
    · exact hp2
  clear_value x1
  apply keeps_gen x1 h2
  clear h2
  intro x1 h2
  extract_lets +onlyGivenNames -merge -underBinder x3
  try clear_value x3
  extract_lets +onlyGivenNames -merge -underBinder x4
  try clear_value x4
  refine keepsO_ite (fun _ => ?_) (fun _ => ?_)
  · refine keepsO_next ?_
    exact h2
  · extract_lets +onlyGivenNames -merge -underBinder y6 x5
    try clear_value y6
    have h7 : Keeps s0 (x5) := by
      unfold x5
      exact keeps_upd h2 rfl rfl rfl rfl rfl rfl rfl rfl rfl rfl rfl rfl (.inl rfl)
    clear_value x5
    apply keeps_gen x5 h7
    clear h7
    intro x5 h7
    refine keepsO_next ?_
    refine State.emit_keeps ?_
    · refine keeps_ite (fun _ => ?_) (fun _ => ?_)
      · refine State.count_keeps ?_
        · exact h7
      · exact h7

theorem execPpsOutFall_keeps {s0 : State} {p1 : Word} {p2 : Machine.State} (hp2 : Keeps s0 (p2)) : KeepsO s0 (@execPpsOutFall p1 p2) := by
  unfold execPpsOutFall
  extract_lets +onlyGivenNames -merge -underBinder x1
  have h2 : Keeps s0 (x1) := by
    unfold x1
    refine State.timeTo_keeps ?_
    · exact hp2
  clear_value x1
  apply keeps_gen x1 h2
  clear h2
  intro x1 h2
  split
  · refine keepsO_next ?_
    exact h2
  · refine keepsO_ite (fun _ => ?_) (fun _ => ?_)
    · refine keepsO_next ?_
      exact h2
    · refine keepsO_next ?_
      refine State.emit_keeps ?_
      · exact keeps_upd h2 rfl rfl rfl rfl rfl rfl rfl rfl rfl rfl rfl rfl (.inl rfl)

theorem execClkTsbRead_keeps {s0 : State} {p1 : Master} {p2 : Port} {p3 : Bool} {p4 : Machine.State} (hp4 : Keeps s0 (p4)) : KeepsO s0 (@execClkTsbRead p1 p2 p3 p4) := by
  unfold execClkTsbRead
  split
  · rename_i h3e
    have h3 : Keeps s0 _ := keeps_of_eq h3e (by
      refine State.tsbRead_keeps ?_
      · exact hp4
      )
    refine keepsO_next ?_
    refine State.emit_keeps ?_
    · exact h3

theorem execClkTimeLatch_keeps {s0 : State} {p1 : Master} {p2 : Bool} {p3 : Machine.State} (hp3 : Keeps s0 (p3)) : KeepsO s0 (@execClkTimeLatch p1 p2 p3) := by
  unfold execClkTimeLatch
  refine keepsO_next ?_
  refine State.emit_keeps ?_
  · refine State.latchTime_keeps ?_
    · exact hp3

end Sys2Proof.Machine
end

