-- ==== Sys2Proof/Laws/KeepsHostIf.lean ====
section
/-! SUPPORT. What the definitions of Sys2Proof/Machine/HostIf.lean keep: one lemma each, in the terms of `Keeps`. -/

namespace Sys2Proof.Machine

open Sys2Proof

theorem State.hcolourWrite_keeps {s0 : State} {p1 : Machine.State} {p2 : Word} (hp1 : Keeps s0 (p1)) : Keeps s0 (@State.hcolourWrite p1 p2) := by
  unfold State.hcolourWrite
  extract_lets +onlyGivenNames -merge -underBinder x1
  try clear_value x1
  refine keeps_ite (fun _ => ?_) (fun _ => ?_)
  · refine State.mark_keeps ?_
    · exact hp1
  · refine State.wr_keeps ?_
    · exact hp1

theorem State.bar2Write_keeps {s0 : State} {p1 : Machine.State} {p2 : Word} (hp1 : Keeps s0 (p1)) : Keeps s0 (@State.bar2Write p1 p2) := by
  unfold State.bar2Write
  extract_lets +onlyGivenNames -merge -underBinder x1
  try clear_value x1
  refine keeps_ite (fun _ => ?_) (fun _ => ?_)
  · refine State.mark_keeps ?_
    · exact hp1
  · refine State.wr_keeps ?_
    · exact hp1

theorem State.ringStart_keeps {s0 : State} {p1 : Machine.State} {p2 : Nat} (hp1 : Keeps s0 (p1)) : Keeps s0 (@State.ringStart p1 p2) := by
  unfold State.ringStart
  refine State.unmark_keeps ?_
  · refine State.wr_keeps ?_
    · refine State.wr_keeps ?_
      · refine State.wr_keeps ?_
        · refine State.wr_keeps ?_
          · refine State.setRing_keeps ?_
            · exact hp1

theorem State.rcfgWrite_keeps {s0 : State} {p1 : Machine.State} {p2 : Nat} {p3 : Word} (hp1 : Keeps s0 (p1)) : Keeps s0 (@State.rcfgWrite p1 p2 p3) := by
  unfold State.rcfgWrite
  extract_lets +onlyGivenNames -merge -underBinder x1
  have h2 : Keeps s0 (x1) := by
    unfold x1
    refine State.plainWrite_keeps ?_
    · exact hp1
  clear_value x1
  apply keeps_gen x1 h2
  clear h2
  intro x1 h2
  extract_lets +onlyGivenNames -merge -underBinder x3
  try clear_value x3
  extract_lets +onlyGivenNames -merge -underBinder x4
  try clear_value x4
  extract_lets +onlyGivenNames -merge -underBinder x5
  try clear_value x5
  refine keeps_ite (fun _ => ?_) (fun _ => ?_)
  · refine State.mark_keeps ?_
    · exact hp1
  · refine keeps_ite (fun _ => ?_) (fun _ => ?_)
    · refine keeps_ite (fun _ => ?_) (fun _ => ?_)
      · exact hp1
      · extract_lets +onlyGivenNames -merge -underBinder x6
        try clear_value x6
        refine State.setRing_keeps ?_
        · exact hp1
    · refine keeps_ite (fun _ => ?_) (fun _ => ?_)
      · refine State.ringStart_keeps ?_
        · exact h2
      · exact h2

theorem State.doorbell_keeps {s0 : State} {p1 : Machine.State} {p2 : Nat} {p3 : Word} (hp1 : Keeps s0 (p1)) : Keeps s0 (@State.doorbell p1 p2 p3) := by
  unfold State.doorbell
  refine keeps_ite (fun _ => ?_) (fun _ => ?_)
  · exact hp1
  · extract_lets +onlyGivenNames -merge -underBinder x1
    try clear_value x1
    extract_lets +onlyGivenNames -merge -underBinder x2
    try clear_value x2
    extract_lets +onlyGivenNames -merge -underBinder x3
    have h4 : Keeps s0 (x3) := by
      unfold x3
      refine keeps_ite (fun _ => ?_) (fun _ => ?_)
      · refine State.setRing_keeps ?_
        · exact hp1
      · exact hp1
    clear_value x3
    apply keeps_gen x3 h4
    clear h4
    intro x3 h4
    refine keeps_ite (fun _ => ?_) (fun _ => ?_)
    · exact h4
    · extract_lets +onlyGivenNames -merge -underBinder x5
      try clear_value x5
      extract_lets +onlyGivenNames -merge -underBinder x6
      try clear_value x6
      refine keeps_ite (fun _ => ?_) (fun _ => ?_)
      · refine State.raiseCause_keeps ?_
        · refine State.mark_keeps ?_
          · exact h4
      · extract_lets +onlyGivenNames -merge -underBinder x7
        try clear_value x7
        refine State.wr_keeps ?_
        · refine State.setRing_keeps ?_
          · exact h4

theorem execHifDoorbell_keeps {s0 : State} {p1 : RingNo} {p2 : Word} {p3 : Machine.State} (hp3 : Keeps s0 (p3)) : KeepsO s0 (@execHifDoorbell p1 p2 p3) := by
  unfold execHifDoorbell
  refine guardRsvd_keeps ?_
  · refine keepsO_ite (fun _ => ?_) (fun _ => ?_)
    · exact keepsO_fault
    · refine keepsO_next ?_
      refine State.doorbell_keeps ?_
      · exact hp3

theorem State.fetchedDesc_keeps {s0 : State} {p1 : Machine.State} {p2 : Nat} {p3 : Octets} (hp1 : Keeps s0 (p1)) : Keeps s0 (@State.fetchedDesc p1 p2 p3) := by
  unfold State.fetchedDesc
  extract_lets +onlyGivenNames -merge -underBinder x1
  try clear_value x1
  extract_lets +onlyGivenNames -merge -underBinder x2
  try clear_value x2
  extract_lets +onlyGivenNames -merge -underBinder x3
  try clear_value x3
  refine State.wr_keeps ?_
  · refine State.wr_keeps ?_
    · refine State.setRing_keeps ?_
      · exact hp1

theorem execMsixCoalTimer_keeps {s0 : State} {p1 : RingNo} {p2 : Word} {p3 : Machine.State} (hp3 : Keeps s0 (p3)) : KeepsO s0 (@execMsixCoalTimer p1 p2 p3) := by
  unfold execMsixCoalTimer
  extract_lets +onlyGivenNames -merge -underBinder x1
  have h2 : Keeps s0 (x1) := by
    unfold x1
    refine State.timeTo_keeps ?_
    · exact hp3
  clear_value x1
  apply keeps_gen x1 h2
  clear h2
  intro x1 h2
  extract_lets +onlyGivenNames -merge -underBinder x3
  try clear_value x3
  extract_lets +onlyGivenNames -merge -underBinder x4
  try clear_value x4
  split
  · refine keepsO_next ?_
    exact h2
  · refine keepsO_ite (fun _ => ?_) (fun _ => ?_)
    · refine keepsO_next ?_
      exact h2
    · refine keepsO_next ?_
      refine State.sendVec_keeps ?_
      · refine State.setRing_keeps ?_
        · exact h2

theorem State.takeDesc_keeps {s0 : State} {p1 : Machine.State} {p2 : Nat} (hp1 : Keeps s0 (p1)) : Keeps s0 (@State.takeDesc p1 p2).2 := by
  unfold State.takeDesc
  extract_lets +onlyGivenNames -merge -underBinder x1
  try clear_value x1
  split
  · refine keepsP_mk ?_
    exact hp1
  · refine keepsP_mk ?_
    refine State.setRing_keeps ?_
    · exact hp1

theorem State.refuseBad_keeps {s0 s : State} {n : Nat} (h : Keeps s0 s) : Keeps s0 (s.refuseBad n) := by
  induction n generalizing s with
  | zero => exact h
  | succ n ih =>
    unfold State.refuseBad
    have h1 : Keeps s0 (s.takeDesc 65).2 := State.takeDesc_keeps h
    split
    · rename_i e
      exact keeps_ite (fun _ => h) (fun _ => ih (State.writeRecord_keeps (keeps_of_eq e h1)))
    · exact h

theorem State.mkaReceive_keeps {s0 : State} {p1 : Machine.State} {p2 : Nat} {p3 : Octets} (hp1 : Keeps s0 (p1)) : Keeps s0 (@State.mkaReceive p1 p2 p3) := by
  unfold State.mkaReceive
  extract_lets +onlyGivenNames -merge -underBinder x1
  have h2 : Keeps s0 (x1) := by
    unfold x1
    refine State.refuseBad_keeps ?_
    · exact hp1
  clear_value x1
  apply keeps_gen x1 h2
  clear h2
  intro x1 h2
  extract_lets +onlyGivenNames -merge -underBinder x3
  have h4 : Keeps s0 (x3) := by
    unfold x3
    refine State.satAdd_keeps ?_
    · exact h2
  clear_value x3
  apply keeps_gen x3 h4
  clear h4
  intro x3 h4
  refine keeps_ite (fun _ => ?_) (fun _ => ?_)
  · exact h4
  · split
    · rename_i h6e
      have h6 : Keeps s0 _ := keeps_of_eq h6e (by
        refine State.takeDesc_keeps ?_
        · exact h2
        )
      exact h4
    · rename_i h9e
      have h9 : Keeps s0 _ := keeps_of_eq h9e (by
        refine State.takeDesc_keeps ?_
        · exact h2
        )
      refine keeps_ite (fun _ => ?_) (fun _ => ?_)
      · exact h4
      · refine keeps_ite (fun _ => ?_) (fun _ => ?_)
        · refine State.recordLost_keeps ?_
          · exact h9
        · extract_lets +onlyGivenNames -merge -underBinder x10
          try clear_value x10
          refine keeps_ite (fun _ => ?_) (fun _ => ?_)
          · split
            · rename_i h12e
              have h12 : Keeps s0 _ := keeps_of_eq h12e (by
                refine State.areaWrite_keeps ?_
                · exact h9
                )
              refine State.writeRecord_keeps ?_
              · exact h12
            · rename_i h15e
              have h15 : Keeps s0 _ := keeps_of_eq h15e (by
                refine State.areaWrite_keeps ?_
                · exact h9
                )
              refine State.recordLost_keeps ?_
              · exact h15
          · refine State.writeRecord_keeps ?_
            · refine State.emit_keeps ?_
              · exact h9

theorem State.setMkaQueue_keeps {s0 : State} {p1 : Machine.State} {p2 : Nat} {p3 : List MkaFrame} (hp1 : Keeps s0 (p1)) : Keeps s0 (@State.setMkaQueue p1 p2 p3) := by
  unfold State.setMkaQueue
  exact keeps_upd hp1 rfl rfl rfl rfl rfl rfl rfl rfl rfl rfl rfl rfl (.inl rfl)

theorem execRingFetch_keeps {s0 : State} {p1 : RingNo} {p2 : Option Octets} {p3 : Machine.State} (hp3 : Keeps s0 (p3)) : KeepsO s0 (@execRingFetch p1 p2 p3) := by
  unfold execRingFetch
  refine keepsO_ite (fun _ => ?_) (fun _ => ?_)
  · refine keepsO_next ?_
    exact hp3
  · refine keepsO_ite (fun _ => ?_) (fun _ => ?_)
    · split
      · rename_i h3e
        have h3 : Keeps s0 _ := keeps_of_eq h3e (by
          refine State.areaRead_keeps ?_
          · exact hp3
          )
        refine keepsO_next ?_
        refine State.fetchedDesc_keeps ?_
        · exact h3
      · rename_i h6e
        have h6 : Keeps s0 _ := keeps_of_eq h6e (by
          refine State.areaRead_keeps ?_
          · exact hp3
          )
        refine keepsO_next ?_
        refine State.haltRing_keeps ?_
        · exact h6
    · split
      · refine keepsO_next ?_
        refine State.fetchedDesc_keeps ?_
        · exact hp3
      · refine keepsO_next ?_
        refine State.haltRing_keeps ?_
        · exact hp3

theorem execHifRcfgWrite_keeps {s0 : State} {p1 : RingNo} {p2 : Word} {p3 : Machine.State} (hp3 : Keeps s0 (p3)) : KeepsO s0 (@execHifRcfgWrite p1 p2 p3) := by
  unfold execHifRcfgWrite
  refine guardRsvd_keeps ?_
  · refine keepsO_next ?_
    refine State.rcfgWrite_keeps ?_
    · exact hp3

theorem execHifBar2winWrite_keeps {s0 : State} {p1 : Word} {p2 : Machine.State} (hp2 : Keeps s0 (p2)) : KeepsO s0 (@execHifBar2winWrite p1 p2) := by
  unfold execHifBar2winWrite
  refine guardRsvd_keeps ?_
  · refine keepsO_next ?_
    refine State.bar2Write_keeps ?_
    · exact hp2

theorem State.frameBuffer_keeps {s0 : State} {p1 : Machine.State} {p2 : Nat} {p3 : Desc} {p4 : Option Octets} (hp1 : Keeps s0 (p1)) : Keeps s0 (@State.frameBuffer p1 p2 p3 p4).2 := by
  unfold State.frameBuffer
  extract_lets +onlyGivenNames -merge -underBinder x1
  try clear_value x1
  refine keepsP_ite (fun _ => ?_) (fun _ => ?_)
  · split
    · rename_i h4e
      have h4 : Keeps s0 _ := keeps_of_eq h4e (by
        refine State.areaRead_keeps ?_
        · exact hp1
        )
      refine keepsP_mk ?_
      exact h4
    · rename_i h7e
      have h7 : Keeps s0 _ := keeps_of_eq h7e (by
        refine State.areaRead_keeps ?_
        · exact hp1
        )
      refine keepsP_mk ?_
      exact h7
  · refine keepsP_mk ?_
    exact hp1

theorem execPtpTxDescriptor_keeps {s0 : State} {p1 : Option Octets} {p2 : Machine.State} (hp2 : Keeps s0 (p2)) : KeepsO s0 (@execPtpTxDescriptor p1 p2) := by
  unfold execPtpTxDescriptor
  split
  · rename_i h2e
    have h2 : Keeps s0 _ := keeps_of_eq h2e (by
      refine State.takeDesc_keeps ?_
      · exact hp2
      )
    refine keepsO_next ?_
    exact hp2
  · rename_i h5e
    have h5 : Keeps s0 _ := keeps_of_eq h5e (by
      refine State.takeDesc_keeps ?_
      · exact hp2
      )
    extract_lets +onlyGivenNames -merge -underBinder x6
    try clear_value x6
    extract_lets +onlyGivenNames -merge -underBinder x7
    try clear_value x7
    extract_lets +onlyGivenNames -merge -underBinder x8
    have h9 : ∀ q10 q11, Keeps s0 (q10) → Keeps s0 (x8 q10 q11) := by
      intro q10 q11 hq10
      unfold x8
      refine State.writeRecord_keeps ?_
      · exact hq10
    try clear_value x8
    refine keepsO_ite (fun _ => ?_) (fun _ => ?_)
    · refine keepsO_next ?_
      refine h9 _ _ ?_
      · exact h5
    · split
      · rename_i h13e
        have h13 : Keeps s0 _ := keeps_of_eq h13e (by
          refine State.frameBuffer_keeps ?_
          · exact h5
          )
        refine keepsO_next ?_
        refine h9 _ _ ?_
        · exact h13
      · rename_i h16e
        have h16 : Keeps s0 _ := keeps_of_eq h16e (by
          refine State.frameBuffer_keeps ?_
          · exact h5
          )
        extract_lets +onlyGivenNames -merge -underBinder x17
        try clear_value x17
        split
        · rename_i h20e
          have h20 : Keeps s0 _ := keeps_of_eq h20e (by
            split
            · refine keepsP_ite (fun _ => ?_) (fun _ => ?_)
              · refine keepsP_mk ?_
                exact h16
              · extract_lets +onlyGivenNames -merge -underBinder x21
                try clear_value x21
                extract_lets +onlyGivenNames -merge -underBinder x22
                try clear_value x22
                refine keepsP_mk ?_
                refine State.pushStamp_keeps ?_
                · exact h16
            · refine keepsP_mk ?_
              exact h16
            )
          refine keepsO_next ?_
          refine State.writeRecord_keeps ?_
          · refine State.emit_keeps ?_
            · exact h20

theorem execPcieConfigWrite_keeps {s0 : State} {p1 : Bool} {p2 : Bool} {p3 : Bool} {p4 : Machine.State} (hp4 : Keeps s0 (p4)) : KeepsO s0 (@execPcieConfigWrite p1 p2 p3 p4) := by
  unfold execPcieConfigWrite
  refine keepsO_next ?_
  refine State.flushVecs_keeps ?_
  · exact keeps_upd hp4 rfl rfl rfl rfl rfl rfl rfl rfl rfl rfl rfl rfl (.inl rfl)

theorem execRingDisableEnd_keeps {s0 : State} {p1 : RingNo} {p2 : Machine.State} (hp2 : Keeps s0 (p2)) : KeepsO s0 (@execRingDisableEnd p1 p2) := by
  unfold execRingDisableEnd
  extract_lets +onlyGivenNames -merge -underBinder x1
  try clear_value x1
  refine keepsO_ite (fun _ => ?_) (fun _ => ?_)
  · refine keepsO_next ?_
    refine State.unmark_keeps ?_
    · refine State.setRing_keeps ?_
      · exact hp2
  · refine keepsO_next ?_
    exact hp2

theorem execHcolourWrite_keeps {s0 : State} {p1 : Word} {p2 : Machine.State} (hp2 : Keeps s0 (p2)) : KeepsO s0 (@execHcolourWrite p1 p2) := by
  unfold execHcolourWrite
  refine guardRsvd_keeps ?_
  · refine keepsO_next ?_
    refine State.hcolourWrite_keeps ?_
    · exact hp2

theorem execMkaTxDescriptor_keeps {s0 : State} {p1 : Option Octets} {p2 : Machine.State} (hp2 : Keeps s0 (p2)) : KeepsO s0 (@execMkaTxDescriptor p1 p2) := by
  unfold execMkaTxDescriptor
  split
  · rename_i h2e
    have h2 : Keeps s0 _ := keeps_of_eq h2e (by
      refine State.takeDesc_keeps ?_
      · exact hp2
      )
    refine keepsO_next ?_
    exact hp2
  · rename_i h5e
    have h5 : Keeps s0 _ := keeps_of_eq h5e (by
      refine State.takeDesc_keeps ?_
      · exact hp2
      )
    extract_lets +onlyGivenNames -merge -underBinder x6
    try clear_value x6
    extract_lets +onlyGivenNames -merge -underBinder x7
    try clear_value x7
    extract_lets +onlyGivenNames -merge -underBinder x8
    have h9 : ∀ q10 q11, Keeps s0 (q10) → Keeps s0 (x8 q10 q11) := by
      intro q10 q11 hq10
      unfold x8
      refine State.writeRecord_keeps ?_
      · exact hq10
    try clear_value x8
    refine keepsO_ite (fun _ => ?_) (fun _ => ?_)
    · refine keepsO_next ?_
      refine h9 _ _ ?_
      · exact h5
    · split
      · rename_i h13e
        have h13 : Keeps s0 _ := keeps_of_eq h13e (by
          refine State.frameBuffer_keeps ?_
          · exact h5
          )
        refine keepsO_next ?_
        refine h9 _ _ ?_
        · exact h13
      · rename_i h16e
        have h16 : Keeps s0 _ := keeps_of_eq h16e (by
          refine State.frameBuffer_keeps ?_
          · exact h5
          )
        refine keepsO_ite (fun _ => ?_) (fun _ => ?_)
        · refine keepsO_next ?_
          refine h9 _ _ ?_
          · exact h16
        · refine keepsO_next ?_
          refine State.setMkaQueue_keeps ?_
          · exact h16

end Sys2Proof.Machine
end

