-- ==== Sys2Proof/Laws/KeepsDatapath.lean ====
section
/-! SUPPORT. What the definitions of Sys2Proof/Machine/Datapath.lean keep: one lemma each, in the terms of `Keeps`. -/

namespace Sys2Proof.Machine

open Sys2Proof

theorem State.setL1_keeps {s0 : State} {p1 : Machine.State} {p2 : Nat} {p3 : L1Run} (hp1 : Keeps s0 (p1)) : Keeps s0 (@State.setL1 p1 p2 p3) := by
  unfold State.setL1
  exact keeps_upd hp1 rfl rfl rfl rfl rfl rfl rfl rfl rfl rfl rfl rfl (.inl rfl)

theorem State.discardKs_keeps {s0 : State} {p1 : Machine.State} {p2 : Nat} {p3 : Nat} {p4 : Nat} {p5 : Nat} (hp1 : Keeps s0 (p1)) : Keeps s0 (@State.discardKs p1 p2 p3 p4 p5) := by
  unfold State.discardKs
  refine keeps_ite (fun _ => ?_) (fun _ => ?_)
  · exact hp1
  · refine keeps_foldl ?_ (fun a x ha => ?_)
    · exact hp1
    · skip
      refine State.count_keeps ?_
      · exact ha

theorem State.dropDesc_keeps {s0 : State} {p1 : Machine.State} {p2 : Nat} {p3 : Dir} (hp1 : Keeps s0 (p1)) : Keeps s0 (@State.dropDesc p1 p2 p3) := by
  unfold State.dropDesc
  extract_lets +onlyGivenNames -merge -underBinder x1
  try clear_value x1
  extract_lets +onlyGivenNames -merge -underBinder x2
  try clear_value x2
  split
  · refine State.setL1_keeps ?_
    · refine State.discardKs_keeps ?_
      · exact hp1
  · refine State.setL1_keeps ?_
    · refine State.discardKs_keeps ?_
      · exact hp1

theorem State.sampleBlocks_keeps {s0 : State} {p1 : Machine.State} {p2 : Nat} {p3 : Nat} {p4 : Nat} {p5 : Bool} {p6 : Nat → Sample} (hp1 : Keeps s0 (p1)) : Keeps s0 (@State.sampleBlocks p1 p2 p3 p4 p5 p6) := by
  unfold State.sampleBlocks
  extract_lets +onlyGivenNames -merge -underBinder x1
  try clear_value x1
  extract_lets +onlyGivenNames -merge -underBinder x2
  try clear_value x2
  extract_lets +onlyGivenNames -merge -underBinder x3
  try clear_value x3
  extract_lets +onlyGivenNames -merge -underBinder x4
  try clear_value x4
  extract_lets +onlyGivenNames -merge -underBinder x5
  try clear_value x5
  extract_lets +onlyGivenNames -merge -underBinder x6
  have h7 : Keeps s0 (x6) := by
    unfold x6
    refine State.setRace_keeps ?_
    · exact hp1
  clear_value x6
  apply keeps_gen x6 h7
  clear h7
  intro x6 h7
  refine keeps_ite (fun _ => ?_) (fun _ => ?_)
  · exact h7
  · extract_lets +onlyGivenNames -merge -underBinder x8
    try clear_value x8
    extract_lets +onlyGivenNames -merge -underBinder x9
    try clear_value x9
    extract_lets +onlyGivenNames -merge -underBinder y11 x10
    try clear_value y11
    have h12 : Keeps s0 (x10) := by
      unfold x10
      exact keeps_upd h7 rfl rfl rfl rfl rfl rfl rfl rfl rfl rfl rfl rfl (.inl rfl)
    clear_value x10
    apply keeps_gen x10 h12
    clear h12
    intro x10 h12
    extract_lets +onlyGivenNames -merge -underBinder x13
    have h14 : Keeps s0 (x13) := by
      unfold x13
      refine State.count_keeps ?_
      · exact h12
    clear_value x13
    apply keeps_gen x13 h14
    clear h14
    intro x13 h14
    refine keeps_ite (fun _ => ?_) (fun _ => ?_)
    · exact h14
    · refine State.count_keeps ?_
      · exact h14

theorem State.passLanes_keeps {s0 : State} {p1 : Machine.State} {p2 : Nat} {p3 : Nat} {p4 : Flow} {p5 : Nat} {p6 : Nat} (hp1 : Keeps s0 (p1)) : Keeps s0 (@State.passLanes p1 p2 p3 p4 p5 p6) := by
  unfold State.passLanes
  refine keeps_ite (fun _ => ?_) (fun _ => ?_)
  · exact hp1
  · refine State.sampleBlocks_keeps ?_
    · refine State.count_keeps ?_
      · exact hp1

theorem State.setRetain_keeps {s0 : State} {p1 : Machine.State} {p2 : Nat} {p3 : List InFrame} (hp1 : Keeps s0 (p1)) : Keeps s0 (@State.setRetain p1 p2 p3) := by
  unfold State.setRetain
  refine State.setWgrp_keeps ?_
  · exact hp1

theorem State.capture_keeps {s0 : State} {p1 : Machine.State} {p2 : Nat} {p3 : Nat} {p4 : Nat} {p5 : Nat} {p6 : Nat} {p7 : Nat} {p8 : Nat} (hp1 : Keeps s0 (p1)) : Keeps s0 (@State.capture p1 p2 p3 p4 p5 p6 p7 p8) := by
  unfold State.capture
  extract_lets +onlyGivenNames -merge -underBinder x1
  try clear_value x1
  refine keeps_ite (fun _ => ?_) (fun _ => ?_)
  · exact hp1
  · extract_lets +onlyGivenNames -merge -underBinder x2
    try clear_value x2
    refine State.setRace_keeps ?_
    · refine State.setReg_keeps ?_
      · refine State.setReg_keeps ?_
        · exact hp1

theorem State.dropDescs_keeps {s0 : State} {p1 : Machine.State} {p2 : Nat} (hp1 : Keeps s0 (p1)) : Keeps s0 (@State.dropDescs p1 p2) := by
  unfold State.dropDescs
  refine State.dropDesc_keeps ?_
  · refine State.dropDesc_keeps ?_
    · exact hp1

theorem State.cutL1_keeps {s0 : State} {p1 : Machine.State} {p2 : Nat} {p3 : List (Channel × Nat)} (hp1 : Keeps s0 (p1)) : Keeps s0 (@State.cutL1 p1 p2 p3) := by
  unfold State.cutL1
  refine keeps_foldl ?_ (fun a x ha => ?_)
  · exact hp1
  · skip
    extract_lets +onlyGivenNames -merge -underBinder x1
    have h2 : Keeps s0 (x1) := by
      unfold x1
      refine State.dropDescs_keeps ?_
      · exact ha
    clear_value x1
    apply keeps_gen x1 h2
    clear h2
    intro x1 h2
    extract_lets +onlyGivenNames -merge -underBinder x3
    try clear_value x3
    extract_lets +onlyGivenNames -merge -underBinder x4
    try clear_value x4
    split
    · refine State.setL1_keeps ?_
      · exact h2
    · refine keeps_ite (fun _ => ?_) (fun _ => ?_)
      · refine State.setL1_keeps ?_
        · exact h2
      · extract_lets +onlyGivenNames -merge -underBinder x5
        try clear_value x5
        extract_lets +onlyGivenNames -merge -underBinder x6
        try clear_value x6
        extract_lets +onlyGivenNames -merge -underBinder x7
        try clear_value x7
        refine State.setL1_keeps ?_
        · refine State.discardKs_keeps ?_
          · exact h2

theorem State.cutRxAt_keeps {s0 : State} {p1 : Machine.State} {p2 : Nat} {p3 : Nat} (hp1 : Keeps s0 (p1)) : Keeps s0 (@State.cutRxAt p1 p2 p3) := by
  unfold State.cutRxAt
  extract_lets +onlyGivenNames -merge -underBinder x1
  try clear_value x1
  split
  · exact hp1
  · extract_lets +onlyGivenNames -merge -underBinder x2
    have h3 : Keeps s0 (x2) := by
      unfold x2
      refine State.discardKs_keeps ?_
      · exact hp1
    clear_value x2
    apply keeps_gen x2 h3
    clear h3
    intro x2 h3
    extract_lets +onlyGivenNames -merge -underBinder x4
    try clear_value x4
    refine State.setL1_keeps ?_
    · exact h3

theorem State.cutL1Rx_keeps {s0 : State} {p1 : Machine.State} {p2 : Nat} {p3 : List (Channel × Nat)} (hp1 : Keeps s0 (p1)) : Keeps s0 (@State.cutL1Rx p1 p2 p3) := by
  unfold State.cutL1Rx
  refine keeps_foldl ?_ (fun a x ha => ?_)
  · exact hp1
  · skip
    extract_lets +onlyGivenNames -merge -underBinder x1
    have h2 : Keeps s0 (x1) := by
      unfold x1
      refine State.dropDesc_keeps ?_
      · exact ha
    clear_value x1
    apply keeps_gen x1 h2
    clear h2
    intro x1 h2
    split
    · exact h2
    · extract_lets +onlyGivenNames -merge -underBinder x3
      try clear_value x3
      refine keeps_ite (fun _ => ?_) (fun _ => ?_)
      · exact h2
      · refine State.cutRxAt_keeps ?_
        · exact h2

theorem State.withhold_keeps {s0 : State} {p1 : Machine.State} {p2 : Nat} {p3 : Nat} {p4 : Nat} {p5 : Nat} {p6 : Nat} {p7 : Nat} {p8 : Nat} {p9 : Nat} {p10 : List (Channel × Nat)} (hp1 : Keeps s0 (p1)) : Keeps s0 (@State.withhold p1 p2 p3 p4 p5 p6 p7 p8 p9 p10) := by
  unfold State.withhold
  extract_lets +onlyGivenNames -merge -underBinder x1
  try clear_value x1
  extract_lets +onlyGivenNames -merge -underBinder x2
  have h3 : Keeps s0 (x2) := by
    unfold x2
    refine State.capture_keeps ?_
    · refine State.mark_keeps ?_
      · refine State.count_keeps ?_
        · exact hp1
  clear_value x2
  apply keeps_gen x2 h3
  clear h3
  intro x2 h3
  refine keeps_ite (fun _ => ?_) (fun _ => ?_)
  · exact h3
  · extract_lets +onlyGivenNames -merge -underBinder x4
    try clear_value x4
    extract_lets +onlyGivenNames -merge -underBinder x5
    try clear_value x5
    extract_lets +onlyGivenNames -merge -underBinder x6
    try clear_value x6
    extract_lets +onlyGivenNames -merge -underBinder x7
    have h8 : Keeps s0 (x7) := by
      unfold x7
      refine State.setRace_keeps ?_
      · exact h3
    clear_value x7
    apply keeps_gen x7 h8
    clear h8
    intro x7 h8
    extract_lets +onlyGivenNames -merge -underBinder x9
    try clear_value x9
    refine keeps_ite (fun _ => ?_) (fun _ => ?_)
    · exact h8
    · refine keeps_ite (fun _ => ?_) (fun _ => ?_)
      · refine State.cutL1_keeps ?_
        · exact h8
      · refine State.cutL1Rx_keeps ?_
        · exact h8

theorem State.setRingOf_keeps {s0 : State} {p1 : Machine.State} {p2 : Nat} {p3 : List RingEntry} (hp1 : Keeps s0 (p1)) : Keeps s0 (@State.setRingOf p1 p2 p3) := by
  unfold State.setRingOf
  refine State.setWgrp_keeps ?_
  · exact hp1

theorem State.raceKeyMiss_keeps {s0 : State} {p1 : Machine.State} {p2 : Nat} {p3 : Nat} {p4 : Nat} (hp1 : Keeps s0 (p1)) : Keeps s0 (@State.raceKeyMiss p1 p2 p3 p4) := by
  unfold State.raceKeyMiss
  refine keeps_foldl ?_ (fun a x ha => ?_)
  · exact hp1
  · skip
    refine State.count_keeps ?_
    · exact ha

end Sys2Proof.Machine
end

