-- ==== Sys2Proof/Laws/KeepsPacket.lean ====
section
/-! SUPPORT. What the definitions of Sys2Proof/Machine/Packet.lean keep: one lemma each, in the terms of `Keeps`. -/

namespace Sys2Proof.Machine

open Sys2Proof

theorem State.policedAdmit_keeps {s0 : State} {p1 : Machine.State} {p2 : Nat} {p3 : Nat} {p4 : Option Nat} {p5 : Octets} (hp1 : Keeps s0 (p1)) : Keeps s0 (@State.policedAdmit p1 p2 p3 p4 p5) := by
  unfold State.policedAdmit
  split
  · rename_i h2e
    have h2 : Keeps s0 _ := keeps_of_eq h2e (by
      refine State.policeWith_keeps ?_
      · exact hp1
      )
    exact h2
  · rename_i h5e
    have h5 : Keeps s0 _ := keeps_of_eq h5e (by
      refine State.policeWith_keeps ?_
      · exact hp1
      )
    refine State.admitFrame_keeps ?_
    · exact h5

theorem State.classify_keeps {s0 : State} {p1 : Machine.State} {p2 : Nat} {p3 : Octets} (hp1 : Keeps s0 (p1)) : Keeps s0 (@State.classify p1 p2 p3) := by
  unfold State.classify
  refine keeps_ite (fun _ => ?_) (fun _ => ?_)
  · refine State.count_keeps ?_
    · exact hp1
  · split
    · rename_i h3e
      have h3 : Keeps s0 _ := keeps_of_eq h3e (by
        refine State.dlookup_keeps ?_
        · exact hp1
        )
      extract_lets +onlyGivenNames -merge -underBinder x4
      try clear_value x4
      extract_lets +onlyGivenNames -merge -underBinder x5
      have h6 : Keeps s0 (x5) := by
        unfold x5
        refine State.count_keeps ?_
        · refine State.dset_keeps ?_
          · exact h3
      clear_value x5
      apply keeps_gen x5 h6
      clear h6
      intro x5 h6
      refine keeps_ite (fun _ => ?_) (fun _ => ?_)
      · refine State.count_keeps ?_
        · exact h6
      · refine State.policedAdmit_keeps ?_
        · exact h6
    · rename_i h8e
      have h8 : Keeps s0 _ := keeps_of_eq h8e (by
        refine State.dlookup_keeps ?_
        · exact hp1
        )
      refine keeps_ite (fun _ => ?_) (fun _ => ?_)
      · refine State.count_keeps ?_
        · exact h8
      · refine State.policedAdmit_keeps ?_
        · refine State.count_keeps ?_
          · exact h8

theorem execClientFrameRx_keeps {s0 : State} {p1 : Port} {p2 : Octets} {p3 : List (Nat × BitVec 128)} {p4 : Fin 65} {p5 : Machine.State} (hp5 : Keeps s0 (p5)) : KeepsO s0 (@execClientFrameRx p1 p2 p3 p4 p5) := by
  unfold execClientFrameRx
  refine keepsO_ite (fun _ => ?_) (fun _ => ?_)
  · refine keepsO_next ?_
    exact hp5
  · extract_lets +onlyGivenNames -merge -underBinder y2 x1
    try clear_value y2
    have h3 : Keeps s0 (x1) := by
      unfold x1
      exact keeps_upd hp5 rfl rfl rfl rfl rfl rfl rfl rfl rfl rfl rfl rfl (.inl rfl)
    clear_value x1
    apply keeps_gen x1 h3
    clear h3
    intro x1 h3
    extract_lets +onlyGivenNames -merge -underBinder x4
    have h5 : Keeps s0 (x4) := by
      unfold x4
      refine State.classify_keeps ?_
      · refine State.dflip_keeps ?_
        · refine State.ptpStamp_keeps ?_
          · exact h3
    clear_value x4
    apply keeps_gen x4 h5
    clear h5
    intro x4 h5
    refine keepsO_ite (fun _ => ?_) (fun _ => ?_)
    · exact keepsO_fault
    · refine keepsO_next ?_
      exact h5

theorem State.l1Ready_keeps {s0 : State} {p1 : Machine.State} {p2 : Nat} {p3 : Dir} (hp1 : Keeps s0 (p1)) : Keeps s0 (@State.l1Ready p1 p2 p3) := by
  unfold State.l1Ready
  extract_lets +onlyGivenNames -merge -underBinder x1
  try clear_value x1
  extract_lets +onlyGivenNames -merge -underBinder x2
  try clear_value x2
  refine State.setL1_keeps ?_
  · exact hp1

theorem State.memFind_keeps {s0 : State} {p1 : Machine.State} {p2 : Nat} {p3 : MemFind} (hp1 : Keeps s0 (p1)) : Keeps s0 (@State.memFind p1 p2 p3) := by
  unfold State.memFind
  split
  · refine State.eccCorrected_keeps ?_
    · exact hp1
  · split
    · exact hp1
    · extract_lets +onlyGivenNames -merge -underBinder y2 x1
      try clear_value y2
      have h3 : Keeps s0 (x1) := by
        unfold x1
        exact keeps_upd hp1 rfl rfl rfl rfl rfl rfl rfl rfl rfl rfl rfl rfl (.inl rfl)
      clear_value x1
      apply keeps_gen x1 h3
      clear h3
      intro x1 h3
      refine State.breach22_keeps ?_
      · refine State.report_keeps ?_
        · exact h3
  · split
    · exact hp1
    · extract_lets +onlyGivenNames -merge -underBinder x4
      try clear_value x4
      extract_lets +onlyGivenNames -merge -underBinder x5
      have h6 : Keeps s0 (x5) := by
        unfold x5
        refine State.discardKs_keeps ?_
        · refine State.setRetain_keeps ?_
          · exact hp1
      clear_value x5
      apply keeps_gen x5 h6
      clear h6
      intro x5 h6
      refine State.breach22_keeps ?_
      · refine State.report_keeps ?_
        · exact h6

theorem State.passFrame_keeps {s0 : State} {p1 : Machine.State} {p2 : Nat} {p3 : Nat} {p4 : Nat} {p5 : Flow} (hp1 : Keeps s0 (p1)) : Keeps s0 (@State.passFrame p1 p2 p3 p4 p5).2 := by
  unfold State.passFrame
  split
  · refine keepsP_mk ?_
    refine State.passLanes_keeps ?_
    · exact hp1
  · extract_lets +onlyGivenNames -merge -underBinder x1
    try clear_value x1
    refine keepsP_mk ?_
    refine State.withhold_keeps ?_
    · refine State.passLanes_keeps ?_
      · exact hp1

theorem State.releaseCells_keeps {s0 : State} {p1 : Machine.State} {p2 : Nat} {p3 : List (Nat × Nat)} (hp1 : Keeps s0 (p1)) : Keeps s0 (@State.releaseCells p1 p2 p3) := by
  unfold State.releaseCells
  refine State.freeCellsOf_keeps ?_
  · refine State.uncharge_keeps ?_
    · exact hp1

theorem State.deliver_keeps {s0 : State} {p1 : Machine.State} {p2 : Nat} {p3 : RingEntry} {p4 : Octets} {p5 : Octets} (hp1 : Keeps s0 (p1)) : Keeps s0 (@State.deliver p1 p2 p3 p4 p5) := by
  unfold State.deliver
  extract_lets +onlyGivenNames -merge -underBinder x1
  try clear_value x1
  extract_lets +onlyGivenNames -merge -underBinder x2
  try clear_value x2
  extract_lets +onlyGivenNames -merge -underBinder x3
  try clear_value x3
  extract_lets +onlyGivenNames -merge -underBinder x4
  have h5 : Keeps s0 (x4) := by
    unfold x4
    refine State.count_keeps ?_
    · refine State.count_keeps ?_
      · refine State.count_keeps ?_
        · refine State.emit_keeps ?_
          · exact hp1
  clear_value x4
  apply keeps_gen x4 h5
  clear h5
  intro x4 h5
  extract_lets +onlyGivenNames -merge -underBinder x6
  have h7 : Keeps s0 (x6) := by
    unfold x6
    refine keeps_ite (fun _ => ?_) (fun _ => ?_)
    · refine State.count_keeps ?_
      · exact h5
    · exact h5
  clear_value x6
  apply keeps_gen x6 h7
  clear h7
  intro x6 h7
  extract_lets +onlyGivenNames -merge -underBinder x8
  have h9 : Keeps s0 (x8) := by
    unfold x8
    refine State.setRingOf_keeps ?_
    · exact h7
  clear_value x8
  apply keeps_gen x8 h9
  clear h9
  intro x8 h9
  refine State.releaseCells_keeps ?_
  · exact h9

theorem execEgressFrameDelivered_keeps {s0 : State} {p1 : Group} {p2 : Machine.State} (hp2 : Keeps s0 (p2)) : KeepsO s0 (@execEgressFrameDelivered p1 p2) := by
  unfold execEgressFrameDelivered
  split
  · split
    · refine keepsO_ite (fun _ => ?_) (fun _ => ?_)
      · refine keepsO_next ?_
        split
        · rename_i h2e
          have h2 : Keeps s0 _ := keeps_of_eq h2e (by
            refine State.passFrame_keeps ?_
            · exact hp2
            )
          refine State.deliver_keeps ?_
          · exact h2
        · rename_i h4e
          have h4 : Keeps s0 _ := keeps_of_eq h4e (by
            refine State.passFrame_keeps ?_
            · exact hp2
            )
          exact h4
      · refine keepsO_next ?_
        exact hp2
    · refine keepsO_next ?_
      exact hp2
  · refine keepsO_next ?_
    exact hp2

theorem State.toClient_keeps {s0 : State} {p1 : Machine.State} {p2 : Nat} {p3 : Octets} {p4 : Bool} (hp1 : Keeps s0 (p1)) : Keeps s0 (@State.toClient p1 p2 p3 p4) := by
  unfold State.toClient
  refine keeps_ite (fun _ => ?_) (fun _ => ?_)
  · extract_lets +onlyGivenNames -merge -underBinder x1
    have h2 : Keeps s0 (x1) := by
      unfold x1
      refine keeps_ite (fun _ => ?_) (fun _ => ?_)
      · refine State.ptpStamp_keeps ?_
        · exact hp1
      · exact hp1
    clear_value x1
    apply keeps_gen x1 h2
    clear h2
    intro x1 h2
    refine State.emit_keeps ?_
    · exact h2
  · exact hp1

theorem State.basinFault_keeps {s0 : State} {p1 : Machine.State} {p2 : Option (Fin 5 × Nat × Fin 6)} (hp1 : Keeps s0 (p1)) : Keeps s0 (@State.basinFault p1 p2) := by
  unfold State.basinFault
  split
  · exact hp1
  · extract_lets +onlyGivenNames -merge -underBinder x1
    try clear_value x1
    refine State.basinLost_keeps ?_
    · exact hp1

theorem State.stackFlips_keeps {s0 : State} {p1 : Machine.State} {p2 : List (Nat × Nat × BitVec 80)} (hp1 : Keeps s0 (p1)) : Keeps s0 (@State.stackFlips p1 p2) := by
  unfold State.stackFlips
  refine keeps_foldl ?_ (fun a x ha => ?_)
  · exact hp1
  · skip
    split
    · refine State.culFlip_keeps ?_
      · exact ha
    · exact ha

theorem State.readChain_keeps {s0 s : State} {q len c fuel i : Nat} {p : Nat × Nat} {acc : Octets} (h : Keeps s0 s) :
    Keeps s0 (s.readChain q len c fuel i p acc).2 := by
  induction fuel generalizing s i p acc with
  | zero => exact h
  | succ n ih =>
    obtain ⟨cell, gen⟩ := p
    unfold State.readChain
    have h1 : Keeps s0 (s.culRead { req := 6, gen := some gen } cell 0 256).2 := State.culRead_keeps h
    split
    · rename_i e; exact keeps_of_eq e h1
    · rename_i e
      exact keepsP_ite (fun _ => ih (keeps_of_eq e h1)) (fun _ => keeps_of_eq e h1)

theorem State.dropEntry_keeps {s0 : State} {p1 : Machine.State} {p2 : Nat} {p3 : RingEntry} (hp1 : Keeps s0 (p1)) : Keeps s0 (@State.dropEntry p1 p2 p3) := by
  unfold State.dropEntry
  refine State.setRingOf_keeps ?_
  · exact hp1

theorem State.lateWord_keeps {s0 : State} {p1 : Machine.State} {p2 : Nat} {p3 : RingEntry} {p4 : Octets} {p5 : Nat} (hp1 : Keeps s0 (p1)) : Keeps s0 (@State.lateWord p1 p2 p3 p4 p5) := by
  unfold State.lateWord
  extract_lets +onlyGivenNames -merge -underBinder x1
  try clear_value x1
  extract_lets +onlyGivenNames -merge -underBinder x2
  have h3 : Keeps s0 (x2) := by
    unfold x2
    refine State.discardKs_keeps ?_
    · refine State.count_keeps ?_
      · refine State.emit_keeps ?_
        · exact hp1
  clear_value x2
  apply keeps_gen x2 h3
  clear h3
  intro x2 h3
  refine State.releaseCells_keeps ?_
  · refine State.dropEntry_keeps ?_
    · exact h3

theorem State.breakChain_keeps {s0 s : State} {g : Nat} {e : RingEntry} {cell gen : Nat} {m : Bool} {read : Nat}
    {o : Octets} (h : Keeps s0 s) : Keeps s0 (s.breakChain g e cell gen m read o) := by
  unfold State.breakChain
  extract_lets x a0 a1
  have h0 : Keeps s0 a0 := keeps_ite (fun _ => h) (fun _ => State.emit_keeps h)
  have h1 : Keeps s0 a1 := State.chainBroken_keeps (State.discardKs_keeps h0)
  have h2 := State.loseQueue_keeps (q := e.queue) h1
  exact State.breach21_keeps (State.dropEntry_keeps (State.lose_keeps (State.freeCellsOf_keeps (State.uncharge_keeps h2))))

theorem execEgressFrameRead_keeps {s0 s : State} {g : Group} {flips : List (Nat × Nat × BitVec 80)}
    {bue : Option (Fin 5 × Nat × Fin 6)} {late : Option Nat} (h : Keeps s0 s) :
    KeepsO s0 (execEgressFrameRead g flips bue late s) := by
  unfold execEgressFrameRead
  extract_lets w a next b
  have hw : Keeps s0 w := State.basinFault_keeps (State.stackFlips_keeps h)
  refine keepsO_next (State.takeReports_keeps hw ?_)
  have h0 : Keeps w.holdReports a := Keeps.refl _
  clear_value a
  unfold b
  split
  · exact h0
  · rename_i e _
    have h1 : Keeps w.holdReports (a.readChain e.queue e.len e.cells.length e.cells.length 0 (e.cells.headD (0, 0)) []).2 :=
      State.readChain_keeps h0
    split <;> rename_i e1
    · exact State.setRingOf_keeps (keeps_of_eq e1 h1)
    · exact keeps_ite (fun _ => State.lateWord_keeps (keeps_of_eq e1 h1)) (fun _ => keeps_of_eq e1 h1)
    · exact State.breakChain_keeps (keeps_of_eq e1 h1)

theorem State.advanceRxPn_keeps {s0 : State} {p1 : Machine.State} {p2 : Nat} {p3 : Nat} (hp1 : Keeps s0 (p1)) : Keeps s0 (@State.advanceRxPn p1 p2 p3) := by
  unfold State.advanceRxPn
  refine keeps_ite (fun _ => ?_) (fun _ => ?_)
  · refine State.rwr_keeps ?_
    · exact hp1
  · split
    · rename_i h3e
      have h3 : Keeps s0 _ := keeps_of_eq h3e (by
        refine State.draw_keeps ?_
        · exact hp1
        )
      refine State.rwr_keeps ?_
      · exact h3

theorem State.retainFrame_keeps {s0 : State} {p1 : Machine.State} {p2 : Nat} {p3 : InFrame} (hp1 : Keeps s0 (p1)) : Keeps s0 (@State.retainFrame p1 p2 p3) := by
  unfold State.retainFrame
  refine keeps_ite (fun _ => ?_) (fun _ => ?_)
  · exact keeps_upd hp1 rfl rfl rfl rfl rfl rfl rfl rfl rfl rfl rfl rfl (.inl rfl)
  · refine State.setRetain_keeps ?_
    · exact hp1

theorem State.markPn_keeps {s0 : State} {p1 : Machine.State} {p2 : Nat} {p3 : Bool} {p4 : Nat} {p5 : Nat} (hp1 : Keeps s0 (p1)) : Keeps s0 (@State.markPn p1 p2 p3 p4 p5) := by
  unfold State.markPn
  extract_lets +onlyGivenNames -merge -underBinder x1
  try clear_value x1
  refine State.setWgrp_keeps ?_
  · exact hp1

theorem State.readSaKey_keeps {s0 : State} {p1 : Machine.State} {p2 : Nat} {p3 : Bool} (hp1 : Keeps s0 (p1)) : Keeps s0 (@State.readSaKey p1 p2 p3).2 := by
  unfold State.readSaKey
  refine keepsP_ite (fun _ => ?_) (fun _ => ?_)
  · refine keepsP_mk ?_
    exact hp1
  · refine keepsP_ite (fun _ => ?_) (fun _ => ?_)
    · refine keepsP_mk ?_
      refine State.report_keeps ?_
      · exact hp1
    · refine keepsP_mk ?_
      exact hp1

theorem State.acceptEgress_keeps {s0 : State} {p1 : Machine.State} {p2 : Nat} {p3 : Nat} {p4 : Bool} {p5 : RingEntry} (hp1 : Keeps s0 (p1)) : Keeps s0 (@State.acceptEgress p1 p2 p3 p4 p5) := by
  unfold State.acceptEgress
  extract_lets +onlyGivenNames -merge -underBinder x1
  try clear_value x1
  split
  · rename_i h4e
    have h4 : Keeps s0 _ := keeps_of_eq h4e (by
      refine State.readSaKey_keeps ?_
      · exact hp1
      )
    extract_lets +onlyGivenNames -merge -underBinder x5
    have h6 : Keeps s0 (x5) := by
      unfold x5
      refine keeps_ite (fun _ => ?_) (fun _ => ?_)
      · refine State.chargeMapper_keeps ?_
        · exact h4
      · exact h4
    clear_value x5
    apply keeps_gen x5 h6
    clear h6
    intro x5 h6
    extract_lets +onlyGivenNames -merge -underBinder x7
    try clear_value x7
    extract_lets +onlyGivenNames -merge -underBinder x8
    try clear_value x8
    refine State.setRingOf_keeps ?_
    · exact h6
  · rename_i h10e
    have h10 : Keeps s0 _ := keeps_of_eq h10e (by
      refine State.readSaKey_keeps ?_
      · exact hp1
      )
    extract_lets +onlyGivenNames -merge -underBinder x11
    have h12 : Keeps s0 (x11) := by
      unfold x11
      refine State.count_keeps ?_
      · exact h10
    clear_value x11
    apply keeps_gen x11 h12
    clear h12
    intro x11 h12
    extract_lets +onlyGivenNames -merge -underBinder x13
    have h14 : Keeps s0 (x13) := by
      unfold x13
      refine keeps_ite (fun _ => ?_) (fun _ => ?_)
      · exact h12
      · refine State.breach21_keeps ?_
        · exact h12
    clear_value x13
    apply keeps_gen x13 h14
    clear h14
    intro x13 h14
    refine State.releaseCells_keeps ?_
    · refine State.setRingOf_keeps ?_
      · exact h14

theorem State.learnFrom_keeps {s0 : State} {p1 : Machine.State} {p2 : Nat} {p3 : Nat} {p4 : Octets} (hp1 : Keeps s0 (p1)) : Keeps s0 (@State.learnFrom p1 p2 p3 p4) := by
  unfold State.learnFrom
  extract_lets +onlyGivenNames -merge -underBinder x1
  try clear_value x1
  refine keeps_ite (fun _ => ?_) (fun _ => ?_)
  · exact hp1
  · refine State.learnAsk_keeps ?_
    · exact hp1

theorem State.rxResolve_keeps {s0 : State} {p1 : Machine.State} {p2 : Nat} {p3 : Nat} {p4 : Octets} {p5 : RxTag} (hp1 : Keeps s0 (p1)) : Keeps s0 (@State.rxResolve p1 p2 p3 p4 p5) := by
  unfold State.rxResolve
  extract_lets +onlyGivenNames -merge -underBinder x1
  try clear_value x1
  extract_lets +onlyGivenNames -merge -underBinder x2
  try clear_value x2
  split
  · refine State.count_keeps ?_
    · exact hp1
  · refine keeps_ite (fun _ => ?_) (fun _ => ?_)
    · refine State.count_keeps ?_
      · exact hp1
    · extract_lets +onlyGivenNames -merge -underBinder x3
      try clear_value x3
      refine keeps_ite (fun _ => ?_) (fun _ => ?_)
      · refine State.count_keeps ?_
        · exact hp1
      · extract_lets +onlyGivenNames -merge -underBinder x4
        try clear_value x4
        extract_lets +onlyGivenNames -merge -underBinder x5
        try clear_value x5
        refine keeps_ite (fun _ => ?_) (fun _ => ?_)
        · refine State.count_keeps ?_
          · exact hp1
        · refine State.retainFrame_keeps ?_
          · exact hp1

theorem State.rxChecks_keeps {s0 : State} {p1 : Machine.State} {p2 : Nat} {p3 : Nat} {p4 : Octets} (hp1 : Keeps s0 (p1)) : Keeps s0 (@State.rxChecks p1 p2 p3 p4) := by
  unfold State.rxChecks
  extract_lets +onlyGivenNames -merge -underBinder x1
  try clear_value x1
  refine keeps_ite (fun _ => ?_) (fun _ => ?_)
  · refine State.mkaReceive_keeps ?_
    · refine State.count_keeps ?_
      · exact hp1
  · refine keeps_ite (fun _ => ?_) (fun _ => ?_)
    · refine State.count_keeps ?_
      · exact hp1
    · split
      · refine State.count_keeps ?_
        · exact hp1
      · refine keeps_ite (fun _ => ?_) (fun _ => ?_)
        · refine State.rxResolve_keeps ?_
          · exact hp1
        · refine State.count_keeps ?_
          · exact hp1

theorem State.unshelter_keeps {s0 : State} {p1 : Machine.State} {p2 : Nat} (hp1 : Keeps s0 (p1)) : Keeps s0 (@State.unshelter p1 p2) := by
  unfold State.unshelter
  split
  · refine keeps_ite (fun _ => ?_) (fun _ => ?_)
    · extract_lets +onlyGivenNames -merge -underBinder y2 x1
      try clear_value y2
      have h3 : Keeps s0 (x1) := by
        unfold x1
        exact keeps_upd hp1 rfl rfl rfl rfl rfl rfl rfl rfl rfl rfl rfl rfl (.inl rfl)
      clear_value x1
      apply keeps_gen x1 h3
      clear h3
      intro x1 h3
      refine keeps_ite (fun _ => ?_) (fun _ => ?_)
      · refine State.rxChecks_keeps ?_
        · exact h3
      · refine State.count_keeps ?_
        · exact h3
    · exact hp1
  · exact hp1

theorem State.verdict_keeps {s0 : State} {p1 : Machine.State} {p2 : Nat} {p3 : InFrame} {p4 : Octets} (hp1 : Keeps s0 (p1)) : Keeps s0 (@State.verdict p1 p2 p3 p4) := by
  unfold State.verdict
  split
  · extract_lets +onlyGivenNames -merge -underBinder x1
    try clear_value x1
    extract_lets +onlyGivenNames -merge -underBinder x2
    try clear_value x2
    extract_lets +onlyGivenNames -merge -underBinder x3
    have h4 : Keeps s0 (x3) := by
      unfold x3
      refine State.setRetain_keeps ?_
      · exact hp1
    clear_value x3
    apply keeps_gen x3 h4
    clear h4
    intro x3 h4
    refine keeps_ite (fun _ => ?_) (fun _ => ?_)
    · extract_lets +onlyGivenNames -merge -underBinder x5
      have h6 : Keeps s0 (x5) := by
        unfold x5
        refine State.count_keeps ?_
        · refine State.count_keeps ?_
          · refine State.count_keeps ?_
            · exact h4
      clear_value x5
      apply keeps_gen x5 h6
      clear h6
      intro x5 h6
      extract_lets +onlyGivenNames -merge -underBinder x7
      have h8 : Keeps s0 (x7) := by
        unfold x7
        refine State.advanceRxPn_keeps ?_
        · refine keeps_ite (fun _ => ?_) (fun _ => ?_)
          · refine State.count_keeps ?_
            · exact h6
          · exact h6
      clear_value x7
      apply keeps_gen x7 h8
      clear h8
      intro x7 h8
      extract_lets +onlyGivenNames -merge -underBinder x9
      have h10 : Keeps s0 (x9) := by
        unfold x9
        refine State.markPn_keeps ?_
        · exact h8
      clear_value x9
      apply keeps_gen x9 h10
      clear h10
      intro x9 h10
      refine State.learnFrom_keeps ?_
      · refine State.toClient_keeps ?_
        · exact h10
    · extract_lets +onlyGivenNames -merge -underBinder x11
      have h12 : Keeps s0 (x11) := by
        unfold x11
        refine State.count_keeps ?_
        · exact h4
      clear_value x11
      apply keeps_gen x11 h12
      clear h12
      intro x11 h12
      refine keeps_ite (fun _ => ?_) (fun _ => ?_)
      · refine State.toClient_keeps ?_
        · refine State.count_keeps ?_
          · exact h12
      · exact h12

theorem execIcvVerdict_keeps {s0 : State} {p1 : Group} {p2 : Machine.State} (hp2 : Keeps s0 (p2)) : KeepsO s0 (@execIcvVerdict p1 p2) := by
  unfold execIcvVerdict
  split
  · split
    · refine keepsO_ite (fun _ => ?_) (fun _ => ?_)
      · refine keepsO_next ?_
        split
        · rename_i h2e
          have h2 : Keeps s0 _ := keeps_of_eq h2e (by
            refine State.passFrame_keeps ?_
            · exact hp2
            )
          refine State.unshelter_keeps ?_
          · refine State.verdict_keeps ?_
            · exact h2
        · rename_i h4e
          have h4 : Keeps s0 _ := keeps_of_eq h4e (by
            refine State.passFrame_keeps ?_
            · exact hp2
            )
          exact h4
      · refine keepsO_next ?_
        exact hp2
    · refine keepsO_next ?_
      exact hp2
  · refine keepsO_next ?_
    exact hp2
  · refine keepsO_next ?_
    refine keeps_ite (fun _ => ?_) (fun _ => ?_)
    · refine State.unshelter_keeps ?_
      · exact hp2
    · exact hp2

theorem execMkaTxSent_keeps {s0 : State} {p1 : Channel} {p2 : Machine.State} (hp2 : Keeps s0 (p2)) : KeepsO s0 (@execMkaTxSent p1 p2) := by
  unfold execMkaTxSent
  split
  · refine keepsO_next ?_
    exact hp2
  · refine keepsO_ite (fun _ => ?_) (fun _ => ?_)
    · refine keepsO_next ?_
      refine State.writeRecord_keeps ?_
      · refine State.emit_keeps ?_
        · refine State.setMkaQueue_keeps ?_
          · exact hp2
    · refine keepsO_next ?_
      exact hp2

theorem State.shelterDrop_keeps {s0 : State} {p1 : Machine.State} {p2 : Nat} {p3 : Nat} {p4 : Octets} (hp1 : Keeps s0 (p1)) : Keeps s0 (@State.shelterDrop p1 p2 p3 p4) := by
  unfold State.shelterDrop
  extract_lets +onlyGivenNames -merge -underBinder x1
  try clear_value x1
  extract_lets +onlyGivenNames -merge -underBinder x2
  try clear_value x2
  extract_lets +onlyGivenNames -merge -underBinder x3
  try clear_value x3
  extract_lets +onlyGivenNames -merge -underBinder x4
  try clear_value x4
  extract_lets +onlyGivenNames -merge -underBinder x5
  try clear_value x5
  refine State.setWgrp_keeps ?_
  · refine State.count_keeps ?_
    · exact hp1

theorem State.shelterFrame_keeps {s0 : State} {p1 : Machine.State} {p2 : Nat} {p3 : Nat} {p4 : Octets} (hp1 : Keeps s0 (p1)) : Keeps s0 (@State.shelterFrame p1 p2 p3 p4) := by
  unfold State.shelterFrame
  refine keeps_ite (fun _ => ?_) (fun _ => ?_)
  · refine State.count_keeps ?_
    · exact keeps_upd hp1 rfl rfl rfl rfl rfl rfl rfl rfl rfl rfl rfl rfl (.inl rfl)
  · refine State.shelterDrop_keeps ?_
    · exact hp1

theorem State.acceptIngress_keeps {s0 : State} {p1 : Machine.State} {p2 : Nat} {p3 : Nat} {p4 : Bool} {p5 : InFrame} (hp1 : Keeps s0 (p1)) : Keeps s0 (@State.acceptIngress p1 p2 p3 p4 p5) := by
  unfold State.acceptIngress
  extract_lets +onlyGivenNames -merge -underBinder x1
  try clear_value x1
  split
  · rename_i h4e
    have h4 : Keeps s0 _ := keeps_of_eq h4e (by
      refine State.readSaKey_keeps ?_
      · exact hp1
      )
    extract_lets +onlyGivenNames -merge -underBinder x5
    try clear_value x5
    extract_lets +onlyGivenNames -merge -underBinder x6
    try clear_value x6
    refine State.setRetain_keeps ?_
    · exact h4
  · rename_i h8e
    have h8 : Keeps s0 _ := keeps_of_eq h8e (by
      refine State.readSaKey_keeps ?_
      · exact hp1
      )
    extract_lets +onlyGivenNames -merge -underBinder x9
    have h10 : Keeps s0 (x9) := by
      unfold x9
      refine State.count_keeps ?_
      · exact h8
    clear_value x9
    apply keeps_gen x9 h10
    clear h10
    intro x9 h10
    extract_lets +onlyGivenNames -merge -underBinder x11
    have h12 : Keeps s0 (x11) := by
      unfold x11
      refine keeps_ite (fun _ => ?_) (fun _ => ?_)
      · exact h10
      · refine State.breach22_keeps ?_
        · exact h10
    clear_value x11
    apply keeps_gen x11 h12
    clear h12
    intro x11 h12
    refine State.setRetain_keeps ?_
    · exact h12

theorem execScDrainEnd_keeps {s0 : State} {p1 : BitVec 16} {p2 : Machine.State} (hp2 : Keeps s0 (p2)) : KeepsO s0 (@execScDrainEnd p1 p2) := by
  unfold execScDrainEnd
  extract_lets +onlyGivenNames -merge -underBinder x1
  try clear_value x1
  refine keepsO_ite (fun _ => ?_) (fun _ => ?_)
  · refine keepsO_next ?_
    refine State.rwr_keeps ?_
    · refine State.rwr_keeps ?_
      · exact hp2
  · refine keepsO_next ?_
    exact hp2

theorem State.secyFault_keeps {s0 : State} {p1 : Machine.State} {p2 : Option (Fin 4 × Nat × Fin 5)} (hp1 : Keeps s0 (p1)) : Keeps s0 (@State.secyFault p1 p2) := by
  unfold State.secyFault
  split
  · exact hp1
  · extract_lets +onlyGivenNames -merge -underBinder x1
    try clear_value x1
    refine keeps_ite (fun _ => ?_) (fun _ => ?_)
    · extract_lets +onlyGivenNames -merge -underBinder x2
      have h3 : Keeps s0 (x2) := by
        unfold x2
        refine State.secyLost_keeps ?_
        · exact hp1
      clear_value x2
      apply keeps_gen x2 h3
      clear h3
      intro x2 h3
      refine keeps_ite (fun _ => ?_) (fun _ => ?_)
      · split
        · rename_i h6e
          have h6 : Keeps s0 _ := keeps_of_eq h6e (by
            refine State.draw_keeps ?_
            · exact h3
            )
          refine State.rwr_keeps ?_
          · exact h6
      · exact h3
    · exact hp1

theorem State.ingress_keeps {s0 : State} {p1 : Machine.State} {p2 : Nat} {p3 : Nat} {p4 : Octets} (hp1 : Keeps s0 (p1)) : Keeps s0 (@State.ingress p1 p2 p3 p4) := by
  unfold State.ingress
  refine keeps_ite (fun _ => ?_) (fun _ => ?_)
  · refine State.count_keeps ?_
    · exact hp1
  · refine keeps_ite (fun _ => ?_) (fun _ => ?_)
    · refine State.shelterFrame_keeps ?_
      · exact hp1
    · refine keeps_ite (fun _ => ?_) (fun _ => ?_)
      · refine State.count_keeps ?_
        · exact hp1
      · refine keeps_ite (fun _ => ?_) (fun _ => ?_)
        · exact hp1
        · refine keeps_ite (fun _ => ?_) (fun _ => ?_)
          · refine State.shelterFrame_keeps ?_
            · exact hp1
          · refine State.rxChecks_keeps ?_
            · exact hp1

theorem execIngressFrameRx_keeps {s0 : State} {p1 : Channel} {p2 : Octets} {p3 : Option (Fin 4 × Nat × Fin 5)} {p4 : List MemFind} {p5 : Machine.State} (hp5 : Keeps s0 (p5)) : KeepsO s0 (@execIngressFrameRx p1 p2 p3 p4 p5) := by
  unfold execIngressFrameRx
  refine keepsO_ite (fun _ => ?_) (fun _ => ?_)
  · refine keepsO_next ?_
    exact hp5
  · refine keepsO_ite (fun _ => ?_) (fun _ => ?_)
    · refine keepsO_next ?_
      refine State.count_keeps ?_
      · exact hp5
    · extract_lets +onlyGivenNames -merge -underBinder x1
      have h2 : Keeps s0 (x1) := by
        unfold x1
        refine State.secyFault_keeps ?_
        · refine State.takeReports_keeps hp5 ?_
          · refine keeps_foldl ?_ (fun a x ha => ?_)
            · exact Keeps.refl _
            · skip
              refine State.memFind_keeps ?_
              · exact ha
      clear_value x1
      apply keeps_gen x1 h2
      clear h2
      intro x1 h2
      refine keepsO_ite (fun _ => ?_) (fun _ => ?_)
      · refine keepsO_next ?_
        refine State.count_keeps ?_
        · exact h2
      · refine keepsO_ite (fun _ => ?_) (fun _ => ?_)
        · exact keepsO_fault
        · refine keepsO_next ?_
          refine State.ingress_keeps ?_
          · exact h2

theorem State.numberFrame_keeps {s0 : State} {p1 : Machine.State} {p2 : Nat} {p3 : Nat} {p4 : Nat} {p5 : QFrame} (hp1 : Keeps s0 (p1)) : Keeps s0 (@State.numberFrame p1 p2 p3 p4 p5) := by
  unfold State.numberFrame
  extract_lets +onlyGivenNames -merge -underBinder x1
  have h2 : Keeps s0 (x1) := by
    unfold x1
    refine State.tryPnSwitch_keeps ?_
    · exact hp1
  clear_value x1
  apply keeps_gen x1 h2
  clear h2
  intro x1 h2
  extract_lets +onlyGivenNames -merge -underBinder x3
  try clear_value x3
  refine keeps_ite (fun _ => ?_) (fun _ => ?_)
  · refine State.releaseCells_keeps ?_
    · refine State.breach21_keeps ?_
      · refine State.count_keeps ?_
        · exact h2
  · split
    · rename_i h6e
      have h6 : Keeps s0 _ := keeps_of_eq h6e (by
        refine State.assignPn_keeps ?_
        · exact h2
        )
      extract_lets +onlyGivenNames -merge -underBinder x7
      have h8 : Keeps s0 (x7) := by
        unfold x7
        refine State.markPn_keeps ?_
        · exact h6
      clear_value x7
      apply keeps_gen x7 h8
      clear h8
      intro x7 h8
      refine State.setRingOf_keeps ?_
      · exact h8

theorem execDequeue_keeps {s0 : State} {p1 : Group} {p2 : Option (Fin 4 × Nat × Fin 5)} {p3 : Option (Fin 5 × Nat × Fin 6)} {p4 : Machine.State} (hp4 : Keeps s0 (p4)) : KeepsO s0 (@execDequeue p1 p2 p3 p4) := by
  unfold execDequeue
  refine keepsO_ite (fun _ => ?_) (fun _ => ?_)
  · refine keepsO_next ?_
    exact hp4
  · extract_lets +onlyGivenNames -merge -underBinder x1
    have h2 : Keeps s0 (x1) := by
      unfold x1
      refine State.secyFault_keeps ?_
      · refine State.basinFault_keeps ?_
        · exact hp4
    clear_value x1
    apply keeps_gen x1 h2
    clear h2
    intro x1 h2
    split
    · refine keepsO_next ?_
      exact h2
    · refine keepsO_ite (fun _ => ?_) (fun _ => ?_)
      · exact keepsO_fault
      · split
        · rename_i h4e
          have h4 : Keeps s0 _ := keeps_of_eq h4e (by
            refine State.takeHead_keeps ?_
            · exact keeps_upd h2 rfl rfl rfl rfl rfl rfl rfl rfl rfl rfl rfl rfl (.inl rfl)
            )
          refine keepsO_next ?_
          exact h4
        · rename_i h7e
          have h7 : Keeps s0 _ := keeps_of_eq h7e (by
            refine State.takeHead_keeps ?_
            · exact keeps_upd h2 rfl rfl rfl rfl rfl rfl rfl rfl rfl rfl rfl rfl (.inl rfl)
            )
          refine keepsO_ite (fun _ => ?_) (fun _ => ?_)
          · exact keepsO_fault
          · refine keepsO_next ?_
            refine State.numberFrame_keeps ?_
            · refine State.chargeMapper_keeps ?_
              · refine State.chargePath_keeps ?_
                · exact h7

theorem execSaDrainEnd_keeps {s0 : State} {p1 : BitVec 18} {p2 : Machine.State} (hp2 : Keeps s0 (p2)) : KeepsO s0 (@execSaDrainEnd p1 p2) := by
  unfold execSaDrainEnd
  extract_lets +onlyGivenNames -merge -underBinder x1
  try clear_value x1
  refine keepsO_ite (fun _ => ?_) (fun _ => ?_)
  · refine keepsO_next ?_
    refine State.rwr_keeps ?_
    · exact keeps_upd hp2 rfl rfl rfl rfl rfl rfl rfl rfl rfl rfl rfl rfl (.inl rfl)
  · refine keepsO_next ?_
    exact hp2

theorem execIvDescriptorAccept_keeps {s0 : State} {p1 : Group} {p2 : Dir} {p3 : Bool} {p4 : Machine.State} (hp4 : Keeps s0 (p4)) : KeepsO s0 (@execIvDescriptorAccept p1 p2 p3 p4) := by
  unfold execIvDescriptorAccept
  refine keepsO_ite (fun _ => ?_) (fun _ => ?_)
  · refine keepsO_next ?_
    exact hp4
  · split
    · split
      · refine keepsO_next ?_
        refine State.acceptEgress_keeps ?_
        · exact hp4
      · refine keepsO_next ?_
        exact hp4
    · split
      · refine keepsO_next ?_
        refine State.acceptIngress_keeps ?_
        · exact hp4
      · refine keepsO_next ?_
        exact hp4
    · refine keepsO_next ?_
      exact hp4

theorem execKeystreamReady_keeps {s0 : State} {p1 : Group} {p2 : Dir} {p3 : Option Channel} {p4 : Machine.State} (hp4 : Keeps s0 (p4)) : KeepsO s0 (@execKeystreamReady p1 p2 p3 p4) := by
  unfold execKeystreamReady
  split
  · refine keepsO_next ?_
    refine keeps_ite (fun _ => ?_) (fun _ => ?_)
    · refine State.l1Ready_keeps ?_
      · exact hp4
    · exact hp4
  · refine keepsO_next ?_
    refine State.setRingOf_keeps ?_
    · exact hp4
  · refine keepsO_next ?_
    refine State.setRetain_keeps ?_
    · exact hp4

end Sys2Proof.Machine
end

