-- ==== Sys2Proof/Laws/KeepsL1.lean ====
section
/-! SUPPORT. What the definitions of Sys2Proof/Machine/L1.lean keep: one lemma each, in the terms of `Keeps`. -/

namespace Sys2Proof.Machine

open Sys2Proof

theorem State.readL1Key_keeps {s0 : State} {p1 : Machine.State} {p2 : Nat} {p3 : Nat} {p4 : Bool} (hp1 : Keeps s0 (p1)) : Keeps s0 (@State.readL1Key p1 p2 p3 p4).2 := by
  unfold State.readL1Key
  refine keepsP_ite (fun _ => ?_) (fun _ => ?_)
  · refine keepsP_mk ?_
    exact hp1
  · refine keepsP_ite (fun _ => ?_) (fun _ => ?_)
    · refine keepsP_mk ?_
      refine State.report_keeps ?_
      · exact hp1
    · refine keepsP_mk ?_
      exact hp1

theorem State.slotKey_keeps {s0 : State} {p1 : Machine.State} {p2 : Nat} {p3 : Nat} {p4 : Bool} (hp1 : Keeps s0 (p1)) : Keeps s0 (@State.slotKey p1 p2 p3 p4).2 := by
  unfold State.slotKey
  split
  · rename_i h3e
    have h3 : Keeps s0 _ := keeps_of_eq h3e (by
      refine State.readL1Key_keeps ?_
      · exact hp1
      )
    refine keepsP_mk ?_
    exact h3

theorem State.issueRx_keeps {s0 : State} {p1 : Machine.State} {p2 : Nat} {p3 : Nat} {p4 : Bool} (hp1 : Keeps s0 (p1)) : Keeps s0 (@State.issueRx p1 p2 p3 p4) := by
  unfold State.issueRx
  extract_lets +onlyGivenNames -merge -underBinder x1
  try clear_value x1
  refine keeps_ite (fun _ => ?_) (fun _ => ?_)
  · exact hp1
  · split
    · rename_i h4e
      have h4 : Keeps s0 _ := keeps_of_eq h4e (by
        refine keepsP_foldl ?_ (fun a x ha => ?_)
        · refine keepsP_mk ?_
          exact hp1
        · skip
          split
          · rename_i h7e
            have h7 : Keeps s0 _ := keeps_of_eq h7e (by
              refine State.slotKey_keeps ?_
              · exact ha
              )
            refine keepsP_mk ?_
            exact h7
        )
      extract_lets +onlyGivenNames -merge -underBinder x8
      try clear_value x8
      extract_lets +onlyGivenNames -merge -underBinder x9
      try clear_value x9
      extract_lets +onlyGivenNames -merge -underBinder x10
      try clear_value x10
      extract_lets +onlyGivenNames -merge -underBinder x11
      try clear_value x11
      refine State.setL1_keeps ?_
      · exact h4

theorem State.rxDescFor_keeps {s0 : State} {p1 : Machine.State} {p2 : Nat} {p3 : Nat} {p4 : Bool} (hp1 : Keeps s0 (p1)) : Keeps s0 (@State.rxDescFor p1 p2 p3 p4) := by
  unfold State.rxDescFor
  refine keeps_ite (fun _ => ?_) (fun _ => ?_)
  · refine State.l1Ready_keeps ?_
    · exact hp1
  · refine State.l1Ready_keeps ?_
    · refine State.issueRx_keeps ?_
      · refine State.dropDesc_keeps ?_
        · exact hp1

theorem State.takeFrag_keeps {s0 : State} {p1 : Machine.State} {p2 : Nat} {p3 : Nat} {p4 : Option Octets} (hp1 : Keeps s0 (p1)) : Keeps s0 (@State.takeFrag p1 p2 p3 p4) := by
  unfold State.takeFrag
  extract_lets +onlyGivenNames -merge -underBinder x1
  try clear_value x1
  extract_lets +onlyGivenNames -merge -underBinder x2
  try clear_value x2
  refine keeps_ite (fun _ => ?_) (fun _ => ?_)
  · exact hp1
  · extract_lets +onlyGivenNames -merge -underBinder x3
    try clear_value x3
    extract_lets +onlyGivenNames -merge -underBinder x4
    try clear_value x4
    extract_lets +onlyGivenNames -merge -underBinder x5
    try clear_value x5
    extract_lets +onlyGivenNames -merge -underBinder x6
    try clear_value x6
    refine State.setL1_keeps ?_
    · exact hp1

theorem State.passRx_keeps {s0 : State} {p1 : Machine.State} {p2 : Nat} {p3 : RxFrame} (hp1 : Keeps s0 (p1)) : Keeps s0 (@State.passRx p1 p2 p3) := by
  unfold State.passRx
  refine keeps_foldl ?_ (fun a x ha => ?_)
  · exact hp1
  · skip
    refine keeps_ite (fun _ => ?_) (fun _ => ?_)
    · exact ha
    · refine State.passLanes_keeps ?_
      · exact ha

theorem State.askVerdict_keeps {s0 : State} {p1 : Machine.State} {p2 : Nat} {p3 : Option Octets} (hp1 : Keeps s0 (p1)) : Keeps s0 (@State.askVerdict p1 p2 p3) := by
  unfold State.askVerdict
  split
  · exact hp1
  · extract_lets +onlyGivenNames -merge -underBinder x1
    have h2 : Keeps s0 (x1) := by
      unfold x1
      refine State.passRx_keeps ?_
      · exact hp1
    clear_value x1
    apply keeps_gen x1 h2
    clear h2
    intro x1 h2
    refine State.setL1_keeps ?_
    · exact h2

theorem State.lf_keeps {s0 : State} {p1 : Machine.State} {p2 : Nat} (hp1 : Keeps s0 (p1)) : Keeps s0 (@State.lf p1 p2) := by
  unfold State.lf
  refine State.emit_keeps ?_
  · exact hp1

theorem State.quarFrame_keeps {s0 : State} {p1 : Machine.State} {p2 : Nat} {p3 : Nat} (hp1 : Keeps s0 (p1)) : Keeps s0 (@State.quarFrame p1 p2 p3) := by
  unfold State.quarFrame
  refine State.count_keeps ?_
  · refine State.setL1_keeps ?_
    · exact hp1

theorem State.replaced_keeps {s0 : State} {p1 : Machine.State} {p2 : Nat} {p3 : Nat} (hp1 : Keeps s0 (p1)) : Keeps s0 (@State.replaced p1 p2 p3) := by
  unfold State.replaced
  refine keeps_ite (fun _ => ?_) (fun _ => ?_)
  · refine State.lf_keeps ?_
    · refine State.quarFrame_keeps ?_
      · exact hp1
  · refine State.lf_keeps ?_
    · exact hp1

theorem State.notDecrypted_keeps {s0 : State} {p1 : Machine.State} {p2 : Nat} {p3 : Nat} {p4 : Option Octets} (hp1 : Keeps s0 (p1)) : Keeps s0 (@State.notDecrypted p1 p2 p3 p4) := by
  unfold State.notDecrypted
  extract_lets +onlyGivenNames -merge -underBinder x1
  have h2 : Keeps s0 (x1) := by
    unfold x1
    refine State.dropDesc_keeps ?_
    · refine State.askVerdict_keeps ?_
      · exact hp1
  clear_value x1
  apply keeps_gen x1 h2
  clear h2
  intro x1 h2
  refine State.replaced_keeps ?_
  · refine State.setL1_keeps ?_
    · exact h2

theorem State.blankRx_keeps {s0 : State} {p1 : Machine.State} {p2 : Nat} {p3 : Bool} (hp1 : Keeps s0 (p1)) : Keeps s0 (@State.blankRx p1 p2 p3) := by
  unfold State.blankRx
  extract_lets +onlyGivenNames -merge -underBinder x1
  try clear_value x1
  extract_lets +onlyGivenNames -merge -underBinder x2
  have h3 : Keeps s0 (x2) := by
    unfold x2
    refine State.rxDescFor_keeps ?_
    · refine State.takeFrag_keeps ?_
      · refine State.rwr_keeps ?_
        · exact hp1
  clear_value x2
  apply keeps_gen x2 h3
  clear h3
  intro x2 h3
  extract_lets +onlyGivenNames -merge -underBinder x4
  try clear_value x4
  extract_lets +onlyGivenNames -merge -underBinder x5
  have h6 : Keeps s0 (x5) := by
    unfold x5
    refine keeps_ite (fun _ => ?_) (fun _ => ?_)
    · refine State.setL1_keeps ?_
      · exact h3
    · exact h3
  clear_value x5
  apply keeps_gen x5 h6
  clear h6
  intro x5 h6
  extract_lets +onlyGivenNames -merge -underBinder y8 x7
  try clear_value y8
  have h9 : Keeps s0 (x7) := by
    unfold x7
    refine keeps_ite (fun _ => ?_) (fun _ => ?_)
    · refine State.setL1_keeps ?_
      · exact h6
    · exact h6
  clear_value x7
  apply keeps_gen x7 h9
  clear h9
  intro x7 h9
  refine State.notDecrypted_keeps ?_
  · exact h9

theorem State.passTx_keeps {s0 : State} {p1 : Machine.State} {p2 : Nat} {p3 : TxFrame} (hp1 : Keeps s0 (p1)) : Keeps s0 (@State.passTx p1 p2 p3) := by
  unfold State.passTx
  refine keeps_foldl ?_ (fun a x ha => ?_)
  · exact hp1
  · skip
    refine keeps_ite (fun _ => ?_) (fun _ => ?_)
    · exact ha
    · refine State.passFrame_keeps ?_
      · exact ha

theorem State.joinEntry_keeps {s0 : State} {p1 : Machine.State} {p2 : Nat} {p3 : Nat} {p4 : Option MfAcc} (hp1 : Keeps s0 (p1)) : Keeps s0 (@State.joinEntry p1 p2 p3 p4) := by
  unfold State.joinEntry
  extract_lets +onlyGivenNames -merge -underBinder x1
  try clear_value x1
  refine keeps_ite (fun _ => ?_) (fun _ => ?_)
  · refine State.setWgrp_keeps ?_
    · exact hp1
  · exact hp1

theorem State.gapFrame_keeps {s0 : State} {p1 : Machine.State} {p2 : Nat} {p3 : Nat} (hp1 : Keeps s0 (p1)) : Keeps s0 (@State.gapFrame p1 p2 p3) := by
  unfold State.gapFrame
  extract_lets +onlyGivenNames -merge -underBinder x1
  try clear_value x1
  extract_lets +onlyGivenNames -merge -underBinder x2
  have h3 : Keeps s0 (x2) := by
    unfold x2
    refine keeps_ite (fun _ => ?_) (fun _ => ?_)
    · exact hp1
    · refine State.setL1_keeps ?_
      · refine State.rwr_keeps ?_
        · exact hp1
  clear_value x2
  apply keeps_gen x2 h3
  clear h3
  intro x2 h3
  refine State.count_keeps ?_
  · refine State.rwr_keeps ?_
    · exact h3

theorem State.frameLeft_keeps {s0 : State} {p1 : Machine.State} {p2 : Nat} {p3 : TxFrame} (hp1 : Keeps s0 (p1)) : Keeps s0 (@State.frameLeft p1 p2 p3) := by
  unfold State.frameLeft
  extract_lets +onlyGivenNames -merge -underBinder x1
  try clear_value x1
  extract_lets +onlyGivenNames -merge -underBinder x2
  try clear_value x2
  extract_lets +onlyGivenNames -merge -underBinder x3
  try clear_value x3
  extract_lets +onlyGivenNames -merge -underBinder x4
  try clear_value x4
  extract_lets +onlyGivenNames -merge -underBinder x5
  try clear_value x5
  split
  · extract_lets +onlyGivenNames -merge -underBinder x6
    try clear_value x6
    extract_lets +onlyGivenNames -merge -underBinder x7
    try clear_value x7
    refine State.joinEntry_keeps ?_
    · refine State.count_keeps ?_
      · refine State.emit_keeps ?_
        · refine State.setL1_keeps ?_
          · exact hp1
  · extract_lets +onlyGivenNames -merge -underBinder x8
    try clear_value x8
    extract_lets +onlyGivenNames -merge -underBinder x9
    have h10 : Keeps s0 (x9) := by
      unfold x9
      refine State.joinEntry_keeps ?_
      · refine State.setL1_keeps ?_
        · exact hp1
    clear_value x9
    apply keeps_gen x9 h10
    clear h10
    intro x9 h10
    split
    · refine keeps_ite (fun _ => ?_) (fun _ => ?_)
      · refine State.gapFrame_keeps ?_
        · refine State.emit_keeps ?_
          · exact h10
      · refine State.emit_keeps ?_
        · exact h10
    · refine State.emit_keeps ?_
      · exact h10
    · extract_lets +onlyGivenNames -merge -underBinder x11
      try clear_value x11
      extract_lets +onlyGivenNames -merge -underBinder x12
      have h13 : Keeps s0 (x12) := by
        unfold x12
        refine State.emit_keeps ?_
        · exact h10
      clear_value x12
      apply keeps_gen x12 h13
      clear h13
      intro x12 h13
      refine keeps_ite (fun _ => ?_) (fun _ => ?_)
      · refine State.count_keeps ?_
        · exact h13
      · refine State.gapFrame_keeps ?_
        · exact h13

theorem State.finishTx_keeps {s0 : State} {p1 : Machine.State} {p2 : Nat} (hp1 : Keeps s0 (p1)) : Keeps s0 (@State.finishTx p1 p2) := by
  unfold State.finishTx
  split
  · exact hp1
  · extract_lets +onlyGivenNames -merge -underBinder x1
    have h2 : Keeps s0 (x1) := by
      unfold x1
      refine keeps_ite (fun _ => ?_) (fun _ => ?_)
      · refine State.passTx_keeps ?_
        · exact hp1
      · exact hp1
    clear_value x1
    apply keeps_gen x1 h2
    clear h2
    intro x1 h2
    split
    · exact h2
    · refine State.frameLeft_keeps ?_
      · exact h2

theorem State.unlock_keeps {s0 : State} {p1 : Machine.State} {p2 : Nat} (hp1 : Keeps s0 (p1)) : Keeps s0 (@State.unlock p1 p2) := by
  unfold State.unlock
  extract_lets +onlyGivenNames -merge -underBinder x1
  try clear_value x1
  extract_lets +onlyGivenNames -merge -underBinder x2
  have h3 : Keeps s0 (x2) := by
    unfold x2
    refine State.dropDesc_keeps ?_
    · refine State.count_keeps ?_
      · exact hp1
  clear_value x2
  apply keeps_gen x2 h3
  clear h3
  intro x2 h3
  refine State.setL1_keeps ?_
  · refine State.rwr_keeps ?_
    · exact h3

theorem State.cooposWrite_keeps {s0 : State} {p1 : Machine.State} {p2 : Nat} {p3 : Word} (hp1 : Keeps s0 (p1)) : Keeps s0 (@State.cooposWrite p1 p2 p3) := by
  unfold State.cooposWrite
  refine keeps_ite (fun _ => ?_) (fun _ => ?_)
  · refine State.mark_keeps ?_
    · exact hp1
  · refine State.plainWrite_keeps ?_
    · exact hp1

theorem State.l1ctlWrite_keeps {s0 : State} {p1 : Machine.State} {p2 : Nat} {p3 : Word} (hp1 : Keeps s0 (p1)) : Keeps s0 (@State.l1ctlWrite p1 p2 p3) := by
  unfold State.l1ctlWrite
  refine keeps_ite (fun _ => ?_) (fun _ => ?_)
  · refine State.mark_keeps ?_
    · exact hp1
  · refine State.plainWrite_keeps ?_
    · exact hp1

theorem State.l1holdWrite_keeps {s0 : State} {p1 : Machine.State} {p2 : Nat} {p3 : Word} (hp1 : Keeps s0 (p1)) : Keeps s0 (@State.l1holdWrite p1 p2 p3) := by
  unfold State.l1holdWrite
  refine keeps_ite (fun _ => ?_) (fun _ => ?_)
  · refine State.mark_keeps ?_
    · exact hp1
  · refine State.plainWrite_keeps ?_
    · exact hp1

theorem State.l1Command_keeps {s0 : State} {p1 : Machine.State} {p2 : Nat} {p3 : Nat} {p4 : Nat} {p5 : Machine.State → Host.Outcome Machine.State Fault Refusal} (hp1 : Keeps s0 (p1)) (hp5 : ∀ q0, Keeps s0 (q0) → KeepsO s0 (p5 q0)) : KeepsO s0 (@State.l1Command p1 p2 p3 p4 p5) := by
  unfold State.l1Command
  refine keepsO_ite (fun _ => ?_) (fun _ => ?_)
  · refine keepsO_next ?_
    refine State.mark_keeps ?_
    · exact hp1
  · refine hp5 _ ?_
    · refine State.mark_keeps ?_
      · refine State.wr_keeps ?_
        · refine State.wr_keeps ?_
          · exact hp1

theorem State.l1Done_keeps {s0 : State} {p1 : Machine.State} {p2 : Nat} {p3 : Nat} (hp1 : Keeps s0 (p1)) : Keeps s0 (@State.l1Done p1 p2 p3) := by
  unfold State.l1Done
  refine State.unmark_keeps ?_
  · refine State.wr_keeps ?_
    · exact hp1

theorem execL1Read_keeps {s0 : State} {p1 : Group} {p2 : Byte} {p3 : Machine.State} (hp3 : Keeps s0 (p3)) : KeepsO s0 (@execL1Read p1 p2 p3) := by
  unfold execL1Read
  refine State.l1Command_keeps ?_ ?_
  · exact hp3
  · intro q1 hq1
    refine keepsO_ite (fun _ => ?_) (fun _ => ?_)
    · refine keepsO_next ?_
      refine State.l1Done_keeps ?_
      · exact hq1
    · extract_lets +onlyGivenNames -merge -underBinder x2
      try clear_value x2
      refine keepsO_next ?_
      refine State.l1Done_keeps ?_
      · refine keeps_foldl ?_ (fun a x ha => ?_)
        · exact hq1
        · skip
          refine State.setReg_keeps ?_
          · exact ha

theorem State.l1Store_keeps {s0 : State} {p1 : Machine.State} {p2 : Nat} {p3 : List Word} (hp1 : Keeps s0 (p1)) : Keeps s0 (@State.l1Store p1 p2 p3) := by
  unfold State.l1Store
  extract_lets +onlyGivenNames -merge -underBinder x1
  try clear_value x1
  extract_lets +onlyGivenNames -merge -underBinder x2
  have h3 : Keeps s0 (x2) := by
    unfold x2
    refine State.rwr_keeps ?_
    · refine State.rwr_keeps ?_
      · refine State.rwr_keeps ?_
        · exact hp1
  clear_value x2
  apply keeps_gen x2 h3
  clear h3
  intro x2 h3
  extract_lets +onlyGivenNames -merge -underBinder x4
  have h5 : Keeps s0 (x4) := by
    unfold x4
    refine keeps_ite (fun _ => ?_) (fun _ => ?_)
    · refine State.rwr_keeps ?_
      · exact h3
    · exact h3
  clear_value x4
  apply keeps_gen x4 h5
  clear h5
  intro x4 h5
  extract_lets +onlyGivenNames -merge -underBinder x6
  have h7 : Keeps s0 (x6) := by
    unfold x6
    refine keeps_ite (fun _ => ?_) (fun _ => ?_)
    · refine State.rwr_keeps ?_
      · exact h5
    · exact h5
  clear_value x6
  apply keeps_gen x6 h7
  clear h7
  intro x6 h7
  refine keeps_ite (fun _ => ?_) (fun _ => ?_)
  · refine keeps_ite (fun _ => ?_) (fun _ => ?_)
    · exact h7
    · refine State.setL1_keeps ?_
      · refine State.rwr_keeps ?_
        · exact h7
  · refine keeps_ite (fun _ => ?_) (fun _ => ?_)
    · refine State.rwr_keeps ?_
      · exact h7
    · exact h7

theorem execL1Write_keeps {s0 : State} {p1 : Group} {p2 : Byte} {p3 : Machine.State} (hp3 : Keeps s0 (p3)) : KeepsO s0 (@execL1Write p1 p2 p3) := by
  unfold execL1Write
  refine State.l1Command_keeps ?_ ?_
  · exact hp3
  · intro q1 hq1
    extract_lets +onlyGivenNames -merge -underBinder x2
    try clear_value x2
    extract_lets +onlyGivenNames -merge -underBinder x3
    try clear_value x3
    refine keepsO_ite (fun _ => ?_) (fun _ => ?_)
    · refine keepsO_next ?_
      refine State.l1Done_keeps ?_
      · exact hq1
    · refine keepsO_ite (fun _ => ?_) (fun _ => ?_)
      · exact keepsO_fault
      · refine keepsO_ite (fun _ => ?_) (fun _ => ?_)
        · refine keepsO_next ?_
          refine State.l1Done_keeps ?_
          · exact hq1
        · refine keepsO_ite (fun _ => ?_) (fun _ => ?_)
          · exact keepsO_fault
          · refine keepsO_next ?_
            refine State.l1Done_keeps ?_
            · refine State.l1Store_keeps ?_
              · exact hq1

theorem State.l1Switch_keeps {s0 : State} {p1 : Machine.State} {p2 : Nat} (hp1 : Keeps s0 (p1)) : Keeps s0 (@State.l1Switch p1 p2) := by
  unfold State.l1Switch
  extract_lets +onlyGivenNames -merge -underBinder x1
  try clear_value x1
  refine State.rwr_keeps ?_
  · refine State.rwr_keeps ?_
    · refine State.rwr_keeps ?_
      · exact hp1

theorem execL1Switch_keeps {s0 : State} {p1 : Group} {p2 : Byte} {p3 : Machine.State} (hp3 : Keeps s0 (p3)) : KeepsO s0 (@execL1Switch p1 p2 p3) := by
  unfold execL1Switch
  refine State.l1Command_keeps ?_ ?_
  · exact hp3
  · intro q1 hq1
    extract_lets +onlyGivenNames -merge -underBinder x2
    try clear_value x2
    extract_lets +onlyGivenNames -merge -underBinder x3
    try clear_value x3
    refine keepsO_ite (fun _ => ?_) (fun _ => ?_)
    · refine keepsO_next ?_
      refine State.l1Done_keeps ?_
      · exact hq1
    · refine keepsO_ite (fun _ => ?_) (fun _ => ?_)
      · refine keepsO_next ?_
        refine State.l1Done_keeps ?_
        · exact hq1
      · refine keepsO_ite (fun _ => ?_) (fun _ => ?_)
        · refine keepsO_next ?_
          refine State.l1Done_keeps ?_
          · exact hq1
        · extract_lets +onlyGivenNames -merge -underBinder x4
          have h5 : Keeps s0 (x4) := by
            unfold x4
            refine State.l1Done_keeps ?_
            · refine State.rwr_keeps ?_
              · refine State.rwr_keeps ?_
                · exact hq1
          clear_value x4
          apply keeps_gen x4 h5
          clear h5
          intro x4 h5
          refine keepsO_ite (fun _ => ?_) (fun _ => ?_)
          · refine keepsO_next ?_
            refine State.mark_keeps ?_
            · refine State.l1Switch_keeps ?_
              · exact h5
          · refine keepsO_next ?_
            exact h5

theorem execL1Retire_keeps {s0 : State} {p1 : Group} {p2 : Byte} {p3 : Machine.State} (hp3 : Keeps s0 (p3)) : KeepsO s0 (@execL1Retire p1 p2 p3) := by
  unfold execL1Retire
  refine State.l1Command_keeps ?_ ?_
  · exact hp3
  · intro q1 hq1
    extract_lets +onlyGivenNames -merge -underBinder x2
    try clear_value x2
    refine keepsO_ite (fun _ => ?_) (fun _ => ?_)
    · refine keepsO_next ?_
      refine State.l1Done_keeps ?_
      · exact hq1
    · refine keepsO_ite (fun _ => ?_) (fun _ => ?_)
      · refine keepsO_next ?_
        refine State.l1Done_keeps ?_
        · exact hq1
      · split
        · refine keepsO_next ?_
          refine State.l1Done_keeps ?_
          · exact hq1
        · refine keepsO_next ?_
          refine State.l1Done_keeps ?_
          · refine State.setL1_keeps ?_
            · refine State.rwr_keeps ?_
              · exact hq1

theorem execQclr_keeps {s0 : State} {p1 : Group} {p2 : Byte} {p3 : Machine.State} (hp3 : Keeps s0 (p3)) : KeepsO s0 (@execQclr p1 p2 p3) := by
  unfold execQclr
  refine State.l1Command_keeps ?_ ?_
  · exact hp3
  · intro q1 hq1
    extract_lets +onlyGivenNames -merge -underBinder x2
    try clear_value x2
    refine keepsO_ite (fun _ => ?_) (fun _ => ?_)
    · refine keepsO_next ?_
      refine State.l1Done_keeps ?_
      · exact hq1
    · refine keepsO_next ?_
      refine State.l1Done_keeps ?_
      · refine keeps_ite (fun _ => ?_) (fun _ => ?_)
        · refine State.setL1_keeps ?_
          · exact hq1
        · exact hq1

theorem execL1CmdInvalid_keeps {s0 : State} {p1 : Group} {p2 : Fin 3} {p3 : Byte} {p4 : Machine.State} (hp4 : Keeps s0 (p4)) : KeepsO s0 (@execL1CmdInvalid p1 p2 p3 p4) := by
  unfold execL1CmdInvalid
  refine State.l1Command_keeps ?_ ?_
  · exact hp4
  · intro q1 hq1
    refine keepsO_next ?_
    refine State.l1Done_keeps ?_
    · exact hq1

theorem State.l1CmdWrite_keeps {s0 : State} {p1 : Machine.State} {p2 : Group} {p3 : Word} (hp1 : Keeps s0 (p1)) : KeepsO s0 (@State.l1CmdWrite p1 p2 p3) := by
  unfold State.l1CmdWrite
  extract_lets +onlyGivenNames -merge -underBinder x1
  try clear_value x1
  split
  · refine execL1Read_keeps ?_
    · exact hp1
  · refine execL1Write_keeps ?_
    · exact hp1
  · refine execL1Switch_keeps ?_
    · exact hp1
  · refine execL1Retire_keeps ?_
    · exact hp1
  · refine execQclr_keeps ?_
    · exact hp1
  · refine execL1CmdInvalid_keeps ?_
    · exact hp1

theorem State.untrustWrite_keeps {s0 : State} {p1 : Machine.State} {p2 : Nat} {p3 : Nat} {p4 : Word} (hp1 : Keeps s0 (p1)) : Keeps s0 (@State.untrustWrite p1 p2 p3 p4) := by
  unfold State.untrustWrite
  refine keeps_foldl ?_ (fun a x ha => ?_)
  · exact hp1
  · skip
    refine keeps_ite (fun _ => ?_) (fun _ => ?_)
    · refine State.rwr_keeps ?_
      · exact ha
    · exact ha

theorem State.ethEnd_keeps {s0 : State} {p1 : Machine.State} {p2 : Nat} {p3 : EthPart} (hp1 : Keeps s0 (p1)) : Keeps s0 (@State.ethEnd p1 p2 p3) := by
  unfold State.ethEnd
  extract_lets +onlyGivenNames -merge -underBinder x1
  try clear_value x1
  refine keeps_ite (fun _ => ?_) (fun _ => ?_)
  · exact hp1
  · refine State.emit_keeps ?_
    · exact hp1

theorem State.ethStomp_keeps {s0 : State} {p1 : Machine.State} {p2 : Nat} {p3 : EthPart} (hp1 : Keeps s0 (p1)) : Keeps s0 (@State.ethStomp p1 p2 p3) := by
  unfold State.ethStomp
  refine State.emit_keeps ?_
  · exact hp1

theorem State.ethFailed_keeps {s0 : State} {p1 : Machine.State} {p2 : Nat} {p3 : Nat} {p4 : List EthPart} {p5 : Bool} (hp1 : Keeps s0 (p1)) : Keeps s0 (@State.ethFailed p1 p2 p3 p4 p5) := by
  unfold State.ethFailed
  extract_lets +onlyGivenNames -merge -underBinder x1
  have h2 : Keeps s0 (x1) := by
    unfold x1
    refine State.count_keeps ?_
    · refine State.count_keeps ?_
      · exact hp1
  clear_value x1
  apply keeps_gen x1 h2
  clear h2
  intro x1 h2
  refine keeps_foldl ?_ (fun a x ha => ?_)
  · exact h2
  · skip
    refine keeps_ite (fun _ => ?_) (fun _ => ?_)
    · refine State.ethEnd_keeps ?_
      · exact ha
    · refine State.ethStomp_keeps ?_
      · exact ha

theorem State.finishLeaving_keeps {s0 : State} {p1 : Machine.State} {p2 : Nat} (hp1 : Keeps s0 (p1)) : Keeps s0 (@State.finishLeaving p1 p2) := by
  unfold State.finishLeaving
  extract_lets +onlyGivenNames -merge -underBinder x1
  try clear_value x1
  split
  · exact hp1
  · extract_lets +onlyGivenNames -merge -underBinder x2
    try clear_value x2
    extract_lets +onlyGivenNames -merge -underBinder x3
    have h4 : Keeps s0 (x3) := by
      unfold x3
      refine State.setL1_keeps ?_
      · exact hp1
    clear_value x3
    apply keeps_gen x3 h4
    clear h4
    intro x3 h4
    extract_lets +onlyGivenNames -merge -underBinder x5
    have h6 : Keeps s0 (x5) := by
      unfold x5
      refine keeps_ite (fun _ => ?_) (fun _ => ?_)
      · refine State.lf_keeps ?_
        · exact h4
      · exact h4
    clear_value x5
    apply keeps_gen x5 h6
    clear h6
    intro x5 h6
    extract_lets +onlyGivenNames -merge -underBinder x7
    have h8 : Keeps s0 (x7) := by
      unfold x7
      refine keeps_ite (fun _ => ?_) (fun _ => ?_)
      · exact h6
      · refine State.emit_keeps ?_
        · exact h6
    clear_value x7
    apply keeps_gen x7 h8
    clear h8
    intro x7 h8
    refine keeps_ite (fun _ => ?_) (fun _ => ?_)
    · refine State.lf_keeps ?_
      · exact h8
    · exact h8

theorem State.issueTx_keeps {s0 : State} {p1 : Machine.State} {p2 : Nat} {p3 : Nat} {p4 : Bool} (hp1 : Keeps s0 (p1)) : Keeps s0 (@State.issueTx p1 p2 p3 p4) := by
  unfold State.issueTx
  extract_lets +onlyGivenNames -merge -underBinder x1
  try clear_value x1
  split
  · rename_i h4e
    have h4 : Keeps s0 _ := keeps_of_eq h4e (by
      refine State.slotKey_keeps ?_
      · exact hp1
      )
    extract_lets +onlyGivenNames -merge -underBinder x5
    try clear_value x5
    extract_lets +onlyGivenNames -merge -underBinder x6
    have h7 : Keeps s0 (x6) := by
      unfold x6
      refine keeps_ite (fun _ => ?_) (fun _ => ?_)
      · refine State.takeUse_keeps ?_
        · exact h4
      · exact h4
    clear_value x6
    apply keeps_gen x6 h7
    clear h7
    intro x6 h7
    extract_lets +onlyGivenNames -merge -underBinder x8
    try clear_value x8
    extract_lets +onlyGivenNames -merge -underBinder x9
    try clear_value x9
    extract_lets +onlyGivenNames -merge -underBinder x10
    try clear_value x10
    refine State.setL1_keeps ?_
    · exact h7

theorem State.chDefect_keeps {s0 : State} {p1 : Machine.State} {p2 : Nat} {p3 : Nat} {p4 : Bool} (hp1 : Keeps s0 (p1)) : Keeps s0 (@State.chDefect p1 p2 p3 p4) := by
  unfold State.chDefect
  extract_lets +onlyGivenNames -merge -underBinder x1
  try clear_value x1
  extract_lets +onlyGivenNames -merge -underBinder x2
  try clear_value x2
  extract_lets +onlyGivenNames -merge -underBinder x3
  try clear_value x3
  extract_lets +onlyGivenNames -merge -underBinder x4
  try clear_value x4
  refine State.setReg_keeps ?_
  · exact hp1

theorem State.holdRead_keeps {s0 s : State} {sec : Nat} {l : List Nat} (h : Keeps s0 s) :
    Keeps s0 (s.holdRead sec l).2 := by
  induction l generalizing s sec with
  | nil => exact h
  | cons n t ih =>
    unfold State.holdRead
    have h1 : Keeps s0 (s.culRead { req := 7, gen := none } sec 0 n).2 := State.culRead_keeps h
    split
    · rename_i e; exact keeps_of_eq e h1
    · rename_i o s1 e
      have h3 : Keeps s0 (s1.holdRead (sec + 1) t).2 := ih (keeps_of_eq e h1)
      split <;> rename_i e2 <;> exact keeps_of_eq e2 h3

theorem State.release_keeps {s0 : State} {p1 : Machine.State} {p2 : Nat} {p3 : Nat} {p4 : Octets} {p5 : Trust} (hp1 : Keeps s0 (p1)) : Keeps s0 (@State.release p1 p2 p3 p4 p5) := by
  unfold State.release
  extract_lets +onlyGivenNames -merge -underBinder x1
  have h2 : Keeps s0 (x1) := by
    unfold x1
    refine State.finishLeaving_keeps ?_
    · exact hp1
  clear_value x1
  apply keeps_gen x1 h2
  clear h2
  intro x1 h2
  extract_lets +onlyGivenNames -merge -underBinder x3
  try clear_value x3
  extract_lets +onlyGivenNames -merge -underBinder x4
  have h5 : Keeps s0 (x4) := by
    unfold x4
    refine keeps_ite (fun _ => ?_) (fun _ => ?_)
    · refine State.quarFrame_keeps ?_
      · exact h2
    · exact h2
  clear_value x4
  apply keeps_gen x4 h5
  clear h5
  intro x4 h5
  refine State.setL1_keeps ?_
  · exact h5

theorem State.shortPass_keeps {s0 : State} {p1 : Machine.State} {p2 : Nat} {p3 : RxFrame} (hp1 : Keeps s0 (p1)) : Keeps s0 (@State.shortPass p1 p2 p3) := by
  unfold State.shortPass
  extract_lets +onlyGivenNames -merge -underBinder x1
  try clear_value x1
  extract_lets +onlyGivenNames -merge -underBinder x2
  try clear_value x2
  extract_lets +onlyGivenNames -merge -underBinder x3
  try clear_value x3
  extract_lets +onlyGivenNames -merge -underBinder x4
  have h5 : Keeps s0 (x4) := by
    unfold x4
    refine State.setL1_keeps ?_
    · exact hp1
  clear_value x4
  apply keeps_gen x4 h5
  clear h5
  intro x4 h5
  refine keeps_ite (fun _ => ?_) (fun _ => ?_)
  · refine State.emit_keeps ?_
    · exact h5
  · split
    · rename_i h8e
      have h8 : Keeps s0 _ := keeps_of_eq h8e (by
        refine keepsP_ite (fun _ => ?_) (fun _ => ?_)
        · refine State.holdRead_keeps ?_
          · exact h5
        · refine keepsP_mk ?_
          exact h5
        )
      split
      · refine State.release_keeps ?_
        · exact h8
      · refine State.replaced_keeps ?_
        · refine State.count_keeps ?_
          · exact h8

theorem State.tryL1Switch_keeps {s0 : State} {p1 : Machine.State} {p2 : Nat} (hp1 : Keeps s0 (p1)) : Keeps s0 (@State.tryL1Switch p1 p2) := by
  unfold State.tryL1Switch
  refine keeps_ite (fun _ => ?_) (fun _ => ?_)
  · refine keeps_ite (fun _ => ?_) (fun _ => ?_)
    · refine State.l1Switch_keeps ?_
      · exact hp1
    · refine State.count_keeps ?_
      · refine State.rwr_keeps ?_
        · exact hp1
  · exact hp1

theorem State.chooseSlot_keeps {s0 s : State} {c nib : Nat} (h : Keeps s0 s) : Keeps s0 (s.chooseSlot c nib) := by
  unfold State.chooseSlot
  extract_lets x held fit drop s1
  have h1 : Keeps s0 s1 := State.discardKs_keeps h
  clear_value s1
  clear drop
  clear_value fit
  split
  · exact State.rwr_keeps (State.setL1_keeps h1)
  · exact State.setL1_keeps h1

theorem State.quarantine_keeps {s0 : State} {p1 : Machine.State} {p2 : Nat} {p3 : Nat} (hp1 : Keeps s0 (p1)) : Keeps s0 (@State.quarantine p1 p2 p3) := by
  unfold State.quarantine
  extract_lets +onlyGivenNames -merge -underBinder x1
  try clear_value x1
  refine keeps_ite (fun _ => ?_) (fun _ => ?_)
  · refine State.setL1_keeps ?_
    · exact hp1
  · extract_lets +onlyGivenNames -merge -underBinder x2
    try clear_value x2
    extract_lets +onlyGivenNames -merge -underBinder x3
    try clear_value x3
    extract_lets +onlyGivenNames -merge -underBinder x4
    have h5 : Keeps s0 (x4) := by
      unfold x4
      refine State.rwr_keeps ?_
      · exact hp1
    clear_value x4
    apply keeps_gen x4 h5
    clear h5
    intro x4 h5
    split
    · refine State.quarFrame_keeps ?_
      · refine State.setL1_keeps ?_
        · exact h5
    · refine State.setL1_keeps ?_
      · exact h5

theorem State.untrusted_keeps {s0 : State} {p1 : Machine.State} {p2 : Nat} {p3 : Nat} {p4 : Nat} (hp1 : Keeps s0 (p1)) : Keeps s0 (@State.untrusted p1 p2 p3 p4) := by
  unfold State.untrusted
  extract_lets +onlyGivenNames -merge -underBinder x1
  have h2 : Keeps s0 (x1) := by
    unfold x1
    refine State.raiseEvent_keeps ?_
    · refine State.rwr_keeps ?_
      · exact hp1
  clear_value x1
  apply keeps_gen x1 h2
  clear h2
  intro x1 h2
  refine keeps_ite (fun _ => ?_) (fun _ => ?_)
  · refine State.quarantine_keeps ?_
    · exact h2
  · exact h2

theorem State.shortFail_keeps {s0 : State} {p1 : Machine.State} {p2 : Nat} {p3 : RxFrame} {p4 : Nat} {p5 : List EthPart} (hp1 : Keeps s0 (p1)) : Keeps s0 (@State.shortFail p1 p2 p3 p4 p5) := by
  unfold State.shortFail
  extract_lets +onlyGivenNames -merge -underBinder y2 x1
  try clear_value y2
  have h3 : Keeps s0 (x1) := by
    unfold x1
    refine State.count_keeps ?_
    · refine State.setL1_keeps ?_
      · exact hp1
  clear_value x1
  apply keeps_gen x1 h3
  clear h3
  intro x1 h3
  refine keeps_ite (fun _ => ?_) (fun _ => ?_)
  · refine State.replaced_keeps ?_
    · refine keeps_foldl ?_ (fun a x ha => ?_)
      · refine State.count_keeps ?_
        · exact h3
      · skip
        refine keeps_ite (fun _ => ?_) (fun _ => ?_)
        · refine State.ethStomp_keeps ?_
          · exact ha
        · refine State.ethEnd_keeps ?_
          · exact ha
  · refine State.untrusted_keeps ?_
    · refine State.ethFailed_keeps ?_
      · exact h3

theorem State.rxMiss_keeps {s0 : State} {p1 : Machine.State} {p2 : Nat} {p3 : Nat} {p4 : Option Octets} (hp1 : Keeps s0 (p1)) : Keeps s0 (@State.rxMiss p1 p2 p3 p4) := by
  unfold State.rxMiss
  refine State.notDecrypted_keeps ?_
  · refine State.raceKeyMiss_keeps ?_
    · refine State.count_keeps ?_
      · exact hp1

theorem execLongTagVerdict_keeps {s0 : State} {p1 : Channel} {p2 : Nat} {p3 : List EthPart} {p4 : Machine.State} (hp4 : Keeps s0 (p4)) : KeepsO s0 (@execLongTagVerdict p1 p2 p3 p4) := by
  unfold execLongTagVerdict
  extract_lets +onlyGivenNames -merge -underBinder x1
  try clear_value x1
  refine keepsO_ite (fun _ => ?_) (fun _ => ?_)
  · refine keepsO_next ?_
    exact hp4
  · extract_lets +onlyGivenNames -merge -underBinder x2
    try clear_value x2
    extract_lets +onlyGivenNames -merge -underBinder x3
    have h4 : Keeps s0 (x3) := by
      unfold x3
      refine State.setL1_keeps ?_
      · exact hp4
    clear_value x3
    apply keeps_gen x3 h4
    clear h4
    intro x3 h4
    split
    · refine keepsO_next ?_
      refine State.count_keeps ?_
      · exact h4
    · refine keepsO_ite (fun _ => ?_) (fun _ => ?_)
      · refine keepsO_next ?_
        refine State.count_keeps ?_
        · exact h4
      · refine keepsO_ite (fun _ => ?_) (fun _ => ?_)
        · extract_lets +onlyGivenNames -merge -underBinder x5
          try clear_value x5
          refine keepsO_next ?_
          refine State.emit_keeps ?_
          · refine State.setL1_keeps ?_
            · exact h4
        · extract_lets +onlyGivenNames -merge -underBinder x6
          try clear_value x6
          extract_lets +onlyGivenNames -merge -underBinder x7
          have h8 : Keeps s0 (x7) := by
            unfold x7
            refine State.ethFailed_keeps ?_
            · refine State.count_keeps ?_
              · exact h4
          clear_value x7
          apply keeps_gen x7 h8
          clear h8
          intro x7 h8
          extract_lets +onlyGivenNames -merge -underBinder x9
          try clear_value x9
          refine keepsO_ite (fun _ => ?_) (fun _ => ?_)
          · refine keepsO_next ?_
            refine State.raiseEvent_keeps ?_
            · refine State.rwr_keeps ?_
              · exact h8
          · refine keepsO_next ?_
            refine State.untrusted_keeps ?_
            · exact h8

theorem execFrmL1holdWrite_keeps {s0 : State} {p1 : Group} {p2 : Word} {p3 : Machine.State} (hp3 : Keeps s0 (p3)) : KeepsO s0 (@execFrmL1holdWrite p1 p2 p3) := by
  unfold execFrmL1holdWrite
  refine guardRsvd_keeps ?_
  · refine keepsO_next ?_
    refine State.l1holdWrite_keeps ?_
    · exact hp3

theorem execQuarantineEnd_keeps {s0 : State} {p1 : Channel} {p2 : Option Nat} {p3 : Machine.State} (hp3 : Keeps s0 (p3)) : KeepsO s0 (@execQuarantineEnd p1 p2 p3) := by
  unfold execQuarantineEnd
  extract_lets +onlyGivenNames -merge -underBinder x1
  try clear_value x1
  extract_lets +onlyGivenNames -merge -underBinder x2
  try clear_value x2
  refine keepsO_ite (fun _ => ?_) (fun _ => ?_)
  · refine keepsO_next ?_
    exact hp3
  · extract_lets +onlyGivenNames -merge -underBinder x3
    try clear_value x3
    extract_lets +onlyGivenNames -merge -underBinder x4
    try clear_value x4
    extract_lets +onlyGivenNames -merge -underBinder x5
    have h6 : Keeps s0 (x5) := by
      unfold x5
      refine State.setL1_keeps ?_
      · refine State.rwr_keeps ?_
        · exact hp3
    clear_value x5
    apply keeps_gen x5 h6
    clear h6
    intro x5 h6
    refine keepsO_next ?_
    refine keeps_ite (fun _ => ?_) (fun _ => ?_)
    · refine State.report_keeps ?_
      · exact h6
    · exact h6

theorem State.holdWrite_keeps {s0 s : State} {sec : Nat} {l : List Octets} (h : Keeps s0 s) :
    Keeps s0 (s.holdWrite sec l).2 := by
  induction l generalizing s sec with
  | nil => exact h
  | cons o t ih =>
    unfold State.holdWrite
    have h1 : Keeps s0 (s.culWrite { req := 7, gen := none } sec 0 o).2 := State.culWrite_keeps h
    split
    · rename_i e; exact ih (keeps_of_eq e h1)
    · rename_i e; exact keeps_of_eq e h1

theorem State.takeFrame_keeps {s0 : State} {p1 : Machine.State} {p2 : Nat} {p3 : RxFrame} (hp1 : Keeps s0 (p1)) : Keeps s0 (@State.takeFrame p1 p2 p3) := by
  unfold State.takeFrame
  refine keeps_ite (fun _ => ?_) (fun _ => ?_)
  · split
    · rename_i h3e
      have h3 : Keeps s0 _ := keeps_of_eq h3e (by
        refine State.holdWrite_keeps ?_
        · exact hp1
        )
      refine State.setL1_keeps ?_
      · exact h3
  · refine State.release_keeps ?_
    · refine State.setL1_keeps ?_
      · exact hp1

theorem State.decryptRx_keeps {s0 : State} {p1 : Machine.State} {p2 : Nat} {p3 : Nat} {p4 : Machine.Stream} {p5 : SlotKey} {p6 : Octets} {p7 : Octets} {p8 : Octets} {p9 : Option Octets} (hp1 : Keeps s0 (p1)) : Keeps s0 (@State.decryptRx p1 p2 p3 p4 p5 p6 p7 p8 p9) := by
  unfold State.decryptRx
  extract_lets +onlyGivenNames -merge -underBinder x1
  try clear_value x1
  split
  · extract_lets +onlyGivenNames -merge -underBinder x2
    have h3 : Keeps s0 (x2) := by
      unfold x2
      refine State.askVerdict_keeps ?_
      · refine State.count_keeps ?_
        · exact hp1
    clear_value x2
    apply keeps_gen x2 h3
    clear h3
    intro x2 h3
    extract_lets +onlyGivenNames -merge -underBinder x4
    try clear_value x4
    extract_lets +onlyGivenNames -merge -underBinder x5
    try clear_value x5
    extract_lets +onlyGivenNames -merge -underBinder x6
    try clear_value x6
    extract_lets +onlyGivenNames -merge -underBinder x7
    try clear_value x7
    extract_lets +onlyGivenNames -merge -underBinder x8
    try clear_value x8
    extract_lets +onlyGivenNames -merge -underBinder x9
    have h10 : Keeps s0 (x9) := by
      unfold x9
      refine State.setL1_keeps ?_
      · exact h3
    clear_value x9
    apply keeps_gen x9 h10
    clear h10
    intro x9 h10
    refine keeps_ite (fun _ => ?_) (fun _ => ?_)
    · refine State.setL1_keeps ?_
      · exact h10
    · refine State.takeFrame_keeps ?_
      · exact h10

theorem State.lockedRx_keeps {s0 : State} {p1 : Machine.State} {p2 : Nat} {p3 : Nat} {p4 : Octets} {p5 : Octets} {p6 : Bool} (hp1 : Keeps s0 (p1)) : Keeps s0 (@State.lockedRx p1 p2 p3 p4 p5 p6) := by
  unfold State.lockedRx
  extract_lets +onlyGivenNames -merge -underBinder x1
  try clear_value x1
  extract_lets +onlyGivenNames -merge -underBinder x2
  try clear_value x2
  extract_lets +onlyGivenNames -merge -underBinder x3
  have h4 : Keeps s0 (x3) := by
    unfold x3
    refine keeps_ite (fun _ => ?_) (fun _ => ?_)
    · exact hp1
    · refine State.count_keeps ?_
      · exact hp1
  clear_value x3
  apply keeps_gen x3 h4
  clear h4
  intro x3 h4
  extract_lets +onlyGivenNames -merge -underBinder x5
  have h6 : Keeps s0 (x5) := by
    unfold x5
    refine State.rxDescFor_keeps ?_
    · refine State.takeFrag_keeps ?_
      · exact h4
  clear_value x5
  apply keeps_gen x5 h6
  clear h6
  intro x5 h6
  extract_lets +onlyGivenNames -merge -underBinder x7
  try clear_value x7
  extract_lets +onlyGivenNames -merge -underBinder x8
  have h9 : Keeps s0 (x8) := by
    unfold x8
    refine keeps_ite (fun _ => ?_) (fun _ => ?_)
    · refine State.chooseSlot_keeps ?_
      · exact h6
    · refine keeps_ite (fun _ => ?_) (fun _ => ?_)
      · refine State.count_keeps ?_
        · exact h6
      · exact h6
  clear_value x8
  apply keeps_gen x8 h9
  clear h9
  intro x8 h9
  refine keeps_ite (fun _ => ?_) (fun _ => ?_)
  · refine State.notDecrypted_keeps ?_
    · refine State.count_keeps ?_
      · exact h9
  · refine keeps_ite (fun _ => ?_) (fun _ => ?_)
    · refine State.notDecrypted_keeps ?_
      · exact h9
    · refine keeps_ite (fun _ => ?_) (fun _ => ?_)
      · refine State.rxMiss_keeps ?_
        · exact h9
      · refine keeps_ite (fun _ => ?_) (fun _ => ?_)
        · refine State.notDecrypted_keeps ?_
          · exact h9
        · split
          · split
            · split
              · refine State.decryptRx_keeps ?_
                · exact h9
              · refine State.rxMiss_keeps ?_
                · exact h9
            · refine State.rxMiss_keeps ?_
              · exact h9
          · refine State.notDecrypted_keeps ?_
            · exact h9

theorem State.oduArrives_keeps {s0 : State} {p1 : Machine.State} {p2 : Nat} {p3 : OduRx} {p4 : Bool} (hp1 : Keeps s0 (p1)) : Keeps s0 (@State.oduArrives p1 p2 p3 p4) := by
  unfold State.oduArrives
  extract_lets +onlyGivenNames -merge -underBinder x1
  try clear_value x1
  extract_lets +onlyGivenNames -merge -underBinder x2
  have h3 : ∀ q4, Keeps s0 (q4) → Keeps s0 (x2 q4) := by
    intro q4 hq4
    unfold x2
    refine State.issueRx_keeps ?_
    · exact hq4
  try clear_value x2
  split
  · extract_lets +onlyGivenNames -merge -underBinder x5
    try clear_value x5
    refine keeps_ite (fun _ => ?_) (fun _ => ?_)
    · extract_lets +onlyGivenNames -merge -underBinder x6
      try clear_value x6
      refine h3 _ ?_
      · refine State.lockedRx_keeps ?_
        · refine State.rwr_keeps ?_
          · exact hp1
    · extract_lets +onlyGivenNames -merge -underBinder x7
      have h8 : Keeps s0 (x7) := by
        unfold x7
        refine keeps_ite (fun _ => ?_) (fun _ => ?_)
        · refine State.count_keeps ?_
          · exact hp1
        · exact hp1
      clear_value x7
      apply keeps_gen x7 h8
      clear h8
      intro x7 h8
      refine State.lf_keeps ?_
      · refine State.askVerdict_keeps ?_
        · exact h8
  · refine keeps_ite (fun _ => ?_) (fun _ => ?_)
    · refine h3 _ ?_
      · refine State.blankRx_keeps ?_
        · refine State.count_keeps ?_
          · exact hp1
    · refine State.lf_keeps ?_
      · refine State.count_keeps ?_
        · exact hp1
  · refine State.lf_keeps ?_
    · refine keeps_ite (fun _ => ?_) (fun _ => ?_)
      · refine State.unlock_keeps ?_
        · refine State.askVerdict_keeps ?_
          · exact hp1
      · exact hp1
  · refine keeps_ite (fun _ => ?_) (fun _ => ?_)
    · refine h3 _ ?_
      · refine State.blankRx_keeps ?_
        · exact hp1
    · refine State.lf_keeps ?_
      · exact hp1

theorem execRetirementComplete_keeps {s0 : State} {p1 : Channel} {p2 : Machine.State} (hp2 : Keeps s0 (p2)) : KeepsO s0 (@execRetirementComplete p1 p2) := by
  unfold execRetirementComplete
  extract_lets +onlyGivenNames -merge -underBinder x1
  try clear_value x1
  extract_lets +onlyGivenNames -merge -underBinder x2
  try clear_value x2
  extract_lets +onlyGivenNames -merge -underBinder x3
  try clear_value x3
  refine keepsO_ite (fun _ => ?_) (fun _ => ?_)
  · refine keepsO_next ?_
    refine State.endKey_keeps ?_
    · refine State.rwr_keeps ?_
      · exact hp2
  · refine keepsO_next ?_
    exact hp2

theorem State.alignOdu_keeps {s0 : State} {p1 : Machine.State} {p2 : Nat} {p3 : Bool} {p4 : Option Nat} (hp1 : Keeps s0 (p1)) : Keeps s0 (@State.alignOdu p1 p2 p3 p4) := by
  unfold State.alignOdu
  extract_lets +onlyGivenNames -merge -underBinder x1
  try clear_value x1
  extract_lets +onlyGivenNames -merge -underBinder x2
  try clear_value x2
  extract_lets +onlyGivenNames -merge -underBinder x3
  try clear_value x3
  extract_lets +onlyGivenNames -merge -underBinder x4
  have h5 : Keeps s0 (x4) := by
    unfold x4
    refine State.setL1_keeps ?_
    · exact hp1
  clear_value x4
  apply keeps_gen x4 h5
  clear h5
  intro x4 h5
  extract_lets +onlyGivenNames -merge -underBinder x6
  have h7 : Keeps s0 (x6) := by
    unfold x6
    refine keeps_ite (fun _ => ?_) (fun _ => ?_)
    · refine State.unlock_keeps ?_
      · exact h5
    · exact h5
  clear_value x6
  apply keeps_gen x6 h7
  clear h7
  intro x6 h7
  refine keeps_ite (fun _ => ?_) (fun _ => ?_)
  · refine State.chDefect_keeps ?_
    · exact h7
  · refine keeps_ite (fun _ => ?_) (fun _ => ?_)
    · refine State.chDefect_keeps ?_
      · exact h7
    · exact h7

theorem execL1RxFrame_keeps {s0 : State} {p1 : Channel} {p2 : OduRx} {p3 : Bool} {p4 : Machine.State} (hp4 : Keeps s0 (p4)) : KeepsO s0 (@execL1RxFrame p1 p2 p3 p4) := by
  unfold execL1RxFrame
  extract_lets +onlyGivenNames -merge -underBinder x1
  try clear_value x1
  refine keepsO_ite (fun _ => ?_) (fun _ => ?_)
  · refine keepsO_next ?_
    exact hp4
  · extract_lets +onlyGivenNames -merge -underBinder x2
    have h3 : Keeps s0 (x2) := by
      unfold x2
      refine State.finishLeaving_keeps ?_
      · exact hp4
    clear_value x2
    apply keeps_gen x2 h3
    clear h3
    intro x2 h3
    extract_lets +onlyGivenNames -merge -underBinder x4
    try clear_value x4
    extract_lets +onlyGivenNames -merge -underBinder x5
    try clear_value x5
    extract_lets +onlyGivenNames -merge -underBinder x6
    have h7 : Keeps s0 (x6) := by
      unfold x6
      split
      · refine State.alignOdu_keeps ?_
        · exact h3
      · refine State.alignOdu_keeps ?_
        · exact h3
      · refine State.alignOdu_keeps ?_
        · exact h3
    clear_value x6
    apply keeps_gen x6 h7
    clear h7
    intro x6 h7
    extract_lets +onlyGivenNames -merge -underBinder x8
    have h9 : Keeps s0 (x8) := by
      unfold x8
      refine State.chDefect_keeps ?_
      · refine State.chDefect_keeps ?_
        · refine State.chDefect_keeps ?_
          · exact h7
    clear_value x8
    apply keeps_gen x8 h9
    clear h9
    intro x8 h9
    extract_lets +onlyGivenNames -merge -underBinder x10
    have h11 : Keeps s0 (x10) := by
      unfold x10
      split
      · refine State.chDefect_keeps ?_
        · exact h9
      · exact h9
    clear_value x10
    apply keeps_gen x10 h11
    clear h11
    intro x10 h11
    refine keepsO_ite (fun _ => ?_) (fun _ => ?_)
    · refine keepsO_next ?_
      refine State.lf_keeps ?_
      · refine State.askVerdict_keeps ?_
        · exact h11
    · refine keepsO_next ?_
      refine State.oduArrives_keeps ?_
      · exact h11

theorem execFrmL1ctlWrite_keeps {s0 : State} {p1 : Group} {p2 : Word} {p3 : Machine.State} (hp3 : Keeps s0 (p3)) : KeepsO s0 (@execFrmL1ctlWrite p1 p2 p3) := by
  unfold execFrmL1ctlWrite
  refine guardRsvd_keeps ?_
  · refine keepsO_next ?_
    refine State.l1ctlWrite_keeps ?_
    · exact hp3

theorem State.cooOf_keeps {s0 : State} {p1 : Machine.State} {p2 : Nat} {p3 : Nat} {p4 : Nat} {p5 : Nat} {p6 : Bool} (hp1 : Keeps s0 (p1)) : Keeps s0 (@State.cooOf p1 p2 p3 p4 p5 p6).2 := by
  unfold State.cooOf
  extract_lets +onlyGivenNames -merge -underBinder x1
  try clear_value x1
  extract_lets +onlyGivenNames -merge -underBinder x2
  try clear_value x2
  extract_lets +onlyGivenNames -merge -underBinder x3
  try clear_value x3
  extract_lets +onlyGivenNames -merge -underBinder x4
  try clear_value x4
  split
  · rename_i h7e
    have h7 : Keeps s0 _ := keeps_of_eq h7e (by
      split
      · refine keepsP_mk ?_
        exact hp1
      · refine State.drawOctets_keeps ?_
        · exact hp1
      )
    refine keepsP_mk ?_
    exact h7

theorem State.startTx_keeps {s0 : State} {p1 : Machine.State} {p2 : Nat} {p3 : TxFrame} (hp1 : Keeps s0 (p1)) : Keeps s0 (@State.startTx p1 p2 p3) := by
  unfold State.startTx
  refine State.rwr_keeps ?_
  · refine State.setL1_keeps ?_
    · exact hp1

theorem State.encryptTx_keeps {s0 : State} {p1 : Machine.State} {p2 : Nat} {p3 : Nat} {p4 : L1Desc} {p5 : SlotKey} {p6 : Octets} {p7 : Octets} (hp1 : Keeps s0 (p1)) : Keeps s0 (@State.encryptTx p1 p2 p3 p4 p5 p6 p7) := by
  unfold State.encryptTx
  split
  · rename_i h3e
    have h3 : Keeps s0 _ := keeps_of_eq h3e (by
      refine State.cooOf_keeps ?_
      · exact hp1
      )
    extract_lets +onlyGivenNames -merge -underBinder x4
    try clear_value x4
    split
    · extract_lets +onlyGivenNames -merge -underBinder x5
      try clear_value x5
      refine State.startTx_keeps ?_
      · refine State.setL1_keeps ?_
        · exact h3

theorem State.sendTx_keeps {s0 : State} {p1 : Machine.State} {p2 : Nat} {p3 : Nat} {p4 : Octets} (hp1 : Keeps s0 (p1)) : Keeps s0 (@State.sendTx p1 p2 p3 p4) := by
  unfold State.sendTx
  extract_lets +onlyGivenNames -merge -underBinder x1
  have h2 : Keeps s0 (x1) := by
    unfold x1
    refine State.startTx_keeps ?_
    · refine State.dropDesc_keeps ?_
      · refine State.raceKeyMiss_keeps ?_
        · refine State.count_keeps ?_
          · exact hp1
  clear_value x1
  apply keeps_gen x1 h2
  clear h2
  intro x1 h2
  split
  · split
    · split
      · refine State.encryptTx_keeps ?_
        · exact hp1
      · exact h2
    · exact h2
  · exact h2

theorem State.txDescFor_keeps {s0 : State} {p1 : Machine.State} {p2 : Nat} {p3 : Nat} {p4 : Bool} (hp1 : Keeps s0 (p1)) : Keeps s0 (@State.txDescFor p1 p2 p3 p4) := by
  unfold State.txDescFor
  refine keeps_ite (fun _ => ?_) (fun _ => ?_)
  · refine State.l1Ready_keeps ?_
    · exact hp1
  · refine State.l1Ready_keeps ?_
    · refine State.issueTx_keeps ?_
      · refine State.dropDesc_keeps ?_
        · exact hp1

theorem execL1TxFrame_keeps {s0 : State} {p1 : Channel} {p2 : Octets} {p3 : Bool} {p4 : Machine.State} (hp4 : Keeps s0 (p4)) : KeepsO s0 (@execL1TxFrame p1 p2 p3 p4) := by
  unfold execL1TxFrame
  extract_lets +onlyGivenNames -merge -underBinder x1
  try clear_value x1
  refine keepsO_ite (fun _ => ?_) (fun _ => ?_)
  · refine keepsO_next ?_
    exact hp4
  · refine keepsO_ite (fun _ => ?_) (fun _ => ?_)
    · refine keepsO_next ?_
      refine State.emit_keeps ?_
      · exact hp4
    · extract_lets +onlyGivenNames -merge -underBinder x2
      have h3 : Keeps s0 (x2) := by
        unfold x2
        refine State.finishTx_keeps ?_
        · exact hp4
      clear_value x2
      apply keeps_gen x2 h3
      clear h3
      intro x2 h3
      extract_lets +onlyGivenNames -merge -underBinder x4
      try clear_value x4
      extract_lets +onlyGivenNames -merge -underBinder x5
      try clear_value x5
      refine keepsO_ite (fun _ => ?_) (fun _ => ?_)
      · refine keepsO_ite (fun _ => ?_) (fun _ => ?_)
        · refine keepsO_next ?_
          exact h3
        · extract_lets +onlyGivenNames -merge -underBinder x6
          try clear_value x6
          split
          · rename_i h9e
            have h9 : Keeps s0 _ := keeps_of_eq h9e (by
              refine State.cooOf_keeps ?_
              · refine State.dropDesc_keeps ?_
                · exact h3
              )
            extract_lets +onlyGivenNames -merge -underBinder x10
            try clear_value x10
            refine keepsO_next ?_
            refine State.startTx_keeps ?_
            · refine State.setL1_keeps ?_
              · exact h9
      · refine keepsO_ite (fun _ => ?_) (fun _ => ?_)
        · refine keepsO_next ?_
          refine State.startTx_keeps ?_
          · refine State.dropDesc_keeps ?_
            · exact h3
        · refine keepsO_next ?_
          refine State.issueTx_keeps ?_
          · refine State.sendTx_keeps ?_
            · refine State.txDescFor_keeps ?_
              · exact h3

theorem execCountWordRx_keeps {s0 : State} {p1 : Channel} {p2 : Word} {p3 : Byte} {p4 : Byte} {p5 : Machine.State} (hp5 : Keeps s0 (p5)) : KeepsO s0 (@execCountWordRx p1 p2 p3 p4 p5) := by
  unfold execCountWordRx
  extract_lets +onlyGivenNames -merge -underBinder x1
  try clear_value x1
  extract_lets +onlyGivenNames -merge -underBinder x2
  try clear_value x2
  refine keepsO_ite (fun _ => ?_) (fun _ => ?_)
  · refine keepsO_next ?_
    exact hp5
  · refine keepsO_ite (fun _ => ?_) (fun _ => ?_)
    · refine keepsO_next ?_
      refine State.setL1_keeps ?_
      · refine State.count_keeps ?_
        · exact hp5
    · extract_lets +onlyGivenNames -merge -underBinder x3
      have h4 : Keeps s0 (x3) := by
        unfold x3
        refine keeps_ite (fun _ => ?_) (fun _ => ?_)
        · refine State.raiseEvent_keeps ?_
          · refine State.rwr_keeps ?_
            · exact hp5
        · exact hp5
      clear_value x3
      apply keeps_gen x3 h4
      clear h4
      intro x3 h4
      refine keepsO_ite (fun _ => ?_) (fun _ => ?_)
      · refine keepsO_ite (fun _ => ?_) (fun _ => ?_)
        · refine keepsO_next ?_
          refine State.setL1_keeps ?_
          · exact h4
        · extract_lets +onlyGivenNames -merge -underBinder x5
          have h6 : Keeps s0 (x5) := by
            unfold x5
            refine State.count_keeps ?_
            · exact h4
          clear_value x5
          apply keeps_gen x5 h6
          clear h6
          intro x5 h6
          refine keepsO_ite (fun _ => ?_) (fun _ => ?_)
          · extract_lets +onlyGivenNames -merge -underBinder x7
            have h8 : Keeps s0 (x7) := by
              unfold x7
              refine State.unlock_keeps ?_
              · refine State.askVerdict_keeps ?_
                · exact h6
            clear_value x7
            apply keeps_gen x7 h8
            clear h8
            intro x7 h8
            refine keepsO_next ?_
            refine State.setL1_keeps ?_
            · exact h8
          · refine keepsO_next ?_
            refine State.setL1_keeps ?_
            · exact h6
      · refine keepsO_ite (fun _ => ?_) (fun _ => ?_)
        · refine keepsO_next ?_
          refine State.setL1_keeps ?_
          · refine State.rwr_keeps ?_
            · refine State.rwr_keeps ?_
              · exact h4
        · refine keepsO_next ?_
          refine State.setL1_keeps ?_
          · exact h4

theorem State.resultOk_keeps {s0 : State} {p1 : Machine.State} {p2 : Nat} {p3 : RxFrame} (hp1 : Keeps s0 (p1)) : Keeps s0 (@State.resultOk p1 p2 p3).2 := by
  unfold State.resultOk
  extract_lets +onlyGivenNames -merge -underBinder x1
  try clear_value x1
  extract_lets +onlyGivenNames -merge -underBinder x2
  try clear_value x2
  refine keepsP_mk ?_
  refine keeps_foldl ?_ (fun a x ha => ?_)
  · exact hp1
  · skip
    refine State.withhold_keeps ?_
    · exact ha

theorem execShortTagVerdict_keeps {s0 : State} {p1 : Channel} {p2 : Nat} {p3 : List EthPart} {p4 : Machine.State} (hp4 : Keeps s0 (p4)) : KeepsO s0 (@execShortTagVerdict p1 p2 p3 p4) := by
  unfold execShortTagVerdict
  extract_lets +onlyGivenNames -merge -underBinder x1
  try clear_value x1
  split
  · refine keepsO_next ?_
    exact hp4
  · extract_lets +onlyGivenNames -merge -underBinder x2
    have h3 : Keeps s0 (x2) := by
      unfold x2
      refine State.setL1_keeps ?_
      · exact hp4
    clear_value x2
    apply keeps_gen x2 h3
    clear h3
    intro x2 h3
    extract_lets +onlyGivenNames -merge -underBinder x4
    have h5 : Keeps s0 (x4) := by
      unfold x4
      split
      · rename_i h7e
        have h7 : Keeps s0 _ := keeps_of_eq h7e (by
          refine State.resultOk_keeps ?_
          · exact h3
          )
        refine keeps_ite (fun _ => ?_) (fun _ => ?_)
        · refine State.shortPass_keeps ?_
          · exact h7
        · refine State.shortFail_keeps ?_
          · exact h7
      · rename_i h9e
        have h9 : Keeps s0 _ := keeps_of_eq h9e (by
          refine State.resultOk_keeps ?_
          · exact h3
          )
        refine keeps_ite (fun _ => ?_) (fun _ => ?_)
        · refine State.replaced_keeps ?_
          · exact h9
        · exact h9
    clear_value x4
    apply keeps_gen x4 h5
    clear h5
    intro x4 h5
    refine keepsO_next ?_
    split
    · refine State.takeFrame_keeps ?_
      · exact h5
    · exact h5

theorem execL1ChannelCloseEnd_keeps {s0 : State} {p1 : Channel} {p2 : Machine.State} (hp2 : Keeps s0 (p2)) : KeepsO s0 (@execL1ChannelCloseEnd p1 p2) := by
  unfold execL1ChannelCloseEnd
  refine keepsO_ite (fun _ => ?_) (fun _ => ?_)
  · extract_lets +onlyGivenNames -merge -underBinder x1
    have h2 : Keeps s0 (x1) := by
      unfold x1
      refine State.dropDescs_keeps ?_
      · refine State.finishLeaving_keeps ?_
        · refine State.finishTx_keeps ?_
          · exact hp2
    clear_value x1
    apply keeps_gen x1 h2
    clear h2
    intro x1 h2
    refine keepsO_next ?_
    refine State.rwr_keeps ?_
    · refine State.setL1_keeps ?_
      · refine State.rwr_keeps ?_
        · refine State.rwr_keeps ?_
          · exact h2
  · refine keepsO_next ?_
    exact hp2

end Sys2Proof.Machine
end

