-- ==== Sys2Proof/Laws/KeepsRaces.lean ====
section
/-! SUPPORT. What the definitions of Sys2Proof/Machine/Races.lean keep: one lemma each, in the terms of `Keeps`. -/

namespace Sys2Proof.Machine

open Sys2Proof

theorem State.markFlow_keeps {s0 : State} {p1 : Machine.State} {p2 : Nat} {p3 : Nat} {p4 : Dir} {p5 : Nat} {p6 : Flow} {p7 : Option Nat} {p8 : Option Nat} (hp1 : Keeps s0 (p1)) : Keeps s0 (@State.markFlow p1 p2 p3 p4 p5 p6 p7 p8) := by
  unfold State.markFlow
  extract_lets +onlyGivenNames -merge -underBinder x1
  try clear_value x1
  split
  · refine State.setRingOf_keeps ?_
    · exact hp1
  · refine State.setRetain_keeps ?_
    · exact hp1
  · extract_lets +onlyGivenNames -merge -underBinder x2
    try clear_value x2
    refine State.setL1_keeps ?_
    · exact hp1
  · extract_lets +onlyGivenNames -merge -underBinder x3
    try clear_value x3
    refine State.setL1_keeps ?_
    · exact hp1

theorem State.passWord_keeps {s0 : State} {p1 : Machine.State} {p2 : Nat} {p3 : Nat} {p4 : Dir} {p5 : Nat} {p6 : List FlowLane} (hp1 : Keeps s0 (p1)) : Keeps s0 (@State.passWord p1 p2 p3 p4 p5 p6) := by
  unfold State.passWord
  split
  · extract_lets +onlyGivenNames -merge -underBinder x1
    try clear_value x1
    extract_lets +onlyGivenNames -merge -underBinder x2
    have h3 : Keeps s0 (x2) := by
      unfold x2
      refine State.count_keeps ?_
      · exact hp1
    clear_value x2
    apply keeps_gen x2 h3
    clear h3
    intro x2 h3
    refine keeps_ite (fun _ => ?_) (fun _ => ?_)
    · exact h3
    · extract_lets +onlyGivenNames -merge -underBinder x4
      have h5 : Keeps s0 (x4) := by
        unfold x4
        refine keeps_foldl ?_ (fun a x ha => ?_)
        · exact h3
        · skip
          refine State.markFlow_keeps ?_
          · exact ha
      clear_value x4
      apply keeps_gen x4 h5
      clear h5
      intro x4 h5
      refine keeps_ite (fun _ => ?_) (fun _ => ?_)
      · exact h5
      · refine State.emit_keeps ?_
        · exact h5
  · exact hp1

theorem State.raceWord_keeps {s0 : State} {p1 : Machine.State} {p2 : Nat} {p3 : Nat} {p4 : Dir} {p5 : Nat} {p6 : List FlowLane} {p7 : List LaneFlag} {p8 : Bool} {p9 : List (Channel × Nat)} (hp1 : Keeps s0 (p1)) : Keeps s0 (@State.raceWord p1 p2 p3 p4 p5 p6 p7 p8 p9) := by
  unfold State.raceWord
  extract_lets +onlyGivenNames -merge -underBinder x1
  try clear_value x1
  extract_lets +onlyGivenNames -merge -underBinder x2
  try clear_value x2
  extract_lets +onlyGivenNames -merge -underBinder x3
  have h4 : Keeps s0 (x3) := by
    unfold x3
    refine State.sampleBlocks_keeps ?_
    · exact hp1
  clear_value x3
  apply keeps_gen x3 h4
  clear h4
  intro x3 h4
  extract_lets +onlyGivenNames -merge -underBinder x5
  have h6 : Keeps s0 (x5) := by
    unfold x5
    refine keeps_foldl ?_ (fun a x ha => ?_)
    · exact h4
    · skip
      split
      · refine keeps_ite (fun _ => ?_) (fun _ => ?_)
        · exact ha
        · refine State.markFlow_keeps ?_
          · exact ha
      · exact ha
  clear_value x5
  apply keeps_gen x5 h6
  clear h6
  intro x5 h6
  extract_lets +onlyGivenNames -merge -underBinder x7
  have h8 : Keeps s0 (x7) := by
    unfold x7
    refine keeps_ite (fun _ => ?_) (fun _ => ?_)
    · exact h6
    · refine State.passWord_keeps ?_
      · exact h6
  clear_value x7
  apply keeps_gen x7 h8
  clear h8
  intro x7 h8
  split
  · split
    · refine State.withhold_keeps ?_
      · exact h8
    · exact h8
  · exact h8

theorem execRaceBlock_keeps {s0 : State} {p1 : RaceNo} {p2 : Dir} {p3 : Channel} {p4 : Fin 6} {p5 : List LaneFlag} {p6 : BitVec 12} {p7 : BitVec 32} {p8 : Bool} {p9 : List (Channel × Nat)} {p10 : Word} {p11 : Machine.State} (hp11 : Keeps s0 (p11)) : KeepsO s0 (@execRaceBlock p1 p2 p3 p4 p5 p6 p7 p8 p9 p10 p11) := by
  unfold execRaceBlock
  extract_lets +onlyGivenNames -merge -underBinder x1
  have h2 : Keeps s0 (x1) := by
    unfold x1
    refine State.timeTo_keeps ?_
    · exact hp11
  clear_value x1
  apply keeps_gen x1 h2
  clear h2
  intro x1 h2
  extract_lets +onlyGivenNames -merge -underBinder x3
  try clear_value x3
  refine keepsO_ite (fun _ => ?_) (fun _ => ?_)
  · refine keepsO_next ?_
    exact h2
  · extract_lets +onlyGivenNames -merge -underBinder x4
    try clear_value x4
    split
    · refine keepsO_next ?_
      refine State.raceWord_keeps ?_
      · exact h2
    · refine keepsO_next ?_
      refine State.withhold_keeps ?_
      · exact h2
    · refine keepsO_next ?_
      exact h2

theorem State.mirrorStore_keeps {s0 : State} {p1 : Machine.State} {p2 : Nat} {p3 : Octets} (hp1 : Keeps s0 (p1)) : Keeps s0 (@State.mirrorStore p1 p2 p3) := by
  unfold State.mirrorStore
  refine keeps_foldl ?_ (fun a x ha => ?_)
  · exact hp1
  · skip
    extract_lets +onlyGivenNames -merge -underBinder x1
    try clear_value x1
    extract_lets +onlyGivenNames -merge -underBinder x2
    try clear_value x2
    refine State.setReg_keeps ?_
    · exact ha

theorem execMirrorRecordRx_keeps {s0 : State} {p1 : Octets} {p2 : Machine.State} (hp2 : Keeps s0 (p2)) : KeepsO s0 (@execMirrorRecordRx p1 p2) := by
  unfold execMirrorRecordRx
  refine keepsO_ite (fun _ => ?_) (fun _ => ?_)
  · refine keepsO_next ?_
    exact hp2
  · refine keepsO_ite (fun _ => ?_) (fun _ => ?_)
    · refine keepsO_next ?_
      refine State.count_keeps ?_
      · refine State.mark_keeps ?_
        · exact hp2
    · extract_lets +onlyGivenNames -merge -underBinder x1
      try clear_value x1
      extract_lets +onlyGivenNames -merge -underBinder x2
      try clear_value x2
      extract_lets +onlyGivenNames -merge -underBinder x3
      try clear_value x3
      extract_lets +onlyGivenNames -merge -underBinder x4
      try clear_value x4
      refine keepsO_ite (fun _ => ?_) (fun _ => ?_)
      · extract_lets +onlyGivenNames -merge -underBinder y6 x5
        try clear_value y6
        have h7 : Keeps s0 (x5) := by
          unfold x5
          exact keeps_upd hp2 rfl rfl rfl rfl rfl rfl rfl rfl rfl rfl rfl rfl (.inl rfl)
        clear_value x5
        apply keeps_gen x5 h7
        clear h7
        intro x5 h7
        refine keepsO_next ?_
        refine State.count_keeps ?_
        · refine State.mirrorStore_keeps ?_
          · exact h7
      · refine keepsO_next ?_
        refine State.count_keeps ?_
        · refine State.mark_keeps ?_
          · exact hp2

theorem State.flagClear_keeps {s0 : State} {p1 : Machine.State} {p2 : Nat} (hp1 : Keeps s0 (p1)) : Keeps s0 (@State.flagClear p1 p2) := by
  unfold State.flagClear
  refine State.setReg_keeps ?_
  · refine State.setReg_keeps ?_
    · exact hp1

theorem State.testStart_keeps {s0 : State} {p1 : Machine.State} {p2 : Nat} (hp1 : Keeps s0 (p1)) : Keeps s0 (@State.testStart p1 p2) := by
  unfold State.testStart
  extract_lets +onlyGivenNames -merge -underBinder x1
  try clear_value x1
  refine keeps_ite (fun _ => ?_) (fun _ => ?_)
  · refine State.setRstate_keeps ?_
    · refine State.setRace_keeps ?_
      · exact hp1
  · exact hp1

theorem State.rcCtlWrite_keeps {s0 : State} {p1 : Machine.State} {p2 : Nat} {p3 : Word} (hp1 : Keeps s0 (p1)) : Keeps s0 (@State.rcCtlWrite p1 p2 p3) := by
  unfold State.rcCtlWrite
  extract_lets +onlyGivenNames -merge -underBinder x1
  have h2 : Keeps s0 (x1) := by
    unfold x1
    refine keeps_ite (fun _ => ?_) (fun _ => ?_)
    · refine State.flagClear_keeps ?_
      · exact hp1
    · exact hp1
  clear_value x1
  apply keeps_gen x1 h2
  clear h2
  intro x1 h2
  refine keeps_ite (fun _ => ?_) (fun _ => ?_)
  · refine State.testStart_keeps ?_
    · exact h2
  · exact h2

theorem State.grpCfgWrite_keeps {s0 : State} {p1 : Machine.State} {p2 : Nat} {p3 : Word} (hp1 : Keeps s0 (p1)) : Keeps s0 (@State.grpCfgWrite p1 p2 p3) := by
  unfold State.grpCfgWrite
  refine keeps_ite (fun _ => ?_) (fun _ => ?_)
  · refine State.mark_keeps ?_
    · exact hp1
  · refine keeps_ite (fun _ => ?_) (fun _ => ?_)
    · refine State.mark_keeps ?_
      · exact hp1
    · refine State.wakeNamed_keeps ?_
      · refine State.plainWrite_keeps ?_
        · exact hp1

theorem execWeiGrpCfgWrite_keeps {s0 : State} {p1 : Group} {p2 : Word} {p3 : Machine.State} (hp3 : Keeps s0 (p3)) : KeepsO s0 (@execWeiGrpCfgWrite p1 p2 p3) := by
  unfold execWeiGrpCfgWrite
  extract_lets +onlyGivenNames -merge -underBinder x1
  have h2 : Keeps s0 (x1) := by
    unfold x1
    refine State.grpCfgWrite_keeps ?_
    · exact hp3
  clear_value x1
  apply keeps_gen x1 h2
  clear h2
  intro x1 h2
  refine guardRsvd_keeps ?_
  · refine keepsO_ite (fun _ => ?_) (fun _ => ?_)
    · exact keepsO_fault
    · refine keepsO_next ?_
      exact h2

theorem State.failClear_keeps {s0 : State} {p1 : Machine.State} {p2 : Nat} (hp1 : Keeps s0 (p1)) : Keeps s0 (@State.failClear p1 p2) := by
  unfold State.failClear
  refine keeps_ite (fun _ => ?_) (fun _ => ?_)
  · extract_lets +onlyGivenNames -merge -underBinder x1
    have h2 : Keeps s0 (x1) := by
      unfold x1
      refine State.wr_keeps ?_
      · exact hp1
    clear_value x1
    apply keeps_gen x1 h2
    clear h2
    intro x1 h2
    refine State.raceOff_keeps ?_
    · refine State.setRace_keeps ?_
      · exact h2
  · refine State.mark_keeps ?_
    · exact hp1

theorem State.failclrWrite_keeps {s0 : State} {p1 : Machine.State} {p2 : Word} (hp1 : Keeps s0 (p1)) : Keeps s0 (@State.failclrWrite p1 p2) := by
  unfold State.failclrWrite
  refine State.degradedExit_keeps ?_
  · refine keeps_foldl ?_ (fun a x ha => ?_)
    · exact hp1
    · skip
      refine keeps_ite (fun _ => ?_) (fun _ => ?_)
      · refine State.failClear_keeps ?_
        · exact ha
      · exact ha

theorem State.rewindRings_keeps {s0 : State} {p1 : Machine.State} {p2 : Nat} (hp1 : Keeps s0 (p1)) : Keeps s0 (@State.rewindRings p1 p2) := by
  unfold State.rewindRings
  extract_lets +onlyGivenNames -merge -underBinder x1
  try clear_value x1
  extract_lets +onlyGivenNames -merge -underBinder x2
  try clear_value x2
  extract_lets +onlyGivenNames -merge -underBinder x3
  try clear_value x3
  extract_lets +onlyGivenNames -merge -underBinder x4
  try clear_value x4
  extract_lets +onlyGivenNames -merge -underBinder x5
  try clear_value x5
  extract_lets +onlyGivenNames -merge -underBinder x6
  try clear_value x6
  refine State.setWgrp_keeps ?_
  · refine State.discardKs_keeps ?_
    · refine State.discardKs_keeps ?_
      · exact hp1

theorem State.stompPartial_keeps {s0 : State} {p1 : Machine.State} {p2 : Nat} {p3 : Nat} {p4 : Nat} (hp1 : Keeps s0 (p1)) : Keeps s0 (@State.stompPartial p1 p2 p3 p4) := by
  unfold State.stompPartial
  extract_lets +onlyGivenNames -merge -underBinder x1
  have h2 : Keeps s0 (x1) := by
    unfold x1
    split
    · split
      · extract_lets +onlyGivenNames -merge -underBinder x3
        try clear_value x3
        refine keeps_ite (fun _ => ?_) (fun _ => ?_)
        · exact hp1
        · refine State.emit_keeps ?_
          · exact hp1
      · exact hp1
    · exact hp1
  clear_value x1
  apply keeps_gen x1 h2
  clear h2
  intro x1 h2
  split
  · split
    · extract_lets +onlyGivenNames -merge -underBinder x4
      try clear_value x4
      refine keeps_ite (fun _ => ?_) (fun _ => ?_)
      · exact h2
      · refine State.toClient_keeps ?_
        · exact h2
    · exact h2
  · exact h2

theorem State.cutGroup_keeps {s0 : State} {p1 : Machine.State} {p2 : Nat} {p3 : Nat} {p4 : Nat} {p5 : List (Channel × Nat)} (hp1 : Keeps s0 (p1)) : Keeps s0 (@State.cutGroup p1 p2 p3 p4 p5) := by
  unfold State.cutGroup
  refine State.cutL1Rx_keeps ?_
  · refine State.cutL1_keeps ?_
    · refine State.rewindRings_keeps ?_
      · refine State.stompPartial_keeps ?_
        · exact hp1

theorem State.cutCard_keeps {s0 : State} {p1 : Machine.State} {p2 : Machine.State} {p3 : List (Channel × Nat)} {p4 : List (Group × Nat × Nat)} (hp1 : Keeps s0 (p1)) (hp2 : Keeps s0 (p2)) : Keeps s0 (@State.cutCard p1 p2 p3 p4) := by
  unfold State.cutCard
  refine keeps_foldl ?_ (fun a x ha => ?_)
  · exact hp2
  · skip
    refine keeps_ite (fun _ => ?_) (fun _ => ?_)
    · extract_lets +onlyGivenNames -merge -underBinder x1
      try clear_value x1
      refine State.cutGroup_keeps ?_
      · exact ha
    · exact ha

theorem State.cardWrite_keeps {s0 : State} {p1 : Machine.State} {p2 : Word} (hp1 : Keeps s0 (p1)) : Keeps s0 (@State.cardWrite p1 p2) := by
  unfold State.cardWrite
  refine State.cutCard_keeps ?_ ?_
  · exact hp1
  · refine State.plainWrite_keeps ?_
    · exact hp1

theorem State.cardGrantWrite_keeps {s0 : State} {p1 : Machine.State} {p2 : Word} (hp1 : Keeps s0 (p1)) : Keeps s0 (@State.cardGrantWrite p1 p2) := by
  unfold State.cardGrantWrite
  extract_lets +onlyGivenNames -merge -underBinder x1
  try clear_value x1
  refine keeps_ite (fun _ => ?_) (fun _ => ?_)
  · refine State.mark_keeps ?_
    · exact keeps_upd hp1 rfl rfl rfl rfl rfl rfl rfl rfl rfl rfl rfl rfl (.inl rfl)
  · refine State.mark_keeps ?_
    · exact hp1

theorem State.wakeJoiner_keeps {s0 : State} {p1 : Machine.State} {p2 : Nat} (hp1 : Keeps s0 (p1)) : Keeps s0 (@State.wakeJoiner p1 p2) := by
  unfold State.wakeJoiner
  refine keeps_ite (fun _ => ?_) (fun _ => ?_)
  · split
    · refine State.wakeRace_keeps ?_
      · exact hp1
    · exact hp1
  · exact hp1

theorem State.survive_keeps {s0 : State} {p1 : Machine.State} {p2 : Nat} {p3 : Nat} {p4 : Nat} (hp1 : Keeps s0 (p1)) : Keeps s0 (@State.survive p1 p2 p3 p4) := by
  unfold State.survive
  extract_lets +onlyGivenNames -merge -underBinder x1
  have h2 : Keeps s0 (x1) := by
    unfold x1
    refine State.wr_keeps ?_
    · refine State.wr_keeps ?_
      · exact hp1
  clear_value x1
  apply keeps_gen x1 h2
  clear h2
  intro x1 h2
  extract_lets +onlyGivenNames -merge -underBinder x3
  have h4 : Keeps s0 (x3) := by
    unfold x3
    refine State.wr_keeps ?_
    · refine State.wr_keeps ?_
      · refine State.wr_keeps ?_
        · exact h2
  clear_value x3
  apply keeps_gen x3 h4
  clear h4
  intro x3 h4
  refine State.wakeJoiner_keeps ?_
  · exact h4

theorem State.markFailed_keeps {s0 : State} {p1 : Machine.State} {p2 : Nat} (hp1 : Keeps s0 (p1)) : Keeps s0 (@State.markFailed p1 p2) := by
  unfold State.markFailed
  extract_lets +onlyGivenNames -merge -underBinder x1
  try clear_value x1
  refine State.wr_keeps ?_
  · refine State.wr_keeps ?_
    · refine State.setRstate_keeps ?_
      · refine State.setRace_keeps ?_
        · refine State.wr_keeps ?_
          · exact hp1

theorem State.markJudged_keeps {s0 : State} {p1 : Machine.State} {p2 : Nat} {p3 : Nat} {p4 : Bool} (hp1 : Keeps s0 (p1)) : Keeps s0 (@State.markJudged p1 p2 p3 p4) := by
  unfold State.markJudged
  extract_lets +onlyGivenNames -merge -underBinder x1
  try clear_value x1
  extract_lets +onlyGivenNames -merge -underBinder x2
  have h3 : Keeps s0 (x2) := by
    unfold x2
    refine State.count_keeps ?_
    · refine State.markFailed_keeps ?_
      · exact hp1
  clear_value x2
  apply keeps_gen x2 h3
  clear h3
  intro x2 h3
  extract_lets +onlyGivenNames -merge -underBinder y5 x4
  try clear_value y5
  have h6 : Keeps s0 (x4) := by
    unfold x4
    refine State.setRace_keeps ?_
    · exact h3
  clear_value x4
  apply keeps_gen x4 h6
  clear h6
  intro x4 h6
  extract_lets +onlyGivenNames -merge -underBinder x7
  have h8 : Keeps s0 (x7) := by
    unfold x7
    refine State.report_keeps ?_
    · exact h6
  clear_value x7
  apply keeps_gen x7 h8
  clear h8
  intro x7 h8
  refine State.raiseEvent_keeps ?_
  · exact h8

theorem State.revokeAll_keeps {s0 : State} {p1 : Machine.State} {p2 : Nat} {p3 : Nat} {p4 : Nat} {p5 : List (Channel × Nat)} (hp1 : Keeps s0 (p1)) : Keeps s0 (@State.revokeAll p1 p2 p3 p4 p5) := by
  unfold State.revokeAll
  extract_lets +onlyGivenNames -merge -underBinder x1
  have h2 : Keeps s0 (x1) := by
    unfold x1
    refine State.cutGroup_keeps ?_
    · exact hp1
  clear_value x1
  apply keeps_gen x1 h2
  clear h2
  intro x1 h2
  extract_lets +onlyGivenNames -merge -underBinder x3
  have h4 : Keeps s0 (x3) := by
    unfold x3
    refine State.wr_keeps ?_
    · refine State.wr_keeps ?_
      · refine State.wr_keeps ?_
        · exact h2
  clear_value x3
  apply keeps_gen x3 h4
  clear h4
  intro x3 h4
  extract_lets +onlyGivenNames -merge -underBinder x5
  try clear_value x5
  extract_lets +onlyGivenNames -merge -underBinder y7 x6
  try clear_value y7
  have h8 : Keeps s0 (x6) := by
    unfold x6
    refine keeps_ite (fun _ => ?_) (fun _ => ?_)
    · exact keeps_upd h4 rfl rfl rfl rfl rfl rfl rfl rfl rfl rfl rfl rfl (.inl rfl)
    · exact h4
  clear_value x6
  apply keeps_gen x6 h8
  clear h8
  intro x6 h8
  refine State.setWgrp_keeps ?_
  · exact h8

theorem State.wakeReplacement_keeps {s0 : State} {p1 : Machine.State} {p2 : Nat} (hp1 : Keeps s0 (p1)) : Keeps s0 (@State.wakeReplacement p1 p2) := by
  unfold State.wakeReplacement
  split
  · extract_lets +onlyGivenNames -merge -underBinder x1
    have h2 : Keeps s0 (x1) := by
      unfold x1
      refine State.wakeRace_keeps ?_
      · exact hp1
    clear_value x1
    apply keeps_gen x1 h2
    clear h2
    intro x1 h2
    extract_lets +onlyGivenNames -merge -underBinder x3
    try clear_value x3
    refine keeps_ite (fun _ => ?_) (fun _ => ?_)
    · refine State.setWgrp_keeps ?_
      · exact h2
    · exact h2
  · refine State.setWgrp_keeps ?_
    · exact hp1

theorem State.failoverStart_keeps {s0 : State} {p1 : Machine.State} {p2 : Nat} (hp1 : Keeps s0 (p1)) : Keeps s0 (@State.failoverStart p1 p2) := by
  unfold State.failoverStart
  refine keeps_ite (fun _ => ?_) (fun _ => ?_)
  · refine State.wakeReplacement_keeps ?_
    · refine State.dropFailover_keeps ?_
      · exact hp1
  · exact hp1

theorem State.judge_keeps {s0 : State} {p1 : Machine.State} {p2 : Nat} {p3 : Nat} {p4 : Bool} {p5 : Nat} {p6 : Nat} {p7 : List (Channel × Nat)} (hp1 : Keeps s0 (p1)) : Keeps s0 (@State.judge p1 p2 p3 p4 p5 p6 p7) := by
  unfold State.judge
  split
  · refine State.degradedEntry_keeps ?_
    · refine State.survive_keeps ?_
      · refine State.markJudged_keeps ?_
        · exact hp1
  · refine State.revokeAll_keeps ?_
    · refine State.degradedEntry_keeps ?_
      · refine State.markJudged_keeps ?_
        · refine State.failoverStart_keeps ?_
          · exact hp1

theorem execRaceJudged_keeps {s0 : State} {p1 : RaceNo} {p2 : Bool} {p3 : Nat} {p4 : Nat} {p5 : Nat} {p6 : List (Channel × Nat)} {p7 : Machine.State} (hp7 : Keeps s0 (p7)) : KeepsO s0 (@execRaceJudged p1 p2 p3 p4 p5 p6 p7) := by
  unfold execRaceJudged
  extract_lets +onlyGivenNames -merge -underBinder x1
  try clear_value x1
  split
  · refine keepsO_ite (fun _ => ?_) (fun _ => ?_)
    · refine keepsO_next ?_
      refine State.judge_keeps ?_
      · refine State.count_keeps ?_
        · exact hp7
    · refine keepsO_next ?_
      exact hp7
  · refine keepsO_next ?_
    exact hp7

theorem execLeaseLapse_keeps {s0 : State} {p1 : Group} {p2 : Nat} {p3 : Nat} {p4 : List (Channel × Nat)} {p5 : Word} {p6 : Machine.State} (hp6 : Keeps s0 (p6)) : KeepsO s0 (@execLeaseLapse p1 p2 p3 p4 p5 p6) := by
  unfold execLeaseLapse
  extract_lets +onlyGivenNames -merge -underBinder x1
  have h2 : Keeps s0 (x1) := by
    unfold x1
    refine State.timeTo_keeps ?_
    · exact hp6
  clear_value x1
  apply keeps_gen x1 h2
  clear h2
  intro x1 h2
  extract_lets +onlyGivenNames -merge -underBinder x3
  try clear_value x3
  refine keepsO_ite (fun _ => ?_) (fun _ => ?_)
  · extract_lets +onlyGivenNames -merge -underBinder x4
    have h5 : Keeps s0 (x4) := by
      unfold x4
      refine State.wr_keeps ?_
      · refine State.cutGroup_keeps ?_
        · exact h2
    clear_value x4
    apply keeps_gen x4 h5
    clear h5
    intro x4 h5
    extract_lets +onlyGivenNames -merge -underBinder y7 x6
    try clear_value y7
    have h8 : Keeps s0 (x6) := by
      unfold x6
      refine State.count_keeps ?_
      · refine State.mark_keeps ?_
        · refine State.setWgrp_keeps ?_
          · exact h5
    clear_value x6
    apply keeps_gen x6 h8
    clear h8
    intro x6 h8
    refine keepsO_next ?_
    refine State.raiseEvent_keeps ?_
    · refine State.report_keeps ?_
      · exact h8
  · refine keepsO_next ?_
    exact h2

theorem State.gapRecords_keeps {s0 : State} {p1 : Machine.State} {p2 : Nat} (hp1 : Keeps s0 (p1)) : Keeps s0 (@State.gapRecords p1 p2) := by
  unfold State.gapRecords
  extract_lets +onlyGivenNames -merge -underBinder x1
  try clear_value x1
  extract_lets +onlyGivenNames -merge -underBinder x2
  try clear_value x2
  refine keeps_foldl ?_ (fun a x ha => ?_)
  · exact hp1
  · skip
    refine keeps_ite (fun _ => ?_) (fun _ => ?_)
    · refine State.reportWith_keeps ?_
      · exact ha
    · exact ha

theorem execEddyShelterEmpty_keeps {s0 : State} {p1 : Machine.State} (hp1 : Keeps s0 (p1)) : KeepsO s0 (@execEddyShelterEmpty p1) := by
  unfold execEddyShelterEmpty
  refine keepsO_next ?_
  refine keeps_ite (fun _ => ?_) (fun _ => ?_)
  · exact hp1
  · split
    · refine State.dropRecords_keeps ?_
      · exact keeps_upd hp1 rfl rfl rfl rfl rfl rfl rfl rfl rfl rfl rfl rfl (.inl rfl)
    · exact hp1

theorem State.grantAtFrame_keeps {s0 : State} {p1 : Machine.State} {p2 : Nat} (hp1 : Keeps s0 (p1)) : Keeps s0 (@State.grantAtFrame p1 p2) := by
  unfold State.grantAtFrame
  refine keeps_ite (fun _ => ?_) (fun _ => ?_)
  · exact hp1
  · refine keeps_ite (fun _ => ?_) (fun _ => ?_)
    · split
      · refine keeps_ite (fun _ => ?_) (fun _ => ?_)
        · refine State.grantLease_keeps ?_
          · exact hp1
        · exact hp1
      · exact hp1
    · refine keeps_ite (fun _ => ?_) (fun _ => ?_)
      · split
        · refine State.grantLease_keeps ?_
          · exact hp1
        · exact hp1
      · exact hp1

theorem execCardLeaseExpire_keeps {s0 : State} {p1 : List (Channel × Nat)} {p2 : List (Group × Nat × Nat)} {p3 : Word} {p4 : Machine.State} (hp4 : Keeps s0 (p4)) : KeepsO s0 (@execCardLeaseExpire p1 p2 p3 p4) := by
  unfold execCardLeaseExpire
  extract_lets +onlyGivenNames -merge -underBinder x1
  have h2 : Keeps s0 (x1) := by
    unfold x1
    refine State.timeTo_keeps ?_
    · exact hp4
  clear_value x1
  apply keeps_gen x1 h2
  clear h2
  intro x1 h2
  refine keepsO_ite (fun _ => ?_) (fun _ => ?_)
  · refine keepsO_next ?_
    refine State.cutCard_keeps ?_ ?_
    · exact h2
    · refine State.unmark_keeps ?_
      · exact h2
  · refine keepsO_next ?_
    exact h2

theorem execRaceGateClose_keeps {s0 : State} {p1 : RaceNo} {p2 : Machine.State} (hp2 : Keeps s0 (p2)) : KeepsO s0 (@execRaceGateClose p1 p2) := by
  unfold execRaceGateClose
  refine keepsO_next ?_
  refine State.setRace_keeps ?_
  · exact hp2

theorem State.grantJoin_keeps {s0 : State} {p1 : Machine.State} {p2 : Nat} {p3 : Nat} (hp1 : Keeps s0 (p1)) : Keeps s0 (@State.grantJoin p1 p2 p3) := by
  unfold State.grantJoin
  extract_lets +onlyGivenNames -merge -underBinder x1
  have h2 : Keeps s0 (x1) := by
    unfold x1
    refine State.grantLease_keeps ?_
    · refine State.wr_keeps ?_
      · exact hp1
  clear_value x1
  apply keeps_gen x1 h2
  clear h2
  intro x1 h2
  refine State.setWgrp_keeps ?_
  · exact h2

theorem execWeirDispute_keeps {s0 : State} {p1 : RaceNo} {p2 : Machine.State} (hp2 : Keeps s0 (p2)) : KeepsO s0 (@execWeirDispute p1 p2) := by
  unfold execWeirDispute
  extract_lets +onlyGivenNames -merge -underBinder x1
  try clear_value x1
  split
  · refine keepsO_ite (fun _ => ?_) (fun _ => ?_)
    · refine keepsO_next ?_
      exact hp2
    · extract_lets +onlyGivenNames -merge -underBinder x2
      try clear_value x2
      refine keepsO_next ?_
      refine State.failoverStart_keeps ?_
      · refine State.setRace_keeps ?_
        · refine State.count_keeps ?_
          · exact hp2
  · refine keepsO_next ?_
    exact hp2

theorem execSampleCheck_keeps {s0 : State} {p1 : RaceNo} {p2 : Dir} {p3 : Bool} {p4 : Nat} {p5 : Nat} {p6 : Nat} {p7 : List (Channel × Nat)} {p8 : Machine.State} (hp8 : Keeps s0 (p8)) : KeepsO s0 (@execSampleCheck p1 p2 p3 p4 p5 p6 p7 p8) := by
  unfold execSampleCheck
  extract_lets +onlyGivenNames -merge -underBinder x1
  try clear_value x1
  extract_lets +onlyGivenNames -merge -underBinder x2
  try clear_value x2
  refine keepsO_ite (fun _ => ?_) (fun _ => ?_)
  · refine keepsO_next ?_
    exact hp8
  · extract_lets +onlyGivenNames -merge -underBinder y4 x3
    try clear_value y4
    have h5 : Keeps s0 (x3) := by
      unfold x3
      exact keeps_upd hp8 rfl rfl rfl rfl rfl rfl rfl rfl rfl rfl rfl rfl (.inl rfl)
    clear_value x3
    apply keeps_gen x3 h5
    clear h5
    intro x3 h5
    extract_lets +onlyGivenNames -merge -underBinder x6
    have h7 : Keeps s0 (x6) := by
      unfold x6
      refine State.count_keeps ?_
      · refine State.count_keeps ?_
        · exact h5
    clear_value x6
    apply keeps_gen x6 h7
    clear h7
    intro x6 h7
    extract_lets +onlyGivenNames -merge -underBinder x8
    try clear_value x8
    refine keepsO_ite (fun _ => ?_) (fun _ => ?_)
    · refine keepsO_next ?_
      refine keeps_ite (fun _ => ?_) (fun _ => ?_)
      · refine State.setRace_keeps ?_
        · exact h7
      · exact h7
    · extract_lets +onlyGivenNames -merge -underBinder x9
      have h10 : Keeps s0 (x9) := by
        unfold x9
        refine State.mark_keeps ?_
        · exact h7
      clear_value x9
      apply keeps_gen x9 h10
      clear h10
      intro x9 h10
      refine keepsO_ite (fun _ => ?_) (fun _ => ?_)
      · extract_lets +onlyGivenNames -merge -underBinder x11
        try clear_value x11
        refine keepsO_next ?_
        refine State.takeReports_keeps h10 ?_
        · refine State.judge_keeps ?_
          · refine State.report_keeps ?_
            · exact Keeps.refl _
      · refine keepsO_next ?_
        exact h10

theorem State.katFail_keeps {s0 : State} {p1 : Machine.State} {p2 : Nat} {p3 : Nat} {p4 : Nat} (hp1 : Keeps s0 (p1)) : Keeps s0 (@State.katFail p1 p2 p3 p4) := by
  unfold State.katFail
  refine State.capture_keeps ?_
  · refine State.mark_keeps ?_
    · exact hp1

theorem State.startFailed_keeps {s0 : State} {p1 : Machine.State} {p2 : Nat} {p3 : Nat} (hp1 : Keeps s0 (p1)) : Keeps s0 (@State.startFailed p1 p2 p3) := by
  unfold State.startFailed
  extract_lets +onlyGivenNames -merge -underBinder x1
  have h2 : Keeps s0 (x1) := by
    unfold x1
    refine State.raiseEvent_keeps ?_
    · exact hp1
  clear_value x1
  apply keeps_gen x1 h2
  clear h2
  intro x1 h2
  extract_lets +onlyGivenNames -merge -underBinder x3
  try clear_value x3
  extract_lets +onlyGivenNames -merge -underBinder x4
  have h5 : ∀ q6, Keeps s0 (q6) → Keeps s0 (x4 q6) := by
    intro q6 hq6
    unfold x4
    refine keeps_ite (fun _ => ?_) (fun _ => ?_)
    · refine State.wr_keeps ?_
      · refine State.wr_keeps ?_
        · exact hq6
    · exact hq6
  try clear_value x4
  refine keeps_ite (fun _ => ?_) (fun _ => ?_)
  · split
    · refine State.wakeRace_keeps ?_
      · refine State.wr_keeps ?_
        · exact h2
    · refine h5 _ ?_
      · exact h2
  · refine h5 _ ?_
    · exact h2

theorem State.wakeFailed_keeps {s0 : State} {p1 : Machine.State} {p2 : Nat} {p3 : Nat} {p4 : Nat} (hp1 : Keeps s0 (p1)) : Keeps s0 (@State.wakeFailed p1 p2 p3 p4) := by
  unfold State.wakeFailed
  extract_lets +onlyGivenNames -merge -underBinder x1
  try clear_value x1
  extract_lets +onlyGivenNames -merge -underBinder x2
  have h3 : Keeps s0 (x2) := by
    unfold x2
    refine State.markFailed_keeps ?_
    · refine State.katFail_keeps ?_
      · exact hp1
  clear_value x2
  apply keeps_gen x2 h3
  clear h3
  intro x2 h3
  extract_lets +onlyGivenNames -merge -underBinder x4
  have h5 : Keeps s0 (x4) := by
    unfold x4
    split
    · refine keeps_ite (fun _ => ?_) (fun _ => ?_)
      · refine State.startFailed_keeps ?_
        · exact h3
      · exact h3
    · refine State.wakeReplacement_keeps ?_
      · exact h3
    · refine State.wakeJoiner_keeps ?_
      · exact h3
    · exact h3
  clear_value x4
  apply keeps_gen x4 h5
  clear h5
  intro x4 h5
  refine State.degradedEntry_keeps ?_
  · exact h5

theorem State.judgeBoth_keeps {s0 s : State} {g : Nat} {a b : Bool} {cuts : List (Channel × Nat)} (h : Keeps s0 s) :
    Keeps s0 (s.judgeBoth g a b cuts) := by
  unfold State.judgeBoth
  exact State.revokeAll_keeps (State.takeReports_keeps h (State.report_keeps (State.degradedEntry_keeps
    (State.markJudged_keeps (State.markJudged_keeps (Keeps.refl _))))))

theorem State.grantReplacement_keeps {s0 s : State} {g k : Nat} (h : Keeps s0 s) : Keeps s0 (s.grantReplacement g k) := by
  unfold State.grantReplacement
  extract_lets s1 src s2
  have h2 : Keeps s0 s2 := State.setWgrp_keeps (State.grantLease_keeps (State.wr_keeps h))
  exact State.takeReports_keeps h2 (State.dropRecords_keeps (State.gapRecords_keeps (Keeps.refl _)))

theorem execLeaseGrant_keeps {s0 : State} {p1 : Group} {p2 : Machine.State} (hp2 : Keeps s0 (p2)) : KeepsO s0 (@execLeaseGrant p1 p2) := by
  unfold execLeaseGrant
  refine keepsO_ite (fun _ => ?_) (fun _ => ?_)
  · refine keepsO_next ?_
    exact hp2
  · split
    · refine keepsO_ite (fun _ => ?_) (fun _ => ?_)
      · refine keepsO_next ?_
        refine State.grantReplacement_keeps ?_
        · exact hp2
      · refine keepsO_next ?_
        exact hp2
    · split
      · refine keepsO_ite (fun _ => ?_) (fun _ => ?_)
        · refine keepsO_next ?_
          refine State.grantJoin_keeps ?_
          · exact hp2
        · refine keepsO_next ?_
          exact hp2
      · refine keepsO_ite (fun _ => ?_) (fun _ => ?_)
        · refine keepsO_next ?_
          refine State.grantAtFrame_keeps ?_
          · exact hp2
        · refine keepsO_next ?_
          exact hp2

theorem execRaceWakeDone_keeps {s0 : State} {p1 : RaceNo} {p2 : Bool} {p3 : Dir} {p4 : Fin 7} {p5 : Machine.State} (hp5 : Keeps s0 (p5)) : KeepsO s0 (@execRaceWakeDone p1 p2 p3 p4 p5) := by
  unfold execRaceWakeDone
  refine keepsO_ite (fun _ => ?_) (fun _ => ?_)
  · refine keepsO_next ?_
    exact hp5
  · refine keepsO_ite (fun _ => ?_) (fun _ => ?_)
    · refine keepsO_next ?_
      refine State.setRstate_keeps ?_
      · exact hp5
    · refine keepsO_next ?_
      refine State.wakeFailed_keeps ?_
      · exact hp5

theorem State.ckptWordBad_keeps {s0 : State} {p1 : Machine.State} {p2 : BitVec 32} (hp1 : Keeps s0 (p1)) : Keeps s0 (@State.ckptWordBad p1 p2) := by
  unfold State.ckptWordBad
  refine State.report_keeps ?_
  · exact hp1

theorem State.lostBlock_keeps {s0 : State} {p1 : Machine.State} {p2 : Nat} {p3 : Nat} {p4 : Nat} (hp1 : Keeps s0 (p1)) : Keeps s0 (@State.lostBlock p1 p2 p3 p4) := by
  unfold State.lostBlock
  refine keeps_ite (fun _ => ?_) (fun _ => ?_)
  · extract_lets +onlyGivenNames -merge -underBinder x1
    try clear_value x1
    split
    · refine State.setL1_keeps ?_
      · exact hp1
    · exact hp1
  · refine State.cutRxAt_keeps ?_
    · exact hp1

theorem State.tagDisagree_keeps {s0 : State} {p1 : Machine.State} {p2 : Nat} {p3 : Nat} {p4 : Nat} {p5 : Bool} (hp1 : Keeps s0 (p1)) : Keeps s0 (@State.tagDisagree p1 p2 p3 p4 p5) := by
  unfold State.tagDisagree
  extract_lets +onlyGivenNames -merge -underBinder x1
  try clear_value x1
  extract_lets +onlyGivenNames -merge -underBinder x2
  try clear_value x2
  extract_lets +onlyGivenNames -merge -underBinder x3
  try clear_value x3
  extract_lets +onlyGivenNames -merge -underBinder x4
  try clear_value x4
  extract_lets +onlyGivenNames -merge -underBinder x5
  try clear_value x5
  refine State.report_keeps ?_
  · refine State.count_keeps ?_
    · refine State.mark_keeps ?_
      · refine State.setL1_keeps ?_
        · exact hp1

theorem execTwinBlockSettle_keeps {s0 : State} {p1 : Channel} {p2 : Dir} {p3 : TwinCase} {p4 : Nat} {p5 : Nat} {p6 : List (Channel × Nat)} {p7 : Machine.State} (hp7 : Keeps s0 (p7)) : KeepsO s0 (@execTwinBlockSettle p1 p2 p3 p4 p5 p6 p7) := by
  unfold execTwinBlockSettle
  extract_lets +onlyGivenNames -merge -underBinder x1
  try clear_value x1
  extract_lets +onlyGivenNames -merge -underBinder x2
  try clear_value x2
  extract_lets +onlyGivenNames -merge -underBinder x3
  try clear_value x3
  refine keepsO_ite (fun _ => ?_) (fun _ => ?_)
  · refine keepsO_next ?_
    exact hp7
  · extract_lets +onlyGivenNames -merge -underBinder x4
    have h5 : Keeps s0 (x4) := by
      unfold x4
      refine State.count_keeps ?_
      · exact hp7
    clear_value x4
    apply keeps_gen x4 h5
    clear h5
    intro x4 h5
    split
    · refine keepsO_next ?_
      exact hp7
    · refine keepsO_next ?_
      exact hp7
    · refine keepsO_next ?_
      refine State.judge_keeps ?_
      · refine State.count_keeps ?_
        · exact h5
    · refine keepsO_next ?_
      refine State.judgeBoth_keeps ?_
      · refine State.count_keeps ?_
        · exact h5
    · refine keepsO_next ?_
      refine State.judgeBoth_keeps ?_
      · exact h5
    · refine keepsO_next ?_
      refine State.judge_keeps ?_
      · refine State.count_keeps ?_
        · exact h5
    · refine keepsO_next ?_
      refine State.judgeBoth_keeps ?_
      · refine State.count_keeps ?_
        · exact h5
    · refine keepsO_next ?_
      refine State.lostBlock_keeps ?_
      · refine State.report_keeps ?_
        · refine State.mark_keeps ?_
          · exact h5
    · refine keepsO_next ?_
      refine State.tagDisagree_keeps ?_
      · exact hp7

theorem State.closeGroup_keeps {s0 : State} {p1 : Machine.State} {p2 : Nat} (hp1 : Keeps s0 (p1)) : Keeps s0 (@State.closeGroup p1 p2) := by
  unfold State.closeGroup
  extract_lets +onlyGivenNames -merge -underBinder x1
  have h2 : Keeps s0 (x1) := by
    unfold x1
    refine State.cutL1_keeps ?_
    · refine State.dropFailover_keeps ?_
      · refine State.endLease_keeps ?_
        · exact hp1
  clear_value x1
  apply keeps_gen x1 h2
  clear h2
  intro x1 h2
  extract_lets +onlyGivenNames -merge -underBinder x3
  have h4 : Keeps s0 (x3) := by
    unfold x3
    refine keeps_foldl ?_ (fun a x ha => ?_)
    · exact h2
    · skip
      refine keeps_ite (fun _ => ?_) (fun _ => ?_)
      · refine State.raceOff_keeps ?_
        · exact ha
      · exact ha
  clear_value x3
  apply keeps_gen x3 h4
  clear h4
  intro x3 h4
  refine State.degradedExit_keeps ?_
  · refine State.unmark_keeps ?_
    · refine State.unmark_keeps ?_
      · refine State.setWgrp_keeps ?_
        · exact h4

theorem execGroupDrainEnd_keeps {s0 : State} {p1 : Group} {p2 : Machine.State} (hp2 : Keeps s0 (p2)) : KeepsO s0 (@execGroupDrainEnd p1 p2) := by
  unfold execGroupDrainEnd
  refine keepsO_ite (fun _ => ?_) (fun _ => ?_)
  · refine keepsO_next ?_
    refine State.closeGroup_keeps ?_
    · exact hp2
  · refine keepsO_next ?_
    exact hp2

theorem execRcCtlTest_keeps {s0 : State} {p1 : RaceNo} {p2 : Machine.State} (hp2 : Keeps s0 (p2)) : KeepsO s0 (@execRcCtlTest p1 p2) := by
  unfold execRcCtlTest
  refine keepsO_next ?_
  refine State.testStart_keeps ?_
  · exact hp2

theorem execRcCtlFlagClr_keeps {s0 : State} {p1 : RaceNo} {p2 : Machine.State} (hp2 : Keeps s0 (p2)) : KeepsO s0 (@execRcCtlFlagClr p1 p2) := by
  unfold execRcCtlFlagClr
  refine keepsO_next ?_
  refine State.flagClear_keeps ?_
  · exact hp2

theorem execRaceTestDone_keeps {s0 : State} {p1 : RaceNo} {p2 : Bool} {p3 : Dir} {p4 : Fin 7} {p5 : Machine.State} (hp5 : Keeps s0 (p5)) : KeepsO s0 (@execRaceTestDone p1 p2 p3 p4 p5) := by
  unfold execRaceTestDone
  refine keepsO_ite (fun _ => ?_) (fun _ => ?_)
  · refine keepsO_next ?_
    exact hp5
  · extract_lets +onlyGivenNames -merge -underBinder x1
    try clear_value x1
    extract_lets +onlyGivenNames -merge -underBinder x2
    have h3 : Keeps s0 (x2) := by
      unfold x2
      refine State.mark_keeps ?_
      · refine State.setRstate_keeps ?_
        · exact hp5
    clear_value x2
    apply keeps_gen x2 h3
    clear h3
    intro x2 h3
    extract_lets +onlyGivenNames -merge -underBinder x4
    have h5 : Keeps s0 (x4) := by
      unfold x4
      refine keeps_ite (fun _ => ?_) (fun _ => ?_)
      · exact h3
      · refine State.katFail_keeps ?_
        · exact h3
    clear_value x4
    apply keeps_gen x4 h5
    clear h5
    intro x4 h5
    extract_lets +onlyGivenNames -merge -underBinder x6
    have h7 : Keeps s0 (x6) := by
      unfold x6
      refine State.setRace_keeps ?_
      · exact h5
    clear_value x6
    apply keeps_gen x6 h7
    clear h7
    intro x6 h7
    refine keepsO_next ?_
    refine keeps_ite (fun _ => ?_) (fun _ => ?_)
    · refine State.degradedExit_keeps ?_
      · refine State.wakeNamed_keeps ?_
        · exact h7
    · exact h7

theorem State.loseEntries_keeps {s0 : State} {p1 : Machine.State} {p2 : Nat} {p3 : List (Nat × BitVec 32)} (hp1 : Keeps s0 (p1)) : Keeps s0 (@State.loseEntries p1 p2 p3) := by
  unfold State.loseEntries
  extract_lets +onlyGivenNames -merge -underBinder x1
  try clear_value x1
  extract_lets +onlyGivenNames -merge -underBinder x2
  try clear_value x2
  extract_lets +onlyGivenNames -merge -underBinder x3
  try clear_value x3
  extract_lets +onlyGivenNames -merge -underBinder x4
  try clear_value x4
  refine State.takeReports_keeps hp1 ?_
  · refine keeps_foldl ?_ (fun a x ha => ?_)
    · refine State.setRingOf_keeps ?_
      · exact Keeps.refl _
    · skip
      extract_lets +onlyGivenNames -merge -underBinder x5
      try clear_value x5
      refine State.breach21_keeps ?_
      · refine State.ckptWordBad_keeps ?_
        · refine State.lose_keeps ?_
          · refine State.uncharge_keeps ?_
            · exact ha

theorem State.raisePn_keeps {s0 : State} {p1 : Machine.State} {p2 : Nat} {p3 : Nat} {p4 : Nat} (hp1 : Keeps s0 (p1)) : Keeps s0 (@State.raisePn p1 p2 p3 p4) := by
  unfold State.raisePn
  refine keeps_ite (fun _ => ?_) (fun _ => ?_)
  · refine State.count_keeps ?_
    · refine State.rwr_keeps ?_
      · exact hp1
  · exact hp1

theorem State.loadCopy_keeps {s0 : State} {p1 : Machine.State} {p2 : Nat} {p3 : Ckpt} (hp1 : Keeps s0 (p1)) : Keeps s0 (@State.loadCopy p1 p2 p3) := by
  unfold State.loadCopy
  extract_lets +onlyGivenNames -merge -underBinder x1
  have h2 : Keeps s0 (x1) := by
    unfold x1
    refine keeps_foldl ?_ (fun a x ha => ?_)
    · exact hp1
    · skip
      refine State.raisePn_keeps ?_
      · exact ha
  clear_value x1
  apply keeps_gen x1 h2
  clear h2
  intro x1 h2
  extract_lets +onlyGivenNames -merge -underBinder x3
  have h4 : Keeps s0 (x3) := by
    unfold x3
    refine keeps_foldl ?_ (fun a x ha => ?_)
    · exact h2
    · skip
      refine State.raisePn_keeps ?_
      · exact ha
  clear_value x3
  apply keeps_gen x3 h4
  clear h4
  intro x3 h4
  refine keeps_ite (fun _ => ?_) (fun _ => ?_)
  · refine State.mark_keeps ?_
    · exact h4
  · exact h4

theorem execFailoverCkptLoaded_keeps {s0 : State} {p1 : Group} {p2 : Option (BitVec 32)} {p3 : Option (BitVec 32)} {p4 : List (Nat × BitVec 32)} {p5 : Machine.State} (hp5 : Keeps s0 (p5)) : KeepsO s0 (@execFailoverCkptLoaded p1 p2 p3 p4 p5) := by
  unfold execFailoverCkptLoaded
  extract_lets +onlyGivenNames -merge -underBinder x1
  try clear_value x1
  split
  · refine keepsO_ite (fun _ => ?_) (fun _ => ?_)
    · split
      · extract_lets +onlyGivenNames -merge -underBinder x2
        have h3 : Keeps s0 (x2) := by
          unfold x2
          refine keeps_foldl ?_ (fun a x ha => ?_)
          · refine State.loseEntries_keeps ?_
            · refine State.setWgrp_keeps ?_
              · exact hp5
          · skip
            refine State.ckptWordBad_keeps ?_
            · exact ha
        clear_value x2
        apply keeps_gen x2 h3
        clear h3
        intro x2 h3
        extract_lets +onlyGivenNames -merge -underBinder x4
        have h5 : Keeps s0 (x4) := by
          unfold x4
          refine keeps_ite (fun _ => ?_) (fun _ => ?_)
          · refine State.mark_keeps ?_
            · exact h3
          · exact h3
        clear_value x4
        apply keeps_gen x4 h5
        clear h5
        intro x4 h5
        refine keepsO_next ?_
        split
        · refine State.loadCopy_keeps ?_
          · exact h5
        · exact h5
    · refine keepsO_next ?_
      exact hp5
  · refine keepsO_next ?_
    exact hp5

theorem execChannelJoin_keeps {s0 : State} {p1 : Channel} {p2 : Machine.State} (hp2 : Keeps s0 (p2)) : KeepsO s0 (@execChannelJoin p1 p2) := by
  unfold execChannelJoin
  extract_lets +onlyGivenNames -merge -underBinder x1
  try clear_value x1
  extract_lets +onlyGivenNames -merge -underBinder x2
  try clear_value x2
  refine keepsO_ite (fun _ => ?_) (fun _ => ?_)
  · refine keepsO_next ?_
    refine State.setWgrp_keeps ?_
    · exact hp2
  · refine keepsO_next ?_
    exact hp2

theorem execWeiFailclrWrite_keeps {s0 : State} {p1 : Word} {p2 : Machine.State} (hp2 : Keeps s0 (p2)) : KeepsO s0 (@execWeiFailclrWrite p1 p2) := by
  unfold execWeiFailclrWrite
  refine guardRsvd_keeps ?_
  · refine keepsO_next ?_
    refine State.failclrWrite_keeps ?_
    · exact hp2

theorem execCardGrant_keeps {s0 : State} {p1 : Word} {p2 : Word} {p3 : Machine.State} (hp3 : Keeps s0 (p3)) : KeepsO s0 (@execCardGrant p1 p2 p3) := by
  unfold execCardGrant
  refine guardRsvd_keeps ?_
  · refine keepsO_next ?_
    refine State.cardGrantWrite_keeps ?_
    · refine State.timeTo_keeps ?_
      · exact hp3

end Sys2Proof.Machine
end

