-- ==== Sys2Proof/Laws/KeepsLanes.lean ====
section
/-! SUPPORT. What the definitions of Sys2Proof/Machine/Lanes.lean keep: one lemma each, in the terms of `Keeps`. -/

namespace Sys2Proof.Machine

open Sys2Proof

theorem State.applyAsk_keeps {s0 : State} {p1 : Machine.State} {p2 : Nat} {p3 : Nat} (hp1 : Keeps s0 (p1)) : Keeps s0 (@State.applyAsk p1 p2 p3).1 := by
  unfold State.applyAsk
  refine keepsQ_ite (fun _ => ?_) (fun _ => ?_)
  · refine keepsQ_mk ?_
    refine State.setReg_keeps ?_
    · exact hp1
  · extract_lets +onlyGivenNames -merge -underBinder x1
    try clear_value x1
    extract_lets +onlyGivenNames -merge -underBinder x2
    try clear_value x2
    split
    · split
      · extract_lets +onlyGivenNames -merge -underBinder x3
        try clear_value x3
        refine keepsQ_mk ?_
        refine State.wr_keeps ?_
        · refine State.wr_keeps ?_
          · exact hp1

theorem State.setLink_keeps {s0 : State} {p1 : Machine.State} {p2 : Nat} {p3 : TssLink} (hp1 : Keeps s0 (p1)) : Keeps s0 (@State.setLink p1 p2 p3) := by
  unfold State.setLink
  exact keeps_upd hp1 rfl rfl rfl rfl rfl rfl rfl rfl rfl rfl rfl rfl (.inl rfl)

theorem State.cutRecord_keeps {s0 : State} {p1 : Machine.State} {p2 : Nat} (hp1 : Keeps s0 (p1)) : Keeps s0 (@State.cutRecord p1 p2) := by
  unfold State.cutRecord
  split
  · exact hp1
  · extract_lets +onlyGivenNames -merge -underBinder y2 x1
    try clear_value y2
    have h3 : Keeps s0 (x1) := by
      unfold x1
      refine State.setLink_keeps ?_
      · exact hp1
    clear_value x1
    apply keeps_gen x1 h3
    clear h3
    intro x1 h3
    refine keeps_ite (fun _ => ?_) (fun _ => ?_)
    · refine keeps_ite (fun _ => ?_) (fun _ => ?_)
      · refine State.count_keeps ?_
        · refine State.mark_keeps ?_
          · exact h3
      · exact h3
    · refine keeps_ite (fun _ => ?_) (fun _ => ?_)
      · refine State.count_keeps ?_
        · exact h3
      · exact h3

theorem State.setStream_keeps {s0 : State} {p1 : Machine.State} {p2 : Nat} {p3 : Nat} {p4 : GccStream} (hp1 : Keeps s0 (p1)) : Keeps s0 (@State.setStream p1 p2 p3 p4) := by
  unfold State.setStream
  exact keeps_upd hp1 rfl rfl rfl rfl rfl rfl rfl rfl rfl rfl rfl rfl (.inl rfl)

theorem State.dccRecord_keeps {s0 : State} {p1 : Machine.State} {p2 : Nat} {p3 : Octets} (hp1 : Keeps s0 (p1)) : Keeps s0 (@State.dccRecord p1 p2 p3) := by
  unfold State.dccRecord
  extract_lets +onlyGivenNames -merge -underBinder x1
  try clear_value x1
  extract_lets +onlyGivenNames -merge -underBinder x2
  try clear_value x2
  refine keeps_ite (fun _ => ?_) (fun _ => ?_)
  · exact hp1
  · refine keeps_ite (fun _ => ?_) (fun _ => ?_)
    · refine State.count_keeps ?_
      · exact hp1
    · extract_lets +onlyGivenNames -merge -underBinder x3
      try clear_value x3
      extract_lets +onlyGivenNames -merge -underBinder x4
      try clear_value x4
      extract_lets +onlyGivenNames -merge -underBinder x5
      try clear_value x5
      extract_lets +onlyGivenNames -merge -underBinder x6
      have h7 : Keeps s0 (x6) := by
        unfold x6
        refine State.setStream_keeps ?_
        · exact hp1
      clear_value x6
      apply keeps_gen x6 h7
      clear h7
      intro x6 h7
      refine keeps_ite (fun _ => ?_) (fun _ => ?_)
      · refine State.count_keeps ?_
        · exact h7
      · exact h7

theorem State.recordStep_keeps {s0 : State} {p1 : Machine.State} {p2 : Nat} {p3 : Octets} (hp1 : Keeps s0 (p1)) : KeepsO s0 (@State.recordStep p1 p2 p3) := by
  unfold State.recordStep
  extract_lets +onlyGivenNames -merge -underBinder y2 x1
  try clear_value y2
  have h3 : Keeps s0 (x1) := by
    unfold x1
    refine State.setLink_keeps ?_
    · exact hp1
  clear_value x1
  apply keeps_gen x1 h3
  clear h3
  intro x1 h3
  split
  · refine keepsO_next ?_
    refine State.cutRecord_keeps ?_
    · exact h3
  · refine keepsO_ite (fun _ => ?_) (fun _ => ?_)
    · refine keepsO_next ?_
      exact h3
    · extract_lets +onlyGivenNames -merge -underBinder y5 x4
      try clear_value y5
      have h6 : Keeps s0 (x4) := by
        unfold x4
        refine State.setLink_keeps ?_
        · exact hp1
      clear_value x4
      apply keeps_gen x4 h6
      clear h6
      intro x4 h6
      refine keepsO_ite (fun _ => ?_) (fun _ => ?_)
      · refine execMirrorRecordRx_keeps ?_
        · exact h6
      · refine keepsO_next ?_
        refine State.dccRecord_keeps ?_
        · exact h6

theorem State.setLane_keeps {s0 : State} {p1 : Machine.State} {p2 : Nat} {p3 : LaneRun} (hp1 : Keeps s0 (p1)) : Keeps s0 (@State.setLane p1 p2 p3) := by
  unfold State.setLane
  exact keeps_upd hp1 rfl rfl rfl rfl rfl rfl rfl rfl rfl rfl rfl rfl (.inl rfl)

theorem State.trainStop_keeps {s0 : State} {p1 : Machine.State} {p2 : Nat} (hp1 : Keeps s0 (p1)) : Keeps s0 (@State.trainStop p1 p2) := by
  unfold State.trainStop
  refine State.setLane_keeps ?_
  · exact hp1

theorem State.trainStart_keeps {s0 : State} {p1 : Machine.State} {p2 : Nat} (hp1 : Keeps s0 (p1)) : Keeps s0 (@State.trainStart p1 p2) := by
  unfold State.trainStart
  refine keeps_ite (fun _ => ?_) (fun _ => ?_)
  · refine State.unmark_keeps ?_
    · refine State.setLane_keeps ?_
      · exact hp1
  · exact hp1

theorem State.lnCtlWrite_keeps {s0 : State} {p1 : Machine.State} {p2 : Nat} {p3 : Word} (hp1 : Keeps s0 (p1)) : Keeps s0 (@State.lnCtlWrite p1 p2 p3) := by
  unfold State.lnCtlWrite
  refine keeps_ite (fun _ => ?_) (fun _ => ?_)
  · refine State.mark_keeps ?_
    · exact hp1
  · extract_lets +onlyGivenNames -merge -underBinder x1
    have h2 : Keeps s0 (x1) := by
      unfold x1
      refine State.plainWrite_keeps ?_
      · exact hp1
    clear_value x1
    apply keeps_gen x1 h2
    clear h2
    intro x1 h2
    refine keeps_ite (fun _ => ?_) (fun _ => ?_)
    · refine State.trainStop_keeps ?_
      · exact h2
    · refine keeps_ite (fun _ => ?_) (fun _ => ?_)
      · exact h2
      · refine State.trainStart_keeps ?_
        · exact h2

theorem State.txeqWrite_keeps {s0 : State} {p1 : Machine.State} {p2 : Nat} {p3 : Word} (hp1 : Keeps s0 (p1)) : Keeps s0 (@State.txeqWrite p1 p2 p3) := by
  unfold State.txeqWrite
  refine keeps_ite (fun _ => ?_) (fun _ => ?_)
  · refine State.mark_keeps ?_
    · exact hp1
  · refine State.plainWrite_keeps ?_
    · exact hp1

theorem State.lnMapWrite_keeps {s0 : State} {p1 : Machine.State} {p2 : Nat} {p3 : Word} (hp1 : Keeps s0 (p1)) : Keeps s0 (@State.lnMapWrite p1 p2 p3) := by
  unfold State.lnMapWrite
  extract_lets +onlyGivenNames -merge -underBinder x1
  try clear_value x1
  extract_lets +onlyGivenNames -merge -underBinder x2
  try clear_value x2
  refine keeps_ite (fun _ => ?_) (fun _ => ?_)
  · refine State.mark_keeps ?_
    · exact hp1
  · refine State.plainWrite_keeps ?_
    · exact hp1

theorem State.eyeWrite_keeps {s0 : State} {p1 : Machine.State} {p2 : Nat} {p3 : Word} (hp1 : Keeps s0 (p1)) : Keeps s0 (@State.eyeWrite p1 p2 p3) := by
  unfold State.eyeWrite
  extract_lets +onlyGivenNames -merge -underBinder x1
  have h2 : Keeps s0 (x1) := by
    unfold x1
    refine State.plainWrite_keeps ?_
    · exact hp1
  clear_value x1
  apply keeps_gen x1 h2
  clear h2
  intro x1 h2
  refine keeps_ite (fun _ => ?_) (fun _ => ?_)
  · exact h2
  · refine keeps_ite (fun _ => ?_) (fun _ => ?_)
    · refine State.mark_keeps ?_
      · exact h2
    · refine State.setLane_keeps ?_
      · refine State.mark_keeps ?_
        · exact h2

theorem State.setLinkLocked_keeps {s0 : State} {p1 : Machine.State} {p2 : Nat} {p3 : Nat} (hp1 : Keeps s0 (p1)) : Keeps s0 (@State.setLinkLocked p1 p2 p3) := by
  unfold State.setLinkLocked
  refine keeps_ite (fun _ => ?_) (fun _ => ?_)
  · refine State.wr_keeps ?_
    · exact hp1
  · refine State.wr_keeps ?_
    · exact hp1

theorem State.linkSearch_keeps {s0 : State} {p1 : Machine.State} {p2 : Nat} (hp1 : Keeps s0 (p1)) : Keeps s0 (@State.linkSearch p1 p2) := by
  unfold State.linkSearch
  refine State.setLink_keeps ?_
  · refine State.setLinkLocked_keeps ?_
    · refine State.cutRecord_keeps ?_
      · exact hp1

theorem State.dccctlWrite_keeps {s0 : State} {p1 : Machine.State} {p2 : Nat} {p3 : Word} (hp1 : Keeps s0 (p1)) : Keeps s0 (@State.dccctlWrite p1 p2 p3) := by
  unfold State.dccctlWrite
  extract_lets +onlyGivenNames -merge -underBinder x1
  have h2 : Keeps s0 (x1) := by
    unfold x1
    refine State.plainWrite_keeps ?_
    · exact hp1
  clear_value x1
  apply keeps_gen x1 h2
  clear h2
  intro x1 h2
  refine keeps_ite (fun _ => ?_) (fun _ => ?_)
  · refine State.linkSearch_keeps ?_
    · exact h2
  · exact h2

theorem execLnMapWrite_keeps {s0 : State} {p1 : Fin 37} {p2 : Word} {p3 : Machine.State} (hp3 : Keeps s0 (p3)) : KeepsO s0 (@execLnMapWrite p1 p2 p3) := by
  unfold execLnMapWrite
  refine guardRsvd_keeps ?_
  · refine keepsO_next ?_
    refine State.lnMapWrite_keeps ?_
    · exact hp3

theorem State.calFail_keeps {s0 : State} {p1 : Machine.State} {p2 : Nat} (hp1 : Keeps s0 (p1)) : Keeps s0 (@State.calFail p1 p2) := by
  unfold State.calFail
  refine State.report_keeps ?_
  · refine State.count_keeps ?_
    · refine State.mark_keeps ?_
      · exact hp1

theorem State.scanAbort_keeps {s0 : State} {p1 : Machine.State} {p2 : Nat} (hp1 : Keeps s0 (p1)) : Keeps s0 (@State.scanAbort p1 p2) := by
  unfold State.scanAbort
  refine keeps_ite (fun _ => ?_) (fun _ => ?_)
  · split
    · rename_i h3e
      have h3 : Keeps s0 _ := keeps_of_eq h3e (by
        refine State.draw_keeps ?_
        · exact hp1
        )
      refine State.setReg_keeps ?_
      · refine State.mark_keeps ?_
        · refine State.unmark_keeps ?_
          · exact h3
  · exact hp1

theorem State.laneStops_keeps {s0 : State} {p1 : Machine.State} {p2 : Nat} (hp1 : Keeps s0 (p1)) : Keeps s0 (@State.laneStops p1 p2) := by
  unfold State.laneStops
  extract_lets +onlyGivenNames -merge -underBinder x1
  have h2 : Keeps s0 (x1) := by
    unfold x1
    refine State.unmark_keeps ?_
    · refine State.unmark_keeps ?_
      · refine State.trainStop_keeps ?_
        · refine State.scanAbort_keeps ?_
          · exact hp1
  clear_value x1
  apply keeps_gen x1 h2
  clear h2
  intro x1 h2
  split
  · refine State.setLink_keeps ?_
    · refine State.cutRecord_keeps ?_
      · exact h2
  · exact h2

theorem State.laneMove_keeps {s0 : State} {p1 : Machine.State} {p2 : Nat} {p3 : Bool} (hp1 : Keeps s0 (p1)) : Keeps s0 (@State.laneMove p1 p2 p3) := by
  unfold State.laneMove
  extract_lets +onlyGivenNames -merge -underBinder x1
  try clear_value x1
  extract_lets +onlyGivenNames -merge -underBinder x2
  try clear_value x2
  refine keeps_ite (fun _ => ?_) (fun _ => ?_)
  · exact hp1
  · refine keeps_ite (fun _ => ?_) (fun _ => ?_)
    · refine State.calFail_keeps ?_
      · exact hp1
    · extract_lets +onlyGivenNames -merge -underBinder x3
      have h4 : Keeps s0 (x3) := by
        unfold x3
        refine State.wr_keeps ?_
        · refine keeps_ite (fun _ => ?_) (fun _ => ?_)
          · refine State.laneStops_keeps ?_
            · exact hp1
          · exact hp1
      clear_value x3
      apply keeps_gen x3 h4
      clear h4
      intro x3 h4
      refine keeps_ite (fun _ => ?_) (fun _ => ?_)
      · refine State.trainStart_keeps ?_
        · exact h4
      · exact h4

theorem State.trainEnd_keeps {s0 : State} {p1 : Machine.State} {p2 : Nat} (hp1 : Keeps s0 (p1)) : Keeps s0 (@State.trainEnd p1 p2) := by
  unfold State.trainEnd
  extract_lets +onlyGivenNames -merge -underBinder x1
  try clear_value x1
  refine keeps_ite (fun _ => ?_) (fun _ => ?_)
  · refine State.mark_keeps ?_
    · refine State.setLane_keeps ?_
      · exact hp1
  · exact hp1

theorem State.tssSend_keeps {s0 : State} {p1 : Machine.State} {p2 : Nat} {p3 : Octets} (hp1 : Keeps s0 (p1)) : Keeps s0 (@State.tssSend p1 p2 p3) := by
  unfold State.tssSend
  split
  · rename_i h3e
    have h3 : Keeps s0 _ := keeps_of_eq h3e (by
      refine State.draw_keeps ?_
      · exact hp1
      )
    extract_lets +onlyGivenNames -merge -underBinder x4
    try clear_value x4
    extract_lets +onlyGivenNames -merge -underBinder x5
    try clear_value x5
    refine State.emit_keeps ?_
    · exact h3

theorem State.linkAstray_keeps {s0 : State} {p1 : Machine.State} {p2 : Nat} (hp1 : Keeps s0 (p1)) : Keeps s0 (@State.linkAstray p1 p2) := by
  unfold State.linkAstray
  refine keeps_ite (fun _ => ?_) (fun _ => ?_)
  · refine State.mark_keeps ?_
    · exact hp1
  · refine State.mark_keeps ?_
    · exact hp1

theorem State.markerLocked_keeps {s0 : State} {p1 : Machine.State} {p2 : Nat} {p3 : Octets} (hp1 : Keeps s0 (p1)) : Keeps s0 (@State.markerLocked p1 p2 p3) := by
  unfold State.markerLocked
  extract_lets +onlyGivenNames -merge -underBinder x1
  try clear_value x1
  refine keeps_ite (fun _ => ?_) (fun _ => ?_)
  · extract_lets +onlyGivenNames -merge -underBinder x2
    try clear_value x2
    extract_lets +onlyGivenNames -merge -underBinder x3
    have h4 : Keeps s0 (x3) := by
      unfold x3
      refine State.setLink_keeps ?_
      · exact hp1
    clear_value x3
    apply keeps_gen x3 h4
    clear h4
    intro x3 h4
    refine keeps_ite (fun _ => ?_) (fun _ => ?_)
    · refine State.linkAstray_keeps ?_
      · exact h4
    · exact h4
  · extract_lets +onlyGivenNames -merge -underBinder x5
    have h6 : Keeps s0 (x5) := by
      unfold x5
      refine keeps_ite (fun _ => ?_) (fun _ => ?_)
      · refine State.count_keeps ?_
        · exact hp1
      · exact hp1
    clear_value x5
    apply keeps_gen x5 h6
    clear h6
    intro x5 h6
    refine keeps_ite (fun _ => ?_) (fun _ => ?_)
    · refine State.linkSearch_keeps ?_
      · exact h6
    · refine State.setLink_keeps ?_
      · exact h6

theorem State.linkInverted_keeps {s0 : State} {p1 : Machine.State} {p2 : Nat} (hp1 : Keeps s0 (p1)) : Keeps s0 (@State.linkInverted p1 p2) := by
  unfold State.linkInverted
  refine keeps_ite (fun _ => ?_) (fun _ => ?_)
  · extract_lets +onlyGivenNames -merge -underBinder x1
    try clear_value x1
    extract_lets +onlyGivenNames -merge -underBinder x2
    have h3 : Keeps s0 (x2) := by
      unfold x2
      refine State.mark_keeps ?_
      · exact hp1
    clear_value x2
    apply keeps_gen x2 h3
    clear h3
    intro x2 h3
    refine keeps_ite (fun _ => ?_) (fun _ => ?_)
    · refine State.linkSearch_keeps ?_
      · refine State.wr_keeps ?_
        · exact h3
    · exact h3
  · extract_lets +onlyGivenNames -merge -underBinder x4
    try clear_value x4
    extract_lets +onlyGivenNames -merge -underBinder x5
    have h6 : Keeps s0 (x5) := by
      unfold x5
      refine State.mark_keeps ?_
      · exact hp1
    clear_value x5
    apply keeps_gen x5 h6
    clear h6
    intro x5 h6
    refine keeps_ite (fun _ => ?_) (fun _ => ?_)
    · refine State.linkSearch_keeps ?_
      · refine State.wr_keeps ?_
        · exact h6
    · exact h6

theorem State.markerSearch_keeps {s0 : State} {p1 : Machine.State} {p2 : Nat} {p3 : Nat} {p4 : Octets} (hp1 : Keeps s0 (p1)) : Keeps s0 (@State.markerSearch p1 p2 p3 p4) := by
  unfold State.markerSearch
  extract_lets +onlyGivenNames -merge -underBinder x1
  try clear_value x1
  refine keeps_ite (fun _ => ?_) (fun _ => ?_)
  · exact hp1
  · refine keeps_ite (fun _ => ?_) (fun _ => ?_)
    · split
      · rename_i h4e
        have h4 : Keeps s0 _ := keeps_of_eq h4e (by
          refine State.draw_keeps ?_
          · exact hp1
          )
        refine State.markerLocked_keeps ?_
        · refine State.setLink_keeps ?_
          · refine State.setLinkLocked_keeps ?_
            · exact h4
    · refine State.setLink_keeps ?_
      · exact hp1

theorem execLnCtlWrite_keeps {s0 : State} {p1 : LaneNo} {p2 : Word} {p3 : Machine.State} (hp3 : Keeps s0 (p3)) : KeepsO s0 (@execLnCtlWrite p1 p2 p3) := by
  unfold execLnCtlWrite
  refine guardRsvd_keeps ?_
  · refine keepsO_next ?_
    refine State.lnCtlWrite_keeps ?_
    · exact hp3

theorem execCdrLockLoss_keeps {s0 : State} {p1 : LaneNo} {p2 : Machine.State} (hp2 : Keeps s0 (p2)) : KeepsO s0 (@execCdrLockLoss p1 p2) := by
  unfold execCdrLockLoss
  refine keepsO_ite (fun _ => ?_) (fun _ => ?_)
  · refine keepsO_next ?_
    exact hp2
  · extract_lets +onlyGivenNames -merge -underBinder x1
    have h2 : Keeps s0 (x1) := by
      unfold x1
      refine State.scanAbort_keeps ?_
      · refine State.count_keeps ?_
        · refine State.mark_keeps ?_
          · refine State.unmark_keeps ?_
            · exact hp2
    clear_value x1
    apply keeps_gen x1 h2
    clear h2
    intro x1 h2
    refine keepsO_next ?_
    refine keeps_ite (fun _ => ?_) (fun _ => ?_)
    · refine State.report_keeps ?_
      · exact h2
    · exact h2

theorem State.tssCount_keeps {s0 : State} {p1 : Machine.State} {p2 : CtrId} {p3 : Nat} {p4 : Nat} (hp1 : Keeps s0 (p1)) : Keeps s0 (@State.tssCount p1 p2 p3 p4) := by
  unfold State.tssCount
  refine keeps_ite (fun _ => ?_) (fun _ => ?_)
  · refine State.count_keeps ?_
    · exact hp1
  · exact hp1

theorem execCdrLockGain_keeps {s0 : State} {p1 : LaneNo} {p2 : Word} {p3 : Machine.State} (hp3 : Keeps s0 (p3)) : KeepsO s0 (@execCdrLockGain p1 p2 p3) := by
  unfold execCdrLockGain
  refine keepsO_ite (fun _ => ?_) (fun _ => ?_)
  · refine keepsO_next ?_
    refine State.mark_keeps ?_
    · refine State.laneMove_keeps ?_
      · refine State.timeTo_keeps ?_
        · exact hp3
  · refine keepsO_next ?_
    exact hp3

theorem State.tssBlock_keeps {s0 : State} {p1 : Machine.State} {p2 : Nat} {p3 : Nat} {p4 : Octets} (hp1 : Keeps s0 (p1)) : KeepsO s0 (@State.tssBlock p1 p2 p3 p4) := by
  unfold State.tssBlock
  refine keepsO_ite (fun _ => ?_) (fun _ => ?_)
  · refine keepsO_next ?_
    refine State.cutRecord_keeps ?_
    · refine State.tssCount_keeps ?_
      · exact hp1
  · split
    · refine State.recordStep_keeps ?_
      · refine State.cutRecord_keeps ?_
        · refine State.tssCount_keeps ?_
          · exact hp1
    · extract_lets +onlyGivenNames -merge -underBinder x1
      have h2 : Keeps s0 (x1) := by
        unfold x1
        refine State.tssCount_keeps ?_
        · exact hp1
      clear_value x1
      apply keeps_gen x1 h2
      clear h2
      intro x1 h2
      split
      · refine State.recordStep_keeps ?_
        · exact h2
      · refine keepsO_next ?_
        exact h2
    · refine keepsO_next ?_
      refine State.cutRecord_keeps ?_
      · refine State.tssCount_keeps ?_
        · exact hp1
    · refine keepsO_next ?_
      refine State.cutRecord_keeps ?_
      · refine State.tssCount_keeps ?_
        · exact hp1

theorem execTssBlockRx_keeps {s0 : State} {p1 : Fin 8} {p2 : List Bool} {p3 : Machine.State} (hp3 : Keeps s0 (p3)) : KeepsO s0 (@execTssBlockRx p1 p2 p3) := by
  unfold execTssBlockRx
  extract_lets +onlyGivenNames -merge -underBinder x1
  try clear_value x1
  split
  · refine keepsO_ite (fun _ => ?_) (fun _ => ?_)
    · refine keepsO_next ?_
      exact hp3
    · split
      · refine State.tssBlock_keeps ?_
        · refine State.setLink_keeps ?_
          · refine State.tssCount_keeps ?_
            · exact hp3

theorem execEyeScanStart_keeps {s0 : State} {p1 : LaneNo} {p2 : Word} {p3 : Machine.State} (hp3 : Keeps s0 (p3)) : KeepsO s0 (@execEyeScanStart p1 p2 p3) := by
  unfold execEyeScanStart
  refine guardRsvd_keeps ?_
  · refine keepsO_next ?_
    refine State.eyeWrite_keeps ?_
    · exact hp3

theorem execDccRecordRx_keeps {s0 : State} {p1 : Fin 4} {p2 : Octets} {p3 : Machine.State} (hp3 : Keeps s0 (p3)) : KeepsO s0 (@execDccRecordRx p1 p2 p3) := by
  unfold execDccRecordRx
  refine keepsO_next ?_
  refine State.dccRecord_keeps ?_
  · exact hp3

theorem execLanePstateReached_keeps {s0 : State} {p1 : LaneNo} {p2 : Bool} {p3 : Word} {p4 : Machine.State} (hp4 : Keeps s0 (p4)) : KeepsO s0 (@execLanePstateReached p1 p2 p3 p4) := by
  unfold execLanePstateReached
  refine keepsO_next ?_
  refine State.laneMove_keeps ?_
  · refine State.timeTo_keeps ?_
    · exact hp4

theorem execLnTxeqWrite_keeps {s0 : State} {p1 : LaneNo} {p2 : Word} {p3 : Machine.State} (hp3 : Keeps s0 (p3)) : KeepsO s0 (@execLnTxeqWrite p1 p2 p3) := by
  unfold execLnTxeqWrite
  refine guardRsvd_keeps ?_
  · refine keepsO_next ?_
    refine State.txeqWrite_keeps ?_
    · exact hp3

theorem execTrainingBlockRx_keeps {s0 s : State} {n : LaneNo} {a b ask : Byte} {taps : Option Word}
    (h : Keeps s0 s) : KeepsO s0 (execTrainingBlockRx n a b ask taps s) := by
  unfold execTrainingBlockRx
  refine keepsO_ite (fun _ => h) (fun _ => ?_)
  extract_lets done
  clear_value done
  refine keepsO_ite (fun _ => ?_) (fun _ => ?_)
  · refine State.trainEnd_keeps (State.setLane_keeps ?_)
    cases taps
    · exact h
    · exact keeps_ite (fun _ => State.plainWrite_keeps h) (fun _ => h)
  · refine keepsO_ite (fun _ => ?_) (fun _ => ?_)
    · exact State.trainEnd_keeps (State.emit_keeps (State.setLane_keeps h))
    · have h1 : Keeps s0 (s.applyAsk n b.toNat).1 := State.applyAsk_keeps h
      refine State.trainEnd_keeps (State.emit_keeps (State.setLane_keeps ?_))
      exact keeps_ite (fun _ => State.count_keeps h1) (fun _ => h1)

theorem execTrainingTimeout_keeps {s0 : State} {p1 : LaneNo} {p2 : Word} {p3 : Machine.State} (hp3 : Keeps s0 (p3)) : KeepsO s0 (@execTrainingTimeout p1 p2 p3) := by
  unfold execTrainingTimeout
  extract_lets +onlyGivenNames -merge -underBinder x1
  have h2 : Keeps s0 (x1) := by
    unfold x1
    refine State.timeTo_keeps ?_
    · exact hp3
  clear_value x1
  apply keeps_gen x1 h2
  clear h2
  intro x1 h2
  split
  · refine keepsO_ite (fun _ => ?_) (fun _ => ?_)
    · refine keepsO_next ?_
      refine State.mark_keeps ?_
      · refine State.trainStop_keeps ?_
        · exact h2
    · refine keepsO_next ?_
      exact h2
  · refine keepsO_next ?_
    exact h2

theorem execEyeScanEnd_keeps {s0 : State} {p1 : LaneNo} {p2 : Nat} {p3 : Machine.State} (hp3 : Keeps s0 (p3)) : KeepsO s0 (@execEyeScanEnd p1 p2 p3) := by
  unfold execEyeScanEnd
  refine keepsO_ite (fun _ => ?_) (fun _ => ?_)
  · refine keepsO_next ?_
    refine State.wr_keeps ?_
    · refine State.wr_keeps ?_
      · refine State.unmark_keeps ?_
        · exact hp3
  · refine keepsO_next ?_
    exact hp3

theorem State.markerRun_keeps {s0 : State} {p1 : Machine.State} {p2 : Nat} {p3 : Octets} (hp1 : Keeps s0 (p1)) : Keeps s0 (@State.markerRun p1 p2 p3) := by
  unfold State.markerRun
  extract_lets +onlyGivenNames -merge -underBinder x1
  try clear_value x1
  extract_lets +onlyGivenNames -merge -underBinder x2
  try clear_value x2
  refine State.setLink_keeps ?_
  · exact hp1

theorem execTssMarkerPosition_keeps {s0 : State} {p1 : Fin 8} {p2 : Nat} {p3 : Octets} {p4 : Machine.State} (hp4 : Keeps s0 (p4)) : KeepsO s0 (@execTssMarkerPosition p1 p2 p3 p4) := by
  unfold execTssMarkerPosition
  refine keepsO_ite (fun _ => ?_) (fun _ => ?_)
  · refine keepsO_next ?_
    exact hp4
  · extract_lets +onlyGivenNames -merge -underBinder x1
    have h2 : Keeps s0 (x1) := by
      unfold x1
      refine keeps_ite (fun _ => ?_) (fun _ => ?_)
      · refine State.linkInverted_keeps ?_
        · exact hp4
      · exact hp4
    clear_value x1
    apply keeps_gen x1 h2
    clear h2
    intro x1 h2
    refine keepsO_next ?_
    refine State.markerRun_keeps ?_
    · refine keeps_ite (fun _ => ?_) (fun _ => ?_)
      · refine State.markerLocked_keeps ?_
        · exact h2
      · refine State.markerSearch_keeps ?_
        · exact h2

end Sys2Proof.Machine
end

