-- ==== Sys2Proof/Laws/KeepsFramers.lean ====
section
/-! SUPPORT. What the definitions of Sys2Proof/Machine/Framers.lean keep: one lemma each, in the terms of `Keeps`. -/

namespace Sys2Proof.Machine

open Sys2Proof

theorem State.setOtuc_keeps {s0 : State} {p1 : Machine.State} {p2 : Nat} {p3 : Nat} {p4 : OtucRx} (hp1 : Keeps s0 (p1)) : Keeps s0 (@State.setOtuc p1 p2 p3 p4) := by
  unfold State.setOtuc
  exact keeps_upd hp1 rfl rfl rfl rfl rfl rfl rfl rfl rfl rfl rfl rfl (.inl rfl)

theorem State.otucStep_keeps {s0 : State} {p1 : Machine.State} {p2 : Nat} {p3 : Nat} {p4 : List (Fin 16320)} {p5 : Nat} (hp1 : Keeps s0 (p1)) : Keeps s0 (@State.otucStep p1 p2 p3 p4 p5) := by
  unfold State.otucStep
  extract_lets +onlyGivenNames -merge -underBinder x1
  try clear_value x1
  extract_lets +onlyGivenNames -merge -underBinder x2
  try clear_value x2
  extract_lets +onlyGivenNames -merge -underBinder x3
  try clear_value x3
  extract_lets +onlyGivenNames -merge -underBinder y5 x4
  try clear_value y5
  try clear_value x4
  extract_lets +onlyGivenNames -merge -underBinder x6
  have h7 : Keeps s0 (x6) := by
    unfold x6
    refine keeps_ite (fun _ => ?_) (fun _ => ?_)
    · refine State.count_keeps ?_
      · exact hp1
    · exact hp1
  clear_value x6
  apply keeps_gen x6 h7
  clear h7
  intro x6 h7
  extract_lets +onlyGivenNames -merge -underBinder x8
  have h9 : Keeps s0 (x8) := by
    unfold x8
    refine keeps_ite (fun _ => ?_) (fun _ => ?_)
    · refine State.count_keeps ?_
      · exact h7
    · exact h7
  clear_value x8
  apply keeps_gen x8 h9
  clear h9
  intro x8 h9
  extract_lets +onlyGivenNames -merge -underBinder x10
  try clear_value x10
  extract_lets +onlyGivenNames -merge -underBinder x11
  try clear_value x11
  refine State.setOtuc_keeps ?_
  · exact h9

theorem State.gaugeStop_keeps {s0 : State} {p1 : Machine.State} {p2 : Nat} (hp1 : Keeps s0 (p1)) : Keeps s0 (@State.gaugeStop p1 p2) := by
  unfold State.gaugeStop
  extract_lets +onlyGivenNames -merge -underBinder y2 x1
  try clear_value y2
  have h3 : Keeps s0 (x1) := by
    unfold x1
    exact keeps_upd hp1 rfl rfl rfl rfl rfl rfl rfl rfl rfl rfl rfl rfl (.inl rfl)
  clear_value x1
  apply keeps_gen x1 h3
  clear h3
  intro x1 h3
  refine State.unmark_keeps ?_
  · exact h3

theorem State.defect_keeps {s0 : State} {p1 : Machine.State} {p2 : Nat} {p3 : Nat} {p4 : Bool} (hp1 : Keeps s0 (p1)) : Keeps s0 (@State.defect p1 p2 p3 p4) := by
  unfold State.defect
  extract_lets +onlyGivenNames -merge -underBinder x1
  try clear_value x1
  extract_lets +onlyGivenNames -merge -underBinder x2
  try clear_value x2
  refine State.setReg_keeps ?_
  · exact hp1

theorem State.leaveFrame_keeps {s0 : State} {p1 : Machine.State} {p2 : Nat} (hp1 : Keeps s0 (p1)) : Keeps s0 (@State.leaveFrame p1 p2) := by
  unfold State.leaveFrame
  refine keeps_ite (fun _ => ?_) (fun _ => ?_)
  · refine State.farLose_keeps ?_
    · refine State.unmark_keeps ?_
      · exact hp1
  · exact hp1

theorem State.refreshDefects_keeps {s0 : State} {p1 : Machine.State} {p2 : Nat} (hp1 : Keeps s0 (p1)) : Keeps s0 (@State.refreshDefects p1 p2) := by
  unfold State.refreshDefects
  extract_lets +onlyGivenNames -merge -underBinder x1
  try clear_value x1
  extract_lets +onlyGivenNames -merge -underBinder x2
  have h3 : Keeps s0 (x2) := by
    unfold x2
    refine State.defect_keeps ?_
    · exact hp1
  clear_value x2
  apply keeps_gen x2 h3
  clear h3
  intro x2 h3
  extract_lets +onlyGivenNames -merge -underBinder x4
  have h5 : Keeps s0 (x4) := by
    unfold x4
    refine State.defect_keeps ?_
    · exact h3
  clear_value x4
  apply keeps_gen x4 h5
  clear h5
  intro x4 h5
  extract_lets +onlyGivenNames -merge -underBinder x6
  have h7 : Keeps s0 (x6) := by
    unfold x6
    refine State.defect_keeps ?_
    · exact h5
  clear_value x6
  apply keeps_gen x6 h7
  clear h7
  intro x6 h7
  refine State.defect_keeps ?_
  · exact h7

theorem State.rxRestart_keeps {s0 : State} {p1 : Machine.State} {p2 : Nat} (hp1 : Keeps s0 (p1)) : Keeps s0 (@State.rxRestart p1 p2) := by
  unfold State.rxRestart
  extract_lets +onlyGivenNames -merge -underBinder x1
  try clear_value x1
  extract_lets +onlyGivenNames -merge -underBinder x2
  have h3 : Keeps s0 (x2) := by
    unfold x2
    refine keeps_foldl ?_ (fun a x ha => ?_)
    · exact hp1
    · skip
      extract_lets +onlyGivenNames -merge -underBinder x4
      try clear_value x4
      extract_lets +onlyGivenNames -merge -underBinder y6 x5
      try clear_value y6
      have h7 : Keeps s0 (x5) := by
        unfold x5
        exact keeps_upd ha rfl rfl rfl rfl rfl rfl rfl rfl rfl rfl rfl rfl (.inl rfl)
      clear_value x5
      apply keeps_gen x5 h7
      clear h7
      intro x5 h7
      refine State.setOtuc_keeps ?_
      · exact h7
  clear_value x2
  apply keeps_gen x2 h3
  clear h3
  intro x2 h3
  extract_lets +onlyGivenNames -merge -underBinder x8
  have h9 : Keeps s0 (x8) := by
    unfold x8
    refine keeps_foldl ?_ (fun a x ha => ?_)
    · refine State.leaveFrame_keeps ?_
      · exact h3
    · skip
      refine State.defect_keeps ?_
      · exact ha
  clear_value x8
  apply keeps_gen x8 h9
  clear h9
  intro x8 h9
  refine keeps_foldl ?_ (fun a x ha => ?_)
  · refine State.refreshDefects_keeps ?_
    · exact h9
  · skip
    refine keeps_ite (fun _ => ?_) (fun _ => ?_)
    · extract_lets +onlyGivenNames -merge -underBinder x10
      have h11 : Keeps s0 (x10) := by
        unfold x10
        refine keeps_ite (fun _ => ?_) (fun _ => ?_)
        · refine State.unlock_keeps ?_
          · exact ha
        · exact ha
      clear_value x10
      apply keeps_gen x10 h11
      clear h11
      intro x10 h11
      refine State.setL1_keeps ?_
      · exact h11
    · exact ha

theorem State.mapCommit_keeps {s0 : State} {p1 : Machine.State} {p2 : Nat} (hp1 : Keeps s0 (p1)) : Keeps s0 (@State.mapCommit p1 p2) := by
  unfold State.mapCommit
  refine keeps_ite (fun _ => ?_) (fun _ => ?_)
  · refine State.mark_keeps ?_
    · exact hp1
  · refine State.mark_keeps ?_
    · exact keeps_upd hp1 rfl rfl rfl rfl rfl rfl rfl rfl rfl rfl rfl rfl (.inl rfl)

theorem State.frmCtlWrite_keeps {s0 : State} {p1 : Machine.State} {p2 : Nat} {p3 : Word} (hp1 : Keeps s0 (p1)) : Keeps s0 (@State.frmCtlWrite p1 p2 p3) := by
  unfold State.frmCtlWrite
  refine keeps_ite (fun _ => ?_) (fun _ => ?_)
  · refine State.mark_keeps ?_
    · exact hp1
  · extract_lets +onlyGivenNames -merge -underBinder x1
    try clear_value x1
    extract_lets +onlyGivenNames -merge -underBinder x2
    try clear_value x2
    extract_lets +onlyGivenNames -merge -underBinder x3
    have h4 : Keeps s0 (x3) := by
      unfold x3
      refine State.plainWrite_keeps ?_
      · exact hp1
    clear_value x3
    apply keeps_gen x3 h4
    clear h4
    intro x3 h4
    extract_lets +onlyGivenNames -merge -underBinder x5
    have h6 : Keeps s0 (x5) := by
      unfold x5
      refine keeps_ite (fun _ => ?_) (fun _ => ?_)
      · refine State.gaugeStop_keeps ?_
        · exact h4
      · exact h4
    clear_value x5
    apply keeps_gen x5 h6
    clear h6
    intro x5 h6
    extract_lets +onlyGivenNames -merge -underBinder x7
    have h8 : Keeps s0 (x7) := by
      unfold x7
      refine keeps_ite (fun _ => ?_) (fun _ => ?_)
      · refine State.rxRestart_keeps ?_
        · exact h6
      · exact h6
    clear_value x7
    apply keeps_gen x7 h8
    clear h8
    intro x7 h8
    refine keeps_ite (fun _ => ?_) (fun _ => ?_)
    · refine State.mapCommit_keeps ?_
      · exact h8
    · exact h8

theorem execFrmCtlWrite_keeps {s0 : State} {p1 : Group} {p2 : Word} {p3 : Machine.State} (hp3 : Keeps s0 (p3)) : KeepsO s0 (@execFrmCtlWrite p1 p2 p3) := by
  unfold execFrmCtlWrite
  refine guardRsvd_keeps ?_
  · refine keepsO_ite (fun _ => ?_) (fun _ => ?_)
    · exact keepsO_fault
    · refine keepsO_next ?_
      refine State.frmCtlWrite_keeps ?_
      · exact hp3

theorem State.gposWrite_keeps {s0 : State} {p1 : Machine.State} {p2 : Nat} {p3 : Word} (hp1 : Keeps s0 (p1)) : Keeps s0 (@State.gposWrite p1 p2 p3) := by
  unfold State.gposWrite
  extract_lets +onlyGivenNames -merge -underBinder x1
  try clear_value x1
  refine keeps_ite (fun _ => ?_) (fun _ => ?_)
  · refine State.mark_keeps ?_
    · exact hp1
  · refine State.plainWrite_keeps ?_
    · exact hp1

theorem execFrmGposWrite_keeps {s0 : State} {p1 : Group} {p2 : Word} {p3 : Machine.State} (hp3 : Keeps s0 (p3)) : KeepsO s0 (@execFrmGposWrite p1 p2 p3) := by
  unfold execFrmGposWrite
  extract_lets +onlyGivenNames -merge -underBinder x1
  have h2 : Keeps s0 (x1) := by
    unfold x1
    refine State.gposWrite_keeps ?_
    · exact hp3
  clear_value x1
  apply keeps_gen x1 h2
  clear h2
  intro x1 h2
  refine guardRsvd_keeps ?_
  · refine keepsO_ite (fun _ => ?_) (fun _ => ?_)
    · exact keepsO_fault
    · refine keepsO_next ?_
      exact h2

theorem State.cportWrite_keeps {s0 : State} {p1 : Machine.State} {p2 : Nat} {p3 : Nat} {p4 : Word} (hp1 : Keeps s0 (p1)) : Keeps s0 (@State.cportWrite p1 p2 p3 p4) := by
  unfold State.cportWrite
  refine keeps_ite (fun _ => ?_) (fun _ => ?_)
  · refine State.mark_keeps ?_
    · exact hp1
  · refine State.plainWrite_keeps ?_
    · exact hp1

theorem execFrmCportWrite_keeps {s0 : State} {p1 : Group} {p2 : Fin 4} {p3 : Word} {p4 : Machine.State} (hp4 : Keeps s0 (p4)) : KeepsO s0 (@execFrmCportWrite p1 p2 p3 p4) := by
  unfold execFrmCportWrite
  extract_lets +onlyGivenNames -merge -underBinder x1
  have h2 : Keeps s0 (x1) := by
    unfold x1
    refine State.cportWrite_keeps ?_
    · exact hp4
  clear_value x1
  apply keeps_gen x1 h2
  clear h2
  intro x1 h2
  refine guardRsvd_keeps ?_
  · refine keepsO_ite (fun _ => ?_) (fun _ => ?_)
    · exact keepsO_fault
    · refine keepsO_next ?_
      exact h2

theorem execFrmCooposWrite_keeps {s0 : State} {p1 : Group} {p2 : Word} {p3 : Machine.State} (hp3 : Keeps s0 (p3)) : KeepsO s0 (@execFrmCooposWrite p1 p2 p3) := by
  unfold execFrmCooposWrite
  extract_lets +onlyGivenNames -merge -underBinder x1
  have h2 : Keeps s0 (x1) := by
    unfold x1
    refine State.cooposWrite_keeps ?_
    · exact hp3
  clear_value x1
  apply keeps_gen x1 h2
  clear h2
  intro x1 h2
  refine guardRsvd_keeps ?_
  · refine keepsO_ite (fun _ => ?_) (fun _ => ?_)
    · exact keepsO_fault
    · refine keepsO_next ?_
      exact h2

theorem State.dstrWrite_keeps {s0 : State} {p1 : Machine.State} {p2 : Nat} {p3 : Nat} {p4 : Word} (hp1 : Keeps s0 (p1)) : Keeps s0 (@State.dstrWrite p1 p2 p3 p4) := by
  unfold State.dstrWrite
  refine keeps_ite (fun _ => ?_) (fun _ => ?_)
  · refine State.mark_keeps ?_
    · exact hp1
  · extract_lets +onlyGivenNames -merge -underBinder x1
    have h2 : Keeps s0 (x1) := by
      unfold x1
      refine State.plainWrite_keeps ?_
      · exact hp1
    clear_value x1
    apply keeps_gen x1 h2
    clear h2
    intro x1 h2
    refine keeps_ite (fun _ => ?_) (fun _ => ?_)
    · refine State.setStream_keeps ?_
      · exact h2
    · exact h2

theorem execFrmDstrWrite_keeps {s0 : State} {p1 : Fin 4} {p2 : Fin 16} {p3 : Word} {p4 : Machine.State} (hp4 : Keeps s0 (p4)) : KeepsO s0 (@execFrmDstrWrite p1 p2 p3 p4) := by
  unfold execFrmDstrWrite
  extract_lets +onlyGivenNames -merge -underBinder x1
  have h2 : Keeps s0 (x1) := by
    unfold x1
    refine State.dstrWrite_keeps ?_
    · exact hp4
  clear_value x1
  apply keeps_gen x1 h2
  clear h2
  intro x1 h2
  extract_lets +onlyGivenNames -merge -underBinder x3
  try clear_value x3
  refine guardRsvd_keeps ?_
  · refine keepsO_ite (fun _ => ?_) (fun _ => ?_)
    · exact keepsO_fault
    · refine keepsO_next ?_
      exact h2

theorem execLomTimer_keeps {s0 : State} {p1 : Group} {p2 : Fin 8} {p3 : Word} {p4 : Machine.State} (hp4 : Keeps s0 (p4)) : KeepsO s0 (@execLomTimer p1 p2 p3 p4) := by
  unfold execLomTimer
  extract_lets +onlyGivenNames -merge -underBinder x1
  have h2 : Keeps s0 (x1) := by
    unfold x1
    refine State.timeTo_keeps ?_
    · exact hp4
  clear_value x1
  apply keeps_gen x1 h2
  clear h2
  intro x1 h2
  extract_lets +onlyGivenNames -merge -underBinder x3
  try clear_value x3
  refine keepsO_ite (fun _ => ?_) (fun _ => ?_)
  · refine keepsO_next ?_
    refine State.refreshDefects_keeps ?_
    · refine State.setOtuc_keeps ?_
      · exact h2
  · refine keepsO_next ?_
    exact h2

theorem State.msiStep_keeps {s0 : State} {p1 : Machine.State} {p2 : Nat} {p3 : List (Fin 160)} (hp1 : Keeps s0 (p1)) : Keeps s0 (@State.msiStep p1 p2 p3) := by
  unfold State.msiStep
  extract_lets +onlyGivenNames -merge -underBinder x1
  have h2 : Keeps s0 (x1) := by
    unfold x1
    refine keeps_foldl ?_ (fun a x ha => ?_)
    · exact hp1
    · skip
      extract_lets +onlyGivenNames -merge -underBinder x3
      try clear_value x3
      exact keeps_upd ha rfl rfl rfl rfl rfl rfl rfl rfl rfl rfl rfl rfl (.inl rfl)
  clear_value x1
  apply keeps_gen x1 h2
  clear h2
  intro x1 h2
  refine keeps_foldl ?_ (fun a x ha => ?_)
  · exact h2
  · skip
    refine keeps_ite (fun _ => ?_) (fun _ => ?_)
    · extract_lets +onlyGivenNames -merge -underBinder x4
      try clear_value x4
      extract_lets +onlyGivenNames -merge -underBinder x5
      try clear_value x5
      extract_lets +onlyGivenNames -merge -underBinder x6
      try clear_value x6
      refine keeps_ite (fun _ => ?_) (fun _ => ?_)
      · refine State.chDefect_keeps ?_
        · exact ha
      · refine keeps_ite (fun _ => ?_) (fun _ => ?_)
        · refine State.chDefect_keeps ?_
          · exact ha
        · exact ha
    · exact ha

theorem State.uncount_keeps {s0 : State} {p1 : Machine.State} {p2 : CtrId} {p3 : Nat} {p4 : Nat} (hp1 : Keeps s0 (p1)) : Keeps s0 (@State.uncount p1 p2 p3 p4) := by
  unfold State.uncount
  extract_lets +onlyGivenNames -merge -underBinder x1
  try clear_value x1
  exact keeps_tables hp1 rfl rfl rfl rfl rfl rfl rfl (fun x => ⟨x.1, x.2.1, by exact Tbl.rising_set x.2.2⟩) rfl

theorem State.mapTake_keeps {s0 : State} {p1 : Machine.State} {p2 : Nat} (hp1 : Keeps s0 (p1)) : Keeps s0 (@State.mapTake p1 p2) := by
  unfold State.mapTake
  extract_lets +onlyGivenNames -merge -underBinder x1
  try clear_value x1
  extract_lets +onlyGivenNames -merge -underBinder y3 x2
  try clear_value y3
  have h4 : Keeps s0 (x2) := by
    unfold x2
    exact keeps_upd hp1 rfl rfl rfl rfl rfl rfl rfl rfl rfl rfl rfl rfl (.inl rfl)
  clear_value x2
  apply keeps_gen x2 h4
  clear h4
  intro x2 h4
  extract_lets +onlyGivenNames -merge -underBinder x5
  have h6 : Keeps s0 (x5) := by
    unfold x5
    refine keeps_foldl ?_ (fun a x ha => ?_)
    · exact h4
    · skip
      extract_lets +onlyGivenNames -merge -underBinder x7
      try clear_value x7
      extract_lets +onlyGivenNames -merge -underBinder y9 x8
      try clear_value y9
      have h10 : Keeps s0 (x8) := by
        unfold x8
        refine keeps_ite (fun _ => ?_) (fun _ => ?_)
        · exact keeps_upd ha rfl rfl rfl rfl rfl rfl rfl rfl rfl rfl rfl rfl (.inl rfl)
        · exact ha
      clear_value x8
      apply keeps_gen x8 h10
      clear h10
      intro x8 h10
      refine State.setReg_keeps ?_
      · exact h10
  clear_value x5
  apply keeps_gen x5 h6
  clear h6
  intro x5 h6
  refine State.unmark_keeps ?_
  · exact h6

theorem State.moveRun_keeps {s0 : State} {p1 : Machine.State} {p2 : Nat} {p3 : List (Bool × Bool)} {p4 : Bool} (hp1 : Keeps s0 (p1)) : Keeps s0 (@State.moveRun p1 p2 p3 p4) := by
  unfold State.moveRun
  refine keeps_foldl ?_ (fun a x ha => ?_)
  · exact hp1
  · skip
    extract_lets +onlyGivenNames -merge -underBinder x1
    try clear_value x1
    extract_lets +onlyGivenNames -merge -underBinder x2
    try clear_value x2
    extract_lets +onlyGivenNames -merge -underBinder x3
    try clear_value x3
    refine keeps_ite (fun _ => ?_) (fun _ => ?_)
    · refine State.count_keeps ?_
      · refine State.uncount_keeps ?_
        · refine State.uncount_keeps ?_
          · exact ha
    · extract_lets +onlyGivenNames -merge -underBinder x4
      have h5 : Keeps s0 (x4) := by
        unfold x4
        refine State.uncount_keeps ?_
        · exact ha
      clear_value x4
      apply keeps_gen x4 h5
      clear h5
      intro x4 h5
      refine keeps_ite (fun _ => ?_) (fun _ => ?_)
      · refine State.count_keeps ?_
        · exact h5
      · exact h5

theorem State.pathSecond_keeps {s0 : State} {p1 : Machine.State} {p2 : Nat} {p3 : Bool} {p4 : Bool} (hp1 : Keeps s0 (p1)) : Keeps s0 (@State.pathSecond p1 p2 p3 p4) := by
  unfold State.pathSecond
  extract_lets +onlyGivenNames -merge -underBinder x1
  try clear_value x1
  extract_lets +onlyGivenNames -merge -underBinder x2
  have h3 : ∀ q4 q5, Keeps s0 (q4) → Keeps s0 (x2 q4 q5) := by
    intro q4 q5 hq4
    unfold x2
    exact keeps_upd hq4 rfl rfl rfl rfl rfl rfl rfl rfl rfl rfl rfl rfl (.inl rfl)
  try clear_value x2
  refine keeps_ite (fun _ => ?_) (fun _ => ?_)
  · extract_lets +onlyGivenNames -merge -underBinder x6
    have h7 : Keeps s0 (x6) := by
      unfold x6
      refine State.count_keeps ?_
      · exact hp1
    clear_value x6
    apply keeps_gen x6 h7
    clear h7
    intro x6 h7
    refine keeps_ite (fun _ => ?_) (fun _ => ?_)
    · refine h3 _ _ ?_
      · exact h7
    · extract_lets +onlyGivenNames -merge -underBinder x8
      try clear_value x8
      refine keeps_ite (fun _ => ?_) (fun _ => ?_)
      · refine h3 _ _ ?_
        · refine State.moveRun_keeps ?_
          · exact h7
      · refine h3 _ _ ?_
        · exact h7
  · extract_lets +onlyGivenNames -merge -underBinder x9
    have h10 : Keeps s0 (x9) := by
      unfold x9
      refine keeps_ite (fun _ => ?_) (fun _ => ?_)
      · refine State.count_keeps ?_
        · exact hp1
      · exact hp1
    clear_value x9
    apply keeps_gen x9 h10
    clear h10
    intro x9 h10
    extract_lets +onlyGivenNames -merge -underBinder x11
    have h12 : Keeps s0 (x11) := by
      unfold x11
      refine keeps_ite (fun _ => ?_) (fun _ => ?_)
      · refine State.count_keeps ?_
        · exact h10
      · exact h10
    clear_value x11
    apply keeps_gen x11 h12
    clear h12
    intro x11 h12
    refine keeps_ite (fun _ => ?_) (fun _ => ?_)
    · refine h3 _ _ ?_
      · exact h12
    · extract_lets +onlyGivenNames -merge -underBinder x13
      try clear_value x13
      refine keeps_ite (fun _ => ?_) (fun _ => ?_)
      · refine h3 _ _ ?_
        · refine State.moveRun_keeps ?_
          · exact h12
      · refine h3 _ _ ?_
        · exact h12

theorem State.secondEnds_keeps {s0 : State} {p1 : Machine.State} {p2 : List (Nat × Bool × Nat × Nat × Bool)} (hp1 : Keeps s0 (p1)) : Keeps s0 (@State.secondEnds p1 p2) := by
  unfold State.secondEnds
  refine keeps_foldl ?_ (fun a x ha => ?_)
  · exact hp1
  · skip
    refine keeps_foldl ?_ (fun a x ha => ?_)
    · exact ha
    · skip
      extract_lets +onlyGivenNames -merge -underBinder x1
      try clear_value x1
      split
      · extract_lets +onlyGivenNames -merge -underBinder x2
        try clear_value x2
        refine State.pathSecond_keeps ?_
        · exact ha

theorem State.pathBin_keeps {s0 : State} {p1 : Machine.State} {p2 : Nat} (hp1 : Keeps s0 (p1)) : Keeps s0 (@State.pathBin p1 p2) := by
  unfold State.pathBin
  extract_lets +onlyGivenNames -merge -underBinder x1
  try clear_value x1
  extract_lets +onlyGivenNames -merge -underBinder x2
  try clear_value x2
  extract_lets +onlyGivenNames -merge -underBinder y4 x3
  try clear_value y4
  have h5 : Keeps s0 (x3) := by
    unfold x3
    exact keeps_upd hp1 rfl rfl rfl rfl rfl rfl rfl rfl rfl rfl rfl rfl (.inl rfl)
  clear_value x3
  apply keeps_gen x3 h5
  clear h5
  intro x3 h5
  refine keeps_foldl ?_ (fun a x ha => ?_)
  · exact h5
  · skip
    extract_lets +onlyGivenNames -merge -underBinder x6
    try clear_value x6
    extract_lets +onlyGivenNames -merge -underBinder x7
    have h8 : ∀ q9 q10 q11, Keeps s0 (q9) → Keeps s0 (x7 q9 q10 q11) := by
      intro q9 q10 q11 hq9
      unfold x7
      exact keeps_tables hq9 rfl rfl rfl rfl rfl rfl rfl (fun x => ⟨x.1, x.2.1, by exact Tbl.rising_set x.2.2⟩) rfl
    try clear_value x7
    refine h8 _ _ _ ?_
    · refine h8 _ _ _ ?_
      · exact ha

theorem execPmBinBoundary_keeps {s0 : State} {p1 : Word} {p2 : Machine.State} (hp2 : Keeps s0 (p2)) : KeepsO s0 (@execPmBinBoundary p1 p2) := by
  unfold execPmBinBoundary
  extract_lets +onlyGivenNames -merge -underBinder x1
  have h2 : Keeps s0 (x1) := by
    unfold x1
    refine State.timeTo_keeps ?_
    · exact hp2
  clear_value x1
  apply keeps_gen x1 h2
  clear h2
  intro x1 h2
  extract_lets +onlyGivenNames -merge -underBinder x3
  try clear_value x3
  refine keepsO_ite (fun _ => ?_) (fun _ => ?_)
  · extract_lets +onlyGivenNames -merge -underBinder y5 x4
    try clear_value y5
    have h6 : Keeps s0 (x4) := by
      unfold x4
      exact keeps_upd h2 rfl rfl rfl rfl rfl rfl rfl rfl rfl rfl rfl rfl (.inl rfl)
    clear_value x4
    apply keeps_gen x4 h6
    clear h6
    intro x4 h6
    refine keepsO_next ?_
    refine keeps_foldl ?_ (fun a x ha => ?_)
    · exact h6
    · skip
      refine keeps_ite (fun _ => ?_) (fun _ => ?_)
      · refine State.pathBin_keeps ?_
        · refine State.pathBin_keeps ?_
          · exact ha
      · exact ha
  · refine keepsO_next ?_
    exact h2

theorem execMapCommit_keeps {s0 : State} {p1 : Group} {p2 : Machine.State} (hp2 : Keeps s0 (p2)) : KeepsO s0 (@execMapCommit p1 p2) := by
  unfold execMapCommit
  refine keepsO_ite (fun _ => ?_) (fun _ => ?_)
  · exact keepsO_fault
  · refine keepsO_next ?_
    refine State.mapCommit_keeps ?_
    · exact hp2

theorem State.refreshIf_keeps {s0 : State} {p1 : Machine.State} {p2 : Nat} {p3 : Bool} (hp1 : Keeps s0 (p1)) : Keeps s0 (@State.refreshIf p1 p2 p3) := by
  unfold State.refreshIf
  extract_lets +onlyGivenNames -merge -underBinder x1
  try clear_value x1
  extract_lets +onlyGivenNames -merge -underBinder x2
  try clear_value x2
  extract_lets +onlyGivenNames -merge -underBinder x3
  try clear_value x3
  refine keeps_ite (fun _ => ?_) (fun _ => ?_)
  · refine State.leaveFrame_keeps ?_
    · exact hp1
  · refine keeps_ite (fun _ => ?_) (fun _ => ?_)
    · exact hp1
    · refine keeps_ite (fun _ => ?_) (fun _ => ?_)
      · refine State.mark_keeps ?_
        · exact hp1
      · refine State.leaveFrame_keeps ?_
        · exact hp1

theorem execOtucFrameRx_keeps {s0 : State} {p1 : Group} {p2 : Fin 8} {p3 : List (Fin 16320)} {p4 : Byte} {p5 : BitVec 5} {p6 : Option (List (Fin 160))} {p7 : Bool} {p8 : Word} {p9 : Machine.State} (hp9 : Keeps s0 (p9)) : KeepsO s0 (@execOtucFrameRx p1 p2 p3 p4 p5 p6 p7 p8 p9) := by
  unfold execOtucFrameRx
  extract_lets +onlyGivenNames -merge -underBinder x1
  have h2 : Keeps s0 (x1) := by
    unfold x1
    refine State.timeTo_keeps ?_
    · exact hp9
  clear_value x1
  apply keeps_gen x1 h2
  clear h2
  intro x1 h2
  extract_lets +onlyGivenNames -merge -underBinder x3
  try clear_value x3
  extract_lets +onlyGivenNames -merge -underBinder x4
  try clear_value x4
  refine keepsO_ite (fun _ => ?_) (fun _ => ?_)
  · refine keepsO_next ?_
    exact h2
  · extract_lets +onlyGivenNames -merge -underBinder x5
    try clear_value x5
    extract_lets +onlyGivenNames -merge -underBinder x6
    have h7 : Keeps s0 (x6) := by
      unfold x6
      refine State.otucStep_keeps ?_
      · exact h2
    clear_value x6
    apply keeps_gen x6 h7
    clear h7
    intro x6 h7
    extract_lets +onlyGivenNames -merge -underBinder x8
    have h9 : Keeps s0 (x8) := by
      unfold x8
      refine keeps_ite (fun _ => ?_) (fun _ => ?_)
      · refine keeps_foldl ?_ (fun a x ha => ?_)
        · exact h7
        · skip
          refine State.defect_keeps ?_
          · exact ha
      · exact h7
    clear_value x8
    apply keeps_gen x8 h9
    clear h9
    intro x8 h9
    extract_lets +onlyGivenNames -merge -underBinder x10
    try clear_value x10
    extract_lets +onlyGivenNames -merge -underBinder x11
    have h12 : Keeps s0 (x11) := by
      unfold x11
      refine State.refreshIf_keeps ?_
      · refine keeps_ite (fun _ => ?_) (fun _ => ?_)
        · refine State.defect_keeps ?_
          · exact h9
        · exact h9
    clear_value x11
    apply keeps_gen x11 h12
    clear h12
    intro x11 h12
    refine keepsO_next ?_
    split
    · refine keeps_ite (fun _ => ?_) (fun _ => ?_)
      · refine State.msiStep_keeps ?_
        · exact h12
      · exact h12
    · exact h12

theorem execLofTimer_keeps {s0 : State} {p1 : Group} {p2 : Fin 8} {p3 : Word} {p4 : Machine.State} (hp4 : Keeps s0 (p4)) : KeepsO s0 (@execLofTimer p1 p2 p3 p4) := by
  unfold execLofTimer
  extract_lets +onlyGivenNames -merge -underBinder x1
  have h2 : Keeps s0 (x1) := by
    unfold x1
    refine State.timeTo_keeps ?_
    · exact hp4
  clear_value x1
  apply keeps_gen x1 h2
  clear h2
  intro x1 h2
  extract_lets +onlyGivenNames -merge -underBinder x3
  try clear_value x3
  refine keepsO_ite (fun _ => ?_) (fun _ => ?_)
  · refine keepsO_next ?_
    refine State.refreshDefects_keeps ?_
    · refine State.setOtuc_keeps ?_
      · exact h2
  · refine keepsO_next ?_
    exact h2

theorem execGccExtract_keeps {s0 : State} {p1 : Fin 4} {p2 : Fin 16} {p3 : Octets} {p4 : Machine.State} (hp4 : Keeps s0 (p4)) : KeepsO s0 (@execGccExtract p1 p2 p3 p4) := by
  unfold execGccExtract
  refine keepsO_ite (fun _ => ?_) (fun _ => ?_)
  · refine keepsO_next ?_
    exact hp4
  · extract_lets +onlyGivenNames -merge -underBinder x1
    try clear_value x1
    extract_lets +onlyGivenNames -merge -underBinder x2
    try clear_value x2
    refine keepsO_ite (fun _ => ?_) (fun _ => ?_)
    · refine keepsO_next ?_
      refine State.count_keeps ?_
      · refine State.setStream_keeps ?_
        · exact hp4
    · refine keepsO_next ?_
      refine State.setStream_keeps ?_
      · exact hp4

theorem execDccRecordTx_keeps {s0 : State} {p1 : Fin 4} {p2 : Machine.State} (hp2 : Keeps s0 (p2)) : KeepsO s0 (@execDccRecordTx p1 p2) := by
  unfold execDccRecordTx
  extract_lets +onlyGivenNames -merge -underBinder x1
  try clear_value x1
  split
  · refine keepsO_ite (fun _ => ?_) (fun _ => ?_)
    · refine keepsO_next ?_
      exact hp2
    · split
      · extract_lets +onlyGivenNames -merge -underBinder y3 x2
        try clear_value y3
        have h4 : Keeps s0 (x2) := by
          unfold x2
          refine State.setStream_keeps ?_
          · exact hp2
        clear_value x2
        apply keeps_gen x2 h4
        clear h4
        intro x2 h4
        extract_lets +onlyGivenNames -merge -underBinder y6 x5
        try clear_value y6
        have h7 : Keeps s0 (x5) := by
          unfold x5
          exact keeps_upd h4 rfl rfl rfl rfl rfl rfl rfl rfl rfl rfl rfl rfl (.inl rfl)
        clear_value x5
        apply keeps_gen x5 h7
        clear h7
        intro x5 h7
        extract_lets +onlyGivenNames -merge -underBinder x8
        try clear_value x8
        refine keepsO_next ?_
        refine State.tssSend_keeps ?_
        · refine State.emit_keeps ?_
          · exact h7
      · refine keepsO_next ?_
        exact hp2
  · refine keepsO_next ?_
    exact hp2

theorem execGccInsert_keeps {s0 : State} {p1 : Fin 4} {p2 : Fin 16} {p3 : Machine.State} (hp3 : Keeps s0 (p3)) : KeepsO s0 (@execGccInsert p1 p2 p3) := by
  unfold execGccInsert
  extract_lets +onlyGivenNames -merge -underBinder x1
  try clear_value x1
  extract_lets +onlyGivenNames -merge -underBinder x2
  try clear_value x2
  refine keepsO_ite (fun _ => ?_) (fun _ => ?_)
  · refine keepsO_next ?_
    exact hp3
  · split
    · refine keepsO_next ?_
      refine State.emit_keeps ?_
      · refine State.setStream_keeps ?_
        · exact hp3
    · refine keepsO_next ?_
      refine State.emit_keeps ?_
      · refine State.count_keeps ?_
        · exact hp3
    · refine keepsO_next ?_
      refine State.emit_keeps ?_
      · exact hp3

theorem execPmSecond_keeps {s0 : State} {p1 : List (Nat × Bool × Nat × Nat × Bool)} {p2 : Word} {p3 : Machine.State} (hp3 : Keeps s0 (p3)) : KeepsO s0 (@execPmSecond p1 p2 p3) := by
  unfold execPmSecond
  extract_lets +onlyGivenNames -merge -underBinder x1
  have h2 : Keeps s0 (x1) := by
    unfold x1
    refine State.timeTo_keeps ?_
    · exact hp3
  clear_value x1
  apply keeps_gen x1 h2
  clear h2
  intro x1 h2
  extract_lets +onlyGivenNames -merge -underBinder x3
  try clear_value x3
  refine keepsO_ite (fun _ => ?_) (fun _ => ?_)
  · refine keepsO_next ?_
    refine State.secondEnds_keeps ?_
    · exact keeps_upd h2 rfl rfl rfl rfl rfl rfl rfl rfl rfl rfl rfl rfl (.inl rfl)
  · refine keepsO_next ?_
    exact h2

theorem execFlexoFrameRx_keeps {s0 : State} {p1 : Group} {p2 : Fin 8} {p3 : Bool} {p4 : BitVec 20} {p5 : Byte} {p6 : Nat} {p7 : Nat} {p8 : Machine.State} (hp8 : Keeps s0 (p8)) : KeepsO s0 (@execFlexoFrameRx p1 p2 p3 p4 p5 p6 p7 p8) := by
  unfold execFlexoFrameRx
  extract_lets +onlyGivenNames -merge -underBinder x1
  try clear_value x1
  refine keepsO_ite (fun _ => ?_) (fun _ => ?_)
  · refine keepsO_next ?_
    exact hp8
  · extract_lets +onlyGivenNames -merge -underBinder x2
    have h3 : Keeps s0 (x2) := by
      unfold x2
      refine State.count_keeps ?_
      · refine State.count_keeps ?_
        · exact hp8
    clear_value x2
    apply keeps_gen x2 h3
    clear h3
    intro x2 h3
    extract_lets +onlyGivenNames -merge -underBinder x4
    try clear_value x4
    extract_lets +onlyGivenNames -merge -underBinder y6 x5
    try clear_value y6
    have h7 : Keeps s0 (x5) := by
      unfold x5
      exact keeps_upd h3 rfl rfl rfl rfl rfl rfl rfl rfl rfl rfl rfl rfl (.inl rfl)
    clear_value x5
    apply keeps_gen x5 h7
    clear h7
    intro x5 h7
    extract_lets +onlyGivenNames -merge -underBinder x8
    try clear_value x8
    extract_lets +onlyGivenNames -merge -underBinder x9
    try clear_value x9
    extract_lets +onlyGivenNames -merge -underBinder x10
    have h11 : Keeps s0 (x10) := by
      unfold x10
      refine keeps_ite (fun _ => ?_) (fun _ => ?_)
      · exact h7
      · refine State.setOtuc_keeps ?_
        · refine keeps_ite (fun _ => ?_) (fun _ => ?_)
          · refine State.count_keeps ?_
            · exact h7
          · exact h7
    clear_value x10
    apply keeps_gen x10 h11
    clear h11
    intro x10 h11
    refine keepsO_next ?_
    refine State.refreshIf_keeps ?_
    · refine State.refreshDefects_keeps ?_
      · exact h11

end Sys2Proof.Machine
end

