-- ==== Sys2Proof/Laws/KeepsFrameStart.lean ====
section
/-! SUPPORT. What the definitions of Sys2Proof/Machine/FrameStart.lean keep: one lemma each, in the terms of `Keeps`. -/

namespace Sys2Proof.Machine

open Sys2Proof

theorem State.waitsDue_keeps {s0 : State} {p1 : Machine.State} {p2 : Nat} {p3 : Word} (hp1 : Keeps s0 (p1)) : Keeps s0 (@State.waitsDue p1 p2 p3) := by
  unfold State.waitsDue
  refine keeps_foldl ?_ (fun a x ha => ?_)
  · exact hp1
  · skip
    split
    · refine keeps_ite (fun _ => ?_) (fun _ => ?_)
      · refine State.waitgDone_keeps ?_
        · exact ha
      · exact ha
    · exact ha

theorem State.gaugeAt_keeps {s0 : State} {p1 : Machine.State} {p2 : Nat} {p3 : Nat} (hp1 : Keeps s0 (p1)) : Keeps s0 (@State.gaugeAt p1 p2 p3) := by
  unfold State.gaugeAt
  refine State.setReg_keeps ?_
  · refine State.setReg_keeps ?_
    · exact hp1

theorem State.mirrorSend_keeps {s0 : State} {p1 : Machine.State} {p2 : Nat} (hp1 : Keeps s0 (p1)) : Keeps s0 (@State.mirrorSend p1 p2) := by
  unfold State.mirrorSend
  refine keeps_ite (fun _ => ?_) (fun _ => ?_)
  · refine State.count_keeps ?_
    · refine State.tssSend_keeps ?_
      · refine State.emit_keeps ?_
        · exact hp1
  · exact hp1

theorem State.framePeriod_keeps {s0 : State} {p1 : Machine.State} {p2 : Nat} (hp1 : Keeps s0 (p1)) : Keeps s0 (@State.framePeriod p1 p2) := by
  unfold State.framePeriod
  extract_lets +onlyGivenNames -merge -underBinder x1
  have h2 : Keeps s0 (x1) := by
    unfold x1
    split
    · refine State.setReg_keeps ?_
      · exact hp1
    · exact hp1
  clear_value x1
  apply keeps_gen x1 h2
  clear h2
  intro x1 h2
  exact keeps_upd h2 rfl rfl rfl rfl rfl rfl rfl rfl rfl rfl rfl rfl (.inl rfl)

theorem State.multiframeAfter_keeps {s0 : State} {p1 : Machine.State} {p2 : Nat} {p3 : Nat} (hp1 : Keeps s0 (p1)) : Keeps s0 (@State.multiframeAfter p1 p2 p3) := by
  unfold State.multiframeAfter
  refine keeps_ite (fun _ => ?_) (fun _ => ?_)
  · extract_lets +onlyGivenNames -merge -underBinder x1
    have h2 : Keeps s0 (x1) := by
      unfold x1
      refine State.mirrorSend_keeps ?_
      · refine State.framePeriod_keeps ?_
        · exact hp1
    clear_value x1
    apply keeps_gen x1 h2
    clear h2
    intro x1 h2
    refine keeps_ite (fun _ => ?_) (fun _ => ?_)
    · extract_lets +onlyGivenNames -merge -underBinder x3
      have h4 : Keeps s0 (x3) := by
        unfold x3
        refine keeps_ite (fun _ => ?_) (fun _ => ?_)
        · refine State.snapshot_keeps ?_
          · exact h2
        · exact h2
      clear_value x3
      apply keeps_gen x3 h4
      clear h4
      intro x3 h4
      exact keeps_upd h4 rfl rfl rfl rfl rfl rfl rfl rfl rfl rfl rfl rfl (.inl rfl)
    · exact h2
  · exact hp1

theorem State.renew_keeps {s0 : State} {p1 : Machine.State} {p2 : Nat} {p3 : Nat} (hp1 : Keeps s0 (p1)) : Keeps s0 (@State.renew p1 p2 p3) := by
  unfold State.renew
  refine keeps_ite (fun _ => ?_) (fun _ => ?_)
  · refine keeps_ite (fun _ => ?_) (fun _ => ?_)
    · exact hp1
    · refine State.wr_keeps ?_
      · refine State.setWgrp_keeps ?_
        · exact hp1
  · refine State.grantAtFrame_keeps ?_
    · exact hp1

theorem State.staleWrites_keeps {s0 : State} {p1 : Machine.State} {p2 : Nat} {p3 : List RaceNo} (hp1 : Keeps s0 (p1)) : Keeps s0 (@State.staleWrites p1 p2 p3) := by
  unfold State.staleWrites
  refine keeps_foldl ?_ (fun a x ha => ?_)
  · exact hp1
  · skip
    refine keeps_ite (fun _ => ?_) (fun _ => ?_)
    · refine State.mark_keeps ?_
      · refine State.count_keeps ?_
        · exact ha
    · exact ha

theorem State.checkpoint_keeps {s0 : State} {p1 : Machine.State} {p2 : Nat} {p3 : Nat} (hp1 : Keeps s0 (p1)) : Keeps s0 (@State.checkpoint p1 p2 p3) := by
  unfold State.checkpoint
  extract_lets +onlyGivenNames -merge -underBinder x1
  try clear_value x1
  refine keeps_ite (fun _ => ?_) (fun _ => ?_)
  · extract_lets +onlyGivenNames -merge -underBinder x2
    try clear_value x2
    refine State.setWgrp_keeps ?_
    · exact hp1
  · refine State.setWgrp_keeps ?_
    · exact hp1

theorem State.armedSwitches_keeps {s0 : State} {p1 : Machine.State} {p2 : Nat} (hp1 : Keeps s0 (p1)) : Keeps s0 (@State.armedSwitches p1 p2) := by
  unfold State.armedSwitches
  extract_lets +onlyGivenNames -merge -underBinder x1
  have h2 : Keeps s0 (x1) := by
    unfold x1
    refine keeps_foldl ?_ (fun a x ha => ?_)
    · exact hp1
    · skip
      refine keeps_ite (fun _ => ?_) (fun _ => ?_)
      · refine State.tryL1Switch_keeps ?_
        · exact ha
      · exact ha
  clear_value x1
  apply keeps_gen x1 h2
  clear h2
  intro x1 h2
  refine keeps_foldl ?_ (fun a x ha => ?_)
  · exact h2
  · skip
    refine keeps_ite (fun _ => ?_) (fun _ => ?_)
    · refine State.tryFrameSwitch_keeps ?_
      · exact ha
    · exact ha

theorem State.frameWork_keeps {s0 : State} {p1 : Machine.State} {p2 : Nat} {p3 : Nat} {p4 : List RaceNo} (hp1 : Keeps s0 (p1)) : Keeps s0 (@State.frameWork p1 p2 p3 p4) := by
  unfold State.frameWork
  extract_lets +onlyGivenNames -merge -underBinder x1
  have h2 : Keeps s0 (x1) := by
    unfold x1
    refine State.renew_keeps ?_
    · refine State.staleWrites_keeps ?_
      · refine State.checkpoint_keeps ?_
        · refine State.armedSwitches_keeps ?_
          · exact hp1
  clear_value x1
  apply keeps_gen x1 h2
  clear h2
  intro x1 h2
  refine State.refillMappers_keeps ?_
  · refine State.refillPolicers_keeps ?_
    · refine State.refillShapers_keeps ?_
      · exact h2

theorem State.multiframeBefore_keeps {s0 : State} {p1 : Machine.State} {p2 : Nat} {p3 : Nat} (hp1 : Keeps s0 (p1)) : Keeps s0 (@State.multiframeBefore p1 p2 p3) := by
  unfold State.multiframeBefore
  refine keeps_ite (fun _ => ?_) (fun _ => ?_)
  · refine State.mapTake_keeps ?_
    · exact hp1
  · exact hp1

theorem State.gaugeSend_keeps {s0 : State} {p1 : Machine.State} {p2 : Nat} {p3 : Nat} (hp1 : Keeps s0 (p1)) : Keeps s0 (@State.gaugeSend p1 p2 p3) := by
  unfold State.gaugeSend
  extract_lets +onlyGivenNames -merge -underBinder x1
  have h2 : Keeps s0 (x1) := by
    unfold x1
    refine State.emit_keeps ?_
    · exact hp1
  clear_value x1
  apply keeps_gen x1 h2
  clear h2
  intro x1 h2
  extract_lets +onlyGivenNames -merge -underBinder x3
  try clear_value x3
  extract_lets +onlyGivenNames -merge -underBinder x4
  have h5 : Keeps s0 (x4) := by
    unfold x4
    refine State.emit_keeps ?_
    · exact h2
  clear_value x4
  apply keeps_gen x4 h5
  clear h5
  intro x4 h5
  refine keeps_ite (fun _ => ?_) (fun _ => ?_)
  · refine State.emit_keeps ?_
    · exact h5
  · exact h5

theorem execEpochStart_keeps {s0 : State} {p1 : Group} {p2 : Word} {p3 : Machine.State} (hp3 : Keeps s0 (p3)) : KeepsO s0 (@execEpochStart p1 p2 p3) := by
  unfold execEpochStart
  extract_lets +onlyGivenNames -merge -underBinder x1
  have h2 : Keeps s0 (x1) := by
    unfold x1
    refine State.timeTo_keeps ?_
    · exact hp3
  clear_value x1
  apply keeps_gen x1 h2
  clear h2
  intro x1 h2
  refine keepsO_ite (fun _ => ?_) (fun _ => ?_)
  · refine keepsO_next ?_
    exact h2
  · extract_lets +onlyGivenNames -merge -underBinder x3
    try clear_value x3
    extract_lets +onlyGivenNames -merge -underBinder x4
    have h5 : Keeps s0 (x4) := by
      unfold x4
      refine State.wr_keeps ?_
      · refine State.mark_keeps ?_
        · exact h2
    clear_value x4
    apply keeps_gen x4 h5
    clear h5
    intro x4 h5
    extract_lets +onlyGivenNames -merge -underBinder y7 x6
    try clear_value y7
    have h8 : Keeps s0 (x6) := by
      unfold x6
      refine State.setWgrp_keeps ?_
      · refine State.setReg_keeps ?_
        · exact h5
    clear_value x6
    apply keeps_gen x6 h8
    clear h8
    intro x6 h8
    extract_lets +onlyGivenNames -merge -underBinder x9
    have h10 : Keeps s0 (x9) := by
      unfold x9
      refine keeps_ite (fun _ => ?_) (fun _ => ?_)
      · refine State.mark_keeps ?_
        · exact h8
      · exact h8
    clear_value x9
    apply keeps_gen x9 h10
    clear h10
    intro x9 h10
    extract_lets +onlyGivenNames -merge -underBinder x11
    have h12 : Keeps s0 (x11) := by
      unfold x11
      refine State.multiframeAfter_keeps ?_
      · refine State.frameWork_keeps ?_
        · refine State.multiframeBefore_keeps ?_
          · refine State.gaugeAt_keeps ?_
            · exact h10
    clear_value x11
    apply keeps_gen x11 h12
    clear h12
    intro x11 h12
    refine keepsO_next ?_
    refine State.compareFirst_keeps ?_
    · refine State.gaugeSend_keeps ?_
      · exact h12

theorem execGaugeFrameStart_keeps {s0 : State} {p1 : Group} {p2 : List RaceNo} {p3 : Word} {p4 : Machine.State} (hp4 : Keeps s0 (p4)) : KeepsO s0 (@execGaugeFrameStart p1 p2 p3 p4) := by
  unfold execGaugeFrameStart
  extract_lets +onlyGivenNames -merge -underBinder x1
  have h2 : Keeps s0 (x1) := by
    unfold x1
    refine State.timeTo_keeps ?_
    · exact hp4
  clear_value x1
  apply keeps_gen x1 h2
  clear h2
  intro x1 h2
  refine keepsO_ite (fun _ => ?_) (fun _ => ?_)
  · refine keepsO_next ?_
    exact h2
  · extract_lets +onlyGivenNames -merge -underBinder x3
    try clear_value x3
    extract_lets +onlyGivenNames -merge -underBinder x4
    have h5 : Keeps s0 (x4) := by
      unfold x4
      refine State.multiframeAfter_keeps ?_
      · refine State.frameWork_keeps ?_
        · refine State.multiframeBefore_keeps ?_
          · refine State.gaugeAt_keeps ?_
            · exact h2
    clear_value x4
    apply keeps_gen x4 h5
    clear h5
    intro x4 h5
    refine keepsO_next ?_
    refine State.waitsDue_keeps ?_
    · refine State.dispatchDue_keeps ?_
      · refine State.gaugeSend_keeps ?_
        · exact h5

end Sys2Proof.Machine
end

