-- ==== Sys2Proof/Laws/KeepsSpring.lean ====
section
/-! SUPPORT. What the definitions of Sys2Proof/Machine/Spring.lean keep: one lemma each, in the terms of `Keeps`. -/

namespace Sys2Proof.Machine

open Sys2Proof

theorem State.kderCounted_keeps {s0 : State} {p1 : Machine.State} {p2 : Nat} {p3 : Nat} (hp1 : Keeps s0 (p1)) : Keeps s0 (@State.kderCounted p1 p2 p3) := by
  unfold State.kderCounted
  refine keeps_ite (fun _ => ?_) (fun _ => ?_)
  · refine State.count_keeps ?_
    · exact hp1
  · refine keeps_ite (fun _ => ?_) (fun _ => ?_)
    · refine State.count_keeps ?_
      · exact hp1
    · refine keeps_ite (fun _ => ?_) (fun _ => ?_)
      · refine State.count_keeps ?_
        · exact hp1
      · exact hp1

theorem kderAccept_keeps {s0 : State} {p1 : EngineOp} {p2 : Machine.State} (hp2 : Keeps s0 (p2)) : Keeps s0 (@kderAccept p1 p2).2 := by
  unfold kderAccept
  extract_lets +onlyGivenNames -merge -underBinder x1
  try clear_value x1
  extract_lets +onlyGivenNames -merge -underBinder x2
  have h3 : ∀ q4, Keeps s0 (x2 q4).2 := by
    intro q4 
    unfold x2
    refine keepsP_mk ?_
    refine State.kderCounted_keeps ?_
    · exact hp2
  try clear_value x2
  refine keepsP_ite (fun _ => ?_) (fun _ => ?_)
  · exact h3 _
  · split
    · exact h3 _
    · refine keepsP_ite (fun _ => ?_) (fun _ => ?_)
      · exact h3 _
      · refine keepsP_ite (fun _ => ?_) (fun _ => ?_)
        · exact h3 _
        · refine keepsP_ite (fun _ => ?_) (fun _ => ?_)
          · exact h3 _
          · refine keepsP_mk ?_
            exact hp2

theorem State.kder_keeps {s0 : State} {p1 : Machine.State} {p2 : Nat} {p3 : Nat} {p4 : Nat} {p5 : Nat} (hp1 : Keeps s0 (p1)) : KeepsO s0 (@State.kder p1 p2 p3 p4 p5) := by
  unfold State.kder
  refine State.engineCall_keeps ?_ ?_
  · exact hp1
  · intro q1 q2 hq2
    refine kderAccept_keeps ?_
    · exact hq2

theorem execMkaDerive_keeps {s0 : State} {p1 : ThreadNo} {p2 : BitVec 8} {p3 : GReg} {p4 : Machine.State} (hp4 : Keeps s0 (p4)) : KeepsO s0 (@execMkaDerive p1 p2 p3 p4) := by
  unfold execMkaDerive
  refine State.kder_keeps ?_
  · exact hp4

theorem State.kderWith_keeps {s0 : State} {p1 : Machine.State} {p2 : List (Nat × Bool)} {p3 : KderRes × Machine.State} (hp1 : Keeps s0 (p1)) (hp3 : Keeps s0 (p3).2) : Keeps s0 (@State.kderWith p1 p2 p3).2 := by
  unfold State.kderWith
  split
  · refine keepsP_mk ?_
    exact hp1
  · exact hp3

theorem State.setSession_keeps {s0 : State} {p1 : Machine.State} {p2 : Nat} {p3 : Option Session} (hp1 : Keeps s0 (p1)) : Keeps s0 (@State.setSession p1 p2 p3) := by
  unfold State.setSession
  extract_lets +onlyGivenNames -merge -underBinder x1
  try clear_value x1
  refine State.wr_keeps ?_
  · exact keeps_upd hp1 rfl rfl rfl rfl rfl rfl rfl rfl rfl rfl rfl rfl (.inl rfl)

theorem State.writeRoot_keeps {s0 : State} {p1 : Machine.State} {p2 : Octets} {p3 : Nat} {p4 : Session} {p5 : Octets} {p6 : Nat} {p7 : Octets} (hp1 : Keeps s0 (p1)) : Keeps s0 (@State.writeRoot p1 p2 p3 p4 p5 p6 p7).2 := by
  unfold State.writeRoot
  extract_lets +onlyGivenNames -merge -underBinder x1
  try clear_value x1
  extract_lets +onlyGivenNames -merge -underBinder x2
  have h3 : Keeps s0 (x2) := by
    unfold x2
    refine State.writeKey_keeps ?_
    · exact hp1
  clear_value x2
  apply keeps_gen x2 h3
  clear h3
  intro x2 h3
  extract_lets +onlyGivenNames -merge -underBinder x4
  have h5 : Keeps s0 (x4) := by
    unfold x4
    refine State.count_keeps ?_
    · refine State.setSession_keeps ?_
      · exact h3
  clear_value x4
  apply keeps_gen x4 h5
  clear h5
  intro x4 h5
  refine keepsP_mk ?_
  exact h5

theorem State.closeSession_keeps {s0 : State} {p1 : Machine.State} {p2 : Nat} (hp1 : Keeps s0 (p1)) : Keeps s0 (@State.closeSession p1 p2) := by
  unfold State.closeSession
  split
  · refine State.count_keeps ?_
    · refine State.setSession_keeps ?_
      · exact hp1
  · exact hp1

theorem State.failSession_keeps {s0 : State} {p1 : Machine.State} {p2 : Nat} {p3 : KderRes} (hp1 : Keeps s0 (p1)) : Keeps s0 (@State.failSession p1 p2 p3) := by
  unfold State.failSession
  refine keeps_ite (fun _ => ?_) (fun _ => ?_)
  · refine State.mark_keeps ?_
    · refine State.closeSession_keeps ?_
      · exact hp1
  · refine keeps_ite (fun _ => ?_) (fun _ => ?_)
    · refine State.mark_keeps ?_
      · refine State.closeSession_keeps ?_
        · exact hp1
    · exact hp1

theorem State.actFinish_keeps {s0 : State} {p1 : Machine.State} {p2 : Octets} {p3 : Octets} (hp1 : Keeps s0 (p1)) : Keeps s0 (@State.actFinish p1 p2 p3).2 := by
  unfold State.actFinish
  extract_lets +onlyGivenNames -merge -underBinder x1
  try clear_value x1
  split
  · refine State.kderWith_keeps ?_ ?_
    · exact hp1
    · refine keepsP_mk ?_
      exact hp1
  · extract_lets +onlyGivenNames -merge -underBinder x2
    try clear_value x2
    extract_lets +onlyGivenNames -merge -underBinder x3
    try clear_value x3
    extract_lets +onlyGivenNames -merge -underBinder x4
    try clear_value x4
    split
    · rename_i h7e
      have h7 : Keeps s0 _ := keeps_of_eq h7e (by
        refine State.kderWith_keeps ?_ ?_
        · exact hp1
        · extract_lets +onlyGivenNames -merge -underBinder x8
          try clear_value x8
          extract_lets +onlyGivenNames -merge -underBinder x9
          try clear_value x9
          split
          · extract_lets +onlyGivenNames -merge -underBinder x10
            try clear_value x10
            refine State.writeRoot_keeps ?_
            · exact hp1
        )
      refine keepsP_mk ?_
      refine State.failSession_keeps ?_
      · exact h7

theorem execUnrexCancel_keeps {s0 : State} {p1 : ThreadNo} {p2 : BitVec 8} {p3 : GReg} {p4 : Machine.State} (hp4 : Keeps s0 (p4)) : KeepsO s0 (@execUnrexCancel p1 p2 p3 p4) := by
  unfold execUnrexCancel
  refine State.kder_keeps ?_
  · exact hp4

theorem State.actCekRead_keeps {s0 : State} {p1 : Machine.State} {p2 : Octets} (hp1 : Keeps s0 (p1)) : Keeps s0 (@State.actCekRead p1 p2).2 := by
  unfold State.actCekRead
  refine State.kderWith_keeps ?_ ?_
  · exact hp1
  · refine keepsP_mk ?_
    exact hp1

theorem State.actResp_keeps {s0 : State} {p1 : Machine.State} {p2 : Octets} {p3 : Octets} (hp1 : Keeps s0 (p1)) : Keeps s0 (@State.actResp p1 p2 p3).2 := by
  unfold State.actResp
  extract_lets +onlyGivenNames -merge -underBinder x1
  try clear_value x1
  extract_lets +onlyGivenNames -merge -underBinder x2
  try clear_value x2
  extract_lets +onlyGivenNames -merge -underBinder x3
  try clear_value x3
  extract_lets +onlyGivenNames -merge -underBinder x4
  try clear_value x4
  split
  · rename_i h7e
    have h7 : Keeps s0 _ := keeps_of_eq h7e (by
      refine State.kderWith_keeps ?_ ?_
      · exact hp1
      · split
        · rename_i h10e
          have h10 : Keeps s0 _ := keeps_of_eq h10e (by
            refine State.drawOctets_keeps ?_
            · exact hp1
            )
          split
          · rename_i h13e
            have h13 : Keeps s0 _ := keeps_of_eq h13e (by
              refine State.drawOctets_keeps ?_
              · exact h10
              )
            split
            · rename_i h16e
              have h16 : Keeps s0 _ := keeps_of_eq h16e (by
                refine State.drawOctets_keeps ?_
                · exact h13
                )
              extract_lets +onlyGivenNames -merge -underBinder x17
              try clear_value x17
              extract_lets +onlyGivenNames -merge -underBinder x18
              try clear_value x18
              split
              · extract_lets +onlyGivenNames -merge -underBinder x19
                try clear_value x19
                extract_lets +onlyGivenNames -merge -underBinder x20
                try clear_value x20
                extract_lets +onlyGivenNames -merge -underBinder x21
                try clear_value x21
                split
                · extract_lets +onlyGivenNames -merge -underBinder x22
                  try clear_value x22
                  extract_lets +onlyGivenNames -merge -underBinder x23
                  try clear_value x23
                  refine keepsP_mk ?_
                  refine State.setSession_keeps ?_
                  · exact h16
      )
    refine keepsP_ite (fun _ => ?_) (fun _ => ?_)
    · refine keepsP_mk ?_
      refine State.mark_keeps ?_
      · exact h7
    · refine keepsP_ite (fun _ => ?_) (fun _ => ?_)
      · refine keepsP_mk ?_
        refine State.mark_keeps ?_
        · exact h7
      · refine keepsP_mk ?_
        exact h7

theorem execKderUnwrap_keeps {s0 : State} {p1 : ThreadNo} {p2 : BitVec 8} {p3 : GReg} {p4 : Machine.State} (hp4 : Keeps s0 (p4)) : KeepsO s0 (@execKderUnwrap p1 p2 p3 p4) := by
  unfold execKderUnwrap
  refine State.kder_keeps ?_
  · exact hp4

theorem State.actAttest_keeps {s0 : State} {p1 : Machine.State} {p2 : Octets} {p3 : Octets} (hp1 : Keeps s0 (p1)) : Keeps s0 (@State.actAttest p1 p2 p3).2 := by
  unfold State.actAttest
  refine State.kderWith_keeps ?_ ?_
  · exact hp1
  · extract_lets +onlyGivenNames -merge -underBinder x1
    try clear_value x1
    refine keepsP_mk ?_
    exact hp1

theorem State.setCaks_keeps {s0 : State} {p1 : Machine.State} {p2 : Tbl (Option CakRec)} (hp1 : Keeps s0 (p1)) : Keeps s0 (@State.setCaks p1 p2) := by
  unfold State.setCaks
  refine State.wr_keeps ?_
  · exact keeps_upd hp1 rfl rfl rfl rfl rfl rfl rfl rfl rfl rfl rfl rfl (.inl rfl)

theorem State.actCakImport_keeps {s0 : State} {p1 : Machine.State} {p2 : Octets} {p3 : Octets} (hp1 : Keeps s0 (p1)) : Keeps s0 (@State.actCakImport p1 p2 p3).2 := by
  unfold State.actCakImport
  extract_lets +onlyGivenNames -merge -underBinder x1
  try clear_value x1
  extract_lets +onlyGivenNames -merge -underBinder x2
  try clear_value x2
  extract_lets +onlyGivenNames -merge -underBinder x3
  try clear_value x3
  extract_lets +onlyGivenNames -merge -underBinder x4
  try clear_value x4
  refine State.kderWith_keeps ?_ ?_
  · exact hp1
  · split
    · refine keepsP_mk ?_
      exact hp1
    · extract_lets +onlyGivenNames -merge -underBinder x5
      try clear_value x5
      extract_lets +onlyGivenNames -merge -underBinder x6
      have h7 : Keeps s0 (x6) := by
        unfold x6
        refine State.setCaks_keeps ?_
        · exact hp1
      clear_value x6
      apply keeps_gen x6 h7
      clear h7
      intro x6 h7
      extract_lets +onlyGivenNames -merge -underBinder x8
      have h9 : Keeps s0 (x8) := by
        unfold x8
        refine State.bumpMonotonic_keeps ?_
        · refine State.writeKey_keeps ?_
          · exact h7
      clear_value x8
      apply keeps_gen x8 h9
      clear h9
      intro x8 h9
      refine keepsP_mk ?_
      exact h9

theorem execUnrexInit_keeps {s0 : State} {p1 : ThreadNo} {p2 : BitVec 8} {p3 : GReg} {p4 : Machine.State} (hp4 : Keeps s0 (p4)) : KeepsO s0 (@execUnrexInit p1 p2 p3 p4) := by
  unfold execUnrexInit
  refine State.kder_keeps ?_
  · exact hp4

theorem execCakImport_keeps {s0 : State} {p1 : ThreadNo} {p2 : BitVec 8} {p3 : GReg} {p4 : Machine.State} (hp4 : Keeps s0 (p4)) : KeepsO s0 (@execCakImport p1 p2 p3 p4) := by
  unfold execCakImport
  refine State.kder_keeps ?_
  · exact hp4

theorem State.cisternBad_keeps {s0 : State} {p1 : Machine.State} {p2 : Nat} (hp1 : Keeps s0 (p1)) : Keeps s0 (@State.cisternBad p1 p2) := by
  unfold State.cisternBad
  extract_lets +onlyGivenNames -merge -underBinder x1
  extract_lets +onlyGivenNames -merge -underBinder x2
  extract_lets +onlyGivenNames -merge -underBinder x3
  have h4 : Keeps s0 (x3) := by
    unfold x3
    refine State.report_keeps ?_
    · refine State.mark_keeps ?_
      · exact keeps_upd hp1 rfl rfl rfl rfl rfl rfl rfl rfl rfl rfl rfl rfl (.inl rfl)
  clear_value x3
  apply keeps_gen x3 h4
  clear h4
  intro x3 h4
  refine keeps_ite (fun _ => ?_) (fun _ => ?_)
  · exact h4
  · extract_lets +onlyGivenNames -merge -underBinder x5
    have h6 : Keeps s0 (x5) := by
      unfold x5
      refine State.unmark_keeps ?_
      · exact h4
    clear_value x5
    apply keeps_gen x5 h6
    clear h6
    intro x5 h6
    refine keeps_ite (fun _ => ?_) (fun _ => ?_)
    · refine State.enterMode_keeps ?_
      · exact h6
    · exact h6

theorem State.actDerive_keeps {s0 : State} {p1 : Machine.State} {p2 : Octets} {p3 : Octets} (hp1 : Keeps s0 (p1)) : Keeps s0 (@State.actDerive p1 p2 p3).2 := by
  unfold State.actDerive
  extract_lets +onlyGivenNames -merge -underBinder x1
  try clear_value x1
  extract_lets +onlyGivenNames -merge -underBinder x2
  try clear_value x2
  extract_lets +onlyGivenNames -merge -underBinder x3
  try clear_value x3
  refine State.kderWith_keeps ?_ ?_
  · exact hp1
  · extract_lets +onlyGivenNames -merge -underBinder x4
    try clear_value x4
    extract_lets +onlyGivenNames -merge -underBinder x5
    try clear_value x5
    extract_lets +onlyGivenNames -merge -underBinder x6
    have h7 : Keeps s0 (x6) := by
      unfold x6
      refine State.writeKey_keeps ?_
      · exact hp1
    clear_value x6
    apply keeps_gen x6 h7
    clear h7
    intro x6 h7
    extract_lets +onlyGivenNames -merge -underBinder x8
    have h9 : Keeps s0 (x8) := by
      unfold x8
      refine State.takeUse_keeps ?_
      · exact h7
    clear_value x8
    apply keeps_gen x8 h9
    clear h9
    intro x8 h9
    refine keepsP_mk ?_
    exact h9

theorem State.actMkaDerive_keeps {s0 : State} {p1 : Machine.State} {p2 : Octets} (hp1 : Keeps s0 (p1)) : Keeps s0 (@State.actMkaDerive p1 p2).2 := by
  unfold State.actMkaDerive
  extract_lets +onlyGivenNames -merge -underBinder x1
  try clear_value x1
  extract_lets +onlyGivenNames -merge -underBinder x2
  try clear_value x2
  extract_lets +onlyGivenNames -merge -underBinder x3
  try clear_value x3
  extract_lets +onlyGivenNames -merge -underBinder x4
  try clear_value x4
  refine State.kderWith_keeps ?_ ?_
  · exact hp1
  · extract_lets +onlyGivenNames -merge -underBinder x5
    try clear_value x5
    extract_lets +onlyGivenNames -merge -underBinder x6
    have h7 : Keeps s0 (x6) := by
      unfold x6
      refine State.writeKey_keeps ?_
      · exact hp1
    clear_value x6
    apply keeps_gen x6 h7
    clear h7
    intro x6 h7
    extract_lets +onlyGivenNames -merge -underBinder x8
    have h9 : Keeps s0 (x8) := by
      unfold x8
      refine State.writeKey_keeps ?_
      · exact h7
    clear_value x8
    apply keeps_gen x8 h9
    clear h9
    intro x8 h9
    extract_lets +onlyGivenNames -merge -underBinder x10
    have h11 : Keeps s0 (x10) := by
      unfold x10
      refine State.takeUse_keeps ?_
      · exact h9
    clear_value x10
    apply keeps_gen x10 h11
    clear h11
    intro x10 h11
    refine keepsP_mk ?_
    exact h11

theorem State.writeSak_keeps {s0 : State} {p1 : Machine.State} {p2 : Octets} {p3 : Octets} {p4 : Bool} (hp1 : Keeps s0 (p1)) : Keeps s0 (@State.writeSak p1 p2 p3 p4).2 := by
  unfold State.writeSak
  extract_lets +onlyGivenNames -merge -underBinder x1
  try clear_value x1
  extract_lets +onlyGivenNames -merge -underBinder x2
  try clear_value x2
  extract_lets +onlyGivenNames -merge -underBinder x3
  have h4 : Keeps s0 (x3) := by
    unfold x3
    refine State.writeKey_keeps ?_
    · exact hp1
  clear_value x3
  apply keeps_gen x3 h4
  clear h4
  intro x3 h4
  refine keepsP_mk ?_
  exact h4

theorem State.actSakUnwrap_keeps {s0 : State} {p1 : Machine.State} {p2 : Octets} {p3 : Octets} (hp1 : Keeps s0 (p1)) : Keeps s0 (@State.actSakUnwrap p1 p2 p3).2 := by
  unfold State.actSakUnwrap
  refine State.kderWith_keeps ?_ ?_
  · exact hp1
  · split
    · refine State.writeSak_keeps ?_
      · exact hp1
    · refine keepsP_mk ?_
      exact hp1

theorem State.actSakGen_keeps {s0 : State} {p1 : Machine.State} {p2 : Octets} (hp1 : Keeps s0 (p1)) : Keeps s0 (@State.actSakGen p1 p2).2 := by
  unfold State.actSakGen
  refine State.kderWith_keeps ?_ ?_
  · exact hp1
  · split
    · rename_i h3e
      have h3 : Keeps s0 _ := keeps_of_eq h3e (by
        refine State.drawOctets_keeps ?_
        · exact hp1
        )
      extract_lets +onlyGivenNames -merge -underBinder x4
      try clear_value x4
      split
      · rename_i h7e
        have h7 : Keeps s0 _ := keeps_of_eq h7e (by
          refine State.writeSak_keeps ?_
          · exact h3
          )
        refine keepsP_mk ?_
        exact h7

theorem State.actIcv_keeps {s0 : State} {p1 : Machine.State} {p2 : Octets} {p3 : Octets} {p4 : Bool} (hp1 : Keeps s0 (p1)) : Keeps s0 (@State.actIcv p1 p2 p3 p4).2 := by
  unfold State.actIcv
  extract_lets +onlyGivenNames -merge -underBinder x1
  try clear_value x1
  extract_lets +onlyGivenNames -merge -underBinder x2
  try clear_value x2
  refine State.kderWith_keeps ?_ ?_
  · exact hp1
  · refine keepsP_mk ?_
    exact hp1

theorem State.actInit_keeps {s0 : State} {p1 : Machine.State} {p2 : Octets} (hp1 : Keeps s0 (p1)) : Keeps s0 (@State.actInit p1 p2).2 := by
  unfold State.actInit
  extract_lets +onlyGivenNames -merge -underBinder x1
  try clear_value x1
  extract_lets +onlyGivenNames -merge -underBinder x2
  try clear_value x2
  refine State.kderWith_keeps ?_ ?_
  · exact hp1
  · split
    · rename_i h5e
      have h5 : Keeps s0 _ := keeps_of_eq h5e (by
        refine State.drawOctets_keeps ?_
        · exact hp1
        )
      split
      · rename_i h8e
        have h8 : Keeps s0 _ := keeps_of_eq h8e (by
          refine State.drawOctets_keeps ?_
          · exact h5
          )
        split
        · rename_i h11e
          have h11 : Keeps s0 _ := keeps_of_eq h11e (by
            refine State.drawOctets_keeps ?_
            · exact h8
            )
          split
          · rename_i h14e
            have h14 : Keeps s0 _ := keeps_of_eq h14e (by
              refine State.drawOctets_keeps ?_
              · exact h11
              )
            split
            · extract_lets +onlyGivenNames -merge -underBinder x15
              try clear_value x15
              extract_lets +onlyGivenNames -merge -underBinder x16
              try clear_value x16
              extract_lets +onlyGivenNames -merge -underBinder x17
              try clear_value x17
              extract_lets +onlyGivenNames -merge -underBinder x18
              try clear_value x18
              refine keepsP_mk ?_
              refine State.setSession_keeps ?_
              · exact h14

theorem State.actConfirm_keeps {s0 : State} {p1 : Machine.State} {p2 : Octets} {p3 : Octets} (hp1 : Keeps s0 (p1)) : Keeps s0 (@State.actConfirm p1 p2 p3).2 := by
  unfold State.actConfirm
  extract_lets +onlyGivenNames -merge -underBinder x1
  try clear_value x1
  split
  · refine State.kderWith_keeps ?_ ?_
    · exact hp1
    · refine keepsP_mk ?_
      exact hp1
  · extract_lets +onlyGivenNames -merge -underBinder x2
    try clear_value x2
    split
    · rename_i h5e
      have h5 : Keeps s0 _ := keeps_of_eq h5e (by
        refine State.kderWith_keeps ?_ ?_
        · exact hp1
        · refine State.writeRoot_keeps ?_
          · exact hp1
        )
      refine keepsP_mk ?_
      refine State.failSession_keeps ?_
      · exact h5

theorem State.actCancel_keeps {s0 : State} {p1 : Machine.State} {p2 : Octets} (hp1 : Keeps s0 (p1)) : Keeps s0 (@State.actCancel p1 p2).2 := by
  unfold State.actCancel
  refine State.kderWith_keeps ?_ ?_
  · exact hp1
  · refine keepsP_mk ?_
    refine State.closeSession_keeps ?_
    · exact hp1

theorem State.deriveDomain_keeps {s0 : State} {p1 : Machine.State} (hp1 : Keeps s0 (p1)) : Keeps s0 (@State.deriveDomain p1) := by
  unfold State.deriveDomain
  refine keeps_foldl ?_ (fun a x ha => ?_)
  · exact hp1
  · skip
    extract_lets +onlyGivenNames -merge -underBinder x1
    try clear_value x1
    refine keeps_ite (fun _ => ?_) (fun _ => ?_)
    · exact ha
    · refine State.takeUse_keeps ?_
      · refine State.writeKey_keeps ?_
        · exact ha

theorem State.actDsImport_keeps {s0 s : State} {d w : Octets} (h : Keeps s0 s) : Keeps s0 (s.actDsImport d w).2 := by
  have key : ∀ (x : State) (r : DomainRec), Keeps s0 x →
      Keeps s0 (State.mark { x with cistern := { x.cistern with domain := some r } } KST_CISTAT.DS_VALID) :=
    fun x r hx => State.mark_keeps (keeps_upd hx rfl rfl rfl rfl rfl rfl rfl rfl rfl rfl rfl rfl (.inl rfl))
  have h2 : Keeps s0 (if s.usable 3 2 then (s.endKey 3 2 false).sweepAll.cancelSwitches else s) :=
    keeps_ite (fun _ => State.cancelSwitches_keeps (State.sweepAll_keeps (State.endKey_keeps h))) (fun _ => h)
  unfold State.actDsImport
  refine State.kderWith_keeps h ?_
  split
  · exact h
  · refine keeps_ite (fun _ => State.enterMode_keeps ?_) (fun _ => ?_)
    · exact State.bumpMonotonic_keeps (State.deriveDomain_keeps (State.writeKey_keeps (key _ _ h2)))
    · exact State.bumpMonotonic_keeps (State.deriveDomain_keeps (State.writeKey_keeps (key _ _ h2)))

theorem State.actCakRemove_keeps {s0 : State} {p1 : Machine.State} {p2 : Octets} (hp1 : Keeps s0 (p1)) : Keeps s0 (@State.actCakRemove p1 p2).2 := by
  unfold State.actCakRemove
  extract_lets +onlyGivenNames -merge -underBinder x1
  try clear_value x1
  refine State.kderWith_keeps ?_ ?_
  · exact hp1
  · extract_lets +onlyGivenNames -merge -underBinder x2
    have h3 : Keeps s0 (x2) := by
      unfold x2
      refine State.setCaks_keeps ?_
      · exact hp1
    clear_value x2
    apply keeps_gen x2 h3
    clear h3
    intro x2 h3
    extract_lets +onlyGivenNames -merge -underBinder x4
    try clear_value x4
    extract_lets +onlyGivenNames -merge -underBinder x5
    have h6 : Keeps s0 (x5) := by
      unfold x5
      refine keeps_foldl ?_ (fun a x ha => ?_)
      · exact h3
      · skip
        refine State.endKey_keeps ?_
        · exact ha
    clear_value x5
    apply keeps_gen x5 h6
    clear h6
    intro x5 h6
    extract_lets +onlyGivenNames -merge -underBinder x7
    have h8 : Keeps s0 (x7) := by
      unfold x7
      refine keeps_foldl ?_ (fun a x ha => ?_)
      · exact h6
      · skip
        refine keeps_ite (fun _ => ?_) (fun _ => ?_)
        · refine State.endKey_keeps ?_
          · exact ha
        · exact ha
    clear_value x7
    apply keeps_gen x7 h8
    clear h8
    intro x7 h8
    refine keepsP_mk ?_
    refine State.cancelSwitches_keeps ?_
    · refine State.sweepAll_keeps ?_
      · exact h8

theorem State.actGeneral_keeps {s0 : State} {p1 : Machine.State} {p2 : Octets} {p3 : Octets} (hp1 : Keeps s0 (p1)) : Keeps s0 (@State.actGeneral p1 p2 p3).2 := by
  unfold State.actGeneral
  extract_lets +onlyGivenNames -merge -underBinder x1
  try clear_value x1
  extract_lets +onlyGivenNames -merge -underBinder x2
  try clear_value x2
  extract_lets +onlyGivenNames -merge -underBinder x3
  try clear_value x3
  refine State.kderWith_keeps ?_ ?_
  · exact hp1
  · extract_lets +onlyGivenNames -merge -underBinder x4
    have h5 : Keeps s0 (x4) := by
      unfold x4
      refine State.takeUse_keeps ?_
      · exact hp1
    clear_value x4
    apply keeps_gen x4 h5
    clear h5
    intro x4 h5
    split
    · refine keepsP_mk ?_
      exact h5
    · refine keepsP_mk ?_
      exact h5

theorem State.kderAct_keeps {s0 : State} {p1 : Machine.State} {p2 : Octets} {p3 : Octets} (hp1 : Keeps s0 (p1)) : Keeps s0 (@State.kderAct p1 p2 p3).2 := by
  unfold State.kderAct
  split
  · refine State.actDerive_keeps ?_
    · exact hp1
  · refine State.actMkaDerive_keeps ?_
    · exact hp1
  · refine State.actSakUnwrap_keeps ?_
    · exact hp1
  · refine State.actSakGen_keeps ?_
    · exact hp1
  · refine State.actIcv_keeps ?_
    · exact hp1
  · refine State.actIcv_keeps ?_
    · exact hp1
  · refine State.actInit_keeps ?_
    · exact hp1
  · refine State.actResp_keeps ?_
    · exact hp1
  · refine State.actFinish_keeps ?_
    · exact hp1
  · refine State.actConfirm_keeps ?_
    · exact hp1
  · refine State.actCancel_keeps ?_
    · exact hp1
  · refine State.actAttest_keeps ?_
    · exact hp1
  · refine State.actCekRead_keeps ?_
    · exact hp1
  · refine State.actDsImport_keeps ?_
    · exact hp1
  · refine State.actCakImport_keeps ?_
    · exact hp1
  · refine State.actCakRemove_keeps ?_
    · exact hp1
  · refine State.actGeneral_keeps ?_
    · exact hp1

theorem State.expireSessions_keeps {s0 : State} {p1 : Machine.State} (hp1 : Keeps s0 (p1)) : Keeps s0 (@State.expireSessions p1) := by
  unfold State.expireSessions
  refine keeps_foldl ?_ (fun a x ha => ?_)
  · exact hp1
  · skip
    split
    · refine keeps_ite (fun _ => ?_) (fun _ => ?_)
      · refine State.closeSession_keeps ?_
        · exact ha
      · exact ha
    · exact ha

theorem State.pageKeeps_keeps {s0 : State} {p1 : Machine.State} {p2 : EngineOp} {p3 : Octets} (hp1 : Keeps s0 (p1)) : Keeps s0 (@State.pageKeeps p1 p2 p3) := by
  unfold State.pageKeeps
  extract_lets +onlyGivenNames -merge -underBinder x1
  try clear_value x1
  exact keeps_upd hp1 rfl rfl rfl rfl rfl rfl rfl rfl rfl rfl rfl rfl (.inl rfl)

theorem State.kderRun_keeps {s0 : State} {p1 : Machine.State} {p2 : EngineOp} (hp1 : Keeps s0 (p1)) : Keeps s0 (@State.kderRun p1 p2).2 := by
  unfold State.kderRun
  extract_lets +onlyGivenNames -merge -underBinder x1
  try clear_value x1
  split
  · rename_i h4e
    have h4 : Keeps s0 _ := keeps_of_eq h4e (by
      refine keepsP_ite (fun _ => ?_) (fun _ => ?_)
      · refine State.areaRead_keeps ?_
        · exact hp1
      · refine keepsP_mk ?_
        exact hp1
      )
    split
    · split
      · rename_i h7e
        have h7 : Keeps s0 _ := keeps_of_eq h7e (by
          refine State.kderAct_keeps ?_
          · refine keeps_ite (fun _ => ?_) (fun _ => ?_)
            · refine State.expireSessions_keeps ?_
              · exact h4
            · exact h4
          )
        extract_lets +onlyGivenNames -merge -underBinder x8
        try clear_value x8
        refine keepsP_mk ?_
        refine State.pageKeeps_keeps ?_
        · refine State.kderCounted_keeps ?_
          · exact h7
    · extract_lets +onlyGivenNames -merge -underBinder x9
      try clear_value x9
      refine keepsP_mk ?_
      refine State.pageKeeps_keeps ?_
      · refine State.kderCounted_keeps ?_
        · exact h4

theorem execSakGen_keeps {s0 : State} {p1 : ThreadNo} {p2 : BitVec 8} {p3 : GReg} {p4 : Machine.State} (hp4 : Keeps s0 (p4)) : KeepsO s0 (@execSakGen p1 p2 p3 p4) := by
  unfold execSakGen
  refine State.kder_keeps ?_
  · exact hp4

theorem execKderEnc_keeps {s0 : State} {p1 : ThreadNo} {p2 : BitVec 8} {p3 : GReg} {p4 : Machine.State} (hp4 : Keeps s0 (p4)) : KeepsO s0 (@execKderEnc p1 p2 p3 p4) := by
  unfold execKderEnc
  refine State.kder_keeps ?_
  · exact hp4

theorem execKderDec_keeps {s0 : State} {p1 : ThreadNo} {p2 : BitVec 8} {p3 : GReg} {p4 : Machine.State} (hp4 : Keeps s0 (p4)) : KeepsO s0 (@execKderDec p1 p2 p3 p4) := by
  unfold execKderDec
  refine State.kder_keeps ?_
  · exact hp4

theorem execUnrexConfirm_keeps {s0 : State} {p1 : ThreadNo} {p2 : BitVec 8} {p3 : GReg} {p4 : Machine.State} (hp4 : Keeps s0 (p4)) : KeepsO s0 (@execUnrexConfirm p1 p2 p3 p4) := by
  unfold execUnrexConfirm
  refine State.kder_keeps ?_
  · exact hp4

theorem execCmacChk_keeps {s0 : State} {p1 : ThreadNo} {p2 : BitVec 8} {p3 : GReg} {p4 : Machine.State} (hp4 : Keeps s0 (p4)) : KeepsO s0 (@execCmacChk p1 p2 p3 p4) := by
  unfold execCmacChk
  refine State.kder_keeps ?_
  · exact hp4

theorem execKderInvalid_keeps {s0 : State} {p1 : ThreadNo} {p2 : BitVec 8} {p3 : GReg} {p4 : Machine.State} (hp4 : Keeps s0 (p4)) : KeepsO s0 (@execKderInvalid p1 p2 p3 p4) := by
  unfold execKderInvalid
  refine State.engineCall_keeps ?_ ?_
  · exact hp4
  · intro q1 q2 hq2
    refine kderAccept_keeps ?_
    · exact hq2

theorem execCekRead_keeps {s0 : State} {p1 : ThreadNo} {p2 : BitVec 8} {p3 : GReg} {p4 : Machine.State} (hp4 : Keeps s0 (p4)) : KeepsO s0 (@execCekRead p1 p2 p3 p4) := by
  unfold execCekRead
  refine State.kder_keeps ?_
  · exact hp4

theorem execKderDerive_keeps {s0 : State} {p1 : ThreadNo} {p2 : BitVec 8} {p3 : GReg} {p4 : Machine.State} (hp4 : Keeps s0 (p4)) : KeepsO s0 (@execKderDerive p1 p2 p3 p4) := by
  unfold execKderDerive
  refine State.kder_keeps ?_
  · exact hp4

theorem execCmacGen_keeps {s0 : State} {p1 : ThreadNo} {p2 : BitVec 8} {p3 : GReg} {p4 : Machine.State} (hp4 : Keeps s0 (p4)) : KeepsO s0 (@execCmacGen p1 p2 p3 p4) := by
  unfold execCmacGen
  refine State.kder_keeps ?_
  · exact hp4

theorem execKderWrap_keeps {s0 : State} {p1 : ThreadNo} {p2 : BitVec 8} {p3 : GReg} {p4 : Machine.State} (hp4 : Keeps s0 (p4)) : KeepsO s0 (@execKderWrap p1 p2 p3 p4) := by
  unfold execKderWrap
  refine State.kder_keeps ?_
  · exact hp4

theorem execSakUnwrap_keeps {s0 : State} {p1 : ThreadNo} {p2 : BitVec 8} {p3 : GReg} {p4 : Machine.State} (hp4 : Keeps s0 (p4)) : KeepsO s0 (@execSakUnwrap p1 p2 p3 p4) := by
  unfold execSakUnwrap
  refine State.kder_keeps ?_
  · exact hp4

theorem execIcvGen_keeps {s0 : State} {p1 : ThreadNo} {p2 : BitVec 8} {p3 : GReg} {p4 : Machine.State} (hp4 : Keeps s0 (p4)) : KeepsO s0 (@execIcvGen p1 p2 p3 p4) := by
  unfold execIcvGen
  refine State.kder_keeps ?_
  · exact hp4

theorem execIcvChk_keeps {s0 : State} {p1 : ThreadNo} {p2 : BitVec 8} {p3 : GReg} {p4 : Machine.State} (hp4 : Keeps s0 (p4)) : KeepsO s0 (@execIcvChk p1 p2 p3 p4) := by
  unfold execIcvChk
  refine State.kder_keeps ?_
  · exact hp4

theorem execUnrexResp_keeps {s0 : State} {p1 : ThreadNo} {p2 : BitVec 8} {p3 : GReg} {p4 : Machine.State} (hp4 : Keeps s0 (p4)) : KeepsO s0 (@execUnrexResp p1 p2 p3 p4) := by
  unfold execUnrexResp
  refine State.kder_keeps ?_
  · exact hp4

theorem execUnrexFinish_keeps {s0 : State} {p1 : ThreadNo} {p2 : BitVec 8} {p3 : GReg} {p4 : Machine.State} (hp4 : Keeps s0 (p4)) : KeepsO s0 (@execUnrexFinish p1 p2 p3 p4) := by
  unfold execUnrexFinish
  refine State.kder_keeps ?_
  · exact hp4

theorem execUnrexSessionExpire_keeps {s0 : State} {p1 : Word} {p2 : Machine.State} (hp2 : Keeps s0 (p2)) : KeepsO s0 (@execUnrexSessionExpire p1 p2) := by
  unfold execUnrexSessionExpire
  refine keepsO_next ?_
  refine State.expireSessions_keeps ?_
  · refine State.timeTo_keeps ?_
    · exact hp2

theorem execAttest_keeps {s0 : State} {p1 : ThreadNo} {p2 : BitVec 8} {p3 : GReg} {p4 : Machine.State} (hp4 : Keeps s0 (p4)) : KeepsO s0 (@execAttest p1 p2 p3 p4) := by
  unfold execAttest
  refine State.kder_keeps ?_
  · exact hp4

theorem execDsImport_keeps {s0 : State} {p1 : ThreadNo} {p2 : BitVec 8} {p3 : GReg} {p4 : Machine.State} (hp4 : Keeps s0 (p4)) : KeepsO s0 (@execDsImport p1 p2 p3 p4) := by
  unfold execDsImport
  refine State.kder_keeps ?_
  · exact hp4

theorem execCakRemove_keeps {s0 : State} {p1 : ThreadNo} {p2 : BitVec 8} {p3 : GReg} {p4 : Machine.State} (hp4 : Keeps s0 (p4)) : KeepsO s0 (@execCakRemove p1 p2 p3 p4) := by
  unfold execCakRemove
  refine State.kder_keeps ?_
  · exact hp4

theorem execSpringPageDispatch_keeps {s0 : State} {p1 : Machine.State} (hp1 : Keeps s0 (p1)) : KeepsO s0 (@execSpringPageDispatch p1) := by
  unfold execSpringPageDispatch
  split
  · refine keepsO_next ?_
    exact hp1
  · split
    · refine keepsO_next ?_
      exact hp1
    · extract_lets +onlyGivenNames -merge -underBinder x1
      try clear_value x1
      refine keepsO_next ?_
      exact keeps_upd hp1 rfl rfl rfl rfl rfl rfl rfl rfl rfl rfl rfl rfl (.inl rfl)

end Sys2Proof.Machine
end

