-- ==== Sys2Proof/Laws/KeepsKeys.lean ====
section
/-! SUPPORT. What the definitions of Sys2Proof/Machine/Keys.lean keep: one lemma each, in the terms of `Keeps`. -/

namespace Sys2Proof.Machine

open Sys2Proof

theorem State.kstWrite_keeps {s0 : State} {p1 : Machine.State} {p2 : Nat} {p3 : Option HeldKst} {p4 : Machine.State → Machine.State} (hp1 : Keeps s0 (p1)) (hp4 : ∀ q0, Keeps s0 (q0) → Keeps s0 (p4 q0)) : Keeps s0 (@State.kstWrite p1 p2 p3 p4) := by
  unfold State.kstWrite
  refine keeps_ite (fun _ => ?_) (fun _ => ?_)
  · refine State.mark_keeps ?_
    · exact hp1
  · extract_lets +onlyGivenNames -merge -underBinder x1
    have h2 : Keeps s0 (x1) := by
      unfold x1
      refine State.mark_keeps ?_
      · refine State.wr_keeps ?_
        · exact hp1
    clear_value x1
    apply keeps_gen x1 h2
    clear h2
    intro x1 h2
    refine keeps_ite (fun _ => ?_) (fun _ => ?_)
    · exact keeps_upd h2 rfl rfl rfl rfl rfl rfl rfl rfl rfl rfl rfl rfl (.inl rfl)
    · refine hp4 _ ?_
      · exact h2

theorem State.kstDone_keeps {s0 : State} {p1 : Machine.State} {p2 : Nat} (hp1 : Keeps s0 (p1)) : Keeps s0 (@State.kstDone p1 p2) := by
  unfold State.kstDone
  refine State.unmark_keeps ?_
  · refine State.wr_keeps ?_
    · exact hp1

theorem State.startSweep_keeps {s0 : State} {p1 : Machine.State} (hp1 : Keeps s0 (p1)) : Keeps s0 (@State.startSweep p1) := by
  unfold State.startSweep
  refine State.mark_keeps ?_
  · exact keeps_upd hp1 rfl rfl rfl rfl rfl rfl rfl rfl rfl rfl rfl rfl (.inl rfl)

theorem State.kstDestroy_keeps {s0 : State} {p1 : Machine.State} (hp1 : Keeps s0 (p1)) : Keeps s0 (@State.kstDestroy p1) := by
  unfold State.kstDestroy
  extract_lets +onlyGivenNames -merge -underBinder x1
  try clear_value x1
  extract_lets +onlyGivenNames -merge -underBinder x2
  try clear_value x2
  split
  · refine State.kstDone_keeps ?_
    · exact hp1
  · refine keeps_ite (fun _ => ?_) (fun _ => ?_)
    · refine State.kstDone_keeps ?_
      · refine State.destroyKey_keeps ?_
        · exact hp1
    · refine State.startSweep_keeps ?_
      · refine State.destroyKey_keeps ?_
        · exact hp1

theorem execKstDestroy_keeps {s0 : State} {p1 : Machine.State} (hp1 : Keeps s0 (p1)) : KeepsO s0 (@execKstDestroy p1) := by
  unfold execKstDestroy
  refine keepsO_next ?_
  refine State.kstWrite_keeps ?_ ?_
  · exact hp1
  · intro q1 hq1
    refine State.kstDestroy_keeps ?_
    · exact hq1

theorem State.pgownWrite_keeps {s0 : State} {p1 : Machine.State} {p2 : Nat} {p3 : Word} (hp1 : Keeps s0 (p1)) : Keeps s0 (@State.pgownWrite p1 p2 p3) := by
  unfold State.pgownWrite
  extract_lets +onlyGivenNames -merge -underBinder x1
  try clear_value x1
  extract_lets +onlyGivenNames -merge -underBinder x2
  try clear_value x2
  refine keeps_ite (fun _ => ?_) (fun _ => ?_)
  · exact hp1
  · refine keeps_ite (fun _ => ?_) (fun _ => ?_)
    · refine State.mark_keeps ?_
      · exact hp1
    · extract_lets +onlyGivenNames -merge -underBinder y4 x3
      try clear_value y4
      have h5 : Keeps s0 (x3) := by
        unfold x3
        refine keeps_ite (fun _ => ?_) (fun _ => ?_)
        · exact keeps_upd hp1 rfl rfl rfl rfl rfl rfl rfl rfl rfl rfl rfl rfl (.inl rfl)
        · exact hp1
      clear_value x3
      apply keeps_gen x3 h5
      clear h5
      intro x3 h5
      refine State.setReg_keeps ?_
      · exact h5

theorem State.kstInfo_keeps {s0 : State} {p1 : Machine.State} (hp1 : Keeps s0 (p1)) : Keeps s0 (@State.kstInfo p1) := by
  unfold State.kstInfo
  extract_lets +onlyGivenNames -merge -underBinder x1
  try clear_value x1
  extract_lets +onlyGivenNames -merge -underBinder x2
  try clear_value x2
  extract_lets +onlyGivenNames -merge -underBinder x3
  try clear_value x3
  refine keeps_ite (fun _ => ?_) (fun _ => ?_)
  · refine State.kstDone_keeps ?_
    · exact hp1
  · refine State.kstDone_keeps ?_
    · refine State.setReg_keeps ?_
      · refine State.setReg_keeps ?_
        · refine State.setReg_keeps ?_
          · exact hp1

theorem State.kstOrphan_keeps {s0 : State} {p1 : Machine.State} (hp1 : Keeps s0 (p1)) : Keeps s0 (@State.kstOrphan p1) := by
  unfold State.kstOrphan
  extract_lets +onlyGivenNames -merge -underBinder x1
  try clear_value x1
  extract_lets +onlyGivenNames -merge -underBinder x2
  try clear_value x2
  split
  · refine State.kstDone_keeps ?_
    · exact hp1
  · refine State.startSweep_keeps ?_
    · refine State.orphanKey_keeps ?_
      · exact hp1

theorem State.kstSetuse_keeps {s0 : State} {p1 : Machine.State} (hp1 : Keeps s0 (p1)) : Keeps s0 (@State.kstSetuse p1) := by
  unfold State.kstSetuse
  extract_lets +onlyGivenNames -merge -underBinder x1
  try clear_value x1
  extract_lets +onlyGivenNames -merge -underBinder x2
  try clear_value x2
  extract_lets +onlyGivenNames -merge -underBinder x3
  try clear_value x3
  extract_lets +onlyGivenNames -merge -underBinder x4
  try clear_value x4
  split
  · refine State.kstDone_keeps ?_
    · exact hp1
  · extract_lets +onlyGivenNames -merge -underBinder x5
    have h6 : Keeps s0 (x5) := by
      unfold x5
      refine State.setKslot_keeps ?_
      · exact hp1
    clear_value x5
    apply keeps_gen x5 h6
    clear h6
    intro x5 h6
    refine State.kstDone_keeps ?_
    · refine keeps_ite (fun _ => ?_) (fun _ => ?_)
      · refine State.exhaustCheck_keeps ?_
        · exact h6
      · exact h6

theorem State.kstCtrRead_keeps {s0 : State} {p1 : Machine.State} (hp1 : Keeps s0 (p1)) : Keeps s0 (@State.kstCtrRead p1) := by
  unfold State.kstCtrRead
  refine State.kstDone_keeps ?_
  · refine State.setReg_keeps ?_
    · exact hp1

theorem State.kstCtrInc_keeps {s0 : State} {p1 : Machine.State} (hp1 : Keeps s0 (p1)) : Keeps s0 (@State.kstCtrInc p1) := by
  unfold State.kstCtrInc
  split
  · refine State.kstDone_keeps ?_
    · exact hp1
  · refine State.kstDone_keeps ?_
    · refine State.bumpMonotonic_keeps ?_
      · exact hp1

theorem State.kstInvalid_keeps {s0 : State} {p1 : Machine.State} (hp1 : Keeps s0 (p1)) : Keeps s0 (@State.kstInvalid p1) := by
  unfold State.kstInvalid
  refine State.kstDone_keeps ?_
  · exact hp1

theorem State.kstCmdWrite_keeps {s0 : State} {p1 : Machine.State} {p2 : Word} (hp1 : Keeps s0 (p1)) : Keeps s0 (@State.kstCmdWrite p1 p2) := by
  unfold State.kstCmdWrite
  split
  · refine State.kstWrite_keeps ?_ ?_
    · exact hp1
    · intro q1 hq1
      refine State.kstInfo_keeps ?_
      · exact hq1
  · refine State.kstWrite_keeps ?_ ?_
    · exact hp1
    · intro q2 hq2
      refine State.kstDestroy_keeps ?_
      · exact hq2
  · refine State.kstWrite_keeps ?_ ?_
    · exact hp1
    · intro q3 hq3
      refine State.kstOrphan_keeps ?_
      · exact hq3
  · refine State.kstWrite_keeps ?_ ?_
    · exact hp1
    · intro q4 hq4
      refine State.kstSetuse_keeps ?_
      · exact hq4
  · refine State.kstWrite_keeps ?_ ?_
    · exact hp1
    · intro q5 hq5
      refine State.kstCtrRead_keeps ?_
      · exact hq5
  · refine State.kstWrite_keeps ?_ ?_
    · exact hp1
    · intro q6 hq6
      refine State.kstCtrInc_keeps ?_
      · exact hq6
  · refine State.kstWrite_keeps ?_ ?_
    · exact hp1
    · intro q7 hq7
      refine State.kstInvalid_keeps ?_
      · exact hq7

theorem execSprPgownWrite_keeps {s0 : State} {p1 : PageNo} {p2 : Word} {p3 : Machine.State} (hp3 : Keeps s0 (p3)) : KeepsO s0 (@execSprPgownWrite p1 p2 p3) := by
  unfold execSprPgownWrite
  refine guardRsvd_keeps ?_
  · refine keepsO_next ?_
    refine State.pgownWrite_keeps ?_
    · exact hp3

theorem execSprPageOwnerTakeover_keeps {s0 : State} {p1 : PageNo} {p2 : Machine.State} (hp2 : Keeps s0 (p2)) : KeepsO s0 (@execSprPageOwnerTakeover p1 p2) := by
  unfold execSprPageOwnerTakeover
  refine keepsO_ite (fun _ => ?_) (fun _ => ?_)
  · refine keepsO_next ?_
    exact hp2
  · refine keepsO_next ?_
    exact keeps_upd hp2 rfl rfl rfl rfl rfl rfl rfl rfl rfl rfl rfl rfl (.inl rfl)

theorem execKstInfo_keeps {s0 : State} {p1 : Machine.State} (hp1 : Keeps s0 (p1)) : KeepsO s0 (@execKstInfo p1) := by
  unfold execKstInfo
  refine keepsO_next ?_
  refine State.kstWrite_keeps ?_ ?_
  · exact hp1
  · intro q1 hq1
    refine State.kstInfo_keeps ?_
    · exact hq1

theorem execSprPageForeignAccess_keeps {s0 : State} {p1 : PageNo} {p2 : Master} {p3 : Fin 4} {p4 : Fin 256} {p5 : Option Word} {p6 : Machine.State} (hp6 : Keeps s0 (p6)) : KeepsO s0 (@execSprPageForeignAccess p1 p2 p3 p4 p5 p6) := by
  unfold execSprPageForeignAccess
  extract_lets +onlyGivenNames -merge -underBinder x1
  try clear_value x1
  extract_lets +onlyGivenNames -merge -underBinder x2
  try clear_value x2
  refine keepsO_ite (fun _ => ?_) (fun _ => ?_)
  · split
    · refine keepsO_next ?_
      exact keeps_upd hp6 rfl rfl rfl rfl rfl rfl rfl rfl rfl rfl rfl rfl (.inl rfl)
    · refine keepsO_next ?_
      refine State.emit_keeps ?_
      · exact hp6
  · extract_lets +onlyGivenNames -merge -underBinder x3
    have h4 : Keeps s0 (x3) := by
      unfold x3
      refine State.leveeEvent_keeps ?_
      · refine State.mark_keeps ?_
        · exact hp6
    clear_value x3
    apply keeps_gen x3 h4
    clear h4
    intro x3 h4
    refine keepsO_next ?_
    refine keeps_ite (fun _ => ?_) (fun _ => ?_)
    · exact h4
    · refine State.emit_keeps ?_
      · exact h4

theorem execKstOrphan_keeps {s0 : State} {p1 : Machine.State} (hp1 : Keeps s0 (p1)) : KeepsO s0 (@execKstOrphan p1) := by
  unfold execKstOrphan
  refine keepsO_next ?_
  refine State.kstWrite_keeps ?_ ?_
  · exact hp1
  · intro q1 hq1
    refine State.kstOrphan_keeps ?_
    · exact hq1

theorem execKstSetuse_keeps {s0 : State} {p1 : Machine.State} (hp1 : Keeps s0 (p1)) : KeepsO s0 (@execKstSetuse p1) := by
  unfold execKstSetuse
  refine keepsO_next ?_
  refine State.kstWrite_keeps ?_ ?_
  · exact hp1
  · intro q1 hq1
    refine State.kstSetuse_keeps ?_
    · exact hq1

theorem execKstCtrRead_keeps {s0 : State} {p1 : Machine.State} (hp1 : Keeps s0 (p1)) : KeepsO s0 (@execKstCtrRead p1) := by
  unfold execKstCtrRead
  refine keepsO_next ?_
  refine State.kstWrite_keeps ?_ ?_
  · exact hp1
  · intro q1 hq1
    refine State.kstCtrRead_keeps ?_
    · exact hq1

theorem execKstCtrInc_keeps {s0 : State} {p1 : Machine.State} (hp1 : Keeps s0 (p1)) : KeepsO s0 (@execKstCtrInc p1) := by
  unfold execKstCtrInc
  refine keepsO_next ?_
  refine State.kstWrite_keeps ?_ ?_
  · exact hp1
  · intro q1 hq1
    refine State.kstCtrInc_keeps ?_
    · exact hq1

theorem execKstCmdInvalid_keeps {s0 : State} {p1 : Bool} {p2 : Machine.State} (hp2 : Keeps s0 (p2)) : KeepsO s0 (@execKstCmdInvalid p1 p2) := by
  unfold execKstCmdInvalid
  refine keepsO_next ?_
  refine State.kstWrite_keeps ?_ ?_
  · exact hp2
  · intro q1 hq1
    refine State.kstInvalid_keeps ?_
    · exact hq1

theorem execOrphanSweepEnd_keeps {s0 : State} {p1 : Machine.State} (hp1 : Keeps s0 (p1)) : KeepsO s0 (@execOrphanSweepEnd p1) := by
  unfold execOrphanSweepEnd
  refine keepsO_ite (fun _ => ?_) (fun _ => ?_)
  · refine keepsO_next ?_
    exact hp1
  · extract_lets +onlyGivenNames -merge -underBinder x1
    have h2 : Keeps s0 (x1) := by
      unfold x1
      refine State.unmark_keeps ?_
      · refine State.cancelSwitches_keeps ?_
        · refine State.sweepAll_keeps ?_
          · exact hp1
    clear_value x1
    apply keeps_gen x1 h2
    clear h2
    intro x1 h2
    refine keepsO_ite (fun _ => ?_) (fun _ => ?_)
    · refine keepsO_next ?_
      refine State.kstDone_keeps ?_
      · exact keeps_upd h2 rfl rfl rfl rfl rfl rfl rfl rfl rfl rfl rfl rfl (.inl rfl)
    · refine keepsO_next ?_
      exact h2

theorem State.kstRelease_keeps {s0 : State} {p1 : Machine.State} (hp1 : Keeps s0 (p1)) : Keeps s0 (@State.kstRelease p1) := by
  unfold State.kstRelease
  extract_lets +onlyGivenNames -merge -underBinder y2 x1
  try clear_value y2
  have h3 : Keeps s0 (x1) := by
    unfold x1
    exact keeps_upd hp1 rfl rfl rfl rfl rfl rfl rfl rfl rfl rfl rfl rfl (.inl rfl)
  clear_value x1
  apply keeps_gen x1 h3
  clear h3
  intro x1 h3
  split
  · exact hp1
  · refine State.kstDestroy_keeps ?_
    · exact h3
  · refine State.kstOrphan_keeps ?_
    · exact h3
  · refine State.kstSetuse_keeps ?_
    · exact h3
  · refine State.kstCtrInc_keeps ?_
    · exact h3

end Sys2Proof.Machine
end

