-- ==== Sys2Proof/Laws/KeepsLevee.lean ====
section
/-! SUPPORT. What the definitions of Sys2Proof/Machine/Levee.lean keep: one lemma each, in the terms of `Keeps`. -/

namespace Sys2Proof.Machine

open Sys2Proof

theorem State.storeTamper_keeps {s0 : State} {p1 : Machine.State} {p2 : TamperRec} (hp1 : Keeps s0 (p1)) : Keeps s0 (@State.storeTamper p1 p2) := by
  unfold State.storeTamper
  extract_lets +onlyGivenNames -merge -underBinder x1
  try clear_value x1
  extract_lets +onlyGivenNames -merge -underBinder x2
  try clear_value x2
  extract_lets +onlyGivenNames -merge -underBinder y4 x3
  refine State.wr_keeps ?_
  · refine State.satAdd_keeps ?_
    · exact keeps_upd hp1 rfl rfl rfl rfl rfl rfl rfl rfl rfl rfl rfl rfl (.inl rfl)

theorem State.holdTamper_keeps {s0 s : State} {r : TamperRec} (h : Keeps s0 s) : Keeps s0 (s.holdTamper r) := by
  unfold State.holdTamper
  refine keeps_ite (fun hlt => ?_) (fun _ => State.satAdd_keeps h)
  refine ⟨h.pending, h.mFuses, h.cFuses, h.tFuses, h.pools, h.tables, fun x => ?_, h.held⟩
  have b := h.bounded x
  exact ⟨b.events, by simp only [List.length_append, List.length_singleton]; omega, b.learn, b.poison⟩

theorem State.tamperNote_keeps {s0 : State} {p1 : Machine.State} {p2 : Nat} {p3 : Nat} (hp1 : Keeps s0 (p1)) : Keeps s0 (@State.tamperNote p1 p2 p3) := by
  unfold State.tamperNote
  refine State.holdTamper_keeps ?_
  · exact hp1

theorem State.writeTamper_keeps {s0 s : State} (h : Keeps s0 s) : Keeps s0 (s.writeTamper) := by
  unfold State.writeTamper
  split
  · exact h
  · rename_i r t e
    have h1 : Keeps s0 ({ s with levee := { s.levee with buffer := t } } : State) := by
      refine ⟨h.pending, h.mFuses, h.cFuses, h.tFuses, h.pools, h.tables, fun x => ?_, h.held⟩
      have b := h.bounded x
      refine ⟨b.events, ?_, b.learn, b.poison⟩
      have := b.tamper
      rw [e] at this
      simp only [List.length_cons] at this
      show t.length ≤ 32
      omega
    have h2 := State.storeTamper_keeps (p2 := r) h1
    exact keeps_ite (fun _ => h2) (fun _ => State.tamperNote_keeps (State.wr_keeps h2))

theorem State.writeHeld_keeps {s0 s : State} {n : Nat} (h : Keeps s0 s) : Keeps s0 (s.writeHeld n) := by
  induction n generalizing s with
  | zero => exact h
  | succ n ih => exact ih (State.writeTamper_keeps h)

theorem State.writeRefused_keeps {s0 : State} {p1 : Machine.State} {p2 : Master} {p3 : Nat} (hp1 : Keeps s0 (p1)) : Keeps s0 (@State.writeRefused p1 p2 p3) := by
  unfold State.writeRefused
  extract_lets +onlyGivenNames -merge -underBinder x1
  try clear_value x1
  extract_lets +onlyGivenNames -merge -underBinder x2
  try clear_value x2
  refine State.refuse_keeps ?_
  · refine State.count_keeps ?_
    · refine State.mark_keeps ?_
      · exact hp1

theorem State.leveeWrite_keeps {s0 : State} {p1 : Machine.State} {p2 : Master} {p3 : Reg} {p4 : Nat} {p5 : Word} {p6 : Machine.State} (hp1 : Keeps s0 (p1)) (hp6 : Keeps s0 (p6)) : KeepsO s0 (@State.leveeWrite p1 p2 p3 p4 p5 p6) := by
  unfold State.leveeWrite
  refine keepsO_ite (fun _ => ?_) (fun _ => ?_)
  · refine guardRsvd_keeps ?_
    · refine keepsO_next ?_
      exact hp6
  · refine keepsO_next ?_
    refine State.writeRefused_keeps ?_
    · exact hp1

theorem State.tamperRead_keeps {s0 : State} {p1 : Machine.State} {p2 : Word} (hp1 : Keeps s0 (p1)) : Keeps s0 (@State.tamperRead p1 p2) := by
  unfold State.tamperRead
  extract_lets +onlyGivenNames -merge -underBinder x1
  have h2 : Keeps s0 (x1) := by
    unfold x1
    refine State.plainWrite_keeps ?_
    · exact hp1
  clear_value x1
  apply keeps_gen x1 h2
  clear h2
  intro x1 h2
  extract_lets +onlyGivenNames -merge -underBinder x3
  try clear_value x3
  refine State.setReg_keeps ?_
  · refine State.setReg_keeps ?_
    · exact h2

theorem execTamperLogRead_keeps {s0 : State} {p1 : Master} {p2 : Word} {p3 : Machine.State} (hp3 : Keeps s0 (p3)) : KeepsO s0 (@execTamperLogRead p1 p2 p3) := by
  unfold execTamperLogRead
  refine State.leveeWrite_keeps ?_ ?_
  · exact hp3
  · refine State.tamperRead_keeps ?_
    · exact hp3

theorem State.latchWatch_keeps {s0 : State} {p1 : Machine.State} {p2 : Master} (hp1 : Keeps s0 (p1)) : Keeps s0 (@State.latchWatch p1 p2) := by
  unfold State.latchWatch
  refine State.latch_keeps ?_
  · refine State.latch_keeps ?_
    · exact hp1

theorem State.srcCfgWrite_keeps {s0 : State} {p1 : Machine.State} {p2 : Nat} {p3 : Word} (hp1 : Keeps s0 (p1)) : Keeps s0 (@State.srcCfgWrite p1 p2 p3) := by
  unfold State.srcCfgWrite
  extract_lets +onlyGivenNames -merge -underBinder x1
  have h2 : Keeps s0 (x1) := by
    unfold x1
    refine State.plainWrite_keeps ?_
    · exact hp1
  clear_value x1
  apply keeps_gen x1 h2
  clear h2
  intro x1 h2
  refine keeps_ite (fun _ => ?_) (fun _ => ?_)
  · exact hp1
  · refine keeps_ite (fun _ => ?_) (fun _ => ?_)
    · refine State.mark_keeps ?_
      · exact hp1
    · refine keeps_ite (fun _ => ?_) (fun _ => ?_)
      · exact h2
      · refine State.tamperNote_keeps ?_
        · exact h2

theorem State.stickyClear_keeps {s0 : State} {p1 : Machine.State} {p2 : Word} (hp1 : Keeps s0 (p1)) : Keeps s0 (@State.stickyClear p1 p2) := by
  unfold State.stickyClear
  extract_lets +onlyGivenNames -merge -underBinder x1
  try clear_value x1
  refine keeps_ite (fun _ => ?_) (fun _ => ?_)
  · exact hp1
  · refine State.tamperNote_keeps ?_
    · refine State.plainWrite_keeps ?_
      · exact hp1

theorem State.emptyQueue_keeps {s0 : State} {p1 : Machine.State} {p2 : Nat} (hp1 : Keeps s0 (p1)) : Keeps s0 (@State.emptyQueue p1 p2) := by
  unfold State.emptyQueue
  extract_lets +onlyGivenNames -merge -underBinder x1
  try clear_value x1
  extract_lets +onlyGivenNames -merge -underBinder x2
  try clear_value x2
  extract_lets +onlyGivenNames -merge -underBinder x3
  have h4 : Keeps s0 (x3) := by
    unfold x3
    refine State.rwr_keeps ?_
    · refine State.setBq_keeps ?_
      · refine State.uncharge_keeps ?_
        · exact hp1
  clear_value x3
  apply keeps_gen x3 h4
  clear h4
  intro x3 h4
  refine State.freeCellsOf_keeps ?_
  · refine State.fixHead_keeps ?_
    · refine State.subCells_keeps ?_
      · exact h4

theorem State.breach24_keeps {s0 : State} {p1 : Machine.State} {p2 : Bool} {p3 : Nat × Nat × Nat × Nat} (hp1 : Keeps s0 (p1)) : Keeps s0 (@State.breach24 p1 p2 p3) := by
  unfold State.breach24
  extract_lets +onlyGivenNames -merge -underBinder x1
  try clear_value x1
  refine State.report_keeps ?_
  · exact hp1

theorem State.discardAccepted_keeps {s0 : State} {p1 : Machine.State} (hp1 : Keeps s0 (p1)) : Keeps s0 (@State.discardAccepted p1) := by
  unfold State.discardAccepted
  extract_lets +onlyGivenNames -merge -underBinder x1
  try clear_value x1
  extract_lets +onlyGivenNames -merge -underBinder x2
  try clear_value x2
  extract_lets +onlyGivenNames -merge -underBinder x3
  have h4 : Keeps p1.holdReports (x3) := by
    unfold x3
    refine keeps_foldl ?_ (fun a x ha => ?_)
    · exact Keeps.refl _
    · skip
      refine State.setRetain_keeps ?_
      · refine State.setRingOf_keeps ?_
        · refine keeps_foldl ?_ (fun a x ha => ?_)
          · exact ha
          · skip
            refine State.releaseCells_keeps ?_
            · exact ha
  clear_value x3
  apply keeps_gen x3 h4
  clear h4
  intro x3 h4
  extract_lets +onlyGivenNames -merge -underBinder y6 x5
  try clear_value y6
  have h7 : Keeps p1.holdReports (x5) := by
    unfold x5
    exact keeps_upd h4 rfl rfl rfl rfl rfl rfl rfl rfl rfl rfl rfl rfl (.inl rfl)
  clear_value x5
  apply keeps_gen x5 h7
  clear h7
  intro x5 h7
  extract_lets +onlyGivenNames -merge -underBinder x8
  have h9 : Keeps p1.holdReports (x8) := by
    unfold x8
    refine keeps_foldl ?_ (fun a x ha => ?_)
    · exact h7
    · skip
      refine State.emptyQueue_keeps ?_
      · exact ha
  clear_value x8
  apply keeps_gen x8 h9
  clear h9
  intro x8 h9
  refine State.takeReports_keeps hp1 ?_
  · refine keeps_foldl ?_ (fun a x ha => ?_)
    · refine keeps_foldl ?_ (fun a x ha => ?_)
      · exact h9
      · skip
        refine State.breach24_keeps ?_
        · exact ha
    · skip
      refine State.breach24_keeps ?_
      · exact ha

theorem State.lockdownEntry_keeps {s0 : State} {p1 : Machine.State} {p2 : List (Channel × Nat)} {p3 : List (Group × Nat × Nat)} (hp1 : Keeps s0 (p1)) : Keeps s0 (@State.lockdownEntry p1 p2 p3) := by
  unfold State.lockdownEntry
  refine State.discardAccepted_keeps ?_
  · refine State.cutCard_keeps ?_ ?_
    · exact hp1
    · refine State.enterMode_keeps ?_
      · refine State.zeroKeys_keeps ?_
        · exact hp1

theorem State.setWatch_keeps {s0 : State} {p1 : Machine.State} {p2 : Nat} {p3 : Nat} (hp1 : Keeps s0 (p1)) : Keeps s0 (@State.setWatch p1 p2 p3) := by
  unfold State.setWatch
  refine State.setReg_keeps ?_
  · refine State.wr_keeps ?_
    · exact hp1

theorem State.abortSpring_keeps {s0 : State} {p1 : Machine.State} (hp1 : Keeps s0 (p1)) : Keeps s0 (@State.abortSpring p1) := by
  unfold State.abortSpring
  refine keeps_ite (fun _ => ?_) (fun _ => ?_)
  · refine State.count_keeps ?_
    · refine State.mark_keeps ?_
      · exact hp1
  · exact hp1

theorem execSupplyDipStart_keeps {s0 : State} {p1 : BitVec 48} {p2 : Word} {p3 : Machine.State} (hp3 : Keeps s0 (p3)) : KeepsO s0 (@execSupplyDipStart p1 p2 p3) := by
  unfold execSupplyDipStart
  refine keepsO_ite (fun _ => ?_) (fun _ => ?_)
  · refine keepsO_next ?_
    exact hp3
  · extract_lets +onlyGivenNames -merge -underBinder x1
    have h2 : Keeps s0 (x1) := by
      unfold x1
      refine State.mark_keeps ?_
      · refine State.mark_keeps ?_
        · refine State.setWatch_keeps ?_
          · exact hp3
    clear_value x1
    apply keeps_gen x1 h2
    clear h2
    intro x1 h2
    extract_lets +onlyGivenNames -merge -underBinder x3
    have h4 : Keeps s0 (x3) := by
      unfold x3
      refine State.abortSpring_keeps ?_
      · refine State.mark_keeps ?_
        · exact h2
    clear_value x3
    apply keeps_gen x3 h4
    clear h4
    intro x3 h4
    refine keepsO_next ?_
    refine State.leveeEvent_keeps ?_
    · refine State.wr_keeps ?_
      · exact h4

theorem State.alarmEvents_keeps {s0 : State} {p1 : Machine.State} {p2 : List Alarm} {p3 : Bool} (hp1 : Keeps s0 (p1)) : Keeps s0 (@State.alarmEvents p1 p2 p3) := by
  unfold State.alarmEvents
  refine keeps_foldl ?_ (fun a x ha => ?_)
  · exact hp1
  · skip
    refine keeps_ite (fun _ => ?_) (fun _ => ?_)
    · refine State.raiseEvent_keeps ?_
      · exact ha
    · exact ha

theorem State.applyLockdown_keeps {s0 : State} {p1 : Machine.State} {p2 : Bool} {p3 : List (Channel × Nat)} {p4 : List (Group × Nat × Nat)} (hp1 : Keeps s0 (p1)) : Keeps s0 (@State.applyLockdown p1 p2 p3 p4) := by
  unfold State.applyLockdown
  extract_lets +onlyGivenNames -merge -underBinder x1
  have h2 : Keeps s0 (x1) := by
    unfold x1
    refine keeps_ite (fun _ => ?_) (fun _ => ?_)
    · refine State.wipeCistern_keeps ?_
      · exact hp1
    · exact hp1
  clear_value x1
  apply keeps_gen x1 h2
  clear h2
  intro x1 h2
  split
  · refine State.mark_keeps ?_
    · exact h2
  · refine State.mark_keeps ?_
    · refine State.zeroKeys_keeps ?_
      · exact h2
  · exact h2
  · refine State.zeroKeys_keeps ?_
    · exact h2
  · refine State.lockdownEntry_keeps ?_
    · exact h2

theorem execResponsePoint_keeps {s0 : State} {p1 : BitVec 16} {p2 : BitVec 48} {p3 : Word} {p4 : List (Channel × Nat)} {p5 : List (Group × Nat × Nat)} {p6 : Machine.State} (hp6 : Keeps s0 (p6)) : KeepsO s0 (@execResponsePoint p1 p2 p3 p4 p5 p6) := by
  unfold execResponsePoint
  extract_lets +onlyGivenNames -merge -underBinder x1
  have h2 : Keeps s0 (x1) := by
    unfold x1
    refine State.wr_keeps ?_
    · refine State.setWatch_keeps ?_
      · exact hp6
  clear_value x1
  apply keeps_gen x1 h2
  clear h2
  intro x1 h2
  extract_lets +onlyGivenNames -merge -underBinder x3
  try clear_value x3
  extract_lets +onlyGivenNames -merge -underBinder x4
  try clear_value x4
  extract_lets +onlyGivenNames -merge -underBinder x5
  try clear_value x5
  extract_lets +onlyGivenNames -merge -underBinder y7 x6
  have h8 : Keeps s0 (x6) := by
    unfold x6
    refine keeps_foldl ?_ (fun a x ha => ?_)
    · exact keeps_upd h2 rfl rfl rfl rfl rfl rfl rfl rfl rfl rfl rfl rfl (.inl rfl)
    · skip
      refine State.holdTamper_keeps ?_
      · exact ha
  clear_value x6
  apply keeps_gen x6 h8
  clear h8
  intro x6 h8
  refine keepsO_ite (fun _ => ?_) (fun _ => ?_)
  · refine keepsO_next ?_
    exact h8
  · refine keepsO_ite (fun _ => ?_) (fun _ => ?_)
    · refine keepsO_next ?_
      refine keeps_ite (fun _ => ?_) (fun _ => ?_)
      · exact h8
      · refine State.alarmEvents_keeps ?_
        · exact h8
    · refine keepsO_next ?_
      refine State.applyLockdown_keeps ?_
      · exact h8

theorem execLevWatchLatch_keeps {s0 : State} {p1 : Master} {p2 : Bool} {p3 : BitVec 48} {p4 : Word} {p5 : Machine.State} (hp5 : Keeps s0 (p5)) : KeepsO s0 (@execLevWatchLatch p1 p2 p3 p4 p5) := by
  unfold execLevWatchLatch
  extract_lets +onlyGivenNames -merge -underBinder x1
  have h2 : Keeps s0 (x1) := by
    unfold x1
    refine State.setWatch_keeps ?_
    · exact hp5
  clear_value x1
  apply keeps_gen x1 h2
  clear h2
  intro x1 h2
  refine keepsO_next ?_
  refine State.emit_keeps ?_
  · refine State.latchWatch_keeps ?_
    · exact h2

theorem State.meshStep_keeps {s0 : State} {p1 : Machine.State} {p2 : Nat} (hp1 : Keeps s0 (p1)) : Keeps s0 (@State.meshStep p1 p2) := by
  unfold State.meshStep
  exact keeps_upd hp1 rfl rfl rfl rfl rfl rfl rfl rfl rfl rfl rfl rfl (.inl rfl)

theorem execLeveeEvent_keeps {s0 : State} {p1 : Fin 16} {p2 : BitVec 24} {p3 : Word} {p4 : Fin 16} {p5 : BitVec 16} {p6 : BitVec 48} {p7 : Word} {p8 : Machine.State} (hp8 : Keeps s0 (p8)) : KeepsO s0 (@execLeveeEvent p1 p2 p3 p4 p5 p6 p7 p8) := by
  unfold execLeveeEvent
  refine keepsO_ite (fun _ => ?_) (fun _ => ?_)
  · refine keepsO_next ?_
    exact hp8
  · extract_lets +onlyGivenNames -merge -underBinder x1
    have h2 : Keeps s0 (x1) := by
      unfold x1
      refine State.wr_keeps ?_
      · refine State.setWatch_keeps ?_
        · exact hp8
    clear_value x1
    apply keeps_gen x1 h2
    clear h2
    intro x1 h2
    extract_lets +onlyGivenNames -merge -underBinder x3
    have h4 : Keeps s0 (x3) := by
      unfold x3
      refine State.leveeEvent_keeps ?_
      · exact h2
    clear_value x3
    apply keeps_gen x3 h4
    clear h4
    intro x3 h4
    refine keepsO_ite (fun _ => ?_) (fun _ => ?_)
    · refine keepsO_next ?_
      refine State.meshStep_keeps ?_
      · exact h4
    · refine keepsO_ite (fun _ => ?_) (fun _ => ?_)
      · refine keepsO_next ?_
        refine State.meshStep_keeps ?_
        · exact h4
      · refine keepsO_ite (fun _ => ?_) (fun _ => ?_)
        · refine keepsO_next ?_
          refine State.report_keeps ?_
          · exact h4
        · refine keepsO_next ?_
          exact h4

theorem execTamperRecordWrite_keeps {s0 : State} {p1 : Machine.State} (hp1 : Keeps s0 (p1)) : KeepsO s0 (@execTamperRecordWrite p1) := by
  unfold execTamperRecordWrite
  refine keepsO_ite (fun _ => ?_) (fun _ => ?_)
  · refine keepsO_next ?_
    exact hp1
  · refine keepsO_next ?_
    refine State.writeTamper_keeps ?_
    · exact hp1

theorem execSupplyDipEnd_keeps {s0 : State} {p1 : BitVec 48} {p2 : Word} {p3 : Machine.State} (hp3 : Keeps s0 (p3)) : KeepsO s0 (@execSupplyDipEnd p1 p2 p3) := by
  unfold execSupplyDipEnd
  refine keepsO_ite (fun _ => ?_) (fun _ => ?_)
  · refine keepsO_next ?_
    exact hp3
  · extract_lets +onlyGivenNames -merge -underBinder x1
    have h2 : Keeps s0 (x1) := by
      unfold x1
      refine State.unmark_keeps ?_
      · refine State.unmark_keeps ?_
        · refine State.setWatch_keeps ?_
          · exact hp3
    clear_value x1
    apply keeps_gen x1 h2
    clear h2
    intro x1 h2
    extract_lets +onlyGivenNames -merge -underBinder x3
    have h4 : Keeps s0 (x3) := by
      unfold x3
      refine State.unmark_keeps ?_
      · exact h2
    clear_value x3
    apply keeps_gen x3 h4
    clear h4
    intro x3 h4
    extract_lets +onlyGivenNames -merge -underBinder x5
    have h6 : Keeps s0 (x5) := by
      unfold x5
      refine State.wr_keeps ?_
      · exact h4
    clear_value x5
    apply keeps_gen x5 h6
    clear h6
    intro x5 h6
    refine keepsO_next ?_
    refine State.kstRelease_keeps ?_
    · refine State.writeHeld_keeps ?_
      · exact h6

theorem execLevSrccfgWrite_keeps {s0 : State} {p1 : Master} {p2 : Fin 16} {p3 : Word} {p4 : Machine.State} (hp4 : Keeps s0 (p4)) : KeepsO s0 (@execLevSrccfgWrite p1 p2 p3 p4) := by
  unfold execLevSrccfgWrite
  refine State.leveeWrite_keeps ?_ ?_
  · exact hp4
  · refine State.srcCfgWrite_keeps ?_
    · exact hp4

theorem execStickyClear_keeps {s0 : State} {p1 : Master} {p2 : Word} {p3 : Machine.State} (hp3 : Keeps s0 (p3)) : KeepsO s0 (@execStickyClear p1 p2 p3) := by
  unfold execStickyClear
  refine State.leveeWrite_keeps ?_ ?_
  · exact hp3
  · refine State.stickyClear_keeps ?_
    · exact hp3

theorem execWatchCrystalStop_keeps {s0 : State} {p1 : Machine.State} (hp1 : Keeps s0 (p1)) : KeepsO s0 (@execWatchCrystalStop p1) := by
  unfold execWatchCrystalStop
  refine keepsO_next ?_
  exact keeps_upd hp1 rfl rfl rfl rfl rfl rfl rfl rfl rfl rfl rfl rfl (.inl rfl)

theorem execAoSupplyChangeover_keeps {s0 : State} {p1 : Bool} {p2 : Machine.State} (hp2 : Keeps s0 (p2)) : KeepsO s0 (@execAoSupplyChangeover p1 p2) := by
  unfold execAoSupplyChangeover
  refine keepsO_next ?_
  exact keeps_upd hp2 rfl rfl rfl rfl rfl rfl rfl rfl rfl rfl rfl rfl (.inl rfl)

theorem execWatchCrystalRestart_keeps {s0 : State} {p1 : Machine.State} (hp1 : Keeps s0 (p1)) : KeepsO s0 (@execWatchCrystalRestart p1) := by
  unfold execWatchCrystalRestart
  refine keepsO_next ?_
  exact keeps_upd hp1 rfl rfl rfl rfl rfl rfl rfl rfl rfl rfl rfl rfl (.inl rfl)

end Sys2Proof.Machine
end

