-- ==== Sys2Proof/Laws/KeepsModes.lean ====
section
/-! SUPPORT. What the definitions of Sys2Proof/Machine/Modes.lean keep: one lemma each, in the terms of `Keeps`. -/

namespace Sys2Proof.Machine

open Sys2Proof

theorem State.lcGo_keeps {s0 : State} {p1 : Machine.State} {p2 : Nat} (hp1 : Keeps s0 (p1)) : Keeps s0 (@State.lcGo p1 p2) := by
  unfold State.lcGo
  extract_lets +onlyGivenNames -merge -underBinder x1
  have h2 : Keeps s0 (x1) := by
    unfold x1
    refine State.mark_keeps ?_
    · refine State.zeroKeys_keeps ?_
      · refine State.wipeCistern_keeps ?_
        · refine State.endLeases_keeps ?_
          · refine State.unmark_keeps ?_
            · refine State.clearOrders_keeps ?_
              · exact hp1
  clear_value x1
  apply keeps_gen x1 h2
  clear h2
  intro x1 h2
  exact keeps_upd h2 rfl rfl rfl rfl rfl rfl rfl rfl rfl rfl rfl rfl (.inl rfl)

theorem State.lcCmd_keeps {s0 : State} {p1 : Machine.State} {p2 : Nat} {p3 : Nat} (hp1 : Keeps s0 (p1)) : Keeps s0 (@State.lcCmd p1 p2 p3) := by
  unfold State.lcCmd
  refine keeps_ite (fun _ => ?_) (fun _ => ?_)
  · refine State.mark_keeps ?_
    · exact hp1
  · split
    · refine State.wr_keeps ?_
      · exact hp1
    · refine State.lcGo_keeps ?_
      · exact hp1

theorem execLcChangeRetired_keeps {s0 : State} {p1 : Machine.State} (hp1 : Keeps s0 (p1)) : KeepsO s0 (@execLcChangeRetired p1) := by
  unfold execLcChangeRetired
  refine keepsO_next ?_
  refine State.lcCmd_keeps ?_
  · exact hp1

theorem State.startKeys_keeps {s0 : State} {p1 : Machine.State} (hp1 : Keeps s0 (p1)) : Keeps s0 (@State.startKeys p1) := by
  unfold State.startKeys
  extract_lets +onlyGivenNames -merge -underBinder x1
  try clear_value x1
  extract_lets +onlyGivenNames -merge -underBinder x2
  have h3 : Keeps s0 (x2) := by
    unfold x2
    refine State.writeKey_keeps ?_
    · exact hp1
  clear_value x2
  apply keeps_gen x2 h3
  clear h3
  intro x2 h3
  extract_lets +onlyGivenNames -merge -underBinder x4
  have h5 : Keeps s0 (x4) := by
    unfold x4
    refine State.setReg_keeps ?_
    · exact h3
  clear_value x4
  apply keeps_gen x4 h5
  clear h5
  intro x4 h5
  extract_lets +onlyGivenNames -merge -underBinder y7 x6
  try clear_value y7
  have h8 : Keeps s0 (x6) := by
    unfold x6
    exact keeps_upd h5 rfl rfl rfl rfl rfl rfl rfl rfl rfl rfl rfl rfl (.inl rfl)
  clear_value x6
  apply keeps_gen x6 h8
  clear h8
  intro x6 h8
  refine keeps_foldl ?_ (fun a x ha => ?_)
  · exact h8
  · skip
    refine State.writeKey_keeps ?_
    · exact ha

theorem State.mainReset_keeps {s0 s : State} {warm : Bool} {mode : Nat} (h : Keeps s0 s) : Keeps s0 (s.mainReset warm mode) := by
  have hd : Keeps s0 s.draw.2 := State.draw_keeps h
  unfold State.mainReset
  split
  rename_i w s1 he
  have h1 : Keeps s0 s1 := keeps_of_eq he hd
  refine State.unmark_keeps ?_
  have ht : ∀ (t : State), (TablesCanonical s1 → TablesCanonical t) → t.pending = s1.pending → t.chip = s1.chip.afterReset s.tick.toNat → t.pools = [] →
      t.tide.queue = [] → t.levee = s1.levee → t.delta.learn = [] → t.culvert.poison = [] → (s1.log.held = none → t.log.held = none) →
      Keeps s0 t := by
    intro t k a b c d e f g l
    refine ⟨a.trans h1.pending, ?_, ?_, ?_, fun _ => ?_, fun x => k (h1.tables x), fun x => ⟨?_, ?_, ?_, ?_⟩, fun x => l (h1.held x)⟩
    · rw [b]; exact h1.mFuses
    · rw [b]; exact h1.cFuses
    · rw [b]; exact h1.tFuses
    · show Memory.wf t.pools = true
      rw [c]; rfl
    · rw [d]; exact Nat.zero_le _
    · rw [e]; exact (h1.bounded x).tamper
    · rw [f]; exact Nat.zero_le _
    · rw [g]; exact Nat.zero_le _
  refine keeps_ite (fun _ => State.wr_keeps (State.wr_keeps ?_)) (fun _ => ?_)
  all_goals
    refine State.wr_keeps (State.wr_keeps (State.wr_keeps ?_))
    exact ht _ (fun x => ⟨Tbl.rising_filter _ x.1, trivial, trivial⟩) rfl rfl rfl rfl rfl rfl rfl
      (fun x => by cases warm <;> first | rfl | exact x)

theorem State.deviceReset_keeps {s0 : State} {p1 : Machine.State} (hp1 : Keeps s0 (p1)) : Keeps s0 (@State.deviceReset p1) := by
  unfold State.deviceReset
  refine keeps_ite (fun _ => ?_) (fun _ => ?_)
  · exact hp1
  · refine State.mainReset_keeps ?_
    · exact hp1

theorem State.modeGo_keeps {s0 : State} {p1 : Machine.State} {p2 : Nat} (hp1 : Keeps s0 (p1)) : Keeps s0 (@State.modeGo p1 p2) := by
  unfold State.modeGo
  refine keeps_ite (fun _ => ?_) (fun _ => ?_)
  · refine State.deviceReset_keeps ?_
    · refine State.unmark_keeps ?_
      · exact hp1
  · refine keeps_ite (fun _ => ?_) (fun _ => ?_)
    · refine State.mark_keeps ?_
      · exact hp1
    · refine State.wr_keeps ?_
      · refine State.enterMode_keeps ?_
        · exact hp1

theorem State.modeCmd_keeps {s0 : State} {p1 : Machine.State} {p2 : Nat} (hp1 : Keeps s0 (p1)) : Keeps s0 (@State.modeCmd p1 p2) := by
  unfold State.modeCmd
  refine keeps_ite (fun _ => ?_) (fun _ => ?_)
  · refine State.mark_keeps ?_
    · exact hp1
  · extract_lets +onlyGivenNames -merge -underBinder x1
    have h2 : Keeps s0 (x1) := by
      unfold x1
      refine State.wr_keeps ?_
      · exact hp1
    clear_value x1
    apply keeps_gen x1 h2
    clear h2
    intro x1 h2
    split
    · refine State.wr_keeps ?_
      · exact h2
    · refine State.modeGo_keeps ?_
      · exact h2

theorem State.hifReset_keeps {s0 : State} {p1 : Machine.State} (hp1 : Keeps s0 (p1)) : Keeps s0 (@State.hifReset p1) := by
  unfold State.hifReset
  extract_lets +onlyGivenNames -merge -underBinder x1
  have h2 : Keeps s0 (x1) := by
    unfold x1
    refine keeps_foldl ?_ (fun a x ha => ?_)
    · exact hp1
    · skip
      refine State.unmark_keeps ?_
      · refine State.wr_keeps ?_
        · refine State.setReg_keeps ?_
          · refine State.unmark_keeps ?_
            · refine State.setRing_keeps ?_
              · exact ha
  clear_value x1
  apply keeps_gen x1 h2
  clear h2
  intro x1 h2
  extract_lets +onlyGivenNames -merge -underBinder x3
  have h4 : Keeps s0 (x3) := by
    unfold x3
    refine keeps_foldl ?_ (fun a x ha => ?_)
    · exact h2
    · skip
      split
      · extract_lets +onlyGivenNames -merge -underBinder x5
        try clear_value x5
        refine State.setThread_keeps ?_
        · exact ha
      · exact ha
  clear_value x3
  apply keeps_gen x3 h4
  clear h4
  intro x3 h4
  extract_lets +onlyGivenNames -merge -underBinder x6
  try clear_value x6
  exact keeps_upd h4 rfl rfl rfl rfl rfl rfl rfl rfl rfl rfl rfl rfl (.inl rfl)

theorem execDebugReq_keeps {s0 : State} {p1 : Machine.State} (hp1 : Keeps s0 (p1)) : KeepsO s0 (@execDebugReq p1) := by
  unfold execDebugReq
  refine keepsO_ite (fun _ => ?_) (fun _ => ?_)
  · refine keepsO_next ?_
    refine State.mark_keeps ?_
    · exact hp1
  · refine keepsO_next ?_
    refine State.mark_keeps ?_
    · exact hp1

theorem execDebugClose_keeps {s0 : State} {p1 : Machine.State} (hp1 : Keeps s0 (p1)) : KeepsO s0 (@execDebugClose p1) := by
  unfold execDebugClose
  refine keepsO_ite (fun _ => ?_) (fun _ => ?_)
  · refine keepsO_next ?_
    exact hp1
  · refine keepsO_next ?_
    refine State.unmark_keeps ?_
    · exact hp1

theorem execModecmdLockdownExit_keeps {s0 : State} {p1 : Machine.State} (hp1 : Keeps s0 (p1)) : KeepsO s0 (@execModecmdLockdownExit p1) := by
  unfold execModecmdLockdownExit
  refine keepsO_next ?_
  refine State.modeCmd_keeps ?_
  · exact hp1

theorem execGblResetDevice_keeps {s0 : State} {p1 : Machine.State} (hp1 : Keeps s0 (p1)) : KeepsO s0 (@execGblResetDevice p1) := by
  unfold execGblResetDevice
  refine keepsO_next ?_
  refine State.deviceReset_keeps ?_
  · exact hp1

theorem execModecmdInvalid_keeps {s0 : State} {p1 : Fin 16} {p2 : Machine.State} (hp2 : Keeps s0 (p2)) : KeepsO s0 (@execModecmdInvalid p1 p2) := by
  unfold execModecmdInvalid
  refine keepsO_ite (fun _ => ?_) (fun _ => ?_)
  · refine keepsO_next ?_
    exact hp2
  · refine keepsO_next ?_
    refine State.modeCmd_keeps ?_
    · exact hp2

theorem execResetNPulse_keeps {s0 : State} {p1 : Machine.State} (hp1 : Keeps s0 (p1)) : KeepsO s0 (@execResetNPulse p1) := by
  unfold execResetNPulse
  refine keepsO_next ?_
  refine State.deviceReset_keeps ?_
  · exact hp1

theorem execModecmdClearMaintenance_keeps {s0 : State} {p1 : Machine.State} (hp1 : Keeps s0 (p1)) : KeepsO s0 (@execModecmdClearMaintenance p1) := by
  unfold execModecmdClearMaintenance
  refine keepsO_next ?_
  refine State.modeCmd_keeps ?_
  · exact hp1

theorem State.resetExpiry_keeps {s0 : State} {p1 : Machine.State} (hp1 : Keeps s0 (p1)) : Keeps s0 (@State.resetExpiry p1) := by
  unfold State.resetExpiry
  extract_lets +onlyGivenNames -merge -underBinder x1
  try clear_value x1
  extract_lets +onlyGivenNames -merge -underBinder x2
  have h3 : Keeps s0 (x2) := by
    unfold x2
    refine keeps_foldl ?_ (fun a x ha => ?_)
    · exact hp1
    · skip
      refine keeps_ite (fun _ => ?_) (fun _ => ?_)
      · refine State.endKey_keeps ?_
        · exact ha
      · exact ha
  clear_value x2
  apply keeps_gen x2 h3
  clear h3
  intro x2 h3
  refine State.cancelSwitches_keeps ?_
  · refine State.sweepAll_keeps ?_
    · exact h3

theorem execProductionTestFuseProgram_keeps {s0 s : State} (h : Keeps s0 s) :
    KeepsO s0 (execProductionTestFuseProgram s) := by
  unfold execProductionTestFuseProgram
  refine keepsO_ite (fun _ => ?_) (fun _ => h)
  exact ⟨h.pending, Fin.le_last _, h.cFuses, h.tFuses, h.pools, h.tables, fun x => ⟨(h.bounded x).events, (h.bounded x).tamper, (h.bounded x).learn, (h.bounded x).poison⟩, h.held⟩

theorem execModecmdService_keeps {s0 : State} {p1 : Machine.State} (hp1 : Keeps s0 (p1)) : KeepsO s0 (@execModecmdService p1) := by
  unfold execModecmdService
  refine keepsO_next ?_
  refine State.modeCmd_keeps ?_
  · exact hp1

theorem State.clearReg_keeps {s0 : State} {p1 : Machine.State} {p2 : Reg} {p3 : Nat} (hp1 : Keeps s0 (p1)) : Keeps s0 (@State.clearReg p1 p2 p3) := by
  unfold State.clearReg
  refine keeps_foldl ?_ (fun a x ha => ?_)
  · exact hp1
  · skip
    refine State.setReg_keeps ?_
    · exact ha

theorem State.pocFail_keeps {s0 : State} {p1 : Machine.State} {p2 : Nat} {p3 : Nat} (hp1 : Keeps s0 (p1)) : Keeps s0 (@State.pocFail p1 p2 p3) := by
  unfold State.pocFail
  refine State.wr_keeps ?_
  · refine State.wr_keeps ?_
    · refine State.mark_keeps ?_
      · exact hp1

theorem State.pocDone_keeps {s0 : State} {p1 : Machine.State} (hp1 : Keeps s0 (p1)) : Keeps s0 (@State.pocDone p1) := by
  unfold State.pocDone
  extract_lets +onlyGivenNames -merge -underBinder x1
  have h2 : Keeps s0 (x1) := by
    unfold x1
    refine State.mark_keeps ?_
    · exact hp1
  clear_value x1
  apply keeps_gen x1 h2
  clear h2
  intro x1 h2
  extract_lets +onlyGivenNames -merge -underBinder x3
  try clear_value x3
  refine keeps_ite (fun _ => ?_) (fun _ => ?_)
  · refine State.pocFail_keeps ?_
    · exact h2
  · refine keeps_ite (fun _ => ?_) (fun _ => ?_)
    · refine State.enterMode_keeps ?_
      · exact h2
    · refine keeps_ite (fun _ => ?_) (fun _ => ?_)
      · refine State.enterMode_keeps ?_
        · exact h2
      · refine keeps_ite (fun _ => ?_) (fun _ => ?_)
        · refine State.enterMode_keeps ?_
          · exact h2
        · refine keeps_ite (fun _ => ?_) (fun _ => ?_)
          · refine State.enterMode_keeps ?_
            · exact h2
          · refine keeps_ite (fun _ => ?_) (fun _ => ?_)
            · refine State.mark_keeps ?_
              · refine State.enterMode_keeps ?_
                · exact h2
            · refine State.enterMode_keeps ?_
              · exact h2

theorem Memory.wfFrom_filter {lo : Nat} {m : List Host.Cell} (p : Host.Cell → Bool) (h : Memory.wfFrom lo m = true) :
    Memory.wfFrom lo (m.filter p) = true := by
  induction m generalizing lo with
  | nil => rfl
  | cons c t ih =>
    obtain ⟨k, v⟩ := c
    simp only [Memory.wfFrom, Bool.and_eq_true, decide_eq_true_eq] at h
    simp only [List.filter_cons]
    split
    · simp only [Memory.wfFrom, Bool.and_eq_true, decide_eq_true_eq]; exact ⟨h.1, ih h.2⟩
    · exact ih (Memory.wfFrom_mono h.2 (by omega))

theorem execFlashPreloadEnd_keeps {s0 s : State} {d : Octets} (h : Keeps s0 s) : KeepsO s0 (execFlashPreloadEnd d s) := by
  unfold execFlashPreloadEnd
  split
  · exact h
  · refine keepsO_ite (fun _ => h) (fun _ => ?_)
    extract_lets d src s1 s2
    have h1 : Keeps s0 s1 := State.mark_keeps (keeps_upd h rfl rfl rfl rfl rfl rfl rfl rfl rfl rfl rfl rfl (.inl rfl))
    clear_value s1
    have h2 : Keeps s0 s2 := by
      refine keeps_ite (fun _ => State.poolWrite_keeps h1) (fun _ => State.mark_keeps ?_)
      exact ⟨h1.pending, h1.mFuses, h1.cFuses, h1.tFuses, fun x => Memory.wfFrom_filter _ (h1.pools x), h1.tables, fun x => ⟨(h1.bounded x).events, (h1.bounded x).tamper, (h1.bounded x).learn, (h1.bounded x).poison⟩, h1.held⟩
    exact keeps_ite (fun _ => State.pocDone_keeps h2) (fun _ => h2)

theorem State.replaySlot_keeps {s0 : State} {p1 : Machine.State} {p2 : Nat} (hp1 : Keeps s0 (p1)) : Keeps s0 (@State.replaySlot p1 p2) := by
  unfold State.replaySlot
  refine State.setReg_keeps ?_
  · exact hp1

theorem execReplayEnd_keeps {s0 : State} {p1 : Machine.State} (hp1 : Keeps s0 (p1)) : KeepsO s0 (@execReplayEnd p1) := by
  unfold execReplayEnd
  refine keepsO_ite (fun _ => ?_) (fun _ => ?_)
  · refine keepsO_next ?_
    exact hp1
  · extract_lets +onlyGivenNames -merge -underBinder x1
    have h2 : Keeps s0 (x1) := by
      unfold x1
      refine keeps_foldl ?_ (fun a x ha => ?_)
      · exact hp1
      · skip
        refine State.replaySlot_keeps ?_
        · exact ha
    clear_value x1
    apply keeps_gen x1 h2
    clear h2
    intro x1 h2
    refine keepsO_next ?_
    refine State.raiseCause_keeps ?_
    · refine State.unmark_keeps ?_
      · exact h2

theorem execModecmdDrain_keeps {s0 : State} {p1 : Machine.State} (hp1 : Keeps s0 (p1)) : KeepsO s0 (@execModecmdDrain p1) := by
  unfold execModecmdDrain
  refine keepsO_next ?_
  refine State.modeCmd_keeps ?_
  · exact hp1

theorem execBrownOut_keeps {s0 : State} {p1 : BitVec 48} {p2 : Word} {p3 : Machine.State} (hp3 : Keeps s0 (p3)) : KeepsO s0 (@execBrownOut p1 p2 p3) := by
  unfold execBrownOut
  refine keepsO_ite (fun _ => ?_) (fun _ => ?_)
  · refine keepsO_next ?_
    exact hp3
  · refine keepsO_next ?_
    refine State.mainReset_keeps ?_
    · refine State.leveeEvent_keeps ?_
      · refine State.setWatch_keeps ?_
        · exact hp3

theorem State.flashHeader_keeps {s0 : State} {p1 : Machine.State} {p2 : Octets} (hp1 : Keeps s0 (p1)) : Keeps s0 (@State.flashHeader p1 p2) := by
  unfold State.flashHeader
  refine keeps_ite (fun _ => ?_) (fun _ => ?_)
  · extract_lets +onlyGivenNames -merge -underBinder x1
    try clear_value x1
    extract_lets +onlyGivenNames -merge -underBinder y3 x2
    try clear_value y3
    try clear_value x2
    refine State.wr_keeps ?_
    · exact keeps_upd hp1 rfl rfl rfl rfl rfl rfl rfl rfl rfl rfl rfl rfl (.inl rfl)
  · refine State.mark_keeps ?_
    · refine State.wr_keeps ?_
      · exact keeps_upd hp1 rfl rfl rfl rfl rfl rfl rfl rfl rfl rfl rfl rfl (.inl rfl)

theorem execReadyEntryEnd_keeps {s0 : State} {p1 : Machine.State} (hp1 : Keeps s0 (p1)) : KeepsO s0 (@execReadyEntryEnd p1) := by
  unfold execReadyEntryEnd
  refine keepsO_ite (fun _ => ?_) (fun _ => ?_)
  · refine keepsO_next ?_
    exact hp1
  · extract_lets +onlyGivenNames -merge -underBinder x1
    have h2 : Keeps s0 (x1) := by
      unfold x1
      refine State.unmark_keeps ?_
      · exact hp1
    clear_value x1
    apply keeps_gen x1 h2
    clear h2
    intro x1 h2
    refine keepsO_ite (fun _ => ?_) (fun _ => ?_)
    · extract_lets +onlyGivenNames -merge -underBinder x3
      have h4 : Keeps s0 (x3) := by
        unfold x3
        refine State.cancelSwitches_keeps ?_
        · refine State.sweepAll_keeps ?_
          · refine State.destroyClass_keeps ?_
            · refine State.destroyClass_keeps ?_
              · refine State.destroyClass_keeps ?_
                · exact h2
      clear_value x3
      apply keeps_gen x3 h4
      clear h4
      intro x3 h4
      refine keepsO_next ?_
      refine State.wr_keeps ?_
      · refine State.enterMode_keeps ?_
        · exact h4
    · refine keepsO_next ?_
      refine State.wr_keeps ?_
      · exact h2

theorem execPresenceWindowOpen_keeps {s0 : State} {p1 : Word} {p2 : Machine.State} (hp2 : Keeps s0 (p2)) : KeepsO s0 (@execPresenceWindowOpen p1 p2) := by
  unfold execPresenceWindowOpen
  extract_lets +onlyGivenNames -merge -underBinder x1
  have h2 : Keeps s0 (x1) := by
    unfold x1
    refine State.timeTo_keeps ?_
    · exact hp2
  clear_value x1
  apply keeps_gen x1 h2
  clear h2
  intro x1 h2
  refine keepsO_ite (fun _ => ?_) (fun _ => ?_)
  · refine keepsO_next ?_
    refine State.mark_keeps ?_
    · exact keeps_upd h2 rfl rfl rfl rfl rfl rfl rfl rfl rfl rfl rfl rfl (.inl rfl)
  · refine keepsO_next ?_
    exact h2

theorem execMainPowerOn_keeps {s0 : State} {p1 : Machine.State} (hp1 : Keeps s0 (p1)) : KeepsO s0 (@execMainPowerOn p1) := by
  unfold execMainPowerOn
  refine keepsO_ite (fun _ => ?_) (fun _ => ?_)
  · refine keepsO_next ?_
    exact hp1
  · extract_lets +onlyGivenNames -merge -underBinder x1
    have h2 : Keeps s0 (x1) := by
      unfold x1
      refine State.mainReset_keeps ?_
      · exact hp1
    clear_value x1
    apply keeps_gen x1 h2
    clear h2
    intro x1 h2
    refine keepsO_next ?_
    exact keeps_upd h2 rfl rfl rfl rfl rfl rfl rfl rfl rfl rfl rfl rfl (.inl rfl)

theorem execModecmdReady_keeps {s0 : State} {p1 : Machine.State} (hp1 : Keeps s0 (p1)) : KeepsO s0 (@execModecmdReady p1) := by
  unfold execModecmdReady
  refine keepsO_next ?_
  refine State.modeCmd_keeps ?_
  · exact hp1

theorem execLcChangeCarrier_keeps {s0 : State} {p1 : Machine.State} (hp1 : Keeps s0 (p1)) : KeepsO s0 (@execLcChangeCarrier p1) := by
  unfold execLcChangeCarrier
  refine keepsO_next ?_
  refine State.lcCmd_keeps ?_
  · exact hp1

theorem execLcCmdInvalid_keeps {s0 : State} {p1 : Fin 4} {p2 : Byte} {p3 : Machine.State} (hp3 : Keeps s0 (p3)) : KeepsO s0 (@execLcCmdInvalid p1 p2 p3) := by
  unfold execLcCmdInvalid
  refine keepsO_ite (fun _ => ?_) (fun _ => ?_)
  · refine keepsO_next ?_
    exact hp3
  · refine keepsO_next ?_
    refine State.lcCmd_keeps ?_
    · exact hp3

theorem execFuseProgramEnd_keeps {s0 s : State} (h : Keeps s0 s) : KeepsO s0 (execFuseProgramEnd s) := by
  unfold execFuseProgramEnd
  split
  · exact h
  · refine keepsO_ite (fun _ => h) (fun _ => State.deviceReset_keeps ?_)
    split
    · exact ⟨h.pending, h.mFuses, Fin.le_last _, h.tFuses, h.pools, h.tables, fun x => ⟨(h.bounded x).events, (h.bounded x).tamper, (h.bounded x).learn, (h.bounded x).poison⟩, h.held⟩
    · exact ⟨h.pending, h.mFuses, h.cFuses, Fin.le_last _, h.pools, h.tables, fun x => ⟨(h.bounded x).events, (h.bounded x).tamper, (h.bounded x).learn, (h.bounded x).poison⟩, h.held⟩

theorem execPresNChange_keeps {s0 : State} {p1 : Bool} {p2 : Word} {p3 : Machine.State} (hp3 : Keeps s0 (p3)) : KeepsO s0 (@execPresNChange p1 p2 p3) := by
  unfold execPresNChange
  extract_lets +onlyGivenNames -merge -underBinder x1
  have h2 : Keeps s0 (x1) := by
    unfold x1
    refine State.timeTo_keeps ?_
    · exact hp3
  clear_value x1
  apply keeps_gen x1 h2
  clear h2
  intro x1 h2
  refine keepsO_ite (fun _ => ?_) (fun _ => ?_)
  · refine keepsO_next ?_
    exact h2
  · extract_lets +onlyGivenNames -merge -underBinder x3
    try clear_value x3
    extract_lets +onlyGivenNames -merge -underBinder x4
    try clear_value x4
    refine keepsO_next ?_
    refine State.wr_keeps ?_
    · exact keeps_upd h2 rfl rfl rfl rfl rfl rfl rfl rfl rfl rfl rfl rfl (.inl rfl)

theorem execPresenceWindowClose_keeps {s0 : State} {p1 : Word} {p2 : Machine.State} (hp2 : Keeps s0 (p2)) : KeepsO s0 (@execPresenceWindowClose p1 p2) := by
  unfold execPresenceWindowClose
  extract_lets +onlyGivenNames -merge -underBinder x1
  have h2 : Keeps s0 (x1) := by
    unfold x1
    refine State.timeTo_keeps ?_
    · exact hp2
  clear_value x1
  apply keeps_gen x1 h2
  clear h2
  intro x1 h2
  refine keepsO_ite (fun _ => ?_) (fun _ => ?_)
  · refine keepsO_next ?_
    refine State.unmark_keeps ?_
    · exact h2
  · refine keepsO_next ?_
    exact h2

theorem execPresenceStuck_keeps {s0 : State} {p1 : Word} {p2 : Machine.State} (hp2 : Keeps s0 (p2)) : KeepsO s0 (@execPresenceStuck p1 p2) := by
  unfold execPresenceStuck
  extract_lets +onlyGivenNames -merge -underBinder x1
  have h2 : Keeps s0 (x1) := by
    unfold x1
    refine State.timeTo_keeps ?_
    · exact hp2
  clear_value x1
  apply keeps_gen x1 h2
  clear h2
  intro x1 h2
  refine keepsO_ite (fun _ => ?_) (fun _ => ?_)
  · refine keepsO_next ?_
    refine State.mark_keeps ?_
    · exact h2
  · refine keepsO_next ?_
    exact h2

theorem execMainPowerLoss_keeps {s0 : State} {p1 : BitVec 48} {p2 : Word} {p3 : Machine.State} (hp3 : Keeps s0 (p3)) : KeepsO s0 (@execMainPowerLoss p1 p2 p3) := by
  unfold execMainPowerLoss
  refine keepsO_ite (fun _ => ?_) (fun _ => ?_)
  · refine keepsO_next ?_
    exact hp3
  · refine keepsO_next ?_
    refine State.mainReset_keeps ?_
    · refine State.leveeEvent_keeps ?_
      · refine State.setWatch_keeps ?_
        · exact hp3

theorem execAlwaysOnPowerUp_keeps {s0 s : State} (h : Keeps s0 s) : KeepsO s0 (execAlwaysOnPowerUp s) := by
  unfold execAlwaysOnPowerUp
  have h1 : Keeps s0 ((List.range 4).foldl (fun (a : State) k =>
      let (w, b) := a.draw
      { b with levee := { b.levee with lfsr := Tbl.set 0 b.levee.lfsr k (w.setWidth 32) } })
      { s with levee := {}, cistern := {}, regs := [] }) := by
    refine keeps_foldl ?_ (fun a x ha => ?_)
    · exact ⟨h.pending, h.mFuses, h.cFuses, h.tFuses, h.pools, fun x => ⟨trivial, (h.tables x).2⟩,
        fun x => ⟨(h.bounded x).events, Nat.zero_le _, (h.bounded x).learn, (h.bounded x).poison⟩, h.held⟩
    · exact keeps_upd (State.draw_keeps ha) rfl rfl rfl rfl rfl rfl rfl rfl rfl rfl rfl rfl (.inl rfl)
  refine State.mainReset_keeps ⟨h1.pending, h.mFuses, h.cFuses, h.tFuses, h1.pools, h1.tables, fun x => ⟨(h1.bounded x).events, (h1.bounded x).tamper, (h1.bounded x).learn, (h1.bounded x).poison⟩, h1.held⟩

theorem execGblResetHif_keeps {s0 : State} {p1 : Machine.State} (hp1 : Keeps s0 (p1)) : KeepsO s0 (@execGblResetHif p1) := by
  unfold execGblResetHif
  refine keepsO_next ?_
  refine State.hifReset_keeps ?_
  · exact hp1

theorem State.pcieReset_keeps {s0 : State} {p1 : Machine.State} (hp1 : Keeps s0 (p1)) : Keeps s0 (@State.pcieReset p1) := by
  unfold State.pcieReset
  extract_lets +onlyGivenNames -merge -underBinder x1
  have h2 : Keeps s0 (x1) := by
    unfold x1
    refine State.dropLatches_keeps ?_
    · refine State.resetCores_keeps ?_
      · refine State.hifReset_keeps ?_
        · exact hp1
  clear_value x1
  apply keeps_gen x1 h2
  clear h2
  intro x1 h2
  extract_lets +onlyGivenNames -merge -underBinder x3
  have h4 : Keeps s0 (x3) := by
    unfold x3
    refine State.clearReg_keeps ?_
    · refine State.unmark_keeps ?_
      · refine State.unmark_keeps ?_
        · exact h2
  clear_value x3
  apply keeps_gen x3 h4
  clear h4
  intro x3 h4
  extract_lets +onlyGivenNames -merge -underBinder x5
  have h6 : Keeps s0 (x5) := by
    unfold x5
    refine State.clearReg_keeps ?_
    · refine State.clearReg_keeps ?_
      · refine State.clearReg_keeps ?_
        · refine State.clearReg_keeps ?_
          · exact h4
  clear_value x5
  apply keeps_gen x5 h6
  clear h6
  intro x5 h6
  extract_lets +onlyGivenNames -merge -underBinder x7
  have h8 : Keeps s0 (x7) := by
    unfold x7
    refine State.clearReg_keeps ?_
    · refine State.clearReg_keeps ?_
      · refine State.clearReg_keeps ?_
        · exact h6
  clear_value x7
  apply keeps_gen x7 h8
  clear h8
  intro x7 h8
  exact keeps_upd h8 rfl rfl rfl rfl rfl rfl rfl rfl rfl rfl rfl rfl (.inl rfl)

theorem execPcieFlr_keeps {s0 : State} {p1 : Machine.State} (hp1 : Keeps s0 (p1)) : KeepsO s0 (@execPcieFlr p1) := by
  unfold execPcieFlr
  refine keepsO_next ?_
  refine State.pcieReset_keeps ?_
  · exact hp1

theorem execPcieConventionalReset_keeps {s0 : State} {p1 : Machine.State} (hp1 : Keeps s0 (p1)) : KeepsO s0 (@execPcieConventionalReset p1) := by
  unfold execPcieConventionalReset
  refine keepsO_next ?_
  refine State.pcieReset_keeps ?_
  · exact hp1

theorem State.calibrateAll_keeps {s0 : State} {p1 : Machine.State} {p2 : List LaneNo} (hp1 : Keeps s0 (p1)) : Keeps s0 (@State.calibrateAll p1 p2) := by
  unfold State.calibrateAll
  refine keeps_foldl ?_ (fun a x ha => ?_)
  · exact hp1
  · skip
    extract_lets +onlyGivenNames -merge -underBinder x1
    have h2 : Keeps s0 (x1) := by
      unfold x1
      refine State.wr_keeps ?_
      · exact ha
    clear_value x1
    apply keeps_gen x1 h2
    clear h2
    intro x1 h2
    refine keeps_ite (fun _ => ?_) (fun _ => ?_)
    · refine State.calFail_keeps ?_
      · exact h2
    · refine State.wr_keeps ?_
      · exact h2

theorem State.startDomain_keeps {s0 : State} {p1 : Machine.State} (hp1 : Keeps s0 (p1)) : Keeps s0 (@State.startDomain p1) := by
  unfold State.startDomain
  split
  · exact hp1
  · refine keeps_ite (fun _ => ?_) (fun _ => ?_)
    · exact hp1
    · split
      · exact hp1
      · extract_lets +onlyGivenNames -merge -underBinder x1
        have h2 : Keeps s0 (x1) := by
          unfold x1
          refine State.mark_keeps ?_
          · exact hp1
        clear_value x1
        apply keeps_gen x1 h2
        clear h2
        intro x1 h2
        refine keeps_ite (fun _ => ?_) (fun _ => ?_)
        · exact h2
        · refine State.deriveDomain_keeps ?_
          · refine State.writeKey_keeps ?_
            · exact h2

theorem State.startCak_keeps {s0 : State} {p1 : Machine.State} {p2 : Nat} (hp1 : Keeps s0 (p1)) : Keeps s0 (@State.startCak p1 p2) := by
  unfold State.startCak
  split
  · exact hp1
  · refine keeps_ite (fun _ => ?_) (fun _ => ?_)
    · exact hp1
    · split
      · exact hp1
      · refine State.writeKey_keeps ?_
        · exact hp1

theorem State.pocKeys_keeps {s0 : State} {p1 : Machine.State} {p2 : List (Fin 257)} (hp1 : Keeps s0 (p1)) : Keeps s0 (@State.pocKeys p1 p2) := by
  unfold State.pocKeys
  extract_lets +onlyGivenNames -merge -underBinder x1
  have h2 : Keeps s0 (x1) := by
    unfold x1
    refine State.startKeys_keeps ?_
    · refine State.resetExpiry_keeps ?_
      · refine State.bumpMonotonic_keeps ?_
        · exact hp1
  clear_value x1
  apply keeps_gen x1 h2
  clear h2
  intro x1 h2
  extract_lets +onlyGivenNames -merge -underBinder x3
  have h4 : Keeps s0 (x3) := by
    unfold x3
    refine State.startDomain_keeps ?_
    · refine keeps_foldl ?_ (fun a x ha => ?_)
      · exact h2
      · skip
        refine State.cisternBad_keeps ?_
        · exact ha
  clear_value x3
  apply keeps_gen x3 h4
  clear h4
  intro x3 h4
  extract_lets +onlyGivenNames -merge -underBinder x5
  have h6 : Keeps s0 (x5) := by
    unfold x5
    refine keeps_foldl ?_ (fun a x ha => ?_)
    · exact h4
    · skip
      refine State.startCak_keeps ?_
      · exact ha
  clear_value x5
  apply keeps_gen x5 h6
  clear h6
  intro x5 h6
  refine State.wr_keeps ?_
  · exact h6

theorem thirdFuse_le (n : Fin 4) : n ≤ thirdFuse n := by
  revert n; decide

theorem keeps_sense {s0 s : State} (h : Keeps s0 s) : Keeps s0 ({ s with chip := s.chip.sense } : State) :=
  ⟨h.pending, Fin.le_trans h.mFuses (thirdFuse_le _), Fin.le_trans h.cFuses (thirdFuse_le _),
   Fin.le_trans h.tFuses (thirdFuse_le _), h.pools, h.tables, fun x => ⟨(h.bounded x).events, (h.bounded x).tamper, (h.bounded x).learn, (h.bounded x).poison⟩, h.held⟩

theorem State.pocStep_keeps {s0 s : State} {n : Nat} {d : Octets} {l : List LaneNo} {r : List (Fin 257)}
    (h : Keeps s0 s) : Keeps s0 (s.pocStep n d l r) := by
  unfold State.pocStep
  split
  · exact State.flashHeader_keeps (keeps_sense h)
  · exact State.calibrateAll_keeps h
  · exact State.pocKeys_keeps h
  · exact keeps_ite (fun _ => State.tamperNote_keeps h) (fun _ => State.pocDone_keeps (State.tamperNote_keeps h))
  · exact h

theorem execPocStepEnd_keeps {s0 : State} {p1 : Option (BitVec 16)} {p2 : Octets} {p3 : List LaneNo} {p4 : List (Fin 257)} {p5 : BitVec 48} {p6 : Word} {p7 : Machine.State} (hp7 : Keeps s0 (p7)) : KeepsO s0 (@execPocStepEnd p1 p2 p3 p4 p5 p6 p7) := by
  unfold execPocStepEnd
  extract_lets +onlyGivenNames -merge -underBinder x1
  try clear_value x1
  refine keepsO_ite (fun _ => ?_) (fun _ => ?_)
  · refine keepsO_next ?_
    exact hp7
  · extract_lets +onlyGivenNames -merge -underBinder x2
    have h3 : Keeps s0 (x2) := by
      unfold x2
      refine State.wr_keeps ?_
      · refine State.setWatch_keeps ?_
        · exact hp7
    clear_value x2
    apply keeps_gen x2 h3
    clear h3
    intro x2 h3
    split
    · refine keepsO_ite (fun _ => ?_) (fun _ => ?_)
      · refine keepsO_next ?_
        refine State.pocStep_keeps ?_
        · exact h3
      · refine keepsO_next ?_
        refine State.pocFail_keeps ?_
        · exact h3
    · refine keepsO_next ?_
      refine State.pocStep_keeps ?_
      · exact h3

end Sys2Proof.Machine
end

