-- ==== Sys2Proof/Laws/KeepsSounding.lean ====
section
/-! SUPPORT. What the definitions of Sys2Proof/Machine/Sounding.lean keep: one lemma each, in the terms of `Keeps`. -/

namespace Sys2Proof.Machine

open Sys2Proof

theorem State.ctrLost_keeps {s0 : State} {p1 : Machine.State} {p2 : Nat} (hp1 : Keeps s0 (p1)) : Keeps s0 (@State.ctrLost p1 p2) := by
  unfold State.ctrLost
  extract_lets +onlyGivenNames -merge -underBinder x1
  try clear_value x1
  refine State.report_keeps ?_
  · exact keeps_tables hp1 rfl rfl rfl rfl rfl rfl rfl (fun x => ⟨x.1, x.2.1, by exact Tbl.rising_set x.2.2⟩) rfl

theorem State.sampleCtr_keeps {s0 s : State} {bad : List (BitVec 32)} {b : Bool} {a : Nat} (h : Keeps s0 s) :
    Keeps s0 (s.sampleCtr bad b a).2 := by
  have hc : ∀ x : State, Keeps s0 x → Keeps s0 ({ x with counters := Tbl.set {} x.counters a {} } : State) := by
    intro x hx
    refine keeps_tables hx rfl rfl rfl rfl rfl rfl rfl (fun y => ⟨y.1, y.2.1, ?_⟩) rfl
    have := Tbl.rising_set (d := ({} : Ctr)) (n := a) (x := {}) y.2.2
    exact this
  unfold State.sampleCtr
  extract_lets s1
  have h1 : Keeps s0 s1 := keeps_ite (fun _ => State.ctrLost_keeps h) (fun _ => h)
  exact keeps_ite (fun _ => hc _ h1) (fun _ => h1)

theorem State.snapItems_keeps {s0 s : State} {b : Bool} {l : List Nat} (h : Keeps s0 s) : Keeps s0 (s.snapItems b l).2 := by
  induction l generalizing s with
  | nil => exact h
  | cons a t ih =>
    unfold State.snapItems
    split
    · exact ih h
    · exact ih (State.sampleCtr_keeps h)

theorem State.dropSchedule_keeps {s0 : State} {p1 : Machine.State} {p2 : Nat} (hp1 : Keeps s0 (p1)) : Keeps s0 (@State.dropSchedule p1 p2) := by
  unfold State.dropSchedule
  exact keeps_upd hp1 rfl rfl rfl rfl rfl rfl rfl rfl rfl rfl rfl rfl (.inl rfl)

theorem State.scheduleDump_keeps {s0 : State} {p1 : Machine.State} {p2 : Nat} (hp1 : Keeps s0 (p1)) : Keeps s0 (@State.scheduleDump p1 p2) := by
  unfold State.scheduleDump
  refine State.scheduleAt_keeps ?_
  · exact hp1

theorem State.scheduleWrite_keeps {s0 : State} {p1 : Machine.State} {p2 : Nat} {p3 : Nat} {p4 : Word} (hp1 : Keeps s0 (p1)) : Keeps s0 (@State.scheduleWrite p1 p2 p3 p4) := by
  unfold State.scheduleWrite
  extract_lets +onlyGivenNames -merge -underBinder x1
  try clear_value x1
  extract_lets +onlyGivenNames -merge -underBinder x2
  have h3 : Keeps s0 (x2) := by
    unfold x2
    refine State.plainWrite_keeps ?_
    · exact hp1
  clear_value x2
  apply keeps_gen x2 h3
  clear h3
  intro x2 h3
  refine keeps_ite (fun _ => ?_) (fun _ => ?_)
  · refine keeps_ite (fun _ => ?_) (fun _ => ?_)
    · refine State.mark_keeps ?_
      · exact hp1
    · refine keeps_ite (fun _ => ?_) (fun _ => ?_)
      · refine State.dropSchedule_keeps ?_
        · exact h3
      · exact h3
  · refine keeps_ite (fun _ => ?_) (fun _ => ?_)
    · refine keeps_ite (fun _ => ?_) (fun _ => ?_)
      · refine State.mark_keeps ?_
        · exact hp1
      · refine State.scheduleDump_keeps ?_
        · exact keeps_upd h3 rfl rfl rfl rfl rfl rfl rfl rfl rfl rfl rfl rfl (.inl rfl)
    · exact h3

theorem execSndScheduleWrite_keeps {s0 : State} {p1 : Fin 5} {p2 : Fin 64} {p3 : Word} {p4 : Machine.State} (hp4 : Keeps s0 (p4)) : KeepsO s0 (@execSndScheduleWrite p1 p2 p3 p4) := by
  unfold execSndScheduleWrite
  refine keepsO_ite (fun _ => ?_) (fun _ => ?_)
  · exact keepsO_fault
  · refine guardRsvd_keeps ?_
    · refine keepsO_next ?_
      refine State.scheduleWrite_keeps ?_
      · exact hp4

theorem State.thresholdWrite_keeps {s0 : State} {p1 : Machine.State} {p2 : Nat} {p3 : Nat} {p4 : Word} (hp1 : Keeps s0 (p1)) : Keeps s0 (@State.thresholdWrite p1 p2 p3 p4) := by
  unfold State.thresholdWrite
  extract_lets +onlyGivenNames -merge -underBinder x1
  try clear_value x1
  extract_lets +onlyGivenNames -merge -underBinder x2
  have h3 : Keeps s0 (x2) := by
    unfold x2
    refine State.plainWrite_keeps ?_
    · exact hp1
  clear_value x2
  apply keeps_gen x2 h3
  clear h3
  intro x2 h3
  refine keeps_ite (fun _ => ?_) (fun _ => ?_)
  · refine keeps_ite (fun _ => ?_) (fun _ => ?_)
    · refine State.mark_keeps ?_
      · exact hp1
    · refine keeps_ite (fun _ => ?_) (fun _ => ?_)
      · refine State.unmark_keeps ?_
        · exact h3
      · exact h3
  · refine keeps_ite (fun _ => ?_) (fun _ => ?_)
    · refine keeps_ite (fun _ => ?_) (fun _ => ?_)
      · refine State.mark_keeps ?_
        · exact hp1
      · refine State.mark_keeps ?_
        · exact h3
    · exact h3

theorem execSndThresholdWrite_keeps {s0 : State} {p1 : Fin 3} {p2 : Fin 64} {p3 : Word} {p4 : Machine.State} (hp4 : Keeps s0 (p4)) : KeepsO s0 (@execSndThresholdWrite p1 p2 p3 p4) := by
  unfold execSndThresholdWrite
  refine guardRsvd_keeps ?_
  · refine keepsO_next ?_
    refine State.thresholdWrite_keeps ?_
    · exact hp4

theorem State.sampleCtrs_keeps {s0 s : State} {bad : List (BitVec 32)} {b : Bool} {l : List Nat} (h : Keeps s0 s) :
    Keeps s0 (s.sampleCtrs bad b l).2 := by
  induction l generalizing s with
  | nil => exact h
  | cons a t ih => exact ih (State.sampleCtr_keeps h)

theorem ctrdAct_keeps {s0 : State} {p1 : List (BitVec 32)} {p2 : EngineOp} {p3 : Machine.State} (hp3 : Keeps s0 (p3)) : Keeps s0 (@ctrdAct p1 p2 p3).2 := by
  unfold ctrdAct
  extract_lets +onlyGivenNames -merge -underBinder x1
  try clear_value x1
  refine keepsP_ite (fun _ => ?_) (fun _ => ?_)
  · refine keepsP_mk ?_
    exact hp3
  · extract_lets +onlyGivenNames -merge -underBinder x2
    try clear_value x2
    split
    · rename_i h5e
      have h5 : Keeps s0 _ := keeps_of_eq h5e (by
        refine State.sampleCtrs_keeps ?_
        · exact hp3
        )
      refine keepsP_mk ?_
      exact h5

theorem engineMake_keeps {s0 s : State} {n : Nat} {o : EngineOp} (h : Keeps s0 s) : Keeps s0 (engineMake n o s).2 := by
  unfold engineMake
  split
  · exact kderAccept_keeps h
  · exact tblAct_keeps h
  · exact bsnEngine_keeps h
  · exact bsnEngine_keeps h
  · exact h
  · exact ctrdAct_keeps h

theorem execEngineOpInvalid_keeps {s0 : State} {p1 : Fin 6} {p2 : ThreadNo} {p3 : BitVec 8} {p4 : GReg} {p5 : Machine.State} (hp5 : Keeps s0 (p5)) : KeepsO s0 (@execEngineOpInvalid p1 p2 p3 p4 p5) := by
  unfold execEngineOpInvalid
  refine State.engineCall_keeps ?_ ?_
  · exact hp5
  · intro q1 q2 hq2
    refine engineMake_keeps ?_
    · exact hq2

theorem State.dumpRefused_keeps {s0 : State} {p1 : Machine.State} (hp1 : Keeps s0 (p1)) : Keeps s0 (@State.dumpRefused p1) := by
  unfold State.dumpRefused
  refine State.count_keeps ?_
  · refine State.mark_keeps ?_
    · exact hp1

theorem State.fillItems_keeps {s0 s : State} {bad : List (BitVec 32)} {b : Bool} {l : List (Nat × Option Word)}
    (h : Keeps s0 s) : Keeps s0 (s.fillItems bad b l).2 := by
  induction l generalizing s with
  | nil => exact h
  | cons p t ih =>
    obtain ⟨a, v⟩ := p
    unfold State.fillItems
    refine ih ?_
    split
    · exact h
    · exact State.sampleCtr_keeps h

theorem State.dumpWrite_keeps {s0 : State} {p1 : Machine.State} {p2 : DumpRun} {p3 : Nat} {p4 : Octets} (hp1 : Keeps s0 (p1)) : Keeps s0 (@State.dumpWrite p1 p2 p3 p4).2 := by
  unfold State.dumpWrite
  refine keepsP_ite (fun _ => ?_) (fun _ => ?_)
  · refine keepsP_ite (fun _ => ?_) (fun _ => ?_)
    · refine keepsP_mk ?_
      refine State.emit_keeps ?_
      · exact hp1
    · refine keepsP_mk ?_
      exact hp1
  · split
    · rename_i h2e
      have h2 : Keeps s0 _ := keeps_of_eq h2e (by
        refine State.areaWrite_keeps ?_
        · exact hp1
        )
      refine keepsP_mk ?_
      exact h2
    · rename_i h5e
      have h5 : Keeps s0 _ := keeps_of_eq h5e (by
        refine State.areaWrite_keeps ?_
        · exact hp1
        )
      refine keepsP_mk ?_
      exact h5

theorem State.dumpAbandoned_keeps {s0 : State} {p1 : Machine.State} {p2 : DumpRun} (hp1 : Keeps s0 (p1)) : Keeps s0 (@State.dumpAbandoned p1 p2) := by
  unfold State.dumpAbandoned
  extract_lets +onlyGivenNames -merge -underBinder x1
  try clear_value x1
  refine State.dumpRefused_keeps ?_
  · refine keeps_ite (fun _ => ?_) (fun _ => ?_)
    · exact keeps_upd hp1 rfl rfl rfl rfl rfl rfl rfl rfl rfl rfl rfl rfl (.inl rfl)
    · exact hp1

theorem State.dumpPublished_keeps {s0 : State} {p1 : Machine.State} {p2 : DumpRun} (hp1 : Keeps s0 (p1)) : Keeps s0 (@State.dumpPublished p1 p2) := by
  unfold State.dumpPublished
  extract_lets +onlyGivenNames -merge -underBinder x1
  try clear_value x1
  extract_lets +onlyGivenNames -merge -underBinder x2
  try clear_value x2
  extract_lets +onlyGivenNames -merge -underBinder y4 x3
  try clear_value y4
  try clear_value x3
  refine State.count_keeps ?_
  · refine State.wr_keeps ?_
    · refine State.wr_keeps ?_
      · exact keeps_upd hp1 rfl rfl rfl rfl rfl rfl rfl rfl rfl rfl rfl rfl (.inl rfl)

theorem execDumpPublish_keeps {s0 : State} {p1 : List (BitVec 32)} {p2 : Word} {p3 : Machine.State} (hp3 : Keeps s0 (p3)) : KeepsO s0 (@execDumpPublish p1 p2 p3) := by
  unfold execDumpPublish
  extract_lets +onlyGivenNames -merge -underBinder x1
  have h2 : Keeps s0 (x1) := by
    unfold x1
    refine State.timeTo_keeps ?_
    · exact hp3
  clear_value x1
  apply keeps_gen x1 h2
  clear h2
  intro x1 h2
  split
  · refine keepsO_next ?_
    exact h2
  · extract_lets +onlyGivenNames -merge -underBinder y4 x3
    try clear_value y4
    have h5 : Keeps s0 (x3) := by
      unfold x3
      refine State.unmark_keeps ?_
      · exact keeps_upd h2 rfl rfl rfl rfl rfl rfl rfl rfl rfl rfl rfl rfl (.inl rfl)
    clear_value x3
    apply keeps_gen x3 h5
    clear h5
    intro x3 h5
    split
    · rename_i h8e
      have h8 : Keeps s0 _ := keeps_of_eq h8e (by
        refine State.fillItems_keeps ?_
        · exact h5
        )
      split
      · rename_i h10e
        have h10 : Keeps s0 _ := keeps_of_eq h10e (by
          refine State.dumpWrite_keeps ?_
          · exact h8
          )
        refine keepsO_next ?_
        refine State.dumpAbandoned_keeps ?_
        · exact h10
      · rename_i h12e
        have h12 : Keeps s0 _ := keeps_of_eq h12e (by
          refine State.dumpWrite_keeps ?_
          · exact h8
          )
        split
        · rename_i h14e
          have h14 : Keeps s0 _ := keeps_of_eq h14e (by
            refine State.dumpWrite_keeps ?_
            · exact h12
            )
          refine keepsO_next ?_
          refine State.dumpPublished_keeps ?_
          · exact h14
        · rename_i h16e
          have h16 : Keeps s0 _ := keeps_of_eq h16e (by
            refine State.dumpWrite_keeps ?_
            · exact h12
            )
          refine keepsO_next ?_
          refine State.dumpAbandoned_keeps ?_
          · exact h16

theorem execBalCtrd_keeps {s0 : State} {p1 : ThreadNo} {p2 : BitVec 8} {p3 : GReg} {p4 : List (BitVec 32)} {p5 : Machine.State} (hp5 : Keeps s0 (p5)) : KeepsO s0 (@execBalCtrd p1 p2 p3 p4 p5) := by
  unfold execBalCtrd
  refine State.engineCall_keeps ?_ ?_
  · exact hp5
  · intro q1 q2 hq2
    refine ctrdAct_keeps ?_
    · exact hq2

theorem execBalCtrdClear_keeps {s0 : State} {p1 : ThreadNo} {p2 : BitVec 8} {p3 : GReg} {p4 : List (BitVec 32)} {p5 : Machine.State} (hp5 : Keeps s0 (p5)) : KeepsO s0 (@execBalCtrdClear p1 p2 p3 p4 p5) := by
  unfold execBalCtrdClear
  refine State.engineCall_keeps ?_ ?_
  · exact hp5
  · intro q1 q2 hq2
    refine ctrdAct_keeps ?_
    · exact hq2

theorem State.startDump_keeps {s0 : State} {p1 : Machine.State} {p2 : DumpReq} (hp1 : Keeps s0 (p1)) : Keeps s0 (@State.startDump p1 p2) := by
  unfold State.startDump
  extract_lets +onlyGivenNames -merge -underBinder x1
  try clear_value x1
  extract_lets +onlyGivenNames -merge -underBinder x2
  try clear_value x2
  extract_lets +onlyGivenNames -merge -underBinder x3
  try clear_value x3
  refine keeps_ite (fun _ => ?_) (fun _ => ?_)
  · refine State.dumpMissed_keeps ?_
    · exact hp1
  · split
    · rename_i h6e
      have h6 : Keeps s0 _ := keeps_of_eq h6e (by
        refine State.areaRead_keeps ?_
        · exact hp1
        )
      extract_lets +onlyGivenNames -merge -underBinder x7
      try clear_value x7
      extract_lets +onlyGivenNames -merge -underBinder x8
      try clear_value x8
      extract_lets +onlyGivenNames -merge -underBinder x9
      try clear_value x9
      refine keeps_ite (fun _ => ?_) (fun _ => ?_)
      · refine State.dumpRefused_keeps ?_
        · exact h6
      · extract_lets +onlyGivenNames -merge -underBinder x10
        try clear_value x10
        extract_lets +onlyGivenNames -merge -underBinder x11
        try clear_value x11
        split
        · rename_i h14e
          have h14 : Keeps s0 _ := keeps_of_eq h14e (by
            refine State.snapItems_keeps ?_
            · exact h6
            )
          extract_lets +onlyGivenNames -merge -underBinder x15
          try clear_value x15
          refine State.mark_keeps ?_
          · exact keeps_upd h14 rfl rfl rfl rfl rfl rfl rfl rfl rfl rfl rfl rfl (.inl rfl)
    · rename_i h18e
      have h18 : Keeps s0 _ := keeps_of_eq h18e (by
        refine State.areaRead_keeps ?_
        · exact hp1
        )
      refine State.dumpRefused_keeps ?_
      · exact h18

theorem execDumpStart_keeps {s0 : State} {p1 : Word} {p2 : Machine.State} (hp2 : Keeps s0 (p2)) : KeepsO s0 (@execDumpStart p1 p2) := by
  unfold execDumpStart
  extract_lets +onlyGivenNames -merge -underBinder x1
  have h2 : Keeps s0 (x1) := by
    unfold x1
    refine State.timeTo_keeps ?_
    · exact hp2
  clear_value x1
  apply keeps_gen x1 h2
  clear h2
  intro x1 h2
  split
  · refine keepsO_next ?_
    refine State.startDump_keeps ?_
    · exact keeps_upd h2 rfl rfl rfl rfl rfl rfl rfl rfl rfl rfl rfl rfl (.inl rfl)
  · refine keepsO_next ?_
    exact h2

theorem execSlotSample_keeps {s0 : State} {p1 : Fin 32} {p2 : BitVec 32} {p3 : Machine.State} (hp3 : Keeps s0 (p3)) : KeepsO s0 (@execSlotSample p1 p2 p3) := by
  unfold execSlotSample
  split
  · refine keepsO_next ?_
    exact hp3
  · extract_lets +onlyGivenNames -merge -underBinder y2 x1
    try clear_value y2
    have h3 : Keeps s0 (x1) := by
      unfold x1
      exact keeps_upd hp3 rfl rfl rfl rfl rfl rfl rfl rfl rfl rfl rfl rfl (.inl rfl)
    clear_value x1
    apply keeps_gen x1 h3
    clear h3
    intro x1 h3
    extract_lets +onlyGivenNames -merge -underBinder x4
    try clear_value x4
    extract_lets +onlyGivenNames -merge -underBinder x5
    try clear_value x5
    refine keepsO_ite (fun _ => ?_) (fun _ => ?_)
    · refine keepsO_next ?_
      refine State.sampleDropped_keeps ?_
      · exact h3
    · extract_lets +onlyGivenNames -merge -underBinder x6
      try clear_value x6
      split
      · rename_i h8e
        have h8 : Keeps s0 _ := keeps_of_eq h8e (by
          refine State.areaWrite_keeps ?_
          · exact h3
          )
        refine keepsO_next ?_
        refine State.count_keeps ?_
        · refine State.wr_keeps ?_
          · exact h8
      · rename_i h11e
        have h11 : Keeps s0 _ := keeps_of_eq h11e (by
          refine State.areaWrite_keeps ?_
          · exact h3
          )
        refine keepsO_next ?_
        refine State.sampleDropped_keeps ?_
        · exact h11

theorem execThresholdSample_keeps {s0 : State} {p1 : Fin 64} {p2 : Machine.State} (hp2 : Keeps s0 (p2)) : KeepsO s0 (@execThresholdSample p1 p2) := by
  unfold execThresholdSample
  refine keepsO_ite (fun _ => ?_) (fun _ => ?_)
  · refine keepsO_next ?_
    exact hp2
  · extract_lets +onlyGivenNames -merge -underBinder x1
    try clear_value x1
    extract_lets +onlyGivenNames -merge -underBinder x2
    have h3 : Keeps s0 (x2) := by
      unfold x2
      refine State.setReg_keeps ?_
      · exact hp2
    clear_value x2
    apply keeps_gen x2 h3
    clear h3
    intro x2 h3
    extract_lets +onlyGivenNames -merge -underBinder x4
    try clear_value x4
    extract_lets +onlyGivenNames -merge -underBinder x5
    try clear_value x5
    extract_lets +onlyGivenNames -merge -underBinder x6
    try clear_value x6
    refine keepsO_ite (fun _ => ?_) (fun _ => ?_)
    · refine keepsO_ite (fun _ => ?_) (fun _ => ?_)
      · refine keepsO_next ?_
        refine State.count_keeps ?_
        · refine State.raiseEvent_keeps ?_
          · refine State.mark_keeps ?_
            · refine State.unmark_keeps ?_
              · exact h3
      · refine keepsO_next ?_
        exact h3
    · refine keepsO_ite (fun _ => ?_) (fun _ => ?_)
      · refine keepsO_next ?_
        refine State.mark_keeps ?_
        · exact h3
      · refine keepsO_next ?_
        exact h3

end Sys2Proof.Machine
end

