-- ==== Sys2Proof/Laws/KeepsRegBus.lean ====
section
/-! SUPPORT. What the definitions of Sys2Proof/Machine/RegBus.lean keep: one lemma each, in the terms of `Keeps`. -/

namespace Sys2Proof.Machine

open Sys2Proof

theorem State.readWord_keeps {s0 : State} {p1 : Machine.State} {p2 : Master} {p3 : Reg} {p4 : Nat} {p5 : Nat} {p6 : Nat} (hp1 : Keeps s0 (p1)) : Keeps s0 (@State.readWord p1 p2 p3 p4 p5 p6).2 := by
  unfold State.readWord
  split
  · refine keepsP_mk ?_
    refine State.latchGauge_keeps ?_
    · exact hp1
  · refine keepsP_mk ?_
    refine State.latchWatch_keeps ?_
    · exact hp1
  · refine keepsP_mk ?_
    refine State.latchTime_keeps ?_
    · exact hp1
  · refine State.tsbRead_keeps ?_
    · exact hp1
  · refine keepsP_mk ?_
    exact hp1

theorem State.withSpare_keeps {s0 : State} {p1 : Machine.State} {p2 : Reg} {p3 : Nat} {p4 : Word} (hp1 : Keeps s0 (p1)) : Keeps s0 (@State.withSpare p1 p2 p3 p4).2 := by
  unfold State.withSpare
  extract_lets +onlyGivenNames -merge -underBinder x1
  try clear_value x1
  refine keepsP_ite (fun _ => ?_) (fun _ => ?_)
  · refine keepsP_mk ?_
    exact hp1
  · split
    · rename_i h4e
      have h4 : Keeps s0 _ := keeps_of_eq h4e (by
        refine State.draw_keeps ?_
        · exact hp1
        )
      refine keepsP_mk ?_
      exact h4

theorem State.regRead_keeps {s0 : State} {p1 : Machine.State} {p2 : Master} {p3 : Nat} {p4 : Nat} (hp1 : Keeps s0 (p1)) : Keeps s0 (@State.regRead p1 p2 p3 p4).2 := by
  unfold State.regRead
  refine keepsP_ite (fun _ => ?_) (fun _ => ?_)
  · refine keepsP_mk ?_
    exact hp1
  · split
    · refine keepsP_mk ?_
      exact hp1
    · refine keepsP_ite (fun _ => ?_) (fun _ => ?_)
      · refine keepsP_mk ?_
        exact hp1
      · split
        · rename_i h3e
          have h3 : Keeps s0 _ := keeps_of_eq h3e (by
            refine State.readWord_keeps ?_
            · exact hp1
            )
          split
          · rename_i h6e
            have h6 : Keeps s0 _ := keeps_of_eq h6e (by
              refine State.withSpare_keeps ?_
              · exact h3
              )
            refine keepsP_mk ?_
            exact h6

theorem State.modecmdWrite_keeps {s0 : State} {p1 : Machine.State} {p2 : Word} (hp1 : Keeps s0 (p1)) : Keeps s0 (@State.modecmdWrite p1 p2) := by
  unfold State.modecmdWrite
  refine keeps_ite (fun _ => ?_) (fun _ => ?_)
  · refine State.mark_keeps ?_
    · exact hp1
  · refine State.modeCmd_keeps ?_
    · refine keeps_ite (fun _ => ?_) (fun _ => ?_)
      · refine State.unmark_keeps ?_
        · exact hp1
      · exact hp1

theorem State.lccmdWrite_keeps {s0 : State} {p1 : Machine.State} {p2 : Word} (hp1 : Keeps s0 (p1)) : Keeps s0 (@State.lccmdWrite p1 p2) := by
  unfold State.lccmdWrite
  refine keeps_ite (fun _ => ?_) (fun _ => ?_)
  · refine State.mark_keeps ?_
    · exact hp1
  · refine State.lcCmd_keeps ?_
    · refine keeps_ite (fun _ => ?_) (fun _ => ?_)
      · refine State.unmark_keeps ?_
        · exact hp1
      · exact hp1

theorem State.gblResetWrite_keeps {s0 : State} {p1 : Machine.State} {p2 : Word} (hp1 : Keeps s0 (p1)) : Keeps s0 (@State.gblResetWrite p1 p2) := by
  unfold State.gblResetWrite
  refine keeps_ite (fun _ => ?_) (fun _ => ?_)
  · refine State.deviceReset_keeps ?_
    · exact hp1
  · refine keeps_ite (fun _ => ?_) (fun _ => ?_)
    · refine State.hifReset_keeps ?_
      · exact hp1
    · exact hp1

theorem andThen_keeps {s0 : State} {x : Host.Outcome State Fault Refusal} {f : State → Host.Outcome State Fault Refusal}
    (hx : KeepsO s0 x) (hf : ∀ s, Keeps s0 s → KeepsO s0 (f s)) : KeepsO s0 (andThen x f) := by
  unfold andThen
  split
  · exact hf _ hx
  · exact hx

theorem gblDebugWrite_keeps {s0 : State} {p1 : Machine.State} {p2 : Word} (hp1 : Keeps s0 (p1)) : KeepsO s0 (@gblDebugWrite p1 p2) := by
  unfold gblDebugWrite
  extract_lets +onlyGivenNames -merge -underBinder x1
  have h2 : Keeps s0 (x1) := by
    unfold x1
    refine State.plainWrite_keeps ?_
    · exact hp1
  clear_value x1
  apply keeps_gen x1 h2
  clear h2
  intro x1 h2
  refine andThen_keeps ?_ ?_
  · refine keepsO_ite (fun _ => ?_) (fun _ => ?_)
    · refine execDebugReq_keeps ?_
      · exact h2
    · refine keepsO_next ?_
      exact h2
  · intro q3 hq3
    refine keepsO_ite (fun _ => ?_) (fun _ => ?_)
    · refine execDebugClose_keeps ?_
      · exact hq3
    · refine keepsO_next ?_
      exact hq3

theorem State.imageWrite_keeps {s0 : State} {p1 : Machine.State} {p2 : Field} {p3 : Field} {p4 : Reg} {p5 : Nat} {p6 : Nat} {p7 : Word} {p8 : optParam Nat 0} (hp1 : Keeps s0 (p1)) : Keeps s0 (@State.imageWrite p1 p2 p3 p4 p5 p6 p7 p8) := by
  unfold State.imageWrite
  refine keeps_ite (fun _ => ?_) (fun _ => ?_)
  · refine State.mark_keeps ?_
    · exact hp1
  · refine State.plainWrite_keeps ?_
    · exact hp1

theorem State.cmpCtlWrite_keeps {s0 : State} {p1 : Machine.State} {p2 : Word} (hp1 : Keeps s0 (p1)) : KeepsO s0 (@State.cmpCtlWrite p1 p2) := by
  unfold State.cmpCtlWrite
  refine keepsO_ite (fun _ => ?_) (fun _ => ?_)
  · refine execCommit_keeps ?_
    · exact hp1
  · refine keepsO_next ?_
    refine State.unlessPend_keeps ?_ ?_
    · exact hp1
    · exact hp1

theorem regStore_keeps {s0 : State} {p1 : Machine.State} {p2 : Master} {p3 : Reg} {p4 : Nat} {p5 : Nat} {p6 : Word} (hp1 : Keeps s0 (p1)) : KeepsO s0 (@regStore p1 p2 p3 p4 p5 p6) := by
  unfold regStore
  split
  · refine keepsO_next ?_
    refine State.modecmdWrite_keeps ?_
    · exact hp1
  · refine keepsO_next ?_
    refine State.lccmdWrite_keeps ?_
    · exact hp1
  · refine keepsO_next ?_
    refine State.gblResetWrite_keeps ?_
    · exact hp1
  · refine gblDebugWrite_keeps ?_
    · exact hp1
  · refine keepsO_next ?_
    refine gauRecordWrite_keeps ?_
    · exact hp1
  · refine execGauSnapctlTrig_keeps ?_
    · exact hp1
  · refine keepsO_next ?_
    refine State.rcCtlWrite_keeps ?_
    · exact hp1
  · refine execWeiGrpCfgWrite_keeps ?_
    · exact hp1
  · refine keepsO_next ?_
    refine State.failclrWrite_keeps ?_
    · exact hp1
  · refine keepsO_next ?_
    refine State.cardWrite_keeps ?_
    · exact hp1
  · refine keepsO_next ?_
    refine State.cardGrantWrite_keeps ?_
    · exact hp1
  · refine keepsO_next ?_
    refine State.pgownWrite_keeps ?_
    · exact hp1
  · refine keepsO_next ?_
    refine State.kstCmdWrite_keeps ?_
    · exact hp1
  · refine keepsO_next ?_
    refine State.imageWrite_keeps ?_
    · exact hp1
  · refine keepsO_next ?_
    refine State.dltCmd_keeps ?_
    · exact hp1
  · refine keepsO_next ?_
    refine State.imageWrite_keeps ?_
    · exact hp1
  · refine keepsO_next ?_
    refine State.imageWrite_keeps ?_
    · exact hp1
  · refine keepsO_next ?_
    refine State.imageWrite_keeps ?_
    · exact hp1
  · refine execDltHseedWrite_keeps ?_
    · exact hp1
  · refine keepsO_next ?_
    refine State.bsnCmdWrite_keeps ?_
    · exact hp1
  · refine keepsO_next ?_
    refine State.imageWrite_keeps ?_
    · exact hp1
  · refine keepsO_next ?_
    refine State.imageWrite_keeps ?_
    · exact hp1
  · refine execBsnPoolWrite_keeps ?_
    · exact hp1
  · refine keepsO_next ?_
    refine State.bsnFifoWrite_keeps ?_
    · exact hp1
  · refine keepsO_next ?_
    refine State.bsnResWrite_keeps ?_
    · exact hp1
  · refine keepsO_next ?_
    refine State.rngWrite_keeps ?_
    · exact hp1
  · refine keepsO_next ?_
    refine State.culCtlWrite_keeps ?_
    · exact hp1
  · refine execPeakClr_keeps ?_
    · exact hp1
  · refine keepsO_next ?_
    refine State.dropCode_keeps ?_
    · exact hp1
  · refine keepsO_next ?_
    refine State.resetCores_keeps ?_
    · exact hp1
  · refine keepsO_next ?_
    refine State.thrcfgWrite_keeps ?_
    · exact hp1
  · refine keepsO_next ?_
    refine State.thrctlWrite_keeps ?_
    · exact hp1
  · refine keepsO_next ?_
    refine State.entryWrite_keeps ?_
    · exact hp1
  · refine State.cmpCtlWrite_keeps ?_
    · exact hp1
  · refine keepsO_next ?_
    refine keeps_ite (fun _ => ?_) (fun _ => ?_)
    · refine State.fenceStart_keeps ?_
      · exact hp1
    · exact hp1
  · refine keepsO_next ?_
    refine State.cmpStatWrite_keeps ?_
    · exact hp1
  · refine keepsO_next ?_
    refine State.unlessPend_keeps ?_ ?_
    · exact hp1
    · refine State.plainWrite_keeps ?_
      · exact hp1
  · refine keepsO_next ?_
    refine State.unlessPend_keeps ?_ ?_
    · exact hp1
    · refine State.plainWrite_keeps ?_
      · exact hp1
  · refine keepsO_next ?_
    refine State.unlessPend_keeps ?_ ?_
    · exact hp1
    · refine State.plainWrite_keeps ?_
      · exact hp1
  · refine keepsO_next ?_
    refine State.poolOwnWrite_keeps ?_
    · exact hp1
  · refine keepsO_next ?_
    refine State.lnCtlWrite_keeps ?_
    · exact hp1
  · refine keepsO_next ?_
    refine State.txeqWrite_keeps ?_
    · exact hp1
  · refine keepsO_next ?_
    refine State.lnMapWrite_keeps ?_
    · exact hp1
  · refine keepsO_next ?_
    refine State.eyeWrite_keeps ?_
    · exact hp1
  · refine execFrmCtlWrite_keeps ?_
    · exact hp1
  · refine execFrmGposWrite_keeps ?_
    · exact hp1
  · refine execFrmCportWrite_keeps ?_
    · exact hp1
  · refine execFrmCooposWrite_keeps ?_
    · exact hp1
  · refine keepsO_next ?_
    refine State.l1ctlWrite_keeps ?_
    · exact hp1
  · refine keepsO_next ?_
    refine State.l1holdWrite_keeps ?_
    · exact hp1
  · refine State.l1CmdWrite_keeps ?_
    · exact hp1
  · refine keepsO_next ?_
    refine State.imageWrite_keeps ?_
    · exact hp1
  · refine keepsO_next ?_
    refine State.untrustWrite_keeps ?_
    · exact hp1
  · refine keepsO_next ?_
    refine State.dccctlWrite_keeps ?_
    · exact hp1
  · refine execFrmDstrWrite_keeps ?_
    · exact hp1
  · refine State.scyCmdWrite_keeps ?_
    · exact hp1
  · refine keepsO_next ?_
    refine State.imageWrite_keeps ?_
    · exact hp1
  · refine keepsO_next ?_
    refine State.srcCfgWrite_keeps ?_
    · exact hp1
  · refine keepsO_next ?_
    refine State.stickyClear_keeps ?_
    · exact hp1
  · refine keepsO_next ?_
    refine State.tamperRead_keeps ?_
    · exact hp1
  · refine State.clkCmdWrite_keeps ?_
    · exact hp1
  · refine execClkRateWrite_keeps ?_
    · exact hp1
  · refine keepsO_next ?_
    refine State.clkPpsWrite_keeps ?_
    · exact hp1
  · refine execSndScheduleWrite_keeps ?_
    · exact hp1
  · refine execSndScheduleWrite_keeps ?_
    · exact hp1
  · refine execSndScheduleWrite_keeps ?_
    · exact hp1
  · refine execSndScheduleWrite_keeps ?_
    · exact hp1
  · refine execSndScheduleWrite_keeps ?_
    · exact hp1
  · refine execSndThresholdWrite_keeps ?_
    · exact hp1
  · refine execSndThresholdWrite_keeps ?_
    · exact hp1
  · refine execSndThresholdWrite_keeps ?_
    · exact hp1
  · refine keepsO_next ?_
    refine State.hcolourWrite_keeps ?_
    · exact hp1
  · refine keepsO_next ?_
    refine State.bar2Write_keeps ?_
    · exact hp1
  · refine keepsO_next ?_
    refine State.rcfgWrite_keeps ?_
    · exact hp1
  · refine execHifDoorbell_keeps ?_
    · exact hp1
  · refine keepsO_next ?_
    refine State.flushVecs_keeps ?_
    · refine State.plainWrite_keeps ?_
      · exact hp1
  · refine keepsO_next ?_
    refine State.logRelease_keeps ?_
    · exact hp1
  · refine execRetpageWrite_keeps ?_
    · exact hp1
  · refine keepsO_next ?_
    refine State.retpoolWrite_keeps ?_
    · exact hp1
  · refine keepsO_next ?_
    refine State.plainWrite_keeps ?_
    · exact hp1

/-- `Keeps` of a bus outcome. -/
def KeepsB (s0 : State) : BusOutcome → Prop
  | .next p => Keeps s0 p.2
  | .fault _ => True
  | .refused _ => True

theorem keepsB_ite {s0 : State} {c : Prop} [Decidable c] {a b : BusOutcome} (ha : c → KeepsB s0 a) (hb : ¬c → KeepsB s0 b) :
    KeepsB s0 (if c then a else b) := by split <;> simp_all

theorem busDone_keeps {s0 : State} {x : Host.Outcome State Fault Refusal} (h : KeepsO s0 x) : KeepsB s0 (busDone x) := by
  unfold busDone
  split
  · exact h
  · trivial
  · trivial

theorem State.regWrite_keeps {s0 s : State} {m : Master} {o n v : Nat} (h : Keeps s0 s) :
    KeepsB s0 (s.regWrite m o n v) := by
  unfold State.regWrite
  refine keepsB_ite (fun _ => h) (fun _ => ?_)
  split
  · exact h
  · refine keepsB_ite (fun _ => h) (fun _ => ?_)
    refine keepsB_ite (fun _ => h) (fun _ => ?_)
    refine keepsB_ite (fun _ => State.writeRefused_keeps h) (fun _ => ?_)
    refine keepsB_ite (fun _ => trivial) (fun _ => ?_)
    exact busDone_keeps (guardRsvd_keeps (regStore_keeps h))

end Sys2Proof.Machine
end

