-- ==== Sys2Proof/Laws/KeepsBus.lean ====
section
/-! SUPPORT. What the definitions of Sys2Proof/Machine/Bus.lean keep: one lemma each, in the terms of `Keeps`. -/

namespace Sys2Proof.Machine

open Sys2Proof

theorem State.hostFail_keeps {s0 : State} {p1 : Machine.State} {p2 : Nat} (hp1 : Keeps s0 (p1)) : Keeps s0 (@State.hostFail p1 p2) := by
  unfold State.hostFail
  extract_lets +onlyGivenNames -merge -underBinder x1
  have h2 : Keeps s0 (x1) := by
    unfold x1
    refine keeps_ite (fun _ => ?_) (fun _ => ?_)
    · exact hp1
    · refine State.mark_keeps ?_
      · refine State.setReg_keeps ?_
        · exact hp1
  clear_value x1
  apply keeps_gen x1 h2
  clear h2
  intro x1 h2
  refine State.raiseCause_keeps ?_
  · exact h2

theorem State.busError_keeps {s0 : State} {p1 : Machine.State} {p2 : Master} {p3 : Nat} {p4 : Bool} (hp1 : Keeps s0 (p1)) : Keeps s0 (@State.busError p1 p2 p3 p4) := by
  unfold State.busError
  split
  · refine keeps_ite (fun _ => ?_) (fun _ => ?_)
    · refine State.hostFail_keeps ?_
      · exact hp1
    · refine State.emit_keeps ?_
      · refine State.hostFail_keeps ?_
        · exact hp1
  · refine keeps_ite (fun _ => ?_) (fun _ => ?_)
    · split
      · rename_i h3e
        have h3 : Keeps s0 _ := keeps_of_eq h3e (by
          refine State.draw_keeps ?_
          · exact hp1
          )
        refine State.takeTrap_keeps ?_
        · exact h3
    · exact hp1
  · refine keeps_ite (fun _ => ?_) (fun _ => ?_)
    · exact hp1
    · refine State.emit_keeps ?_
      · exact hp1

theorem execUnmappedBar0Access_keeps {s0 : State} {p1 : Master} {p2 : BitVec 26} {p3 : Bool} {p4 : Machine.State} (hp4 : Keeps s0 (p4)) : KeepsO s0 (@execUnmappedBar0Access p1 p2 p3 p4) := by
  unfold execUnmappedBar0Access
  refine keepsO_ite (fun _ => ?_) (fun _ => ?_)
  · refine keepsO_next ?_
    refine State.busError_keeps ?_
    · exact hp4
  · refine keepsO_next ?_
    exact hp4

theorem State.busIntegrity_keeps {s0 : State} {p1 : Machine.State} {p2 : Requester} {p3 : Nat} (hp1 : Keeps s0 (p1)) : Keeps s0 (@State.busIntegrity p1 p2 p3) := by
  unfold State.busIntegrity
  refine State.report_keeps ?_
  · refine State.leveeEvent_keeps ?_
    · exact hp1

theorem State.busRead_keeps {s0 : State} {p1 : Machine.State} {p2 : Requester} {p3 : Nat} {p4 : Nat} (hp1 : Keeps s0 (p1)) : Keeps s0 (@State.busRead p1 p2 p3 p4).2 := by
  unfold State.busRead
  split
  · split
    · rename_i h3e
      have h3 : Keeps s0 _ := keeps_of_eq h3e (by
        refine State.check_keeps ?_
        · exact hp1
        )
      refine State.regRead_keeps ?_
      · exact h3
    · rename_i h8e
      have h8 : Keeps s0 _ := keeps_of_eq h8e (by
        refine State.check_keeps ?_
        · exact hp1
        )
      refine keepsP_mk ?_
      exact h8
    · rename_i h10e
      have h10 : Keeps s0 _ := keeps_of_eq h10e (by
        refine State.check_keeps ?_
        · exact hp1
        )
      refine keepsP_mk ?_
      exact h10
    · rename_i h12e
      have h12 : Keeps s0 _ := keeps_of_eq h12e (by
        refine State.check_keeps ?_
        · exact hp1
        )
      refine keepsP_mk ?_
      exact h12
  · refine State.memRead_keeps ?_
    · exact hp1

theorem State.hostParts_keeps {s0 s : State} {q : Requester} {b : Option Nat} {k : Nat} {l : List (Nat × Nat)}
    (h : Keeps s0 s) : Keeps s0 (s.hostParts q b k l).2 := by
  induction l generalizing s k with
  | nil => exact h
  | cons p t ih =>
    obtain ⟨a, n⟩ := p
    unfold State.hostParts
    refine keepsP_ite (fun _ => State.busIntegrity_keeps h) (fun _ => ?_)
    have h1 : Keeps s0 (s.busRead q a n).2 := State.busRead_keeps h
    split
    · rename_i d s1 e
      have h3 : Keeps s0 (s1.hostParts q b (k + 1) t).2 := ih (keeps_of_eq e h1)
      split
      · rename_i e2; exact keeps_of_eq e2 h3
      · exact h3
    · rename_i e; exact keeps_of_eq e h1

theorem State.hostRead_keeps {s0 : State} {p1 : Machine.State} {p2 : Option Nat} {p3 : List (Nat × Nat)} (hp1 : Keeps s0 (p1)) : Keeps s0 (@State.hostRead p1 p2 p3) := by
  unfold State.hostRead
  split
  · rename_i h3e
    have h3 : Keeps s0 _ := keeps_of_eq h3e (by
      refine State.hostParts_keeps ?_
      · exact hp1
      )
    refine State.emit_keeps ?_
    · exact h3
  · rename_i h6e
    have h6 : Keeps s0 _ := keeps_of_eq h6e (by
      refine State.hostParts_keeps ?_
      · exact hp1
      )
    refine State.emit_keeps ?_
    · refine State.hostFail_keeps ?_
      · exact h6

theorem State.busWrite_keeps {s0 s : State} {q : Requester} {a : Nat} {d : Octets} (h : Keeps s0 s) :
    KeepsB s0 (s.busWrite q a d) := by
  unfold State.busWrite
  split
  · have h1 : Keeps s0 (s.check q .write a).2 := State.check_keeps h
    split <;> rename_i e
    · exact State.regWrite_keeps (keeps_of_eq e h1)
    all_goals exact keeps_of_eq e h1
  · have h1 : Keeps s0 (s.memWrite q a d).2 := State.memWrite_keeps h
    split <;> rename_i e
    · exact keepsB_ite (fun _ => trivial) (fun _ => keeps_of_eq e h1)
    · exact h1

theorem State.hostWrite_keeps {s0 s : State} {b : Option Nat} {k : Nat} {l : List (Nat × Nat)} {d : Octets}
    (h : Keeps s0 s) : KeepsO s0 (s.hostWrite b k l d) := by
  induction l generalizing s k d with
  | nil => exact h
  | cons p t ih =>
    obtain ⟨a, n⟩ := p
    unfold State.hostWrite
    refine keepsO_ite (fun _ => ih (State.hostFail_keeps (State.busIntegrity_keeps h))) (fun _ => ?_)
    have h1 : KeepsB s0 (s.busWrite (s.requester .host) a (d.take n)) := State.busWrite_keeps h
    split <;> rename_i e
    · rw [e] at h1; exact ih h1
    · rw [e] at h1; exact ih (State.hostFail_keeps h1)
    · trivial
    · trivial

theorem execHostAccess_keeps {s0 : State} {p1 : Bool} {p2 : BitVec 36} {p3 : Nat} {p4 : Option Octets} {p5 : Option Nat} {p6 : Machine.State} (hp6 : Keeps s0 (p6)) : KeepsO s0 (@execHostAccess p1 p2 p3 p4 p5 p6) := by
  unfold execHostAccess
  extract_lets +onlyGivenNames -merge -underBinder x1
  try clear_value x1
  extract_lets +onlyGivenNames -merge -underBinder x2
  try clear_value x2
  refine keepsO_ite (fun _ => ?_) (fun _ => ?_)
  · refine keepsO_next ?_
    exact hp6
  · refine keepsO_ite (fun _ => ?_) (fun _ => ?_)
    · refine keepsO_next ?_
      refine keeps_ite (fun _ => ?_) (fun _ => ?_)
      · refine State.hostFail_keeps ?_
        · exact hp6
      · refine State.emit_keeps ?_
        · refine State.hostFail_keeps ?_
          · exact hp6
    · refine keepsO_ite (fun _ => ?_) (fun _ => ?_)
      · refine keepsO_next ?_
        exact hp6
      · split
        · refine keepsO_next ?_
          refine State.hostRead_keeps ?_
          · exact hp6
        · refine State.hostWrite_keeps ?_
          · exact hp6

theorem State.memIssue_keeps {s0 s : State} {opc t rd base : Nat} {offset : BitVec 12} {size : Nat} {legal bic : Bool}
    {access : State → Nat → (State → Nat → State) → Host.Outcome State Fault Refusal} {f : EccFind} (h : Keeps s0 s)
    (ha : ∀ b a trap, Keeps s0 b → (∀ b c, Keeps s0 b → Keeps s0 (trap b c)) → KeepsO s0 (access b a trap)) :
    KeepsO s0 (s.memIssue opc t rd base offset size legal bic access f) := by
  unfold State.memIssue
  refine State.issue_keeps h ?_
  intro s1 h1
  refine keepsO_ite (fun _ => State.takeTrap_keeps h1) (fun _ => ?_)
  refine keepsO_ite (fun _ => State.takeTrap_keeps h1) (fun _ => ?_)
  refine keepsO_ite (fun _ => State.takeTrap_keeps (State.busIntegrity_keeps h1)) (fun _ => ?_)
  exact ha _ _ _ h1 (fun _ _ hb => State.takeTrap_keeps hb)

theorem State.atomic_keeps {s0 s : State} {opc t rd base : Nat} {o : BitVec 12} {size : Nat} {ecc : EccFind} {bic : Bool}
    {f : Word → Word → Word} (h : Keeps s0 s) : KeepsO s0 (s.atomic opc t rd base o size ecc bic f) := by
  unfold State.atomic
  refine State.memIssue_keeps h (fun s1 a trap h1 ht => ?_)
  have h2 : Keeps s0 (s1.check (s1.requester (.thread t)) .atomic a).2 := State.check_keeps h1
  split <;> rename_i e
  · rename_i s2
    have h3 : Keeps s0 ((s2.localFind true (coreOf t) a ecc).eccRead a ecc).2 :=
      State.eccRead_keeps (State.localFind_keeps (keeps_of_eq e h2))
    split <;> rename_i e3
    · exact keepsO_ite (fun _ => trivial)
        (fun _ => State.writeStep_keeps (State.dropLines_keeps (State.poolWrite_keeps (keeps_of_eq e3 h3))))
    · exact ht _ _ (keeps_of_eq e3 h3)
  all_goals exact ht _ _ (keeps_of_eq e h2)

theorem execBalAmoswap_keeps {s0 : State} {p1 : ThreadNo} {p2 : GReg} {p3 : GReg} {p4 : BitVec 12} {p5 : Fin 8} {p6 : EccFind} {p7 : Bool} {p8 : Machine.State} (hp8 : Keeps s0 (p8)) : KeepsO s0 (@execBalAmoswap p1 p2 p3 p4 p5 p6 p7 p8) := by
  unfold execBalAmoswap
  refine State.atomic_keeps ?_
  · exact hp8

theorem State.threadRead_keeps {s0 : State} {p1 : Machine.State} {p2 : Nat} {p3 : Nat} {p4 : Nat} {p5 : EccFind} (hp1 : Keeps s0 (p1)) : Keeps s0 (@State.threadRead p1 p2 p3 p4 p5).2 := by
  unfold State.threadRead
  extract_lets +onlyGivenNames -merge -underBinder x1
  try clear_value x1
  split
  · refine State.busRead_keeps ?_
    · exact hp1
  · refine State.cachedRead_keeps ?_
    · exact hp1

theorem execBalLd_keeps {s0 s : State} {t : ThreadNo} {rd base : GReg} {o : BitVec 12} {size : Fin 8} {ecc fe : EccFind}
    {bic : Bool} (h : Keeps s0 s) : KeepsO s0 (execBalLd t rd base o size ecc fe bic s) := by
  unfold execBalLd
  refine State.memIssue_keeps h (fun s1 a trap h1 ht => ?_)
  have h2 : Keeps s0 (s1.threadRead t a (sizeOctets size) ecc).2 := State.threadRead_keeps h1
  split <;> rename_i e
  · exact State.writeStep_keeps (keeps_of_eq e h2)
  · exact ht _ _ (keeps_of_eq e h2)

theorem execBalAmoadd_keeps {s0 : State} {p1 : ThreadNo} {p2 : GReg} {p3 : GReg} {p4 : BitVec 12} {p5 : Fin 8} {p6 : EccFind} {p7 : Bool} {p8 : Machine.State} (hp8 : Keeps s0 (p8)) : KeepsO s0 (@execBalAmoadd p1 p2 p3 p4 p5 p6 p7 p8) := by
  unfold execBalAmoadd
  refine State.atomic_keeps ?_
  · exact hp8

theorem State.endAccess_keeps {s0 : State} {p1 : Machine.State} {p2 : Nat} (hp1 : Keeps s0 (p1)) : Keeps s0 (@State.endAccess p1 p2) := by
  unfold State.endAccess
  refine keeps_ite (fun _ => ?_) (fun _ => ?_)
  · refine State.step4_keeps ?_
    · exact hp1
  · exact hp1

theorem execBalSt_keeps {s0 s : State} {t : ThreadNo} {rd base : GReg} {o : BitVec 12} {size : Fin 8} {bic : Bool}
    (h : Keeps s0 s) : KeepsO s0 (execBalSt t rd base o size bic s) := by
  unfold execBalSt
  refine State.memIssue_keeps h (fun s1 a trap h1 ht => ?_)
  have h2 : KeepsB s0 (s1.busWrite (s1.requester (.thread t)) a (leBytes (sizeOctets size) (s1.g t rd).toNat)) :=
    State.busWrite_keeps h1
  split <;> rename_i e
  · rw [e] at h2; exact State.endAccess_keeps h2
  · rw [e] at h2; exact ht _ _ h2
  · trivial
  · trivial

theorem State.debugReply_keeps {s0 : State} {p1 : Machine.State} {p2 : MemRes} {p3 : Nat} (hp1 : Keeps s0 (p1)) : Keeps s0 (@State.debugReply p1 p2 p3) := by
  unfold State.debugReply
  split
  · refine State.emit_keeps ?_
    · exact hp1
  · refine State.emit_keeps ?_
    · exact hp1
  · refine State.emit_keeps ?_
    · exact hp1

theorem execRegisterWrite_keeps {s0 s : State} {m : Master} {o : BitVec 26} {wide : Bool} {v : Word} (h : Keeps s0 s) :
    KeepsO s0 (execRegisterWrite m o wide v s) := by
  unfold execRegisterWrite
  have h2 : KeepsB s0 (s.regWrite m o.toNat (if wide then 8 else 4) v.toNat) := State.regWrite_keeps h
  split <;> rename_i e
  · rw [e] at h2; exact h2
  · trivial
  · trivial

theorem State.zeroReply_keeps {s0 : State} {p1 : Machine.State} {p2 : Master} {p3 : Bool} {p4 : Nat} (hp1 : Keeps s0 (p1)) : Keeps s0 (@State.zeroReply p1 p2 p3 p4) := by
  unfold State.zeroReply
  refine keeps_ite (fun _ => ?_) (fun _ => ?_)
  · exact hp1
  · refine State.emit_keeps ?_
    · exact hp1

theorem execUnlistedOffsetAccess_keeps {s0 : State} {p1 : Master} {p2 : BitVec 26} {p3 : Bool} {p4 : Bool} {p5 : Machine.State} (hp5 : Keeps s0 (p5)) : KeepsO s0 (@execUnlistedOffsetAccess p1 p2 p3 p4 p5) := by
  unfold execUnlistedOffsetAccess
  refine keepsO_ite (fun _ => ?_) (fun _ => ?_)
  · refine keepsO_next ?_
    refine State.zeroReply_keeps ?_
    · exact hp5
  · refine keepsO_next ?_
    exact hp5

theorem execDebugAccess_keeps {s0 s : State} {a : Word} {n : Nat} {d : Option Word} (h : Keeps s0 s) :
    KeepsO s0 (execDebugAccess a n d s) := by
  unfold execDebugAccess
  refine keepsO_ite (fun _ => h) (fun _ => ?_)
  split
  · exact State.debugReply_keeps (State.busRead_keeps h)
  · rename_i v
    have h2 : KeepsB s0 (s.busWrite (s.requester .debug) a.toNat (leBytes n v.toNat)) := State.busWrite_keeps h
    split <;> rename_i e
    · rw [e] at h2; exact h2
    · trivial
    · trivial

end Sys2Proof.Machine
end

