-- ==== Sys2Proof/Laws/KeepsCycle.lean ====
section
/-! SUPPORT. What the definitions of Sys2Proof/Machine/Cycle.lean keep: one lemma each, in the terms of `Keeps`. -/

namespace Sys2Proof.Machine

open Sys2Proof

theorem State.waitCategory_keeps {s0 : State} {p1 : Machine.State} {p2 : Nat} (hp1 : Keeps s0 (p1)) : Keeps s0 (@State.waitCategory p1 p2).2 := by
  unfold State.waitCategory
  refine keepsP_ite (fun _ => ?_) (fun _ => ?_)
  · refine keepsP_mk ?_
    exact hp1
  · refine keepsP_ite (fun _ => ?_) (fun _ => ?_)
    · refine keepsP_mk ?_
      exact hp1
    · refine keepsP_ite (fun _ => ?_) (fun _ => ?_)
      · refine keepsP_mk ?_
        exact hp1
      · refine keepsP_ite (fun _ => ?_) (fun _ => ?_)
        · refine keepsP_mk ?_
          exact hp1
        · split
          · rename_i h3e
            have h3 : Keeps s0 _ := keeps_of_eq h3e (by
              refine State.draw_keeps ?_
              · exact hp1
              )
            refine keepsP_mk ?_
            exact h3

theorem State.idleSlot_keeps {s0 : State} {p1 : Machine.State} {p2 : Nat} (hp1 : Keeps s0 (p1)) : Keeps s0 (@State.idleSlot p1 p2) := by
  unfold State.idleSlot
  extract_lets +onlyGivenNames -merge -underBinder x1
  have h2 : Keeps s0 (x1) := by
    unfold x1
    refine State.stallCycle_keeps ?_
    · exact hp1
  clear_value x1
  apply keeps_gen x1 h2
  clear h2
  intro x1 h2
  split
  · refine State.sampleSlot_keeps ?_
    · refine State.count_keeps ?_
      · exact h2
  · split
    · rename_i h5e
      have h5 : Keeps s0 _ := keeps_of_eq h5e (by
        refine State.waitCategory_keeps ?_
        · exact h2
        )
      refine State.chargeSlot_keeps ?_
      · exact h5

theorem State.idleCycle_keeps {s0 : State} {p1 : Machine.State} (hp1 : Keeps s0 (p1)) : Keeps s0 (@State.idleCycle p1) := by
  unfold State.idleCycle
  refine keeps_ite (fun _ => ?_) (fun _ => ?_)
  · exact hp1
  · refine keeps_foldl ?_ (fun a x ha => ?_)
    · exact keeps_upd hp1 rfl rfl rfl rfl rfl rfl rfl rfl rfl rfl rfl rfl (.inl rfl)
    · skip
      refine State.idleSlot_keeps ?_
      · exact ha

end Sys2Proof.Machine
end

