-- ==== Sys2Proof/Laws/KeepsEngines.lean ====
section
/-! SUPPORT. What the definitions of Sys2Proof/Machine/Engines.lean keep: one lemma each, in the terms of `Keeps`. -/

namespace Sys2Proof.Machine

open Sys2Proof

theorem State.releaseStalled_keeps {s0 : State} {p1 : Machine.State} {p2 : Nat} (hp1 : Keeps s0 (p1)) : Keeps s0 (@State.releaseStalled p1 p2) := by
  unfold State.releaseStalled
  refine keeps_foldl hp1 (fun a x ha => ?_)
  exact keeps_ite (fun _ => State.setTstate_keeps ha) (fun _ => ha)

theorem State.pieceRead_keeps {s0 s : State} {q : Requester} {a n : Nat} (h : Keeps s0 s) : Keeps s0 (s.pieceRead q a n).2 := by
  unfold State.pieceRead
  exact keepsP_ite (fun _ => State.busRead_keeps h) (fun _ => State.areaRead_keeps h)

theorem State.pieceWrite_keeps {s0 s : State} {q : Requester} {a : Nat} {d : Octets} (h : Keeps s0 s) :
    KeepsB s0 (s.pieceWrite q a d) := by
  unfold State.pieceWrite
  split
  · exact State.busWrite_keeps h
  · exact State.areaWrite_keeps h

theorem State.movePieces_keeps {s0 s t : State} {q : Requester} {fill : Option Octets} {src dst done : Nat}
    {l : List (Nat × Nat)} {r : Nat × Nat} (h : Keeps s0 s) (e : s.movePieces q fill src dst l done = .next (r, t)) :
    Keeps s0 t := by
  induction l generalizing s done with
  | nil =>
    unfold State.movePieces at e
    cases e
    exact h
  | cons p l ih =>
    obtain ⟨a, n⟩ := p
    unfold State.movePieces at e
    split at e
    rename_i v s1 e1
    have h1 : Keeps s0 s1 := by
      cases fill with
      | none => exact keeps_of_eq e1 (State.pieceRead_keeps h)
      | some x => cases e1; exact h
    split at e
    · rename_i d
      have h2 : KeepsB s0 (s1.pieceWrite q a d) := State.pieceWrite_keeps h1
      split at e <;> rename_i e2
      · rw [e2] at h2; exact ih h2 e
      · rw [e2] at h2; cases e; exact h2
      · cases e
      · cases e
    · cases e; exact h1

theorem movAct_keeps {s0 s t : State} {o o' : EngineOp} (h : Keeps s0 s) (e : movAct o s = .next (o', t)) : Keeps s0 t := by
  unfold movAct at e
  split at e
  · cases e; exact h
  · split at e
    · cases e
    · simp only at e
      split at e <;> rename_i e1
      · cases e; exact State.movePieces_keeps h e1
      · cases e
      · cases e

theorem State.writeResult_keeps {s0 s t : State} {o : EngineOp} {b : Bool} (h : Keeps s0 s)
    (e : s.writeResult o = .next (b, t)) : Keeps s0 t := by
  unfold State.writeResult at e
  simp only at e
  split at e
  · cases e; exact h
  · have h1 : KeepsB s0 (if o.out = [] then .next (.done, s) else s.pieceWrite o.requester (descRes o.desc + 8) o.out : BusOutcome) := by
      split
      · exact h
      · exact State.pieceWrite_keeps h
    split at e <;> rename_i e1
    · rename_i s1
      rw [e1] at h1
      have h2 : KeepsB s0 (s1.pieceWrite o.requester (descRes o.desc) (leBytes 8 o.word.toNat)) := State.pieceWrite_keeps h1
      split at e <;> rename_i e2
      · rw [e2] at h2; cases e; exact h2
      · rw [e2] at h2; cases e; exact h2
      · cases e
      · cases e
    · rw [e1] at h1; cases e; exact h1
    · cases e
    · cases e

theorem execBalMovMCopy_keeps {s0 : State} {p1 : ThreadNo} {p2 : BitVec 8} {p3 : GReg} {p4 : Machine.State} (hp4 : Keeps s0 (p4)) : KeepsO s0 (@execBalMovMCopy p1 p2 p3 p4) := by
  unfold execBalMovMCopy
  exact State.engineTry_keeps hp4 (fun _ _ _ _ => movAct_keeps)

theorem State.releaseHeld_keeps {s0 : State} {p1 : Machine.State} {p2 : Nat} {p3 : Nat} (hp1 : Keeps s0 (p1)) : Keeps s0 (@State.releaseHeld p1 p2 p3) := by
  unfold State.releaseHeld
  extract_lets +onlyGivenNames -merge -underBinder x1
  have h2 : Keeps s0 (x1) := by
    unfold x1
    split
    · exact hp1
    · refine keeps_ite (fun _ => ?_) (fun _ => ?_)
      · refine State.bsnFinish_keeps ?_
        · exact keeps_upd hp1 rfl rfl rfl rfl rfl rfl rfl rfl rfl rfl rfl rfl (.inl rfl)
      · exact keeps_upd hp1 rfl rfl rfl rfl rfl rfl rfl rfl rfl rfl rfl rfl (.inl rfl)
  clear_value x1
  apply keeps_gen x1 h2
  clear h2
  intro x1 h2
  split
  · exact h2
  · refine keeps_ite (fun _ => ?_) (fun _ => ?_)
    · refine State.dltFinish_keeps ?_
      · exact keeps_upd h2 rfl rfl rfl rfl rfl rfl rfl rfl rfl rfl rfl rfl (.inl rfl)
    · exact keeps_upd h2 rfl rfl rfl rfl rfl rfl rfl rfl rfl rfl rfl rfl (.inl rfl)

theorem State.tagDone_keeps {s0 : State} {p1 : Machine.State} {p2 : EngineOp} (hp1 : Keeps s0 (p1)) : Keeps s0 (@State.tagDone p1 p2) := by
  unfold State.tagDone
  refine keeps_ite (fun _ => ?_) (fun _ => ?_)
  · exact hp1
  · extract_lets +onlyGivenNames -merge -underBinder x1
    try clear_value x1
    refine State.wakeOnTag_keeps ?_
    · refine State.setThread_keeps ?_
      · exact hp1

theorem State.completeOp_keeps {s0 s : State} {o : EngineOp} (h : Keeps s0 s) : KeepsO s0 (s.completeOp o) := by
  unfold State.completeOp
  split <;> rename_i e
  · refine keepsO_next (State.releaseHeld_keeps (State.tagDone_keeps (State.releaseStalled_keeps ?_)))
    exact keeps_upd (State.writeResult_keeps h e) rfl rfl rfl rfl rfl rfl rfl rfl rfl rfl rfl rfl (.inl rfl)
  · exact keepsO_fault
  · exact keepsO_refused

theorem execSpringOpComplete_keeps {s0 : State} {p1 : PageNo} {p2 : List (Fin 257)} {p3 : Machine.State} (hp3 : Keeps s0 (p3)) : KeepsO s0 (@execSpringOpComplete p1 p2 p3) := by
  unfold execSpringOpComplete
  split
  · refine keepsO_next ?_
    exact hp3
  · refine keepsO_ite (fun _ => ?_) (fun _ => ?_)
    · refine keepsO_next ?_
      exact hp3
    · extract_lets +onlyGivenNames -merge -underBinder x1
      have h2 : Keeps s0 (x1) := by
        unfold x1
        refine keeps_foldl ?_ (fun a x ha => ?_)
        · exact hp3
        · skip
          refine State.cisternBad_keeps ?_
          · exact ha
      clear_value x1
      apply keeps_gen x1 h2
      clear h2
      intro x1 h2
      split
      · rename_i h5e
        have h5 : Keeps s0 _ := keeps_of_eq h5e (by
          refine State.kderRun_keeps ?_
          · exact keeps_upd h2 rfl rfl rfl rfl rfl rfl rfl rfl rfl rfl rfl rfl (.inl rfl)
          )
        refine keepsO_ite (fun _ => ?_) (fun _ => ?_)
        · exact keepsO_fault
        · refine State.completeOp_keeps ?_
          · exact h5

theorem execBalMovMFill_keeps {s0 : State} {p1 : ThreadNo} {p2 : BitVec 8} {p3 : GReg} {p4 : Machine.State} (hp4 : Keeps s0 (p4)) : KeepsO s0 (@execBalMovMFill p1 p2 p3 p4) := by
  unfold execBalMovMFill
  exact State.engineTry_keeps hp4 (fun _ _ _ _ => movAct_keeps)

theorem execEngineOpComplete_keeps {s0 : State} {p1 : ThreadNo} {p2 : BitVec 8} {p3 : Machine.State} (hp3 : Keeps s0 (p3)) : KeepsO s0 (@execEngineOpComplete p1 p2 p3) := by
  unfold execEngineOpComplete
  split
  · refine keepsO_ite (fun _ => ?_) (fun _ => ?_)
    · refine State.completeOp_keeps ?_
      · exact hp3
    · refine keepsO_next ?_
      exact hp3
  · refine keepsO_next ?_
    exact hp3



end Sys2Proof.Machine
end

