-- ==== Sys2Proof/Laws/Logs.lean ====
section
/-! SUPPORT. What a report to the error log, a raised event or cause, and a count leave alone: only registers of the map,
counters, the error log, the event queue and the record of outputs may differ. One lemma for each helper: cite
`<name>_logs` instead of unfolding. -/

namespace Sys2Proof.Machine

open Sys2Proof

/-- The later state differs only in registers, counters, the log, waiting events and outputs. -/
def Logs (s t : State) : Prop :=
  t = { s with
    regs := t.regs
    counters := t.counters
    log := t.log
    tide := { s.tide with queue := t.tide.queue, ovf := t.tide.ovf }
    out := t.out }

theorem Logs.refl (s : State) : Logs s s := rfl

theorem Logs.trans {s t u : State} (a : Logs s t) (b : Logs t u) : Logs s u := by
  unfold Logs at a
  rw [a] at b
  exact b

/-- The same of an outcome: of the next state, when there is one. -/
def LogsO (s0 : State) : Host.Outcome State Fault Refusal → Prop
  | .next t => Logs s0 t
  | .fault _ => True
  | .refused _ => True

/-- A state that agrees on the rest. -/
theorem logs_upd {s0 s t : State} (h : Logs s0 s) (e : Logs s t) : Logs s0 t := h.trans e

section
variable {s0 : State} {α β : Type}

theorem logs_ite {c : Prop} [Decidable c] {a b : State} (ha : c → Logs s0 a) (hb : ¬c → Logs s0 b) :
    Logs s0 (if c then a else b) := by split <;> simp_all

theorem logsO_ite {c : Prop} [Decidable c] {a b : Host.Outcome State Fault Refusal} (ha : c → LogsO s0 a)
    (hb : ¬c → LogsO s0 b) : LogsO s0 (if c then a else b) := by split <;> simp_all

theorem logsP_ite {c : Prop} [Decidable c] {a b : α × State} (ha : c → Logs s0 a.2) (hb : ¬c → Logs s0 b.2) :
    Logs s0 (if c then a else b).2 := by split <;> simp_all

theorem logsQ_ite {c : Prop} [Decidable c] {a b : State × α} (ha : c → Logs s0 a.1) (hb : ¬c → Logs s0 b.1) :
    Logs s0 (if c then a else b).1 := by split <;> simp_all

theorem logs_dite {c : Prop} [Decidable c] {a : c → State} {b : ¬c → State} (ha : ∀ h, Logs s0 (a h))
    (hb : ∀ h, Logs s0 (b h)) : Logs s0 (dite c a b) := by split <;> simp_all

theorem logsO_dite {c : Prop} [Decidable c] {a : c → Host.Outcome State Fault Refusal}
    {b : ¬c → Host.Outcome State Fault Refusal} (ha : ∀ h, LogsO s0 (a h)) (hb : ∀ h, LogsO s0 (b h)) :
    LogsO s0 (dite c a b) := by split <;> simp_all

theorem logsP_dite {c : Prop} [Decidable c] {a : c → α × State} {b : ¬c → α × State} (ha : ∀ h, Logs s0 (a h).2)
    (hb : ∀ h, Logs s0 (b h).2) : Logs s0 (dite c a b).2 := by split <;> simp_all

theorem logsP_mk {a : α} {t : State} (h : Logs s0 t) : Logs s0 (a, t).2 := h
theorem logsQ_mk {a : α} {t : State} (h : Logs s0 t) : Logs s0 (t, a).1 := h
theorem logsO_next {t : State} (h : Logs s0 t) : LogsO s0 (.next t) := h
theorem logsO_fault {f : Fault} : LogsO s0 (.fault f) := trivial
theorem logsO_refused {r : Refusal} : LogsO s0 (.refused r) := trivial

theorem logs_foldl {f : State → α → State} {l : List α} {a : State} (ha : Logs s0 a)
    (hf : ∀ a x, Logs s0 a → Logs s0 (f a x)) : Logs s0 (l.foldl f a) := by
  induction l generalizing a with
  | nil => exact ha
  | cons x l ih => exact ih (hf a x ha)

theorem logsP_foldl {f : β × State → α → β × State} {l : List α} {a : β × State} (ha : Logs s0 a.2)
    (hf : ∀ a x, Logs s0 a.2 → Logs s0 (f a x).2) : Logs s0 (l.foldl f a).2 := by
  induction l generalizing a with
  | nil => exact ha
  | cons x l ih => exact ih (hf a x ha)

theorem logsQ_foldl {f : State × β → α → State × β} {l : List α} {a : State × β} (ha : Logs s0 a.1)
    (hf : ∀ a x, Logs s0 a.1 → Logs s0 (f a x).1) : Logs s0 (l.foldl f a).1 := by
  induction l generalizing a with
  | nil => exact ha
  | cons x l ih => exact ih (hf a x ha)

theorem logsO_foldl {f : Host.Outcome State Fault Refusal → α → Host.Outcome State Fault Refusal} {l : List α}
    {a : Host.Outcome State Fault Refusal} (ha : LogsO s0 a) (hf : ∀ a x, LogsO s0 a → LogsO s0 (f a x)) :
    LogsO s0 (l.foldl f a) := by
  induction l generalizing a with
  | nil => exact ha
  | cons x l ih => exact ih (hf a x ha)

theorem logs_bind {p : α × State} {k : α → State → State} : Logs s0 p.2 →
    (∀ a t, Logs s0 t → Logs s0 (k a t)) → Logs s0 (match p with | (a, t) => k a t) := fun h hk => hk p.1 p.2 h
theorem logsO_bind {p : α × State} {k : α → State → Host.Outcome State Fault Refusal} : Logs s0 p.2 →
    (∀ a t, Logs s0 t → LogsO s0 (k a t)) → LogsO s0 (match p with | (a, t) => k a t) := fun h hk => hk p.1 p.2 h
theorem logsP_bind {p : α × State} {k : α → State → β × State} : Logs s0 p.2 →
    (∀ a t, Logs s0 t → Logs s0 (k a t).2) → Logs s0 (match p with | (a, t) => k a t).2 := fun h hk => hk p.1 p.2 h
theorem logsQ_bind {p : α × State} {k : α → State → State × β} : Logs s0 p.2 →
    (∀ a t, Logs s0 t → Logs s0 (k a t).1) → Logs s0 (match p with | (a, t) => k a t).1 := fun h hk => hk p.1 p.2 h
theorem logs_bindL {p : State × α} {k : State → α → State} : Logs s0 p.1 →
    (∀ t a, Logs s0 t → Logs s0 (k t a)) → Logs s0 (match p with | (t, a) => k t a) := fun h hk => hk p.1 p.2 h
theorem logsO_bindL {p : State × α} {k : State → α → Host.Outcome State Fault Refusal} : Logs s0 p.1 →
    (∀ t a, Logs s0 t → LogsO s0 (k t a)) → LogsO s0 (match p with | (t, a) => k t a) := fun h hk => hk p.1 p.2 h
theorem logsP_bindL {p : State × α} {k : State → α → β × State} : Logs s0 p.1 →
    (∀ t a, Logs s0 t → Logs s0 (k t a).2) → Logs s0 (match p with | (t, a) => k t a).2 := fun h hk => hk p.1 p.2 h

/-- Go on from a state of which only `Logs` matters. -/
theorem logs_gen {P : State → Prop} (v : State) (h : Logs s0 v) (k : ∀ x, Logs s0 x → P x) : P v := k v h

theorem logs_of_eq {p : α × State} {a : α} {t : State} (e : p = (a, t)) (h : Logs s0 p.2) : Logs s0 t := by
  rw [e] at h; exact h
theorem logs_of_eqL {p : State × α} {a : α} {t : State} (e : p = (t, a)) (h : Logs s0 p.1) : Logs s0 t := by
  rw [e] at h; exact h
theorem logs_of_next {o : Host.Outcome State Fault Refusal} {t : State} (e : o = .next t) (h : LogsO s0 o) :
    Logs s0 t := by rw [e] at h; exact h

end

theorem State.count_logs {s0 s : State} {c : CtrId} {i n : Nat} (h : Logs s0 s) : Logs s0 (s.count c i n) :=
  logs_upd h rfl

theorem State.setReg_logs {s0 s : State} {r : Reg} {v : Word} {i j : Nat} (h : Logs s0 s) :
    Logs s0 (s.setReg r v i j) :=
  logs_upd h rfl

theorem State.wr_logs {s0 : State} {p1 : Machine.State} {p2 : Field} {p3 : Nat} {p4 : optParam Nat 0} {p5 : optParam Nat 0} (hp1 : Logs s0 (p1)) : Logs s0 (@State.wr p1 p2 p3 p4 p5) := by
  unfold State.wr
  refine State.setReg_logs ?_
  · exact hp1

theorem State.mark_logs {s0 : State} {p1 : Machine.State} {p2 : Field} {p3 : optParam Nat 0} {p4 : optParam Nat 0} (hp1 : Logs s0 (p1)) : Logs s0 (@State.mark p1 p2 p3 p4) := by
  unfold State.mark
  refine State.wr_logs ?_
  · exact hp1

theorem State.satAdd_logs {s0 : State} {p1 : Machine.State} {p2 : Field} {p3 : Nat} {p4 : optParam Nat 0} {p5 : optParam Nat 0} (hp1 : Logs s0 (p1)) : Logs s0 (@State.satAdd p1 p2 p3 p4 p5) := by
  unfold State.satAdd
  refine State.wr_logs ?_
  · exact hp1

theorem State.emit_logs {s0 : State} {p1 : Machine.State} {p2 : Output} (hp1 : Logs s0 (p1)) : Logs s0 (@State.emit p1 p2) := by
  unfold State.emit
  exact logs_upd hp1 rfl

theorem State.sendVec_logs {s0 : State} {p1 : Machine.State} {p2 : Nat} (hp1 : Logs s0 (p1)) : Logs s0 (@State.sendVec p1 p2) := by
  unfold State.sendVec
  refine logs_ite (fun _ => ?_) (fun _ => ?_)
  · refine State.emit_logs ?_
    · exact hp1
  · refine State.wr_logs ?_
    · exact hp1

theorem State.raiseCause_logs {s0 : State} {p1 : Machine.State} {p2 : Nat} (hp1 : Logs s0 (p1)) : Logs s0 (@State.raiseCause p1 p2) := by
  unfold State.raiseCause
  extract_lets +onlyGivenNames -merge -underBinder x1
  try clear_value x1
  refine logs_ite (fun _ => ?_) (fun _ => ?_)
  · exact hp1
  · extract_lets +onlyGivenNames -merge -underBinder x2
    have h3 : Logs s0 (x2) := by
      unfold x2
      refine State.wr_logs ?_
      · exact hp1
    clear_value x2
    apply logs_gen x2 h3
    clear h3
    intro x2 h3
    refine logs_ite (fun _ => ?_) (fun _ => ?_)
    · exact h3
    · refine State.sendVec_logs ?_
      · exact h3

theorem State.queueEvent_logs {s0 s : State} {e : SoEntry} {cls idx : Nat} {g5 : Word} (h : Logs s0 s) :
    Logs s0 (s.queueEvent e cls idx g5) := by
  unfold State.queueEvent
  split
  · exact State.count_logs (logs_upd h rfl)
  · split
    · exact logs_upd h rfl
    · exact State.count_logs (State.wr_logs (logs_upd h rfl))

theorem State.raiseEvent_logs {s0 : State} {p1 : Machine.State} {p2 : Nat} {p3 : Nat} {p4 : optParam Word 0} (hp1 : Logs s0 (p1)) : Logs s0 (@State.raiseEvent p1 p2 p3 p4) := by
  unfold State.raiseEvent
  extract_lets +onlyGivenNames -merge -underBinder x1
  have h2 : Logs s0 (x1) := by
    unfold x1
    refine State.count_logs ?_
    · exact hp1
  clear_value x1
  apply logs_gen x1 h2
  clear h2
  intro x1 h2
  split
  · refine State.count_logs ?_
    · exact h2
  · refine logs_ite (fun _ => ?_) (fun _ => ?_)
    · refine State.queueEvent_logs ?_
      · exact h2
    · exact h2

theorem State.logWrite_logs {s0 : State} {p1 : Machine.State} {p2 : Nat} {p3 : Nat} {p4 : Word} {p5 : Nat} (hp1 : Logs s0 (p1)) : Logs s0 (@State.logWrite p1 p2 p3 p4 p5) := by
  unfold State.logWrite
  extract_lets +onlyGivenNames -merge -underBinder x1
  try clear_value x1
  extract_lets +onlyGivenNames -merge -underBinder x2
  try clear_value x2
  extract_lets +onlyGivenNames -merge -underBinder x3
  try clear_value x3
  extract_lets +onlyGivenNames -merge -underBinder x4
  try clear_value x4
  extract_lets +onlyGivenNames -merge -underBinder x5
  have h6 : Logs s0 (x5) := by
    unfold x5
    refine State.setReg_logs ?_
    · refine State.setReg_logs ?_
      · refine State.setReg_logs ?_
        · refine State.setReg_logs ?_
          · exact hp1
  clear_value x5
  apply logs_gen x5 h6
  clear h6
  intro x5 h6
  extract_lets +onlyGivenNames -merge -underBinder x7
  have h8 : Logs s0 (x7) := by
    unfold x7
    refine State.wr_logs ?_
    · refine State.wr_logs ?_
      · refine State.wr_logs ?_
        · exact h6
  clear_value x7
  apply logs_gen x7 h8
  clear h8
  intro x7 h8
  extract_lets +onlyGivenNames -merge -underBinder y10 x9
  try clear_value y10
  have h11 : Logs s0 (x9) := by
    unfold x9
    exact logs_upd h8 rfl
  clear_value x9
  apply logs_gen x9 h11
  clear h11
  intro x9 h11
  extract_lets +onlyGivenNames -merge -underBinder x12
  have h13 : Logs s0 (x12) := by
    unfold x12
    refine logs_ite (fun _ => ?_) (fun _ => ?_)
    · refine State.satAdd_logs ?_
      · refine State.mark_logs ?_
        · exact h11
    · refine logs_ite (fun _ => ?_) (fun _ => ?_)
      · refine State.satAdd_logs ?_
        · refine State.mark_logs ?_
          · exact h11
      · exact h11
  clear_value x12
  apply logs_gen x12 h13
  clear h13
  intro x12 h13
  refine State.raiseEvent_logs ?_
  · refine State.raiseCause_logs ?_
    · exact h13

theorem State.reportAt_logs {s0 : State} {p1 : Machine.State} {p2 : Nat} {p3 : Nat} {p4 : Word} {p5 : Nat} (hp1 : Logs s0 (p1)) : Logs s0 (@State.reportAt p1 p2 p3 p4 p5) := by
  unfold State.reportAt
  extract_lets +onlyGivenNames -merge -underBinder x1
  have h2 : Logs s0 (x1) := by
    unfold x1
    refine State.wr_logs ?_
    · exact hp1
  clear_value x1
  apply logs_gen x1 h2
  clear h2
  intro x1 h2
  split
  · extract_lets +onlyGivenNames -merge -underBinder x3
    try clear_value x3
    refine State.setReg_logs ?_
    · exact h2
  · refine logs_ite (fun _ => ?_) (fun _ => ?_)
    · extract_lets +onlyGivenNames -merge -underBinder x4
      have h5 : Logs s0 (x4) := by
        unfold x4
        refine State.mark_logs ?_
        · exact h2
      clear_value x4
      apply logs_gen x4 h5
      clear h5
      intro x4 h5
      exact logs_upd h5 rfl
    · refine logs_ite (fun _ => ?_) (fun _ => ?_)
      · refine State.logWrite_logs ?_
        · exact h2
      · extract_lets +onlyGivenNames -merge -underBinder x6
        try clear_value x6
        extract_lets +onlyGivenNames -merge -underBinder x7
        try clear_value x7
        refine logs_ite (fun _ => ?_) (fun _ => ?_)
        · extract_lets +onlyGivenNames -merge -underBinder x8
          have h9 : Logs s0 (x8) := by
            unfold x8
            refine State.mark_logs ?_
            · exact h2
          clear_value x8
          apply logs_gen x8 h9
          clear h9
          intro x8 h9
          exact logs_upd h9 rfl
        · refine State.logWrite_logs ?_
          · exact logs_upd h2 rfl

theorem State.reportWith_logs {s0 : State} {p1 : Machine.State} {p2 : Report} (hp1 : Logs s0 (p1)) : Logs s0 (@State.reportWith p1 p2) := by
  unfold State.reportWith
  split
  · exact logs_upd hp1 rfl
  · refine State.reportAt_logs ?_
    · exact hp1

theorem State.report_logs {s0 : State} {p1 : Machine.State} {p2 : Nat} {p3 : Nat} {p4 : optParam Nat 0} (hp1 : Logs s0 (p1)) : Logs s0 (@State.report p1 p2 p3 p4) := by
  unfold State.report
  refine logs_ite (fun _ => ?_) (fun _ => ?_)
  · refine State.reportWith_logs ?_
    · exact hp1
  · refine State.reportWith_logs ?_
    · exact hp1

theorem State.unmark_logs {s0 : State} {p1 : Machine.State} {p2 : Field} {p3 : optParam Nat 0} {p4 : optParam Nat 0} (hp1 : Logs s0 (p1)) : Logs s0 (@State.unmark p1 p2 p3 p4) := by
  unfold State.unmark
  refine State.wr_logs ?_
  · exact hp1

theorem guardRsvd_logs {s0 : State} {p1 : Reg} {p2 : Word} {p3 : Host.Outcome Machine.State Fault Refusal} (hp3 : LogsO s0 (p3)) : LogsO s0 (@guardRsvd p1 p2 p3) := by
  unfold guardRsvd
  refine logsO_ite (fun _ => ?_) (fun _ => ?_)
  · exact hp3
  · exact logsO_fault

theorem State.plainWrite_logs {s0 : State} {p1 : Machine.State} {p2 : Reg} {p3 : Word} {p4 : optParam Nat 0} {p5 : optParam Nat 0} (hp1 : Logs s0 (p1)) : Logs s0 (@State.plainWrite p1 p2 p3 p4 p5) := by
  unfold State.plainWrite
  refine State.setReg_logs ?_
  · exact hp1

theorem State.flushVecs_logs {s0 : State} {p1 : Machine.State} (hp1 : Logs s0 (p1)) : Logs s0 (@State.flushVecs p1) := by
  unfold State.flushVecs
  refine logs_foldl ?_ (fun a x ha => ?_)
  · exact hp1
  · skip
    refine logs_ite (fun _ => ?_) (fun _ => ?_)
    · refine State.emit_logs ?_
      · refine State.wr_logs ?_
        · exact ha
    · exact ha

end Sys2Proof.Machine
end

