-- ==== Sys2Proof/Laws/Threads.lean ====
section
/-! SUPPORT. What the operations on threads do: registers and threads read back after each, and the parts of a thread
that each leaves alone. -/

namespace Sys2Proof.Machine

open Sys2Proof

theorem Logs.tide {s t : State} (h : Logs s t) :
    t.tide.threads = s.tide.threads ∧ t.tide.ops = s.tide.ops ∧ t.pools = s.pools ∧ t.culvert = s.culvert ∧
    t.recs = s.recs ∧ t.host = s.host := by
  rw [h]; exact ⟨rfl, rfl, rfl, rfl, rfl, rfl⟩

theorem thread_of_threads {s t : State} (h : t.tide.threads = s.tide.threads) (k : Nat) : t.thread k = s.thread k := by
  unfold State.thread; rw [h]

theorem opsOf_of_ops {s t : State} (h : t.tide.ops = s.tide.ops) (k : Nat) : t.opsOf k = s.opsOf k := by
  unfold State.opsOf; rw [h]

theorem State.g_setThread (s : State) (t k r : Nat) (x : Thread) :
    (s.setThread t x).g k r = if r = 0 then 0 else if k = t then Tbl.get 0 x.g r else s.g k r := by
  unfold State.g
  rw [State.thread_setThread]
  split
  · rfl
  · split <;> simp_all

theorem State.g_setG (s : State) (t rd r : Nat) (v : Word) :
    (s.setG t rd v).g t r = if r = 0 then 0 else if r = rd then v else s.g t r := by
  unfold State.setG
  split
  · subst_vars; unfold State.g; split <;> rfl
  · simp only [State.g_setThread, if_true]
    rw [Tbl.get_set]
    simp only [State.g]
    split
    · rfl
    · split <;> simp_all

theorem State.thread_setG (s : State) (t rd k : Nat) (v : Word) :
    (∃ gs, (s.setG t rd v).thread k = { s.thread k with g := gs }) ∧ (k ≠ t → (s.setG t rd v).thread k = s.thread k) := by
  unfold State.setG
  split
  · exact ⟨⟨_, rfl⟩, fun _ => rfl⟩
  · simp only [State.thread_setThread]
    constructor
    · split
      · subst_vars; exact ⟨_, rfl⟩
      · exact ⟨_, rfl⟩
    · intro h; simp [h]

theorem State.thread_setPc (s : State) (t k : Nat) (v : Word) :
    (s.setPc t v).thread k = if k = t then { s.thread t with pc := v } else s.thread k := by
  unfold State.setPc; rw [State.thread_setThread]

theorem State.g_setPc (s : State) (t k r : Nat) (v : Word) : (s.setPc t v).g k r = s.g k r := by
  unfold State.g; rw [State.thread_setPc]
  split
  · rfl
  · split <;> simp_all

theorem State.thread_setHold (s : State) (t k : Nat) (h : Hold) :
    (s.setHold t h).thread k = if k = t then { s.thread t with hold := h } else s.thread k := by
  unfold State.setHold; rw [State.thread_setThread]

theorem State.g_setHold (s : State) (t k r : Nat) (h : Hold) : (s.setHold t h).g k r = s.g k r := by
  unfold State.g; rw [State.thread_setHold]
  split
  · rfl
  · split <;> simp_all

theorem State.thread_wr (s : State) (f : Field) (v i j k : Nat) : (s.wr f v i j).thread k = s.thread k :=
  thread_of_threads rfl k

theorem State.g_wr (s : State) (f : Field) (v i j k r : Nat) : (s.wr f v i j).g k r = s.g k r := by
  unfold State.g; rw [State.thread_wr]

theorem State.thread_mark (s : State) (f : Field) (i j k : Nat) : (s.mark f i j).thread k = s.thread k :=
  thread_of_threads rfl k

theorem State.thread_setReg (s : State) (f : Reg) (v : Word) (i j k : Nat) : (s.setReg f v i j).thread k = s.thread k :=
  thread_of_threads rfl k

theorem State.thread_count (s : State) (c : CtrId) (i n k : Nat) : (s.count c i n).thread k = s.thread k :=
  thread_of_threads rfl k

theorem State.setG_eq (s : State) (t r : Nat) (v : Word) :
    s.setG t r v = { s with tide := { s.tide with threads := (s.setG t r v).tide.threads } } := by
  unfold State.setG; split <;> rfl

theorem State.writeStep_eq (b : State) (t r : Nat) (v : Word) :
    b.writeStep t r v = { b with tide := { b.tide with threads := (b.writeStep t r v).tide.threads } } := by
  unfold State.writeStep State.step4 State.setPc
  rw [State.setG_eq]; rfl

theorem State.setGPc_eq (b : State) (t r : Nat) (v w : Word) :
    (b.setG t r v).setPc t w = { b with tide := { b.tide with threads := ((b.setG t r v).setPc t w).tide.threads } } := by
  unfold State.setPc
  rw [State.setG_eq]; rfl

theorem State.setPc_eq (b : State) (t : Nat) (w : Word) :
    b.setPc t w = { b with tide := { b.tide with threads := (b.setPc t w).tide.threads } } := rfl

theorem State.setHold_eq (b : State) (t : Nat) (h : Hold) :
    b.setHold t h = { b with tide := { b.tide with threads := (b.setHold t h).tide.threads } } := rfl

/-- A thread that goes on with a value: its registers, PC and hold, its STATE, the other threads, and the rest. -/
theorem State.resume_spec (s : State) (t rd : Nat) (v : Word) :
    (∀ r, (s.resume t rd v).g t r = if r = 0 then 0 else if r = rd then v else s.g t r) ∧
    (∃ gs, (s.resume t rd v).thread t = { s.thread t with g := gs, pc := (s.thread t).pc + 4, hold := .none }) ∧
    (∀ k, k ≠ t → (s.resume t rd v).thread k = s.thread k) ∧
    (s.resume t rd v).tstate t = 2 := by
  unfold State.resume State.setTstate State.step4
  refine ⟨fun r => ?_, ?_, fun k h => ?_, ?_⟩
  · rw [State.g_wr, State.g_setHold, State.g_setPc, State.g_setG]
  · obtain ⟨gs, h⟩ := (State.thread_setG s t rd t v).1
    refine ⟨gs, ?_⟩
    rw [State.thread_wr, State.thread_setHold, if_pos rfl, State.thread_setPc, if_pos rfl, h]
  · rw [State.thread_wr, State.thread_setHold, if_neg h, State.thread_setPc, if_neg h, (State.thread_setG s t rd k v).2 h]
  · unfold State.tstate; rw [State.rd_wr] <;> first | rfl | decide

/-- A thread that nothing holds, in Running, takes up an instruction whose word it fetches. -/
theorem State.issue_ready {s : State} {t w : Nat} {f : EccFind} {body : State → Host.Outcome State Fault Refusal}
    (h1 : s.issues t = true) (h2 : (s.fetch t f).1 = .word w) : s.issue t w body f = body ((s.fetch t f).2.issued t) := by
  unfold State.issue
  rw [h1]
  simp only [Bool.not_true, Bool.false_eq_true, if_false]
  generalize s.fetch t f = p at *
  obtain ⟨a, b⟩ := p
  simp only at h2; subst h2; simp

theorem State.report_threads (s : State) (k d g : Nat) :
    (s.report k d g).tide.threads = s.tide.threads ∧ (s.report k d g).tide.ops = s.tide.ops :=
  ⟨(State.report_logs (Logs.refl s)).tide.1, (State.report_logs (Logs.refl s)).tide.2.1⟩

theorem State.haltRing_logs {s0 s : State} {r : Nat} {f : Field} (h : Logs s0 s) : Logs s0 (s.haltRing r f) := by
  unfold State.haltRing
  exact State.raiseCause_logs (State.mark_logs (State.mark_logs h))

theorem State.recordLost_logs {s0 s : State} {r : Nat} (h : Logs s0 s) : Logs s0 (s.recordLost r) := by
  unfold State.recordLost
  exact State.haltRing_logs (State.satAdd_logs h)

theorem State.recordWritten_threads (s : State) (r : Nat) :
    (s.recordWritten r).tide.threads = s.tide.threads ∧ (s.recordWritten r).tide.ops = s.tide.ops ∧
    (s.recordWritten r).pools = s.pools := by
  unfold State.recordWritten
  extract_lets q q' s1 s2 x n
  have h : Logs s s2 := by
    unfold s2; split
    · exact State.wr_logs (State.wr_logs (Logs.refl s))
    · exact State.wr_logs (Logs.refl s)
  split
  · have h2 : Logs (s2.setRing r { x with since := 0, first := none })
      ((s2.setRing r { x with since := 0, first := none }).sendVec (s.rd HIF_RCFG.VEC r)) :=
      State.sendVec_logs (Logs.refl _)
    exact ⟨h2.tide.1.trans h.tide.1, h2.tide.2.1.trans h.tide.2.1, h2.tide.2.2.1.trans h.tide.2.2.1⟩
  · exact ⟨h.tide.1, h.tide.2.1, h.tide.2.2.1⟩

/-- A completion record leaves threads and operations alone. -/
theorem State.writeRecord_threads (s : State) (r slot tag kind status : Nat) :
    (s.writeRecord r slot tag kind status).tide.threads = s.tide.threads ∧
    (s.writeRecord r slot tag kind status).tide.ops = s.tide.ops := by
  unfold State.writeRecord
  split
  · exact ⟨rfl, rfl⟩
  · extract_lets x s0 o a
    have h0 : s0.tide = s.tide := rfl
    split
    · exact ⟨rfl, rfl⟩
    · split
      · have h := (State.recordLost_logs (r := r) (Logs.refl s0)).tide
        exact ⟨h.1.trans (by rw [h0]), h.2.1.trans (by rw [h0])⟩
      · split
        · have hm := State.memWrite_threads s0 (s0.requester (.dma r)) a o
          split
          · rename_i s1 e
            rw [e] at hm
            have h := State.recordWritten_threads s1 r
            exact ⟨(h.1.trans hm.1).trans (by rw [h0]), (h.2.1.trans hm.2.1).trans (by rw [h0])⟩
          · rename_i s1 _ e
            rw [e] at hm
            have h := (State.recordLost_logs (r := r) (Logs.refl s1)).tide
            exact ⟨(h.1.trans hm.1).trans (by rw [h0]), (h.2.1.trans hm.2.1).trans (by rw [h0])⟩
        · have h := State.recordWritten_threads (s0.emit (.hostWrite a o)) r
          exact ⟨h.1.trans (by rw [← h0]; rfl), h.2.1.trans (by rw [← h0]; rfl)⟩

end Sys2Proof.Machine
end

