-- ==== Sys2Proof/Tests/Slice0.lean ====
section
/-! SUPPORT. Tests: ill-formed commands that WellFormed refuses, the spec's worked examples, and, for every statement
with hypotheses, states and operands that meet them. -/

namespace Sys2Proof.Tests

set_option Elab.async false

open Sys2Proof Sys2Proof.Machine Sys2Proof.Claims

/-- `State.reset` with fields of registers set: field, indexes, value. -/
def withFields (fs : List (Field × Nat × Nat × Nat)) : State :=
  fs.foldl (fun s f => s.wr f.1 f.2.2.2 f.2.1 f.2.2.1) State.reset

/-- Fields of records set: field, index, value. -/
def withRecs (s : State) (fs : List (RField × Nat × Nat)) : State := fs.foldl (fun s f => s.rwr f.1 f.2.1 f.2.2) s

/-- A word to be written, with fields set. -/
def word (l : List (Field × Nat)) : Word := l.foldl (fun w f => f.1.put f.2 w) 0

/-- An outcome is a next state that passes a test. -/
def nextWith (o : Outcome) (p : State → Bool) : Bool :=
  match o with
  | .next u => p u
  | _ => false

/-! ### Ill-formed commands -/

theorem test_wf_gaugeEventDue_sel : (Instr.gaugeEventDue 18 0).wellFormed = false := by decide
theorem test_wf_gaugeEventDue_offset : (Instr.gaugeEventDue 17 16320).wellFormed = false := by decide
theorem test_wf_gaugeWordRx_length : (Instr.gaugeWordRx 0 [] 0 0).wellFormed = false := by decide
theorem test_wf_gaugeWordRx_offset : (Instr.gaugeWordRx 0 [0, 0, 0, 0, 0, 0x5A] 0 16320).wellFormed = false := by decide
theorem test_wf_culvertRead : (Instr.culvertRead .hold 0 255 2 [] .good).wellFormed = false := by decide
theorem test_wf_culvertWrite : (Instr.culvertWrite (.cell 0) 0 [0] .good).wellFormed = false := by decide
theorem test_wf_culvertPartialWrite : (Instr.culvertPartialWrite .hold 0 256 [0] [] .good).wellFormed = false := by decide
theorem test_wf_scrubSector : (Instr.scrubSector [(32, 1)]).wellFormed = false := by decide
theorem test_wf_ringFetch : (Instr.ringFetch 0 (some [0])).wellFormed = false := by decide
theorem test_wf_l1TxFrame : (Instr.l1TxFrame 0 [] false).wellFormed = false := by decide
theorem test_wf_l1RxFrame : (Instr.l1RxFrame 0 (.frame [] [] true) false).wellFormed = false := by decide
theorem test_wf_tssBlockRx : (Instr.tssBlockRx 0 [true]).wellFormed = false := by decide
theorem test_wf_tssMarkerPosition : (Instr.tssMarkerPosition 0 0 [0]).wellFormed = false := by decide
theorem test_wf_flashPreloadEnd : (Instr.flashPreloadEnd (List.replicate 4194305 0)).wellFormed = false := by
  have h : ∀ d : Octets, d.length = 4194305 → (Instr.flashPreloadEnd d).wellFormed = false := by
    intro d e
    show decide (d.length ≤ 4194304) = false
    rw [e]
    decide
  exact h _ List.length_replicate
theorem test_wf_debugAccess : (Instr.debugAccess 2 4 none).wellFormed = false := by decide
theorem test_wf_hostAccess : (Instr.hostAccess false 0 4 (some [0]) none).wellFormed = false := by decide
theorem test_wf_ingressFrameRx : (Instr.ingressFrameRx 0 [] none [.corrected 0xFF 0]).wellFormed = false := by decide
theorem test_wf_modecmdInvalid : (Instr.modecmdInvalid 8).wellFormed = false := by decide
theorem test_wf_lcCmdInvalid : (Instr.lcCmdInvalid 2 0x4C).wellFormed = false := by decide
theorem test_wf_unmappedBar0Access : (Instr.unmappedBar0Access .host 0x019FFFFF false).wellFormed = false := by decide
theorem test_wf_unlistedOffsetAccess : (Instr.unlistedOffsetAccess .host 0x01A00000 false true).wellFormed = false := by decide

/-! ### Worked examples of the spec -/

/-- The example after R64: the Gauge word octets of multiframe 0x00_0004_12, and the check. -/
theorem test_gauge_word :
    (List.range 7).map (fun j => gaugeOctet (0x41200 + j)) = [0, 0, 0, 4, 0x12, 0x4C, 0] ∧
    gaugeWord [0, 0, 0, 4, 0x12, 0x4C] = some 0x412 := by decide +kernel

/-- The example after R145: the IV of channel 497, and ROLE 1. -/
theorem test_odu_iv :
    oduIv 0 497 7 0x0913A500 = [0x01, 0xF1, 0x00, 0x07, 0, 0, 0, 0, 0x09, 0x13, 0xA5, 0x00] ∧
    (oduIv 1 497 7 0x0913A500).take 2 = [0x81, 0xF1] := by decide +kernel

/-- The example after R149: the count word and its check. -/
theorem test_count_word :
    (List.range 5).map (fun j => cooWord 0 (0x0913A500 + 8 + j) none) =
      [[0, 0], [0, 0], [0x09, 0x13], [0xA5, 0x00], [0xE5, 0]] := by decide +kernel

/-- The SecY, SC and SA of the example after R206. -/
def secured : State :=
  withRecs State.reset [(SECY.SUITE, 0x2A0, 3), (SECY.TX_SCI, 0x2A0, 1), (SECY.SCI, 0x2A0, 0x0A1B2C3D4E5F0001),
    (SC.SECY, 0x1C41, 0x2A0), (SA.SSCI, 0x7106, 7), (SA.SALT_HI, 0x7106, 0x11223344), (SA.SALT_LO, 0x7106, 0x5566778899AABBCC)]

/-- The example after R206: the SecTAG of PN 0x0000_0001_0000_0005 with 48 octets of secure data. -/
theorem test_sectag :
    secured.secTag 0x7106 0x100000005 48 =
      [0x88, 0xE5, 0x2E, 0x00, 0, 0, 0, 5, 0x0A, 0x1B, 0x2C, 0x3D, 0x4E, 0x5F, 0x00, 0x01] := by decide +kernel

/-- The example after R206: the IV. -/
theorem test_packet_iv :
    secured.frameIv 0x7106 0 0x100000005 =
      [0x11, 0x22, 0x33, 0x43, 0x55, 0x66, 0x77, 0x89, 0x99, 0xAA, 0xBB, 0xC9] := by decide +kernel

/-- The example after R209: the recovery of three PNs. -/
theorem test_pn_recovery :
    (let s := withRecs secured [(SA.NEXT_PN, 0x7106, 0x100000003), (SECY.WINDOW, 0x2A0, 64)]
     s.lowestPn 0x7106 = 0xFFFFFFC3 ∧ s.recoverPn 0x7106 5 = 0x100000005) ∧
    (let s := withRecs secured [(SA.NEXT_PN, 0x7106, 0x100000006), (SECY.WINDOW, 0x2A0, 64)]
     s.recoverPn 0x7106 0xFFFFFFC6 = 0xFFFFFFC6 ∧ s.recoverPn 0x7106 0xFFFFFFC3 = 0x1FFFFFFC3) := by decide +kernel

/-- The example after R252: the label of epoch 8 of channel 497. -/
theorem test_label :
    contextLabel 1 0x59310A0000002C07 0x1F1 8 [] =
      [0, 0, 0, 1, 0x59, 0x31, 0x0A, 0, 0, 0, 0x2C, 7, 0, 0, 1, 0xF1, 0, 0, 0, 8] ++ List.replicate 28 0 := by
  decide +kernel

/-- The example after R388: the completion word of KDER with tag 0x11. -/
theorem test_kder_word :
    EngineOp.word { thread := 0, tag := 0x11, engine := 1, desc := [], colour := 0, warden := false,
                    result := 0x450003E3 } = 0x00450003E3011100#64 := by decide +kernel

/-- The example after R415: the entry of MAC 00:1B:7C:40:9E:11 as it reads back, and the results for its place. -/
theorem test_delta_entry :
    Entry.written 0x0402A001B7C409E1120B1040A1101007#128 true false = 0x4402A001B7C409E1120B1040A1101007#128 ∧
    tblResult 0x000A8FC6 = 0x12A3F1 := by decide +kernel

/-- The example after R439: shared cells of the pool. -/
theorem test_pool :
    (let s := withFields ([(BSN_POOL.COUNT, 0, 0, 2 ^ 27), (BSN_RES.USED, 9, 0, 4194300)] ++
      (List.range 18).map (fun g => (BSN_RES.RES, g, 0, 4194304)))
     s.poolCount - s.resSum = 58720256 ∧ s.sharedDemand 9 7 = 3) := by decide +kernel

/-- The example after R479: the tree of 512 MiB, and the path of range sector 74,565. -/
theorem test_tree :
    treeNodes (2 ^ 29 / 256) 1 = 262144 ∧ treeNodes (2 ^ 29 / 256) 2 = 32768 ∧ treeNodes (2 ^ 29 / 256) 3 = 4096 ∧
    treeOff (2 ^ 29 / 256) = 2 ∧ treeLevels (2 ^ 29 / 256) = 7 ∧ treeAreaMb (2 ^ 29 / 256) = 18 ∧
    pathNode 74565 1 = 9320 ∧ pathNode 74565 2 = 1165 ∧ pathNode 74565 3 = 145 := by decide +kernel

/-- The example after R594: the third to fifth events of MESH1, and a window of 64 and of 65 ticks. -/
theorem test_alarms :
    alarmDue 3 8 0x3A10000C [0x3A100002, 0x3A100000] = false ∧
    alarmDue 3 8 0x3A10000E [0x3A10000C, 0x3A100002, 0x3A100000] = false ∧
    alarmDue 3 8 0x3A100010 [0x3A10000E, 0x3A10000C, 0x3A100002, 0x3A100000] = true ∧
    alarmDue 2 64 0x3A100010 [0x3A0FFFD0] = true ∧ alarmDue 2 64 0x3A100010 [0x3A0FFFCF] = false := by decide +kernel

/-- The example after R638: network time at Tick 4,500,000,000. -/
theorem test_time :
    (let s : State := { withFields [(CLK_STAT.VALID, 0, 0, 1), (CLK_RATE.RATE, 0, 0, 1099512)] with
       clock := { baseTick := 3000000000, base := 1715000000 * second } }
     let t := s.timeAt 4500000000
     timeSec t = 1715000001 ∧ timeNs t = 1000 ∧ timeFrac t = 22) := by decide +kernel

/-- The examples after R680, R721 and R521: offsets of registers. -/
theorem test_offsets :
    Reg.off .WEI_GRP_CFG 9 0 = 0x00400124 ∧ Reg.off .WEI_POOL_STAT 0 0 = 0x00400180 ∧ Reg.off .RC_STAT 9 0 = 0x00290004 ∧
    Reg.off .RC_FLAG 9 0 = 0x00290008 ∧ Reg.off .WEI_LEASE 9 0 = 0x00400248 ∧ Reg.off .GAU_READ 9 0 = 0x00100900 ∧
    Reg.off .FRM_CTL 9 0 = 0x01190000 ∧ Reg.off .FRM_CHSTAT 3 17 = 0x01130C44 ∧ Reg.off .LN_CTL 108 0 = 0x00F6C000 ∧
    Reg.off .LN_MAP 27 0 = 0x00F6C00C ∧ Reg.off .BSN_RES 9 0 = 0x00800248 ∧ Reg.off .RC_STAT 18 0 = 0x00320004 ∧
    Reg.off .POOL_OWN 5 0 = 0x00E09014 ∧ Reg.off .CMP_START 7 0 = 0x00E010E0 ∧ Reg.off .HIF_DB 5 0 = 0x0180115C := by
  decide +kernel

/-- A thread 0 that runs in Pool 0 at an instruction word, under an entry of the Colour Map that grants its colour every
access below the end of Culvert, with registers given. -/
def running (g : Tbl Word) (w : Nat := 0) : State :=
  ((withFields [(TID_THRSTAT.STATE, 0, 0, 2), (CMP_LATTR.V, 0, 0, 1), (CMP_LATTR.COLOUR, 0, 0, 9), (CMP_LATTR.R, 0, 0, 1),
    (CMP_LATTR.W, 0, 0, 1), (CMP_LATTR.X, 0, 0, 1), (CMP_LEND.END, 0, 0, 0x7FFFFFFF)]).setThread 0
    { g := g, pc := 0x100000000 }).poolWrite 0x100000000 (leBytes 4 w)

/-- The example after R376: GADV past the end of a frame, GDIST and SLTW. -/
theorem test_gadv :
    nextWith (exec (.balGadv 0 6 4 5) (running [(4, reading 0x41203 16000), (5, 1000)] (encG 6 4 5 0 3)))
      (fun u => decide (u.g 0 6 = reading 0x41204 680)) = true := by decide +kernel
theorem test_gdist :
    nextWith (exec (.balGdist 0 7 6 4) (running [(4, reading 0x41203 16000), (6, reading 0x41204 680)] (encG 7 6 4 0 4)))
      (fun u => decide (u.g 0 7 = 1000)) = true := by decide +kernel
theorem test_sltw :
    nextWith (exec (.balSltw 0 8 4 6) (running [(4, reading 0x41203 16000), (6, reading 0x41204 680)] (encA 0x00 8 4 6 0x00C)))
      (fun u => decide (u.g 0 8 = 1)) = true := by decide +kernel

/-- The words of the table after R398: each is the encoding that a trap of the instruction records. -/
theorem test_words :
    encI 0x10 6 0 0x1234 = 0x20601234 ∧ encI 0x10 6 6 0xFFFC = 0x22637FFC ∧ encM 0x40 3 2 16 3 = 0x80310083 := by
  decide +kernel

/-! ### Witnesses: threads -/

theorem pair_of {α β : Type} {p : α × β} {a : α} (h : p.1 = a) : ∃ b, p = (a, b) := ⟨p.2, by rw [← h]⟩

theorem granted_of {s : State} {t a : Nat} {k : AccKind} {d : Bool}
    (h : ((begun s t).check ⟨.thread t, (s.thread t).colour, (s.thread t).warden⟩ k a).1 = .pass d) :
    ∃ c, Granted s t k a c :=
  let ⟨c, hc⟩ := pair_of h
  ⟨c, d, hc⟩

theorem ready_of {f : Nat → State} {l : List Nat}
    (h : l.all (fun w => (f w).issues 0 && decide (((f w).fetch 0).1 = .word w)) = true) : ∀ w ∈ l, Ready (f w) 0 w := by
  intro w hw
  have k := List.all_eq_true.mp h w hw
  simp only [Bool.and_eq_true, decide_eq_true_eq] at k
  exact k

/-- BalridAluResults, BalridControl, BalridMemoryAccesses, BalridTraps, BalridWaits, BalridGauge: the thread takes up the
instruction at its PC, of each format; the ends of the ranges of n and imm. -/
theorem witness_ready : ∀ w ∈ [encA 0x00 1 2 3 0x00C, encI 0x10 1 2 0xFFFF, encI 0x2C 1 31 0xFFFF, encI 0x2E 1 2 4,
    encM 0x40 1 2 0xFFF 3, encM 0x41 1 2 0 3, encM 0x42 1 2 0 3, encM 0x43 1 2 0 7, encI 0x30 0 0 0x80FF, 0xFFFFFFFF, 15,
    encA 0x01 0 2 0 0, encA 0x01 0 0 0 1, encA 0x01 1 0 0 2, encA 0x01 1 2 0 3, encA 0x01 1 2 0 4, encA 0x01 1 0 6 5,
    encG 1 0 0 63 0, encG 1 2 0 17 1, encG 1 2 3 49 2, encG 1 2 3 0 3, encG 1 2 3 0 4, encE 0x58 1 0 0 255,
    encE 0x58 1 0 1 0], Ready (running [] w) 0 w := ready_of (by decide +kernel)
theorem witness_leadingZeros : LeadingZeros 0 64 ∧ LeadingZeros 1 63 ∧ LeadingZeros (BitVec.allOnes 64) 0 :=
  ⟨⟨by decide, by decide, by decide⟩, ⟨by decide, by decide, by decide⟩, ⟨by decide, by decide, by decide⟩⟩
theorem witness_shiftImm : (63#16).toNat < 64 ∧ 64 ≤ (64#16).toNat := by decide
theorem witness_jalr :
    (let y := (running [(2, 6)]).g 0 2
     (BitVec.ofInt 64 (y.toInt + (2#16).toInt)).toNat % 4 = 0 ∧ (BitVec.ofInt 64 (y.toInt + (1#16).toInt)).toNat % 4 ≠ 0) := by
  decide +kernel

/-- BalridMemoryAccesses: the first and the last octets of the Pools, and a register. -/
theorem witness_granted :
    (∃ c, Granted (running []) 0 .read 0x100000000 c) ∧ (∃ c, Granted (running []) 0 .write 0x103FFFFF8 c) ∧
    (∃ c, Granted (running []) 0 .atomic 0x103FFFFF8 c) :=
  ⟨granted_of (d := false) (by decide +kernel), granted_of (d := false) (by decide +kernel),
   granted_of (d := false) (by decide +kernel)⟩
theorem witness_memory :
    spaceOf 0x100000000 = .pool 0 ∧ spaceOf 0x103FFFFF8 = .pool 15 ∧ 0x103FFFFF8 % 2 ^ (3 % 4) = 0 ∧
    (begun (running [] 5) 0).issues 0 = true ∧ PoolsCanonical (running [] 5) ∧
    ((begun (running []) 0).storesInput 0x100000040 8 = false ∧ (begun (running []) 0).storesCode 0x100000040 8 = false) ∧
    (begun (running []) 0).storesCode 0x100000003 1 = true ∧
    ((begun (running []) 0).cached true 0 0x100000040 = none ∧
      ((begun (running []) 0).fillLine true 0 { line := 0x4000001, octets := [] }).cached true 0 0x10000007F ≠ none) := by
  refine ⟨by decide, by decide, by decide, by decide +kernel, ?_, by decide +kernel, by decide +kernel, by decide +kernel⟩
  unfold PoolsCanonical
  decide +kernel
theorem witness_threadRead : ∃ d c, (begun (running []) 0).threadRead 0 (Reg.off .CMP_VIOL 0 0) 8 .good = (.data d, c) :=
  ⟨List.replicate 8 0, pair_of (by decide +kernel)⟩
theorem witness_busWrite : ∃ c, (begun (running []) 0).busWrite ((begun (running []) 0).requester (.thread 0))
    0x100000040 (leBytes 8 7) = .next (.done, c) := by
  have h : (match (begun (running []) 0).busWrite ((begun (running []) 0).requester (.thread 0)) 0x100000040 (leBytes 8 7)
      with | .next (.done, _) => true | _ => false) = true := by decide +kernel
  split at h
  · rename_i c e; exact ⟨c, e⟩
  · cases h
theorem witness_misaligned : 0x100000001 % 2 ^ (3 % 4) ≠ 0 ∧ 0x100000001 % 2 ^ (1 : Fin 8).val ≠ 0 := by decide

/-- BalridTraps: words that are not defined. -/
theorem witness_undefinedWord :
    wordLegal 0xFFFFFFFF = false ∧ (0x0000000F#32).toNat / 2 ^ 25 = 0 ∧ 0x00E < (0x0000000F#32).toNat % 2 ^ 10 ∧
    2 ≤ (0x04000000#32).toNat / 2 ^ 25 ∧ (0x1FFFFFFF#32).toNat / 2 ^ 25 < 0x10 := by decide +kernel

/-- BalridTraps: a fetch without the right to execute. -/
theorem witness_fetchTrap : ∃ b,
    ((running []).wr CMP_LATTR.X 0).issues 0 = true ∧ ((running []).wr CMP_LATTR.X 0).fetch 0 = (.trap 3, b) :=
  let ⟨b, h⟩ := pair_of (a := .trap 3) (p := ((running []).wr CMP_LATTR.X 0).fetch 0) (by decide +kernel)
  ⟨b, by decide +kernel, h⟩

/-- BalridTraps: a job that is not a descriptor of a ring. -/
theorem witness_jobs : ∀ r i n, ((running []).thread 0).job ≠ .ring r i n := by
  have h : ((running []).thread 0).job = .none := by decide +kernel
  intro r i n
  rw [h]
  nofun

/-- A running thread with changes of its own. -/
def runningAs (f : Thread → Thread) (w : Nat := 0) : State := (running [] w).setThread 0 (f ((running [] w).thread 0))

/-- BalridWaits: END with and without operations in flight, and the holds that end. -/
theorem witness_end :
    (running []).opsOf 0 = 0 ∧
    State.opsOf { running [] with tide := { (running []).tide with
      ops := [{ thread := 0, tag := 1, engine := 1, desc := [], colour := 9, warden := false }] } } 0 ≠ 0 := by decide +kernel
theorem witness_holds :
    ((runningAs fun x => { x with hold := .ending 1 }).thread 0).hold = .ending 1 ∧
    ((runningAs fun x => { x with hold := .fence }).thread 0).hold = .fence ∧
    ((runningAs fun x => { x with hold := .fenceC 1 0 }).thread 0).hold = .fenceC 1 0 ∧
    ((runningAs fun x => { x with hold := .reseal 1 0x1000 }).thread 0).hold = .reseal 1 0x1000 ∧
    ((runningAs fun x => { x with warden := true }).thread 0).warden = true := by decide +kernel
theorem witness_wardenReady : ∀ w ∈ [encA 0x01 1 2 0 3, encA 0x01 1 2 0 4],
    Ready (runningAs (fun x => { x with warden := true }) w) 0 w := ready_of (by decide +kernel)

/-- BalridWaits: the three states of a tag, with the thread ready. -/
theorem witness_tags :
    (let w := encE 0x58 1 0 0 2
     let s := runningAs (fun x => { x with tags := [(1, .outstanding), (2, .done 7)], doneOrder := [2] }) w
     s.tag 0 2 = .done 7 ∧ s.tag 0 1 = .outstanding ∧ s.tag 0 255 = .idle ∧ (s.thread 0).doneOrder = 2 :: [] ∧
     s.issues 0 = true ∧ (s.fetch 0).1 = .word w) ∧
    (let w := encE 0x58 1 0 1 0
     let s := runningAs (fun x => { x with tags := [(1, .outstanding)] }) w
     (s.thread 0).doneOrder = [] ∧ (s.thread 0).tags ≠ [] ∧ s.issues 0 = true ∧ (s.fetch 0).1 = .word w) ∧
    (((running []).thread 0).tags = [] ∧ ((running []).thread 0).doneOrder = []) := by decide +kernel

/-- BalridOrderSet: outside M3 to M7, and inside with an address before and after the Pools. -/
theorem witness_orderSet :
    (let s := runningAs fun x => { x with warden := true }
     (begun s 0).rd GBL_MODE.MODE < 3 ∧ (s.thread 0).warden = true) ∧
    (let s := (runningAs fun x => { x with warden := true }).wr GBL_MODE.MODE 5
     3 ≤ (begun s 0).rd GBL_MODE.MODE ∧ (begun s 0).rd GBL_MODE.MODE ≤ 7 ∧
     (s.thread 0).warden = true ∧ (s.g 0 1).toNat < 0x100000000) := by decide +kernel


/-- BalridGauge: defined and undefined selectors, readings at the ends of their range. -/
theorem witness_selectors :
    selValid 0 = true ∧ selValid 17 = true ∧ selValid 18 = false ∧ selValid 32 = true ∧ selValid 49 = true ∧
    selValid 50 = false ∧ selValid 63 = true ∧ offsetOf (reading 0 16319) < 16320 ∧
    (begun (running []) 0).rd GAU_RECORD.GROUP < 18 := by decide +kernel

/-- BalridGauge: WAITG and ATG before and after their target, with and without a place, and a comparator that is met. -/
theorem witness_waitg :
    (let s := (running [(1, reading 5 0)]).wr GAU_STAT.RUN 1 0
     let c := (begun s 0).resolveSel 0
     ¬((begun s 0).selRuns c = true ∧ atOrAfter ((begun s 0).selReading c) (s.g 0 1) = true) ∧ s.issues 0 = true ∧
     (begun s 0).line.events.length < 4096 ∧ (s.g 0 2).toNat % 4 = 0) ∧
    (let s := ((running [(1, reading 5 0)]).wr GAU_STAT.RUN 1 0).setReg .GAU_READ (reading 5 0) 0
     let c := (begun s 0).resolveSel 0
     ((begun s 0).selRuns c = true ∧ atOrAfter ((begun s 0).selReading c) (s.g 0 1) = true) ∧ s.issues 0 = true) ∧
    (let s := ((runningAs fun x => { x with cmp := some (0, reading 5 0), hold := .waitg 1 }).wr GAU_STAT.RUN 1 0).setReg
       .GAU_READ (reading 5 0) 0
     (s.thread 0).cmp = some (0, reading 5 0) ∧ (s.thread 0).hold = .waitg 1 ∧ s.selRuns 0 = true ∧
     atOrAfter (s.selReading 0) (reading 5 0) = true) ∧
    ((running [(2, 2)]).g 0 2).toNat % 4 ≠ 0 := by decide +kernel
theorem witness_eventsFull :
    (let e : PendEvent := { sel := 0, target := 0, kind := .dump 0 }
     let s : State := { running [] with line := { (running []).line with events := List.replicate 4096 e } }
     4096 ≤ (begun s 0).line.events.length ∧ s.issues 0 = true) := by decide +kernel

/-- A thread at an engine instruction of an opcode and a tag, with octets at 0x1_0000_0040 in Pool 0, x[7] holding that
address. -/
def described (opc tag : Nat) (d : List Byte) : State :=
  (running [(7, 0x100000040)] (encE opc 0 7 0 tag)).poolWrite 0x100000040 d

theorem calls_of {s : State} {opc t tag rs : Nat} {d : Octets} (h1 : (s.thread t).hold = .none) (h2 : s.tstate t = 2)
    (h3 : (s.fetch t).1 = .word (encE opc 0 rs 0 tag)) (h4 : ((s.fetch t).2.engineIssue t tag (s.g t rs).toNat).1 = .go d) :
    ∃ b, Calls s opc t tag rs d b :=
  let ⟨b, hb⟩ := pair_of h4
  ⟨b, h1, .inl h2, h3, hb⟩

/-- Engines: descriptors of a copy and of a fill that reach their engines, and one that fails each check. -/
theorem witness_calls :
    (∃ b, Calls (described 0x54 255 []) 0x54 0 255 7 (List.replicate 64 0) b) ∧
    (∃ b, Calls (described 0x55 0 [1, 1]) 0x55 0 0 7 (1 :: 1 :: List.replicate 62 0) b) ∧
    (∃ b, Calls (described 0x50 5 [255]) (0x50 + (0 : Fin 6)) 0 5 7 (255 :: List.replicate 63 0) b) :=
  ⟨calls_of (by decide +kernel) (by decide +kernel) (by decide +kernel) (by decide +kernel),
   calls_of (by decide +kernel) (by decide +kernel) (by decide +kernel) (by decide +kernel),
   calls_of (by decide +kernel) (by decide +kernel) (by decide +kernel) (by decide +kernel)⟩

/-- The descriptor of a MOV.M copy. -/
def copyOf (src dst n : Nat) : Octets :=
  [1, 0, 0, 0] ++ List.replicate 12 0 ++ leBytes 8 src ++ leBytes 8 dst ++ leBytes 8 n ++ List.replicate 24 0

/-- Engines: a copy that is carried out, one whose areas overlap, descriptors that fail their engine's checks, and an
issue with an address that is not aligned and with a tag in use. -/
theorem witness_descriptors :
    (let zero : Octets := List.replicate 64 0
     descFlags zero % 2 = 0 ∧ movOk zero = false ∧ ctrdForm zero = false ∧ descForm 0 (255 :: List.replicate 63 0) = false) ∧
    descFlags (1 :: 1 :: List.replicate 62 0) % 2 = 1 ∧
    (movOk (copyOf 0x100000040 0x100000048 16) && movOverlaps (copyOf 0x100000040 0x100000048 16)) = true ∧
    (let d := copyOf 0x100000040 0x100400000 16
     let s := described 0x54 3 d
     (match movAct (opFor s 0x54 0 3 d) s with | .next _ => true | _ => false) = true) ∧
    (((described 0x54 3 []).engineIssue 0 3 0x100000041).1 = .trap 0x0A 0x100000041) ∧
    ((State.engineIssue ((described 0x54 3 []).setThread 0 { ((described 0x54 3 []).thread 0) with tags := [(3, .outstanding)] })
      0 3 0x100000040).1 = .trap 7 0) := by decide +kernel
/-- Engines: operations in flight with and without a thread that waits for them, and one that is discarded. -/
def inFlight (h : Hold) (discard : Bool) : State :=
  let s := runningAs fun x => { x with tags := [(5, .outstanding)], hold := h }
  { s with tide := { s.tide with ops := [{ thread := 0, tag := 5, engine := 2, desc := List.replicate 64 0, colour := 9,
                                           warden := false, acted := true, discard := discard }] } }
theorem witness_operations :
    ([inFlight .none false, inFlight (.waitc 1 5) false, inFlight .none true].all fun s =>
      s.tide.ops.any fun o => decide (s.tide.ops.find? (fun o => decide (o.thread = 0) && decide (o.tag = 5)) = some o) &&
        o.acted && decide (descRes o.desc = 0) && decide (o.thread < 256)) = true ∧
    ((inFlight .none false).thread 0).hold = .none ∧ ((inFlight (.waitc 1 5) false).thread 0).hold = .waitc 1 5 := by
  decide +kernel

/-! ### Witnesses: registers, time, log, colours, the Gauge, the host interface, Levee -/

/-- RegisterAccesses: an 8-octet and a 4-octet register, each with no half left out, and writes of each kind. -/
theorem witness_wholeAt :
    Reg.locate (Reg.off .CMP_START 511 0) = some (.CMP_START, 511, 0, 0) ∧ (Reg.place .CMP_START).octets = 8 ∧
    Reg.off .CMP_START 511 0 < 0x01A00000 ∧ Reg.off .CMP_START 511 0 % 8 = 0 ∧ isWindow .CMP_START = false ∧
    Reg.locate (Reg.off .GBL_DEBUG 0 0) = some (.GBL_DEBUG, 0, 0, 0) ∧ (Reg.place .GBL_DEBUG).octets = 4 := by decide +kernel
theorem witness_guarded :
    guardedBlock (Reg.off .CMP_START 0 0) = true ∧ guardedBlock (Reg.off .GAU_RECORD 0 0) = false ∧
    State.reset.trusted (.thread 0) = false ∧ (running []).trusted .host = true ∧
    spareBits .CMP_VIOL = 0 ∧ rsvdOk .GAU_RECORD 0 = true ∧ rsvdOk .GAU_RECORD (BitVec.allOnes 64) = false ∧
    GAU_RECORD.GROUP ∈ Reg.fields .GAU_RECORD := by decide +kernel
theorem witness_offsets :
    unlisted 0x019FFFFC true = true ∧ unlisted 0x019FFFFC false = true ∧ 0x01A00000 ≤ (0x01A00000#26).toNat ∧
    (running []).issues 0 = true := by decide +kernel

/-- MasterAccesses: the host after and before Power-On Check, in BAR0 and BAR2, and the debug master when closed. -/
theorem witness_hostAccess :
    (let s := withFields [(GBL_POC.DONE, 0, 0, 1)]
     s.rd GBL_MODE.MODE ≠ 0 ∧ s.rd GBL_POC.DONE = 1 ∧ 0x3FFFFFC + 4 ≤ 0x4000000 ∧ 0x3FFFFFC % 4 = 0 ∧ 2 % 4 ≠ 0 ∧
     0xFFFFFFC + 4 ≤ 2 ^ s.bar2Log) ∧
    State.reset.rd GBL_POC.DONE = 0 := by decide +kernel
theorem witness_hostBus :
    (∃ d u, (running []).busRead ((running []).requester .host) (Reg.off .CMP_VIOL 0 0) 8 = (.data d, u)) ∧
    (∃ u, State.reset.busRead (State.reset.requester .debug) 0x100000000 8 = (.locked, u)) ∧
    State.reset.rd GBL_MODE.MODE ≠ 2 ∧ State.reset.rd GBL_DEBUG.OPEN = 0 :=
  ⟨⟨List.replicate 8 0, pair_of (by decide +kernel)⟩, pair_of (by decide +kernel), by decide +kernel, by decide +kernel⟩

/-- NetworkTime: VALID 0 and 1, an adjustment at the limit and past it, edges 150,000,000 Ticks apart and closer, a
pulse due after one second and after more, time stamps present and absent. -/
theorem witness_networkTime :
    State.reset.rd CLK_STAT.VALID = 0 ∧ (withFields [(CLK_STAT.VALID, 0, 0, 1)]).rd CLK_STAT.VALID = 1 ∧
    (let s := (withFields [(CLK_STAT.VALID, 0, 0, 1), (CLK_JUMP.JUMP, 0, 0, 1)]).setReg .CLK_ADJ 65536
     (signed 64 (s.reg .CLK_ADJ).toNat).natAbs ≤ s.rd CLK_JUMP.JUMP * 2 ^ 16) ∧
    (let s := (withFields [(CLK_JUMP.JUMP, 0, 0, 1)]).setReg .CLK_ADJ (BitVec.ofInt 64 (-65537))
     s.rd CLK_JUMP.JUMP * 2 ^ 16 < (signed 64 (s.reg .CLK_ADJ).toNat).natAbs) := by decide +kernel
theorem witness_pps :
    (let s : State := { State.reset with clock := { State.reset.clock with edge := some 0 } }
     atOrAfter 150000000 s.tick = true ∧ s.clock.edge = some 0 ∧ 150000000 ≤ (150000000#64 - 0).toNat ∧
     (149999999#64 - 0).toNat < 150000000) ∧
    (let s : State := { withFields [(CLK_PPS.PPS_OUT_EN, 0, 0, 1)] with
       clock := { State.reset.clock with pulsed := 7, high := some 0 } }
     let later := fun (n : Nat) => timeSec (State.timeNow { s with tick := BitVec.ofNat 64 (n * 1500000000) })
     secondsAhead s.clock.pulsed (later 8) = 1 ∧ 1 < secondsAhead s.clock.pulsed (later 9) ∧
     s.rd CLK_PPS.PPS_OUT_EN = 1 ∧ s.clock.high = some 0 ∧
     max 1 (s.rd CLK_PPS.WIDTH) * 1500000 ≤ (BitVec.ofNat 64 (256 * 1500000) - 0).toNat) := by decide +kernel

/-- ErrorLog: a report with nothing to merge with; windows that end and that go on; releases within USED, past it, and
after a full log; pages and Pools retired. -/
theorem witness_errorLog :
    State.reset.rd ELG_STAT.USED < 1024 ∧ Tbl.get (1024, 0) State.reset.log.newest 255 = (1024, 0) ∧
    kindExempt 0x31 = true ∧ (withFields [(ELG_CTL.LIMIT, 0, 0, 0)]).rd ELG_CTL.LIMIT = 0 ∧
    (let s : State := { State.reset with log := { State.reset.log with suppressed := [(0x71, 3)] } }
     atOrAfter 1500000 s.tick = true ∧ (1500000#64).toNat / 1500000 ≠ s.tick.toNat / 1500000 ∧
     (1499999#64).toNat / 1500000 = s.tick.toNat / 1500000 ∧ s.log.suppressed = [(0x71, 3)]) := by decide +kernel
theorem witness_held : State.reset.holdReports.log.held = some [] ∧ State.reset.log.held = none := by decide +kernel
theorem witness_logRelease :
    (let v := word [(ELG_IDX.RD, 5)]
     let s := withFields [(ELG_STAT.USED, 0, 0, 5)]
     let few := withFields [(ELG_STAT.USED, 0, 0, 4)]
     rsvdOk .ELG_IDX v = true ∧ ELG_IDX.RD.of v = 5 ∧ (5 + 1024 - s.rd ELG_IDX.RD) % 1024 ≤ s.rd ELG_STAT.USED ∧
     s.log.fullCount = 0 ∧ s.log.due = [] ∧ few.rd ELG_STAT.USED < (5 + 1024 - few.rd ELG_IDX.RD) % 1024) ∧
    (let s : State := { withFields [(ELG_STAT.USED, 0, 0, 1024)] with log := { State.reset.log with fullCount := 2 } }
     s.rd ELG_STAT.USED = 1024 ∧ 0 < s.log.fullCount ∧ s.log.due = [] ∧ ELG_IDX.RD.of 0 = s.rd ELG_IDX.RD) := by
  decide +kernel
theorem witness_retire :
    rsvdOk .ELG_RETPAGE (word [(ELG_RETPAGE.V, 1), (ELG_RETPAGE.PAGE, 0x123456)]) = true ∧
    (withFields [(ELG_RETPAGE.V, 255, 0, 1)]).rd ELG_RETPAGE.V 255 = 1 ∧ State.reset.rd ELG_RETPAGE.V 255 = 0 ∧
    rsvdOk .ELG_RETPOOL (word [(ELG_RETPOOL.RET, 0x8000)]) = true ∧ State.reset.treePool 15 = false ∧
    (withFields [(CUL_CTL.TREE_EN, 0, 0, 1), (CUL_CTL.TREE_POOL, 0, 0, 15)]).treePool 15 = true ∧
    (ELG_RETPOOL.RET.of (word [(ELG_RETPOOL.RET, 0x8000)])).testBit 15 = true ∧
    (State.reset.rd ELG_RETPOOL.RET).testBit 15 = false := by decide +kernel

/-- ColourMap: staged writes with PEND 0 and 1, a commit that is carried out, refused and held, a hand-over that is
barred and one that is not, and a fence. -/
theorem witness_colourMap :
    rsvdOk (stagedReg 2) (word [(CMP_ATTR.V, 1), (CMP_ATTR.COLOUR, 9)]) = true ∧ State.reset.rd CMP_CTL.PEND = 0 ∧
    (withFields [(CMP_CTL.PEND, 0, 0, 1)]).rd CMP_CTL.PEND = 1 ∧
    ((List.range 512).all fun n => !State.reset.entryFaulty n) = true ∧
    (let s := withFields [(CMP_ATTR.V, 511, 0, 1), (CMP_START.START, 511, 0, 1)]
     s.entryFaulty 511 = true ∧ ((List.range 511).all fun n => !s.entryFaulty n) = true) ∧
    ((List.range 512).all fun n => decide (State.reset.rd CMP_ATTR.V n ≠ 1)) = true ∧
    (let s := withFields [(CMP_ATTR.V, 0, 0, 1), (CMP_ATTR.V, 511, 0, 1), (CMP_ATTR.COLOUR, 511, 0, 9), (CMP_END.END, 0, 0, 5),
       (CMP_START.START, 511, 0, 5), (CMP_END.END, 511, 0, 5)]
     ((List.range 512).all fun n => !s.entryFaulty n) = true ∧ s.rd CMP_ATTR.V 0 = 1 ∧ s.rd CMP_ATTR.V 511 = 1 ∧
     s.rd CMP_START.START 0 ≤ s.rd CMP_END.END 511 ∧ s.rd CMP_START.START 511 ≤ s.rd CMP_END.END 0 ∧
     s.rd CMP_ATTR.COLOUR 0 ≠ s.rd CMP_ATTR.COLOUR 511) ∧
    (let s : State := { State.reset with access := { State.reset.access with live := [1, 2, 3] } }
     3 ≤ s.access.live.length ∧ s.rd CMP_CTL.PEND = 0) ∧
    rsvdOk .POOL_OWN (word [(POOL_OWN.OWNER, 5)]) = true ∧ POOL_OWN.OWNER.of (word [(POOL_OWN.OWNER, 15)]) = 15 ∧
    State.reset.rd GBL_MODE.MODE ≠ 2 ∧ State.reset.treePool 15 = false ∧ State.reset.rd POOL_OWN.OWNER 15 ≠ 5 := by
  decide +kernel
theorem witness_fence :
    (let s : State := { State.reset with access := { State.reset.access with
       live := [1], held := some (.handover 15 5), fence := none } }
     s.access.live = 1 :: [] ∧ s.access.held = some (.handover 15 5) ∧ s.rd CMP_FENCE.BUSY = 0) ∧
    (let s : State := { State.reset with access := { State.reset.access with fence := some 1, held := none } }
     s.access.fence = some 1 ∧ s.access.held = none) ∧
    rsvdOk .CMP_STAT (word [(CMP_STAT.VIOL, 1)]) = true := by decide +kernel

/-- ColourMap: entry 511 the lowest that covers, with and without the right; no entry, under both default maps. -/
theorem witness_judgment :
    (let s := withFields [(CMP_LATTR.V, 511, 0, 1), (CMP_LATTR.COLOUR, 511, 0, 9), (CMP_LATTR.R, 511, 0, 1),
       (CMP_LEND.END, 511, 0, 0x7FFFFFFF)]
     s.covers 511 0x100000000 = true ∧ ((List.range 511).all fun j => !s.covers j 0x100000000) = true ∧
     s.rd CMP_LATTR.COLOUR 511 = (s.requester (.thread 0)).colour ∧
     rightsGrant .read (s.is CMP_LATTR.R 511) (s.is CMP_LATTR.W 511) (s.is CMP_LATTR.X 511) = true ∧
     rightsGrant .write (s.is CMP_LATTR.R 511) (s.is CMP_LATTR.W 511) (s.is CMP_LATTR.X 511) = false) ∧
    ((List.range 512).all fun j => !State.reset.covers j 0x1000000000) = true ∧
    (State.reset.requester (.thread 0)).dflt = false ∧ (State.reset.requester .host).dflt = true ∧
    (State.reset.requester (.thread 0)).m ≠ .debug ∧ State.reset.rd CMP_STAT.VIOL = 0 ∧
    (withFields [(CMP_STAT.VIOL, 0, 0, 1)]).rd CMP_STAT.VIOL = 1 := by decide +kernel

/-- Gauge: frame starts with and without RUN, an epoch start, renewals, and each multiframe position. -/
theorem witness_gaugeFrames :
    atOrAfter 0 State.reset.tick = true ∧ State.reset.rd GAU_STAT.RUN 17 = 0 ∧
    (withFields [(GAU_STAT.RUN, 17, 0, 1)]).rd GAU_STAT.RUN 17 = 1 ∧ State.reset.rd FRM_CTL.TX_EN 0 = 0 ∧
    (withFields [(FRM_CTL.TX_EN, 17, 0, 1)]).rd FRM_CTL.TX_EN 17 = 1 ∧
    (withFields [(WEI_LEASE.STATE, 17, 0, 1)]).leaseHeld 17 = true ∧ (withFields [(WEI_LEASE.STATE, 17, 0, 1)]).disputed 17 = false := by
  decide +kernel
/-- Gauge: a block that becomes due in a cycle in which one of a higher selector has, and one of a cycle before. -/
theorem witness_due :
    (let b : AtgBlock := { sel := 17, core := 0, warden := false, colour := 9, pc := 0, arg := 0, target := 0, dueAt := 5 }
     let old : AtgBlock := { b with dueAt := 4 }
     let e : PendEvent := { sel := 0, target := 0, kind := .atg { b with sel := 0 } }
     let s : State := { State.reset with tick := 5, tide := { State.reset.tide with due := [old, b] } }
     e.kind = .atg { b with sel := 0 } ∧ s.tide.due = [old] ++ [b] ∧ b.dueAt = s.tick.toNat ∧ e.sel < b.sel ∧
     ¬(old.dueAt = s.tick.toNat ∧ e.sel < old.sel)) ∧
    (let b : AtgBlock := { sel := 0, core := 0, warden := false, colour := 9, pc := 0, arg := 0, target := 0 }
     let s : State := { State.reset with line := { State.reset.line with events := [{ sel := 0, target := 0, kind := .atg b }] } }
     s.line.events = [{ sel := 0, target := 0, kind := .atg b }] ∧ b.sel = 0 ∧ s.tide.due = []) := by decide +kernel
theorem witness_gaugeCommands :
    (let s := (withFields [(GAU_STAT.RUN, 0, 0, 1), (GAU_STAT.FAR_LOCK, 17, 0, 1)])
     s.selRuns 0 = true ∧ atOrAfter (reading 0 16319) (s.selReading 0) = true ∧
     frameOf (reading 0 16319) = frameOf (s.selReading 0) ∧ s.selRuns 49 = true ∧
     atOrAfter (reading 1 0) (s.selReading 49) = true) ∧
    gaugeWord [] = none ∧ gaugeWord [0, 0, 0, 4, 0x12, 0x4C] = some 0x412 ∧
    (let s := withFields [(FRM_CTL.RX_EN, 17, 0, 1), (FRM_STAT.IF, 17, 0, 1)]
     s.rd FRM_CTL.RX_EN 17 = 1 ∧ s.rd FRM_STAT.IF 17 = 1 ∧ s.rd FRM_CTL.RX_EN 0 = 0) ∧
    (let s : State := { (withFields [(GAU_STAT.FAR_LOCK, 0, 0, 1)]).setReg .GAU_FAR (reading 0x41205 3) 0 with
       line := { State.reset.line with far := [(0, { lastValid := some 0x411, disagree := 1 })] } }
     let s0 := s.setReg .GAU_FAR (farNext (s.reg .GAU_FAR 0) (some (reading 0x41105 3)) 6 3) 0
     s.is GAU_STAT.FAR_LOCK 0 = true ∧ frameOf (s0.reg .GAU_FAR 0) / 256 = 0x412 ∧
     1 ≤ (Tbl.get {} s.line.far 0).disagree ∧ frameOf (s0.reg .GAU_FAR 0) / 256 ≠ 0x413) ∧
    (let s : State := { State.reset with line := { State.reset.line with far := [(0, { lastValid := some 0x411, disagree := 0 })] } }
     s.is GAU_STAT.FAR_LOCK 0 = false ∧ (Tbl.get {} s.line.far 0).lastValid = some ((0x412 + 2 ^ 40 - 1) % 2 ^ 40) ∧
     (Tbl.get {} s.line.far 0).lastValid ≠ some ((0x414 + 2 ^ 40 - 1) % 2 ^ 40)) ∧
    rsvdOk .GAU_SNAPCTL (word [(GAU_SNAPCTL.TRIG, 1)]) = true ∧ rsvdOk .GAU_RECORD (word [(GAU_RECORD.GROUP, 17)]) = true ∧
    GAU_RECORD.GROUP.of (word [(GAU_RECORD.GROUP, 17)]) < 18 ∧ 18 ≤ GAU_RECORD.GROUP.of (word [(GAU_RECORD.GROUP, 18)]) := by
  decide +kernel

/-- CommandRings: doorbells within and past CQ_TAIL, fetches from host memory and from a Pool, RCFG refused, enabled and
disabled, the end of a disable, and coalescing. -/
theorem witness_rings :
    (let v := word [(HIF_DB.CQ_V, 1), (HIF_DB.CQ_HEAD, 3)]
     let s := withFields [(HIF_RCFG.EN, 63, 0, 1), (HIF_RCFG.LOG2SZ, 63, 0, 12), (HIF_RIDX.CQ_TAIL, 63, 0, 3)]
     let size := 2 ^ s.rd HIF_RCFG.LOG2SZ 63
     let done := ringGap size (s.ring 63).cqHead (HIF_DB.CQ_HEAD.of v)
     rsvdOk .HIF_DB v = true ∧ s.rd HIF_RCFG.EN 63 = 1 ∧ HIF_DB.SQ_V.of v = 0 ∧ HIF_DB.CQ_V.of v = 1 ∧
     HIF_DB.CQ_HEAD.of v < size ∧ done ≤ ringGap size (s.ring 63).cqHead (s.rd HIF_RIDX.CQ_TAIL 63)) ∧
    (let v := word [(HIF_DB.CQ_V, 1), (HIF_DB.CQ_HEAD, 3)]
     let s := withFields [(HIF_RCFG.EN, 63, 0, 1), (HIF_RCFG.LOG2SZ, 63, 0, 1)]
     ¬(HIF_DB.CQ_HEAD.of v < 2 ^ s.rd HIF_RCFG.LOG2SZ 63)) ∧
    (let v := word [(HIF_DB.SQ_V, 1), (HIF_DB.SQ_TAIL, 2)]
     let s : State := { withFields [(HIF_RCFG.EN, 0, 0, 1), (HIF_RCFG.LOG2SZ, 0, 0, 2)] with
       host := { State.reset.host with rings := [(0, { sqTail := 3 })] } }
     let posted := fun (r : Nat) => ringGap 4 (s.rd HIF_RIDX.SQ_HEAD 0) (s.ring 0).sqTail + ringGap 4 (s.ring 0).sqTail r
     rsvdOk .HIF_DB v = true ∧ s.rd HIF_RCFG.EN 0 = 1 ∧ HIF_DB.SQ_V.of v = 1 ∧ HIF_DB.CQ_V.of v = 0 ∧
     4 < posted (HIF_DB.SQ_TAIL.of v % 4) ∧ posted 0 ≤ 4) ∧
    rsvdOk .HIF_DB (word [(HIF_DB.SQ_V, 1), (HIF_DB.SQ_TAIL, 255)]) = true ∧ State.reset.rd HIF_RCFG.EN 0 = 0 := by
  decide +kernel

/-- A command ring that can fetch, with its submission ring in host memory or in Pool 0. -/
def fetching (loc : Nat) : State :=
  let s := withFields [(HIF_RCFG.EN, 0, 0, 1), (HIF_RCFG.LOG2SZ, 0, 0, 1), (HIF_RCFG.LOC, 0, 0, loc), (HIF_RCFG.COLOUR, 0, 0, 9),
    (HIF_RBASE.BASE, 0, 0, if loc = 1 then 0x100000000 else 0), (CMP_LATTR.V, 0, 0, 1), (CMP_LATTR.COLOUR, 0, 0, 9),
    (CMP_LATTR.R, 0, 0, 1), (CMP_LEND.END, 0, 0, 0x7FFFFFFF)]
  { s with host := { s.host with busMaster := true, rings := [(0, { sqTail := 1 })] } }
theorem witness_fetch :
    ([fetching 0, fetching 1].all fun s =>
      decide (s.rd HIF_RCFG.EN 0 = 1 ∧ (s.ring 0).disabling = false ∧ s.rd HIF_RSTAT.HALTED 0 = 0 ∧ s.host.busMaster = true ∧
        s.rd HIF_RIDX.SQ_HEAD 0 ≠ (s.ring 0).sqTail ∧ s.rd HIF_RSTAT.OUTST 0 + 1 < 2 ^ s.rd HIF_RCFG.LOG2SZ 0 ∧
        s.rd HIF_RCFG.LOG2SZ 0 ≤ 12)) = true ∧
    State.reset.canFetch 0 = false := by decide +kernel
theorem witness_fetchPool : ∃ b, (fetching 1).areaRead ((fetching 1).requester (.dma 0))
    ((fetching 1).rd HIF_RBASE.BASE 0 + 64 * (fetching 1).rd HIF_RIDX.SQ_HEAD 0) 64 = (.data (List.replicate 64 0), b) :=
  pair_of (by decide +kernel)
theorem witness_rcfg :
    rsvdOk .HIF_RCFG (word [(HIF_RCFG.LOG2SZ, 13)]) = true ∧ 12 < HIF_RCFG.LOG2SZ.of (word [(HIF_RCFG.LOG2SZ, 13)]) ∧
    (let v := word [(HIF_RCFG.LOG2SZ, 12), (HIF_RCFG.EN, 1)]
     rsvdOk .HIF_RCFG v = true ∧ 1 ≤ HIF_RCFG.LOG2SZ.of v ∧ HIF_RCFG.LOG2SZ.of v ≤ 12 ∧ HIF_RCFG.EN.of v = 1) ∧
    (let v := word [(HIF_RCFG.LOG2SZ, 12)]
     let s := withFields [(HIF_RCFG.LOG2SZ, 0, 0, 12), (HIF_RCFG.EN, 0, 0, 1), (HIF_RCFG.COLOUR, 0, 0, 0), (HIF_RCFG.VEC, 0, 0, 0)]
     rsvdOk .HIF_RCFG v = true ∧ s.rd HIF_RCFG.EN 0 = 1 ∧ HIF_RCFG.EN.of v = 0 ∧
     ([HIF_RCFG.LOC, HIF_RCFG.COLOUR, HIF_RCFG.VEC, HIF_RCFG.LOG2SZ].all fun f => decide (f.of v = s.rd f 0)) = true) ∧
    (let s : State := { withFields [(HIF_RCOAL.COAL_US, 0, 0, 1)] with
       host := { State.reset.host with rings := [(0, { disabling := true, first := some 0, since := 1 })] } }
     (s.ring 0).disabling = true ∧ (s.ring 0).owed = 0 ∧ (s.ring 0).first = some 0 ∧ 0 < (s.ring 0).since ∧
     s.rd HIF_RCOAL.COAL_US 0 ≠ 0 ∧ 0 + s.rd HIF_RCOAL.COAL_US 0 * 1500 ≤ (1500#64).toNat ∧ atOrAfter 1500 s.tick = true) := by
  decide +kernel

/-- HostInterface: windows at the end of Culvert and past it, host colours, a frame descriptor in form and one that is
not, for both frame rings. -/
theorem witness_hostInterface :
    rsvdOk .HIF_BAR2WIN (word [(HIF_BAR2WIN.WIN, 1)]) = true ∧ rsvdOk .HIF_CTL (word [(HIF_CTL.HCOLOUR, 2)]) = true ∧
    HIF_CTL.HCOLOUR.of (word [(HIF_CTL.HCOLOUR, 2)]) = 2 ∧
    (0 + 1) * 2 ^ (State.reset.rd HIF_STAT.BAR2_LOG2 + 30) ≤ 2 ^ 36 ∧
    2 ^ 36 < (HIF_BAR2WIN.WIN.of (word [(HIF_BAR2WIN.WIN, 63)]) + 1) * 2 ^ ((withFields [(HIF_STAT.BAR2_LOG2, 0, 0, 6)]).rd HIF_STAT.BAR2_LOG2 + 30) := by
  decide +kernel

/-- An EAPOL frame, and a PTP Sync message over Ethernet, of 60 octets without FCS. -/
def eapolFrame : Octets := List.replicate 12 0 ++ [0x88, 0x8E] ++ List.replicate 46 0
def syncFrame : Octets := List.replicate 12 0 ++ [0x88, 0xF7, 0x00, 0x02] ++ List.replicate 44 0
/-- A frame ring with one descriptor fetched. -/
def frameRing (r w0 len : Nat) : State :=
  { withFields [(FRM_CPORT.EN, 0, 0, 1), (CLK_PTP.TS_EN, 0, 0, 1), (FRM_TSLIVE.USED, 0, 1, 1), (FRM_TSLIVE.KIND, 0, 1, 1),
      (FRM_TSLIVE.OWNER, 0, 1, 1)] with
    host := { State.reset.host with rings := [(r, { fetched := [{ slot := 0, tag := 1, words := [BitVec.ofNat 64 w0, 0,
      BitVec.ofNat 64 len, 0, 0, 0, 0, 0] }] })] } }
theorem witness_frameRings :
    (let s := frameRing 64 0x10000 60
     let d : Desc := { slot := 0, tag := 1, words := [0x10000, 0, 60, 0, 0, 0, 0, 0] }
     (s.ring 64).fetched = d :: [] ∧ d.rsvdOk 0x0FFFFFFF 0x3FFF = true ∧ 60 ≤ d.word 2 ∧ d.word 2 ≤ 1514 ∧
     s.rd HIF_RCFG.LOC 64 = 0 ∧ eapolFrame.length = d.word 2 ∧ be16 eapolFrame 12 = 0x888E ∧
     (withRecs s [(CH.EN, 1, 1)]).chanEnabled 1 = true ∧ (s.mkaQueue 1).length < 8 ∧ (State.reset.ring 64).fetched = []) ∧
    (let s := frameRing 66 0x10000000 60
     let d : Desc := { slot := 0, tag := 1, words := [0x10000000, 0, 60, 0, 0, 0, 0, 0] }
     (s.ring 66).fetched = d :: [] ∧ d.rsvdOk 0x107FFFFF 0x3FFF = true ∧ syncFrame.length = d.word 2 ∧
     d.word 0 / 2 ^ 16 % 2 ^ 7 = 0 ∧ s.rd FRM_CPORT.EN 0 0 = 1 ∧ s.rd CLK_PTP.TS_EN 0 = 1 ∧
     (ptpEvent syncFrame).any (fun a => decide (beNat (slice syncFrame a.msg 1) % 16 = 0) && !a.v6 &&
       decide (a.msg + 44 ≤ syncFrame.length)) = true ∧ (d.word 0).testBit 28 = true ∧ ptpEvent eapolFrame = none) ∧
    (let d : Desc := { slot := 0, tag := 1, words := [0x10000, 0, 59, 0, 0, 0, 0, 0] }
     (frameRing 64 0x10000 59).ring 64 = { fetched := [d] } ∧ ¬(60 ≤ d.word 2)) := by decide +kernel

/-- LeveeAlarms: a source that is disabled, K = 1, K = 16 with the window met and missed. -/
theorem witness_alarms :
    (withFields [(LEV_SRCCFG.EN, 15, 0, 0)]).rd LEV_SRCCFG.EN 15 = 0 ∧ State.reset.watch < 2 ^ 48 ∧
    (let s := withFields [(LEV_SRCCFG.EN, 15, 0, 1), (LEV_SRCCFG.KM1, 15, 0, 15), (LEV_SRCCFG.W, 15, 0, 65535),
       (LEV_WATCH.COUNT, 0, 0, 65535)]
     s.rd LEV_SRCCFG.EN 15 = 1 ∧ s.rd LEV_SRCCFG.KM1 15 + 1 = 16 ∧ s.watch < 2 ^ 48) := by decide +kernel
theorem witness_raises : RaisesAlarm 16 65535 65535 (List.replicate 15 0) ∧ RaisesAlarm 1 1 0 [] ∧
    ¬RaisesAlarm 16 65534 65535 (List.replicate 15 0) := by
  refine ⟨.inr ⟨by decide, 0, by decide, by decide⟩, .inl rfl, ?_⟩
  rintro (h | ⟨-, t, h, hw⟩)
  · cases h
  · simp at h
    subst h
    revert hw
    decide

/-- LeveeEvents: every source, under main power and on backup; a response point of each response. -/
theorem witness_leveeEvent :
    State.reset.rd GBL_MODE.MODE ≠ 0 ∧ (withFields [(GBL_MODE.MODE, 0, 0, 0)]).rd GBL_MODE.MODE = 0 ∧
    backupSource 0 = true ∧ backupSource 5 = false := by decide +kernel
theorem witness_response :
    ([0, 1, 2, 3].all fun r =>
      let s : State := { State.reset with levee := { State.reset.levee with alarms := [⟨0, r, 0, 0⟩] } }
      decide (((bySource s.levee.alarms).map Alarm.resp).foldl max 0 = r) && decide (s.levee.buffer.length ≤ 32)) = true ∧
    (withFields [(GBL_MODE.MODE, 0, 0, 9)]).rd GBL_MODE.MODE = 9 := by decide +kernel

/-- LeveeCommands: records, dips, sources whose response is locked, stickies, and a master that is not trusted. -/
theorem witness_leveeCommands :
    (withFields [(LEV_STAT.DIP, 0, 0, 1)]).rd LEV_STAT.DIP = 1 ∧ State.reset.rd LEV_STAT.DIP = 0 ∧
    State.reset.rd LEV_STAT.LOST = 0 ∧ State.reset.levee.buffer.length < 32 ∧ State.reset.keys.held = none ∧
    (running []).trusted .host = true ∧ State.reset.trusted (.thread 255) = false ∧
    (State.reset.requester (.thread 255)).colour < 16 ∧
    rsvdOk .LEV_SRCCFG (word [(LEV_SRCCFG.EN, 1), (LEV_SRCCFG.W, 65535)]) = true ∧
    LEV_SRCCFG.W.of (word [(LEV_SRCCFG.EN, 1), (LEV_SRCCFG.W, 65535)]) ≠ 0 ∧
    (let s := withFields [(LEV_SRCCFG.RESP, 15, 0, 3)]
     s.rd LEV_SRCCFG.RESP 15 = 3 ∧ s.present = false ∧ s.rd LEV_SRCCFG.EN 15 ≠ 0) ∧
    rsvdOk .LEV_STICKY (word [(LEV_STICKY.FLAG, 0x8000)]) = true ∧
    (withFields [(LEV_STICKY.FLAG, 0, 0, 0x8001)]).rd LEV_STICKY.FLAG &&& LEV_STICKY.FLAG.of (word [(LEV_STICKY.FLAG, 0x8000)]) ≠ 0 ∧
    rsvdOk .LEV_LOGRD (word [(LEV_LOGRD.INDEX, 1023)]) = true := by decide +kernel

/-- ThreadCommands: each state of a thread that the commands distinguish. -/
theorem witness_threadControl :
    rsvdOk .TID_THRCFG (word [(TID_THRCFG.ROLE, 2), (TID_THRCFG.COLOUR, 9)]) = true ∧ State.reset.tstate 255 = 0 ∧
    TID_THRCFG.ROLE.of (word [(TID_THRCFG.ROLE, 3)]) = 3 ∧ TID_THRCFG.COLOUR.of (word [(TID_THRCFG.COLOUR, 15)]) = 15 ∧
    State.reset.rd TID_THRCFG.ROLE 255 = 0 ∧ (withFields [(TID_THRCFG.ROLE, 255, 0, 2)]).rd TID_THRCFG.ROLE 255 = 2 ∧
    (withFields [(TID_THRSTAT.STATE, 255, 0, 6)]).tstate 255 = 6 ∧ (withFields [(TID_THRSTAT.STATE, 255, 0, 2)]).opsOf 255 = 0 ∧
    (withFields [(TID_THRSTAT.STATE, 255, 0, 3), (TID_THRSTAT.STOPPING, 255, 0, 1)]).rd TID_THRSTAT.STOPPING 255 = 1 ∧
    (inFlight .none false).opsOf 0 ≠ 0 := by decide +kernel
def orderOf (c : Nat) : SoEntry :=
  { cls := c, flags := 1, colour := 9, indexLo := 0, indexHi := 0xFFFFFFFF, cores := 1, pc := 0x100000000, arg := 0, limit := 1 }
theorem witness_dispatch :
    (let r : EventRec := { cls := 13, idx := 0, count := 1, reading := 0, entry := orderOf 13, g5 := 0, gen := 0 }
     let s : State := { withFields [(TID_THRCFG.ROLE, 7, 0, 1), (TID_THRSTAT.STATE, 7, 0, 1)] with
       tide := { State.reset.tide with queue := [r] } }
     s.tide.queue[0]? = some r ∧ (List.range 256).find? (s.eligible r.entry) = some 7) ∧
    (let b : AtgBlock := { sel := 0, core := 31, warden := false, colour := 9, pc := 0, arg := 0, target := 0 }
     let s : State := { withFields [(TID_THRCFG.ROLE, 255, 0, 1), (TID_THRSTAT.STATE, 255, 0, 1)] with
       tide := { State.reset.tide with due := [b] } }
     s.tide.due.find? (fun b => decide (b.core = 31)) = some b ∧ s.role (8 * 31 + 7) = 1 ∧ s.tstate (8 * 31 + 7) = 1 ∧
     ((List.range 7).all fun k => decide ¬(s.role (8 * 31 + k) = 1 ∧ s.tstate (8 * 31 + k) = 1)) = true) ∧
    (let d : Desc := { slot := 0, tag := 1, words := [] }
     let s : State := { withFields [(TID_THRCFG.ROLE, 255, 0, 2), (TID_THRCFG.RING, 255, 0, 63), (TID_THRSTAT.STATE, 255, 0, 1)] with
       host := { State.reset.host with rings := [(63, { fetched := [d] })] } }
     (s.ring 63).fetched = d :: [] ∧ s.role 255 = 2 ∧ s.rd TID_THRCFG.RING 255 = 63 ∧ s.tstate 255 = 1 ∧
     ((List.range 255).all fun k => decide (s.role k ≠ 2)) = true) ∧
    (let s := runningAs fun x => { x with job := .handler 1 0 0 1 0 }
     (s.thread 0).job = .handler 1 0 0 1 0 ∧ atOrAfter 1024 s.tick = true ∧ 0 + 1 * 1024 ≤ (1024#64).toNat ∧ s.tstate 0 ≠ 6) := by
  decide +kernel

/-- EventQueue, ThreadCommands: an event that is merged, that is queued, and that overflows; overflow records, of the one
class that has overflowed. -/
theorem witness_events :
    (let o : OvfEvents := { count := 2, entry := orderOf 13, gen := 0 }
     let s : State := { withFields [(TID_STAT.SO_VALID, 0, 0, 1), (TID_EVQ.OVF, 0, 0, 2 ^ 12)] with
       tide := { State.reset.tide with orders := [orderOf 13], ovf := [(13, some o)] } }
     s.orderFor 13 5 = some (orderOf 13) ∧ (orderOf 13).flags.testBit 0 = true ∧ s.tide.queue.length + 13 ≤ 8192 ∧
     s.rd TID_EVQ.OVF = 2 ^ (13 - 1) ∧ s.orderFor 13 0xFFFFFFFF = some (orderOf 13) ∧
     ((List.range 13).all fun k => decide ((s.rd TID_EVQ.OVF).testBit k = true ↔ Tbl.get none s.tide.ovf (k + 1) ≠ none)) = true) ∧
    (let r : EventRec := { cls := 13, idx := 5, count := 1, reading := 0, entry := orderOf 13, g5 := 0, gen := 0 }
     [r] = [] ++ r :: [] ∧ r.cls = 13 ∧ r.idx = 5 ∧ r.gen = State.reset.rd TID_SOINFO.GEN) := by decide +kernel
theorem witness_oneOverflow (o : OvfEvents) (k : Nat) :
    Tbl.get none [(13, some o)] k = if k = 13 then some o else none := by
  show (if 13 = k then some o else none) = _
  by_cases h : 13 = k
  · subst h; rfl
  · rw [if_neg h, if_neg (fun e => h e.symm)]
theorem witness_eventsOverflow (r : EventRec) (h : r.idx ≠ 5) :
    (∀ x ∈ List.replicate 8192 r, ¬(x.cls = 13 ∧ x.idx = 5)) ∧ 8192 ≤ (List.replicate 8192 r).length := by
  refine ⟨fun x hx hc => ?_, ?_⟩
  · rw [List.eq_of_mem_replicate hx] at hc
    exact h hc.2
  · exact Nat.le_of_eq List.length_replicate.symm


/-! ### The published algorithms, by their published vectors -/

/-- Octets of a number, most significant first. -/
def hex (n x : Nat) : Octets := beBytes n x

/-- FIPS 197, C.1 and C.3. -/
theorem test_aes :
    Crypto.aes (hex 16 0x000102030405060708090A0B0C0D0E0F) (hex 16 0x00112233445566778899AABBCCDDEEFF) =
      hex 16 0x69C4E0D86A7B0430D8CDB78070B4C55A ∧
    Crypto.aes (hex 32 0x000102030405060708090A0B0C0D0E0F101112131415161718191A1B1C1D1E1F)
      (hex 16 0x00112233445566778899AABBCCDDEEFF) = hex 16 0x8EA2B7CA516745BFEAFC49904B496089 ∧
    Crypto.aesInv (hex 16 0x000102030405060708090A0B0C0D0E0F) (hex 16 0x69C4E0D86A7B0430D8CDB78070B4C55A) =
      hex 16 0x00112233445566778899AABBCCDDEEFF := by decide +kernel
/-- RFC 3394, 4.1. -/
theorem test_keyUnwrap :
    Crypto.keyUnwrap (hex 16 0x000102030405060708090A0B0C0D0E0F) (hex 24 0x1FA68B0A8112B447AEF34BD8FB5A7B829D3E862371D2CFE5) =
      some (hex 16 0x00112233445566778899AABBCCDDEEFF) := by decide +kernel
theorem test_keyWrap :
    Crypto.keyWrap (hex 16 0x000102030405060708090A0B0C0D0E0F) (hex 16 0x00112233445566778899AABBCCDDEEFF) =
      hex 24 0x1FA68B0A8112B447AEF34BD8FB5A7B829D3E862371D2CFE5 := by decide +kernel
/-- RFC 4493, examples 1 and 2. -/
theorem test_cmac :
    Crypto.cmac (hex 16 0x2B7E151628AED2A6ABF7158809CF4F3C) [] = hex 16 0xBB1D6929E95937287FA37D129B756746 ∧
    Crypto.cmac (hex 16 0x2B7E151628AED2A6ABF7158809CF4F3C) (hex 16 0x6BC1BEE22E409F96E93D7E117393172A) =
      hex 16 0x070A16B46B4D4144F79BDD9DD04A287C := by decide +kernel
/-- The GCM specification's test case 2. -/
theorem test_gcm :
    Crypto.gcm false (hex 16 0) (hex 12 0) [] (hex 16 0) =
      (hex 16 0x0388DACE60B6A392F328C2B971B2FE78, hex 16 0xAB6E47D42CEC13BDF53A67B21257BDDF) := by decide +kernel
/-- IEEE 1619, vector 1. -/
theorem test_xts :
    Crypto.xts false (hex 16 0) (hex 16 0) 0 (hex 32 0) =
      hex 32 0x917CF69EBD68B2EC9B9FE9A3EADDA692CD43D2F59598ED858C02C2652FBF922E := by decide +kernel
/-- The check values of CRC-32, CRC-32C and CRC-16 over the digits 1 to 9. -/
theorem test_crc :
    (let d := (List.range 9).map fun k => BitVec.ofNat 8 (0x31 + k)
     Crypto.crc32 d = 0xCBF43926 ∧ Crypto.crc32cFrom 0xFFFFFFFF d ^^^ 0xFFFFFFFF = 0xE3069283 ∧
     Crypto.crc16 0x1021 0xFFFF d = 0x29B1) := by decide +kernel

/-! ### Witnesses: Basin -/

/-- A pool of 16 cells, a Confidential range over them, line channel 2879 a packet channel, and nodes above queue 1048575. -/
def basin (fs : List (RField × Nat × Nat)) : State :=
  withRecs (withFields [(BSN_POOL.EN, 0, 0, 1), (BSN_POOL.COUNT, 0, 0, 16), (BSN_POOL.READY, 0, 0, 1),
      (CUL_RNG.EN, 0, 0, 1), (CUL_RNG.TYPE, 0, 0, 1), (CUL_RNG.READY, 0, 0, 1), (FRM_TSLIVE.USED, 17, 159, 1),
      (FRM_TSLIVE.OWNER, 17, 159, 159), (FRM_TSLIVE.KIND, 17, 159, 1)])
    ([(NODE.EN, nodeIx 1 65535, 1), (NODE.PARENT, nodeIx 1 65535, 4095), (NODE.EN, nodeIx 2 4095, 1),
      (NODE.PARENT, nodeIx 2 4095, 2879)] ++ fs)
/-- The image of a record with fields set. -/
def image (k : RecKind) (fs : List (RField × Nat)) : List Word :=
  (withRecs State.reset (fs.map fun f => (f.1, (0 : Nat), f.2))).recWords k 0

/-- BasinObjects: queues at both ends of their range; images refused for each ground, and accepted. -/
theorem witness_queueConfig :
    (let s := basin []
     let q := 2 ^ 20 - 1
     let im := image .queue [(QUE.EN, 1), (QUE.WEIGHT, 1), (QUE.FG, 65535)]
     let off := image .queue [(QUE.WEIGHT, 1), (QUE.FG, 65535)]
     (BsnObj.queue q).place = some (.queue, q) ∧ RecKind.queue.imageOk im = true ∧ s.rrd QUE.DRAIN q = 0 ∧ QUE.EN.of im = 1 ∧
     QUE.WEIGHT.of im ≠ 0 ∧ QUE.FG.of im = 65535 ∧ s.rrd QUE.EN q ≠ 1 ∧ s.rrd NODE.EN (nodeIx 1 65535) = 1 ∧
     s.rrd NODE.EN (nodeIx 1 0) ≠ 1 ∧ QUE.EN.of off ≠ 1 ∧ RecKind.queue.imageOk off = true ∧ QUE.WEIGHT.of off ≠ 0 ∧
     s.rd BSN_POOL.READY = 1 ∧ s.sharedFree ≠ 0 ∧ (s.allocCell 4200).1 = some (0, 1) ∧ s.rd BSN_POOL.READY = 1 ∧
     State.reset.rd BSN_POOL.READY ≠ 1 ∧ (basin [(QUE.DRAIN, q, 1)]).rrd QUE.DRAIN q ≠ 0) ∧
    RecKind.queue.imageOk ((image .queue []).map fun _ => BitVec.allOnes 64) = false ∧
    QUE.WEIGHT.of (image .queue [(QUE.WEIGHT, 0)]) = 0 ∧
    (let s := basin [(QUE.EN, 0, 1), (QUE.FG, 0, 65535)]
     s.rrd QUE.EN 0 = 1 ∧ s.rrd QUE.DRAIN 0 = 0 ∧ s.rrd QUE.FG 0 = 65535) ∧
    (basin [(QUE.EN, 0, 1), (QUE.DRAIN, 0, 1)]).rrd QUE.DRAIN 0 = 1 := by decide +kernel
theorem witness_nodeConfig :
    (let s := basin []
     let im := image .node [(NODE.EN, 1), (NODE.WEIGHT, 1), (NODE.PARENT, 4095)]
     RecKind.node.imageOk im = true ∧ NODE.WEIGHT.of im ≠ 0 ∧ NODE.EN.of im = 1 ∧ NODE.PARENT.of im = 4095 ∧
     s.rrd NODE.EN (nodeIx 1 0) ≠ 1 ∧ s.rrd NODE.EN (nodeIx 1 65535) = 1 ∧ s.rrd NODE.EN (nodeIx 2 4095) = 1 ∧
     s.packetChan 2879 = true ∧ s.packetChan 0 = false ∧ s.rrd NODE.EN (nodeIx 3 2879) ≠ 1 ∧
     s.rrd NODE.EN (nodeIx 2 0) ≠ 1) ∧
    RecKind.node.imageOk ((image .node []).map fun _ => BitVec.allOnes 64) = false ∧
    NODE.WEIGHT.of (image .node [(NODE.WEIGHT, 0)]) = 0 ∧
    NODE.SHP_EN.of (image .node [(NODE.SHP_EN, 1), (NODE.WEIGHT, 1)]) = 1 := by decide +kernel
theorem witness_policerConfig :
    (let im := image .policer [(POL.EN, 1), (POL.CIR_INC, 1), (POL.PIR_INC, 1), (POL.GRP, 17)]
     RecKind.policer.imageOk im = true ∧ POL.CIR_INC.of im ≤ POL.PIR_INC.of im ∧ POL.CBS.of im ≤ POL.PBS.of im ∧
     POL.GRP.of im < 18 ∧ POL.EN.of im = 1 ∧ State.reset.rrd POL.EN (2 ^ 18 - 1) ≠ 1) ∧
    ¬POL.GRP.of (image .policer [(POL.GRP, 18)]) < 18 ∧
    RecKind.policer.imageOk ((image .policer []).map fun _ => BitVec.allOnes 64) = false := by decide +kernel
theorem witness_disable :
    (let s := basin [(QUE.EN, 5, 1), (QUE.EN, 6, 1), (QUE.DRAIN, 6, 1), (QUE.FG, 5, 65535), (POL.EN, 2 ^ 18 - 1, 1)]
     s.rrd QUE.EN 5 = 1 ∧ s.rrd QUE.DRAIN 5 = 0 ∧ s.rrd QUE.EN 6 = 1 ∧ s.rrd QUE.DRAIN 6 = 1 ∧ s.rrd QUE.EN 7 = 0 ∧
     s.childrenOf 1 65535 ≠ [] ∧ s.childrenOf 2 4095 ≠ [] ∧ s.rrd POL.EN (2 ^ 18 - 1) = 1 ∧ s.rrd POL.EN 0 = 0) ∧
    (basin []).rrd NODE.EN (nodeIx 1 65535) = 1 ∧ (basin []).childrenOf 1 65535 = [] ∧
    (basin []).rrd NODE.EN (nodeIx 3 2879) = 0 := by decide +kernel

/-- BasinCommands: an object of each kind and none, and a descriptor of each. -/
theorem witness_basinObjects :
    (ofKind (bsnObject 0 (2 ^ 20 - 1)) 0 ∧ ¬ofKind (bsnObject 0 (2 ^ 20)) 0) ∧
    (ofKind (bsnObject 1 (2 ^ 29 + 65535)) 1 ∧ ofKind (bsnObject 1 (2 ^ 31 + 262143)) 2 ∧ bsnObject 1 0 = .bad ∧
      bsnObject 1 (2 ^ 29 + 65536) = .bad) := by
  refine ⟨⟨?_, ?_⟩, ?_, ?_, ?_⟩ <;> first | decide | (show (_ : Nat) = _; decide) | (intro h; cases h)
theorem witness_basinCalls :
    (∃ b, Calls (described 0x53 255 [0x02, 2]) (0x52 + 1) 0 255 7 ([2, 2] ++ List.replicate 62 0) b) ∧
    bsnForm (List.replicate 64 0) = false ∧ 2 < descOp ([0x03] ++ List.replicate 63 0) ∧
    bsnForm ([2] ++ List.replicate 63 0) = true :=
  ⟨calls_of (by decide +kernel) (by decide +kernel) (by decide +kernel) (by decide +kernel), by decide +kernel⟩
/-- BasinCommands: BUSY, and an operation of a thread outstanding on the object of a command by register. -/
theorem witness_basinBusy :
    (withFields [(BSN_CMD.BUSY, 0, 0, 1)]).rd BSN_CMD.BUSY ≠ 0 ∧ State.reset.rd BSN_CMD.BUSY = 0 ∧
    State.reset.opsOn (bsnObject 0 5).objects = [] ∧
    (let o : EngineOp := { thread := 0, tag := 1, engine := 3, desc := [], colour := 9, warden := false,
                           objects := (bsnObject 0 5).objects }
     State.opsOn { State.reset with tide := { State.reset.tide with ops := [o] } } (bsnObject 0 5).objects ≠ []) := by
  decide +kernel
/-- BasinCommands: a pool in a Sealed range with its FIFO in a Sealed-fresh one, and one that no range covers. -/
theorem witness_poolPlace :
    (let v := word [(BSN_POOL.EN, 1), (BSN_POOL.COUNT, 16)]
     let s := withFields [(CUL_RNG.EN, 0, 0, 1), (CUL_RNG.TYPE, 0, 0, 2), (CUL_RNG.READY, 0, 0, 1), (CUL_RNG.EN, 1, 0, 1),
       (CUL_RNG.TYPE, 1, 0, 3), (CUL_RNG.READY, 1, 0, 1), (CUL_RNG.BASE_MB, 1, 0, 1024), (BSN_FIFO.BASE_MB, 0, 0, 1024)]
     s.poolMisplaced v = false ∧ s.inRangeOf 2 0 (256 * 16) = true ∧ s.inRangeOf 3 (1024 * 2 ^ 20) (8 * 16) = true ∧
     s.basin.poolRanges = []) ∧
    (let v := word [(BSN_POOL.EN, 1), (BSN_POOL.COUNT, 16)]
     BSN_POOL.EN.of v = 1 ∧ BSN_POOL.COUNT.of v ≠ 0 ∧ State.reset.inRangeOf 2 0 (256 * 16) = false) := by decide +kernel
theorem witness_pool :
    (let v := word [(BSN_POOL.EN, 1), (BSN_POOL.COUNT, 2 ^ 28 - 1), (BSN_POOL.BASE, 1)]
     rsvdOk .BSN_POOL v = true ∧ State.reset.anyQueue = false ∧ BSN_POOL.BASE.of v + BSN_POOL.COUNT.of v ≤ 2 ^ 28 ∧
     State.reset.resSum ≤ BSN_POOL.COUNT.of v ∧ State.reset.rd BSN_FIFO.BASE_MB * 2 ^ 20 + 8 * BSN_POOL.COUNT.of v ≤ 2 ^ 36) ∧
    (basin [(QUE.EN, 0, 1)]).anyQueue = true ∧
    ((basin []).unmark BSN_POOL.READY).rd BSN_POOL.EN = 1 ∧ ((basin []).unmark BSN_POOL.READY).rd BSN_POOL.READY = 0 ∧
    0 < ((basin []).unmark BSN_POOL.READY).rd BSN_POOL.COUNT ∧ State.reset.rd BSN_POOL.EN = 0 ∧
    (let v := word [(BSN_RES.RES, 16)]
     let t := (basin []).plainWrite .BSN_RES v 17
     let t2 := (basin []).plainWrite .BSN_RES (word [(BSN_RES.RES, 17)]) 17
     rsvdOk .BSN_RES v = true ∧ t.resSum + t.sused ≤ (basin []).rd BSN_POOL.COUNT ∧
     (basin []).rd BSN_POOL.COUNT < t2.resSum + t2.sused) := by decide +kernel
/-- A frame of one cell that is admitted to queue 1048575. -/
def oneCell : QFrame :=
  { cells := [(0, 1)], next := (1, 1), len := 60, charged := 84, sc := 0, colour := 0, data := List.replicate 240 7 }
theorem witness_enqueue :
    (let s := (basin []).setBq (2 ^ 20 - 1) { decided := [oneCell] }
     (s.bq (BitVec.allOnes 20).toNat).decided = oneCell :: [] ∧ oneCell.next.1 < 2 ^ 28 ∧ oneCell.next.2 < 2 ^ 36 ∧
     ((s.setBq (2 ^ 20 - 1) { s.bq (2 ^ 20 - 1) with decided := [] }).writeCells (2 ^ 20 - 1) oneCell [0]).1 = none) ∧
    (let s := State.reset.setBq 0 { decided := [oneCell] }
     ((s.setBq 0 { s.bq 0 with decided := [] }).writeCells 0 oneCell [0]).1 = some 0) ∧
    (State.reset.bq 0).decided = [] := by decide +kernel
theorem witness_drainEnd :
    (let s := basin [(QUE.EN, 2 ^ 20 - 1, 1), (QUE.DRAIN, 2 ^ 20 - 1, 1)]
     let i := 2 ^ 20 - 1
     s.rrd QUE.DRAIN i = 1 ∧ s.rrd QUE.FRAMES i = 0 ∧ (s.bq i).decided = [] ∧ s.weir.groups = [] ∧
     (s.tailCell i).2 < 2 ^ 36 - 1 ∧ (s.bq i).frames = []) ∧ State.reset.rrd QUE.DRAIN 0 ≠ 1 := by decide +kernel

/-! ### Witnesses: Delta -/

/-- Delta with the seed of the host and entries in the ways of the two buckets of a search word. -/
def delta (l : List (Nat × Entry)) : State :=
  l.foldl (fun s e => s.dset e.1 e.2) { State.reset with delta := { State.reset.delta with seed := some 0xFFFFFFFF } }
/-- The image of the example of R415, as it is written, and with STATIC. -/
def plainEntry : Entry := 0x0402A001B7C409E1120B1040A1101007#128
def staticEntry : Entry := 0x0C02A001B7C409E1120B1040A1101007#128
/-- Ways of its buckets. -/
def wayMain (k : Nat) : Nat := (delta []).mainBucket plainEntry.search * 4 + k
def wayOver (k : Nat) : Nat := 2 ^ 31 + (delta []).overBucket plainEntry.search * 4 + k
/-- An entry of another key. -/
def otherEntry (n : Nat) : Entry := Entry.written (BitVec.ofNat 128 (n * 2 ^ 60)) false true
/-- Both buckets full, of entries whose own main buckets are full too. -/
def crowded : State :=
  delta ((List.range 4).flatMap fun k => [(wayMain k, otherEntry k), (wayOver k, otherEntry 9),
    ((delta []).mainBucket (otherEntry 9).search * 4 + k, otherEntry k)])

/-- DeltaOperations: positions at the ends of both stores; an entry that is absent, found, in a full main bucket; parity. -/
theorem witness_deltaOperations :
    posOk (2 ^ 21 - 1) = true ∧ posOk (2 ^ 21) = false ∧ posOk (2 ^ 31) = true ∧ posOk (2 ^ 31 + 2 ^ 16 - 1) = true ∧
    posOk (2 ^ 31 - 1) = false ∧ posOk (2 ^ 31 + 2 ^ 16) = false ∧ plainEntry.imageOk = true ∧ staticEntry.imageOk = true ∧
    Entry.imageOk (BitVec.allOnes 128) = false ∧ ((delta []).dget 0).sound = true ∧
    ((delta [(5, 1)]).dget 5).sound = false := by decide +kernel
theorem witness_deltaWays :
    (let s := delta []
     SoundWays s plainEntry.search ∧ s.dfind plainEntry.search = none ∧ s.freeMain plainEntry.search = some (wayMain 0)) ∧
    (let s := delta [(wayMain 3, plainEntry.written true false)]
     SoundWays s plainEntry.search ∧ s.dfind plainEntry.search = some (wayMain 3)) ∧
    (let s := delta ((List.range 4).map fun k => (wayMain k, otherEntry k))
     SoundWays s plainEntry.search ∧ s.dfind plainEntry.search = none ∧ s.freeMain plainEntry.search = none ∧
     s.freeOver plainEntry.search = some (wayOver 0)) ∧
    (let s := crowded
     SoundWays s plainEntry.search ∧ s.dfind plainEntry.search = none ∧ s.freeMain plainEntry.search = none ∧
     s.freeOver plainEntry.search = none ∧
     ∀ p ∈ s.dways plainEntry.search, 2 ^ 31 ≤ p → s.freeMain (s.dget p).search = none) := by
  unfold SoundWays
  decide +kernel

/-- DeltaCommands: a busy Delta; images; a FLUSH that runs, and the tables it goes over. -/
theorem witness_deltaCommands :
    (withFields [(DLT_CMD.BUSY, 0, 0, 1)]).rd DLT_CMD.BUSY = 1 ∧ State.reset.rd DLT_CMD.BUSY = 0 ∧
    State.reset.dltImage.imageOk = true ∧ (State.reset.setReg .DLT_DATA1 (BitVec.allOnes 64)).dltImage.imageOk = false ∧
    (withFields [(DLT_STAT.FLUSH, 0, 0, 1)]).rd DLT_STAT.FLUSH = 1 ∧ State.reset.rd DLT_STAT.FLUSH = 0 ∧
    tblForm (List.replicate 64 0) = false ∧ tblForm ([1] ++ List.replicate 63 0) = true ∧
    descObject ([1] ++ List.replicate 63 0) = 0 := by decide +kernel
theorem witness_deltaCalls :
    ∃ b, Calls (described 0x51 255 [6, 1]) 0x51 0 255 7 ([6, 1] ++ List.replicate 62 0) b :=
  calls_of (by decide +kernel) (by decide +kernel) (by decide +kernel) (by decide +kernel)
theorem witness_flush :
    (let s : State := { State.reset with delta := { State.reset.delta with
       main := [(2, plainEntry.written true true)], overflow := [(0, staticEntry.written true true)], flush := some (0x02A, false) } }
     s.delta.flush = some (0x02A, false) ∧ TablesRise s) := by
  refine ⟨rfl, ?_, ?_, ?_, ?_⟩
  · exact ⟨Nat.zero_le _, trivial⟩
  · exact ⟨Nat.zero_le _, trivial⟩
  · decide +kernel
  · decide +kernel

/-- DeltaCommands: learning without an anchor; of a new address, of one that moves, and of a static one. -/
def learning (l : List (Nat × Entry)) : State :=
  let s := delta ([((delta []).mainBucket (anchorSearch 7) * 4 + 3,
    Entry.written (BitVec.ofNat 128 (2 * 2 ^ 124 + 7 * 2 ^ 104)) true false)] ++ l)
  { s with delta := { s.delta with learn := [{ domain := 0x02A, mac := 0x001B7C409E11, sc := 7 }] } }
theorem witness_learn :
    (let s := learning []
     SoundWays s (anchorSearch 7) ∧ SoundWays s (daSearch 0x02A 0x001B7C409E11) ∧
     s.dfind (anchorSearch 7) = some ((delta []).mainBucket (anchorSearch 7) * 4 + 3) ∧
     s.dfind (daSearch 0x02A 0x001B7C409E11) = none ∧ s.freeMain (daSearch 0x02A 0x001B7C409E11) = some (wayMain 0)) ∧
    (delta []).dfind (anchorSearch 7) = none ∧
    (let s := learning [(wayMain 1, staticEntry.written true false)]
     s.dfind (daSearch 0x02A 0x001B7C409E11) = some (wayMain 1) ∧ (s.dget (wayMain 1)).static = true) ∧
    (let s := learning [(wayMain 1, plainEntry.written true true)]
     s.dfind (daSearch 0x02A 0x001B7C409E11) = some (wayMain 1) ∧ (s.dget (wayMain 1)).static = false) ∧
    State.reset.delta.learn = [] ∧ State.reset.delta.main = [] ∧ State.reset.delta.overflow = [] := by
  unfold SoundWays
  decide +kernel
theorem witness_eddyScan :
    (let s0 := withFields [(DLT_AGE.EN, 0, 0, 1), (GAU_STAT.RUN, 0, 0, 1)]
     let s : State := { s0 with delta := { s0.delta with sinceMf := max 2 (s0.rd DLT_AGE.PERIOD) } }
     s.rd DLT_AGE.EN = 1 ∧ s.rd DLT_STAT.SCAN = 0 ∧ s.rd GAU_STAT.RUN (s.rd GAU_RECORD.GROUP) = 1 ∧
     max 2 (s.rd DLT_AGE.PERIOD) ≤ s.delta.sinceMf) ∧ State.reset.rd DLT_AGE.EN ≠ 1 ∧ State.reset.rd DLT_STAT.SCAN = 0 ∧
    (let s0 := withFields [(DLT_STAT.SCAN, 0, 0, 1), (DLT_AGE.EN, 0, 0, 1)]
     let s : State := { s0 with delta := { s0.delta with scan := 540671 } }
     s.rd DLT_STAT.SCAN = 1 ∧ s.rd DLT_AGE.EN = 1 ∧ s.delta.scan < 540672 ∧
     ∀ k, k < 4 → (s.dget (2 ^ 31 + (540671 - 524288) * 4 + k)).sound = true) ∧ State.reset.delta.scan < 524288 := by
  decide +kernel
/-! ### Witnesses: modes, resets, life cycle -/

/-- DeviceResets, StartUp: M0 and other modes; each step of Power-On Check runs, and passes or fails; a preload that is
due and one that is not; a replay. -/
theorem witness_resets :
    State.reset.rd GBL_MODE.MODE ≠ 0 ∧ (withFields [(GBL_MODE.MODE, 0, 0, 0)]).rd GBL_MODE.MODE = 0 := by decide +kernel
theorem witness_poc :
    ((List.range 9).all fun k =>
      let s := withFields [(GBL_POC.STAGE, 0, 0, k)]
      decide (s.rd GBL_MODE.MODE = 1 ∧ s.rd GBL_POC.DONE = 0 ∧ s.rd GBL_POC.FAIL = 0 ∧ s.rd GBL_POC.STAGE + 1 = k + 1 ∧
        s.rd KST_STAT.DIP = 0)) = true ∧
    ¬(State.rd (withFields [(GBL_POC.STAGE, 0, 0, 9)]) GBL_POC.STAGE + 1 ≤ 9) ∧
    flashOk [] = false ∧ State.reset.host.preload = none ∧ (withFields [(GBL_MODE.STOP_CLEAN, 0, 0, 1)]).rd GBL_MODE.STOP_CLEAN = 1 ∧
    (withFields [(GBL_MODE.STOP_CLEAN, 0, 0, 0)]).rd GBL_MODE.STOP_CLEAN = 0 := by decide +kernel
theorem witness_preload :
    (let s : State := { withFields [(GBL_POC.STAGE, 0, 0, 8)] with host := { State.reset.host with preload := some (4, 0) } }
     s.host.preload = some (4, 0) ∧ 4 ≤ s.rd GBL_POC.STAGE ∧ s.rd GBL_POC.STAGE ≠ 9 ∧ s.rd GBL_POC.DONE = 0 ∧
     4 ≤ ([1, 2, 3, 4] : Octets).length ∧ Crypto.crc32 (([1, 2, 3, 4] : Octets).take 4) ≠ 0) ∧
    State.reset.rd GBL_MODE.REPLAY = 0 ∧ (withFields [(GBL_MODE.REPLAY, 0, 0, 1)]).rd GBL_MODE.REPLAY = 1 := by decide +kernel

/-- Modes: each transition of R609 with its condition met; BUSY; presence absent; a transition that is not there. -/
theorem witness_modeCommands :
    (let met := withFields [(GBL_MODE.MODE, 0, 0, 4), (TID_STAT.SO_VALID, 0, 0, 1)]
     (4, 5) ∈ Commanded ∧ met.rd GBL_MODE.MODE = 4 ∧ met.rd TID_STAT.SO_VALID = 1 ∧ met.rd GBL_DEBUG.OPEN = 0 ∧
     met.rd GBL_MODECMD.BUSY = 0) ∧
    (let s := withFields [(GBL_MODE.MODE, 0, 0, 7)]
     (7, 4) ∈ Commanded ∧ s.rd GBL_MODE.MODE = 7 ∧ s.drained = true ∧ s.rd TID_STAT.SO_VALID = 0) ∧
    (let s := withFields [(GBL_MODE.MODE, 0, 0, 9)]
     (9, 4) ∈ Commanded ∧ s.rd GBL_MODE.MODE = 9 ∧ s.rd KST_STAT.SWEEP = 0 ∧ s.rd GBL_MODE.REPLAY = 0) ∧
    (let s := withFields [(GBL_MODE.MODE, 0, 0, 10), (GBL_PRES.OPEN, 0, 0, 1)]
     (10, 1) ∈ Commanded ∧ s.rd GBL_MODE.MODE = 10 ∧ s.rd GBL_PRES.OPEN = 1 ∧
     ((List.range 16).all fun k => !(s.rd LEV_RAW.RAW).testBit k) = true) ∧
    (let s := withFields [(GBL_MODE.MODE, 0, 0, 4), (GBL_PRES.OPEN, 0, 0, 1)]
     (4, 8) ∈ Commanded ∧ s.rd GBL_MODE.MODE = 4 ∧ s.rd GBL_PRES.OPEN = 1) ∧
    (5, 7) ∈ Commanded ∧ (2, 5) ∉ Commanded ∧ State.reset.rd GBL_PRES.OPEN = 0 ∧
    (withFields [(GBL_MODECMD.BUSY, 0, 0, 1)]).rd GBL_MODECMD.BUSY ≠ 0 ∧ (15 : Nat) ∉ [1, 4, 5, 7, 8] := by decide +kernel
theorem witness_readyEntry :
    (let s := withFields [(GBL_MODECMD.BUSY, 0, 0, 1), (GBL_MODE.MODE, 0, 0, 9)]
     s.rd GBL_MODECMD.BUSY = 1 ∧ s.rd KST_STAT.DIP = 0 ∧ s.rd GBL_MODE.MODE = 9) ∧
    (withFields [(KST_STAT.DIP, 0, 0, 1)]).rd KST_STAT.DIP = 1 ∧
    (let s := withFields [(GBL_MODECMD.BUSY, 0, 0, 1), (GBL_MODE.MODE, 0, 0, 10)]
     s.rd GBL_MODECMD.BUSY = 1 ∧ s.rd GBL_MODE.MODE ≠ 7 ∧ s.rd GBL_MODE.MODE ≠ 9) ∧
    State.reset.rd GBL_MODECMD.BUSY = 0 := by decide +kernel
theorem witness_risingSlots : Tbl.rising 0 State.reset.keys.slots := trivial

/-- LifeCycle: a change that is accepted and one for each refusal; fuses to blow; the pin at its times. -/
theorem witness_lifeCycle :
    (let s := withFields [(GBL_MODE.MODE, 0, 0, 2), (GBL_PRES.OPEN, 0, 0, 1)]
     s.rd GBL_LCCMD.BUSY = 0 ∧ s.rd GBL_PRES.OPEN = 1 ∧ s.rd GBL_MODE.MODE = 2) ∧
    (let s := withFields [(GBL_MODE.MODE, 0, 0, 10), (GBL_PRES.OPEN, 0, 0, 1)]
     s.rd GBL_MODE.MODE ∈ [3, 4, 9, 10]) ∧
    State.reset.rd GBL_PRES.OPEN = 0 ∧ (withFields [(GBL_LCCMD.BUSY, 0, 0, 1)]).rd GBL_LCCMD.BUSY ≠ 0 ∧
    ¬(2 ≤ (1 : Fin 4).val ∧ (0x4C : Byte) = 0x4C) ∧ ¬(2 ≤ (3 : Fin 4).val ∧ (0x4D : Byte) = 0x4C) := by decide +kernel
theorem witness_fuses :
    (let s : State := { State.reset with chip := { State.reset.chip with blowing := some 2 } }
     s.chip.blowing = some 2 ∧ s.rd LEV_STAT.DIP = 0 ∧ s.rd GBL_MODE.MODE ≠ 0) ∧
    State.reset.chip.blowing = none ∧ State.reset.chip.lcs ≠ 0 ∧
    (State.chip { State.reset with chip := { State.reset.chip with lcs := 0 } }).lcs = 0 := by decide +kernel
theorem witness_presence :
    (let s : State := { withFields [(GBL_PRES.LEVEL, 0, 0, 1)] with chip := { State.reset.chip with presArmed := true, presSince := 0 } }
     s.rd GBL_PRES.LEVEL = 1 ∧ s.chip.presArmed = true ∧ 75000000 ≤ ((75000000#64).toNat : Int) - s.chip.presSince ∧
     ((74999999#64).toNat : Int) - s.chip.presSince < 75000000 ∧ atOrAfter 75000000 s.tick = true ∧
     90 * 10 ^ 9 ≤ (((90 * 10 ^ 9 : Nat) : Int)) - s.chip.presSince) ∧
    (let s : State := { withFields [(GBL_PRES.OPEN, 0, 0, 1)] with chip := { State.reset.chip with presOpened := 7 } }
     s.rd GBL_PRES.OPEN = 1 ∧ s.chip.presOpened + 15 * 10 ^ 9 ≤ (15000000007#64).toNat ∧
     (15000000006#64).toNat < s.chip.presOpened + 15 * 10 ^ 9) ∧
    (withFields [(GBL_MODE.MODE, 0, 0, 3), (GBL_PRES.OPEN, 0, 0, 1)]).rd GBL_MODE.MODE ∈ [3, 4, 8, 9, 10] ∧
    State.reset.rd GBL_MODE.MODE ≠ 2 ∧ (withFields [(GBL_MODE.MODE, 0, 0, 2)]).rd GBL_MODE.MODE = 2 := by decide +kernel

/-! ### Witnesses: groups, Races, leases -/

/-- GroupsAndMirror: the words and states that WEI_GRP_CFG tells apart, and a closing group. -/
theorem witness_groupConfig :
    (let solo := word [(WEI_GRP_CFG.EN, 1), (WEI_GRP_CFG.PROT, 1), (WEI_GRP_CFG.RACE_A, 23)]
     let twin := word [(WEI_GRP_CFG.EN, 1), (WEI_GRP_CFG.PROT, 2), (WEI_GRP_CFG.RACE_A, 23), (WEI_GRP_CFG.RACE_B, 0)]
     let s := State.reset
     rsvdOk .WEI_GRP_CFG solo = true ∧ rsvdOk .WEI_GRP_CFG twin = true ∧ s.rd WEI_GRP_CFG.CLOSING 17 = 0 ∧
     WEI_GRP_CFG.EN.of twin = 1 ∧ WEI_GRP_CFG.PROT.of twin = 2 ∧ s.rd WEI_GRP_CFG.EN 17 = 0 ∧
     ([23, 0].all fun k => decide (s.rd RC_STAT.STATE k = 0 ∧ s.failed k = false) &&
       (List.range 18).all fun h => !s.names h k) = true ∧ 4 ≤ s.standbyCount ∧
     (withFields [(WEI_POOL_STAT.FAILED, 0, 0, 2 ^ 23 - 1 - 1)]).standbyCount < 4 ∧
     (withFields [(WEI_POOL_STAT.FAILED, 0, 0, 2 ^ 23 - 1 - 1)]).failed 23 = false) ∧
    (let s := withFields [(WEI_GRP_CFG.EN, 17, 0, 1), (WEI_GRP_CFG.PROT, 17, 0, 1)]
     s.rd WEI_GRP_CFG.EN 17 = 1 ∧ s.rd WEI_GRP_CFG.PROT 17 = WEI_GRP_CFG.PROT.of (word [(WEI_GRP_CFG.PROT, 1)]) ∧
     s.rd WEI_GRP_CFG.RACE_A 17 = 0 ∧ s.rd WEI_GRP_CFG.RACE_B 17 = 0) ∧
    (let s := withFields [(WEI_GRP_CFG.EN, 17, 0, 1), (WEI_GRP_CFG.CLOSING, 17, 0, 1)]
     s.rd WEI_GRP_CFG.CLOSING 17 = 1 ∧ s.started 17 = false ∧ s.rd GBL_MODE.MODE ≠ 6) := by decide +kernel
/-- GroupConfiguration: an enabled packet channel in the group, and no packets in it. -/
theorem witness_packetsOf : PacketsOf (withRecs State.reset [(CH.EN, 2879, 1)]) 17 ∧ ¬PacketsOf State.reset 17 := by
  refine ⟨.inr (.inr (.inl ⟨2879, by decide +kernel⟩)), ?_⟩
  rintro (⟨t, _, h⟩ | ⟨w, h, _⟩ | ⟨c, h, _⟩ | ⟨c, h, _⟩)
  · have k : ∀ t, t < 160 → State.reset.packetChan (160 * 17 + t) = false := by decide +kernel
    rw [k t ‹_›] at h
    cases h
  · cases h
  · have k : State.reset.recObjects .ch 0 = [] := by decide +kernel
    rw [k] at h
    cases h
  · have k : State.reset.recObjects .sc 0 = [] := by decide +kernel
    rw [k] at h
    cases h

/-- RaceEvents: each state of a Race, with and without a flag held, an open power gate and a test that passed. -/
theorem witness_races :
    ((List.range 6).all fun n => decide ((withFields [(RC_STAT.STATE, 23, 0, n)]).rd RC_STAT.STATE 23 = n)) = true ∧
    State.reset.rd RC_FLAG.VALID 23 = 0 ∧ (withFields [(RC_FLAG.VALID, 23, 0, 1)]).rd RC_FLAG.VALID 23 = 1 ∧
    (State.reset.race 23).gateOpen = false ∧ (State.reset.race 23).back = 0 ∧ State.reset.named 23 = false ∧
    (let s := (withFields [(RC_STAT.STATE, 23, 0, 4)]).setRace 23 { tested := true, back := 4, gateOpen := true }
     (s.race 23).tested = true ∧ (s.race 23).back = 4 ∧ (s.race 23).gateOpen = true) ∧
    rsvdOk .WEI_FAILCLR (word [(WEI_FAILCLR.CLR, 2 ^ 23)]) = true ∧ (word [(WEI_FAILCLR.CLR, 2 ^ 23)]).getLsbD 23 = true := by
  decide +kernel

/-- A group with its lease held by one Race or by two. -/
def leased (b : Nat) : State :=
  withFields [(WEI_GRP_CFG.EN, 17, 0, 1), (WEI_GRP_CFG.PROT, 17, 0, if b < 24 then 2 else 1), (WEI_GRP_CFG.RACE_A, 17, 0, 23),
    (WEI_GRP_CFG.RACE_B, 17, 0, b), (WEI_LEASE.STATE, 17, 0, 1), (WEI_LEASE.HOLDER_A, 17, 0, 23), (WEI_LEASE.HOLDER_B, 17, 0, b),
    (RC_STAT.STATE, 23, 0, 3), (RC_STAT.GROUP, 23, 0, 17), (GBL_MODE.MODE, 0, 0, 5)]
/-- Group 17 held with an ODU frame of the last channel under way, whose keystream is complete. -/
def flowingFrame : State :=
  (leased 31).setL1 2879 { cur := some { count := 255, kind := .enc, ks := { lane := 5, total := 955, ready := 955 } } }
/-- RaceEvents: a word of one lane and of six, no frame to carry, flags that strike a lane and flags that strike none, a
closed direction, and a period that the block does not end. -/
theorem witness_raceBlock :
    (let s := flowingFrame
     let w := wordOf (s.flowsOf 17 23 .egress 2879)
     23 ∈ s.computing 17 2879 ∧ s.computing 17 2879 = [23] ∧ (w 1).length = 1 ∧ (w 6).length = 1 ∧
     ((w 6).map FlowLane.lane = [5]) ∧ s.withheld 23 0 = false ∧ s.sluiceOpen 17 = true ∧ s.holds 17 23 = true ∧
     (s.race 23).lepoch = s.rd WEI_LEASE.LEPOCH 17 ∧
     ((w 6).takeWhile fun y => (y.flag .egress []).isNone) = w 6 ∧ ((w 6).takeWhile fun y => (y.flag .egress [(5, 3, 0)]).isNone) = [] ∧
     (w 6).map (fun y => y.flag .egress [(5, 3, 0)]) = [some (3, 5)] ∧ s.rd RC_STAT.STATE 23 = 3) ∧
    (let s := (leased 31).setL1 2879 { cur := some { count := 255, kind := .enc, ks := { total := 955, ready := 955 } } }
     (wordOf (s.flowsOf 17 23 .egress 2879) 6).map FlowLane.lane = [0, 1, 2, 3, 4, 5]) ∧
    wordOf ((leased 31).flowsOf 17 23 .egress 2879) 6 = [] ∧
    (leased 31).rd RC_STAT.GROUP 23 = 17 ∧ (leased 31).judgeable 17 23 = true ∧ (leased 31).judgeable 17 22 = false ∧
    State.reset.rd RC_STAT.GROUP 23 = 31 ∧ State.reset.rd RC_STAT.STATE 23 ≠ 3 ∧ (State.reset.race 23).gateOpen = false ∧
    (((leased 31).setRace 23 { dispute := some { egress := true } }).withheld 23 0 = true) ∧
    0 + 1 < 2 ^ (withFields [(WEI_SAMPLE.SHIFT, 0, 0, 1)]).rd WEI_SAMPLE.SHIFT ∧ atOrAfter 0 (leased 31).tick = true := by
  decide +kernel

/-- LeasesAndFailover: a dispute sent and received, with and without an order that wakes a replacement. -/
theorem witness_dispute :
    (let s := (leased 31).setRace 23 { dispute := some { egress := true, sent := 1 } }
     (s.race 23).dispute = some { egress := true, sent := 1 } ∧ s.rd RC_STAT.STATE 23 = 3) ∧
    (let s0 := leased 31
     let e : SoEntry := { orderOf 1 with flags := 2 }
     let s : State := { s0.wr TID_STAT.SO_VALID 1 with tide := { s0.tide with orders := [e] } }
     s.orderFor 1 17 = some e ∧ e.flags.testBit 1 = true ∧ (s.holders 17).length ≤ 1 ∧
     ((List.range 24).all fun i => !s.abroad 17 i) = true ∧ s.chooseRace = some 0) ∧
    (let s := (leased 31).setRace 23 { dispute := some { egress := true, received := true } }
     (s.race 23).dispute = some { egress := true, received := true } ∧ s.judgeable 17 23 = true ∧ s.rd RC_STAT.GROUP 23 < 18) ∧
    (State.reset.race 23).dispute = none := by decide +kernel
/-- LeasesAndFailover: a copy of the Race in the reference pipeline, behind one of another Race, and none. -/
theorem witness_refCopy :
    (let e : Sample := { race := 23, dir := 0, handle := 0, iv := [], ctr := 2, input := [], output := [] }
     let s : State := { leased 31 with weir := { (leased 31).weir with samples := [{ e with race := 22 }, e] } }
     s.weir.samples = [{ e with race := 22 }] ++ e :: [] ∧ s.rd RC_STAT.GROUP 23 < 18 ∧ s.judgeable 17 23 = true ∧
     e.dir = Dir.egress.code) ∧ (leased 31).weir.samples = [] := by decide +kernel
theorem witness_twin :
    (let s := leased 22
     s.rd WEI_LEASE.STATE 17 = 1 ∧ s.rd WEI_LEASE.HOLDER_A 17 = 23 ∧ s.rd WEI_LEASE.HOLDER_B 17 = 22 ∧
     chanGroup (2879 : Channel).val = 17 ∧ (2879 : Channel).val ∉ (s.wgrp 17).unjoined ∧ s.partner 17 23 = some 22 ∧
     s.partner 17 22 = some 23) ∧ (leased 31).partner 17 23 = none ∧
    (leased 31).rd WEI_LEASE.STATE 0 ≠ 1 := by decide +kernel

/-- LeasesAndFailover: a replacement that is Ready, before and after its checkpoint; a joiner; a first grant; lapses. -/
def replaced (p : Phase) (copies : List Ckpt) : State :=
  let s := (((leased 31).wr WEI_LEASE.STATE 2 17).wr RC_STAT.STATE 2 0).setRace 0 { wake := .replace 17 }
  s.setWgrp 17 { phase := p, copies := copies }
/-- A copy with its CRC-32. -/
def ckptOf (pn : List (Bool × Nat × Nat)) : Ckpt :=
  let c : Ckpt := { group := 17, frame := 0, sequence := 0, writer := 23, lepoch := 0, pn := pn }
  { c with crc := crc32First c.octets }
theorem witness_checkpoint :
    (replaced .revoked []).replacement 17 = some 0 ∧ ((replaced .revoked []).wgrp 17).phase = .revoked ∧
    (replaced .revoked []).rd RC_STAT.STATE 0 = 2 ∧ ((replaced .revoked []).wgrp 17).copies = [] ∧
    (let c := ckptOf []
     ((replaced .revoked [c]).wgrp 17).copies = c :: [] ∧ c.good = true ∧ c.pn = [] ∧ c.l1 = [] ∧
     ((replaced .revoked [c]).wgrp 17).ring = [] ∧ Ckpt.good { c with crc := c.crc + 1 } = false) ∧
    (let c := ckptOf [(false, 0xFFFFF, 0xFFFFFFFF)]
     ((replaced .revoked [c]).wgrp 17).copies = c :: [] ∧ c.good = true ∧ c.pn = [(false, 0xFFFFF, 0xFFFFFFFF)] ∧
     (replaced .revoked [c]).xpn ((replaced .revoked [c]).saSecy 0xFFFFF) = false) ∧
    (leased 31).replacement 17 = none := by decide +kernel
/-- LeasesAndFailover: a join entry of the channel, and a channel that waits for one. -/
theorem witness_join :
    (let s := (leased 22).setWgrp 17 { join := [(2879, 0, none)], unjoined := [2879] }
     (∃ e ∈ (s.wgrp (chanGroup (2879 : Channel))).join, e.1 = (2879 : Channel).val) ∧ 2879 ∈ (s.wgrp 17).unjoined) ∧
    (let s := (leased 22).setL1 2879 { txAcc := some { key := [], iv := [], y := 0, n := 0 } }
     (∀ e ∈ (s.wgrp (chanGroup (2879 : Channel))).join, e.1 ≠ (2879 : Channel).val) ∧ (s.l1run 2879).txAcc ≠ none) := by
  decide +kernel
theorem witness_grant :
    ((replaced .loaded []).wgrp 17).phase = .loaded ∧ (replaced .loaded []).rd GBL_MODE.MODE ∈ [5, 6, 7] ∧
    State.reset.rd GBL_MODE.MODE ∉ [5, 6, 7] ∧
    (let s := ((leased 31).wr RC_STAT.STATE 2 0).setRace 0 { wake := .join 17 }
     s.replacement 17 = none ∧ s.joiner 17 = some 0 ∧ s.leaseHeld 17 = true ∧ s.rd RC_STAT.STATE 0 = 2 ∧
     s.disputed 17 = false ∧ s.rd WEI_LEASE.HOLDER_A 17 < 24) ∧
    (let s := (((leased 22).wr WEI_LEASE.STATE 0 17).wr RC_STAT.STATE 2 23 |>.wr RC_STAT.STATE 2 22).wr GAU_STAT.RUN 1 17
     s.replacement 17 = none ∧ s.joiner 17 = none ∧ s.rd GAU_STAT.RUN 17 = 1 ∧ offsetOf (s.reg .GAU_READ 17) = 0 ∧
     s.rd WEI_GRP_CFG.EN 17 = 1 ∧ s.rd WEI_GRP_CFG.CLOSING 17 = 0 ∧ s.rd WEI_LEASE.STATE 17 = 0 ∧
     s.liveNamed 17 = 23 :: [22] ∧ s.rd RC_STAT.STATE 23 = 2 ∧ s.rd RC_STAT.STATE 22 = 2) := by decide +kernel
theorem witness_lapse :
    (leased 31).leaseHeld 17 = true ∧ ((leased 31).wgrp 17).term + 6000 ≤ (6000#64).toNat ∧
    (5999#64).toNat < ((leased 31).wgrp 17).term + 6000 ∧ State.reset.leaseHeld 17 = false ∧
    atOrAfter 6000 (leased 31).tick = true := by decide +kernel

/-- GroupsAndMirror: Eddy busy and free, the card lease granted, refused and expired, and mirror records. -/
theorem witness_card :
    State.reset.eddyBusy = false ∧ State.reset.weir.eddy = none ∧
    (let s : State := { leased 31 with weir := { (leased 31).weir with eddy := some 17 } }
     s.eddyBusy = false ∧ s.weir.eddy = some 17 ∧ (s.wgrp 17).drops = [] ∧ s.log.held = none) ∧
    (State.eddyBusy { replaced .revoked [] with weir := { (replaced .revoked []).weir with eddy := some 17 } }) = true ∧
    rsvdOk .WEI_CARDGRANT (word [(WEI_CARDGRANT.CARD_EPOCH, 5)]) = true ∧
    WEI_CARDGRANT.CARD_EPOCH.of (word [(WEI_CARDGRANT.CARD_EPOCH, 5)]) < 6 ∧
    (let s : State := withFields [(WEI_CARD.ACTIVE, 0, 0, 1), (WEI_CARD.LEN, 0, 0, 1), (WEI_CARD.CARD_EN, 0, 0, 1)]
     s.rd WEI_CARD.ACTIVE = 1 ∧ s.weir.cardTick + max 1 (s.rd WEI_CARD.LEN) * 1500 ≤ (1500#64).toNat ∧
     s.rd WEI_CARD.CARD_EN = 1) := by decide +kernel
/-- A mirror record of group 17 with no channels. -/
def mirrorRecord : Octets :=
  let o : Octets := [0x4D, 17, 0, 0, 0, 0, 0, 1, 0, 0, 0, 0, 0, 1, 0, 0, 0, 0, 0, 0]
  o ++ beBytes 4 (crc32First o)
theorem witness_mirror :
    mirrorGood mirrorRecord = true ∧ mirrorGood [] = false ∧ State.reset.rd WEI_TETHCTL.MIRROR_RX = 0 ∧
    (let s := withFields [(WEI_TETHCTL.MIRROR_RX, 0, 0, 1)]
     s.rd WEI_TETHCTL.MIRROR_RX = 1 ∧ s.weir.mirrorEpoch ≤ beNat (slice mirrorRecord 4 4) ∧
     Tbl.get none s.weir.mirrorGauge (beNat (slice mirrorRecord 1 1)) = none) ∧
    beNat (slice mirrorRecord 4 4) < 2 := by decide +kernel


/-! ### Witnesses: SecY -/

/-- `leased 31`, with channel 2879 a packet channel, and more fields of registers and records. -/
def lined (fs : List (Field × Nat × Nat × Nat)) (rs : List (RField × Nat × Nat)) : State :=
  let chan := [(FRM_TSLIVE.USED, 17, 159, 1), (FRM_TSLIVE.OWNER, 17, 159, 159), (FRM_TSLIVE.KIND, 17, 159, 1)]
  withRecs ((chan ++ fs).foldl (fun s f => s.wr f.1 f.2.2.2 f.2.1 f.2.2.1) (leased 31)) rs
/-- A key in the slot of an SA. -/
def keyed (s : State) (sa : Nat) : State :=
  s.setKslot 0 sa { key := List.replicate 32 1, valid := true, parent := rootParent }
/-- An image put where SCY_CMD takes it. -/
def scyOf (s : State) (k : RecKind) (fs : List (RField × Nat)) : State := s.setScyImage (image k fs)

/-- SecyRecords: indexes at the ends of their ranges; legal and illegal images of each kind. -/
theorem witness_secyWr :
    (4095#18).toNat < 4096 ∧ ¬(4096#18).toNat < 4096 ∧ (2879#18).toNat < 2880 ∧ (BitVec.allOnes 18).toNat < 262144 ∧
    (let im := (scyOf State.reset .secy [(SECY.EN, 1), (SECY.SUITE, 3), (SECY.MAX_FRAME, 10240), (SECY.WINDOW, 2 ^ 30 - 1)]).scyImage
     RecKind.secy.imageOk im = true ∧ SECY.SUITE.of im < 4 ∧ SECY.OFFSET.of im ≠ 3 ∧ 64 ≤ SECY.MAX_FRAME.of im ∧
     SECY.MAX_FRAME.of im ≤ 10240 ∧ SECY.WINDOW.of im < 2 ^ 30 ∧ State.reset.rrd SECY.EN 4095 ≠ 1) ∧
    (let im := (scyOf State.reset .secy [(SECY.MAX_FRAME, 63)]).scyImage
     RecKind.secy.imageOk im = true ∧ ¬64 ≤ SECY.MAX_FRAME.of im) ∧
    (let s := lined [] [(SECY.EN, 4095, 1), (SC.EN, 65535, 1), (SC.SECY, 65535, 4095)]
     s.rrd SECY.EN 4095 = 1 ∧ s.secyUsed 4095 = true ∧ s.secyUsed 0 = false) ∧
    RecKind.secy.imageOk (State.scyImage ((List.range 5).foldl (fun s w => s.setReg .SCY_DATA (BitVec.allOnes 64) w) State.reset)) =
      false := by decide +kernel
theorem witness_scWr :
    (let s := keyed (lined [] [(SECY.EN, 4095, 1), (SA.EN, 65535 * 4 + 3, 1)]) (65535 * 4 + 3)
     let im := (scyOf s .sc [(SC.EN, 1), (SC.SECY, 4095), (SC.CHAN, 2879), (SC.ENC_AN, 3)]).scyImage
     RecKind.sc.imageOk im = true ∧ SC.EN.of im = 1 ∧ s.rrd SC.EN 65535 ≠ 1 ∧ s.rrd SECY.EN (SC.SECY.of im) = 1 ∧
     s.packetChan (SC.CHAN.of im) = true ∧ SC.DIR.of im = 0 ∧ s.saReady (65535 * 4 + SC.ENC_AN.of im) = true ∧
     s.rrd SC.DRAIN 65535 = 0 ∧ s.rrd SC.SW_PEND 65535 = 0 ∧ s.packetChan 0 = false) ∧
    (lined [] [(SC.DRAIN, 0, 1)]).rrd SC.DRAIN 0 = 1 ∧ (lined [] [(SC.EN, 0, 1)]).rrd SC.EN 0 = 1 := by decide +kernel
theorem witness_saWr :
    (let s := keyed (lined [] [(SC.DIR, 65535, 1), (SA.EN, 262143, 1), (SA.NEXT_PN, 262143, 5)]) 262143
     let im := (scyOf s .sa [(SA.NEXT_PN, 2 ^ 32 - 1)]).scyImage
     RecKind.sa.imageOk im = true ∧ SA.NEXT_PN.of im ≠ 0 ∧ s.rrd SECY.SUITE (s.rrd SC.SECY (262143 / 4)) < 2 ∧
     SA.NEXT_PN.of im < 2 ^ 32 ∧ s.usable 0 262143 = true ∧ s.rrd SA.NEXT_PN 262143 ≤ SA.NEXT_PN.of im ∧
     ([SA.SSCI, SA.SALT_LO, SA.SALT_HI].all fun f => decide (f.of im = s.rrd f 262143)) = true ∧ SA.EN.of im = 0 ∧
     s.rrd SA.EN 262143 = 1 ∧ s.rrd SC.DIR (262143 / 4) = 1 ∧ s.rrd SC.SW_PEND (262143 / 4) = 0 ∧ 262143 ∉ s.secy.draining) ∧
    (let im := (scyOf State.reset .sa [(SA.NEXT_PN, 1)]).scyImage
     RecKind.sa.imageOk im = true ∧ SA.NEXT_PN.of im ≠ 0 ∧ State.reset.usable 0 0 = false ∧ State.reset.rrd SA.EN 0 ≠ 1) ∧
    SA.NEXT_PN.of (scyOf State.reset .sa [(SA.NEXT_PN, 0)]).scyImage = 0 ∧
    (let s : State := { State.reset with secy := { State.reset.secy with draining := [7] } }
     7 ∈ s.secy.draining) := by decide +kernel
theorem witness_chWr :
    (let s := lined [] [(SC.DIR, 65535, 1), (SC.CHAN, 65535, 2879), (CH.EN, 0, 1)]
     let im := (scyOf s .ch [(CH.EN, 1), (CH.DEF_V, 1), (CH.DEF_SC, 65535)]).scyImage
     RecKind.ch.imageOk im = true ∧ s.rrd CH.EN 2879 ≠ 1 ∧ s.rrd SC.DIR (CH.DEF_SC.of im) = 1 ∧
     s.rrd SC.CHAN (CH.DEF_SC.of im) = 2879 ∧ s.rrd CH.EN 0 = 1 ∧ s.rrd SC.CHAN (CH.DEF_SC.of im) ≠ 0 ∧
     CH.POLICY.of im = s.rrd CH.POLICY 0) ∧ CH.POLICY.of (image .ch [(CH.POLICY, 1)]) ≠ 0 := by decide +kernel

/-- SecyCommands: channels at and past the end; entries found and absent; switches; DISABLE. -/
theorem witness_sci :
    (let s := ((State.reset.sciSet 2879 7 65536).setReg .SCY_DATA 7 0).setReg .SCY_DATA (BitVec.ofNat 64 (2879 * 2 ^ 32)) 1
     bits (s.reg .SCY_DATA 1).toNat 43 32 = 2879 ∧ s.sciFind 2879 (s.reg .SCY_DATA 0).toNat = some 65535 ∧
     s.sciFind 2879 8 = none ∧ s.secy.sci.length < 65536) ∧
    bits (BitVec.ofNat 64 (2880 * 2 ^ 32)).toNat 43 32 = 2880 ∧ State.reset.sciFind 2880 0 = none := by decide +kernel
/-- A full SCI table. -/
theorem witness_sciFull : 65536 ≤ (State.reset.secy.sci ++ List.replicate 65536 (0, 1)).length := by
  rw [List.length_append, List.length_replicate]; omega
/-- SC 65535 toward the line, its SA 1 ready. -/
def switching (im : List (RField × Nat)) (rs : List (RField × Nat × Nat)) (fs : List (Field × Nat × Nat × Nat)) : State :=
  scyOf (keyed (lined fs ([(SC.CHAN, 65535, 2879), (SA.EN, 262141, 1), (SC.EN, 65535, 1)] ++ rs)) 262141) .sc
    ([(SC.SW_AN, 1)] ++ im)
theorem witness_switch :
    (let s := switching [(SC.SW_BY_PN, 1)] [] []
     let im := s.scyImage
     s.rrd SC.DIR 65535 = 0 ∧ s.saReady (65535 * 4 + SC.SW_AN.of im) = true ∧ SC.SW_AN.of im ≠ s.rrd SC.ENC_AN 65535 ∧
     s.rrd SC.SW_PEND 65535 = 0 ∧ s.rrd SC.CHAN 65535 / 160 = 17 ∧ SC.SW_BY_PN.of im = 1 ∧ SC.SW_AT.of im = 0 ∧
     ¬(s.rrd SA.EXHAUST 262140 = 1 ∨ s.lastPn 262140 < s.nextPn 262140)) ∧
    (let s := switching [(SC.SW_BY_PN, 1)] [(SA.EXHAUST, 262140, 1)] []
     s.rrd SA.EXHAUST 262140 = 1) ∧
    (let s := switching [(SC.SW_BY_PN, 1), (SC.SW_AT, 9)] [(SA.NEXT_PN, 262140, 9)] []
     SC.SW_AT.of s.scyImage = 9 ∧ SC.SW_AT.of s.scyImage ≤ s.nextPn 262140) ∧
    (let s := switching [] [] [(GAU_STAT.RUN, 17, 0, 1)]
     SC.SW_BY_PN.of s.scyImage ≠ 1 ∧ s.rd GAU_STAT.RUN 17 = 1 ∧
     atOrAfter (s.reg .GAU_READ 17) (reading (SC.SW_AT.of s.scyImage / 2 ^ 16) 0) = true) ∧
    (switching [] [] []).rd GAU_STAT.RUN 17 ≠ 1 ∧ (switching [] [(SC.DIR, 65535, 1)] []).rrd SC.DIR 65535 ≠ 0 ∧
    ¬(65536#18).toNat < 65536 ∧
    (switching [] [] []).rrd SC.EN 65535 = 1 ∧ (switching [] [] []).rrd SC.DRAIN 65535 = 0 ∧
    (switching [] [(SC.DRAIN, 65535, 1)] []).rrd SC.DRAIN 65535 = 1 ∧ State.reset.rrd SC.EN 0 = 0 := by decide +kernel

/-- SecyRecords, SecyCommands: SCY_CMD busy and free; Twin groups with packets, SSCIs that clash, a limit that is spent. -/
theorem witness_secyClauses :
    (withFields [(SCY_CMD.BUSY, 0, 0, 1)]).rd SCY_CMD.BUSY = 1 ∧ State.reset.rd SCY_CMD.BUSY = 0 ∧
    (let s := lined [(WEI_GRP_CFG.PROT, 17, 0, 2)] [(SECY.EN, 4095, 1), (CH.EN, 2879, 1)]
     s.twinPacket 17 = true ∧ s.twinPacket 0 = false ∧ (lined [] []).twinPacket 17 = false) ∧
    (let s := lined [] [(SECY.SUITE, 0, 3), (SC.DIR, 1, 1), (SC.EN, 1, 1), (SC.EN, 0, 1), (SA.EN, 4, 1), (SA.EN, 0, 1), (SA.SSCI, 4, 7), (SA.SSCI, 0, 7)]
     s.ssciClash 0 = true ∧ (s.rwr SA.SSCI 0 8).ssciClash 0 = false) ∧
    (let s := keyed (lined [] []) 262140
     s.usable 0 262140 = true ∧ s.rrd SC.DIR 65535 = 0 ∧ s.rrd SA.EXHAUST 262140 = 0 ∧ s.lastPn 262140 < 2 ^ 64 - 1) ∧
    (let s := lined [] [(SC.EN, 65535, 1), (SC.SECY, 65535, 4095), (SA.EN, 262143, 1), (SC.DIR, 65535, 1)]
     s.rrd SC.EN 65535 = 1 ∧ s.rrd SC.SECY 65535 = 4095 ∧ s.rrd SC.DIR (262143 / 4) = 1 ∧ s.rrd SA.EN 262143 = 1 ∧
     s.rrd SC.DIR (3 / 4) = 0) := by decide +kernel

/-! ### Witnesses: the packet path -/

/-- A frame with its FCS. -/
def framed (b : Octets) : Octets := b ++ fcs b
/-- An entry for untagged frames of port 71, with ACT. -/
def portEntry (act : Nat) : Entry :=
  Entry.written (BitVec.ofNat 128 (2 ^ 124 + portSearch 71 0xFFF % 2 ^ 60 * 2 ^ 60 + act * 2 ^ 58)) false false
/-- Port 71 with packets, with entries of Delta in the first way of its bucket. -/
def ported (fs : List (Field × Nat × Nat × Nat)) (l : List Entry) : State :=
  let s := withFields ((FRM_CPORT.EN, 17, 3, 1) :: fs)
  let s : State := { s with delta := { s.delta with seed := some 0xFFFFFFFF } }
  l.foldl (fun a e => a.dset (a.mainBucket e.search * 4) e) s

/-- PacketAdmission: a port that is off, a miss with and without a default action, a hit with each kind of action. -/
theorem witness_classify :
    (let f := framed (List.replicate 60 0)
     let on := ported [(DLT_PORT.EN, 71, 0, 1)] []
     let w := on.egressSearch 71 f
     let dflt := ported [(DLT_PORT.EN, 71, 0, 1), (DLT_PORT.DEF_ACT, 71, 0, 1)] []
     let hit := fun (act : Nat) => ported [(DLT_PORT.EN, 71, 0, 1)] [portEntry act]
     fcsGood f = true ∧ on.packetPort 71 = true ∧ on.rd CLK_PTP.TS_EN 71 = 0 ∧ (ported [] []).rd DLT_PORT.EN 71 = 0 ∧
     on.rd DLT_PORT.EN 71 = 1 ∧ SoundWays on w ∧ on.dfind w = none ∧ on.rd DLT_PORT.DEF_ACT 71 = 0 ∧
     dflt.rd DLT_PORT.DEF_ACT 71 = 1 ∧ SoundWays dflt w ∧ dflt.dfind w = none ∧ SoundWays (hit 0) w ∧
     (hit 0).dfind w = some ((hit 0).mainBucket w * 4) ∧ ((hit 0).dget ((hit 0).mainBucket w * 4)).fld 59 58 ≠ 1 ∧
     SoundWays (hit 1) w ∧ (hit 1).dfind w = some ((hit 1).mainBucket w * 4) ∧
     ((hit 1).dget ((hit 1).mainBucket w * 4)).fld 59 58 = 1) ∧
    State.reset.packetPort 0 = false ∧ fcsGood (List.replicate 64 0) = false := by
  unfold SoundWays
  decide +kernel

/-- The basin of queue 1048575 with SC 65535 and SecY 4095, in a mode. -/
def flowing (mode : Nat) (fs : List (Field × Nat × Nat × Nat)) (rs : List (RField × Nat × Nat)) : State :=
  let queue := [(QUE.EN, 1048575, 1), (QUE.FG, 1048575, 65535), (QUE.CAP, 1048575, 1)]
  let sc := [(SC.EN, 65535, 1), (SC.SECY, 65535, 4095), (SECY.MAX_FRAME, 4095, 84), (SC.CHAN, 65535, 2879)]
  withRecs (((GBL_MODE.MODE, 0, 0, mode) :: fs).foldl (fun s f => s.wr f.1 f.2.2.2 f.2.1 f.2.2.1) (basin (queue ++ sc))) rs
theorem witness_admit :
    (let f := List.replicate 60 (0 : Byte)
     let s := flowing 6 [] []
     let charged := f.length + 16 + 8
     s.rd GBL_MODE.MODE = 6 ∧ s.rrd QUE.EN 1048575 = 1 ∧ s.rrd QUE.DRAIN 1048575 = 0 ∧ s.rrd SC.EN 65535 = 1 ∧
     s.rrd SC.DIR 65535 = 0 ∧ s.rrd SC.DRAIN 65535 = 0 ∧ s.rrd SECY.TX_SCI (s.rrd SC.SECY 65535) ≠ 1 ∧
     charged ≤ s.rrd SECY.MAX_FRAME (s.rrd SC.SECY 65535) ∧ s.rrd QUE.CELLS 1048575 + 1 ≤ s.rrd QUE.CAP 1048575 ∧
     s.sharedDemand (s.queueGroup 1048575) 1 ≤ s.sharedFree ∧ (s.allocCells 1).1 = some [(0, 1)] ∧
     s.queueGroup 1048575 < 18 ∧ s.used (s.queueGroup 1048575) + 1 < 2 ^ 28) ∧
    (flowing 4 [] []).rd GBL_MODE.MODE = 4 ∧ (flowing 5 [] [(SC.DRAIN, 65535, 1)]).rrd SC.DRAIN 65535 = 1 ∧
    (flowing 5 [] [(SECY.MAX_FRAME, 4095, 83)]).rrd SECY.MAX_FRAME 4095 = 83 ∧
    (flowing 5 [] [(QUE.CAP, 1048575, 0)]).rrd QUE.CAP 1048575 = 0 ∧
    (let s := flowing 5 [(BSN_SHARED.YLIMIT, 0, 0, 0)] []
     ¬s.sused + 1 ≤ s.rd BSN_SHARED.YLIMIT) ∧
    (let s := flowing 5 [(BSN_LOST.LOST, 0, 0, 16)] []
     ¬s.sharedDemand (s.queueGroup 1048575) 1 ≤ s.sharedFree) := by decide +kernel
theorem witness_police :
    (let s := flowing 5 [] [(POL.EN, 262143, 1), (POL.TP, 262143, 84 * 256), (POL.EN, 0, 1), (POL.TP, 0, 84 * 256),
       (POL.TC, 0, 84 * 256)]
     s.rrd POL.EN 262143 = 1 ∧ 84 * 256 ≤ s.rrd POL.TP 262143 ∧ s.rrd POL.TC 262143 < 84 * 256 ∧ s.rrd POL.TP 262143 < 85 * 256 ∧
     s.rrd POL.EN 0 = 1 ∧ 84 * 256 ≤ s.rrd POL.TP 0 ∧ 84 * 256 ≤ s.rrd POL.TC 0 ∧ s.rrd POL.EN 1 = 0) := by decide +kernel

/-- Channel 2879 with its nodes, and a frame at the head of queue 1048575. -/
def sending (rs : List (RField × Nat × Nat)) : State :=
  (lined [] ([(NODE.EN, nodeIx 3 2879, 1), (NODE.EN, nodeIx 2 4095, 1), (NODE.PARENT, nodeIx 2 4095, 2879),
    (NODE.EN, nodeIx 1 65535, 1), (NODE.PARENT, nodeIx 1 65535, 4095), (QUE.EN, 1048575, 1), (QUE.FG, 1048575, 65535),
    (SC.CHAN, 65535, 2879), (SA.EN, 262140, 1), (SA.NEXT_PN, 262140, 1)] ++ rs)).setBq 1048575 { frames := [{ oneCell with sc := 65535, data := [] }] }

/-- PacketEgress: a frame that is chosen, with and without a PN left; a full ring; a Twin group. -/
theorem witness_dequeue :
    (let s := sending []
     s.sluiceOpen 17 = true ∧ (s.ringOf 17).length < 256 ∧ s.twin 17 = false ∧
     (s.chooseFrame 17 (s.waitingChans 17)).map (fun r => (r.1, r.2.1)) = some (2879, 1048575) ∧
     (s.chooseFrame 17 (s.waitingChans 17)).map (fun r => (State.takeHead { s with basin := r.2.2 } r.2.1).1) =
       some (some { oneCell with sc := 65535, data := [] }) ∧
     s.rrd SC.SW_PEND 65535 = 0 ∧ s.noPn (65535 * 4 + s.rrd SC.ENC_AN 65535) = false) ∧
    (sending [(SA.EXHAUST, 262140, 1)]).noPn 262140 = true ∧ (leased 31).chooseFrame 17 [] = none ∧
    State.reset.sluiceOpen 17 = false ∧
    (let s := (sending []).wr WEI_GRP_CFG.PROT 2 17
     s.twin 17 = true ∧ s.sluiceOpen 17 = true ∧ (s.chooseFrame 17 []).isSome = true) := by decide +kernel

/-- Group 17 with one entry in its ring. -/
def ringed (e : RingEntry) : State := (sending []).setRingOf 17 [e]
def entry : RingEntry := { queue := 1048575, sa := 262140, pn := 1, chan := 2879, cells := [], len := 0, charged := 0 }
theorem witness_ring :
    (let s := ringed entry
     s.holder 17 = some 23 ∧ s.nextEgress 17 = some entry ∧ entry.resent = false ∧ s.usable 0 262140 = false ∧
     (keyed s 262140).usable 0 262140 = true ∧ State.reset.holder 17 = none ∧
     (s.ringOf 17).find? (fun e => decide (0 < e.ks.ready) && e.data.isNone) = none ∧ (s.ringOf 17).find? (fun e => e.data.isSome) = none) ∧
    (let e := { entry with key := some [1], ks := { total := 5, ready := 5 } }
     let s := ringed e
     (s.ringOf 17).find? (fun e => decide (0 < e.ks.ready) && e.data.isNone) = some e ∧
     (s.readChain e.queue e.len e.cells.length e.cells.length 0 (e.cells.headD (0, 0)) []).1 = .whole []) ∧
    (let e := { entry with key := some [1], ks := { total := 5, ready := 5 }, data := some [2] }
     let s := ringed e
     (s.ringOf 17).find? (fun e => e.data.isSome) = some e ∧ e.key = some [1] ∧ e.data = some [2] ∧ s.flows 17 0 = true ∧
     (s.setRace 23 { dispute := some { egress := true, sent := 1 } }).flows 17 0 = false) ∧
    16 ≤ (body (List.replicate 20 0)).length := by decide +kernel
theorem witness_mkaTx :
    (let f : MkaFrame := { slot := 0, tag := 0, octets := eapolFrame }
     let s := ((sending []).setMkaQueue 2879 [f]).wr FRM_CTL.TX_EN 1 17
     s.mkaQueue 2879 = f :: [] ∧ s.rd FRM_CTL.TX_EN 17 = 1 ∧ s.sluiceOpen 17 = true ∧ s.packetChan 2879 = true) ∧
    State.reset.mkaQueue 0 = [] := by decide +kernel

/-- A frame with a SecTAG, its TCI and AN, SCI, no secure data, and an ICV. -/
def tagFrame (tci : Byte) (sci icv : Octets) : Octets :=
  List.replicate 12 0 ++ [0x88, 0xE5, tci, 0, 0, 0, 0, 5] ++ sci ++ icv
/-- Channel 2879 enabled, with receive SC 65535. -/
def receiving (fs : List (Field × Nat × Nat × Nat)) (rs : List (RField × Nat × Nat)) : State :=
  keyed (lined fs ([(CH.EN, 2879, 1), (SC.EN, 65535, 1), (SC.DIR, 65535, 1), (SC.CHAN, 65535, 2879), (SA.EN, 262143, 1),
    (SA.NEXT_PN, 262143, 5)] ++ rs)) 262143

/-- PacketIngress: each way that a frame is turned away before its tag. -/
theorem witness_ingress :
    (let s := receiving [] []
     let x := framed (List.replicate 60 0)
     s.packetChan 2879 = true ∧ fcsGood x = true ∧ s.rrd CH.EN 2879 = 1 ∧ s.twin 17 = false ∧ s.rd GBL_MODE.MODE ≠ 7 ∧
     s.inFailover 17 = false ∧ s.sluiceOpen 17 = true ∧ s.weir.eddy ≠ some 17 ∧ be16 (body x) 12 ≠ 0x888E ∧
     be16 (body x) 12 ≠ 0x88E5 ∧ be16 (body (framed eapolFrame)) 12 = 0x888E ∧ fcsGood (framed eapolFrame) = true ∧
     (receiving [] [(CH.EN, 2879, 0)]).rrd CH.EN 2879 = 0 ∧ (s.wr WEI_GRP_CFG.PROT 2 17).twin 17 = true ∧
     (receiving [(GBL_MODE.MODE, 0, 0, 7)] []).rd GBL_MODE.MODE = 7 ∧ s.packetChan 0 = false ∧
     (receiving [(WEI_LEASE.STATE, 17, 0, 3)] []).rd WEI_LEASE.STATE 17 = 3) ∧
    (let s0 := (receiving [] []).setWgrp 17 { phase := .revoked }
     let s : State := { s0 with weir := { s0.weir with eddy := some 17 } }
     s.inFailover 17 = true ∧ s.weir.eddy = some 17 ∧ s.shelterUsed + (64 + 63) / 64 ≤ 108032) := by decide +kernel
/-- PacketIngress: tags that are short, wrong and right; channels and SCs that take the frame and do not. -/
theorem witness_tagged_frame :
    (let good := framed (tagFrame 0x0F [] (List.replicate 16 9))
     let sci := framed (tagFrame 0x2F [0, 0, 0, 0, 0, 0, 0, 7] (List.replicate 16 9))
     fcsGood good = true ∧ fcsGood sci = true ∧ be16 (body good) 12 = 0x88E5 ∧ (rxTag (body good)).map RxTag.ok = some true ∧
     (rxTag (body sci)).map (fun t => (t.ok, t.tci.testBit 5, t.sci)) = some (true, true, 7) ∧
     rxTag (body (framed (tagFrame 0x0F [] []))) = none ∧
     (rxTag (body (framed (tagFrame 0x8F [] (List.replicate 16 9))))).map RxTag.ok = some false) ∧
    (let s := receiving [] [(CH.DEF_V, 2879, 1), (CH.DEF_SC, 2879, 65535)]
     s.rrd CH.DEF_V 2879 = 1 ∧ s.rrd CH.DEF_SC 2879 = 65535 ∧ s.rrd SC.EN 65535 = 1 ∧ s.rrd SC.DIR 65535 = 1 ∧
     s.rrd SC.DRAIN 65535 = 0 ∧ s.saReady (65535 * 4 + 0x0F % 4) = true ∧ 262143 ∉ s.secy.draining ∧
     s.recoverPn 262143 5 = 5 ∧ s.lowestPn 262143 = 5 ∧ ¬s.recoverPn 262143 5 < s.lowestPn 262143 ∧
     s.recoverPn 262143 4 < s.lowestPn 262143 ∧ s.saReady 262142 = false ∧ s.sciFind 2879 7 = none ∧
     (s.sciSet 2879 7 65536).sciFind 2879 7 = some 65535) ∧
    (receiving [] [(SECY.REPLAY, 0, 1)]).rrd SECY.REPLAY ((receiving [] []).saSecy 262143) = 1 ∧
    (receiving [] []).rrd CH.DEF_V 2879 = 0 ∧ (receiving [] [(SC.DRAIN, 65535, 1)]).rrd SC.DRAIN 65535 = 1 ∧
    (let s := receiving [] [(SECY.SUITE, 0, 3)]
     s.xpn (s.saSecy 262143) = true ∧ s.lowestPn 262143 < 2 ^ 64 - 2 ^ 32) := by decide +kernel

/-- PacketIngress: a retained frame whose ICV verifies, and one whose ICV does not. -/
def retained (icv : Octets) : InFrame :=
  { chan := 2879, octets := tagFrame 0x0F [] icv ++ List.replicate 4 0, sa := 262143, pn := 5, key := some (List.replicate 32 1),
    ks := { iv := List.replicate 12 5, total := 1, ready := 1 } }
def goodIcv : Octets := (Crypto.gcm true (List.replicate 32 1) (List.replicate 12 5) (tagFrame 0x0F [] []) []).2
theorem witness_opened (key icv : Octets) (h : icv.length = 16) :
    ((retained icv).opened key).2 =
      decide ((Crypto.gcm true key (List.replicate 12 5) (tagFrame 0x0F [] []) []).2 = icv) := by
  match icv, h with
  | [a, b, c, d, e, f, g, h, i, j, k, l, m, n, o, p], _ =>
    have hb : body (retained [a, b, c, d, e, f, g, h, i, j, k, l, m, n, o, p]).octets =
        tagFrame 0x0F [] [] ++ [a, b, c, d, e, f, g, h, i, j, k, l, m, n, o, p] := rfl
    have ht : (beNat (slice (tagFrame 0x0F [] [] ++ [a, b, c, d, e, f, g, h, i, j, k, l, m, n, o, p]) 14 1)).testBit 5 = false := by
      rw [show slice (tagFrame 0x0F [] [] ++ [a, b, c, d, e, f, g, h, i, j, k, l, m, n, o, p]) 14 1 = [0x0F] from rfl]
      decide
    unfold InFrame.opened
    simp only [hb, ht]
    simp [retained, tagFrame, slice]
theorem witness_verdict :
    ((retained goodIcv).opened (List.replicate 32 1)).2 = true ∧
    (((retained (List.replicate 16 0)).opened (List.replicate 32 1)).2 = false ∨
      ((retained (List.replicate 16 1)).opened (List.replicate 32 1)).2 = false) := by
  rw [witness_opened _ _ (by decide +kernel), witness_opened _ _ rfl, witness_opened _ _ rfl]
  refine ⟨decide_eq_true rfl, ?_⟩
  rw [← goodIcv]
  by_cases h : goodIcv = List.replicate 16 0
  · exact .inr (by rw [h]; decide)
  · exact .inl (decide_eq_false h)
theorem witness_retainHolder (s : State) (l : List InFrame) : (s.setRetain 17 l).holder 17 = s.holder 17 := rfl
theorem witness_icvVerdict :
    (∀ icv, let s := (receiving [] []).setRetain 17 [retained icv]
      s.retainOf 17 = retained icv :: [] ∧ (retained icv).key = some (List.replicate 32 1) ∧ 0 < (retained icv).ks.ready ∧
      s.holder 17 = some 23 ∧ (retained icv).ghash = none) ∧
    ((receiving [] []).setRetain 17 []).flows 17 1 = true ∧ (receiving [] []).weir.shelter = [] ∧
    (retained []).sa < 2 ^ 18 ∧ (retained []).pn < 2 ^ 64 - 1 ∧ (receiving [] []).rrd CH.POLICY 2879 = 0 ∧
    (receiving [] [(CH.POLICY, 2879, 1)]).rrd CH.POLICY 2879 = 1 := by
  refine ⟨fun icv => ⟨?_, rfl, Nat.one_pos, ?_, rfl⟩, by decide +kernel⟩
  · simp only [State.setRetain, State.retainOf, State.setWgrp, State.wgrp, Tbl.get_set, if_pos]
  · exact (witness_retainHolder _ _).trans (by decide +kernel)
theorem witness_scDrains :
    (let s := receiving [] [(SC.DRAIN, 65535, 1)]
     s.rrd SC.DRAIN 65535 = 1 ∧ s.scTxWork 65535 = false ∧ s.saRxWork (fun a => decide (a / 4 = 65535)) = false) ∧
    State.reset.rrd SC.DRAIN 0 ≠ 1 ∧
    (let s0 := receiving [] []
     let s : State := { s0 with secy := { s0.secy with draining := [262143] } }
     262143 ∈ s.secy.draining ∧ s.saRxWork (fun a => decide (a = 262143)) = false) ∧ 0 ∉ State.reset.secy.draining := by
  decide +kernel
/-- PacketAdmission: a queue that carries frames of SCs bound to two channels, and one that does not. -/
theorem witness_mixedQueue :
    ((lined [] [(SC.CHAN, 65535, 2879)]).setBq 7 { frames := [{ oneCell with sc := 65535 }, oneCell] }).mixedQueue = true ∧
    (sending []).mixedQueue = false := by decide +kernel
/-- PacketEgress: a burst that is too small, a chain that is broken at the head, a frame one unit of which is flagged, a
re-send that waits, a closing group. -/
theorem witness_egressClauses :
    (sending [(QUE.SHP_EN, 1048575, 1), (QUE.BURST, 1048575, 83)]).burstSmall 1048575 84 = true ∧
    (sending []).burstSmall 1048575 84 = false ∧
    (let s := (sending []).setBq 1048575 { frames := [{ oneCell with broken := true }, oneCell] }
     (s.bq 1048575).frames = { oneCell with broken := true } :: [oneCell] ∧ oneCell.void = false ∧ oneCell.broken = false ∧
     (s.chooseFrame 17 (s.waitingChans 17)).map (fun r => (State.takeHead { s with basin := r.2.2 } r.2.1).1) = some none) ∧
    (let e := { entry with key := some [1], ks := { total := 5, ready := 5 }, data := some [2], ghash := some 3 }
     ((ringed e).ringOf 17).find? (fun e => e.data.isSome) = some e ∧ e.ghash ≠ none ∧ e.passed < e.lanes) ∧
    ((sending []).wr WEI_GRP_CFG.CLOSING 1 17).rd WEI_GRP_CFG.CLOSING 17 = 1 ∧
    ((lined [(FRM_TSLIVE.KIND, 17, 159, 0)] []).l1Chan 2879 = true ∧ (sending []).l1Chan 2879 = false ∧
      chanGroup (2879 : Channel).val = 17) ∧
    (let e : RingEntry := { entry with offset := 30 }
     12 + e.offset ≤ (body (List.replicate 64 0)).length) := by decide +kernel
/-- PacketIngress: a line that is down, a full shelter, entries of the rings that are bad, a full hold buffer, a frame one unit
of which is flagged. -/
theorem witness_ingressClauses :
    (let up := receiving [(FRM_CTL.RX_EN, 17, 0, 1), (FRM_STAT.IF, 17, 0, 1)] []
     up.packetChan 2879 = true ∧ up.rd FRM_CTL.RX_EN 17 = 1 ∧ up.rd FRM_STAT.IF 17 = 1 ∧
     (up.reg .FRM_DEF 17).toNat &&& 0b11110 = 0 ∧ (receiving [(FRM_CTL.RX_EN, 17, 0, 0)] []).rd FRM_CTL.RX_EN 17 ≠ 1 ∧
     ((up.setReg .FRM_DEF 2 17).reg .FRM_DEF 17).toNat &&& 0b11110 ≠ 0) ∧
    (let s := (receiving [] []).setWgrp 17 { phase := .loaded }
     s.inFailover 17 = true ∧ s.weir.eddy ≠ some 17) ∧
    (let f : InFrame := { chan := 2879, octets := [] }
     let s := (receiving [] [(CH.EN, 2879, 0)]).setRetain 17 [f]
     (s.retainOf 17)[0]? = some f ∧
     (let u : State := { s with weir := { s.weir with shelter := [f] } }
      u.weir.shelter[0]? = some f)) ∧
    (let s := (receiving [] []).setRetain 17 [{ chan := 2879, octets := List.replicate 65473 0 }]
     s.rrd CH.POLICY 2879 = 0 ∧ 65536 < s.holdUsed 17 + 64 ∧ ¬65536 < (receiving [] []).holdUsed 17 + 64) ∧
    ({ retained [] with ghash := some 3 } : InFrame).ghash ≠ none ∧ (retained []).passed < (retained []).lanes := by decide +kernel

/-! ### Witnesses: L1 channels -/

/-- L1 channel 2879 in line group 17, that holds its lease, with both framers enabled, and what it holds beside its record. -/
def l1Line (fs : List (Field × Nat × Nat × Nat)) (rs : List (RField × Nat × Nat)) (x : L1Run) : State :=
  (lined ([(FRM_TSLIVE.KIND, 17, 159, 0), (FRM_CTL.TX_EN, 17, 0, 1), (FRM_CTL.RX_EN, 17, 0, 1), (FRM_STAT.IF, 17, 0, 1)] ++ fs)
    ((L1.EN, 2879, 1) :: rs)).setL1 2879 x
/-- A key in a slot of channel 2879. -/
def l1Keyed (s : State) (slot epoch : Nat) : State :=
  s.setKslot 1 (2 * 2879 + slot) { key := List.replicate 32 1, valid := true, parent := rootParent, epoch := epoch }

/-- L1Transmit: a channel that runs with a key, without, cut off, and closing; frames that leave, whole and cut. -/
theorem witness_l1Tx :
    (let s := l1Keyed (l1Line [] [] {}) 0 7
     s.l1Chan 2879 = true ∧ s.rd FRM_CTL.TX_EN 17 = 1 ∧ s.rd GBL_MODE.MODE ≠ 2 ∧ s.rd GBL_MODE.MODE ≠ 8 ∧ s.rrd L1.EN 2879 = 1 ∧
     s.rrd L1.CLOSING 2879 = 0 ∧ s.flows 17 0 = true ∧ s.rrd L1.TX_COUNT 2879 % 256 = 0 ∧ s.rrd L1.TX_SLOT 2879 = 0 ∧
     s.usable 1 (2 * 2879 + 0) = true ∧ (s.kslot 1 (2 * 2879 + 0)).useEn = false) ∧
    (l1Line [] [] {}).usable 1 (2 * 2879) = false ∧ (l1Line [(WEI_LEASE.STATE, 17, 0, 0)] [] {}).flows 17 0 = false ∧
    (l1Line [] [(L1.EN, 2879, 0)] {}).rrd L1.EN 2879 = 0 ∧ State.reset.l1Chan 0 = false ∧
    (let s := l1Line [] [(L1.CLOSING, 2879, 1), (L1.TX_COUNT, 2879, 2 ^ 64 - 1)] {}
     s.rrd L1.CLOSING 2879 = 1 ∧ (s.l1run 2879).filled = false ∧ s.rrd L1.TX_COUNT 2879 = 2 ^ 64 - 1) ∧
    ((l1Line [] [(L1.CLOSING, 2879, 1)] { filled := true }).l1run 2879).filled = true := by decide +kernel
theorem witness_l1Sent :
    (let f := fun (k : TxKind) (cut : Option Nat) => ({ count := 255, kind := k, cut := cut } : TxFrame)
     ([TxKind.enc, .ais, .fill].all fun k => decide (((l1Line [] [] { cur := some (f k none) }).l1run 2879).cur = some (f k none))) =
       true ∧
     ((l1Line [] [] { cur := some (f .enc (some 15231)), gapOpen := true }).l1run 2879).cur = some (f .enc (some 15231)) ∧
     ((l1Line [] [] { cur := some (f .enc none), txVeto := true }).l1run 2879).txVeto = true) ∧
    7 % 256 < 8 ∧ 8 ≤ 8 % 256 ∧ 11 % 256 < 12 ∧ 268 % 256 = 12 ∧ 12 < 255 % 256 ∧ 16 ≤ (List.replicate 16 (0 : Byte)).length := by
  decide +kernel

/-- A channel in frame and multiframe. -/
def inFrame : Align := { inFrame := true, inMf := true, mfas := some 7 }
/-- L1Receive: frames that a channel takes, in every state of its alignment and count lock; count words; verdicts. -/
theorem witness_l1Rx :
    (let s := l1Line [] [(L1.CNT_LOCK, 2879, 1), (L1.RX_COUNT, 2879, 2 ^ 64 - 1)] { align := inFrame }
     s.l1Chan 2879 = true ∧ s.rd FRM_CTL.RX_EN 17 = 1 ∧ (s.l1run 2879).judge = none ∧ (s.l1run 2879).longReady = false ∧
     s.otuGood 17 = true ∧ s.chHas 2879 5 = false ∧ ((s.l1run 2879).align.step true 8).inFrame = true ∧ s.rrd L1.EN 2879 = 1 ∧
     s.rrd L1.CNT_LOCK 2879 = 1) ∧
    ((Align.step {} true 8).inFrame = false) ∧
    (let s := l1Line [] [(L1.EN, 2879, 0)] { align := inFrame }
     s.rrd L1.EN 2879 = 0 ∧ s.rrd L1.QUAR 2879 = 0) ∧
    (let f : RxFrame := { count := 0, plain := [], tag := [0, 0, 0, 0] }
     let judged := l1Line [] [] { judge := some (f, some [0, 0, 0, 0]) }
     let pending := l1Line [] [] { pend := some f }
     (judged.l1run 2879).judge = some (f, some [0, 0, 0, 0]) ∧ (judged.l1run 2879).next = none ∧
     (judged.l1run 2879).vetoShort = false ∧ judged.rrd L1.POLICY 2879 = 0 ∧ (pending.l1run 2879).judge = none ∧
     (pending.l1run 2879).pend = some f ∧ some [1, 0, 0, 0] ≠ some f.tag ∧
     (l1Line [] [(L1.POLICY, 2879, 1)] {}).rrd L1.POLICY 2879 = 1) := by decide +kernel
theorem witness_countWord :
    (let w : Nat := 0x0913A500
     (beBytes 8 w).foldl (fun a b => a ^^^ b) 0x5A = (0xE5 : Byte) ∧ (0xE4 : Byte) ≠ 0xE5 ∧
     (let s := l1Line [] [] { align := inFrame, word := some (w - 256) }
      s.rrd L1.CNT_LOCK 2879 = 0 ∧ (s.l1run 2879).word = some ((w + 2 ^ 64 - 256) % 2 ^ 64) ∧ (s.l1run 2879).align.inFrame = true ∧
      (0 : Byte).toNat % 2 = s.rd FRM_L1CTL.ROLE 17) ∧
     ((l1Line [] [] { align := inFrame }).l1run 2879).word ≠ some ((w + 2 ^ 64 - 256) % 2 ^ 64) ∧
     (let s := l1Line [] [(L1.CNT_LOCK, 2879, 1), (L1.RX_COUNT, 2879, w + 12)] { align := inFrame }
      s.rrd L1.CNT_LOCK 2879 = 1 ∧ w = s.rrd L1.RX_COUNT 2879 / 256 * 256 ∧ w + 256 ≠ s.rrd L1.RX_COUNT 2879 / 256 * 256 ∧
      (s.l1run 2879).disagree = false) ∧
     ((l1Line [] [] { disagree := true }).l1run 2879).disagree = true) := by decide +kernel
theorem witness_longTag :
    (let y : L1Run := { longReady := true, longTag := some [1], frags := [1], fragOk := true }
     let s := l1Line [] [(L1.QUAR, 2879, 1)] { y with whole := some 256, longFrom := 256, quarFirst := 255 }
     let x := s.l1run 2879
     x.longReady = true ∧ x.judge = none ∧ x.longTag = some [1] ∧ x.fragOk = true ∧ [1] = x.frags ∧ x.vetoLong = false ∧
     s.rrd L1.QUAR 2879 = 1 ∧ x.whole = some x.longFrom ∧ x.quarFirst < x.longFrom) ∧
    ((l1Line [] [] { longReady := true }).l1run 2879).longTag = none ∧
    ((l1Line [] [] { longReady := true, longTag := some [2], fragOk := true }).l1run 2879).frags = [] ∧
    (let e := { orderOf 2 with flags := 8 }
     let s : State := { withFields [(TID_STAT.SO_VALID, 0, 0, 1)] with tide := { State.reset.tide with orders := [e] } }
     s.orderFor 0x02 2879 = some e ∧ e.flags.testBit 3 = true) ∧
    State.reset.orderFor 0x02 2879 = none ∧
    (let s := l1Line [] [(L1.QUAR, 2879, 1), (L1.RX_COUNT, 2879, 9)] { quarDone := true, quarLast := 8 }
     s.rrd L1.QUAR 2879 = 1 ∧ (s.l1run 2879).quarDone = true ∧ (s.l1run 2879).quarLast < s.rrd L1.RX_COUNT 2879 ∧
     s.twin 17 = false) ∧ (l1Line [] [] {}).rrd L1.QUAR 2879 = 0 := by decide +kernel

/-- L1Commands: octet positions; the registers with and without channels enabled; slots at and past the end. -/
def places : Nat := (List.range 8).foldl (fun a k => a + (7 + k) * 2 ^ (6 * k)) 0
theorem witness_coopos : CooPlaces places ∧ rsvdOk .FRM_COOPOS (BitVec.ofNat 64 places) = true ∧
    rsvdOk .FRM_COOPOS (BitVec.allOnes 64) = false ∧ rsvdOk .FRM_COOPOS 0 = true ∧ State.reset.l1Enabled 17 = [] ∧
    (l1Line [] [] {}).l1Enabled 17 ≠ [] := by
  have h : ∀ i, i < 8 → ∀ j, j < 8 → bits places (6 * i + 5) (6 * i) = bits places (6 * j + 5) (6 * j) → i = j := by
    decide +kernel
  have h5 : ∀ i, i < 6 → 2 ≤ i → bits places (6 * i + 5) (6 * i) / 16 = 0 := by decide +kernel
  exact ⟨⟨fun i j hi hj => h i hi j hj, by decide +kernel, by decide +kernel, fun i h2 h6 => h5 i h6 h2⟩, by decide +kernel⟩
theorem witness_l1Registers :
    (let v := word [(FRM_L1CTL.ROLE, 1), (FRM_L1CTL.REJECT, 1)]
     rsvdOk .FRM_L1CTL v = true ∧ FRM_L1CTL.ROLE.of v ≠ (l1Line [] [] {}).rd FRM_L1CTL.ROLE 17 ∧ FRM_L1CTL.REJECT.of v = 1) ∧
    (let v := word [(FRM_L1HOLD.EN, 1), (FRM_L1HOLD.BASE_MB, 65531)]
     let w := word [(FRM_L1HOLD.EN, 1), (FRM_L1HOLD.BASE_MB, 65532)]
     rsvdOk .FRM_L1HOLD v = true ∧ ¬65531 < FRM_L1HOLD.BASE_MB.of v ∧ rsvdOk .FRM_L1HOLD w = true ∧
     65531 < FRM_L1HOLD.BASE_MB.of w ∧ FRM_L1HOLD.EN.of w = 1) ∧
    160 ≤ (160#8).toNat ∧ (159#8).toNat < 160 := by decide +kernel
/-- The image of a record put where FRM_L1CMD of group 17 takes it. -/
def l1Of (s : State) (fs : List (RField × Nat)) : State :=
  (List.range 6).foldl (fun a w => a.setReg .FRM_L1DATA ((image .l1 fs).getD w 0) 17 w) s
theorem witness_l1Write :
    (let s := l1Of (l1Line [] [(L1.EN, 2879, 0)] {}) [(L1.EN, 1), (L1.PEER_CHAN, 2879), (L1.TX_COUNT, 5)]
     let im := s.l1Image 17
     RecKind.l1.imageOk im = true ∧ L1.EN.of im = 1 ∧ s.rrd L1.EN 2879 = 0 ∧ s.l1Chan 2879 = true ∧ L1.POLICY.of im ≠ 1 ∧
     L1.PEER_CHAN.of im < 2880 ∧ (s.kslot 1 (2 * 2879)).valid = false ∧ (s.kslot 1 (2 * 2879 + 1)).valid = false ∧
     s.rrd L1.CLOSING 2879 = 0) ∧
    (let s := l1Of (l1Line [] [] {}) []
     let im := s.l1Image 17
     RecKind.l1.imageOk im = true ∧ L1.EN.of im = 0 ∧ s.rrd L1.EN 2879 = 1 ∧ L1.POLICY.of im = s.rrd L1.POLICY 2879 ∧
     L1.PEER_CHAN.of im = s.rrd L1.PEER_CHAN 2879 ∧ L1.TX_COUNT.of im = s.rrd L1.TX_COUNT 2879) ∧
    L1.PEER_CHAN.of ((l1Of State.reset [(L1.PEER_CHAN, 2880)]).l1Image 17) = 2880 ∧
    RecKind.l1.imageOk (((List.range 6).foldl (fun (a : State) w => a.setReg .FRM_L1DATA (BitVec.allOnes 64) 17 w)
      State.reset).l1Image 17) = false := by decide +kernel
theorem witness_l1Switch :
    (let s := l1Keyed (l1Of (l1Line [(GAU_STAT.RUN, 17, 0, 1)] [(L1.TX_EPOCH, 2879, 65535)] {}) []) 1 0
     s.usable 1 (2 * 2879 + (1 - s.rrd L1.TX_SLOT 2879)) = true ∧
     s.l1Epoch 2879 (1 - s.rrd L1.TX_SLOT 2879) = (s.rrd L1.TX_EPOCH 2879 + 1) % 2 ^ 16 ∧ s.rrd L1.SW_PEND 2879 = 0 ∧
     s.rd GAU_STAT.RUN 17 = 1 ∧ atOrAfter (s.gauge 17) (reading (L1.SW_FRAME.of (s.l1Image 17)) 0) = true) ∧
    State.reset.rd GAU_STAT.RUN 17 = 0 ∧ (l1Line [] [(L1.SW_PEND, 2879, 1)] {}).rrd L1.SW_PEND 2879 = 1 ∧
    (l1Line [] [(L1.RET_PEND, 2879, 1)] {}).rrd L1.RET_PEND 2879 = 1 ∧ (l1Line [] [] {}).retiring 2879 = none ∧
    (l1Line [] [(L1.SW_PEND, 2879, 1)] {}).retiring 2879 = some 0 ∧ (l1Line [] [] {}).rrd L1.RET_PEND 2879 = 0 := by
  decide +kernel
theorem witness_retirement :
    (let s := l1Line [] [(L1.RET_PEND, 2879, 1)] { retire := 0, txSeven := some (1, 0), rxSeven := some (1, 0) }
     let x := s.l1run 2879
     s.rrd L1.RET_PEND 2879 = 1 ∧ x.txSeven = some (1 - x.retire, (s.kslot 1 (2 * 2879 + (1 - x.retire))).gen) ∧
     x.rxSeven = some (1 - x.retire, (s.kslot 1 (2 * 2879 + (1 - x.retire))).gen)) := by decide +kernel
/-- L1Transmit: descriptors with and without a key, keys with a use left and none, a group that closes. -/
theorem witness_l1Desc :
    (let k : SlotKey := { slot := 0, epoch := 7, gen := 0, key := some [1] }
     let d : L1Desc := { count := 255, keys := [k] }
     let s := l1Line [] [(L1.TX_COUNT, 2879, 255)] { txDesc := some d }
     let b := s.finishTx 2879
     (b.l1run 2879).txDesc = some d ∧ d.count = s.rrd L1.TX_COUNT 2879 ∧ d.keys = k :: [] ∧ k.key = some [1] ∧
     b.flows 17 0 = true ∧ b.rd WEI_GRP_CFG.CLOSING 17 = 0) ∧
    ((l1Line [(WEI_GRP_CFG.CLOSING, 17, 0, 1)] [] {}).finishTx 2879).rd WEI_GRP_CFG.CLOSING 17 = 1 ∧
    ((l1Line [] [] {}).l1run 2879).txDesc = none ∧
    (let s := fun n => (l1Line [] [] {}).setKslot 1 (2 * 2879) { key := List.replicate 32 1, valid := true, parent := rootParent, useEn := true, use := n }
     (s 1).usable 1 (2 * 2879) = true ∧ 0 < ((s 1).kslot 1 (2 * 2879)).use ∧ ((s 0).kslot 1 (2 * 2879)).use = 0 ∧
     ((s 0).kslot 1 (2 * 2879)).useEn = true) ∧
    (let f : TxFrame := { count := 255, kind := .enc }
     ((l1Line [] [] { cur := some f }).l1run 2879).cur = some f ∧ f.cut = none ∧ f.ghash = []) := by decide +kernel
/-- L1Receive: a frame that leaves whole, cut and replaced; descriptors of one key and of two; a frame whose GHASH is flagged;
the end of a Quarantine. -/
theorem witness_l1Clauses :
    ([none, some 0, some 1].all fun p =>
      let f : Leaving := { count := 9, plain := [1, 2], trust := .unverified, cut := p }
      decide (((l1Line [] [] { leaving := some f }).l1run 2879).leaving = some f ∧ f.skip = 0 ∧ f.plain ≠ [])) = true ∧
    (let k : SlotKey := { slot := 1, epoch := 23, gen := 0, key := some [1] }
     let two : L1Desc := { count := 9, keys := [{ k with slot := 0, epoch := 22 }, k] }
     two.keys.filter (fun y => decide (y.epoch % 16 = 7)) = [k] ∧ k.epoch < 2 ^ 16 ∧
     ((l1Line [] [] { rxDesc := some two }).l1run 2879).rxDesc = some two ∧ ({ two with keys := [k] } : L1Desc).keys.length = 1) ∧
    (let s := l1Keyed (l1Line [] [] { sel := 1 + 2 }) 1 7
     9 % 256 ≠ 0 ∧ (s.l1run 2879).sel = 1 + 2 ∧ s.flows 17 1 = true ∧ s.rd WEI_GRP_CFG.CLOSING 17 = 0 ∧
     s.usable 1 (2 * 2879 + 1) = true) ∧
    (let f : RxFrame := { count := 0, plain := [], tag := [0, 0, 0, 0], ghash := [(23, some 3)] }
     let s := l1Line [] [] { judge := some (f, none) }
     (s.l1run 2879).judge = some (f, none) ∧ s.computing 17 2879 = [23] ∧ Tbl.get none f.ghash 23 = some 3 ∧
     ({ f with ghash := [] } : RxFrame).ghash = [] ∧ f.held = false ∧ (s.l1run 2879).next = none) ∧
    (let s := l1Line [] [(L1.QUAR, 2879, 1), (L1.RX_COUNT, 2879, 9)] { quarDone := true, quarFrom := 9 }
     s.rrd L1.QUAR 2879 = 1 ∧ (s.l1run 2879).quarDone = true ∧ (s.l1run 2879).quarFrom ≤ s.rrd L1.RX_COUNT 2879 ∧
     ¬(s.l1run 2879).quarFrom ≤ 8) ∧
    (let s := l1Line [] [] {}
     (s.l1run 2879).pend = none ∧ (s.l1run 2879).leaving = none ∧ (s.l1run 2879).judge = none ∧ s.chHas 2879 5 = false) := by
  decide +kernel
/-- L1Commands: FRM_L1CMD busy and free; a GCC stream on a position of the COO; a hold area in no Sealed range. -/
theorem witness_l1Busy :
    (l1Line [(FRM_L1CMD.BUSY, 17, 0, 1)] [] {}).rd FRM_L1CMD.BUSY 17 ≠ 0 ∧ (l1Line [] [] {}).rd FRM_L1CMD.BUSY 17 = 0 ∧
    (l1Line [(FRM_DSTR.EN, 0, 0, 1), (FRM_DSTR.GROUP, 0, 0, 17), (FRM_DSTR.LO, 0, 0, 1), (FRM_DSTR.SLOT, 0, 0, 159),
      (FRM_DSTR.KIND, 0, 0, 0)] [] {}).gccAt 17 true (gccPos 0) = true ∧
    (l1Line [] [] {}).gccAt 17 true (gccPos 0) = false ∧
    (l1Line [] [] {}).inSealed ((l1Line [] [] {}).rd FRM_L1HOLD.BASE_MB 17 * 2 ^ 20) (5 * 2 ^ 20) = false := by decide +kernel

/-! ### Witnesses: KDER, Spring and the PKE

P-384 and ML-KEM-1024 are too long to evaluate here, so no witness goes through a check of one. -/

/-- A descriptor with octets set. -/
def descr (fs : List (Nat × Octets)) : Octets := fs.foldl (fun d f => splice d f.1 f.2) (List.replicate 64 0)
/-- A root-level key of the key store. -/
def rootKey (k : Octets) : KeySlot := { key := k, valid := true, parent := rootParent, short := decide (k.length = 16) }
/-- Slots set, and the colour 14 given page 15. -/
def keyStore (l : List (Nat × Nat × KeySlot)) (fs : List (Field × Nat × Nat × Nat)) : State :=
  l.foldl (fun s e => s.setKslot e.1 e.2.1 e.2.2)
    (withFields ([(GBL_MODE.MODE, 0, 0, 4), (SPR_PGOWN.EN, 15, 0, 1), (SPR_PGOWN.OWNER, 15, 0, 14), (GBL_PRES.OPEN, 0, 0, 1),
      (KST_CISTAT.DS_VALID, 0, 0, 1)] ++ fs))

/-- KderInstructions: calls of the first and the last operation, and one that does not exist. -/
theorem witness_kderCalls :
    (∃ b, Calls (described 0x50 255 [0x01]) 0x50 0 255 7 (descr [(0, [0x01])]) b) ∧
    (∃ b, Calls (described 0x50 255 [0x1A]) 0x50 0 255 7 (descr [(0, [0x1A])]) b) ∧
    (∃ b, Calls (described 0x50 255 [0x17]) 0x50 0 255 7 (descr [(0, [0x17])]) b) ∧
    descOp (descr [(0, [0x01])]) = 0x01 ∧ descOp (descr [(0, [0x1A])]) = 0x1A ∧ descOp (descr [(0, [0x17])]) = 0x17 :=
  ⟨calls_of (by decide +kernel) (by decide +kernel) (by decide +kernel) (by decide +kernel),
   calls_of (by decide +kernel) (by decide +kernel) (by decide +kernel) (by decide +kernel),
   calls_of (by decide +kernel) (by decide +kernel) (by decide +kernel) (by decide +kernel), by decide +kernel⟩
theorem witness_kderAccept :
    (let d := descr [(0, [0x01]), (4, [0, 0, 0x20, 0xC0]), (40, [48])]
     let s := keyStore [] []
     kderForm d = true ∧ s.pageOf 9 = some 1 ∧ s.pageOf 14 = some 15 ∧ s.pageOf 8 = none ∧ ¬0x18 ≤ descOp d ∧ kderLenOk d = true ∧
     2 ≤ s.rd GBL_MODE.MODE ∧ s.rd GBL_MODE.MODE ≠ 10 ∧ s.rd GBL_MODE.MODE ≠ 11 ∧ s.rd GBL_MODE.MODE ≠ 8 ∧ descOp d ≠ 0x19 ∧
     kderForm (descr [(0, [0x17])]) = false ∧ kderLenOk (descr [(0, [0x01]), (40, [47])]) = false ∧
     (keyStore [] [(GBL_PRES.OPEN, 0, 0, 0)]).present = false ∧ kderForm (descr [(0, [0x1A])]) = true ∧
     (keyStore [] [(GBL_MODE.MODE, 0, 0, 1)]).rd GBL_MODE.MODE = 1) := by decide +kernel
/-- An operation that runs on page 15. -/
def onPage (running : Bool) (op : Byte) : EngineOp :=
  { thread := 0, tag := 1, engine := 1, desc := descr [(0, [op])], colour := 9, warden := false, page := 15, running := running }
def paged (o : EngineOp) : State := { keyStore [] [] with tide := { (keyStore [] []).tide with ops := [o] } }
theorem witness_pages :
    (paged (onPage true 0x14)).tide.ops.filter (fun o => decide (o.page = 15) && decide (0 < 15)) = [onPage true 0x14] ∧
    (paged (onPage true 0x14)).rd KST_STAT.DIP = 0 ∧ (paged (onPage true 0x14)).pageRuns 15 ≠ none ∧
    (keyStore [] [(KST_STAT.DIP, 0, 0, 1)]).rd KST_STAT.DIP = 1 ∧
    (∀ i, i < 16 → (keyStore [] []).pageNext i = none) ∧ (paged (onPage false 0x0A)).pageNext 15 = some (onPage false 0x0A) ∧
    (∀ i, i < 16 → (paged (onPage false 0x0A)).pageNext i ≠ none → i = 15) ∧
    kderInputs 0x0A = false ∧ descOp (onPage false 0x0A).desc < 0x10 ∧ (keyStore [] []).pageRuns 15 = none ∧
    (let v := word [(SPR_PGOWN.EN, 1), (SPR_PGOWN.OWNER, 14)]
     rsvdOk .SPR_PGOWN v = true ∧ SPR_PGOWN.EN.of v = 1 ∧ (keyStore [] []).rd SPR_PGOWN.EN 15 = 1 ∧
     (keyStore [] []).rd SPR_PGOWN.OWNER 15 = SPR_PGOWN.OWNER.of v) ∧
    SPR_PGOWN.OWNER.of (word [(SPR_PGOWN.OWNER, 15)]) = 15 ∧ (keyStore [] []).factory = false ∧
    Tbl.get 0 (paged (onPage true 0x14)).keys.oldOwner 15 = 0 ∧ (paged (onPage true 0x14)).reg .SPR_PGOWN 15 ≠ 0 ∧
    SPR_PGOWN.OWNER.of ((running []).pageOwner 15) ≠ ((running []).requester (.thread 0)).colour := by decide +kernel
/-- An operation with input data, in the Pools and past the memory. -/
def withInput (at' : List Byte) : EngineOp := { onPage true 0x04 with desc := descr [(0, [0x04]), (32, at'), (40, [16])] }
theorem witness_kderInput :
    (let o := withInput [0, 0, 0, 0, 1]
     kderInputs (descOp o.desc) = true ∧ kderLen o.desc ≠ 0 ∧ descOp o.desc < 0x10 ∧
     ((running []).areaRead { o.requester with colour := 9 } (kderIn o.desc) (kderLen o.desc)).1 = .data (List.replicate 16 0)) ∧
    (let o := withInput [0, 0, 0, 0, 0xFF]
     let r := ((running []).areaRead o.requester (kderIn o.desc) (kderLen o.desc)).1
     r = .refused ∨ r = .bus) := by decide +kernel

/-- KeysDerived: DERIVE of each purpose, from a link root or the domain secret, and its refusals. -/
def rooted : State := keyStore [(2, 1023, rootKey (List.replicate 32 1)), (3, 2, rootKey (List.replicate 32 2))] []
def derive (target parent : Octets) : Octets := descr [(0, [0x01]), (4, target), (16, parent), (40, [48])]
theorem witness_derive :
    (let link := [0xFF, 0x03, 0, 0x80]
     let l1 := derive [0x7F, 0x16, 0, 0x40] link
     let sa := derive [0xFF, 0xFF, 3, 0] link
     let gp := derive [0xFF, 0x0F, 0x20, 0xC0] [2, 0, 0, 0xC0]
     handleClass (descObject l1) = 1 ∧ handleIndex (descObject l1) = 5759 ∧ handleClass (descObject sa) = 0 ∧
     handleIndex (descObject sa) = 262143 ∧ handleClass (descObject gp) = 3 ∧ handleIndex (descObject gp) = 0x200FFF ∧
     handleClass (descField l1 16 4) = 2 ∧ handleIndex (descField l1 16 4) = 1023 ∧ handleClass (descField gp 16 4) = 3 ∧
     handleIndex (descField gp 16 4) = 2 ∧ slotIndexValid 1 5759 = true ∧ slotIndexValid 0 262143 = true ∧
     slotIndexValid 3 0x200FFF = true ∧ slotIndexValid 2 1023 = true ∧ slotIndexValid 1 5760 = false ∧
     rooted.keyMissing (descField l1 16 4) 1 = false ∧ rooted.keyMissing (descField gp 16 4) 1 = false ∧
     (keyStore [] []).keyMissing (descField l1 16 4) 1 = true ∧
     ([(1, 5759), (0, 262143), (3, 0x200FFF)].all fun e => !rooted.slotInUse e.1 e.2 && !rooted.usable e.1 e.2) = true ∧
     rooted.otherWays 262143 < 2 ∧ rooted.rd KST_STAT.SWEEP ≠ 1 ∧
     beNat (slice (contextLabel 0x40 0 0 0 []) 0 4) = 0x40 ∧ (contextLabel 0x40 0 0 0 []).length = 48) ∧
    (let full := keyStore [(0, 0, rootKey [1]), (0, 1, rootKey [1])] []
     full.usable 0 0 = true ∧ 2 ≤ full.otherWays 2) ∧
    (withRecs rooted [(SC.DRAIN, 65535, 1)]).slotInUse 0 262143 = true ∧
    (let s := keyStore [(0, 5, { rootKey [1] with parent := 2 * 2 ^ 30 + 2 ^ 24 })] [(KST_STAT.SWEEP, 0, 0, 1)]
     s.rd KST_STAT.SWEEP = 1 ∧ (s.kslot 0 5).valid = true ∧ s.usable 0 5 = false) := by decide +kernel
/-- KeysDerived: general-purpose keys; the vectors of RFC 4493 and RFC 3394 pass their checks. -/
def vectorKey : Octets := hex 16 0x000102030405060708090A0B0C0D0E0F
def vectorWrap : Octets := hex 24 0x1FA68B0A8112B447AEF34BD8FB5A7B829D3E862371D2CFE5
def cmacKey : Octets := hex 16 0x2B7E151628AED2A6ABF7158809CF4F3C
def cmacData : Octets := hex 16 0x6BC1BEE22E409F96E93D7E117393172A
def cmacTag : Octets := hex 16 0x070A16B46B4D4144F79BDD9DD04A287C
theorem witness_general :
    (let s := keyStore [(3, 0x200FFF, rootKey cmacKey)] []
     let d := descr [(0, [0x05]), (16, [0xFF, 0x0F, 0x20, 0xC0]), (40, [16]), (48, cmacTag)]
     descOp d = 5 ∧ descObject d = 0 ∧ slotIndexValid (handleClass (descField d 16 4)) (handleIndex (descField d 16 4)) = true ∧
     handleClass (descField d 16 4) = 3 ∧ 0x200000 ≤ handleIndex (descField d 16 4) ∧ s.keyMissing (descField d 16 4) (kderBlocks d) = false ∧
     (s.kslot 3 0x200FFF).octets = cmacKey ∧ generalData d cmacKey cmacData = some [] ∧ slice d 48 16 = cmacTag) := by
  decide +kernel
theorem witness_generalFails :
    generalData (descr [(0, [0x05])]) cmacKey cmacData = none ∧ ¬(0x200000 ≤ handleIndex 0xC0000002) := by decide +kernel
theorem witness_unwrap : Crypto.keyUnwrap vectorKey vectorWrap ≠ none ∧ Crypto.keyUnwrap vectorKey (hex 24 0) = none := by
  constructor
  · rw [vectorKey, vectorWrap, test_keyUnwrap]; nofun
  · decide +kernel

/-- KeysDerived: the MKA operations of CAK slot 255. -/
def caked : State :=
  keyStore [(3, 0x800FF, rootKey vectorKey), (3, 0x1001FE, rootKey vectorKey), (3, 0x1001FF, rootKey cmacKey)] []
theorem witness_mka :
    (let s := keyStore [(3, 0x800FF, rootKey vectorKey)] []
     s.usable 3 (0x80000 + 255) = true ∧ s.usable 3 (0x100000 + 2 * 255) = false ∧ s.usable 3 (0x100000 + 2 * 255 + 1) = false ∧
     (s.kslot 3 (0x80000 + 255)).useEn = false) ∧
    (let d := descr [(0, [0x09]), (4, [0xFF, 0xFF, 3, 0]), (20, [255])]
     descOp d = 0x09 ∧ descField d 20 4 = 255 ∧ handleClass (descObject d) = 0 ∧ handleIndex (descObject d) = 262143 ∧
     caked.usable 3 (0x100000 + 2 * 255) = true ∧ (caked.kslot 3 (0x100000 + 2 * 255)).octets = vectorKey ∧
     caked.slotInUse 0 262143 = false ∧ caked.usable 0 262143 = false ∧ caked.otherWays 262143 < 2) ∧
    (let d := descr [(0, [0x0C]), (20, [255]), (48, cmacTag)]
     descOp d = 0x0C ∧ descObject d = 0 ∧ descField d 20 4 = 255 ∧ caked.usable 3 (0x100000 + 2 * 255 + 1) = true ∧
     Crypto.cmac (caked.kslot 3 (0x100000 + 2 * 255 + 1)).octets cmacData = slice d 48 16) ∧
    256 ≤ descField (descr [(20, [0, 1])]) 20 4 ∧ State.reset.usable 3 0x100000 = false := by decide +kernel

/-- KeysExchanged: an initiator and a responder, each with a session, and none. -/
def sessioned (x : Session) : State := (keyStore [(3, 4, rootKey cmacKey), (3, 3, rootKey cmacKey)] []).setSession 63 (some x)
def session (initiator : Bool) : Session :=
  { initiator := initiator, session := 7, slot := 1023, iId := 5, init := [], kconf := cmacKey, opened := 0,
    auth := 3 * 2 ^ 30 + 4 }
theorem witness_unrexStart :
    (let s := sessioned (session false)
     let d := descr [(0, [0x10]), (4, [0xFF, 0x03, 0, 0x80])]
     descOp d = 0x10 ∧ handleClass (descObject d) = 2 ∧ handleIndex (descObject d) = 1023 ∧ s.rd KST_CISTAT.DS_VALID = 1 ∧
     s.freeSession = some 0 ∧ s.slotInUse 2 1023 = false ∧ s.usable 2 1023 = false ∧ s.usable 3 4 = true ∧
     State.reset.rd KST_CISTAT.DS_VALID = 0 ∧ State.reset.usable 3 4 = false) ∧
    (sessioned (session false)).unrexBad 1 (List.replicate 1741 0) = true ∧ (List.replicate 1741 (0 : Byte)).length = 1741 := by
  decide +kernel
theorem witness_unrexEnd :
    (let s := sessioned (session false)
     let d := descr [(0, [0x13]), (20, [63])]
     let conf := cmacData ++ cmacTag
     descOp d = 0x13 ∧ descObject d = 0 ∧ descField d 20 4 = 63 ∧ s.session 63 = some (session false) ∧
     (session false).slot < 1024 ∧ conf.length = 32 ∧ s.rd KST_CISTAT.DS_VALID = 1 ∧ (session false).initiator = false ∧
     s.handle 3 4 = (session false).auth ∧ s.usable 3 4 = true ∧
     Crypto.cmac (session false).kconf ((session false).init ++ (session false).resp ++ conf.take 16) = conf.drop 16) ∧
    (sessioned (session true)).session 63 = some (session true) ∧ (session true).initiator = true ∧
    (keyStore [] []).session 63 = none ∧
    (sessioned (session true)).unrexBad 2 (List.replicate 1741 0) = true ∧
    3000000000 < (3000000001#64 - (session true).opened).toNat ∧ (3000000000#64 - (session true).opened).toNat ≤ 3000000000 ∧
    descOp (descr [(0, [0x14])]) = 0x14 := by decide +kernel
theorem witness_imports :
    (let s := sessioned (session true)
     s.usable 3 3 = true ∧ s.rd KST_CISTAT.DS_VALID = 1 ∧ s.usable 3 2 = false ∧ s.usable 3 0 = false ∧
     (keyStore [(3, 0, rootKey vectorKey)] []).usable 3 0 = true ∧ State.reset.usable 3 3 = false) ∧
    (let d := descr [(0, [0x19]), (20, [255])]
     let data : Octets := List.replicate 1568 0 ++ [32] ++ List.replicate 72 0
     descOp d = 0x19 ∧ descField d 20 4 = 255 ∧ beNat (slice data 1568 1) = 32) ∧
    (let r : CakRec := { short := true, cknLen := 1, ckn := [1], wrapped := [] }
     let s := caked.setCaks [(255, some r)]
     Tbl.get none s.cistern.caks 255 = some r ∧ r.bad = false ∧
     Tbl.get none s.cistern.caks (descField (descr [(0, [0x1A]), (20, [255])]) 20 4) ≠ none) ∧
    Tbl.get none State.reset.cistern.caks 0 = none := by decide +kernel
theorem witness_rising : Tbl.rising 0 State.reset.keys.slots ∧ Tbl.rising 0 (State.reset.setKslot 0 5 (rootKey [1])).keys.slots :=
  ⟨trivial, ⟨Nat.zero_le _, trivial⟩⟩

/-- KeyImports, SpringPages: slots that a sweep has still to pass; a record of the Cistern found bad; two keys of one label;
accesses of an owner and of another; two operations on one object. -/
theorem witness_springClauses :
    (let s := keyStore [(3, 4, { rootKey [1] with parent := 2 * 2 ^ 30 + 2 ^ 24 })] [(KST_STAT.SWEEP, 0, 0, 1)]
     s.rd KST_STAT.SWEEP = 1 ∧ (s.kslot 3 4).valid = true ∧ s.usable 3 4 = false ∧ s.rd KST_STAT.DIP = 0) ∧
    (let k := { rootKey vectorKey with parent := 5 }
     (keyStore [(1, 0, k), (1, 1, k)] []).twinLabel 0x40000000 = true ∧ (keyStore [(1, 0, k)] []).twinLabel 0x40000000 = false) ∧
    descRes (onPage true 0x14).desc = 0 ∧
    (SPR_PGOWN.OWNER.of ((keyStore [] [(HIF_CTL.HCOLOUR, 0, 0, 14)]).pageOwner 15) =
      ((keyStore [] [(HIF_CTL.HCOLOUR, 0, 0, 14)]).requester .host).colour ∧
     SPR_PGOWN.OWNER.of ((keyStore [] []).pageOwner 15) ≠ ((keyStore [] []).requester .host).colour) ∧
    8 * 255 < (SpringPage.part {} 0).length ∧ ¬8 * 255 < (SpringPage.part {} 3).length ∧
    (let r : CakRec := { short := true, cknLen := 1, ckn := [1], wrapped := [], bad := true }
     Tbl.get none (caked.setCaks [(255, some r)]).cistern.caks 255 = some r ∧ r.bad = true) ∧
    (onPage true 0x01).engine = 1 ∧ descOp (onPage true 0x01).desc = 0x01 ∧ ¬256 ≤ (256 : Fin 257).val - 1 ∧
    (let s := (keyed (withFields []) 262140).setKslot 0 262140
       { key := List.replicate 32 1, valid := true, parent := rootParent, useEn := true, use := 4 }
     s.usable 0 262140 = true ∧ s.rxSc (262140 / 4) = false ∧ (s.rwr SA.NEXT_PN 262140 5).lastPn 262140 < (s.rwr SA.NEXT_PN 262140 5).nextPn 262140 ∧
     s.rrd SA.EXHAUST 262140 = 0) := by decide +kernel

/-- KeyStoreCommands: handles that name a slot and do not, of each class; modes; dips; a sweep. -/
def asked (h use : Nat) (l : List (Nat × Nat × KeySlot)) (fs : List (Field × Nat × Nat × Nat)) : State :=
  ((keyStore l fs).setReg .KST_DATA (BitVec.ofNat 64 h) 0).setReg .KST_DATA (BitVec.ofNat 64 use) 1
theorem witness_kst :
    (let s := asked (3 * 2 ^ 30 + 0x200FFF) 5 [(3, 0x200FFF, rootKey [1])] []
     let h := (s.reg .KST_DATA 0).toNat % 2 ^ 32
     handleClass h = 3 ∧ handleIndex h = 0x200FFF ∧ slotIndexValid 3 0x200FFF = true ∧ (s.kslot 3 0x200FFF).gen = handleGen h ∧
     (s.kslot 3 0x200FFF).valid = true ∧ (s.kslot 3 0x200FFF).useEn = false ∧ s.slotInUse 3 0x200FFF = false ∧
     s.rd KST_STAT.SWEEP ≠ 1 ∧ s.rd GBL_MODE.MODE = 4 ∧ s.rd KST_CMD.BUSY = 0 ∧ s.rd KST_STAT.DIP = 0) ∧
    (let s := asked (262143) 5 [(0, 262143, { rootKey [1] with useEn := true, use := 4 })] []
     let h := (s.reg .KST_DATA 0).toNat % 2 ^ 32
     handleClass h = 0 ∧ handleIndex h = 262143 ∧ (s.kslot 0 262143).gen = handleGen h ∧ (s.kslot 0 262143).useEn = true ∧
     (s.kslot 0 262143).use < (s.reg .KST_DATA 1).toNat) ∧
    slotIndexValid (handleClass (2 ^ 30 + 5760)) (handleIndex (2 ^ 30 + 5760)) = false ∧
    (withRecs (asked 262143 0 [] []) [(SC.DRAIN, 65535, 1)]).slotInUse 0 262143 = true ∧
    (asked 8 0 [] []).rd KST_CMD.BUSY = 0 ∧ ((asked 8 0 [] []).reg .KST_DATA 0).toNat % 64 = 8 ∧
    ((asked 7 0 [] []).reg .KST_DATA 0).toNat % 64 < 8 ∧ (asked 0 0 [] [(GBL_MODE.MODE, 0, 0, 10)]).rd GBL_MODE.MODE = 10 ∧
    (asked 0 0 [] [(KST_CMD.BUSY, 0, 0, 1)]).rd KST_CMD.BUSY = 1 ∧ (asked 0 0 [] [(KST_STAT.DIP, 0, 0, 1)]).rd KST_STAT.DIP = 1 := by
  decide +kernel
/-- A sweep with a key that stays, and one whose parent has gone. -/
def swept : State :=
  keyStore [(2, 0, rootKey [1]), (0, 5, { rootKey [1] with parent := 2 * 2 ^ 30 }), (0, 9, { rootKey [1] with parent := 2 * 2 ^ 30 + 2 ^ 24 })]
    [(KST_STAT.SWEEP, 0, 0, 1)]
theorem witness_sweep :
    swept.rd KST_STAT.SWEEP = 1 ∧ (∀ e ∈ swept.keys.slots, e.1 < 2 ^ 26) ∧ swept.usable 0 5 = true ∧
    (swept.kslot 0 9).valid = true ∧ (swept.kslot 0 9).parent ≠ 0xFFFFFFFF ∧
    (swept.kslot 2 0).gen ≠ handleGen (swept.kslot 0 9).parent ∧ (swept.kslot 0 0).valid = false ∧
    State.reset.rd KST_STAT.SWEEP = 0 ∧ swept.keys.slots.map (·.1) = [5, 9, 2 * 2 ^ 24] := by decide +kernel
theorem witness_sweepRises : Tbl.rising 0 swept.keys.slots := by
  have h : swept.keys.slots = swept.keys.slots.take 3 := by decide +kernel
  rw [h]
  exact ⟨by decide +kernel, by decide +kernel, by decide +kernel, trivial⟩

/-! ### Witnesses: Culvert -/

/-- Range 7 over all but the lowest MiB, of a type, served, with fields set. -/
def ranged (ty : Nat) (fs : List (Field × Nat × Nat × Nat)) : State :=
  withFields ([(CUL_RNG.EN, 7, 0, 1), (CUL_RNG.TYPE, 7, 0, ty), (CUL_RNG.BASE_MB, 7, 0, 1), (CUL_RNG.SIZE_MB, 7, 0, 65534),
    (CUL_RNG.READY, 7, 0, 1)] ++ fs)
/-- The last sector, as its words are stored. -/
def lastSector : Nat := 2 ^ 28 - 1
def storedAs (s : State) (ws : List (BitVec 80)) : State := s.setCulRaw lastSector ws

/-- CulvertAccesses: outside the memory and the ranges; a range that serves, of each type, and one that does not. -/
theorem witness_serves :
    ([1, 2, 3].all fun ty => decide ((ranged ty []).rangeAt (lastSector * 256) = some 7 ∧ (ranged ty []).rd CUL_RNG.READY 7 = 1 ∧
      (ranged ty []).rd CUL_RSTAT.DEAD 7 = 0)) = true ∧
    (ranged 1 []).rangeAt (4095 * 256) = none ∧ (ranged 1 [(CUL_RSTAT.DEAD, 7, 0, 1)]).rd CUL_RSTAT.DEAD 7 = 1 ∧
    (List.replicate 256 (0 : Byte)).length = 256 ∧ 255 + 1 ≤ 256 := by decide +kernel
theorem witness_poisoned :
    (let s := ranged 2 []
     State.culPoisoned { s with culvert := { s.culvert with poison := [lastSector] } } 7 lastSector = true) ∧
    ([2, 3].all fun ty => !(storedAs (ranged ty []) (List.replicate 32 0)).culPoisoned 7 lastSector) = true ∧
    (ranged 1 []).culPoisoned 7 lastSector = false ∧
    (let s := (ranged 3 []).setRange 7 { damaged := [(2, (lastSector - 4096) / 64)] }
     s.rd CUL_RNG.TYPE 7 = 3 ∧ s.culDamaged 7 lastSector = true) ∧
    (storedAs (ranged 3 []) (List.replicate 32 0)).culDamaged 7 lastSector = false ∧
    (ranged 3 []).rangeSector 7 lastSector < 2 ^ 28 ∧
    (let s := (ranged 3 []).setRange 7 { ctr := [((lastSector - 4096), 2 ^ 56)] }
     (s.range 7).sectorCtr (s.rangeSector 7 lastSector) = 2 ^ 56 - 1) ∧
    (let x := (ranged 3 []).range 7
     x.sectorCtr (lastSector - 4096) ≠ 2 ^ 56 - 1 ∧ ∀ k, k < 11 → x.nodeCtr k ((lastSector - 4096) / 8 ^ k) ≠ 2 ^ 56 - 1) := by
  decide +kernel
theorem witness_words :
    Crypto.bchDecode (Crypto.bchEncode (2 ^ 66 - 1)) = some (Crypto.bchEncode (2 ^ 66 - 1), false) ∧
    Crypto.bchDecode 1 = some (0, true) ∧
    lastSector * 32 + 31 ∉ (ranged 2 []).culvert.corrected ∧
    (ranged 2 []).culvert.poison.length < 65536 ∧
    setAt ((storedAs (ranged 2 []) [7]).culRaw 7 lastSector) 0 0 ≠ [] := by decide +kernel
/-- CulvertAccesses: an uncorrectable word. Syndromes are linear, so the pairs of errors come from the single ones. -/
theorem witness_bchRem (n x y : Nat) : Crypto.bchRem n (x ^^^ y) = Crypto.bchRem n x ^^^ Crypto.bchRem n y := by
  induction n generalizing x y with
  | zero => rfl
  | succ n ih =>
    simp only [Crypto.bchRem, Nat.testBit_xor, ← ih]
    cases x.testBit (n + 14) <;> cases y.testBit (n + 14)
    · rfl
    · exact congrArg (Crypto.bchRem n) (Nat.xor_assoc ..)
    · exact congrArg (Crypto.bchRem n) (by simp only [Bool.xor_false, if_true, Bool.false_eq_true, if_false]; ac_rfl)
    · refine congrArg (Crypto.bchRem n) ?_
      simp only [Bool.xor_self, Bool.false_eq_true, if_false, if_true]
      rw [show (x ^^^ Crypto.bchGen * 2 ^ n) ^^^ (y ^^^ Crypto.bchGen * 2 ^ n) =
        (x ^^^ y) ^^^ (Crypto.bchGen * 2 ^ n ^^^ Crypto.bchGen * 2 ^ n) by ac_rfl, Nat.xor_self, Nat.xor_zero]
def singles : List Nat := (List.range 14).map (2 ^ ·) ++ (List.range 66).map fun k => Crypto.bchSyndrome (2 ^ (14 + k))
theorem witness_noPair : (singles.all fun a => !(a == 7) && singles.all fun b => !(a ^^^ b == 7)) = true := by
  decide +kernel
theorem witness_single : ∀ i, i < 80 → Crypto.bchSyndrome (2 ^ i) ∈ singles := by decide +kernel
theorem witness_pairs : ∀ i, i < 80 → ∀ j, j < i → 2 ^ j + 2 ^ i = 2 ^ j ^^^ 2 ^ i := by decide +kernel
theorem witness_uncorrectable : Crypto.bchDecode 7 = none := by
  have h := List.all_eq_true.mp witness_noPair
  have s : Crypto.bchSyndrome 7 = 7 := by decide +kernel
  have one : ∀ i, i < 80 → ¬Crypto.bchSyndrome (2 ^ i) = 7 := by
    intro i hi e
    have := h _ (witness_single i hi)
    simp [e] at this
  have two : ∀ i, i < 80 → ∀ j, j < i → ¬Crypto.bchSyndrome (2 ^ j + 2 ^ i) = 7 := by
    intro i hi j hj e
    rw [witness_pairs i hi j hj, Crypto.bchSyndrome, witness_bchRem] at e
    have a := (Bool.and_eq_true _ _).mp (h _ (witness_single j (by omega)))
    have b := List.all_eq_true.mp a.2 _ (witness_single i hi)
    simp [Crypto.bchSyndrome, e] at b
  have f : Crypto.bchFind 7 = none := by
    have g : (Crypto.single 80).find? (fun e => Crypto.bchSyndrome e == 7) = none := by
      simp only [List.find?_eq_none, Crypto.single, List.mem_map, List.mem_range]
      rintro _ ⟨i, hi, rfl⟩
      simpa using one i hi
    unfold Crypto.bchFind
    rw [g]
    simp only [List.findSome?_eq_none_iff, List.mem_range, Crypto.single, List.mem_map]
    rintro i hi _ ⟨j, hj, rfl⟩
    simpa using two i hi j hj
  simp [Crypto.bchDecode, s, f]

/-- CulvertAccesses: sealed sectors of ciphertext zero, whose tag matches, and whose tag does not. -/
theorem witness_fix (s : State) (r sec req : Nat) (l : List Nat)
    (h : ∀ w ∈ l, Crypto.bchDecode ((s.culRaw r sec).getD w 0) = some ((s.culRaw r sec).getD w 0, false)) :
    s.culFix r sec req l = (some (l.map ((s.culRaw r sec).getD · 0)), s) := by
  induction l with
  | nil => rfl
  | cons w t ih =>
    have e : s.culFixWord r sec w req = (some ((s.culRaw r sec).getD w 0), s) := by
      simp only [State.culFixWord, h w (List.mem_cons_self ..)]
    simp only [State.culFix, e, ih fun x hx => h x (List.mem_cons_of_mem _ hx), List.map_cons]
/-- The word of ciphertext zero that carries two bits of a tag. -/
def tagWord (q : Nat) : BitVec 80 := Crypto.bchEncode (q * 2 ^ 64)
def tagWords (n T : Nat) : List (BitVec 80) := (List.range n).map fun w => tagWord (T / 4 ^ w % 4)
theorem witness_tagWord : ∀ q, q < 4 → Crypto.bchDecode (tagWord q) = some (tagWord q, false) ∧
    (tagWord q).toNat / 2 ^ 64 % 4 = q ∧ (tagWord q).toNat % 2 ^ 64 = 0 := by decide +kernel
theorem witness_wordTag_cons (w : BitVec 80) (l : List (BitVec 80)) :
    wordTag (w :: l) = wordTag l * 4 + w.toNat / 2 ^ 64 % 4 := rfl
theorem witness_wordTag (n T : Nat) : wordTag (tagWords n T) = T % 4 ^ n := by
  induction n generalizing T with
  | zero => simp [tagWords, wordTag, Nat.mod_one]
  | succ n ih =>
    have e : tagWords (n + 1) T = tagWord (T % 4) :: tagWords n (T / 4) := by
      simp [tagWords, List.range_succ_eq_map, Nat.div_div_eq_div_mul, Nat.pow_succ', Function.comp_def]
    have h := (witness_tagWord (T % 4) (Nat.mod_lt _ (by decide))).2.1
    rw [e, witness_wordTag_cons, ih, h, Nat.pow_succ', Nat.mod_mul]
    omega
theorem witness_wordData (T : Nat) : wordData (tagWords 32 T) = List.replicate 256 0 := by
  have h : (tagWords 32 T).map (fun w => leBytes 8 (w.toNat % 2 ^ 64)) = (List.range 32).map fun _ => leBytes 8 0 := by
    simp only [tagWords, List.map_map]
    refine List.map_congr_left fun w _ => ?_
    simp only [Function.comp_apply, (witness_tagWord _ (Nat.mod_lt (T / 4 ^ w) (by decide : 0 < 4))).2.2]
  rw [wordData, h]
  decide +kernel
/-- The last sector holding ciphertext zero and a tag. -/
def tagged (T : Nat) : State := storedAs (ranged 2 []) (tagWords 32 T)
theorem witness_raw (ws : List (BitVec 80)) (h : ws ≠ []) : (storedAs (ranged 2 []) ws).culRaw 7 lastSector = ws := by
  have e : (ranged 2 []).culvert.sectors = [] := by decide +kernel
  have g : Tbl.get [] (storedAs (ranged 2 []) ws).culvert.sectors lastSector = ws := by
    simp only [storedAs, State.setCulRaw, e]
    simp [Tbl.set, Tbl.put, Tbl.get, h]
  unfold State.culRaw
  rw [g]
  split
  · contradiction
  · rfl
theorem witness_tagged (T : Nat) :
    (tagged T).culFix 7 lastSector 9 (List.range 32) = (some (tagWords 32 T), tagged T) := by
  have n : (tagWords 32 T).length = 32 := by simp [tagWords]
  have e : (tagged T).culRaw 7 lastSector = tagWords 32 T := witness_raw _ (by intro h; simp [h] at n)
  have g : ∀ w, w < 32 → (tagWords 32 T).getD w 0 = tagWord (T / 4 ^ w % 4) := by
    intro w hw
    simp [tagWords, List.getD, hw]
  rw [witness_fix, e]
  · refine congrArg (fun x => (some x, tagged T)) (List.map_congr_left fun w hw => ?_)
    exact g w (List.mem_range.mp hw)
  · rw [e]
    intro w hw
    rw [g w (List.mem_range.mp hw)]
    exact (witness_tagWord _ (Nat.mod_lt _ (by decide))).1
theorem witness_storedAs (s : State) (ws : List (BitVec 80)) :
    (storedAs s ws).range 7 = s.range 7 ∧ (storedAs s ws).rd CUL_RNG.TYPE 7 = s.rd CUL_RNG.TYPE 7 ∧
    (storedAs s ws).culT 7 lastSector ((storedAs s ws).culF 7 lastSector { req := 9 }) =
      s.culT 7 lastSector (s.culF 7 lastSector { req := 9 }) := ⟨rfl, rfl, rfl⟩
theorem witness_leNat (l : Octets) : leNat l < 256 ^ l.length := by
  induction l with
  | nil => decide
  | cons b t ih => simp only [leNat, List.length_cons, Nat.pow_succ']; have := b.isLt; omega
theorem witness_culTag (k c : Octets) (t : Nat) : culTag k c t < 2 ^ 64 :=
  Nat.lt_of_lt_of_le (witness_leNat _) (Nat.pow_le_pow_right (by decide) (List.length_take_le ..))
/-- The tag of ciphertext zero in the last sector. -/
def zeroTag : Nat :=
  culTag ((ranged 2 []).range 7).k3 (List.replicate 256 0)
    ((ranged 2 []).culT 7 lastSector ((ranged 2 []).culF 7 lastSector { req := 9 }))
theorem witness_type : (ranged 2 []).rd CUL_RNG.TYPE 7 ≠ 1 := by decide +kernel
theorem witness_tagFits : ∃ (s : State) (ws : List (BitVec 80)) (b : State), s.rd CUL_RNG.TYPE 7 ≠ 1 ∧
    s.culFix 7 lastSector 9 (List.range 32) = (some ws, b) ∧
    wordTag ws = culTag (s.range 7).k3 (wordData ws) (s.culT 7 lastSector (s.culF 7 lastSector { req := 9 })) := by
  have h := witness_storedAs (ranged 2 []) (tagWords 32 zeroTag)
  have l : zeroTag < 4 ^ 32 := witness_culTag ..
  refine ⟨tagged zeroTag, _, _, ?_, witness_tagged _, ?_⟩
  · rw [tagged, h.2.1]; exact witness_type
  · rw [tagged, h.1, h.2.2, witness_wordTag, witness_wordData, Nat.mod_eq_of_lt l, zeroTag]
theorem witness_tagDiffers : ∃ (s : State) (ws : List (BitVec 80)) (b : State), s.rd CUL_RNG.TYPE 7 ≠ 1 ∧
    s.culFix 7 lastSector 9 (List.range 32) = (some ws, b) ∧
    wordTag ws ≠ culTag (s.range 7).k3 (wordData ws) (s.culT 7 lastSector (s.culF 7 lastSector { req := 9 })) := by
  have h := witness_storedAs (ranged 2 []) (tagWords 32 (zeroTag + 1))
  have l : zeroTag < 4 ^ 32 := witness_culTag ..
  have n : (zeroTag + 1) % 4 ^ 32 ≠ zeroTag := by omega
  refine ⟨tagged (zeroTag + 1), _, _, ?_, witness_tagged _, ?_⟩
  · rw [tagged, h.2.1]; exact witness_type
  · rw [tagged, h.1, h.2.2, witness_wordTag, witness_wordData]
    exact n
theorem witness_open (s : State) (r sec : Nat) (p : CulPort) (k : Bool)
    (h : (s.culFix r sec p.req (List.range 32)).1 = none) (n : s.rangeType r ≠ 1) : (s.culOpen r sec p [] k).1 = none := by
  obtain ⟨b, e⟩ := pair_of h
  unfold State.culOpen
  dsimp only
  rw [if_neg n, e]
theorem witness_fixNone (s : State) (r sec req w : Nat) (l : List Nat)
    (h : Crypto.bchDecode ((s.culRaw r sec).getD w 0) = none) : (s.culFix r sec req (w :: l)).1 = none := by
  obtain ⟨b, e⟩ : ∃ b, s.culFixWord r sec w req = (none, b) := by
    unfold State.culFixWord
    dsimp only
    rw [h]
    exact ⟨_, rfl⟩
  simp only [State.culFix, e]
theorem witness_rmw : ((storedAs (ranged 2 []) [7]).culOpen 7 lastSector { req := 9 } [] false).1 = none := by
  have h : Crypto.bchDecode (((storedAs (ranged 2 []) [7]).culRaw 7 lastSector).getD 0 0) = none := by
    have g : ([7] : List (BitVec 80)).getD 0 0 = 7 := rfl
    rw [witness_raw [7] (by simp), g]
    exact witness_uncorrectable
  have e : List.range 32 = 0 :: List.range' 1 31 := by decide
  refine witness_open _ _ _ _ _ ?_ (by decide +kernel)
  rw [e]
  exact witness_fixNone _ _ _ _ _ _ h

/-- CulvertCommands: the scrubber off, with nothing to read, and at the end of its areas. -/
theorem witness_scrub :
    (withFields [(CUL_CTL.SCRUB_EN, 0, 0, 1)]).rd CUL_CTL.SCRUB_EN = 1 ∧
    (let s := withFields [(CUL_CTL.SCRUB_EN, 0, 0, 0)]
     s.rd CUL_CTL.SCRUB_EN = 0) ∧ nextScrub State.reset.scrubAreas 0 = none ∧
    nextScrub (ranged 1 []).scrubAreas lastSector = some lastSector ∧ nextScrub (ranged 1 []).scrubAreas (2 ^ 28) = some 4096 := by
  decide +kernel
/-- Range 0 next to range 7, with its key. -/
def rangeKeyed (fs : List (Field × Nat × Nat × Nat)) : State :=
  (ranged 1 ([(CUL_CTL.TREE_EN, 0, 0, 1), (CUL_RNG.SIZE_MB, 7, 0, 1023)] ++ fs)).setKslot 3 0x10
    { key := List.replicate 32 1, valid := true, parent := rootParent }
theorem witness_ranges :
    (let s := rangeKeyed [(CUL_RTREE.TREE_BASE_MB, 0, 0, 1025)]
     let size := treeAreaMb 4096
     s.rd CUL_RNG.EN 0 ≠ 1 ∧ s.usable 3 (0x10 + (0 : RangeNo).val) = true ∧ s.rd CUL_RSTAT.ENABLES 0 ≠ 65535 ∧
     s.rd CUL_CTL.TREE_EN ≠ 0 ∧ size = 0 ∧
     (∀ ty, ty = 1 ∨ ty = 2 ∨ ty = 3 →
       let v := word [(CUL_RNG.EN, 1), (CUL_RNG.TYPE, ty)]
       rsvdOk .CUL_RNG v = true ∧ CUL_RNG.EN.of v = 1 ∧ CUL_RNG.TYPE.of v = ty ∧ CUL_RNG.BASE_MB.of v = 0) ∧
     ∀ q, q < 8 → q ≠ 0 → s.rd CUL_RNG.EN q = 1 → (s.rangeMb q).any (fun b => decide (0 < b.2 ∧ b.1 < 1)) = false) ∧
    (rangeKeyed [(CUL_RSTAT.ENABLES, 0, 0, 65535)]).rd CUL_RSTAT.ENABLES 0 = 65535 ∧
    State.reset.usable 3 (0x10 + (7 : RangeNo).val) = false ∧
    65536 < CUL_RNG.BASE_MB.of (word [(CUL_RNG.BASE_MB, 65535)]) + (CUL_RNG.SIZE_MB.of (word [(CUL_RNG.SIZE_MB, 1)]) + 1) := by
  refine ⟨⟨by decide +kernel, by decide +kernel, by decide +kernel, by decide +kernel, by decide +kernel, ?_, by decide +kernel⟩,
    by decide +kernel⟩
  rintro ty (rfl | rfl | rfl) <;> decide +kernel
theorem witness_rangeWrites :
    (let s := ranged 1 []
     let same := word [(CUL_RNG.EN, 1), (CUL_RNG.TYPE, 1), (CUL_RNG.BASE_MB, 1), (CUL_RNG.SIZE_MB, 65534)]
     let off := word [(CUL_RNG.TYPE, 1), (CUL_RNG.BASE_MB, 1), (CUL_RNG.SIZE_MB, 65534)]
     let named := [CUL_RNG.TYPE, CUL_RNG.COLOURS, CUL_RNG.SIZE_MB, CUL_RNG.BASE_MB]
     s.rd CUL_RNG.EN 7 = 1 ∧ (named.all fun f => decide (f.of same = s.rd f 7 ∧ f.of off = s.rd f 7)) = true ∧
     CUL_RNG.EN.of same = 1 ∧ CUL_RNG.EN.of off ≠ 1 ∧ rsvdOk .CUL_RNG off = true ∧
     CUL_RNG.TYPE.of (word [(CUL_RNG.TYPE, 2)]) ≠ s.rd CUL_RNG.TYPE 7) ∧ rsvdOk .CUL_RNG (BitVec.allOnes 64) = false ∧
    (((ranged 1 []).setRange 7 { closing := true }).range 7).closing = true ∧ ((ranged 1 []).range 7).closing = false ∧
    (let v := word [(CUL_CTL.TREE_EN, 1)]
     rsvdOk .CUL_CTL v = true ∧ CUL_CTL.TREE_EN.of v ≠ State.reset.rd CUL_CTL.TREE_EN ∧ (ranged 3 []).rd CUL_RNG.TYPE 7 = 3) ∧
    rsvdOk .CUL_BW (word [(CUL_BW.PEAK_CLR, 1)]) = true := by decide +kernel
/-- CulvertCommands: the scrubber within a range and outside every one. -/
theorem witness_scrubbed :
    (ranged 2 []).rangeAt (lastSector * 256) ≠ none ∧ (ranged 2 []).rangeAt (7 * 256) = none := by decide +kernel

/-! ### Witnesses: Sounding -/

/-- Schedule 63 ready to be enabled: its ring of two slots, its list at the base of Pool 0, which Sounding owns. -/
def sounded (fs : List (Field × Nat × Nat × Nat)) : State :=
  withFields ([(SND_RINGIDX.SLOT_SZ, 63, 0, 2), (SND_RINGIDX.SLOTS, 63, 0, 2), (POOL_OWN.OWNER, 0, 0, 2)] ++ fs)
/-- The word that enables it against the Gauge of a group. -/
def dumpOn (g : Nat) : Word := word [(SND_SCFG.EN, 1), (SND_SCFG.SEL, g), (SND_SCFG.PERIOD, 1), (SND_SCFG.ENTRIES, 1)]

/-- SoundingRegisters: a schedule that is enabled, with words that change a field, that change none, and that end it. -/
theorem witness_scheduleOn :
    (let s := (sounded []).setReg .SND_SCFG (dumpOn 17) 63
     s.rd SND_SCFG.EN 63 = 1 ∧ rsvdOk .SND_SCFG (dumpOn 16) = true ∧
     ChangesField s .SND_SCFG 63 (dumpOn 16) (schedFree 0) ∧ ¬ChangesField s .SND_SCFG 63 (dumpOn 17) (schedFree 0) ∧
     ¬ChangesField s .SND_SCFG 63 (SND_SCFG.EN.put 0 (dumpOn 17)) (schedFree 0) ∧
     SND_SCFG.EN.of (SND_SCFG.EN.put 0 (dumpOn 17)) = 0 ∧
     ¬ChangesField s .SND_RINGIDX 63 (word [(SND_RINGIDX.SLOT_SZ, 2), (SND_RINGIDX.SLOTS, 2), (SND_RINGIDX.RD, 1)])
       (schedFree 4)) := by
  unfold ChangesField
  decide +kernel
/-- SoundingRegisters: words that may not enable a schedule, each for one reason; offsets on either side of 16,320; a
first reading that is to come and one that has passed. -/
theorem witness_scheduleOff :
    (let s := sounded []
     s.rd SND_SCFG.EN 63 = 0 ∧ s.line.events.length < 4096 ∧ s.rd SND_RINGIDX.SLOTS 63 = 2 ∧
     s.rd SND_RINGIDX.SLOT_SZ 63 ≠ 0 ∧ selValid (SND_SCFG.SEL.of (dumpOn 18)) = false ∧
     selValid (SND_SCFG.SEL.of (dumpOn 17)) = true ∧ SND_SCFG.PERIOD.of (dumpOn 17) ≠ 0 ∧ SND_SCFG.ENTRIES.of (dumpOn 17) ≠ 0 ∧
     SND_SCFG.PERIOD.of (SND_SCFG.PERIOD.put 0 (dumpOn 17)) = 0 ∧ rsvdOk .SND_SCFG (dumpOn 17) = true ∧
     s.selRuns 17 = false) ∧
    State.reset.rd SND_RINGIDX.SLOTS 63 < 2 ∧
    offsetOf ((sounded []).setReg .SND_SFIRST 16320 63 |>.reg .SND_SFIRST 63) = 16320 ∧
    offsetOf ((sounded []).setReg .SND_SFIRST 16319 63 |>.reg .SND_SFIRST 63) = 16319 ∧
    (let s := sounded [(GAU_STAT.RUN, 17, 0, 1)]
     s.selRuns 17 = true ∧ atOrAfter (s.selReading 17) (s.reg .SND_SFIRST 63) = true ∧
     atOrAfter (s.selReading 17) ((s.setReg .SND_SFIRST 16319 63).reg .SND_SFIRST 63) = false ∧
     ((s.setReg .GAU_READ (reading 3 0) 17).selReading 17 - 0).toNat / (1 * 2 ^ 16) = 3) := by decide +kernel
/-- SoundingRegisters: thresholds enabled and not, occupancies at the ends of their ranges, and words refused. -/
theorem witness_threshold :
    (let w := fun (src ix : Nat) => word [(SND_TCFG.EN, 1), (SND_TCFG.SRC, src), (SND_TCFG.INDEX, ix)]
     let s := withFields [(SND_THIGH.HIGH, 63, 0, 1)]
     rsvdOk .SND_TCFG (w 2 17) = true ∧ s.rd SND_TCFG.EN 63 = 0 ∧ SND_TCFG.EN.of (w 2 17) = 1 ∧
     SND_TCFG.INDEX.of (w 2 17) < 18 ∧ ¬SND_TCFG.INDEX.of (w 2 18) < 18 ∧ SND_TCFG.INDEX.of (w 3 (2 ^ 20 - 1)) < 2 ^ 20 ∧
     SND_TCFG.SRC.of (w 12 0) = 12 ∧ SND_TCFG.SRC.of (w 13 0) = 13 ∧ ¬s.rd SND_THIGH.HIGH 63 ≤ s.rd SND_TLOW.LOW 63 ∧
     State.reset.rd SND_THIGH.HIGH 63 ≤ State.reset.rd SND_TLOW.LOW 63 ∧ Reg.SND_TCFG.rsvdMask = 0) ∧
    (let s := withFields [(SND_TCFG.EN, 63, 0, 1), (SND_TCFG.SRC, 63, 0, 7)]
     s.rd SND_TCFG.EN 63 = 1 ∧ ChangesField s .SND_TCFG 63 (word [(SND_TCFG.EN, 1), (SND_TCFG.SRC, 8)]) (thrFree 0) ∧
     ¬ChangesField s .SND_TCFG 63 (word [(SND_TCFG.SRC, 7), (SND_TCFG.HIT, 1)]) (thrFree 0)) := by
  unfold ChangesField
  decide +kernel
/-- SoundingRegisters: a threshold sampled: armed with the level met and not, and disarmed with the other level met and
not. -/
theorem witness_sample :
    (let t := fun (down armed high low : Nat) => withFields [(SND_TCFG.EN, 63, 0, 1), (SND_TCFG.SRC, 63, 0, 7),
       (SND_TCFG.DOWN, 63, 0, down), (SND_TCFG.ARMED, 63, 0, armed), (SND_THIGH.HIGH, 63, 0, high), (SND_TLOW.LOW, 63, 0, low)]
     let v := fun (s : State) => s.occupancy (s.rd SND_TCFG.SRC 63) (s.rd SND_TCFG.INDEX 63)
     State.reset.rd SND_TCFG.EN 63 = 0 ∧ (t 1 1 1 0).rd SND_TCFG.EN 63 = 1 ∧ (t 1 1 1 0).rd SND_TCFG.ARMED 63 = 1 ∧
     (t 1 1 1 0).rd SND_TCFG.DOWN 63 = 1 ∧ v (t 1 1 1 0) ≤ (t 1 1 1 0).rd SND_TLOW.LOW 63 ∧
     (t 0 1 0 0).rd SND_TCFG.DOWN 63 = 0 ∧ (t 0 1 0 0).rd SND_THIGH.HIGH 63 ≤ v (t 0 1 0 0) ∧
     ¬(t 0 1 1 0).rd SND_THIGH.HIGH 63 ≤ v (t 0 1 1 0) ∧
     (t 0 0 1 0).rd SND_TCFG.ARMED 63 = 0 ∧ v (t 0 0 1 0) ≤ (t 0 0 1 0).rd SND_TLOW.LOW 63 ∧
     ¬(t 1 0 1 0).rd SND_THIGH.HIGH 63 ≤ v (t 1 0 1 0)) := by decide +kernel

/-- A dump of schedule 63 at the head of the queue, with the octets of its list. -/
def dumped (list : Octets) : State :=
  let s := (sounded [(SND_SCFG.EN, 63, 0, 1), (SND_SCFG.ENTRIES, 63, 0, 1)]).setReg .SND_SLIST 0x100000000 63
  let d : DumpReq := { sched := 63, sel := 17, target := 0, late := false, waited := false }
  let t := s.poolWrite 0x100000000 list
  { t with sound := { t.sound with queue := [d] } }
/-- SoundingCommands: nothing to start; a ring that is full; a list that may not be read, one in error, one that is right. -/
theorem witness_dumpStart :
    State.reset.sound.running = none ∧ State.reset.sound.queue = [] ∧
    (let s := dumped [0, 0, 0, 0x20, 1]
     s.sound.running = none ∧ s.sound.queue.length = 1 ∧
     (s.rd SND_RINGIDX.WR 63 + 1) % s.rd SND_RINGIDX.SLOTS 63 ≠ s.rd SND_RINGIDX.RD 63 ∧
     (s.areaRead (s.requester .sounding) (s.reg .SND_SLIST 63).toNat 8).1 = .data [0, 0, 0, 0x20, 1, 0, 0, 0] ∧
     leNat [0, 0, 0, 0x20, 1, 0, 0, 0] = 2 ^ 32 + 0x20000000 ∧ bits (2 ^ 32 + 0x20000000) 47 32 = 1 ∧
     ctrRange 0x20000000 1 = true ∧ 64 + 8 * 1 ≤ 64 * s.rd SND_RINGIDX.SLOT_SZ 63) ∧
    (let s := dumped [0, 0, 0, 0x20, 0]
     (s.areaRead (s.requester .sounding) (s.reg .SND_SLIST 63).toNat 8).1 = .data [0, 0, 0, 0x20, 0, 0, 0, 0] ∧
     bits (leNat [0, 0, 0, 0x20, 0, 0, 0, 0]) 47 32 = 0) ∧
    (let s := (dumped []).wr POOL_OWN.OWNER 1 0
     (s.areaRead (s.requester .sounding) (s.reg .SND_SLIST 63).toNat 8).1 = .refused) ∧
    (let s := (dumped []).wr SND_RINGIDX.RD 1 63
     (s.rd SND_RINGIDX.WR 63 + 1) % s.rd SND_RINGIDX.SLOTS 63 = s.rd SND_RINGIDX.RD 63) := by decide +kernel
/-- SoundingCommands: a dump to host memory that runs, with Bus Master Enable at either value. -/
theorem witness_dumpPublish :
    (let s := dumped []
     let r : DumpRun := { req := { sched := 63, sel := 17, target := 0, late := false, waited := false }, snap := 0, tick := 0,
                          timeValid := false, time := 0, clear := true, host := true, slot := 0, items := [(0x20000000, some 0)] }
     let t : State := { s with sound := { s.sound with running := some r }, host := { s.host with busMaster := true } }
     s.sound.running = none ∧ s.host.busMaster = false ∧ t.sound.running = some r ∧ t.host.busMaster = true ∧ r.host = true ∧
     r.clear = true ∧ r.req.sched < 64 ∧ t.rd SND_RINGIDX.SLOTS 63 ≠ 0) := by decide +kernel
/-- SoundingCommands: slots that are not sampled, that are not yet due, that are due with a sample waiting and without. -/
theorem witness_slotTaken :
    (let s := withFields [(SND_SAMPCTL.EN, 0, 0, 1), (SND_SAMPCORE.CORES, 0, 0, 2 ^ 31), (SND_SAMPCTL.PSHIFT, 0, 0, 1)]
     s.rd SND_SAMPCTL.EN = 1 ∧ (s.rd SND_SAMPCORE.CORES).testBit 31 = true ∧ (s.rd SND_SAMPCORE.CORES).testBit 30 = false ∧
     s.rd SND_SAMPCTL.CAT = 0 ∧ coreOf 255 = 31 ∧ ¬2 ^ s.rd SND_SAMPCTL.PSHIFT ≤ Tbl.get 0 s.sound.slots 31 + 1 ∧
     Tbl.get none s.sound.samples 31 = none ∧
     (let x : SlotRec := { tick := 0, pc := 0, thread := 255, cat := 0, reading := 0 }
      let t : State := { s with sound := { s.sound with slots := [(31, 1)], samples := [(31, some x)] } }
      2 ^ t.rd SND_SAMPCTL.PSHIFT ≤ Tbl.get 0 t.sound.slots 31 + 1 ∧ Tbl.get none t.sound.samples 31 = some x)) ∧
    State.reset.rd SND_SAMPCTL.EN = 0 := by decide +kernel
/-- SoundingCommands: a sample that finds no room, one that is written, and one that the bus refuses. -/
theorem witness_slotSample :
    (let s0 := withFields [(SND_SRING.SIZE, 0, 0, 2), (SND_SRING.BASE, 0, 0, 0x10000), (POOL_OWN.OWNER, 0, 0, 2)]
     let x : SlotRec := { tick := 0, pc := 0, thread := 255, cat := 0, reading := 0 }
     let s : State := { s0 with sound := { s0.sound with samples := [(31, some x)] } }
     Tbl.get none s.sound.samples 31 = some x ∧ s.rd SND_SRING.SIZE ≠ 0 ∧
     (s.rd SND_SRIDX.WR + 1) % s.rd SND_SRING.SIZE ≠ s.rd SND_SRIDX.RD ∧
     (s0.areaWrite (s0.requester .sounding) (s0.rd SND_SRING.BASE * 2 ^ 16 + 32 * s0.rd SND_SRIDX.WR) (List.replicate 32 1)).1
       = .done ∧
     (let u := s0.wr POOL_OWN.OWNER 1 0
      (u.areaWrite (u.requester .sounding) (u.rd SND_SRING.BASE * 2 ^ 16 + 32 * u.rd SND_SRIDX.WR) (List.replicate 32 1)).1
        ≠ .done) ∧
     ((s.wr SND_SRIDX.RD 1).rd SND_SRIDX.WR + 1) % 2 = (s.wr SND_SRIDX.RD 1).rd SND_SRIDX.RD) ∧
    Tbl.get none State.reset.sound.samples 31 = none ∧ State.reset.rd SND_SRING.SIZE = 0 := by decide +kernel

/-! ### Witnesses: lanes and links -/

/-- LaneRegisters: words that are taken and words that are refused, at the ends of the ranges of lanes. -/
theorem witness_lnCtl :
    (let w := fun (state rate : Nat) => word [(LN_CTL.PSTATE, state), (LN_CTL.RATE, rate), (LN_CTL.TRAIN_EN, 1)]
     rsvdOk .LN_CTL (w 2 5) = true ∧ rsvdOk .LN_CTL 1 = false ∧ LN_CTL.RATE.of (w 2 5) = 5 ∧ LN_CTL.PSTATE.of (w 2 5) = 2 ∧
     LN_CTL.RATE.of (w 2 2) = 2 ∧ LN_CTL.RATE.of (w 2 3) = 3 ∧ LN_CTL.PSTATE.of (w 3 0) = 3 ∧ LN_CTL.RATE.of (w 2 0) = 0 ∧
     LN_CTL.TRAIN_EN.of (w 2 5) = 1 ∧ (0 : Nat) ≤ 71 ∧ State.reset.rd LN_CTL.PSTATE 147 ≠ 2) ∧
    (let s := withFields [(LN_CTL.PSTATE, 147, 0, 2), (LN_STAT.PSTATE_NOW, 147, 0, 2), (LN_CTL.RATE, 147, 0, 5)]
     s.rd LN_CTL.PSTATE 147 = 2 ∧ s.claimed 147 = false ∧ s.rd LN_CTL.TRAIN_EN 147 = 0 ∧ s.rd LN_STAT.PSTATE_NOW 147 = 2 ∧
     s.canTrain 147 = true ∧ s.canTrain 143 = false ∧ s.rd LN_CTL.RATE 147 = 5 ∧
     (s.wr WEI_TETHCTL.MIRROR_TX 1).claimed 147 = true) := by decide +kernel
theorem witness_lnOther :
    (let w := fun (a b c : Nat) => word [(LN_TXEQ.PRE2, a), (LN_TXEQ.PRE1, b), (LN_TXEQ.POST1, c)]
     rsvdOk .LN_TXEQ (w 0 16 16) = true ∧ LN_TXEQ.PRE2.of (w 0 16 16) + LN_TXEQ.PRE1.of (w 0 16 16) + LN_TXEQ.POST1.of (w 0 16 16) = 32 ∧
     32 < LN_TXEQ.PRE2.of (w 1 16 16) + LN_TXEQ.PRE1.of (w 1 16 16) + LN_TXEQ.POST1.of (w 1 16 16) ∧ LN_TXEQ.PRE2.of (w 1 0 0) ≠ 0 ∧
     (State.reset.lane 147).training = none ∧ ((State.reset.setLane 147 { training := some 0 }).lane 147).training ≠ none) ∧
    (let v := word [(LN_EYECTL.START, 1), (LN_EYECTL.DWELL, 15)]
     rsvdOk .LN_EYECTL v = true ∧ LN_EYECTL.START.of v = 1 ∧ State.reset.rd LN_EYECTL.BUSY 147 = 0 ∧
     State.reset.rd LN_STAT.CDR_LOCK 147 = 0 ∧ (withFields [(LN_STAT.CDR_LOCK, 147, 0, 1)]).rd LN_STAT.CDR_LOCK 147 = 1 ∧
     (withFields [(LN_EYECTL.BUSY, 147, 0, 1)]).rd LN_EYECTL.BUSY 147 = 1) ∧
    (let v := word [(LN_MAP.MAP, 0x1B)]
     rsvdOk .LN_MAP v = true ∧
     (∀ i, i < 4 → ∀ j, j < 4 → i ≠ j → bits (LN_MAP.MAP.of v) (2 * i + 1) (2 * i) ≠ bits (LN_MAP.MAP.of v) (2 * j + 1) (2 * j)) ∧
     bits (LN_MAP.MAP.of 0) 1 0 = bits (LN_MAP.MAP.of 0) 7 6 ∧ (∀ i, i < 4 → State.reset.claimed (144 + i) = false) ∧
     (withFields [(WEI_TETHCTL.MIRROR_RX, 0, 0, 1)]).claimed 147 = true) := by decide +kernel

/-- LaneCommands: lanes at each power state, with CDR lock and without, and scans that run. -/
theorem witness_lanePower :
    (let f := fun (p now lock busy : Nat) => withFields [(LN_CTL.PSTATE, 147, 0, p), (LN_STAT.PSTATE_NOW, 147, 0, now),
       (LN_STAT.CDR_LOCK, 147, 0, lock), (LN_EYECTL.BUSY, 147, 0, busy), (LN_CTL.TRAIN_EN, 147, 0, 1)]
     (f 0 0 0 0).rd LN_CTL.PSTATE 147 = (f 0 0 0 0).rd LN_STAT.PSTATE_NOW 147 ∧
     (f 1 0 0 0).rd LN_CTL.PSTATE 147 ≠ (f 1 0 0 0).rd LN_STAT.PSTATE_NOW 147 ∧ (f 1 0 0 0).rd LN_STAT.PSTATE_NOW 147 = 0 ∧
     (f 2 1 0 0).rd LN_STAT.PSTATE_NOW 147 ≠ 0 ∧ (f 2 1 0 0).rd LN_CTL.PSTATE 147 = 2 ∧
     (f 2 1 0 0).rd LN_CTL.TRAIN_EN 147 = 1 ∧ (f 2 1 0 0).canTrain 147 = true ∧
     (f 0 2 1 1).rd LN_STAT.PSTATE_NOW 147 = 2 ∧ (f 0 2 1 1).rd LN_EYECTL.BUSY 147 = 1 ∧
     (f 2 2 1 1).rd LN_STAT.CDR_LOCK 147 = 1 ∧ (f 2 2 0 0).rd LN_STAT.CDR_LOCK 147 = 0 ∧ (f 2 2 0 0).rd LN_EYECTL.BUSY 147 = 0 ∧
     ((f 2 2 1 1).lane 147).dwell < 32) := by decide +kernel
/-- LaneCommands: a lane in training, just within and just past its time; requests at the limits of a tap. -/
theorem witness_training :
    (let s := State.reset.setLane 147 { training := some 0, asked := some 0x40 }
     (s.lane 147).training = some 0 ∧ (s.lane 147).asked = some 0x40 ∧ (s.lane 147).asked ≠ some 0x84 ∧
     0 + 750000000 ≤ (s.timeTo 750000000).tick.toNat ∧ (s.timeTo 749999999).tick.toNat < 0 + 750000000) ∧
    (State.reset.lane 143).training = none ∧
    (let s := State.reset.setLane 143 { training := some 0 }
     (s.lane 143).training ≠ none) ∧
    (let v := word [(LN_TXEQ.PRE1, 31), (LN_TXEQ.POST1, 1)]
     LN_TXEQ.PRE2.of v + LN_TXEQ.PRE1.of v + LN_TXEQ.POST1.of v ≤ 32) ∧
    bits (0x84 : Byte).toNat 7 6 = 2 ∧ bits (0x84 : Byte).toNat 3 2 = 1 ∧ (0x84 : Byte).toNat.testBit 0 = false ∧
    (0x85 : Byte).toNat.testBit 0 = true ∧ (0x86 : Byte).toNat.testBit 1 = true ∧
    (withFields [(LN_TXEQ.PRE1, 147, 0, 31), (LN_TXEQ.POST1, 147, 0, 0)]).rd LN_TXEQ.PRE1 147 = 31 ∧
    (withFields [(LN_TXEQ.PRE1, 147, 0, 31), (LN_TXEQ.POST1, 147, 0, 0)]).rd LN_TXEQ.POST1 147 = 0 := by decide +kernel

/-- The eight octets of a marker with a lane field. -/
def marker (lane : Byte) : Octets := [0xC3, 0xA5, 0x96, 0xF0, lane, ~~~lane, 0x69, 0x1E]
/-- Link 3 of the Tether and link 7 of the DCC ports, on, searching or locked. -/
def linkAt (l lock : Nat) (x : TssLink) : State :=
  let s := if l < 4 then withFields [(LN_STAT.PSTATE_NOW, 144 + l, 0, 2), (LN_STAT.MARKER_LOCK, 144 + l, 0, lock), (LN_CTL.AUTO_POL, 144 + l, 0, 1)]
    else withFields [(FRM_DCCCTL.EN, l - 4, 0, 1), (FRM_DCCSTAT.MARKER_LOCK, l - 4, 0, lock), (FRM_DCCCTL.AUTO_POL, l - 4, 0, 1)]
  s.setLink l x
/-- TssLinks: markers that are good, upright, inverted, and of another lane; links off, searching, locked and losing lock. -/
theorem witness_markers :
    markerGood (marker 0xAB) = true ∧ markerGood ((marker 0xAB).map fun b => ~~~b) = false ∧
    markerGood ((((marker 0xAB).map fun b => ~~~b)).map fun b => ~~~b) = true ∧ (marker 0xAB).length = 8 ∧
    (slice (marker 0xAB) 4 1).headD 0 = BitVec.ofNat 8 (0xA8 + 3 % 4) ∧ (slice (marker 0xA8) 4 1).headD 0 ≠ BitVec.ofNat 8 (0xA8 + 7 % 4) ∧
    markerGood (List.replicate 8 0) = false ∧ markerGood ((List.replicate 8 (0 : Byte)).map fun b => ~~~b) = false ∧
    State.reset.rd LN_STAT.PSTATE_NOW (State.reset.carrier 147) ≠ 2 ∧ State.reset.rd FRM_DCCCTL.EN 3 ≠ 1 ∧
    ([3, 7].all fun l => decide (
      (if l < 4 then (linkAt l 1 {}).rd LN_STAT.PSTATE_NOW ((linkAt l 1 {}).carrier (144 + l)) = 2
        else (linkAt l 1 {}).rd FRM_DCCCTL.EN (l - 4) = 1) ∧
      lockBit (linkAt l 1 {}) l = 1 ∧ lockBit (linkAt l 0 {}) l = 0 ∧
      ((linkAt l 1 { missed := 3 }).link l).missed + 1 = 4 ∧ ((linkAt l 1 {}).link l).missed + 1 ≠ 4 ∧
      ((linkAt l 1 { astray := true }).link l).astray = true ∧ ((linkAt l 1 {}).link l).record = none ∧
      5 ∈ ((linkAt l 0 { cands := [5] }).link l).cands ∧ 5 + markerSpan l = 5 + (if l < 4 then 139328 else 8768) ∧
      ((linkAt l 0 {}).link l).cands = [] ∧
      ((linkAt l 1 { record := some [1] }).link l).record = some [1])) = true ∧
    (linkAt 3 1 {}).rd LN_CTL.AUTO_POL ((linkAt 3 1 {}).carrier 147) = 1 ∧ (linkAt 7 1 {}).rd FRM_DCCCTL.AUTO_POL 3 = 1 := by
  decide +kernel
/-- TssLinks: mirror records of 160 and of 161 blocks, whole and in part; DCC records, whole and in part. -/
theorem witness_recordParts :
    (let o : Octets := List.replicate 16 0 ++ [0, 160]
     18 ≤ o.length ∧ beNat (slice o 16 2) ≤ 160 ∧ ¬24 + 16 * beNat (slice o 16 2) ≤ o.length) ∧
    (let o : Octets := List.replicate 16 0 ++ [0, 161]
     18 ≤ o.length ∧ 160 < beNat (slice o 16 2)) ∧
    (let o : Octets := List.replicate 24 0
     18 ≤ o.length ∧ beNat (slice o 16 2) = 0 ∧ 24 + 16 * beNat (slice o 16 2) ≤ o.length) ∧
    (let o : Octets := [15, 16] ++ List.replicate 18 0
     4 + beNat (slice o 1 1) ≤ o.length ∧ ¬4 + beNat (slice (o.take 16) 1 1) ≤ (o.take 16).length) := by decide +kernel
/-- Stream 15 of port 3, of group 17, in a direction or both. -/
def streamed (x : GccStream) : State :=
  (withFields [(FRM_DCCCTL.EN, 3, 0, 1), (FRM_DSTR.EN, 3, 15, 1), (FRM_DSTR.INS, 3, 15, 1), (FRM_DSTR.GROUP, 3, 15, 17),
    (FRM_CTL.TX_EN, 17, 0, 1), (FRM_CTL.RX_EN, 17, 0, 1), (FRM_CTL.NM1, 17, 0, 7)]).setStream 3 15 x
/-- TssLinks: records of a stream that runs and of one that does not, right, too short and too long; a queue with room
and a full one. -/
theorem witness_dccRecords :
    (let s := streamed {}
     let o : Octets := [15, 16] ++ List.replicate 18 0
     s.rd FRM_DCCCTL.EN 3 = 1 ∧ s.streamOn 3 15 0 = true ∧ beNat (o.take 1) = 15 ∧ beNat (slice o 1 1) = 16 ∧
     (if s.rd FRM_DSTR.LO 3 15 = 1 then 2 else 2 * (s.rd FRM_CTL.NM1 (s.rd FRM_DSTR.GROUP 3 15) + 1)) = 16 ∧
     4 + 16 ≤ o.length ∧ o.dropLast.length < 4 + 16 ∧ beNat (slice (15 :: 15 :: o) 1 1) ≠ 16 ∧
     (s.stream 3 15).insert.length < 4) ∧
    4 ≤ ((streamed { insert := List.replicate 4 [] }).stream 3 15).insert.length ∧ State.reset.streamOn 3 15 0 = false := by
  decide +kernel
/-- TssLinks: lines of 136 bits after destuffing and of fewer, with each block header; a state of the descrambler. -/
theorem witness_tssBlocks :
    (let line := fun (h : Nat) => scramble 0 ((List.range 136).map fun i => (h * 2 ^ 128).testBit (135 - i))
     (let r := destuff 0 false (line 0x0F)
      r.1.length = 136 ∧ (descramble 136 0 (bitsNat r.1)).1 / 2 ^ 128 = 0x0F) ∧
     (let r := destuff 0 false (line 0x36)
      (descramble 136 0 (bitsNat r.1)).1 / 2 ^ 128 = 0x36) ∧
     (let r := destuff 0 false (line 0x5A)
      (descramble 136 0 (bitsNat r.1)).1 / 2 ^ 128 = 0x5A) ∧
     (let r := destuff 0 false (line 1)
      (descramble 136 0 (bitsNat r.1)).1 / 2 ^ 128 ∉ [0x0F, 0x36, 0x5A]) ∧ (destuff 0 false [true]).1.length ≠ 136) ∧
    (Config.freeWord 0).toNat % 2 ^ 31 < 2 ^ 31 := by
  refine ⟨by decide +kernel, Nat.mod_lt _ (by decide)⟩
/-- TssLinks: a record that is cut off, of the mirror and of a DCC stream. -/
theorem witness_cutRecord :
    ((linkAt 3 1 { record := some [1] }).link 3).record = some [1] ∧ (State.reset.rd WEI_TETHCTL.MIRROR_RX ≠ 1) ∧
    ((linkAt 3 1 { record := some [1] }).wr WEI_TETHCTL.MIRROR_RX 1).rd WEI_TETHCTL.MIRROR_RX = 1 := by decide +kernel

/-! ### Witnesses: framers -/

/-- Group 17 receives, with a number of OTUCs, all of them in frame and multiframe. -/
def received (nm1 : Nat) : State :=
  let x : OtucRx := { align := { inFrame := true, inMf := true, mfas := some 4 } }
  let s := withFields [(FRM_CTL.RX_EN, 17, 0, 1), (FRM_CTL.NM1, 17, 0, nm1)]
  let t : State := { s with frm := { s.frm with locked := (List.range 8).map (fun j => (136 + j, true)) } }
  (List.range 8).foldl (fun (u : State) j => u.setOtuc 17 j x) t
/-- FramerReceive: frames of the first and of the last OTUC, after which all are in alignment or one is not; with one
multiframe and with two. -/
theorem witness_otucFrames :
    (let s := received 0
     s.rd FRM_CTL.RX_EN 17 = 1 ∧ s.rd FRM_CTL.NM1 17 + 1 = 1 ∧ State.reset.rd FRM_CTL.RX_EN 17 ≠ 1 ∧
     nextWith (exec (.otucFrameRx 17 0 [0] 5 0 none false 0) s) (fun u =>
       (u.otuc 17 0).align.inFrame && (u.otuc 17 0).align.inMf && !raised u 17 2 && decide (u.rd FRM_STAT.IF 17 = 1)) = true ∧
     nextWith (exec (.otucFrameRx 17 0 [0] 5 0 none true 0) s) (fun u => raised u 17 2) = true ∧
     nextWith (exec (.otucFrameRx 17 0 [0] 5 0 none true 0) (s.setOtuc 17 0 {})) (fun u => !(u.otuc 17 0).align.inFrame) = true) ∧
    (let s := received 7
     s.rd FRM_CTL.NM1 17 + 1 = 8 ∧
     nextWith (exec (.otucFrameRx 17 7 [0] 5 0 none false 0) s) (fun u =>
       (List.range 8).all (fun j => (u.otuc 17 j).align.inFrame && (u.otuc 17 j).align.inMf) && !raised u 17 2 &&
         decide ((u.otuc 17 7).align.mfas ≠ (u.otuc 17 0).align.mfas)) = true ∧
     nextWith (exec (.otucFrameRx 17 0 [0] 5 0x1F none false 0) s) (fun u => raised u 17 9 && !raised u 17 2) = true ∧
     nextWith (exec (.otucFrameRx 17 7 [] 5 0 none false 0)
       (s.setOtuc 17 7 { align := { inFrame := true, streak := 4 } })) (fun u => !(u.otuc 17 7).align.inFrame) = true) := by
  decide +kernel
/-- FramerReceive: candidates that the frame confirms and that it does not. -/
theorem witness_otucCands :
    (let s := (received 7).setOtuc 17 7 { cands := [5, 16319] }
     (s.otuc 17 7).align.inFrame = false ∧ (s.otuc 17 7).cands = [5] ++ 16319 :: [] ∧
     [16319].contains 16319 = true ∧ ¬5 ∈ [16319] ∧ Tbl.get false s.frm.locked (136 + 7) = true ∧ Tbl.get false s.frm.wrong (136 + 7) = false) ∧
    ((received 7).otuc 17 7).pos = 0 := by decide +kernel
/-- FramerReceive: timers just due and not yet; FlexO frames locked and not, of the group's GID and of another. -/
theorem witness_otucTimers :
    (let s := received 7
     (s.otuc 17 7).since + 4500000 ≤ (s.timeTo 4500000).tick.toNat ∧ ¬(s.otuc 17 7).since + 4500000 ≤ (s.timeTo 4499999).tick.toNat ∧
     (s.otuc 17 7).sinceMf + 4500000 ≤ (s.timeTo 4500000).tick.toNat ∧ (0 : BitVec 20).toNat = s.rd FRM_CTL.GID 17 ∧
     (1 : BitVec 20).toNat ≠ s.rd FRM_CTL.GID 17 ∧ (8 : Byte).toNat = 7 + 1) := by decide +kernel

/-- FramerRegisters: FRM_CTL taken and refused, each for one reason. -/
theorem witness_frmCtl :
    (let w := fun (tx rx l200 nm1 : Nat) => word [(FRM_CTL.TX_EN, tx), (FRM_CTL.RX_EN, rx), (FRM_CTL.LANE200, l200), (FRM_CTL.NM1, nm1)]
     let s := State.reset
     rsvdOk .FRM_CTL (w 1 1 1 7) = true ∧ FRM_CTL.NM1.of (w 0 0 0 4) + 1 = 5 ∧ FRM_CTL.NM1.of (w 0 0 0 3) + 1 = 4 ∧
     FRM_CTL.LANE200.of (w 0 0 0 4) ≠ 1 ∧ s.lineReady 17 true 8 = false ∧ s.rd FRM_CTL.TX_EN 17 ≠ 1 ∧
     s.rd FRM_GPOS.SLICE 17 = 0 ∧
     (let t := (List.range 4).foldl (fun (u : State) j => (u.wr LN_STAT.PSTATE_NOW 2 (140 + j)).wr LN_CTL.RATE 4 (140 + j)) s
      t.lineReady 17 true 8 = true ∧ (t.wr FRM_GPOS.SLICE 7 17).rd FRM_GPOS.SLICE 17 < 8 ∧ FRM_CTL.TX_EN.of (w 1 1 1 7) = 1)) ∧
    (let s := withRecs (withFields [(FRM_CTL.TX_EN, 17, 0, 1)]) [(L1.EN, 2879, 1)]
     s.rd FRM_CTL.TX_EN 17 = 1 ∧ s.l1Enabled 17 ≠ [] ∧ (withFields [(FRM_CTL.TX_EN, 17, 0, 1)]).l1Enabled 17 = []) := by
  decide +kernel
/-- FramerRegisters: staged maps that may be taken into use and that may not: a pending one, a slot beyond the OTUCs, an
owner above its slot, an enabled channel that would change. -/
theorem witness_slotMaps :
    State.reset.mapBad 17 = false ∧ (withFields [(FRM_STAT.MAP_PEND, 17, 0, 1)]).mapBad 17 = true ∧
    (let m := fun (nm1 t o : Nat) => withFields [(FRM_CTL.NM1, 17, 0, nm1), (FRM_TSMAP.USED, 17, t, 1), (FRM_TSMAP.KIND, 17, t, 1),
       (FRM_TSMAP.OWNER, 17, t, o)]
     (m 7 159 159).mapBad 17 = false ∧ (m 6 159 159).mapBad 17 = true ∧ (m 7 158 159).mapBad 17 = true ∧
     (withRecs (m 7 159 159) [(CH.EN, 2879, 1)]).mapBad 17 = true) := by decide +kernel
/-- FramerRegisters: FRM_GPOS, FRM_CPORT and FRM_DSTR, taken and refused. -/
theorem witness_framerPorts :
    (let w := fun (p : Nat) => word [(FRM_GPOS.POS, p)]
     rsvdOk .FRM_GPOS (w 7) = true ∧ FRM_GPOS.POS.of (w 6) < 7 ∧ 7 ≤ FRM_GPOS.POS.of (w 7)) ∧
    (let w := fun (en rate : Nat) => word [(FRM_CPORT.EN, en), (FRM_CPORT.RATE, rate)]
     let up := fun (s : State) => s.wr LN_STAT.PSTATE_NOW 2 71 |>.wr LN_CTL.RATE 2 71
     let s := up State.reset
     rsvdOk .FRM_CPORT (w 1 1) = true ∧ FRM_CPORT.EN.of (w 1 1) = 1 ∧ FRM_CPORT.RATE.of (w 1 4) = 4 ∧ FRM_CPORT.RATE.of (w 1 5) = 5 ∧
     s.laneAt 71 2 = true ∧ State.reset.laneAt 71 2 = false ∧ s.rd FRM_CPORT.EN 17 3 ≠ 1 ∧ s.portsOverlap 17 3 = false ∧
     (let t := up (withFields [(FRM_CPORT.EN, 17, 2, 1), (FRM_CPORT.RATE, 17, 2, 2)])
      t.rd FRM_CPORT.EN (70 / 4) (70 % 4) = 1 ∧ 71 < 70 + [1, 1, 2, 4, 8].getD (t.rd FRM_CPORT.RATE (70 / 4) (70 % 4)) 0 ∧
      t.laneAt 71 2 = true) ∧
     (let t := withFields [(FRM_CPORT.EN, 17, 3, 1), (FRM_TSLIVE.USED, 17, 159, 1), (FRM_TSLIVE.OWNER, 17, 159, 159),
        (FRM_TSLIVE.PORT, 17, 159, 71)]
      t.rd FRM_CPORT.EN 17 3 = 1 ∧ t.l1Chan (17 * 160 + 159) = true ∧ t.rd FRM_TSLIVE.PORT 17 159 = 71)) ∧
    (let w := fun (en g lo kind : Nat) => word [(FRM_DSTR.EN, en), (FRM_DSTR.GROUP, g), (FRM_DSTR.LO, lo), (FRM_DSTR.KIND, kind)]
     rsvdOk .FRM_DSTR (w 1 17 1 2) = true ∧ FRM_DSTR.GROUP.of (w 1 17 1 2) < 18 ∧ FRM_DSTR.GROUP.of (w 1 18 0 0) = 18 ∧
     FRM_DSTR.KIND.of (w 1 0 0 3) = 3 ∧ FRM_DSTR.KIND.of (w 1 0 1 0) = 0 ∧
     (∀ q, q < 4 → ∀ k, k < 16 → State.reset.rd FRM_DSTR.EN q k = 0) ∧
     (withFields [(FRM_DSTR.EN, 3, 15, 1)]).rd FRM_DSTR.EN 3 15 = 1) := by decide +kernel

/-- FramerCommands: GCC frames extracted and inserted, with room and without; ports with a record to send. -/
theorem witness_gcc :
    (let o : Octets := List.replicate 16 0
     let s := streamed {}
     s.streamOn 3 15 1 = true ∧ s.streamOn 3 15 0 = true ∧ o.length = 2 * (s.rd FRM_CTL.NM1 (s.rd FRM_DSTR.GROUP 3 15) + 1) ∧
     s.rd FRM_DSTR.LO 3 15 = 0 ∧ (s.stream 3 15).extract.length < 4 ∧ (s.stream 3 15).insert = [] ∧ (s.stream 3 15).last = none ∧
     s.rd FRM_DCCCTL.EN 3 = 1 ∧
     4 ≤ ((streamed { extract := List.replicate 4 (0, o) }).stream 3 15).extract.length ∧
     ((streamed { insert := [o] }).stream 3 15).insert = o :: [] ∧
     ((streamed { last := some o }).stream 3 15).last = some o ∧
     (let t := streamed { extract := [(65535, o)] }
      (t.stream 3 15).extract = (65535, o) :: [] ∧ o.length ≤ 28 ∧ (∀ j, j < 15 → (t.stream 3 j).extract = []) ∧
      Tbl.get 0 t.frm.turn 3 = 0)) ∧ State.reset.streamOn 3 15 0 = false ∧ State.reset.streamOn 3 15 1 = false := by decide +kernel
/-- FramerCommands: path ends available and unavailable, after nine seconds and after fewer, with their counters. -/
theorem witness_paths :
    (let p := fun (x : PathEnd) =>
       let s := State.reset
       let t : State := { s with frm := { s.frm with paths := Tbl.set {} s.frm.paths 5831 x } }
       (List.range 9).foldl (fun (u : State) _ => ((u.count Ctrs.ES_CUR 5831).count Ctrs.SES_CUR 5831).count Ctrs.UAS_CUR 5831) t
     let a := p { run := List.replicate 9 (true, false) }
     let b := p { unavailable := true, run := List.replicate 9 (false, false) }
     (pathEnd a 5831).unavailable = false ∧ (pathEnd a 5831).run.length = 9 ∧ (∀ r ∈ (pathEnd a 5831).run, r.2 = false) ∧
     9 ≤ (a.ctr Ctrs.ES_CUR 5831).n.toNat ∧ 9 ≤ (a.ctr Ctrs.SES_CUR 5831).n.toNat ∧
     (a.ctr Ctrs.ES_CUR 5831).n.toNat + 1 < 2 ^ 48 ∧ (a.ctr Ctrs.SES_CUR 5831).n.toNat + 1 < 2 ^ 48 ∧
     (pathEnd b 5831).unavailable = true ∧ (∀ r ∈ (pathEnd b 5831).run, r = (false, false)) ∧ (pathEnd b 5831).run.length = 9 ∧
     9 ≤ (b.ctr Ctrs.UAS_CUR 5831).n.toNat ∧ (b.ctr Ctrs.UAS_CUR 5831).n.toNat + 1 < 2 ^ 48 ∧
     (pathEnd (p { unavailable := true }) 5831).run.length < 9 ∧ (pathEnd (p { unavailable := true }) 5831).unavailable = true ∧
     (pathEnd (p {}) 5831).unavailable = false) := by decide +kernel
/-- FramerCommands: seconds and bins that have passed and that have not; a path that is on. -/
theorem witness_seconds :
    (let s : State := { withFields [(CLK_STAT.VALID, 0, 0, 1), (FRM_CTL.RX_EN, 17, 0, 1)] with clock := { base := 900 * second } }
     s.frm.second < timeSec (s.timeTo 0).timeNow ∧ s.frm.bin < timeSec (s.timeTo 0).timeNow / 900 ∧ s.pathOn 2915 = true ∧
     s.pathOn 0 = false) ∧
    (let s := State.reset
     timeSec (s.timeTo 0).timeNow ≤ s.frm.second ∧ timeSec (s.timeTo 0).timeNow / 900 ≤ s.frm.bin) := by decide +kernel
/-- FramerRegisters: packet channels in a Twin group, in use and staged; a position that a GCC stream takes; a port that is
too fast for its L1 channels. -/
theorem witness_framerClashes :
    (let twin := withFields [(WEI_GRP_CFG.EN, 17, 0, 1), (WEI_GRP_CFG.PROT, 17, 0, 2)]
     twin.twinPacket 17 = false ∧ (twin.rwr CH.EN 2879 1).twinPacket 17 = true ∧
     (let s := (twin.wr FRM_TSMAP.USED 1 17 159).wr FRM_TSMAP.KIND 1 17 159
      FRM_TSMAP.USED.of (s.reg .FRM_TSMAP 17 159) = 1 ∧ FRM_TSMAP.KIND.of (s.reg .FRM_TSMAP 17 159) = 1 ∧ s.twinPacket 17 = false) ∧
     FRM_CTL.MAP_COMMIT.of (word [(FRM_CTL.MAP_COMMIT, 1)]) = 1) ∧
    (let s := withFields [(FRM_DSTR.EN, 3, 15, 1), (FRM_DSTR.GROUP, 3, 15, 17)]
     s.rd FRM_DSTR.EN 3 15 = 1 ∧ s.rd FRM_DSTR.GROUP 3 15 = 17 ∧ s.rd FRM_DSTR.LO 3 15 = 0 ∧ gccPos (s.rd FRM_DSTR.KIND 3 15) ≠ [] ∧
     (∀ p ∈ gccPos 0, (s.wr FRM_GPOS.POS p 17).gposClash 17 = true) ∧ State.reset.gposClash 17 = false ∧ s.cooClash 17 = false) ∧
    (let s := withFields [(FRM_TSLIVE.USED, 17, 159, 1), (FRM_TSLIVE.OWNER, 17, 159, 159), (FRM_TSLIVE.PORT, 17, 159, 71),
       (FRM_CPORT.EN, 17, 3, 1), (FRM_CPORT.RATE, 17, 3, 4)]
     s.l1Chan (17 * 160 + 159) = true ∧ s.rd FRM_TSLIVE.PORT 17 159 = 71 ∧ s.l1TooFast 17 3 = true ∧ State.reset.l1TooFast 17 3 = false) ∧
    (let s := State.reset
     ∃ k, k < 8 ∧ cooPos (s.reg .FRM_COOPOS 17).toNat k ∉ gccPos 0) := by decide +kernel
/-- FramerCommands: a second that a bin's last second has reached, and one before it. -/
theorem witness_bins :
    (let s : State := { State.reset with frm := { State.reset.frm with second := 900 * 7 } }
     s.frm.bin < 7 ∧ 900 * 7 ≤ s.frm.second ∧ s.frm.second < 900 * 8) := by decide +kernel

/-! ### Witnesses: steps, time and the frame's words -/

/-- A state with one command in front of another. -/
def queued : State := { State.reset with pending := [.cdrLockLoss 147, .cdrLockLoss 0] }
/-- StepRunsFront and StepTakesOneCommand: a command at the front, whose step answers a next state. -/
theorem witness_front :
    queued.pending = .cdrLockLoss 147 :: [.cdrLockLoss 0] ∧
    step queued = .next { State.reset with pending := [.cdrLockLoss 0] } := ⟨rfl, by rfl⟩
/-- FusesOneWay: two commands carried out. -/
theorem witness_reaches : Reaches queued State.reset :=
  .step (.step (.refl _) witness_front.2) (by rfl)
/-- StepIdles: empty queues in M0 and in M1, with threads 0 and 255 that may not issue. -/
theorem witness_idle :
    State.reset.pending = [] ∧ State.reset.rd GBL_MODE.MODE ≠ 0 ∧
    (withFields [(GBL_MODE.MODE, 0, 0, 0)]).pending = [] ∧ (withFields [(GBL_MODE.MODE, 0, 0, 0)]).rd GBL_MODE.MODE = 0 ∧
    State.reset.tstate 0 < 2 ∧ State.reset.tstate 255 < 2 ∧
    (withFields [(TID_THRSTAT.STATE, 255, 0, 6)]).tstate 255 = 6 := by decide +kernel
/-- StepKeepsForm: Pools with octets at both ends, tables with entries, and a queue within its bound. -/
theorem witness_forms :
    (let s : State := { running [(1, 5)] with pools := [(0x100000000, 1), (0x10FFFFFFF, 255)] }
     PoolsCanonical s ∧ TablesCanonical s ∧ QueuesBounded s ∧ nextWith (step s) (fun u => decide (u.tick = s.tick + 1)) = true) := by
  refine ⟨show Memory.wf _ = true by decide +kernel, ?_, ⟨by decide +kernel, by decide +kernel, by decide +kernel, by decide +kernel⟩, by decide +kernel⟩
  unfold TablesCanonical
  refine ⟨?_, trivial, trivial⟩
  repeat' first | trivial | refine ⟨by decide +kernel, ?_⟩
/-- NetworkTimeFormula: a clock that is set. -/
theorem witness_clock : (withFields [(CLK_STAT.VALID, 0, 0, 1), (CLK_RATE.RATE, 0, 0, 2 ^ 32 - 1)]).rd CLK_STAT.VALID = 1 := by
  decide +kernel
/-- OduFrameIv: the last frame count, and the last epoch. -/
theorem witness_epoch :
    2 ^ 64 - 1 < 2 ^ 64 ∧ State.reset.l1Epoch 2879 1 < 2 ^ 16 := by decide +kernel
/-- CountWordOctets: both kinds of frames, a long tag of 16 octets, and a tag of a frame to send. -/
theorem witness_cooWords :
    (List.replicate 16 (0 : Byte)).length = 16 ∧ (2 ^ 64 - 1) % 256 = 255 ∧
    (let s := State.reset.setL1 2879 { txTag := some [1, 2, 3, 4] }
     (s.l1run 2879).txTag = some [1, 2, 3, 4] ∧ ([1, 2, 3, 4] : Octets).length = 4) := by decide +kernel
/-- DatapathSideCompletes, ControlSideCompletes: at reset a word of zeros, and images of zeros, meet every condition. -/
theorem witness_completes :
    (let s := State.reset
     ([Reg.WEI_GRP_CFG, .GAU_SNAPCTL, .GAU_RECORD, .WEI_FAILCLR, .WEI_CARDGRANT, .FRM_COOPOS, .FRM_L1CTL, .FRM_L1HOLD,
       .SPR_PGOWN, .TID_THRCFG, .BSN_POOL, .BSN_RES, .CUL_RNG, .CUL_CTL, .CUL_BW, .POOL_OWN, .CMP_STAT, .LN_CTL, .LN_TXEQ,
       .LN_MAP, .LN_EYECTL, .FRM_CTL, .FRM_GPOS, .FRM_CPORT, .FRM_DSTR, .LEV_SRCCFG, .LEV_STICKY, .LEV_LOGRD, .HIF_DB,
       .HIF_RCFG, .HIF_BAR2WIN, .HIF_CTL, .ELG_IDX, .ELG_RETPAGE, .ELG_RETPOOL].all fun r => rsvdOk r 0) = true ∧
     (∀ k : Fin 3, rsvdOk (stagedReg k) 0 = true ∧ rsvdOk (thrReg k) 0 = true) ∧ (∀ k : Fin 5, rsvdOk (schedReg k) 0 = true) ∧
     s.tooFewStandby (s.grpCfgWrite 17 0) 17 = false ∧ s.twin 17 = false ∧ offsetOf 16319 < 16320 ∧
     (s.cooposWrite 17 0).cooClash 17 = false ∧ RecKind.l1.imageOk (s.l1Image 17) = true ∧
     L1.POLICY.of (s.l1Image 17) ≠ 1 ∧ ([RecKind.secy, .sc, .sa, .ch].all fun k => k.imageOk s.scyImage) = true ∧
     s.tide.ops = [] ∧ s.poolMisplaced 0 = false ∧ s.overlapClash = false ∧ (s.frmCtlWrite 17 0).twinPacket 17 = false ∧
     (s.mapCommit 17).twinPacket 17 = false ∧ (s.gposWrite 17 0).gposClash 17 = false ∧
     (s.cportWrite 17 3 0).portsOverlap 17 3 = false ∧ (s.cportWrite 17 3 0).l1TooFast 17 3 = false ∧
     (s.dstrWrite 3 15 0).gposClash 0 = false ∧ (s.dstrWrite 3 15 0).cooClash 0 = false ∧ s.postsUnfetched 15 0 = false) ∧
    ((((State.ptpStamp { State.reset with basin := { State.reset.basin with badFree := max State.reset.basin.badFree 0 } } 71 false
      (body [])).dflip []).classify 71 []).mixedQueue = false) := by decide +kernel
theorem witness_noTwin : (∀ g, State.reset.rd WEI_GRP_CFG.PROT g ≠ 2) ∧ ∀ y, State.reset.xpn y = false := by
  have h : ∀ g, State.reset.rd WEI_GRP_CFG.PROT g = State.reset.rd WEI_GRP_CFG.PROT 0 := fun _ => rfl
  have k : ∀ y, State.reset.xpn y = State.reset.xpn 0 := fun _ => rfl
  exact ⟨fun g => by rw [h g]; decide +kernel, fun y => by rw [k y]; decide +kernel⟩

end Sys2Proof.Tests
end

namespace Sys2Proof.Machine

open Sys2Proof

/-! ### Octets of a number, and slices -/

@[simp] theorem leBytes_length (n x : Nat) : (leBytes n x).length = n := by
  induction n generalizing x with
  | zero => rfl
  | succ n ih => simp [leBytes, ih]

@[simp] theorem beBytes_length (n x : Nat) : (beBytes n x).length = n := by simp [beBytes]

/-- Octets written and read back: the number, cut to their width. -/
theorem leNat_leBytes (n x : Nat) : leNat (leBytes n x) = x % 256 ^ n := by
  induction n generalizing x with
  | zero => simp [leBytes, leNat, Nat.mod_one]
  | succ n ih =>
    rw [leBytes, leNat, ih, BitVec.toNat_ofNat, Nat.pow_succ' (m := 256), Nat.mod_mul]

theorem beNat_reverse (l : Octets) : beNat l.reverse = leNat l := by
  induction l with
  | nil => rfl
  | cons b t ih =>
    have last : beNat (t.reverse ++ [b]) = beNat t.reverse * 256 + b.toNat := by simp [beNat]
    rw [List.reverse_cons, last, ih, leNat]
    omega

theorem beNat_beBytes (n x : Nat) : beNat (beBytes n x) = x % 256 ^ n := by
  rw [beBytes, beNat_reverse, leNat_leBytes]

/-- A slice that lies in the string has no octets to fill. -/
theorem slice_of_le {l : Octets} {o n : Nat} (h : o + n ≤ l.length) : slice l o n = (l.drop o).take n := by
  have fits : n - ((l.drop o).take n).length = 0 := by simp; omega
  simp only [slice, fits, List.replicate_zero, List.append_nil]

@[simp] theorem slice_nil (o n : Nat) : slice [] o n = List.replicate n 0 := by simp [slice]

/-! ### An L1 channel read back -/

@[simp] theorem State.l1run_setL1 (s : State) (c : Nat) (x : L1Run) : (s.setL1 c x).l1run c = x := by
  unfold State.l1run State.setL1
  rw [Tbl.get_set, if_pos rfl]

/-- A started frame is the one under way; the count that advances is in the record (R143). -/
@[simp] theorem State.cur_startTx (s : State) (c : Nat) (f : TxFrame) : ((s.startTx c f).l1run c).cur = some f :=
  congrArg L1Run.cur (State.l1run_setL1 s c { s.l1run c with cur := some f })

/-! ### The IV of an ODU frame (R145) -/

/-- ROLE is one bit (R180). -/
theorem State.l1Role_lt (s : State) (g : Nat) : s.l1Role g < 2 := (bits_cut _ _ _ (Nat.le_refl 0)).2

section
variable (role chan epoch count : Nat)

@[simp] theorem oduIv_length : (oduIv role chan epoch count).length = 12 := by simp [oduIv]

theorem oduIv_channelOctets : (oduIv role chan epoch count).take 2 = beBytes 2 (role * 2 ^ 15 + chan % 2 ^ 12) := by
  rw [oduIv, List.append_assoc, List.take_left' (beBytes_length 2 _)]

theorem oduIv_epochOctets : ((oduIv role chan epoch count).drop 2).take 2 = beBytes 2 epoch := by
  rw [oduIv, List.append_assoc, List.drop_left' (beBytes_length 2 _), List.take_left' (beBytes_length 2 _)]

theorem oduIv_countOctets : (oduIv role chan epoch count).drop 4 = beBytes 8 count := by
  rw [oduIv, List.drop_left' (by simp)]

end

/-- The octets of an IV read as numbers, for values that their fields hold. -/
theorem oduIv_reads {role chan epoch count : Nat} (hr : role < 2) (hc : chan < 2 ^ 12) (he : epoch < 2 ^ 16)
    (hn : count < 2 ^ 64) :
    beNat ((oduIv role chan epoch count).take 2) = role * 2 ^ 15 + chan ∧
    beNat (((oduIv role chan epoch count).drop 2).take 2) = epoch ∧
    beNat ((oduIv role chan epoch count).drop 4) = count := by
  rw [oduIv_channelOctets, oduIv_epochOctets, oduIv_countOctets, beNat_beBytes, beNat_beBytes, beNat_beBytes]
  omega

/-! ### The descriptor of a frame, and the frame sent under it (R109, R145) -/

/-- The descriptor that is issued names one slot, with the epoch of its key, and holds the IV of that epoch and count.
Which key the Race reads, and the lane at which its keystream starts, are left open. -/
theorem State.txDesc_issueTx (s : State) (c n : Nat) (bad : Bool) :
    ∃ gen key lane, ((s.issueTx c n bad).l1run c).txDesc = some
      { count := n
        keys := [{ slot := s.txSlotFor c n, epoch := s.l1Epoch c (s.txSlotFor c n), gen := gen, key := key }]
        ks := { iv := oduIv (s.l1Role (chanGroup c)) c (s.l1Epoch c (s.txSlotFor c n)) n, lane := lane,
                total := oduLanes } } := by
  unfold State.issueTx State.slotKey
  exact ⟨_, _, _, congrArg L1Run.txDesc (State.l1run_setL1 _ c _)⟩

/-- The frame that is encrypted carries the count and the IV of its descriptor, the slot and the key given, and the
payload enciphered under them with COO 0 and 1 as additional data. -/
theorem State.cur_encryptTx (s : State) (c n : Nat) (d : L1Desc) (k : SlotKey) (key payload : Octets) :
    ∃ f, ((s.encryptTx c n d k key payload).l1run c).cur = some f ∧ f.count = n ∧ f.kind = .enc ∧ f.ks = d.ks ∧
      f.slot = k.slot ∧ f.key = key ∧
      f.payload = (Crypto.gcm false key d.ks.iv (f.coo.take 2) (slice payload 0 spanLen)).1 :=
  ⟨_, State.cur_startTx _ c _, rfl, rfl, rfl, rfl, rfl, rfl⟩

/-- Settles O8: the descriptor holds `oduIv` of the slot's epoch and the count, and the frame keeps its descriptor's IV. -/
theorem oduFrameIv : Obligations.OduFrameIv := by
  refine ⟨fun s c n bad hn he => ?_, fun s c => s.cur_encryptTx c⟩
  obtain ⟨gen, key, lane, hd⟩ := s.txDesc_issueTx c n bad
  obtain ⟨hchan, hepoch, hcount⟩ := oduIv_reads (s.l1Role_lt (chanGroup c)) (show c.val < 2 ^ 12 by omega) he hn
  refine ⟨_, hd, rfl, oduIv_length .., hchan, hepoch, hcount, fun k hk => ?_⟩
  obtain rfl := List.singleton_inj.mp hk
  exact ⟨rfl, rfl⟩

/-! ### COO 6 and 7 (R149) -/

section
variable (role n : Nat) (long : Option Octets)

theorem cooWord_of_lt_8 (h : n % 256 < 8) : cooWord role n long = slice (long.getD []) (2 * (n % 256)) 2 := if_pos h

/-- Frames 8 to 11 carry the count of frame 0, two octets each. -/
theorem cooWord_count (h8 : 8 ≤ n % 256) (h12 : n % 256 < 12) :
    cooWord role n long = ((beBytes 8 (n - n % 256)).drop (2 * (n % 256 - 8))).take 2 := by
  have inCount : 2 * (n % 256 - 8) + 2 ≤ (beBytes 8 (n - n % 256)).length := by rw [beBytes_length]; omega
  rw [← slice_of_le inCount]
  simp only [cooWord, if_neg (Nat.not_lt.mpr h8), if_pos h12]

theorem cooWord_check (h : n % 256 = 12) :
    cooWord role n long = [(beBytes 8 (n - n % 256)).foldl (fun a b => a ^^^ b) 0x5A, BitVec.ofNat 8 role] := by
  simp [cooWord, h]

theorem cooWord_of_13_le (h : 13 ≤ n % 256) : cooWord role n long = [0, 0] := by
  have notCount : ¬n % 256 < 12 := by omega
  have notCheck : ¬n % 256 = 12 := by omega
  have notTag : ¬n % 256 < 8 := by omega
  simp only [cooWord, if_neg notTag, if_neg notCount, if_neg notCheck]

end

/-- Frames 0 to 7 carry a long tag of 16 octets, two octets each. -/
theorem cooWord_longTag (role n : Nat) {l : Octets} (hl : l.length = 16) (h : n % 256 < 8) :
    cooWord role n (some l) = (l.drop (2 * (n % 256))).take 2 := by
  rw [cooWord_of_lt_8 role n _ h, Option.getD_some, slice_of_le (by omega)]

/-- A frame with a short tag of four octets: the tag in COO 2 to 5, the word of R149 in COO 6 and 7 (R147). -/
theorem State.cooOf_of_txTag {s : State} {c : Nat} {t : Octets} (n slot e : Nat) (fill : Bool)
    (h : (s.l1run c).txTag = some t) :
    ∃ b0 b1, (s.cooOf c n slot e fill).1 =
      [b0, b1] ++ t ++ cooWord (s.l1Role (chanGroup c)) n (if n % 256 < 8 then (s.l1run c).txLong else none) := by
  unfold State.cooOf
  simp only [h]
  exact ⟨_, _, rfl⟩

/-- Settles O9, by the position in the multiframe, and by the place of the word after a tag of four octets. -/
theorem countWordOctets : Obligations.CountWordOctets := by
  refine ⟨fun role n long hl _ _ => ⟨fun h => ⟨?_, ?_⟩, cooWord_count role n long, cooWord_check role n long,
    cooWord_of_13_le role n long⟩, fun s c n slot e fill t ht hlen => ?_⟩
  · rintro l rfl
    exact cooWord_longTag role n (hl l rfl) h
  · rintro rfl
    exact (cooWord_of_lt_8 role n none h).trans (slice_nil _ 2)
  · obtain ⟨b0, b1, hcoo⟩ := State.cooOf_of_txTag n slot e fill ht
    simp only [hcoo]
    constructor
    · exact List.drop_left' (by simp [hlen])
    · exact List.take_left' hlen

end Sys2Proof.Machine

namespace Sys2Proof.Machine

open Sys2Proof Sys2Proof.Claims

/-! ### What an instruction of one result does (R372) -/

@[simp] theorem begun_thread (s : State) (t k : Nat) : (begun s t).thread k = s.thread k := by
  rw [begun, State.issued_thread, State.fetch_thread]

@[simp] theorem begun_g (s : State) (t k r : Nat) : (begun s t).g k r = s.g k r := by
  rw [begun, State.issued_g, State.fetch_g]

theorem State.issue_of_ready {s : State} {t w : Nat} (h : Ready s t w)
    (body : State → Host.Outcome State Fault Refusal) : s.issue t w body = body (begun s t) :=
  State.issue_ready h.1 h.2

theorem State.g_writeStep (s : State) (t rd r : Nat) (v : Word) :
    (s.writeStep t rd v).g t r = if r = 0 then 0 else if r = rd then v else s.g t r := by
  rw [State.writeStep, State.step4, State.g_setPc, State.g_setG]

theorem State.thread_writeStep_self (s : State) (t rd : Nat) (v : Word) :
    ∃ gs, (s.writeStep t rd v).thread t = { s.thread t with g := gs, pc := (s.thread t).pc + 4 } := by
  obtain ⟨gs, hgs⟩ := (s.thread_setG t rd t v).1
  exact ⟨gs, by rw [State.writeStep, State.step4, State.thread_setPc, if_pos rfl, hgs]⟩

theorem State.thread_writeStep_of_ne (s : State) {t k : Nat} (rd : Nat) (v : Word) (h : k ≠ t) :
    (s.writeStep t rd v).thread k = s.thread k := by
  rw [State.writeStep, State.step4, State.thread_setPc, if_neg h, (s.thread_setG t rd k v).2 h]

/-- The write of x[rd] with pc + 4 is all that `Puts` allows. -/
theorem puts_writeStep (s : State) (t rd : Nat) (v : Word) : Puts s t rd v (.next ((begun s t).writeStep t rd v)) := by
  obtain ⟨gs, hself⟩ := (begun s t).thread_writeStep_self t rd v
  refine ⟨_, rfl, fun r => ?_, ⟨gs, ?_⟩, fun k hk => ?_, State.writeStep_eq ..⟩
  · rw [State.g_writeStep, begun_g]
  · rw [hself, begun_thread]
  · rw [State.thread_writeStep_of_ne _ rd v hk, begun_thread]

section
variable {s : State} {t rd rs1 rs2 : Nat} {v : Word}

theorem State.alu3_puts {fn : Nat} {f : Word → Word → Word} (hv : f (s.g t rs1) (s.g t rs2) = v)
    (h : Ready s t (encA 0x00 rd rs1 rs2 fn)) : Puts s t rd v (s.alu3 fn t rd rs1 rs2 f) := by
  rw [State.alu3, State.issue_of_ready h, begun_g, begun_g, hv]
  exact puts_writeStep s t rd v

theorem State.alu2_puts {w : Nat} {f : Word → Word} (hv : f (s.g t rs1) = v) (h : Ready s t w) :
    Puts s t rd v (s.alu2 w t rd rs1 f) := by
  rw [State.alu2, State.issue_of_ready h, begun_g, hv]
  exact puts_writeStep s t rd v

variable {op : Nat} {imm : BitVec 16} {f : Word → Nat → Word}

theorem State.shiftImm_puts (hi : imm.toNat < 64) (hv : f (s.g t rs1) imm.toNat = v)
    (h : Ready s t (encI op rd rs1 imm)) : Puts s t rd v (s.shiftImm op t rd rs1 imm f) := by
  rw [State.shiftImm, State.issue_of_ready h, if_neg (Nat.not_le.mpr hi), begun_g, hv]
  exact puts_writeStep s t rd v

/-- imm[15:6] must be 0 (R368): a longer shift is an illegal instruction. -/
theorem State.shiftImm_illegal (hi : 64 ≤ imm.toNat) (h : Ready s t (encI op rd rs1 imm)) :
    s.shiftImm op t rd rs1 imm f = .next ((begun s t).takeTrap t 1 0 (encI op rd rs1 imm) 0) := by
  rw [State.shiftImm, State.issue_of_ready h, if_pos hi]

end

/-! ### The results of R372 as numbers -/

section
variable (a b : Word) (n : Nat) (imm : BitVec 16)

theorem shiftLeft_eq_ofNat : a <<< n = BitVec.ofNat 64 (a.toNat * 2 ^ n) := by
  rw [← Nat.shiftLeft_eq]; rfl

theorem ushiftRight_eq_ofNat : a >>> n = BitVec.ofNat 64 (a.toNat / 2 ^ n) := by
  rw [← Nat.shiftRight_eq_div_pow, ← BitVec.toNat_ushiftRight, BitVec.ofNat_toNat, BitVec.setWidth_eq]

theorem sshiftRight_eq_ofInt : a.sshiftRight n = BitVec.ofInt 64 (a.toInt / (2 ^ n : Nat)) := by
  rw [← Int.shiftRight_eq_div_pow]; rfl

theorem ofBool_ltSigned : ofBool (ltSigned a b) = if a.toInt < b.toInt then 1 else 0 := by
  simp only [ofBool, ltSigned, BitVec.slt_eq_decide, decide_eq_true_eq]

theorem ofBool_ltUnsigned : ofBool (ltUnsigned a b) = if a.toNat < b.toNat then 1 else 0 := by
  simp only [ofBool, ltUnsigned, BitVec.ult_eq_decide, decide_eq_true_eq]

theorem ofBool_ltWrap : ofBool (ltWrap a b) = if (a - b).toInt < 0 then 1 else 0 := by
  simp only [ofBool, ltWrap, BitVec.msb_eq_toInt, decide_eq_true_eq]

theorem add_sext16 : a + sext16 imm = BitVec.ofInt 64 (a.toInt + imm.toInt) := by
  rw [BitVec.ofInt_add, BitVec.ofInt_toInt]; rfl

theorem and_zext16 : a &&& zext16 imm = BitVec.ofNat 64 (a.toNat &&& imm.toNat) := by
  rw [BitVec.ofNat_and, BitVec.ofNat_toNat, BitVec.ofNat_toNat, BitVec.setWidth_eq]; rfl

theorem or_zext16 : a ||| zext16 imm = BitVec.ofNat 64 (a.toNat ||| imm.toNat) := by
  rw [BitVec.ofNat_or, BitVec.ofNat_toNat, BitVec.ofNat_toNat, BitVec.setWidth_eq]; rfl

theorem xor_zext16 : a ^^^ zext16 imm = BitVec.ofNat 64 (a.toNat ^^^ imm.toNat) := by
  rw [BitVec.ofNat_xor, BitVec.ofNat_toNat, BitVec.ofNat_toNat, BitVec.setWidth_eq]; rfl

/-- The immediate takes the 16 bits that the shift leaves free, so joining and adding agree. -/
theorem shiftLeft_or_zext16 : a <<< 16 ||| zext16 imm = BitVec.ofNat 64 (a.toNat * 2 ^ 16 + imm.toNat) := by
  rw [← Nat.shiftLeft_eq, Nat.shiftLeft_add_eq_or_of_lt imm.isLt, BitVec.ofNat_or, BitVec.ofNat_toNat]
  rfl

end

/-- A number of `m` bits, its highest one set, has `k - m` leading zeros among `k` bits. -/
theorem clzFrom_eq_sub {v m k : Nat} (hm : m ≤ k) (hlt : v < 2 ^ m) (htop : 0 < m → 2 ^ (m - 1) ≤ v) :
    clzFrom v k = k - m := by
  induction k with
  | zero => rw [clzFrom, Nat.zero_sub]
  | succ k ih =>
    obtain rfl | hmk := Nat.eq_or_lt_of_le hm
    · have topSet : v.testBit k := Nat.testBit_of_two_pow_le_and_two_pow_add_one_gt (htop k.succ_pos) hlt
      rw [clzFrom, if_pos topSet, Nat.sub_self]
    · have hmk : m ≤ k := Nat.le_of_lt_succ hmk
      have topClear : v.testBit k = false :=
        Nat.testBit_lt_two_pow (Nat.lt_of_lt_of_le hlt (Nat.pow_le_pow_right Nat.two_pos hmk))
      rw [clzFrom, if_neg (Bool.eq_false_iff.mp topClear), ih hmk, Nat.succ_sub hmk]

theorem clz_of_leadingZeros {a : Word} {n : Nat} (h : LeadingZeros a n) : clz a = BitVec.ofNat 64 n := by
  obtain ⟨hn, hlt, htop⟩ := h
  have top : 0 < 64 - n → 2 ^ (64 - n - 1) ≤ a.toNat := fun hpos => by
    rw [Nat.sub_right_comm]
    exact htop (Nat.sub_pos_iff_lt.mp hpos)
  rw [clz, clzFrom_eq_sub (Nat.sub_le 64 n) hlt top, Nat.sub_sub_self hn]

theorem popFrom_eq_length (v k : Nat) : popFrom v k = ((List.range k).filter v.testBit).length := by
  induction k with
  | zero => rfl
  | succ k ih =>
    rw [popFrom, ih, List.range_succ, List.filter_append, List.length_append, Nat.add_comm]
    cases h : v.testBit k with
    | false => rw [List.filter_cons_of_neg (Bool.eq_false_iff.mp h)]; rfl
    | true => rw [List.filter_cons_of_pos h]; rfl

theorem popc_eq_oneBits (a : Word) : popc a = BitVec.ofNat 64 (oneBits a) := by
  rw [popc, popFrom_eq_length, oneBits]

/-- Settles O10, an instruction at a time: the rule of its format, with its result as the number of R372. -/
theorem balridAluResults : Obligations.BalridAluResults := by
  intro s t rd rs1 rs2 imm
  dsimp only [exec]
  exact ⟨
    -- ADD, SUB, AND, OR, XOR
    State.alu3_puts rfl, State.alu3_puts rfl, State.alu3_puts rfl, State.alu3_puts rfl, State.alu3_puts rfl,
    -- SLL, SRL, SRA
    State.alu3_puts (shiftLeft_eq_ofNat ..), State.alu3_puts (ushiftRight_eq_ofNat ..),
    State.alu3_puts (sshiftRight_eq_ofInt ..),
    -- MUL, MULHU
    State.alu3_puts rfl, State.alu3_puts rfl,
    -- SLT, SLTU, SLTW
    State.alu3_puts (ofBool_ltSigned ..), State.alu3_puts (ofBool_ltUnsigned ..), State.alu3_puts (ofBool_ltWrap ..),
    -- CLZ, POPC
    fun _ hn => State.alu2_puts (clz_of_leadingZeros hn), State.alu2_puts (popc_eq_oneBits _),
    -- ADDI, ANDI, ORI, XORI, SHI
    State.alu2_puts (add_sext16 ..), State.alu2_puts (and_zext16 ..), State.alu2_puts (or_zext16 ..),
    State.alu2_puts (xor_zext16 ..), State.alu2_puts (shiftLeft_or_zext16 ..),
    -- SLLI, SRLI, SRAI
    fun hi => ⟨State.shiftImm_puts hi (shiftLeft_eq_ofNat ..), State.shiftImm_puts hi (ushiftRight_eq_ofNat ..),
      State.shiftImm_puts hi (sshiftRight_eq_ofInt ..)⟩,
    fun hi => ⟨State.shiftImm_illegal hi, State.shiftImm_illegal hi, State.shiftImm_illegal hi⟩⟩

end Sys2Proof.Machine

namespace Sys2Proof.Machine

open Sys2Proof

/-! ### Network time -/

theorem neg_le_signed {w : Nat} (hw : 0 < w) (n : Nat) : -((2 ^ (w - 1) : Nat) : Int) ≤ signed w n := by
  have hhalf := Nat.two_pow_pred_add_two_pow_pred hw
  dsimp only [signed]
  split <;> omega

/-- RATE is above −1, so the natural number that the model multiplies by is the exact factor of R638. -/
theorem toNat_rateFactor (rate : Nat) :
    (((2 ^ 40 : Int) + signed 32 rate).toNat : Int) = 2 ^ 40 + signed 32 rate := by
  have hrate := neg_le_signed (w := 32) (by decide) rate
  omega

theorem elapsed_eq_ediv (n rate : Nat) :
    (elapsed n rate : Int) = n * 2 * 2 ^ 16 * (2 ^ 40 + signed 32 rate) / (3 * 2 ^ 40) := by
  have hunit : (n : Int) * 2 * 2 ^ 16 = ((n * 2 ^ 17 : Nat) : Int) := by omega
  rw [elapsed, Int.natCast_ediv, Int.natCast_mul, toNat_rateFactor, hunit]
  rfl

theorem mul_elapsed_le (n rate : Nat) :
    3 * 2 ^ 40 * (elapsed n rate : Int) ≤ n * 2 * 2 ^ 16 * (2 ^ 40 + signed 32 rate) := by
  rw [elapsed_eq_ediv]
  exact Int.mul_ediv_self_le (by decide)

theorem lt_mul_elapsed_add_one (n rate : Nat) :
    n * 2 * 2 ^ 16 * (2 ^ 40 + signed 32 rate) < 3 * 2 ^ 40 * ((elapsed n rate : Int) + 1) := by
  rw [elapsed_eq_ediv, Int.mul_comm (3 * 2 ^ 40)]
  exact Int.lt_ediv_add_one_mul_self _ (by decide)

/-- Two thirds of a nanosecond for each Tick, at RATE 0. -/
theorem elapsed_rate_zero (n : Nat) : elapsed n 0 = n * 2 ^ 17 / 3 := by
  have hfactor : ((2 ^ 40 : Int) + signed 32 0).toNat = 2 ^ 40 := by decide
  rw [elapsed, hfactor, Nat.mul_div_mul_right _ _ (by decide)]

theorem State.timeAt_of_valid {s : State} (h : s.rd CLK_STAT.VALID = 1) (k : Word) :
    s.timeAt k = timeWrap (s.clock.base + elapsed (k - s.clock.baseTick).toNat (s.rd CLK_RATE.RATE)) :=
  if_pos (show s.is CLK_STAT.VALID = true from bne_iff_ne.mpr (by omega))

theorem timeSec_timeWrap_lt (t : Nat) : timeSec (timeWrap t) < 2 ^ 48 :=
  Nat.div_lt_of_lt_mul (by rw [Nat.mul_comm]; exact Nat.mod_lt _ (by decide))

theorem timeNs_lt (t : Nat) : timeNs t < 10 ^ 9 :=
  Nat.div_lt_of_lt_mul (by rw [Nat.mul_comm]; exact Nat.mod_lt _ (by decide))

theorem timeFrac_lt (t : Nat) : timeFrac t < 2 ^ 16 := Nat.mod_lt _ (by decide)

/-- The parts of a time make it up: a second is a whole number of nanoseconds, so FRAC is what NS leaves. -/
theorem time_eq_parts (t : Nat) : t = timeSec t * second + timeNs t * 2 ^ 16 + timeFrac t := by
  have hfrac : timeFrac t = t % second % 2 ^ 16 := (Nat.mod_mod_of_dvd t ⟨10 ^ 9, by decide⟩).symm
  rw [hfrac, timeNs, timeSec, Nat.add_assoc, Nat.div_add_mod', Nat.div_add_mod']

/-- Settles O7: the time passed is `elapsed`, the floor of the exact product, and the wrapped sum splits into its
parts. -/
theorem networkTimeFormula : Obligations.NetworkTimeFormula := by
  refine ⟨fun s k hvalid => ⟨elapsed (k - s.clock.baseTick).toNat (s.rd CLK_RATE.RATE),
    mul_elapsed_le _ _, lt_mul_elapsed_add_one _ _, ?_, ?_, timeNs_lt _, timeFrac_lt _, ?_⟩, fun n => ⟨?_, ?_⟩⟩
  · rw [State.timeAt_of_valid hvalid, timeWrap, Int.natCast_emod, Int.natCast_add]
    rfl
  · rw [State.timeAt_of_valid hvalid]
    exact timeSec_timeWrap_lt _
  · have hparts := time_eq_parts (s.timeAt k)
    rw [second] at hparts
    omega
  · rw [elapsed_rate_zero, second]
    omega
  · rw [elapsed_rate_zero]
    omega

end Sys2Proof.Machine
